-- ==== Sys2Proof/Word.lean ====
section
/-!
DEFINITION. The words the block is described in, and the sorted tables in which State keeps sparse data.
-/

namespace Sys2Proof

/-- One byte of memory, of a mailbox or of a payload. -/
abbrev Byte := BitVec 8

/-- A 64-bit little-endian word of a frame header, a descriptor or a register. -/
abbrev Word64 := BitVec 64

/-- A key of the Vault or of a link, 256 bits (21 R502, 15 R403). -/
abbrev Key := BitVec 256

/-- A SHAKE256 digest of 64 bytes. -/
abbrev Digest := BitVec 512

/-- A sparse table: keys strictly rising. An absent key stands for the default its user names. -/
abbrev Tab (α : Type) := List (Nat × α)

namespace Tab

/-- The entry of key k, if the table lists one. -/
def find {α : Type} : Tab α → Nat → Option α
  | [], _ => none
  | (j, a) :: t, k => if j = k then some a else find t k

/-- The entry of key k, or d. -/
def get {α : Type} (t : Tab α) (k : Nat) (d : α) : α := (find t k).getD d

/-- The table with a at key k. -/
def put {α : Type} : Tab α → Nat → α → Tab α
  | [], k, a => [(k, a)]
  | (j, b) :: t, k, a =>
    if k < j then (k, a) :: (j, b) :: t
    else if j = k then (k, a) :: t
    else (j, b) :: put t k a

/-- The table without key k. -/
def del {α : Type} (t : Tab α) (k : Nat) : Tab α := t.filter fun e => e.1 != k

/-- The table with f applied to the entry of key k, where d stands for an absent one. -/
def upd {α : Type} (t : Tab α) (k : Nat) (d : α) (f : α → α) : Tab α := t.put k (f (t.get k d))

/-- The table with f applied to every entry. -/
def mapVals {α : Type} (t : Tab α) (f : Nat → α → α) : Tab α := t.map fun p => (p.1, f p.1 p.2)

/-- The keys whose entry satisfies p. -/
def keysWhere {α : Type} (t : Tab α) (p : Nat → α → Bool) : List Nat :=
  (t.filter fun e => p e.1 e.2).map Prod.fst

end Tab

/-- Bit i of n. -/
def bit (n i : Nat) : Bool := n.testBit i

/-- Bits [lo + w - 1 : lo] of n. -/
def bits (n lo w : Nat) : Nat := (n >>> lo) % 2 ^ w

/-- n / d rounded up. -/
def ceilDiv (n d : Nat) : Nat := (n + d - 1) / d

/-- 1 for true. -/
def b2n (b : Bool) : Nat := if b then 1 else 0

/-- Replace entry n of a list, if it has one. -/
def setNth {α : Type} (l : List α) (n : Nat) (a : α) : List α := l.set n a

end Sys2Proof
end

