-- ==== Sys2Proof/Syntax.lean ====
section
/-!
DEFINITION. The block's commands: one constructor of Instr for each row of the opcode table, and the frames, link
units, messages and records that the commands carry.
-/

namespace Sys2Proof

/-- The two devices of the block: the MVZ-6424 switch and the AKG-8 end-point. -/
inductive Dev where
  | sw
  | ep
  deriving DecidableEq, Repr

/-- A frame (03 R57): the header fields and the logical payload, omitted slots as zeros (R70). -/
structure Frame where
  dest : Nat := 0
  src : Nat := 0
  agent : Nat := 0
  partition : Nat := 0
  cls : Nat := 0
  typ : Nat := 0
  tag : Nat := 0
  f : Bool := false
  keySlot : Nat := 0
  inc : Nat := 0
  offset : Nat := 0
  age : Nat := 0
  length : Nat := 0
  sparse : Nat := 0
  status : Nat := 0
  opx : BitVec 28 := 0
  ext : BitVec 64 := 0
  data : List Byte := []
  deriving DecidableEq, Repr

/-- The request of a port whose completion timeout ends (03 R80): in flight under a tag; held in its core stage, by its place in the device's order of
issue; or not yet issued, since the party's access waits for its translation (02 R44): an engine, or 256 + graph slot for a done record. The last two
have no tag of a port yet, and their port is 0. -/
inductive Timed where
  | flight (tag : Nat)
  | held (order : Nat)
  | miss (party : Nat)
  deriving DecidableEq, Repr

/-- A control slot of a DATA flit (15 R384). -/
inductive Ctrl where
  | void (reason : Nat)
  | credit (entries : List (Nat × Nat))
  | probeReq (id : Nat)
  | probeRsp (id d t2 : Nat)
  | probeInfo (hops book : Nat) (master valid viaStandby : Bool) (change packageId : Nat)
  | reserved (typ : Nat)
  deriving DecidableEq, Repr

/-- The identity record of a link partner (14 R365). -/
structure Identity where
  part : Nat := 0
  stepping : Nat := 0
  role : Nat := 0
  mode : Nat := 0
  port : Nat := 0
  homeId : Nat := 0x3FF
  maxStep : Nat := 3
  warm : Bool := false
  table : Bool := false
  racks : Nat := 1
  serial : Nat := 0
  storedPartner : Nat := 0
  deriving DecidableEq, Repr

/-- A key exchange message (15 R401): what it carries that the partner checks. -/
structure KeyMsg where
  g : Nat := 4
  nonce : BitVec 256 := 0
  kem : List Byte := []
  cert : List Byte := []
  sig : List Byte := []
  deriving DecidableEq, Repr

/-- A mirror record of BAR4 (18 R463). -/
structure MirrorRec where
  kind : Nat := 1
  region : Nat := 0
  source : Nat := 0
  seq : Nat := 0
  line : Nat := 0
  check : BitVec 64 := 0
  data : List Byte := []
  deriving DecidableEq, Repr

/-- An accelerator operation of a REQ (24 R559). -/
inductive ReqOp where
  | read
  | readVol
  | write
  | deposit
  | atomic
  deriving DecidableEq, Repr

/-- A REQ message of the accelerator (24 R559). aop holds OPX as R66 lays it out. -/
structure Req where
  utag : Nat := 0
  agent : Nat := 0
  op : ReqOp := .read
  f : Bool := false
  sched : Bool := false
  cva : Nat := 0
  length : Nat := 0
  aop : BitVec 28 := 0
  ext : BitVec 64 := 0
  data : List Byte := []
  deriving DecidableEq, Repr

/-- A fence of an agent or a task (04 R87, 24 R559). -/
inductive FenceKind where
  | acquire
  | release
  deriving DecidableEq, Repr

/-- Fence scopes (04 R87). -/
inductive Scope where
  | core
  | chip
  | system
  deriving DecidableEq, Repr

/-- The call record of a CALL (24 R570). -/
structure CallRec where
  synd : Nat := 0
  cop : Nat := 0
  fmt : Nat := 0
  rop : Nat := 0
  sat : Bool := false
  unsigned : Bool := false
  notes : Bool := false
  reserved : Bool := false
  root : Nat := 0
  len : Nat := 0
  send : Nat := 0
  recv : Nat := 0
  sendScale : Nat := 0
  recvScale : Nat := 0
  report : Nat := 0
  deriving DecidableEq, Repr

/-- The item that an uncorrectable SRAM error struck (06 R148, 23 R553, 13 R357). -/
inductive SramItem where
  | cell (port queue : Nat)
  | directory (unit line : Nat)
  | portTable (port : Nat)
  | poolCache (line : Nat)
  | scratch (offset : Nat)
  | trunkVc (port vc : Nat)
  | engineTile (engine : Nat)
  | teller
  deriving DecidableEq, Repr

/-- What a PLDM request of the sideband asks for (18 R466, 25 R588). -/
inductive PldmItem where
  | temperature (sensor : Nat)
  | current (rail : Nat)
  | input
  | power
  | pace
  | domain (kind index : Nat)
  | events
  deriving DecidableEq, Repr

/-- A link equalisation: transmit FIR taps and the receiver's starting point (14 R369). -/
structure EqSet where
  taps : List Nat := []
  start : Nat := 0
  deriving DecidableEq, Repr

/-- What becomes of a training state when the PHY reports (14 R364, R371). -/
structure LaneReport where
  /-- figures of merit of D0 to D7, J, T in the receive direction -/
  figures : List Nat := []
  /-- the partner holds a table entry for the step -/
  table : Bool := false
  /-- the figures of the transmit direction, which the partner reports -/
  partner : List Nat := List.replicate 10 255
  /-- the equalisation that adaptive mode ended with -/
  eq : EqSet := {}
  deriving DecidableEq, Repr

/-- The figures of merit of both directions of a link at the end of MAP: those of the receive direction, and those that the partner reports (14 R364). -/
structure LaneFigures where
  own : List Nat
  partner : List Nat
  deriving DecidableEq, Repr

/-- Lanes that fail in one check; out: of the transmit direction, as the partner reports (14 R373, R375). -/
structure FailedLanes where
  lanes : List Nat
  out : Bool
  deriving DecidableEq, Repr

/-- A port of a device. -/
structure DevPort where
  dev : Dev
  port : Nat
  deriving DecidableEq, Repr

/-- Bit errors of a lane's test in each direction (14 R377). -/
structure LaneErrors where
  own : Nat
  partner : Nat
  deriving DecidableEq, Repr

/-- How a lane failed (14 R373). -/
inductive LaneFault where
  | lostLock
  | corrected
  | test
  deriving DecidableEq, Repr

/-- The commands of the block: one constructor per row of spec/opcode_table.json, in its order. A mailbox command's
operands are the issuing function (0 PF0, n VF n) and the mailbox that holds it (16 R413). -/
inductive Instr where
  | devInfo (fn mb : Nat)
  | devReset (fn mb : Nat)
  | cfgModeSet (fn mb : Nat)
  | cfgBookCommit (fn mb : Nat)
  | cfgTimers (fn mb : Nat)
  | cfgCoherence (fn mb : Nat)
  | partAdmit (fn mb : Nat)
  | partRemove (fn mb : Nat)
  | partEnginesSet (fn mb : Nat)
  | partPoolSet (fn mb : Nat)
  | segTableSet (fn mb : Nat)
  | segInvalidate (fn mb : Nat)
  | portSpeedSet (fn mb : Nat)
  | portEqSet (fn mb : Nat)
  | calEqStore (fn mb : Nat)
  | portLaneTest (fn mb : Nat)
  | portTestPolicySet (fn mb : Nat)
  | portNarrow (fn mb : Nat)
  | linkSealSet (fn mb : Nat)
  | linkRekey (fn mb : Nat)
  | timeMasterSet (fn mb : Nat)
  | timeSet (fn mb : Nat)
  | schedStage (fn mb : Nat)
  | schedArm (fn mb : Nat)
  | schedDisarm (fn mb : Nat)
  | bookPolicySet (fn mb : Nat)
  | shaperSet (fn mb : Nat)
  | policerSet (fn mb : Nat)
  | shaperRead (fn mb : Nat)
  | regionSet (fn mb : Nat)
  | regionHandover (fn mb : Nat)
  | regionRead (fn mb : Nat)
  | regionLostClear (fn mb : Nat)
  | nearStoreSet (fn mb : Nat)
  | scrubSet (fn mb : Nat)
  | retireLimitSet (fn mb : Nat)
  | partnerSet (fn mb : Nat)
  | partnerPromote (fn mb : Nat)
  | partnerBreak (fn mb : Nat)
  | syndCreate (fn mb : Nat)
  | syndDestroy (fn mb : Nat)
  | syndMemberSet (fn mb : Nat)
  | syndQuotaSet (fn mb : Nat)
  | escrowMailboxSet (fn mb : Nat)
  | escrowQuotaSet (fn mb : Nat)
  | escrowCancel (fn mb : Nat)
  | vaultKemRead (fn mb : Nat)
  | keyLoad (fn mb : Nat)
  | keyRetire (fn mb : Nat)
  | signerEnrol (fn mb : Nat)
  | strongroomSet (fn mb : Nat)
  | assayRequest (fn mb : Nat)
  | keyRewrap (fn mb : Nat)
  | keyRewrapRelease (fn mb : Nat)
  | ledgerRegionSet (fn mb : Nat)
  | ledgerRead (fn mb : Nat)
  | ledgerSealNow (fn mb : Nat)
  | ckptSave (fn mb : Nat)
  | ckptRestore (fn mb : Nat)
  | powerVote (fn mb : Nat)
  | paceSet (fn mb : Nat)
  | brakeSet (fn mb : Nat)
  | powerRead (fn mb : Nat)
  | tallyRead (fn mb : Nat)
  | faultLogRead (fn mb : Nat)
  | tallyQueueRead (fn mb : Nat)
  | fenceSet (fn mb : Nat)
  | fenceClear (fn mb : Nat)
  | fdSet (fn mb : Nat)
  | epReadmit (fn mb : Nat)
  | fwStage (fn mb : Nat)
  | fwActivate (fn mb : Nat)
  /-- host: the bytes a host read brought, or the success of a host write; none: the host access failed -/
  | commandCompletion (fn mb : Nat) (host : Option (List Byte))
  /-- fn: 0 PF0, n VF n, for the switch; the sideband for the end-point -/
  | registerWrite (dev : Dev) (fn off size : Nat) (val : BitVec 64)
  | swEventClear (val : BitVec 32)
  | epEventClear (val : BitVec 32)
  | epAgentBindWrite (agent : Nat) (val : BitVec 64)
  | hostWindowRead (fn ctag addr len : Nat)
  | hostWindowWrite (fn addr : Nat) (data : List Byte)
  /-- rid: the home ID of the switch whose HOST function is the Requester ID -/
  | mirrorLine (rid : Nat) (r : MirrorRec)
  | mirrorAck (rid : Nat) (r : MirrorRec)
  | functionLevelReset (fn : Nat)
  | perstNAssert
  | perstNRelease
  | pldmRequest (item : PldmItem)
  | frameArrival (port : Nat) (f : Frame)
  | matcherRound
  | queueSample
  | bucketRefill
  | gateEntryEnd (dev : Dev) (port : Nat)
  | cycleBoundary (dev : Dev) (cycle : Nat)
  | lineOperation (unit : Nat)
  | homeBusyTimeout (unit idx : Nat)
  /-- pos: source position at the home: a port, 64 for the switch's own engines (05 R125) -/
  | read (dev : Dev) (pos : Nat) (f : Frame)
  | readVol (dev : Dev) (pos : Nat) (f : Frame)
  | readShared (dev : Dev) (pos : Nat) (f : Frame)
  | readOwn (dev : Dev) (pos : Nat) (f : Frame)
  | claim (dev : Dev) (pos : Nat) (f : Frame)
  | write (dev : Dev) (pos : Nat) (f : Frame)
  | writeLog (dev : Dev) (pos : Nat) (f : Frame)
  | deposit (dev : Dev) (pos : Nat) (f : Frame)
  | atomic (dev : Dev) (pos : Nat) (f : Frame)
  | fabricMailboxWrite (pos : Nat) (f : Frame)
  | fabricMailboxRead (pos : Nat) (f : Frame)
  | readRsp (dev : Dev) (port : Nat) (f : Frame)
  | writeRsp (dev : Dev) (port : Nat) (f : Frame)
  | atomicRsp (dev : Dev) (port : Nat) (f : Frame)
  | snoop (port : Nat) (f : Frame)
  | snoopRsp (dev : Dev) (port : Nat) (f : Frame)
  | fwdData (dev : Dev) (port : Nat) (f : Frame)
  | writeback (port : Nat) (f : Frame)
  | cohAck (dev : Dev) (port : Nat) (f : Frame)
  | backInv (port : Nat) (f : Frame)
  | depositFill (port : Nat) (f : Frame)
  | translateReq (port : Nat) (f : Frame)
  | translateRsp (port : Nat) (f : Frame)
  | tableReadComplete (ctx : Nat) (data : List Byte)
  | tableReadTimeout (ctx : Nat)
  | segInv (dev : Dev) (port : Nat) (f : Frame)
  | segInvAck (dev : Dev) (port : Nat) (f : Frame)
  | engineDrainTimeout (number : Nat)
  | relayAckTimeout (number : Nat)
  | invalidationTimeout (number : Nat)
  | completionTimeout (dev : Dev) (port : Nat) (tag : Timed)
  | tagQuarantineEnd (dev : Dev) (port tag : Nat)
  | holdEnd (fga : Nat)
  | coherenceAnswerTimeout (dev : Dev) (line endpoint : Nat)
  | handoverTimeout (dev : Dev) (region : Nat)
  | collData (port : Nat) (f : Frame)
  | collResult (port : Nat) (f : Frame)
  | collConfirm (port : Nat) (f : Frame)
  | collConfirmSettled (dev : Dev) (port : Nat) (f : Frame)
  | collRecall (port : Nat) (f : Frame)
  | collRecallSwitch (port : Nat) (f : Frame)
  | collAbort (dev : Dev) (port : Nat) (f : Frame)
  | settlementLimit (synd epoch chunk : Nat)
  | req (r : Req)
  | fence (agent utag : Nat) (kind : FenceKind) (scope : Scope)
  | call (agent utag : Nat) (c : CallRec)
  | memCpl (utag : Nat) (data : List Byte)
  | ucieModuleFail (module : Nat)
  | taskComplete (slot task : Nat)
  | retryWaitEnd (slot task : Nat)
  | deadline (slot : Nat)
  | waitTimeReached (slot task : Nat)
  | admissionWaitExpiry (mailbox : Nat)
  | heartbeat (port : Nat) (f : Frame)
  | heartbeatAck (port : Nat) (f : Frame)
  | heartbeatInstant
  | suspect (dev : Dev) (port : Nat) (f : Frame)
  | suspectExpiry (endpoint sender : Nat)
  | verdict (dev : Dev) (port : Nat) (f : Frame)
  | fenceNotice (port : Nat) (f : Frame)
  | admitFrame (port : Nat) (f : Frame)
  | readmit (dev : Dev) (port : Nat) (f : Frame)
  | config (port : Nat) (f : Frame)
  | confirm (dev : Dev) (port : Nat) (f : Frame)
  | resendTimer (id : Nat)
  | bookReport (dev : Dev) (port : Nat) (f : Frame)
  | bookSet (dev : Dev) (port : Nat) (f : Frame)
  | bookAck (dev : Dev) (port : Nat) (f : Frame)
  | bookSetResend (dev : Dev) (port : Nat)
  | returnHoldEnd
  | slowSet
  | slowClear
  | powerReq (dev : Dev) (port : Nat) (f : Frame)
  | powerAck (dev : Dev) (port : Nat) (f : Frame)
  | slotClose (port : Nat) (f : Frame)
  | slotOpen (port : Nat) (f : Frame)
  | inputCopy (port : Nat) (f : Frame)
  | inputAck (port : Nat) (f : Frame)
  | inputAckTimeout (port tag : Nat)
  | inputCopyWaitEnd (src tag : Nat)
  | stagingRoom (partition bytes : Nat)
  | ledgerSealTimer (partition : Nat)
  | flitReceive (dev : Dev) (port : Nat) (bytes : List Byte)
  | nak (dev : Dev) (port restart : Nat)
  | nakRepeat (dev : Dev) (port : Nat)
  | void (dev : Dev) (port reason : Nat)
  | credit (dev : Dev) (port : Nat) (entries : List (Nat × Nat))
  /-- at: the arrival time of the flit that holds the slot, in units of 2^-32 s -/
  | probeReq (dev : Dev) (port id at_ : Nat)
  | probeRsp (dev : Dev) (port id d t2 t4 : Nat)
  | probeInfo (dev : Dev) (port hops book : Nat) (master valid viaStandby : Bool) (change packageId : Nat)
  | probeTimer (dev : Dev) (port : Nat)
  | init (dev : Dev) (port : Nat) (m : KeyMsg)
  | resp (dev : Dev) (port : Nat) (m : KeyMsg)
  | fin (dev : Dev) (port : Nat) (m : KeyMsg)
  | rekeyReq (dev : Dev) (port : Nat)
  | keyExchangeTimeout (dev : Dev) (port : Nat)
  | rekeyCount (dev : Dev) (port : Nat)
  | keyCounterExhausted (dev : Dev) (port : Nat)
  | rekeyRetry (dev : Dev) (port : Nat)
  | partnerClockLock (dev : Dev) (port : Nat)
  | identityRecord (dev : Dev) (port : Nat) (copies : List (List Byte))
  | equaliseDone (dev : Dev) (port : Nat) (r : LaneReport)
  | laneMapDone (dev : Dev) (port : Nat) (figures : LaneFigures)
  | trainingTimeout (dev : Dev) (port : Nat)
  | laneFailed (dev : Dev) (port : Nat) (lane : FailedLanes) (cause : LaneFault)
  | laneChangeDone (dev : Dev) (port : Nat)
  | periodicTestDue (port : DevPort)
  | laneTestEnd (port : DevPort) (lane : Nat) (errors : LaneErrors)
  | chime (dev : Dev) (port : Nat)
  | linkLoss (port : Nat)
  | endpointLinkLoss (port : Nat)
  | endpointPortRedetect (port : Nat)
  | cablePresenceChange (port : Nat) (present : Bool)
  | cableOvercurrent (port : Nat)
  | frequencySourceFail (dev : Dev)
  | timeMasterLost
  | ppsIn
  | wholeSecond
  /-- faulty: the error the scrub read found; 0 none, 1 corrected, 2 uncorrectable, 3 command or address errors persist -/
  | scrub (line faulty : Nat)
  | poolCacheDrainDone
  | resilverCopy (region : Nat)
  | mirrorAckTimeout (region seq : Nat)
  | rewrapStep (record : Nat)
  | retirementCountZero (slot : Nat)
  | retirementTimeout (slot : Nat)
  | sramUncorrected (item : SramItem)
  | idleHoldEnd (kind index : Nat)
  | powerEntryDone (kind index : Nat)
  | wakeStageReady (kind index : Nat)
  | wakeStageTimeout (kind index : Nat)
  | wakeN
  | balanceSample (dev : Dev) (readings : List Nat)
  | regulatorTick (dev : Dev) (watts : Nat)
  | pwrbrkNAssert
  | pwrbrkNDeassert
  | throttle (degrees : Nat)
  | throttleEnd
  | thermalTrip
  | tripHoldEnd
  | inputLow
  | inputOvervoltage
  | endpointThermal (degrees : Nat)
  | powerUp
  | rstNFall (warmSel : Bool)
  | rstNRise
  /-- failed: memory channels that fail training or self-refresh exit at step 8; unrepaired: candidates left without repair at step 9 -/
  | startStepReady (failed : List Nat) (unrepaired : List Nat)
  | epRstN (warm : Bool)
  | tellerLockstep
  | tellerWatchdog
  | tellerRestartEnd
  | tellerRestartTimeout
  | managerMessage
  | managerLost
  | trainingRetry (dev : Dev) (port : Nat)
  | lockLossBeforeActive (dev : Dev) (port : Nat)
  | preStartWorkDone
  | unlistedOpcode (fn mb : Nat)
  | commandTimeout (fn mb : Nat)
  deriving DecidableEq, Repr

end Sys2Proof
end

