-- ==== Sys2Proof/Config.lean ====
section
/-!
DEFINITION. What the spec leaves open (free values: constants without a body) and the functions it names by an
outside standard only, which stay uninterpreted. No proof can see a value of any of them.
-/

namespace Sys2Proof.Config

/-- DESIGN CHOICE (log 5). A fresh free value, by the counter State.fresh. -/
opaque freeBits : Nat → Nat

/-- DESIGN CHOICE (log 8, 06 R144, 21 R502). AES-256-XTS of one 16-byte block of a pool line under a slot's key: the cipher, and its inverse the
plaintext. -/
opaque xtsBlock : (key : Key) → (line block : Nat) → Equiv.Perm (BitVec 128)

/-- DESIGN CHOICE (log 8, 06 R142). The 8 stored check bytes of a line of stored bytes. -/
opaque checkBytes : List Byte → BitVec 64

/-- DESIGN CHOICE (log 9). Byte i of the output of SHAKE256, whose length a caller chooses. -/
opaque shakeByte : (msg : List Byte) → (i : Nat) → Byte

/-- The first n bytes of SHAKE256 of a message, and the little-endian number that they spell. -/
def shakeBytes (n : Nat) (msg : List Byte) : List Byte := (List.range n).map (shakeByte msg)
def shake (n : Nat) (msg : List Byte) : Nat := (shakeBytes n msg).foldr (fun b v => b.toNat + 256 * v) 0

/-- SHAKE256 to 64 bytes. -/
@[irreducible] def shake256 (msg : List Byte) : Digest := BitVec.ofNat 512 (shake 64 msg)

/-- SHAKE256 to 32 bytes, of a shared secret (17 KEY_LOAD). -/
@[irreducible] def shakeKey (msg : List Byte) : Key := BitVec.ofNat 256 (shake 32 msg)

/-- DESIGN CHOICE (log 9). Falcon-1024 verification: public key, digest, signature. -/
opaque falconVerify : (key : List Byte) → Digest → (sig : List Byte) → Bool

/-- DESIGN CHOICE (log 9). The device's own Falcon-1024 signature over a digest, 1,280 bytes. -/
opaque falconSign : Digest → List Byte

/-- DESIGN CHOICE (log 9). The device certificate, 3,176 bytes (21 R517). -/
opaque certificate : List Byte

/-- DESIGN CHOICE (log 9). The identity public key, 1,793 bytes. -/
opaque identityKey : List Byte

/-- DESIGN CHOICE (log 9). The Opfort root public key whose digest ROM holds (21 R516), and the image key (19 R475). -/
opaque rootKey : List Byte
opaque imageKey : List Byte

/-- DESIGN CHOICE (log 9). Digest of the on-die ROM (22 R521). -/
opaque romDigest : Digest

/-- DESIGN CHOICE (log 9). The Vault's key-delivery encapsulation key of a generation, 1,568 bytes (17 R442). -/
opaque kemKey : Nat → List Byte

/-- DESIGN CHOICE (log 9). ML-KEM decapsulation of a ciphertext under the key pair of a generation. -/
opaque kemDecap : Nat → List Byte → List Byte

/-- DESIGN CHOICE (log 9). AES key unwrap per RFC 3394; none when the integrity check fails. -/
opaque keyUnwrap : Key → List Byte → Option Key

/-- DESIGN CHOICE (log 9). The two parity symbols of the Reed-Solomon code of a flit, over its bytes 0 to 251 (15 R388). -/
opaque fecParity : List Byte → BitVec 32

/-- DESIGN CHOICE (log 9). Byte i of the key stream of AES-256-GCM, and its tag over additional data and ciphertext (15 R395 to R398). -/
opaque gcmStream : (key : Key) → (iv : BitVec 96) → (i : Nat) → Byte
opaque gcmTag : (key : Key) → (iv : BitVec 96) → (aad ct : List Byte) → BitVec 128

/-- DESIGN CHOICE (log 9). ML-KEM-1024 of a link exchange (15 R401, R403): the encapsulation key of a decapsulation key, the ciphertext and shared
secret that a random value gives under an encapsulation key, and the shared secret that a decapsulation key finds in a ciphertext. -/
opaque linkKemKey : (dk : List Byte) → List Byte
opaque linkEncap : (ek coin : List Byte) → List Byte × List Byte
opaque linkDecap : (dk ct : List Byte) → List Byte

/-- DESIGN CHOICE (log 5). DIGEST of a config book with this SEQUENCE and these values, whose records the spec does not lay out (19 R469). -/
opaque bookDigest : List Nat → Digest

/-- DESIGN CHOICE (log 77). Bytes of memory that an end-point with this home ID exposes: a switch of the model knows one end-point only. -/
opaque exposedSize : (home : Nat) → Nat

/-- DESIGN CHOICE (log 5). P in hundredths at a core voltage in mV (20 R493 to R495 give no curve). -/
opaque paceAt : (mV : Nat) → Nat

end Sys2Proof.Config
end

