-- ==== Sys2Proof/Machine/State.lean ====
section
/-!
DEFINITION. The state of the block as plain data: one switch, one end-point, what they have sent, and the queue of
waiting commands. INVENTORY.md lists each field with its rule.
-/

namespace Sys2Proof.Machine

/-- Why a command stops the block. No command of the model raises one: the spec gives every row an effect. -/
inductive Fault where
  /-- Raised by nothing (safe): kept so that the interface has a name for a stop. -/
  | unreachable
  deriving DecidableEq, Repr

/-- Why a command has no meaning in the model. -/
inductive Refusal where
  /-- Raised by an arm of exec whose command has no meaning yet (safe). -/
  | notModelled (mnemonic : String)
  deriving DecidableEq, Repr

/-! ### What leaves the block -/

/-- Signals the block drives (25 R581, 24 Bump signal groups). -/
inductive Pin where
  | alertN
  | thermTripN
  | ppsOut
  | epAlertN
  | epThermTripN
  | cbl3v3 (port : Nat)
  deriving DecidableEq, Repr

/-- What a chunk note reports (24 R559). -/
inductive NoteKind where
  | delivered
  | recalled
  | settled
  deriving DecidableEq, Repr

/-- Everything the block sends to the outside. -/
inductive Out where
  /-- a frame whose header has left an output port -/
  | frame (dev : Dev) (port : Nat) (f : Frame)
  /-- the header of a frame whose tail has not arrived has left an output port; frame follows it when the rest leaves -/
  | head (dev : Dev) (port : Nat) (f : Frame)
  /-- a void tail sent on a port -/
  | voidTail (dev : Dev) (port reason : Nat)
  /-- a control slot given to the link layer of a port -/
  | ctrl (dev : Dev) (port : Nat) (c : Ctrl)
  /-- a flit on the lanes of a port -/
  | flit (dev : Dev) (port : Nat) (bytes : List Byte)
  /-- the clock of DETECT, the identity record, or Chime on T -/
  | tickClock (dev : Dev) (port : Nat)
  | identity (dev : Dev) (port : Nat) (bytes : List Byte)
  | chime (dev : Dev) (port : Nat)
  | msix (fn vec : Nat)
  | pcieRead (addr len : Nat)
  | pcieWrite (addr : Nat) (data : List Byte)
  /-- completion of a host read; none: Completer Abort -/
  | pcieCpl (fn ctag : Nat) (data : Option (List Byte))
  | unsupported (fn off : Nat)
  | mirror (dest : Nat) (r : MirrorRec)
  | pldm (item : PldmItem) (val : Nat)
  /-- the sideband target does not acknowledge (18 R467) -/
  | i3cNak
  | pin (p : Pin) (high : Bool)
  | cpl (utag status : Nat) (data : List Byte)
  | fenceDone (utag status : Nat)
  | callDone (utag status epoch : Nat)
  | chunkNote (agent epoch chunk attempt : Nat) (k : NoteKind)
  | memRd (utag offset len : Nat)
  | memWr (utag offset : Nat) (data : List Byte)
  | memAtomic (utag offset : Nat) (opx : BitVec 28) (ext : BitVec 64) (data : List Byte)
  /-- a request for a core voltage, mV (20 R493, 24 R574) -/
  | voltage (dev : Dev) (mV : Nat)
  deriving DecidableEq, Repr

/-! ### Configuration, flash and starts -/

/-- Persistent values of one port (19 table Book contents). -/
structure PortCfg where
  maxStep : Nat := 3
  eqMode : Nat := 0
  g : Nat := 4
  deriving DecidableEq, Repr

/-- The persistent configuration (19 table Book contents), with its defaults. -/
structure Persist where
  mode : Nat := 0
  racks : Nat := 1
  rack : Nat := 0
  plane : Nat := 0
  runSlot : Nat := 0
  /-- engine to mask; unlisted: every step pool cache -/
  stepMask : Tab Nat := []
  /-- engine to owner; unlisted: none -/
  engineOwner : Tab Nat := []
  /-- 1 GiB range to owner; unlisted: none -/
  poolOwner : Tab Nat := []
  port : Tab PortCfg := []
  testHours : Nat := 24
  scrubHours : Nat := 24
  /-- channel to limit; unlisted: 8,192 -/
  retireLimit : Tab Nat := []
  target : Nat := 100
  ceil : Nat := 125
  limit : Nat := 640
  idleHold : Nat := 100
  brake : Nat := 400
  ageReq : Nat := 50
  ageMgmt : Nat := 5000
  homeBusy : Nat := 20
  engineCpl : Nat := 200
  tHold : Nat := 200
  misses : Nat := 8
  deriving DecidableEq, Repr

/-- A config book in flash (19 R469): SEQUENCE and contents of a valid one. -/
structure Book where
  seq : Nat
  vals : Persist
  deriving DecidableEq, Repr

/-- A movement image in a slot whose signature and digests verify (19 R475, R476). -/
structure Image where
  step : Nat := 0
  version : Nat := 1
  digest : Digest := 0
  engine : Digest := 0
  phy : Digest := 0
  deriving DecidableEq, Repr

/-- An area of flash that a command is writing: it becomes valid with the last part written (19 R471, R472). -/
inductive FlashWrite where
  /-- a config book: 0 A, 1 B -/
  | book (target : Nat) (b : Book)
  | image (slot : Nat) (i : Image)
  /-- the calibration set with these link entries -/
  | cal (links : Tab EqSet)
  deriving DecidableEq, Repr

/-- Module flash (19 R468): the books, the calibration set and the image slots. none: not valid. -/
structure Flash where
  bookA : Option Book := none
  bookB : Option Book := none
  calValid : Bool := true
  /-- port * 4 + step of each link equalisation entry held -/
  calLink : Tab EqSet := []
  /-- the LPDDR5X training seeds of each channel and the Balance calibration of each monitor site: written at the factory, carried forward by every
  write of the set (19 R473) -/
  calSeeds : Tab (List Byte) := []
  calSites : Tab (List Byte) := []
  slotA : Option Image := some {}
  slotB : Option Image := none
  writing : Option FlashWrite := none
  deriving DecidableEq, Repr

/-- Kinds of start (19 R479). -/
inductive StartKind where
  | cold
  | warm
  deriving DecidableEq, Repr

/-- What the module as a whole is doing. -/
inductive Phase where
  /-- a start runs; the step whose ready signal is awaited (19 R481) -/
  | starting (k : StartKind) (step : Nat)
  /-- the work of R480 runs before a start of kind k; thenOff: before turning off -/
  | preStart (k : StartKind) (thenOff : Bool)
  /-- RST_N is held low after that work -/
  | heldReset (k : StartKind)
  | running
  /-- neither image slot was accepted (19 R476) -/
  | romRecovery
  /-- the hold after a thermal trip (20 R498) -/
  | tripHold
  | off
  deriving DecidableEq, Repr

/-- Identity, flash, starts and pins. -/
structure Sys where
  serial : Nat := 0
  fused : Bool := false
  fuseSteps : Nat := 0
  bootId : Nat := 0
  assayCount : Nat := 0
  /-- MODE, RACKS, RACK and PLANE in force since the last start -/
  mode : Nat := 0
  racks : Nat := 1
  rack : Nat := 0
  plane : Nat := 0
  cfg : Persist := {}
  flash : Flash := {}
  loadedBook : Option Book := none
  configDefault : Bool := false
  runSlot : Nat := 0
  fallback : Bool := false
  /-- fuse step to burn once the new Teller has started -/
  burn : Option Nat := none
  phase : Phase := .starting .cold 1
  rstN : Bool := true
  perstN : Bool := true
  hostLink : Bool := false
  /-- PCIe generation and width that the HOST port last trained to; 0 before the first training (18 R451) -/
  hostGen : Nat := 0
  hostWidth : Nat := 0
  busMaster : Bool := true
  pwrbrk : Bool := false
  thermTrip : Bool := false
  alert : Bool := false
  /-- a record of SEVERITY 2 or 3 since FAULT was last cleared (23 R537) -/
  alertRec : Bool := false
  managerLost : Bool := false
  strongroom : Bool := false
  admitted : Bool := false
  /-- ports whose CBL_PRESENT_N reads high -/
  noCable : List Nat := []
  /-- connectors whose CBL_3V3 was removed -/
  noPower : List Nat := []
  deriving DecidableEq, Repr

/-! ### Teller, mailboxes and registers -/

/-- One host mailbox (16 R413). Payload bytes beyond those listed are zero. -/
structure Mailbox where
  own : Bool := false
  irq : Bool := false
  seq : Nat := 0
  header : BitVec 64 := 0
  /-- key: mailbox offset; the request, and the reserved bytes the host wrote before it -/
  payload : Tab Byte := []
  rspHeader : BitVec 64 := 0
  ledgerSeq : Nat := 0
  rsp : List Byte := []
  lastSeq : Nat := 0
  deriving DecidableEq, Repr

/-- An object that a command names and may hold while it works (16 R421). -/
inductive Obj where
  | port (n : Nat)
  | engine (n : Nat)
  | core (n : Nat)
  | channel (n : Nat)
  | partition (n : Nat)
  | synd (n : Nat)
  | slot (n : Nat)
  | regions (home first count : Nat)
  | pool (first count : Nat)
  | bank
  | flash
  | endpoint (n : Nat)
  | mailboxes (first count : Nat)
  | context (n : Nat)
  | nearStore
  | teller
  | record (n : Nat)
  deriving DecidableEq, Repr

/-- The work a taken command still has to do after its commit point. -/
inductive Work where
  | hostRead (stage : Nat)
  | relay (id : Nat)
  | invalidation (number : Nat)
  | regionChange
  | handover
  | drain
  | retire
  | remove
  | rewrap (record : Nat)
  | reset
  | flash
  | activate (mode burn slot : Nat)
  | assay
  | ckpt
  | ledgerRead
  | flushed
  deriving DecidableEq, Repr

/-- A command taken and not complete. -/
structure Active where
  fn : Nat
  /-- its key on the list: the mailbox, or a number of 16 or more once a reset of its function has taken the mailbox from it -/
  mb : Nat
  /-- the mailbox that it was taken from -/
  box : Nat
  seq : Nat
  opcode : Nat
  payload : List Byte := []
  holds : List Obj := []
  work : Work
  ledgerSeq : Nat := 0
  /-- the work has reached this status and response; COMMAND_COMPLETION writes it -/
  result : Option (Nat × List Byte) := none
  /-- its response is discarded (18 R453) -/
  dropped : Bool := false
  /-- scratch of the work: bytes read so far, counters -/
  data : List Nat := []
  deriving DecidableEq, Repr

/-- Teller and mailboxes (16). -/
structure Teller where
  state : Nat := 1
  slot : Nat := 0
  restarts : Nat := 0
  restarted : Bool := false
  /-- times of failed restarts, newest first -/
  fails : List Nat := []
  /-- order in which CONTROL writes reached the device: fn, mailbox -/
  order : List (Nat × Nat) := []
  active : List Active := []
  /-- key fn * 16 + mailbox -/
  mbox : Tab Mailbox := []
  /-- VERDICTs received during a restart (23 R548) -/
  heldVerdicts : List Frame := []
  /-- verdicts of this switch's own that fell due during a restart: end-point and cause (01 R20) -/
  owedVerdicts : List (Nat × Nat) := []
  deriving DecidableEq, Repr

/-- A host access split into frames (18 R458 to R461). -/
structure HostOp where
  id : Nat
  fn : Nat
  /-- completion tag of a read; none: a posted write -/
  ctag : Option Nat := none
  addr : Nat
  len : Nat
  data : List Byte := []
  aperture : BitVec 64 := 0
  started : Bool := false
  /-- outstanding frames -/
  left : Nat := 0
  status : Nat := 0
  /-- false: the completion owed was discarded by a function-level reset (18 R453) -/
  owed : Bool := true
  deriving DecidableEq, Repr

/-- A capability of a PCIe function (18 R452). -/
inductive PciCap where
  | powerManagement
  | pciExpress
  | msix
  | advancedErrorReporting
  /-- SR-IOV with this many VFs -/
  | sriov (vfs : Nat)
  | ari
  | accessControlServices
  | dataObjectExchange
  | integrityAndDataEncryption
  | deviceSerialNumber
  deriving DecidableEq, Repr

/-- The identity that a PCIe function presents (18 R451). Its Revision ID is the silicon stepping (00 R1). -/
structure PciId where
  vendor : Nat := 0x1F3C
  device : Nat := 0x6424
  revision : Nat := 0xB0
  classCode : Nat := 0x120000
  subVendor : Nat := 0x1F3C
  subsystem : Nat := 0x0002
  /-- the capabilities that it implements (18 R452); PF0's DEVICE_SERIAL_NUMBER gives Sys.serial -/
  caps : List PciCap := [.powerManagement, .pciExpress, .msix, .advancedErrorReporting, .sriov 15, .ari, .accessControlServices, .dataObjectExchange,
                         .integrityAndDataEncryption, .deviceSerialNumber]
  /-- bytes of the maximum payload, and of the largest read request (18 R452) -/
  maxPayload : Nat := 512
  maxRead : Nat := 4096
  deriving DecidableEq, Repr

/-- Integrity and Data Encryption of the HOST link (18 R465): link IDE, and the selective streams in use, at most four. Its keys come by IDE_KM over
SPDM through Data Object Exchange, for which the table has no row; it protects the PCIe link only, so no other effect depends on it (log 93). -/
structure Ide where
  link : Bool := false
  streams : List (Fin 4) := []
  deriving DecidableEq, Repr

/-- Registers served by hardware and the host side (18). -/
structure HostIf where
  /-- the identity of PF0 and of each VF, read-only -/
  pf : PciId := {}
  vf : PciId := { device := 0x6425, caps := [.pciExpress, .msix, .advancedErrorReporting] }
  ide : Ide := {}
  swEvent : BitVec 32 := 0
  tc0Drop : BitVec 32 := 0x10010010
  late : Bool := false
  /-- key fn * 64 + a -/
  aperture : Tab (BitVec 64) := []
  /-- vectors whose mask bit is clear, fn * 2048 + vector, and those pending behind a mask -/
  unmasked : List Nat := []
  msixPending : List Nat := []
  /-- key fn * 65536 + offset, the MSI-X table bytes -/
  msixTable : Tab Byte := []
  /-- time of the last vector 4 of a VF (18 R457) -/
  lastVec4 : Tab Nat := []
  /-- host accesses in progress, oldest first -/
  ops : List HostOp := []
  nextOp : Nat := 0
  deriving DecidableEq, Repr

/-! ### Tally and Ledger -/

/-- A fault record (23 R535). -/
structure FaultRec where
  seq : Nat
  time : Nat
  kind : Nat
  severity : Nat
  domain : Nat := 0
  index : Nat := 0
  partition : Nat := 0xFF
  status : Nat := 0xFF
  count : Nat := 1
  detail : List Byte := []
  /-- the host read that a translation fault joins (02 R45) -/
  group : Option Nat := none
  deriving DecidableEq, Repr

/-- Queue sample record of one output queue (11 R320), and its share per head partition (R321). -/
structure QueueRec where
  lastDepth : Nat := 0
  maxDepth : Nat := 0
  maxDelay : Nat := 0
  samples : Nat := 0
  sumDepth : Nat := 0
  sumDelay : Nat := 0
  /-- partition to (largest delay, samples, sum of delays) -/
  byPart : Tab (Nat × Nat × Nat) := []
  deriving DecidableEq, Repr

/-- The result of a lane's bit-error test (14 R377, R378): an installation test or a periodic one, and the bit errors seen. -/
structure LaneResult where
  install : Bool := false
  errors : Nat := 0
  deriving DecidableEq, Repr

/-- The Tally (23 R535 to R538). -/
structure Tally where
  faults : List FaultRec := []
  nextSeq : Nat := 1
  /-- key block * 64 + index -/
  counter : Tab Nat := []
  /-- the counters as they stood at the last whole millisecond (21 R520) -/
  snapshot : Tab Nat := []
  snapshotMs : Nat := 0
  /-- key port * 16 + queue -/
  queue : Tab QueueRec := []
  /-- the last test of each lane, key port * 16 + lane, D0 to D7 as 0 to 7 and T as 9 (14 R378) -/
  laneTest : Tab LaneResult := []
  deriving DecidableEq, Repr

/-- A chain entry (22 R526). -/
structure Entry where
  seq : Nat
  kind : Nat
  flags : Nat := 0
  source : Nat := 0
  time : Nat := 0
  body : List Byte := []
  deriving DecidableEq, Repr

/-- One partition's Ledger (22 R524 to R531). -/
structure Ledger where
  /-- POOL_START and LENGTH of its region -/
  region : Option (Nat × Nat) := none
  started : Bool := false
  nextSeq : Nat := 1
  chain : Digest := 0
  entries : List Entry := []
  nextUnit : Nat := 1
  /-- units: number and 128 bytes -/
  units : List (Nat × List Byte) := []
  /-- export marks of the chain and of the input log -/
  mark : Nat := 0
  unitMark : Nat := 0
  /-- bytes now in staging, of 1 MiB of which 64 KiB are kept -/
  staged : Nat := 0
  lastSeal : Nat := 0
  seals : Nat := 0
  sealFirst : Nat := 1
  /-- an entry other than SEAL and SIGNATURE was added since the last seal -/
  dirty : Bool := false
  highNoted : Bool := false
  highUnits : Bool := false
  fullNoted : Bool := false
  /-- a seal is owed: it fell due during a Teller-only restart or found no room -/
  sealDue : Bool := false
  deriving DecidableEq, Repr

/-! ### Partitions and keys -/

/-- Partition states (21 R500). -/
inductive PartState where
  | none
  | admitted
  | fenced
  | closing
  deriving DecidableEq, Repr

/-- A tenant partition at this switch. -/
structure Part where
  state : PartState := .none
  vfBound : Bool := false
  keySlot : Nat := 0
  graphQuota : Nat := 8
  /-- collective quota, MiB -/
  collQuota : Nat := 6
  deriving DecidableEq, Repr

/-- Key slot states (21 R502). -/
inductive SlotState where
  | zeroed
  | active
  | retiring
  deriving DecidableEq, Repr

/-- A key slot (21 R502, R505). -/
structure KeySlot where
  state : SlotState := .zeroed
  partition : Nat := 0
  key : Key := 0
  /-- requests counted at the retirement point: source, agent, tag, class -/
  counted : List (Nat × Nat × Nat × Nat) := []
  /-- lines whose directory entry was counted -/
  lines : List Nat := []
  refused : Nat := 0
  fencedAgents : Nat := 0
  timedOut : Bool := false
  deriving DecidableEq, Repr

/-- Vault and partitions (21). -/
structure Vault where
  part : Tab Part := []
  slot : Tab KeySlot := []
  kemGen : Nat := 0
  signers : List (List Byte) := []
  /-- agents fenced at this switch: end-point * 64 + agent -/
  fencedAgents : List Nat := []
  deriving DecidableEq, Repr

/-! ### Pool, near store and Clearing units -/

/-- The stored form of a pool line beyond its plain bytes. -/
structure LineMeta where
  /-- key of the stored ciphertext; none: zero stored bytes -/
  key : Option Key := none
  /-- the check bytes fail on purpose: uncorrectable -/
  bad : Bool := false
  lost : Bool := false
  /-- stored ciphertext brought by a restore or a mirror under an unknown key -/
  stored : List Byte := []
  /-- check bytes that came with it, where they are not those of its bytes -/
  check : Option (BitVec 64) := none
  deriving DecidableEq, Repr

/-- A region table entry (05 R110). -/
structure Region where
  mode : Nat := 3
  lost : Bool := false
  handover : Bool := false
  owner : Nat := 0x3FF
  deriving DecidableEq, Repr

/-- A line of the pool cache (06 R151 to R153). -/
structure CacheLine where
  line : Nat
  slot : Nat
  key : Key
  dirty : Bool := false
  data : List Byte
  bad : Bool := false
  deriving DecidableEq, Repr

/-- A memory channel (06 R156 to R161). -/
structure Channel where
  fenced : Bool := false
  resetting : Bool := false
  /-- page to corrected errors within the scrub period -/
  pageErrors : Tab Nat := []
  retired : List Nat := []
  candidates : List Nat := []
  permanent : Nat := 0
  deriving DecidableEq, Repr

/-- State of a partnered region (06 R164). -/
inductive PairState where
  | single
  | resilvering
  | paired
  deriving DecidableEq, Repr

/-- A partnered 1 GiB region (06 R162 to R169). -/
structure Pair where
  partner : Nat
  primary : Bool
  state : PairState := .resilvering
  rate : Nat := 16
  /-- next line to copy -/
  cursor : Nat := 0
  nextSeq : Nat := 1
  /-- LINE records sent and not acknowledged: SEQ -/
  unacked : List Nat := []
  /-- responses held: SEQ awaited, position, frame -/
  held : List (Nat × Nat × Frame) := []
  /-- secondary: highest SEQ stored, records out of order -/
  stored : Nat := 0
  early : List MirrorRec := []
  deriving DecidableEq, Repr

/-- A rewrap record (10 R279 to R282). -/
structure Rewrap where
  partition : Nat
  fromSlot : Nat
  toSlot : Nat
  start : Nat
  length : Nat
  rate : Nat
  /-- pool offset of the next line -/
  cursor : Nat
  uncorrected : Nat := 0
  done : Bool := false
  deriving DecidableEq, Repr

/-- Directory states (05 R122). -/
inductive DirState where
  | s
  | em
  | o
  deriving DecidableEq, Repr

/-- A directory entry. sharers are in the order recorded. -/
structure DirEntry where
  line : Nat
  state : DirState
  owner : Nat := 0x3FF
  sharers : List Nat := []
  keySlot : Nat := 0
  deriving DecidableEq, Repr

/-- A request waiting at a Clearing unit, with its source position and the step in which it arrived. -/
structure Waiting where
  pos : Nat
  f : Frame
  step : Nat
  deriving DecidableEq, Repr

/-- What a Busy line goes on to when its answers are in (05 R124, R130). -/
inductive BusyStage where
  /-- serve the request again: the answers have taken the copies back -/
  | again
  /-- grant a CLAIM of an O line with the CACHE value, then await the COH_ACK -/
  | grant (cache : Nat)
  /-- the owner forwards to the requester; its COH_ACK is awaited as well -/
  | forward
  /-- the home has granted; the COH_ACK is awaited -/
  | ack
  /-- a DEPOSIT_FILL was sent to this end-point; its COH_ACK is awaited -/
  | fill (named : Nat)
  /-- directory eviction, region change, retirement or channel fence: the entry is freed -/
  | free
  deriving DecidableEq, Repr

/-- A Busy line with the answers it awaits. -/
structure Busy where
  line : Nat
  stage : BusyStage
  pos : Nat := 0
  f : Frame := {}
  /-- end-points asked and not answered, with the KIND they were asked (5: BACK_INV) -/
  await : List (Nat × Nat) := []
  /-- the recorded owner that was asked for its copy -/
  owner : Nat := 0x3FF
  /-- the requester's COH_ACK has arrived -/
  acked : Bool := false
  /-- the grant carries data that an owner forwards with CACHE M -/
  fwdM : Bool := false
  /-- the requester is lost: the owner's answer is awaited, and the line is left as with the grant declined (05 R138) -/
  gone : Bool := false
  /-- the entry that the grant leaves -/
  next : Option DirEntry := none
  deriving DecidableEq, Repr

/-- One Clearing unit (05 R122 to R125, 04 R109). -/
structure Unit where
  dir : List DirEntry := []
  busy : List Busy := []
  retry : List Waiting := []
  pointer : Nat := 0
  step : Nat := 0
  /-- lines of the requests that began on arrival in this step, with their source positions (05 R125) -/
  begun : List (Nat × Nat) := []
  deriving DecidableEq, Repr

/-- A region being emptied for REGION_SET or REGION_HANDOVER (05 R117, R120). -/
structure RegionJob where
  region : Nat
  fn : Nat
  mb : Nat
  /-- the old owner whose REGION_DONE is awaited -/
  awaitOwner : Option Nat := none
  mode : Nat
  newOwner : Nat
  handover : Bool
  /-- the old owner was fenced: the region is LOST and the new entry is not written -/
  lostNow : Bool := false
  deriving DecidableEq, Repr

/-- The home of a device: memory, region table and what works on it. -/
structure Home where
  /-- bytes by offset within the home; an unlisted byte is 0 -/
  mem : List Host.Cell := []
  lines : Tab LineMeta := []
  /-- scratch words of 8 bytes with an uncorrectable error, by offset / 8 (06 R148) -/
  badWords : List Nat := []
  region : Tab Region := []
  jobs : List RegionJob := []
  deriving DecidableEq, Repr

/-- The switch's memory system (05, 06). -/
structure Mem where
  home : Home := {}
  unit : Tab Unit := []
  cache : List CacheLine := []
  /-- step numbering in force: engine * 4 + step, ascending; none while draining has not begun -/
  drainOld : Option (List Nat) := none
  drainMask : Option (Nat × Nat) := none
  /-- masks in force -/
  mask : Tab Nat := []
  chan : Tab Channel := []
  pair : Tab Pair := []
  rewrap : Tab Rewrap := []
  /-- requests not yet performed, in arrival order (03 R83); entries whose request is done have no effect -/
  order : List (Nat × Nat × Nat × Nat) := []
  deriving DecidableEq, Repr

/-! ### Translation -/

/-- A segment descriptor (02 R31), decoded. -/
structure Desc where
  v : Bool := false
  r : Bool := false
  w : Bool := false
  a : Bool := false
  mode : Nat := 0
  stripe : Bool := false
  log : Bool := false
  keySlot : Nat := 0
  partition : Nat := 0
  /-- base addresses in bytes -/
  cvaBase : Nat := 0
  fgaBase : Nat := 0
  /-- length in 2 MiB units -/
  length : Nat := 0
  context : Nat := 0
  /-- a reserved bit is non-zero -/
  reserved : Bool := false
  deriving DecidableEq, Repr

/-- A held translation: context, segment, descriptor (02 R38). Lists keep most recently used first. -/
structure Held where
  ctx : Nat
  seg : Nat
  desc : Desc
  deriving DecidableEq, Repr

/-- A miss waiting for a host read: an end-point's TRANSLATE_REQ on a port, or an engine of the switch. -/
inductive Miss where
  | endpoint (port : Nat) (f : Frame)
  | engine (n : Nat) (partition cva : Nat)
  deriving DecidableEq, Repr

/-- A host read of a context entry in flight (02 R42). -/
structure TableRead where
  ctx : Nat
  id : Nat := 0
  stale : Bool := false
  waiters : List Miss := []
  deriving DecidableEq, Repr

/-- An invalidation at the switch that took the command, or a first copy handled by R52. -/
structure Inval where
  number : Nat
  ctx : Nat
  first : Nat
  count : Nat
  /-- this switch runs the command: function and mailbox -/
  cmd : Option (Nat × Nat) := none
  /-- end-points whose acknowledgement is awaited -/
  await : List Nat := []
  fencedEps : Nat := 0
  fencedEngines : Nat := 0
  /-- silent switches that end-points list -/
  silent : List Nat := []
  /-- tags of the engines' requests awaited: port * 4096 + tag -/
  draining : List Nat := []
  /-- copies to answer: port and tag of the SEG_INV; the first copy answers with the count -/
  askers : List (Nat × Frame) := []
  ownFenced : Nat := 0
  answered : Bool := false
  deriving DecidableEq, Repr

/-- Translation at the switch (02). -/
structure Xlat where
  base : Tab Nat := []
  /-- engine to its first level -/
  l1 : Tab (List Held) := []
  l2 : List Held := []
  reads : List TableRead := []
  /-- number of the next host read, by which its faults merge (02 R45) -/
  nextRead : Nat := 0
  inval : List Inval := []
  count : Nat := 0
  /-- the host read whose waiters are being answered: a permission fault found then is one of its faults (02 R45) -/
  serving : Option Nat := none
  deriving DecidableEq, Repr

/-! ### Switch core -/

/-- A frame in the cell buffer: where it came from, when, in which tile, its colour. -/
structure Buffered where
  f : Frame
  src : Nat
  at_ : Nat
  tile : Nat := 0
  cells : Nat := 1
  /-- its tail and all its seal groups have verified (13 R347) -/
  whole : Bool := true
  red : Nat := 0
  /-- cells by area: scheduled, shared; the rest in reserve (13 R352) -/
  sched : Nat := 0
  shared : Nat := 0
  /-- the ingress virtual channel, or the class of an internal source, whose reserve and share its cells count against (13 R334, R352) -/
  vc : Nat := 0
  /-- place of its HEAD slot on its input, SEQ * 16 + slot, from which its tail finds it -/
  mark : Nat := 0
  /-- cells whose credits were returned when it arrived before, in a seal group that failed (13 R350) -/
  paid : Nat := 0
  deriving DecidableEq, Repr

/-- An output locked to a frame (13 R343): draws of the frame still to come, its tile, its queue. -/
structure Lock where
  left : Nat
  tile : Nat
  queue : Nat
  deriving DecidableEq, Repr

/-- A frame that an output has begun before its tail arrived (13 R346): its cells, and the header that left. -/
structure CutFrame where
  b : Buffered
  f : Frame
  deriving DecidableEq, Repr

/-- A token bucket (11 R315): tokens in 1/256 byte. -/
structure Bucket where
  enable : Bool := false
  rate : Nat := 1
  burst : Nat := 512
  overhead : Nat := 8
  tokens : Nat := 0
  deriving DecidableEq, Repr

/-- A policer (11 R317). -/
structure Policer where
  enable : Bool := false
  overhead : Nat := 8
  cir : Nat := 1
  pir : Nat := 1
  cbs : Nat := 512
  pbs : Nat := 512
  tc : Nat := 0
  tp : Nat := 0
  deriving DecidableEq, Repr

/-- Where the gate list of a port stands (11 R294). -/
structure GatePos where
  entry : Nat := 0
  /-- time at which the entry began -/
  began : Nat := 0
  /-- scheduled gates closed by R288, R305, R309 or R372 -/
  closed : Bool := false
  /-- the partner's last PROBE_INFO showed another package or book (11 R305) -/
  mismatch : Bool := false
  deriving DecidableEq, Repr

/-- The command that staged an ARMED setting: its Ledger, the SEQ of its entry there, and its place in taking order (16 R426, R432). -/
structure StagedBy where
  ledger : Nat := 0
  seq : Nat := 0
  order : Nat := 0
  deriving DecidableEq, Repr

/-- The switch core (13, 11). -/
structure Core where
  /-- key output * 16 + queue; outputs 64 to 86 are internal: 64 + unit, 80 + engine core, 86 Escrow -/
  queue : Tab (List Buffered) := []
  /-- red frames held at the head of an ingress virtual channel, key port * 16 + channel, with those behind (11 R318) -/
  held : Tab (List Buffered) := []
  /-- credits of an ingress virtual channel not yet returned, while a red frame stands at its head or the port sleeps, key as held -/
  owed : Tab Nat := []
  /-- credits spent, key port * 16 + vc: cells sent and not returned -/
  spent : Tab Nat := []
  /-- last flit time at which TC0 was sent, per port -/
  lastTc0 : Tab Nat := []
  /-- grant pointers per output and accept pointers per tile -/
  grantPtr : Tab Nat := []
  acceptPtr : Tab Nat := []
  lock : Tab Lock := []
  /-- per output: the frame it has begun and whose tail has not arrived -/
  cut : Tab CutFrame := []
  /-- tiles' used cells -/
  used : Tab Nat := []
  /-- virtual channels out of service: port * 16 + vc -/
  vcOut : List Nat := []
  /-- cells retired by errors, per tile -/
  retiredCells : Tab Nat := []
  shaper : Tab Bucket := []
  shaperStaged : Tab (Bucket × StagedBy) := []
  policer : Tab Policer := []
  policerStaged : Tab (Policer × StagedBy) := []
  /-- commands that have staged settings, in taking order -/
  stagings : Nat := 0
  /-- per bucket whose setting came from a command: the refill at which it took effect, and the command's place in taking order -/
  shaperSet : Tab (Nat × Nat) := []
  policerSet : Tab (Nat × Nat) := []
  gate : Tab GatePos := []
  /-- inbox of each internal output: frames drawn and not yet acted on -/
  inbox : Tab (List Buffered) := []
  /-- tag of the next frame this switch originates, per port -/
  nextTag : Tab Nat := []
  /-- frames that an internal source without credit holds, key source * 8 + class: the queue each is to join, and the frame (13 R353) -/
  waiting : Tab (List (Nat × Frame)) := []
  /-- requests sent on an edge port and not answered by the end-point there, each with the INCARNATION that its sender gave it (23 R542, 03 R60) -/
  awaiting : List (Nat × Frame) := []
  /-- frames discarded at an output port that is fenced or down, or from a virtual channel out of service (13 R345, R357) -/
  discards : Tab Nat := []
  deriving DecidableEq, Repr

/-! ### Schedules and time -/

/-- A schedule package as loaded (11 R289 to R296). Gate lists: key book * 64 + port. -/
structure Package where
  id : Nat
  mode : Nat := 0
  cycleFlits : Nat := 1024
  mainPace : Nat := 160
  base : Nat := 0
  digest : Digest := 0
  gates : Tab (List (Nat × Nat)) := []
  /-- destination to port; none: no ROUTE section -/
  routes : Option (Tab Nat) := none
  /-- source * 3 + class index to tile -/
  tiles : Tab Nat := []
  masks : Tab Nat := []
  shapers : Tab Bucket := []
  policers : Tab Policer := []
  /-- Syndicate to placements level * 1024 + node to rack; none: no COLLECTIVE section -/
  coll : Option (Tab (Tab Nat)) := none
  deriving DecidableEq, Repr

/-- A pending change of book (11 R308). -/
structure BookChange where
  book : Nat
  cycle : Nat
  number : Nat
  deriving DecidableEq, Repr

/-- Schedule, books and fabric time of a device (11). Books: 0 MAIN, 1 SLOW, 2 NARROW. -/
structure Sched where
  active : Option Package := none
  standby : Option Package := none
  /-- a package that SCHED_STAGE has checked and whose relays are not yet confirmed -/
  staging : Option Package := none
  /-- package and cycle armed; it is the standby package -/
  armed : Option Nat := none
  armedBy : StagedBy := {}
  /-- instant of the last activation, and the place of its command in taking order -/
  activated : Option (Nat × Nat) := none
  book : Nat := 0
  /-- cycle number running -/
  cycle : Nat := 0
  pending_ : Option BookChange := none
  /-- the book's boundary was missed: runs none until the next (11 R309) -/
  late : Bool := false
  lastChange : Nat := 0
  seen : List Nat := []
  /-- own needs -/
  slow : Bool := false
  narrow : Bool := false
  /-- reports held by the master: home ID to (SLOW, NARROW) -/
  reports : Tab (Bool × Bool) := []
  margin : Nat := 5
  returnHold : Nat := 100
  lead : Nat := 2000
  /-- number of the last change begun or heard of, from which a master numbers its next (11 R308) -/
  changeCount : Nat := 0
  /-- BOOK_SETs sent and not acknowledged: port to (change, sends) -/
  unacked : Tab (BookChange × Nat) := []
  deriving DecidableEq, Repr

/-- What a partner last advertised (15 R384, R411). -/
structure Advert where
  hops : Nat := 0xFF
  book : Nat := 3
  master : Bool := false
  valid : Bool := false
  via : Bool := false
  package : Nat := 0
  deriving DecidableEq, Repr

/-- Fabric time of a device (11 R283 to R288, 15 R407 to R409). -/
structure Clock where
  /-- fabric time in units of 1/850 ns -/
  now : Nat := 0
  valid : Bool := false
  holdover : Bool := false
  /-- a VIA_STANDBY source was left: step at the next probe (11 R286) -/
  restep : Bool := false
  master : Nat := 0x3FF
  standby : Nat := 0x3FF
  /-- the named master is treated as lost -/
  lost : Bool := false
  acting : Bool := false
  pps : Bool := false
  source : Option Nat := none
  /-- last offsets at the source, newest first, in 2^-32 s -/
  thetas : List Int := []
  advert : Tab Advert := []
  /-- departure times of probes in flight, key port: (ID, t1) -/
  probes : Tab (Nat × Nat) := []
  nextProbe : Tab Nat := []
  /-- fabric time came from a path with VIA_STANDBY, or is an acting standby's own (11 R286) -/
  viaTime : Bool := false
  /-- fabric time of the last edge of PPS_IN that a master took; a step of fabric time moves it along -/
  ppsEdge : Option Int := none
  /-- steering of the master's oscillator by PPS_IN, in tenths of a ppm from nominal (11 R287) -/
  steer : Int := 0
  deriving DecidableEq, Repr

/-! ### Link ports -/

/-- Port states (14 table PT_LINK_STATUS). -/
inductive PortState where
  | down
  | detect
  | identify
  | equalise
  | decide
  | map
  | secure
  | time
  | active
  | fenced
  | nap
  | rest
  deriving DecidableEq, Repr

/-- The lanes of one direction (14 R373, R374), D0 to D7 as 0 to 7, J as 8 and T as 9: width, Jewel and clock lane as PT_LINK_STATUS codes them, and the
failed lanes as PT_LANE_FAIL does. -/
structure LaneMap where
  width : Nat := 0
  jewel : Nat := 9
  clock : Nat := 8
  fail : Nat := 0
  deriving DecidableEq, Repr

/-- The result of DECIDE at a step (14 R371): table mode, the receive direction's lanes, figure of merit and failed lanes, the transmit direction's lanes,
and the equalisation. -/
structure StepRes where
  step : Nat
  table : Bool := false
  width : Nat := 0
  jewel : Nat := 9
  clockLane : Nat := 8
  fom : Nat := 0
  fail : Nat := 0
  out : LaneMap := {}
  eq : EqSet := {}
  deriving DecidableEq, Repr

/-- Equalisation, step, width and lane map kept for a fast resume, and the partner's SERIAL (14 R368). -/
structure Stored where
  partner : Nat
  res : StepRes
  deriving DecidableEq, Repr

/-- A key exchange in progress (15 R401, R403). The Vault holds its secrets here until the keys are installed. -/
structure Exchange where
  /-- 1 INIT sent, 2 RESP sent, 3 FIN sent -/
  stage : Nat := 0
  partner : KeyMsg := {}
  mine : KeyMsg := {}
  /-- the decapsulation key of the initiator -/
  dk : List Byte := []
  /-- the shared secret, once this side knows it -/
  ss : List Byte := []
  deriving DecidableEq, Repr

/-- One direction's keys (15 R395, R404). -/
structure LinkKey where
  key : Key := 0
  salt : BitVec 32 := 0
  epoch : Bool := false
  g : Nat := 4
  deriving DecidableEq, Repr

/-- A flit of the open seal group: its SEQ, header bytes and slot bytes. -/
structure GroupFlit where
  seq : Nat
  head : List Byte
  slots : List Byte
  /-- its SEQ had been received before (15 R393) -/
  again : Bool := false
  /-- device time of its arrival (15 R407) -/
  at_ : Nat := 0
  deriving DecidableEq, Repr

/-- Receive side of the link layer (15 R388 to R399). -/
structure Rx where
  expect : Nat := 0
  /-- restart flit asked for and the times asked -/
  nak : Option (Nat × Nat) := none
  /-- the restart flit last asked for and the times asked, from its arrival until a seal group verifies (15 R392) -/
  before : Option (Nat × Nat) := none
  key : Option LinkKey := none
  newKey : Option LinkKey := none
  /-- flit counter of the next seal group's first flit -/
  counter : Nat := 0
  group : List GroupFlit := []
  /-- SEQ one past the last flit whose group has verified -/
  verified : Nat := 0
  /-- place of the HEAD of the open frame, SEQ * 16 + slot, and its 16-byte slots verified so far -/
  open_ : Option (Nat × List (List Byte)) := none
  /-- HEAD slot of a frame whose second header slot has not arrived: its place and bytes, not yet verified (13 R346) -/
  early : Option (Nat × List Byte) := none
  /-- frames whose headers the switch core has taken and whose tails it has not: place of the HEAD to cells (13 R346) -/
  entered : Tab Nat := []
  /-- frames that a failed seal group took back: place of the HEAD to cells whose credits had been returned (13 R350, R352) -/
  paid : Tab Nat := []
  /-- SEQs of the flits received from verified on (15 R393) -/
  got : List Nat := []
  /-- slots of the key exchange message that is arriving (15 R401) -/
  keyx : List Byte := []
  ctrlCount : Nat := 0
  deriving DecidableEq, Repr

/-- Transmit side of the link layer (15 R381 to R399). -/
structure Tx where
  seq : Nat := 0
  /-- replay buffer: SEQ and bytes of each sequenced flit not acknowledged, oldest first -/
  replay : List (Nat × List Byte) := []
  /-- SEQs still to be sent again -/
  resend : List Nat := []
  /-- restart flit of a NAK to send -/
  nak : Option Nat := none
  /-- slots of frames that wait: kind in bits [1:0], bit 2 set for a second header slot; and bytes -/
  slots : List (Nat × List Byte) := []
  /-- the header and HEAD of the last frame have been given alone; its present slots follow -/
  cutHead : Bool := false
  /-- control slots that wait -/
  ctrls : List Ctrl := []
  /-- slots of KEYX flits that wait, and whether the flit ends a FIN -/
  keyx : List (List Byte × Bool) := []
  /-- the open seal group: its flits' headers and ciphertext -/
  heads : List (List Byte) := []
  sealed : List Byte := []
  key : Option LinkKey := none
  newKey : Option LinkKey := none
  /-- the key of the epoch before, and SEQ of its last flit, until ACK covers that (15 R404) -/
  oldKey : Option (LinkKey × Nat) := none
  /-- SEQ of the last flit of a FIN sent and not acknowledged: newKey waits for it (15 R404) -/
  fin : Option Nat := none
  counter : Nat := 0
  /-- control count of NULL and NAK flits (15 R398) -/
  ctrlCount : Nat := 0
  /-- a rekey has failed and is to be tried again (15 R405) -/
  retry : Bool := false
  deriving DecidableEq, Repr

/-- A bit-error test of a port (14 R377, R378). -/
structure LaneTest where
  install : Bool
  lane : Nat := 0
  deriving DecidableEq, Repr

/-- A link port of either device (14, 15). -/
structure Link where
  state : PortState := .down
  step : Nat := 0
  width : Nat := 0
  jewel : Nat := 9
  clockLane : Nat := 8
  fom : Nat := 0
  eqTable : Bool := false
  slowLink : Bool := false
  changed : Bool := false
  /-- failed lanes, bits as PT_LANE_FAIL -/
  fail : Nat := 0
  attempts : Nat := 0
  partner : Option Identity := none
  stored : Option Stored := none
  /-- fast resume in progress -/
  fast : Bool := false
  test : Option LaneTest := none
  /-- the lanes of the transmit direction, as its receiver's spare them (14 R358) -/
  out : LaneMap := {}
  /-- the port has run at half width and has not reached ACTIVE at full width since (14 R375) -/
  narrowed : Bool := false
  /-- FIR taps and receiver starting point in force (14 R369) -/
  eq : EqSet := {}
  /-- every step of this training used table mode so far (14 PT_LINK_STATUS EQ_TABLE) -/
  allTable : Bool := true
  /-- a lane change runs: the new lanes of the receive and transmit directions; failures held meanwhile, with whether they are in the transmit direction -/
  changing : Option (LaneMap × LaneMap) := none
  later : List (List Nat × LaneFault × Bool) := []
  /-- why it is fenced: 0 not, 1 link loss, 2 other, 3 command -/
  fenceWhy : Nat := 0
  /-- results of the last training, newest step first -/
  steps : List StepRes := []
  /-- AUTO mode has fallen back to adaptive equalisation at this step (14 R369) -/
  adaptive : Bool := false
  /-- a training attempt has failed: DETECT follows after 100 ms (14 R364) -/
  retry : Bool := false
  /-- the port trains again to leave REST: what is queued to it stays (20 R489, R492) -/
  waking : Bool := false
  /-- probes in a row with |θ| within 2 ns in TIME: its own, and the partner's that it has answered (15 R409) -/
  probesOk : Nat := 0
  partnerOk : Nat := 0
  rx : Rx := {}
  tx : Tx := {}
  xchg : Option Exchange := none
  /-- power state agreed and requested by the partner (20 R487) -/
  power : Nat := 0
  partnerVote : Nat := 0
  asked : Option Nat := none
  /-- FEC symbols corrected, by data lane (14 R359) -/
  corrected : Tab Nat := []
  deriving DecidableEq, Repr

/-! ### Engines, Escrow, Syndicates -/

/-- A completion that an engine task has read back: status and data. -/
structure Reply where
  status : Nat
  data : List Byte := []
  deriving DecidableEq, Repr

/-- Kinds of requests a task makes. -/
inductive AccKind where
  | read
  | write
  | flagged
  | atomic (opx : BitVec 28) (ext : BitVec 64)
  deriving DecidableEq, Repr

/-- An access of a task: one request of at most a 256-byte block. -/
structure Access where
  kind : AccKind
  cva : Nat
  len : Nat
  data : List Byte := []
  deriving DecidableEq, Repr

/-- Task states (09 R245 to R249). -/
inductive TaskState where
  | waiting
  | ready
  | running
  /-- waits the age limit before a re-run -/
  | retryWait
  | done
  | failed
  | cancelled
  deriving DecidableEq, Repr

/-- A task of an admitted graph or a COLLECTIVE task. -/
structure Task where
  desc : List Byte
  state : TaskState := .waiting
  runs : Nat := 0
  status : Nat := 0
  /-- order in which it became ready -/
  readyAt : Nat := 0
  /-- order in which it failed -/
  failedAt : Nat := 0
  engine : Nat := 0xFF
  /-- replies of each phase so far -/
  log : List (List Reply) := []
  /-- replies of the running phase, by access index -/
  phase : Tab Reply := []
  /-- accesses of the running phase not yet answered -/
  outstanding : Nat := 0
  /-- waits for a translation of this CVA -/
  xwait : Option Nat := none
  /-- first failed status of its work, or OK, once the work is over and its release fence runs (04 R95) -/
  result : Option Nat := none
  /-- requests of its engine issued before that fence: those numbered below this -/
  fenceAt : Nat := 0
  /-- status with which it has ended, its release fence included; TASK_COMPLETE takes it -/
  ended : Option Nat := none
  deriving DecidableEq, Repr

/-- Cancellation causes of a graph (09 R249). -/
inductive Cancel where
  | none
  | deadline
  | fenced
  deriving DecidableEq, Repr

/-- An admitted graph (09 R235). -/
structure Graph where
  mailbox : Nat
  partition : Nat
  ctx : Nat
  tag : Nat
  halt : Bool := false
  sched : Bool := false
  doneAddr : Nat := 0
  doneValue : Nat := 0
  deadline : Nat := 0
  edges : List (Nat × Nat) := []
  tasks : List Task := []
  cancel : Cancel := .none
  /-- its unstarted tasks have been cancelled: none is run again -/
  closed : Bool := false
  /-- the done record is being written -/
  ending : Bool := false
  /-- frames of the done record not yet answered, and the first failed status of those answered -/
  doneLeft : Nat := 0
  doneBad : Nat := 0
  /-- end without a done record (21 R511) -/
  noDone : Bool := false
  deriving DecidableEq, Repr

/-- A fabric mailbox (09 R228 to R232). -/
structure FabMbox where
  partition : Nat := 0xFF
  filling : Bool := false
  image : Tab Byte := []
  result : Nat := 0
  task : Nat := 0
  slot : Nat := 0
  tag : Nat := 0
  deriving DecidableEq, Repr

/-- A GO waiting for a slot (09 R235): its write and the graph it submits. -/
structure Submission where
  mailbox : Nat
  pos : Nat
  f : Frame
  graph : Graph
  deriving DecidableEq, Repr

/-- Engine number's own state. -/
structure Engine where
  fenced : Bool := false
  /-- placed in STILL by the regulator (20 R494) -/
  held : Bool := false
  resetting : Bool := false
  /-- graph slot and task -/
  task : Option (Nat × Nat) := none
  deriving DecidableEq, Repr

/-- Who a request of the switch belongs to. -/
inductive Owner where
  | task (slot task access : Nat)
  | done (slot : Nat)
  | host (op : Nat) (offset : Nat)
  deriving DecidableEq, Repr

/-- A request of the switch: in flight (03 R81), or held in its core stage (04 R90). -/
structure Flight where
  port : Nat
  tag : Nat := 0
  owner : Owner
  engine : Nat
  f : Frame
  /-- internal source that sends it: an engine core or Escrow -/
  src : Nat := 86
  /-- place in the order of issue -/
  order : Nat := 0
  /-- flagged and held: the failed earlier write issued first, and its status (03 R86) -/
  fail : Option (Nat × Nat) := none
  /-- context and descriptor under which it was translated -/
  ctx : Nat := 0
  desc : Desc := {}
  /-- false: taken back by an invalidation, to be translated again (02 R51) -/
  sent : Bool := true
  /-- CVA of the access, for that translation -/
  cva : Nat := 0
  deriving DecidableEq, Repr

/-- Engines and Escrow (09). -/
structure Escrow where
  mbox : Tab FabMbox := []
  graph : Tab Graph := []
  queue : List Submission := []
  engine : Tab Engine := []
  /-- COLLECTIVE tasks of open epochs (09 R240): Syndicate, epoch, chunk, and the engine that has computed it; 64 and above: they are ready, and wait for
  engine n to wake at 64 + n, or for an idle one at 0xFF -/
  coll : List (Nat × Nat × Nat × Nat) := []
  flight : List Flight := []
  /-- requests issued and held in the core stages, in order of issue (04 R90, R94; 03 R81, R85) -/
  held : List Flight := []
  orderCount : Nat := 0
  /-- failed writes of each engine since its last SYSTEM release fence: order and status (04 R91) -/
  badWrite : Tab (List (Nat × Nat)) := []
  /-- quarantined tags: port * 4096 + tag -/
  quarantine : List Nat := []
  readyCount : Nat := 0
  failCount : Nat := 0
  deriving DecidableEq, Repr

/-- State of a chunk at its root switch (08 R213). -/
inductive ChunkState where
  | open_
  | delivered (attempt : Nat)
  | settled
  | aborted
  deriving DecidableEq, Repr

/-- A contribution or partial result for one chunk: its leaf (rank or lowest leaf), level, bytes so far. -/
structure Part1 where
  rank : Nat
  /-- 0 a member's own; otherwise the level of a partial result -/
  level : Nat := 0
  bytes : List Byte := []
  scales : List Byte := []
  last : Bool := false
  deriving DecidableEq, Repr

/-- A chunk of an epoch. -/
structure Chunk where
  state : ChunkState := .open_
  parts : List Part1 := []
  /-- ranks whose confirm of the current attempt matched -/
  confirms : List Nat := []
  check : BitVec 32 := 0
  /-- nodes whose result was sent on: level * 1024 + node -/
  sent : List Nat := []
  /-- nodes that a COLLECTIVE task of this switch has computed since the last recall: level * 1024 + node (09 R240) -/
  computed : List Nat := []
  /-- a COLLECTIVE task of the chunk failed: its partition had no unfenced engine left (09 R252) -/
  failed : Bool := false
  /-- a switch below the root: the attempt for which it sends its nodes' results -/
  attempt : Nat := 0
  /-- the root: a recall's recomputation is still to be made -/
  owed : Bool := false
  /-- the root: check of what the current attempt delivers, by rank -/
  checks : Tab Nat := []
  deriving DecidableEq, Repr

/-- An epoch at a switch (08 R205). -/
structure Epoch where
  number : Nat
  cop : Nat
  rop : Nat
  fmt : Nat
  sat : Bool
  unsigned : Bool
  root : Nat
  /-- last chunk on this plane, once an END frame named it -/
  endChunk : Option Nat := none
  chunks : Tab Chunk := []
  aborted : Option Nat := none
  /-- L as this plane knows it: from its END chunk; a free value before, and on a plane that carries no END chunk (log 16) -/
  len : Nat := 0
  /-- placements in force when it opened -/
  place : Tab Nat := []
  deriving DecidableEq, Repr

/-- A Syndicate at a switch (08 R193). Members: end-point * 64 + agent, in rank order. -/
structure Synd where
  partition : Nat
  members : List Nat
  settle : Nat := 500
  lost : List Nat := []
  epochs : List Epoch := []
  /-- epochs closed or aborted here -/
  closed : List Nat := []
  deriving DecidableEq, Repr

/-! ### Failure detector and MGMT relays -/

/-- A switch's record of one end-point (23 R545 to R547). -/
structure EpRec where
  inc : Nat := 0
  verdict : Bool := false
  misses : Nat := 0
  /-- SUSPECTs held: sender switch -/
  suspects : List Nat := []
  acked : Bool := true
  /-- payload of the last HEARTBEAT sent -/
  beat : List Byte := []
  /-- ADMIT has been sent since this switch started (log 17) -/
  admitted : Bool := false
  readmitting : Bool := false
  deriving DecidableEq, Repr

/-- A relay under the resend rule (05 R116): frames by port, sends so far. -/
structure Relay where
  port : Nat
  f : Frame
  sends : Nat := 1
  /-- the command that waits for it -/
  cmd : Option (Nat × Nat) := none
  deriving DecidableEq, Repr

/-- Detector and management (23). -/
structure Mgmt where
  rec_ : Tab EpRec := []
  relay : Tab Relay := []
  nextRelay : Nat := 0
  /-- subtype and payload of relayed frames seen -/
  seen : List (Nat × List Byte) := []
  /-- switches that have confirmed a READMIT -/
  confirms : List Nat := []
  deriving DecidableEq, Repr

/-! ### Power -/

/-- A power domain (20 R485 to R492). -/
structure Domain where
  state : Nat := 0
  /-- vote of PF0 and of each VF; unlisted: RUN -/
  votes : Tab Nat := []
  /-- entering this state -/
  entering : Option Nat := none
  /-- stage of the exit awaited, 1 to 4 -/
  exiting : Option Nat := none
  /-- work or a wake waits for the entry to complete -/
  wake : Bool := false
  fenced : Bool := false
  deriving DecidableEq, Repr

/-- Power and pace (20). -/
structure Power where
  /-- key kind * 64 + index -/
  dom : Tab Domain := []
  p : Nat := 100
  pMax : Nat := 100
  balance : List Nat := []
  mV : Nat := 750
  watts : Nat := 0
  /-- power at the last 1,000 regulator instants, newest first -/
  samples : List Nat := []
  /-- engines held in STILL, first held first -/
  heldOrder : List Nat := []
  /-- regulator ticks with power below LIMIT - 20 W -/
  lowTicks : Nat := 0
  paceOver : Bool := false
  /-- degrees above 94 while throttling -/
  throttle : Nat := 0
  brakeShed : Bool := false
  deriving DecidableEq, Repr

/-! ### The two devices -/

/-- The MVZ-6424. -/
structure Switch where
  sys : Sys := {}
  teller : Teller := {}
  host : HostIf := {}
  tally : Tally := {}
  ledger : Tab Ledger := []
  /-- Ledger entries queued outside staging: partition and entry (22 R531) -/
  ledgerQueue : List (Nat × Entry) := []
  /-- INPUT_COPYs waiting for staging room: port and frame -/
  inputWait : List (Nat × Frame) := []
  vault : Vault := {}
  mem : Mem := {}
  xlat : Xlat := {}
  core : Core := {}
  sched : Sched := {}
  clock : Clock := {}
  link : Tab Link := []
  escrow : Escrow := {}
  synd : Tab Synd := []
  mgmt : Mgmt := {}
  power : Power := {}
  deriving DecidableEq, Repr

/-- Line states of the remote line cache (24 R567). -/
inductive CState where
  | s
  | e
  | m
  | o
  | snap
  | owned
  deriving DecidableEq, Repr

/-- A way of the remote line cache. The list keeps most recently used first. -/
structure Way where
  fga : Nat
  partition : Nat
  keySlot : Nat
  state : CState
  gen : Nat := 0
  data : List Byte
  /-- under the hold of R126 -/
  hold : Bool := false
  deriving DecidableEq, Repr

/-- An access that waits for a translation: a request by its order, or a call by its agent and tag. -/
inductive EpWaiter where
  | req (order : Nat)
  | call (agent utag : Nat)
  deriving DecidableEq, Repr

/-- What an in-flight request of the end-point is for. -/
inductive FlightKind where
  /-- piece idx of the request of that order -/
  | req (order idx : Nat)
  /-- READ_OWN or CLAIM for a store -/
  | grant (order idx : Nat)
  /-- a translation for a CVA, for the one access that waits for it -/
  | translate (who : EpWaiter) (cva : Nat)
  deriving DecidableEq, Repr

/-- A request the end-point has issued and not completed (04, in-flight table). -/
structure EpFlight where
  port : Nat
  tag : Nat
  agent : Nat
  kind : FlightKind
  f : Frame
  ctx : Nat := 0
  desc : Desc := {}
  cva : Nat := 0
  /-- generation when it was issued (04 R100, R102) -/
  gen : Nat := 0
  /-- its header has left -/
  sent : Bool := false
  /-- what it brings is delivered and not installed: a write, a discard or a hand-over passed it -/
  noInstall : Bool := false
  /-- its partition's generation has advanced since it was issued (04 R102) -/
  genPast : Bool := false
  deriving DecidableEq, Repr

/-- A part of an accelerator request: one line or part of a line (24 R559). -/
structure Piece where
  cva : Nat
  len : Nat
  data : List Byte := []
  /-- descriptor under which it goes; none: to be translated -/
  desc : Option Desc := none
  home : Nat := 0
  off : Nat := 0
  /-- none: not answered -/
  status : Option Nat := none
  rsp : List Byte := []
  /-- sent or served -/
  started : Bool := false
  /-- rounds of CLAIM or READ_OWN made (24 R566) -/
  rounds : Nat := 0
  /-- the next round is READ_OWN, after a CLAIM that granted nothing -/
  own : Bool := false
  /-- the store goes as a plain WRITE -/
  plain : Bool := false
  deriving DecidableEq, Repr

/-- Whose a request at the end-point is: an accelerator message, or part of a collective call (08). -/
inductive ReqFor where
  | accel
  /-- bytes of a chunk's contribution; scale: of the scale array -/
  | collSend (synd epoch chunk : Nat) (scale : Bool) (pos : Nat)
  /-- a result frame written into the receive buffer -/
  | collRecv (synd epoch chunk attempt : Nat) (last : Bool)
  | collReport (synd epoch : Nat)
  deriving DecidableEq, Repr

/-- A request in progress at the end-point. -/
structure EpReq where
  r : Req
  order : Nat
  for_ : ReqFor := .accel
  pieces : List Piece := []
  /-- the checks of R565 are passed -/
  checked : Bool := false
  /-- waits for a translation of this CVA -/
  xwait : Option Nat := none
  /-- flagged: the failed earlier write issued first, and its status (03 R86) -/
  fail : Option (Nat × Nat) := none
  deriving DecidableEq, Repr

/-- A fence pending at the end-point. -/
structure EpFence where
  agent : Nat
  utag : Nat
  kind : FenceKind
  scope : Scope
  /-- requests issued before it -/
  before : Nat
  deriving DecidableEq, Repr

/-- A SNOOP or BACK_INV held (05 R126). -/
structure HeldSnoop where
  port : Nat
  fga : Nat
  f : Frame
  deriving DecidableEq, Repr

/-- A request at the end-point home (24 R560, 22 R529). -/
structure HomeReq where
  port : Nat
  f : Frame
  utag : Nat
  /-- 0 waits for the line, 1 waits for INPUT_ACK, 2 waits for MEM_CPL, 3 waits for a fill's COH_ACK -/
  stage : Nat := 0
  /-- tag of its INPUT_COPY -/
  ctag : Nat := 0
  /-- line of its range now served, and the bytes read so far -/
  line : Nat := 0
  acc : List Byte := []
  /-- its fence or age has ended it: only the memory's answer is still awaited -/
  ended : Bool := false
  deriving DecidableEq, Repr

/-- A chunk of a call at a member (08 R210, R216). -/
structure EpChunk where
  attempt : Nat := 0
  /-- the frame with LAST has come and the check agrees -/
  whole : Bool := false
  delivered : Bool := false
  settled : Bool := false
  /-- status of the first write of the attempt into the receive buffer that failed; 0: none (08 R210, R217) -/
  fail : Nat := 0
  /-- bytes of the attempt so far, by position, and those of the scale array -/
  rx : List (Nat × List Byte) := []
  rxScale : List (Nat × List Byte) := []
  deriving DecidableEq, Repr

/-- A collective call (24 R570). -/
structure EpCall where
  agent : Nat
  utag : Nat
  c : CallRec
  rank : Nat := 0
  n : Nat := 1
  partition : Nat := 0
  epoch : Nat := 0
  /-- 0 checks its buffers, or is held as a fifth epoch; 1 awaits the release fence; 2 open; 3 writes the report; 4 awaits the acquire
  fence; 5 done -/
  stage : Nat := 0
  /-- waits for a translation of this CVA -/
  xwait : Option Nat := none
  chunks : Nat := 1
  chunk : Tab EpChunk := []
  /-- chunk being sent, bytes of its element and scale arrays sent -/
  cur : Nat := 0
  pos : Nat := 0
  spos : Nat := 0
  /-- a read of the send buffer is under way -/
  reading : Bool := false
  /-- bytes of the report written -/
  reported : Nat := 0
  status : Nat := 0
  deriving DecidableEq, Repr

/-- A Syndicate rank held by an agent (08 R194). -/
structure Rank where
  synd : Nat
  partition : Nat
  agent : Nat
  rank : Nat
  n : Nat
  nextEpoch : Nat := 0
  lost : Bool := false
  /-- rack of the member of rank 0, where the root switches are (08 R207) -/
  rootRack : Nat := 0
  deriving DecidableEq, Repr

/-- An invalidation an end-point is handling (02 R51). -/
structure EpInval where
  number : Nat
  port : Nat
  f : Frame
  ctx : Nat
  /-- tags awaited: port * 4096 + tag -/
  drain : List Nat := []
  /-- ports of relayed switches awaited -/
  await : List Nat := []
  engines : Nat := 0
  silent : Nat := 0
  /-- the port on which it came is fenced: it is not acknowledged, and only its relays are still awaited (02 R53) -/
  dead : Bool := false
  deriving DecidableEq, Repr

/-- An end-point region hand-over flush in progress: region, home, port to answer (05 R120). -/
structure EpFlush where
  home : Nat
  region : Nat
  port : Nat
  f : Frame
  deriving DecidableEq, Repr

/-- The AKG-8. -/
structure EndPoint where
  homeId : Nat := 0x3FF
  inc : Option Nat := none
  strongroom : Bool := false
  kgs : Bool := false
  /-- the debug port works; the on-die trace works outside Strongroom (24 R573) -/
  debug : Bool := true
  /-- fault records that it has raised, oldest first: kind and fabric time (01 R17, 14 R364, R367, R373, 15 R402) -/
  raised : List (Nat × Nat) := []
  /-- incarnations of other end-points, learnt from VERDICTs; unlisted: 0 -/
  peerInc : Tab Nat := []
  /-- other end-points known to be fenced by a verdict -/
  peerLost : List Nat := []
  verdict : Bool := false
  event : BitVec 32 := 0
  /-- LATE of EP_SCHED_STATUS -/
  late : Bool := false
  cplTimeout : BitVec 32 := 0xC8
  exposed : BitVec 64 := 0
  inputUnacked : Nat := 0
  bind : Tab (BitVec 64) := []
  /-- AKG-8s number their agents 0 to 63; first levels by agent -/
  l1 : Tab (List Held) := []
  l2 : List Held := []
  cache : List Way := []
  reserved : List Nat := []
  wbRecord : List Nat := []
  gen : Tab Nat := []
  reqs : List EpReq := []
  flight : List EpFlight := []
  quarantine : List Nat := []
  orderCount : Nat := 0
  fences : List EpFence := []
  /-- failed writes of each agent since its last SYSTEM release fence: order and status -/
  badWrite : Tab (List (Nat × Nat)) := []
  snoops : List HeldSnoop := []
  home : Home := {}
  homeReqs : List HomeReq := []
  nextMem : Nat := 0
  nextCopy : Nat := 0
  closed : List Nat := []
  /-- slot to planes that have sent SLOT_OPEN -/
  opens : Tab (List Nat) := []
  removed : List Nat := []
  /-- agent fences: agent to ports holding it -/
  agentFence : Tab (List Nat) := []
  ranks : List Rank := []
  /-- epochs that aborted before the agent's call opened them (08 R220): Syndicate, agent, epoch, status -/
  aborted : List (Nat × Nat × Nat × Nat) := []
  calls : List EpCall := []
  invals : List EpInval := []
  flushes : List EpFlush := []
  /-- CONFIG frames about regions taken, newest first: port, tag, payload, and the status confirmed; none: at work (05 R116) -/
  configs : List (Nat × Nat × List Byte × Option Nat) := []
  link : Tab Link := []
  sched : Sched := {}
  clock : Clock := {}
  gate : Tab GatePos := []
  /-- frames waiting for an open gate or a credit, key port * 8 + class -/
  outq : Tab (List Frame) := []
  /-- credits spent, key port * 16 + vc -/
  spent : Tab Nat := []
  tHold : Nat := 200
  ceil : Nat := 125
  seen : List (Nat × List Byte) := []
  /-- its link equalisation entries, port * 4 + step (14 R369): nothing in the spec writes one -/
  cal : Tab EqSet := []
  /-- its counters of a port, key port * 64 + index (13 R349, 15 R384 to R399) -/
  counter : Tab Nat := []
  ucie : List Nat := [0, 1, 2, 3, 4, 5, 6, 7]
  p : Nat := 100
  mV : Nat := 750
  powerLimit : Nat := 46
  alert : Bool := false
  thermTrip : Bool := false
  off : Bool := false
  serial : Nat := 0
  deriving DecidableEq, Repr

/-- The state of the block. -/
structure State where
  sw : Switch := {}
  ep : EndPoint := {}
  /-- what the block has sent, oldest first -/
  out : List Out := []
  /-- entries of out whose frames, void tails and control slots the link layer has taken into slots -/
  loaded : Nat := 0
  /-- counter of the free values taken -/
  fresh : Nat := 0
  /-- commands waiting, first in first out -/
  pending : List Instr := []
  deriving DecidableEq, Repr

/-- The block at the instant a cold start begins: every register at its reset value. -/
def State.reset : State := {}

end Sys2Proof.Machine
end

