-- ==== Sys2Proof/Machine/Ops.lean ====
section
/-!
DEFINITION. The named operations over State that the meanings share: bytes, memory, fabric time, counters, fault
records, events, the Ledger, frames and the queues they leave by.
-/

namespace Sys2Proof.Machine

/-! ### State updates -/

/-- s with its switch changed. -/
def State.onSw (s : State) (g : Switch → Switch) : State := { s with sw := g s.sw }

/-- s with its end-point changed. -/
def State.onEp (s : State) (g : EndPoint → EndPoint) : State := { s with ep := g s.ep }

/-- s having sent o. -/
def State.emit (s : State) (o : Out) : State := { s with out := s.out ++ [o] }

/-- A fresh free value and the state that has taken it (log 5). -/
def State.free (s : State) : Nat × State := (Config.freeBits s.fresh, { s with fresh := s.fresh + 1 })

/-- f folded over a list of items. -/
def State.each {α : Type} (s : State) (l : List α) (g : State → α → State) : State := l.foldl g s

/-- s, or g s when the condition holds. -/
def State.ifThen (s : State) (c : Bool) (g : State → State) : State := if c then g s else s

/-! ### Bytes -/

/-- n as w little-endian bytes (00 R5). -/
def leBytes : (w : Nat) → (n : Nat) → List Byte
  | 0, _ => []
  | w + 1, n => BitVec.ofNat 8 n :: leBytes w (n / 256)

/-- The number that little-endian bytes hold (00 R5). -/
def leVal : List Byte → Nat
  | [] => 0
  | b :: t => b.toNat + 256 * leVal t

/-- Bytes [off, off + n) of a list, zeros beyond its end. -/
def slice (l : List Byte) (off n : Nat) : List Byte :=
  let t := (l.drop off).take n
  t ++ List.replicate (n - t.length) 0

/-- The little-endian number of n bytes at off. -/
def field (l : List Byte) (off n : Nat) : Nat := leVal (slice l off n)

/-- l padded with zeros to n bytes and cut there. -/
def padTo (n : Nat) (l : List Byte) : List Byte := slice l 0 n

/-- The 64 bytes of a digest. -/
def digestBytes (d : Digest) : List Byte := leBytes 64 d.toNat

/-- One byte into a reflected CRC-32C register. -/
def crcByte (c : BitVec 32) (b : Byte) : BitVec 32 :=
  (List.range 8).foldl (fun c _ => if c.getLsbD 0 then (c >>> 1) ^^^ 0x82F63B78#32 else c >>> 1) (c ^^^ b.setWidth 32)

/-- CRC-32C, Castagnoli (00 glossary). -/
def crc32c (l : List Byte) : BitVec 32 := ~~~(l.foldl crcByte 0xFFFFFFFF#32)

/-! ### Memory of a home: a canonical list of cells -/

/-- The canonical form: addresses strictly rising and no zero byte listed. -/
def Memory.wf : List Host.Cell → Bool
  | [] => true
  | [(_, b)] => b != 0
  | (a, b) :: (a', b') :: t => b != 0 && decide (a < a') && Memory.wf ((a', b') :: t)

/-- What an unlisted address reads as. -/
def Memory.default : Byte := 0

/-- The byte at address a. -/
def Memory.read (m : List Host.Cell) (a : Nat) : Byte := Tab.get m a Memory.default

/-- The memory with byte b at address a, in canonical form. -/
def Memory.write (m : List Host.Cell) (a : Nat) (b : Byte) : List Host.Cell :=
  if b = Memory.default then Tab.del m a else Tab.put m a b

/-- n bytes from address a. -/
def Memory.readN (m : List Host.Cell) (a : Nat) : Nat → List Byte
  | 0 => []
  | n + 1 => Memory.read m a :: Memory.readN m (a + 1) n

/-- The memory with bytes l from address a. -/
def Memory.writeN (m : List Host.Cell) (a : Nat) : List Byte → List Host.Cell
  | [] => m
  | b :: t => Memory.writeN (Memory.write m a b) (a + 1) t

/-! ### Fabric time (11 R283, R284): units of 1/850 ns -/

/-- Units in one flit time at S3, one microsecond, one millisecond and one second. -/
def tFlit : Nat := 1024
def tUs : Nat := 850000
def tMs : Nat := 850000000
def tSec : Nat := 850000000000

/-- Whole seconds and the 32-bit binary fraction of a fabric time. -/
def timeSec (t : Nat) : Nat := t / tSec
def timeFrac (t : Nat) : Nat := (t % tSec) * 2 ^ 32 / tSec

/-- A fabric time from seconds and fraction. -/
def ofSecFrac (sec frac : Nat) : Nat := sec * tSec + frac * tSec / 2 ^ 32

/-- The flit count of an instant (11 R284). -/
def flitCount (t : Nat) : Nat := t / tFlit

/-- Time as bytes: seconds in bytes 0 to 5, fraction in bytes 8 to 11 (22 R521, 23 R535). -/
def timeBytes (t : Nat) : List Byte := leBytes 8 (timeSec t % 2 ^ 48) ++ leBytes 8 (timeFrac t)

/-- Bits [63:0] of fabric time, as a probe carries it (15 R407). -/
def time64 (t : Nat) : Nat := (timeSec t * 2 ^ 32 + timeFrac t) % 2 ^ 64

/-- Time of a Ticker: seconds [15:0] above fraction bits [31:16] (07 R188). -/
def tickerTime (t : Nat) : Nat := (timeSec t % 2 ^ 16) * 2 ^ 16 + timeFrac t / 2 ^ 16

/-- The age stamp of class c (03 R76). -/
def ageStamp (now cls : Nat) : Nat := (if cls = 0 then now / (2 * tUs) else now / tUs) % 4096

/-- Whether a frame is past the age limit of its class (03 R77). -/
def aged (cfg : Persist) (now : Nat) (f : Frame) : Bool :=
  let age := (ageStamp now f.cls + 4096 - f.age % 4096) % 4096
  if f.cls = 0 then age > cfg.ageMgmt / 2
  else if f.cls = 1 ∨ f.cls = 3 then age > cfg.ageReq
  else false

/-- The fabric time a device holds. -/
def State.now (s : State) (d : Dev) : Nat :=
  match d with
  | .sw => s.sw.clock.now
  | .ep => s.ep.clock.now

/-- One flit time of fabric time passes on both devices (DESIGN CHOICE, log 2). -/
def State.tick (s : State) : State :=
  { s with sw := { s.sw with clock := { s.sw.clock with now := s.sw.clock.now + tFlit } }
           ep := { s.ep with clock := { s.ep.clock with now := s.ep.clock.now + tFlit } } }

/-! ### Identity and topology (01 R8 to R12, 02 R22) -/

/-- The switch's home ID. -/
def Sys.homeId (y : Sys) : Nat := y.rack * 8 + y.plane

/-- Home ID of the end-point in slot n of rack r. -/
def epId (rack slot : Nat) : Nat := 0x40 + rack * 64 + slot

def isSwitchId (h : Nat) : Bool := h < 0x40
def isEpId (h : Nat) : Bool := 0x40 ≤ h && h < 0x240
def epRack (h : Nat) : Nat := (h - 0x40) / 64
def epSlot (h : Nat) : Nat := (h - 0x40) % 64

/-- Rack of a switch or end-point ID. -/
def rackOf (h : Nat) : Nat := if isSwitchId h then h / 8 else epRack h

/-- h is an end-point of the domain (03 R63). -/
def epInDomain (y : Sys) (h : Nat) : Bool :=
  isEpId h && epRack h < y.racks && (y.mode == 0 || epSlot h < 48)

/-- h is a switch of the domain. -/
def swInDomain (y : Sys) (h : Nat) : Bool := isSwitchId h && h / 8 < y.racks

/-- Port p is an edge port in the mode (01 Port roles). -/
def isEdge (y : Sys) (p : Nat) : Bool := y.mode == 0 || p < 48

/-- The default output port for a destination (01 R12); none: no route. -/
def defaultRoute (y : Sys) (d : Nat) : Option Nat :=
  let rk := rackOf d
  if d = y.homeId then none
  else if isSwitchId d && d % 8 != y.plane then none
  else if !(isSwitchId d || isEpId d) || rk ≥ y.racks then none
  else if rk = y.rack then
    if isEpId d && (y.mode == 0 || epSlot d < 48) then some (epSlot d) else none
  else if isEpId d && epSlot d ≥ 48 then none
  else
    let east := (rk + y.racks - y.rack) % y.racks
    let west := (y.rack + y.racks - rk) % y.racks
    some ((if east ≤ west then 48 else 56) + d % 8)

/-- The output port of the running route table (11 R291, 17 R447). -/
def Switch.route (w : Switch) (d : Nat) : Option Nat :=
  match w.sched.active.bind (·.routes) with
  | some t => t.find d
  | none => defaultRoute w.sys d

/-! ### Ports -/

def Switch.getLink (w : Switch) (p : Nat) : Link := w.link.get p {}
def EndPoint.getLink (e : EndPoint) (p : Nat) : Link := e.link.get p {}

/-- The link port p of device d. -/
def State.getLink (s : State) (d : Dev) (p : Nat) : Link :=
  match d with
  | .sw => s.sw.getLink p
  | .ep => s.ep.getLink p

/-- s with the link port p of device d replaced. -/
def State.putLink (s : State) (d : Dev) (p : Nat) (l : Link) : State :=
  match d with
  | .sw => s.onSw fun w => { w with link := w.link.put p l }
  | .ep => s.onEp fun e => { e with link := e.link.put p l }

/-- s with the link port p of device d changed. -/
def State.onLink (s : State) (d : Dev) (p : Nat) (g : Link → Link) : State := s.putLink d p (g (s.getLink d p))

/-- A port may send new flits: no lane change runs and fewer than 512 flits wait for acknowledgement (14 R375, 15 R389). -/
def Link.window (l : Link) : Bool := l.changing.isNone && decide (l.tx.replay.length < 512)

/-- Number of ports of a device. -/
def portCount : Dev → Nat
  | .sw => 64
  | .ep => 8

/-- A link that carries frames: ACTIVE, or in a power state from which a queued frame wakes it (20 R489), or waking from one. -/
def Link.carries (l : Link) : Bool := [PortState.active, .nap, .rest].contains l.state || l.waking

/-- Edge ports whose links carry frames: those of the end-points that a relay reaches. -/
def Switch.edgesUp (w : Switch) : List Nat := (List.range 64).filter fun p => isEdge w.sys p && (w.getLink p).carries

/-- Ports of a device whose links carry frames. -/
def State.portsUp (s : State) (d : Dev) : List Nat := (List.range (portCount d)).filter fun p => (s.getLink d p).carries

/-- Ports of a device that are ACTIVE. -/
def State.livePorts (s : State) (d : Dev) : List Nat :=
  (List.range (portCount d)).filter fun p => (s.getLink d p).state == .active

/-! ### Counters (23 R538) -/

/-- Add n to counter i of a block, saturating at 64 bits. -/
def Tally.add (t : Tally) (block i n : Nat) : Tally :=
  { t with counter := t.counter.put (block * 64 + i) (min (2 ^ 64 - 1) (t.counter.get (block * 64 + i) 0 + n)) }

/-- Keep the counters as they stand when the first count of a millisecond comes: what Strongroom lets be read (21 R520). -/
def Tally.keep (t : Tally) (ms : Nat) : Tally := if t.snapshotMs = ms then t else { t with snapshot := t.counter, snapshotMs := ms }

/-- The counters at the last whole millisecond. -/
def Tally.atMs (t : Tally) (ms : Nat) : Tab Nat := if t.snapshotMs = ms then t.snapshot else t.counter

def State.countN (s : State) (block i n : Nat) : State :=
  s.onSw fun w => { w with tally := (w.tally.keep (w.clock.now / tMs)).add block i n }

/-- Count one event in a counter block. -/
def State.count (s : State) (block i : Nat) : State := s.countN block i 1

/-- Device counters. -/
def cLateResponse : Nat := 0
def cMailboxIgnored : Nat := 1
def cHostRefused : Nat := 2
def cMirrorRefused : Nat := 3
def cWritebackDiscarded : Nat := 4
def cSyndDiscard : Nat := 5
def cResidence : Nat := 6

/-- Port counters. -/
def cVoidRx : Nat := 0
def cReplay : Nat := 1
def cSealFail : Nat := 2
def cCorrected : Nat := 3
def cStale : Nat := 4
def cBadType : Nat := 5
def cBadSparse : Nat := 6
def cNoRoute : Nat := 7
def cSlotMiss (tc : Nat) : Nat := 8 + tc
def cTileSpill (tc : Nat) : Nat := 16 + tc
def cTc0Drop (colour : Nat) : Nat := 24 + colour
def cPolicer (tc colour : Nat) : Nat := 27 + 3 * (match tc with | 0 => 0 | 3 => 1 | 4 => 2 | 6 => 3 | _ => 4) + colour
def cBodyOrphan : Nat := 42
def cCtrlReserved : Nat := 43
def cFramesTx : Nat := 44
def cFramesRx : Nat := 45
def cTc0Aged : Nat := 46

def blkPort (p : Nat) : Nat := 0x100 + p
def blkChan (c : Nat) : Nat := 0x200 + c
def blkPart (n : Nat) : Nat := 0x300 + n
def blkEng (e : Nat) : Nat := 0x400 + e

/-! ### Events, interrupts and ALERT_N (18 R457, 23 R537) -/

/-- The HOST port trains, where it is to: to a generation of 1 to 7 and a width that it and its partner have in common (18 R451; free values, log 5). -/
def State.trainHost (s : State) (up : Bool) : State :=
  if !up then s.onSw fun w => { w with sys := { w.sys with hostLink := false } }
  else
    let g := s.free
    let n := g.2.free
    n.2.onSw fun w => { w with sys := { w.sys with hostLink := true, hostGen := 1 + g.1 % 7, hostWidth := [16, 8, 4, 2, 1].getD (n.1 % 5) 16 } }

/-- Under Strongroom a VF's vector 4 is not sent within 1 ms of the last (18 R457). -/
def State.vectorHeld (s : State) (fn vec : Nat) : Bool :=
  s.sw.sys.strongroom && fn != 0 && vec == 4 && (s.sw.host.lastVec4.find fn).any fun t => decide (s.now .sw < t + tMs)

/-- Send a vector, or hold it pending: behind its mask, or, for vector 4 under Strongroom, until a later event or unmasking finds 1 ms gone (18 R457;
DESIGN CHOICE, log 127). -/
def State.msix (s : State) (fn vec : Nat) : State :=
  let k := fn * 2048 + vec
  if s.sw.host.unmasked.contains k && !s.vectorHeld fn vec then
    (s.onSw fun w => { w with
      host := { w.host with msixPending := w.host.msixPending.filter (· != k)
                            lastVec4 := if vec = 4 ∧ fn ≠ 0 then w.host.lastVec4.put fn (s.now .sw) else w.host.lastVec4 } }).emit (.msix fn vec)
  else if s.sw.host.msixPending.contains k then s
  else s.onSw fun w => { w with host := { w.host with msixPending := k :: w.host.msixPending } }

/-- SW_EVENT bits. -/
def evFault : Nat := 0
def evTeller : Nat := 1
def evPort : Nat := 2
def evSched : Nat := 3
def evPower : Nat := 4

/-- Set a bit of SW_EVENT; a 0-to-1 change sends its vector. -/
def State.setEvent (s : State) (b : Nat) : State :=
  if s.sw.host.swEvent.getLsbD b then s
  else (s.onSw fun w => { w with host := { w.host with swEvent := w.host.swEvent ||| (1#32 <<< b) } }).msix 0 (16 + b)

/-- Whether the module asserts ALERT_N. -/
def Switch.alertWanted (w : Switch) : Bool :=
  (w.host.swEvent.getLsbD 0 && w.sys.alertRec) || w.teller.state == 2
    || w.sys.phase == .romRecovery || w.sys.phase == .tripHold

/-- Drive ALERT_N as R537 asks. -/
def State.refreshAlert (s : State) : State :=
  let a := s.sw.alertWanted
  if a = s.sw.sys.alert then s
  else (s.onSw fun w => { w with sys := { w.sys with alert := a } }).emit (.pin .alertN (!a))

/-- Severity of a fault kind (23 table Fault kinds). -/
def severity (k : Nat) : Nat :=
  if [0x11, 0x32, 0x33, 0x40].contains k then 0
  else if [0x34, 0x35, 0x41, 0x42, 0x43, 0x45, 0x46, 0x47, 0x60, 0x61, 0x62, 0x80].contains k then 2
  else if [0x50, 0x70, 0x71, 0x72, 0x73, 0x74, 0x75, 0x83, 0x84, 0x91].contains k then 3
  else 1

/-- Fault kinds. -/
def fNoSegment : Nat := 0x01
def fPermission : Nat := 0x02
def fBadDescriptor : Nat := 0x03
def fOverlap : Nat := 0x04
def fTableRead : Nat := 0x05
def fUnreachable : Nat := 0x06
def fResidence : Nat := 0x10
def fModeMismatch : Nat := 0x11
def fKeyPartition : Nat := 0x12
def fHostAccess : Nat := 0x13
def fTaskFailed : Nat := 0x20
def fDoneLost : Nat := 0x21
def fEcc : Nat := 0x30
def fSram : Nat := 0x31
def fPageRetired : Nat := 0x32
def fPprDone : Nat := 0x33
def fChannelFenced : Nat := 0x34
def fPartnerLost : Nat := 0x35
def fLaneFailed : Nat := 0x40
def fTrainFailed : Nat := 0x41
def fPartnerPart : Nat := 0x42
def fWiring : Nat := 0x43
def fLinkSlow : Nat := 0x44
def fLinkAuth : Nat := 0x45
def fLinkLost : Nat := 0x46
def fVcFenced : Nat := 0x47
def fHoldover : Nat := 0x50
def fPackageMismatch : Nat := 0x51
def fBookLate : Nat := 0x52
def fVerdict : Nat := 0x60
def fAgentFenced : Nat := 0x61
def fEngineFenced : Nat := 0x62
def fTellerLockstep : Nat := 0x70
def fTellerWatchdog : Nat := 0x71
def fConfigDefault : Nat := 0x72
def fCalInvalid : Nat := 0x73
def fImageFallback : Nat := 0x74
def fManagerLost : Nat := 0x75
def fWakeFailed : Nat := 0x80
def fPaceOver : Nat := 0x81
def fThrottle : Nat := 0x82
def fThermalTrip : Nat := 0x83
def fInputLow : Nat := 0x84
def fLedgerHigh : Nat := 0x90
def fLedgerFull : Nat := 0x91

/-- A fault occurrence before it becomes a record. -/
structure Occurrence where
  kind : Nat
  domain : Nat := 0
  index : Nat := 0
  partition : Nat := 0xFF
  status : Nat := 0xFF
  detail : List Byte := []
  /-- translation faults of one host read share a group (02 R45) -/
  group : Option Nat := none
  severity : Option Nat := none
  deriving DecidableEq, Repr

/-- Whether an occurrence merges into a record: the newest record within 1 ms (23 R536), or the record of its own host read for its context,
segment and kind, whatever the partition (02 R45). -/
def merges (o : Occurrence) (now : Nat) (newest : Bool) (r : FaultRec) : Bool :=
  let same := r.kind == o.kind && r.domain == o.domain && r.index == o.index && r.partition == o.partition
  let detailOk := decide (o.kind > 6) || padTo 24 r.detail == padTo 24 o.detail
  (o.group.isSome && r.group == o.group && r.kind == o.kind && detailOk)
    || (newest && same && detailOk && decide (now < r.time + tMs) && o.severity.getD (severity o.kind) == r.severity)

/-- Add 1 to COUNT of the first record of the list (newest first) into which the occurrence merges. The record is then that of the occurrence's own host
read, so that the read's next fault joins it (02 R45). -/
def mergeFirst (o : Occurrence) (now : Nat) : Bool → List FaultRec → Option (List FaultRec)
  | _, [] => none
  | newest, r :: t =>
    if merges o now newest r then some ({ r with count := r.count + 1, group := o.group.orElse fun _ => r.group } :: t)
    else (mergeFirst o now false t).map (r :: ·)

/-- Record a fault in the Tally (23 R535, R536), newest first, and raise its event. -/
def State.record (s : State) (o : Occurrence) : State :=
  let now := s.now .sw
  match mergeFirst o now true s.sw.tally.faults with
  | some l => s.onSw fun w => { w with tally := { w.tally with faults := l } }
  | none =>
    let sev := o.severity.getD (severity o.kind)
    let r : FaultRec := { seq := s.sw.tally.nextSeq, time := now, kind := o.kind, severity := sev, domain := o.domain, index := o.index,
                          partition := o.partition, status := o.status, detail := o.detail, group := o.group }
    let s := s.onSw fun w => { w with
      tally := { w.tally with faults := (r :: w.tally.faults).take 8192, nextSeq := w.tally.nextSeq + 1 }
      sys := { w.sys with alertRec := w.sys.alertRec || decide (sev ≥ 2) } }
    let s := (s.setEvent evFault).refreshAlert
    if 1 ≤ o.partition ∧ o.partition ≤ 15 then s.msix o.partition 4 else s

/-- Record a fault about a port. -/
def State.recordPort (s : State) (kind p : Nat) : State := s.record { kind := kind, domain := 1, index := p }

/-! ### Ledger (22 R524 to R531) -/

def stagingTotal : Nat := 0x100000
def stagingKept : Nat := 0x10000

def Switch.getLedger (w : Switch) (p : Nat) : Ledger := w.ledger.get p {}

def State.putLedger (s : State) (p : Nat) (l : Ledger) : State := s.onSw fun w => { w with ledger := w.ledger.put p l }

/-- The 128 bytes of a chain entry (22 R526). -/
def entryBytes (e : Entry) : List Byte :=
  leBytes 8 e.seq ++ leBytes 1 e.kind ++ leBytes 1 e.flags ++ leBytes 2 e.source ++ leBytes 4 0
    ++ timeBytes e.time ++ padTo 96 e.body

/-- Kinds that may use the 64 KiB staging keeps (22 R531). -/
def keptKind (k : Nat) : Bool := [0x01, 0x03, 0x04, 0x05, 0x0A, 0x0B].contains k

/-- Whether staging has room for n more bytes of ordinary or kept kind. -/
def Ledger.room (l : Ledger) (n : Nat) (kept : Bool) : Bool :=
  decide (l.staged + n ≤ if kept then stagingTotal else stagingTotal - stagingKept)

/-- The chain with one more entry, taken into staging. -/
def Ledger.append (l : Ledger) (e : Entry) : Ledger :=
  let e := { e with seq := l.nextSeq }
  { l with nextSeq := l.nextSeq + 1, entries := l.entries ++ [e], staged := l.staged + 128,
           chain := Config.shake256 (digestBytes l.chain ++ entryBytes e),
           dirty := l.dirty || (e.kind != 0x0A && e.kind != 0x0B) }

/-- Note that staging is full, once for each filling. -/
def State.noteFull (s : State) (p : Nat) : State :=
  if (s.sw.getLedger p).fullNoted then s
  else (s.putLedger p { s.sw.getLedger p with fullNoted := true }).record { kind := fLedgerFull, domain := 5, index := p, partition := p }

/-- SOURCE and TIME of an entry taken now. -/
def State.mkEntry (s : State) (kind flags source : Nat) (body : List Byte) : Entry :=
  { seq := 0, kind := kind, flags := flags, source := source, time := s.now .sw, body := body }

/-- Entries and units that the shares of a region hold (22 R524). -/
def Ledger.chainShare (l : Ledger) : Nat := match l.region with | some r => r.2 / 8 / 128 | none => 0
def Ledger.unitShare (l : Ledger) : Nat := match l.region with | some r => (r.2 - r.2 / 8) / 128 | none => 0

/-- Unexported entries and units. -/
def Ledger.chainHeld (l : Ledger) : Nat := l.nextSeq - 1 - l.mark
def Ledger.unitHeld (l : Ledger) : Nat := l.nextUnit - 1 - l.unitMark

/-- LEDGER_HIGH when a stream's unexported part first passes three quarters of its share (22 R531). -/
def State.noteHigh (s : State) (p : Nat) : State :=
  let l := s.sw.getLedger p
  let hi := l.region.isSome && decide (3 * l.chainShare < 4 * l.chainHeld)
  let hu := l.region.isSome && decide (3 * l.unitShare < 4 * l.unitHeld)
  let note := (hi && !l.highNoted) || (hu && !l.highUnits)
  let s := s.putLedger p { l with highNoted := hi, highUnits := hu }
  if note then s.record { kind := fLedgerHigh, domain := 5, index := p, partition := p } else s

/-- The Ledger makes a seal: one SEAL entry and 14 SIGNATURE entries (22 R527). During a Teller-only restart, and while there is no room, it stays
owed. -/
def State.ledgerSeal (s : State) (p : Nat) : State :=
  let l := s.sw.getLedger p
  if !l.started then s
  else if !(l.room (15 * 128) true) || s.sw.teller.state == 1 || s.sw.ledgerQueue.any fun q => q.1 == p then s.putLedger p { l with sealDue := true }
  else
    let body := digestBytes l.chain ++ leBytes 8 l.sealFirst ++ leBytes 8 (l.seals + 1) ++ leBytes 8 l.nextUnit
    let e := { s.mkEntry 0x0A 0 s.sw.sys.homeId body with seq := l.nextSeq }
    let sig := Config.falconSign (Config.shake256 (entryBytes e))
    let parts := (List.range 14).map fun i => s.mkEntry 0x0B 0 s.sw.sys.homeId (slice sig (96 * i) 96)
    let l := (e :: parts).foldl Ledger.append l
    (s.putLedger p { l with lastSeal := e.seq, seals := l.seals + 1, sealFirst := l.nextSeq, dirty := false, sealDue := false }).noteHigh p

/-- The chain with one more entry; 65,536 entries after the last seal there is another (22 R527). -/
def State.ledgerPut (s : State) (p : Nat) (e : Entry) : State :=
  let s := (s.putLedger p ((s.sw.getLedger p).append e)).noteHigh p
  let l := s.sw.getLedger p
  if l.nextSeq - l.sealFirst ≥ 65536 ∧ ¬l.sealDue then s.ledgerSeal p else s

/-- The Ledger takes an entry of a partition whose chain has begun. Entries of kept kinds that find no room join the queue of R531. -/
def State.ledgerAdd (s : State) (p : Nat) (e : Entry) : State :=
  let l := s.sw.getLedger p
  if !l.started then s
  else if l.room 128 (keptKind e.kind) && (s.sw.ledgerQueue.all fun q => q.1 != p) then s.ledgerPut p e
  else if keptKind e.kind then
    let first := s.sw.ledgerQueue.isEmpty
    let s := s.onSw fun w => { w with ledgerQueue := w.ledgerQueue ++ [(p, e)] }
    let s := s.noteFull p
    if first then s.record { kind := fLedgerFull, domain := 5, index := p, partition := p } else s
  else s.noteFull p

/-- Bytes that must stay in staging: what the shares of the region cannot take beyond the export marks (22 R531). -/
def Ledger.mustStage (l : Ledger) : Nat := 128 * ((l.chainHeld - l.chainShare) + (l.unitHeld - l.unitShare))

/-- Entries of the queue outside staging go in, in the order taken, while there is room. -/
def State.takeQueuedEntries (s : State) (p : Nat) : (fuel : Nat) → State
  | 0 => s
  | n + 1 => match s.sw.ledgerQueue.find? fun q => q.1 == p with
    | none => s
    | some q =>
      if (s.sw.getLedger p).room 128 true then
        ((s.onSw fun w => { w with ledgerQueue := w.ledgerQueue.erase q }).ledgerPut p q.2).takeQueuedEntries p n
      else s

/-- Staging of a partition is written to its region, as far as the shares can take it; queued entries go in and are written too (22 R531). -/
def State.flushLedger (s : State) (p : Nat) : State :=
  let write (s : State) := let l := s.sw.getLedger p; s.putLedger p { l with staged := min l.staged l.mustStage }
  write ((write s).takeQueuedEntries p 2048)

/-- An entry of a kept kind goes into staging at once. -/
def Switch.stagesKept (w : Switch) (p : Nat) : Bool :=
  !(w.getLedger p).started || ((w.getLedger p).room 128 true && w.ledgerQueue.all fun q => q.1 != p)

/-- It goes there or into the queue of 2,048 entries outside staging; where not, the work that needs it waits (22 R531). -/
def Switch.takesKept (w : Switch) (p : Nat) : Bool := w.stagesKept p || decide (w.ledgerQueue.length < 2048)

/-- There is room for the START entry that each chain takes when a start ends. -/
def Switch.startsFit (w : Switch) : Bool :=
  decide (w.ledgerQueue.length + ((w.ledger.map Prod.fst).filter fun p => !w.stagesKept p).length ≤ 2048)

/-- C_0 of a chain (22 R527). -/
def chainStart (y : Sys) (p start : Nat) : Digest :=
  Config.shake256 (leBytes 8 y.serial ++ leBytes 1 p ++ leBytes 8 y.bootId ++ leBytes 8 start)

/-- BODY of a START entry (22 table Entry kinds). -/
def startBody (y : Sys) (kind : Nat) : List Byte :=
  let img := match (if y.runSlot = 0 then y.flash.slotA else y.flash.slotB) with
    | some i => i.digest
    | none => 0
  leBytes 8 y.bootId ++ leBytes 1 kind ++ leBytes 7 0 ++ digestBytes img

/-- Begin a chain for a partition with a START entry. -/
def State.ledgerBegin (s : State) (p kind : Nat) (region : Option (Nat × Nat)) : State :=
  let start := (region.map Prod.fst).getD 0
  let s := s.putLedger p { region := region, started := true, chain := chainStart s.sw.sys p start }
  s.ledgerAdd p (s.mkEntry 0x01 0 s.sw.sys.homeId (startBody s.sw.sys kind))

/-! ### Frames -/

/-- Frame types (03 R62). -/
def ftRead : Nat := 0x01
def ftReadVol : Nat := 0x02
def ftReadShared : Nat := 0x03
def ftReadOwn : Nat := 0x04
def ftClaim : Nat := 0x05
def ftWrite : Nat := 0x08
def ftWriteLog : Nat := 0x09
def ftDeposit : Nat := 0x0A
def ftAtomic : Nat := 0x10
def ftReadRsp : Nat := 0x20
def ftWriteRsp : Nat := 0x21
def ftAtomicRsp : Nat := 0x22
def ftSnoop : Nat := 0x28
def ftSnoopRsp : Nat := 0x29
def ftFwdData : Nat := 0x2A
def ftWriteback : Nat := 0x2B
def ftCohAck : Nat := 0x2C
def ftBackInv : Nat := 0x2D
def ftDepositFill : Nat := 0x2E
def ftTranslateReq : Nat := 0x30
def ftTranslateRsp : Nat := 0x31
def ftSegInv : Nat := 0x32
def ftSegInvAck : Nat := 0x33
def ftCollData : Nat := 0x38
def ftCollResult : Nat := 0x39
def ftCollConfirm : Nat := 0x3A
def ftCollRecall : Nat := 0x3B
def ftCollAbort : Nat := 0x3C
def ftMgmt : Nat := 0x3D
def ftLedger : Nat := 0x3E

/-- Completion status (03 R72). -/
def stOk : Nat := 0x0
def stAged : Nat := 0x1
def stTargetLost : Nat := 0x2
def stKeyRetired : Nat := 0x3
def stFenced : Nat := 0x4
def stBadAddress : Nat := 0x5
def stEcc : Nat := 0x6
def stBusyTimeout : Nat := 0x7
def stMemberLost : Nat := 0x8
def stTimeout : Nat := 0x9
def stSegFault : Nat := 0xA
def stNotOwner : Nat := 0xB

/-- A memory request (03 R61). -/
def isMemReq (t : Nat) : Bool := [0x01, 0x02, 0x03, 0x04, 0x05, 0x08, 0x09, 0x0A, 0x10].contains t

/-- A request that a response answers: a memory request or TRANSLATE_REQ (03 R72). -/
def isRequest (t : Nat) : Bool := isMemReq t || t == ftTranslateReq

/-- The response type of a request type (03 R62). -/
def rspType (t : Nat) : Nat :=
  if t = ftAtomic then ftAtomicRsp
  else if t = ftTranslateReq then ftTranslateRsp
  else if [0x05, 0x08, 0x09, 0x0A].contains t then ftWriteRsp
  else ftReadRsp

/-- The response class paired with a request class (03 R60). -/
def rspClass (c : Nat) : Nat := if c = 1 then 2 else 4

end Sys2Proof.Machine

namespace Sys2Proof

open Machine

/-- Bytes of memory that a request works on: LENGTH, or the operand size s of a CAS, whose LENGTH is 2s (03 R66). -/
def Frame.span (f : Frame) : Nat := if f.typ = ftAtomic ∧ f.opx.toNat % 16 = 8 then f.length / 2 else f.length

/-- The 128-byte lines of a request's range, by line number within the home. -/
def Frame.lines (f : Frame) : List Nat :=
  let a := f.offset / 128
  let b := (f.offset + max f.span 1 - 1) / 128
  (List.range (b - a + 1)).map (a + ·)

/-- The payload slots of data that are not all zero (03 R70), as the SPARSE bitmap. -/
def sparseOf (data : List Byte) : Nat :=
  (List.range (ceilDiv data.length 16)).foldl (fun m i => if (slice data (16 * i) 16).all (· == 0) then m else m + 2 ^ i) 0

/-- Number of bits set in SPARSE. -/
def popCount (n : Nat) : Nat := (List.range 16).foldl (fun c i => c + b2n (bit n i)) 0

/-- Present payload slots, frame bytes and cells of a frame (13 R333). -/
def Frame.slots (f : Frame) : Nat := popCount f.sparse
def Frame.bytes (f : Frame) : Nat := 32 + 16 * f.slots
def Frame.cells (f : Frame) : Nat := ceilDiv f.bytes 64

/-- f carrying data, with LENGTH and SPARSE as R69 and R70 give them. -/
def Frame.withData (f : Frame) (d : List Byte) : Frame := { f with data := d, length := d.length, sparse := sparseOf d }

/-- Whether SPARSE keeps R69. -/
def Frame.sparseOk (f : Frame) : Bool :=
  let carries := [0x08, 0x09, 0x0A, 0x10, 0x20, 0x22, 0x2A, 0x2B, 0x2E, 0x31, 0x32, 0x33, 0x38, 0x39, 0x3D, 0x3E].contains f.typ
  if carries then decide (f.sparse < 2 ^ ceilDiv f.length 16) else decide (f.sparse = 0)

/-- A field of OPX, by its bits of word 2 (03 R57). -/
def Frame.opxBits (f : Frame) (hi lo : Nat) : Nat := bits f.opx.toNat (lo - 36) (hi - lo + 1)

/-- A field of EXT. -/
def Frame.extBits (f : Frame) (hi lo : Nat) : Nat := bits f.ext.toNat lo (hi - lo + 1)

/-- OPX holding v at word 2 bits from lo. -/
def opxAt (v lo : Nat) : BitVec 28 := BitVec.ofNat 28 (v <<< (lo - 36))

/-- The response to a request (03 R60): TAG, AGENT, PARTITION, KEY_SLOT, INCARNATION and OFFSET copied. -/
def Frame.response (f : Frame) (me status : Nat) (data : List Byte) : Frame :=
  let d := if status = stOk then data else []
  ({ dest := f.src, src := me, agent := f.agent, partition := f.partition, cls := rspClass f.cls, typ := rspType f.typ,
     tag := f.tag, keySlot := f.keySlot, inc := f.inc, offset := f.offset, status := status } : Frame).withData d

/-- f with CACHE (word 2 bits [38:36], 05 R113). -/
def Frame.withCache (f : Frame) (c : Nat) : Frame := { f with opx := opxAt c 36 }

/-- CACHE of a response. -/
def Frame.cache (f : Frame) : Nat := f.opxBits 38 36

/-- The MSUB of a MGMT frame (23 R539). -/
def Frame.msub (f : Frame) : Nat := f.opxBits 43 36

end Sys2Proof

namespace Sys2Proof.Machine

/-! ### The switch's queues -/

/-- The output queue of a port for a class (13 R337); after: on the after-dateline channel of a trunk port. -/
def queueIx (y : Sys) (p cls : Nat) (after : Bool) : Nat :=
  if isEdge y p then cls else 2 * cls + b2n after

/-- Whether a frame leaves a trunk port on the after-dateline channel (13 R356). came: it came in after the dateline. -/
def Switch.afterDateline (w : Switch) (p : Nat) (came : Bool) : Bool :=
  came || (decide (48 ≤ p ∧ p < 56) && w.sys.rack == w.sys.racks - 1) || (decide (56 ≤ p) && w.sys.rack == 0)

/-- A virtual channel of the direction of trunk port p is out of service (13 R357). -/
def Switch.vcIsOut (w : Switch) (p vc : Nat) : Bool := w.core.vcOut.any fun x => decide (x / 128 = p / 8) && x % 16 == vc

/-- The virtual channel of class cls at port p, on the side of the dateline given; while it is out of service, the one that remains (13 R356, R357). -/
def Switch.vcPick (w : Switch) (p cls : Nat) (after : Bool) : Nat :=
  let v := queueIx w.sys p cls after
  let o := queueIx w.sys p cls (!after)
  if v != o && w.vcIsOut p v && !w.vcIsOut p o then o else v

/-- The queue, and so the virtual channel, by which a frame leaves port p. -/
def Switch.vcOf (w : Switch) (p cls : Nat) (came : Bool) : Nat := w.vcPick p cls (w.afterDateline p came)

/-- A frame that came in on a trunk port had crossed the dateline of its direction: its source's rack lies beyond it (13 R356, DEDUCED, log 40). -/
def Switch.cameAfter (w : Switch) (p src : Nat) : Bool :=
  !isEdge w.sys p && (if p < 56 then decide (rackOf src < w.sys.rack) else decide (w.sys.rack < rackOf src))

/-- The trunk port of the other direction in the same plane ring place: what comes in on a port travels in the direction of the other. -/
def acrossRing (p : Nat) : Nat := if p < 56 then p + 8 else p - 8

/-- The virtual channel on which a frame came in on port p: that of the direction in which it travels. -/
def Switch.vcIn (w : Switch) (p : Nat) (f : Frame) : Nat :=
  if isEdge w.sys p then f.cls else w.vcPick (acrossRing p) f.cls (w.cameAfter p f.src)

def ports64 : List Nat := List.range 64

/-- Key of queue q of output o. -/
def qKey (o q : Nat) : Nat := o * 16 + q

/-- The internal output of a Clearing unit, an engine core, and Escrow (13 R338). -/
def outUnit (u : Nat) : Nat := 64 + u
def outCore (k : Nat) : Nat := 80 + k
def outEscrow : Nat := 86

/-- The tile for a frame from a source (13 R336). src: a port, 64 + unit, 80 + core or 86. -/
def Switch.tileFor (w : Switch) (cls src : Nat) : Nat :=
  let schedIx := match cls with | 1 => some 0 | 2 => some 1 | 5 => some 2 | _ => none
  match schedIx, w.sched.active with
  | some i, some p =>
    let source := if src < 64 then src else if src < 80 then 65 else if src < 86 then 64 else 66
    p.tiles.get (source * 3 + i) 0
  | _, _ => if src < 64 then src % 16 else if src < 80 then src - 64 else if src < 86 then (10 + (src - 80)) % 16 else 0

/-- Cells a tile holds, less those retired (13 R333, 23 R553). -/
def Switch.tileFree (w : Switch) (t : Nat) : Nat := 163840 - w.core.retiredCells.get t 0 - w.core.used.get t 0

/-- The first tile in ascending order from t, wrapping, with room for n cells, and whether it is another tile than t. -/
def Switch.pickTile (w : Switch) (t n : Nat) : Nat × Bool :=
  match (List.range 16).find? fun i => decide (n ≤ w.tileFree ((t + i) % 16)) with
  | some i => ((t + i) % 16, i != 0)
  | none => (t, false)

/-- The frames that hold cells: queued, drawn by an internal output, begun by an output before their tails, and held red. -/
def Core.buffered (c : Core) : Tab (List Buffered) := c.queue ++ c.inbox ++ (c.cut.map fun e => (e.1, [e.2.b])) ++ c.held

/-- Virtual channels of port p: 8 on an edge port, 16 on a trunk port. -/
def channels (y : Sys) (p : Nat) : Nat := if isEdge y p then 8 else 16

/-- Cells of the reserve area that no virtual channel in use claims: they join the shared area (13 R334). In use are the channels of ports that carry
frames, less those out of service, and every class of the 23 internal sources. -/
def Switch.unclaimed (w : Switch) : Nat :=
  262144 - 256 * (8 * 23 + ports64.foldl (fun n p =>
    if (w.getLink p).carries then n + (channels w.sys p - (w.core.vcOut.filter fun x => decide (x / 16 = p)).length) else n) 0)

/-- Cells now placed in the scheduled and shared areas (13 R334), kept operands and mailbox images included. -/
def Switch.areaUsed (w : Switch) : Nat × Nat :=
  let q := w.core.buffered.foldl (fun a e => e.2.foldl (fun a b => (a.1 + b.sched, a.2 + b.shared)) a) (0, 0)
  let kept := w.synd.foldl (fun n e => e.2.epochs.foldl (fun n ep => ep.chunks.foldl (fun n c =>
    c.2.parts.foldl (fun n pt => n + ceilDiv (pt.bytes.length + pt.scales.length) 64) n) n) n) 0
  let images := (w.escrow.mbox.filter fun e => e.2.filling).length * 289
  (q.1, q.2 + kept + images)

/-- The frames that count against a virtual channel of a source. -/
def Switch.ofChannel (w : Switch) (src vc : Nat) : List Buffered := w.core.buffered.flatMap fun e => e.2.filter fun b => b.src == src && b.vc == vc

/-- How the n cells of a frame that arrives on a virtual channel of a source are placed (13 R352): in the scheduled area, the shared area; the rest is
reserve. Cell by cell, a cell joins the shared area while its channel's count there is below the number of free shared cells. -/
def Switch.place (w : Switch) (cls src vc n : Nat) : Nat × Nat :=
  let (su, sh) := w.areaUsed
  let freeS := 262144 - su
  let freeH := 2097152 + w.unclaimed - sh
  if cls = 1 ∨ cls = 2 ∨ cls = 5 then
    let a := min n freeS
    (a, min (n - a) freeH)
  else
    let mine := (w.ofChannel src vc).foldl (fun a b => a + b.shared) 0
    (0, min n ((freeH + 1 - mine) / 2))

/-- Work for a power domain (20 R489): it goes to RUN, or begins its exit; a port sends Chime. During an entry the wake waits (R491). -/
def State.work (s : State) (kind index : Nat) : State :=
  let k := kind * 64 + index
  if s.sw.sys.phase = .tripHold then s
  else match s.sw.power.dom.find k with
  | none => s
  | some d =>
    let put (d : Domain) (s : State) : State := s.onSw fun w => { w with power := { w.power with dom := w.power.dom.put k d } }
    if d.entering.isSome then put { d with wake := true } s
    else if d.state = 1 then put { d with state := 0 } s
    else if d.state ≥ 2 ∧ d.exiting.isNone ∧ !d.fenced then
      let s := put { d with exiting := some 1 } s
      if kind = 0 then s.emit (.chime .sw index) else s
    else s

/-- A domain serves: it is in RUN or STILL and not on its way to or from a deeper state (20 R486, R489). -/
def Switch.awake (w : Switch) (kind index : Nat) : Bool :=
  match w.power.dom.find (kind * 64 + index) with
  | none => true
  | some d => decide (d.state ≤ 1) && d.entering.isNone && d.exiting.isNone

/-- The work that a frame joining output o is: for its port, or for a Clearing unit slice. -/
def State.workAt (s : State) (o : Nat) : State :=
  if o < 64 then s.work 0 o else if o < 80 then s.work 4 (o - 64) else s

/-- The cells of a frame are placed in a tile and the areas as it arrives (13 R336, R352). -/
def State.placeFrame (s : State) (src vc : Nat) (f : Frame) (whole : Bool) (mark : Nat) : Buffered × State :=
  let n := f.cells
  let (t, spill) := s.sw.pickTile (s.sw.tileFor f.cls src) n
  let (a, h) := s.sw.place f.cls src vc n
  let s := s.onSw fun w => { w with core := { w.core with used := w.core.used.put t (w.core.used.get t 0 + n) } }
  ({ f := f, src := src, at_ := s.now .sw, tile := t, cells := n, whole := whole, sched := a, shared := h, vc := vc, mark := mark },
   if spill && src < 64 then s.count (blkPort src) (cTileSpill f.cls) else s)

/-- A frame whose cells are placed joins the end of queue key. -/
def State.join (s : State) (key : Nat) (b : Buffered) : State :=
  (s.onSw fun w => { w with core := { w.core with queue := w.core.queue.put key (w.core.queue.get key [] ++ [b]) } }).workAt (key / 16)

/-- A frame of an internal source joins the end of queue key. -/
def State.enqueue (s : State) (key src : Nat) (f : Frame) : State :=
  let (b, s) := s.placeFrame src f.cls f true 0
  s.join key b

/-- Return credits for cells of a virtual channel to the partner of a port (13 R352). They wait while a red frame stands at the head of the channel (11
R318), and while the port sleeps. -/
def State.returnCredit (s : State) (p vc n : Nat) : State :=
  let key := p * 16 + vc
  if n = 0 ∨ !(s.sw.getLink p).carries then s
  else if (s.sw.getLink p).state = .active ∧ (s.sw.core.held.get key []).isEmpty then s.emit (.ctrl .sw p (.credit [(vc, n)]))
  else s.onSw fun w => { w with core := { w.core with owed := w.core.owed.upd key 0 (· + n) } }

/-- Credits that a virtual channel owes are returned once nothing keeps them. -/
def State.settleOwed (s : State) (key : Nat) : State :=
  match s.sw.core.owed.find key with
  | none => s
  | some n => (s.onSw fun w => { w with core := { w.core with owed := w.core.owed.del key } }).returnCredit (key / 16) (key % 16) n

/-- Cells of a virtual channel, or of an internal source's class, that lie in its reserve (13 R334, R353). -/
def Switch.reserveOf (w : Switch) (src vc : Nat) : Nat := (w.ofChannel src vc).foldl (fun n b => n + (b.cells - b.sched - b.shared)) 0

/-- An internal source holds credits for all cells of a frame: its reserve of the class is 256 cells (13 R334, R353). -/
def Switch.hasCredit (w : Switch) (src : Nat) (f : Frame) : Bool := decide (w.reserveOf src f.cls + f.cells ≤ 256)

/-- The frames of a class that an internal source holds join their queues, in order, as far as its credits go. -/
def State.releaseWaiting (s : State) (src cls : Nat) : (fuel : Nat) → State
  | 0 => s
  | n + 1 => match s.sw.core.waiting.get (src * 8 + cls) [] with
    | [] => s
    | (key, f) :: rest =>
      if s.sw.hasCredit src f then
        let s := s.onSw fun w => { w with core := { w.core with waiting := w.core.waiting.put (src * 8 + cls) rest } }
        (s.enqueue key src f).releaseWaiting src cls n
      else s

/-- Cells of a frame whose credits have not been returned: those in its reserve, less what an earlier arrival has had (13 R352; DEDUCED, log 124). -/
def Buffered.owes (b : Buffered) : Nat := b.cells - max (b.sched + b.shared) b.paid

/-- Free the cells of a buffered frame, which has left its queue; those of its ingress channel's reserve return their credit now (13 R352), and an
internal source goes on with what it holds (13 R353). -/
def State.freeCells (s : State) (b : Buffered) : State :=
  let s := if b.src < 64 ∧ b.f.cls ≠ 0 then s.returnCredit b.src b.vc b.owes else s
  let s := s.onSw fun w => { w with core := { w.core with used := w.core.used.put b.tile (w.core.used.get b.tile 0 - b.cells) } }
  if b.src < 64 then s else s.releaseWaiting b.src b.vc (s.sw.core.waiting.get (b.src * 8 + b.vc) []).length

/-- The Clearing unit of a pool offset (05 R122). -/
def unitOf (off : Nat) : Nat := bits off 7 4

/-- The fabric mailbox window of a switch (02 R23). -/
def inMailboxWindow (off : Nat) : Bool := decide (0x3FF00000000 ≤ off) && decide (off ≤ 0x3FF00FFFFFF)

/-- The internal output that a frame for the switch itself joins, collective frames apart (13 R338). -/
def internalOut (f : Frame) : Nat :=
  if [ftReadRsp, ftWriteRsp, ftAtomicRsp, ftTranslateRsp].contains f.typ then
    if f.agent < 48 then outCore (f.agent / 8) else outEscrow
  else if inMailboxWindow f.offset then outEscrow
  else outUnit (unitOf f.offset)

/-- A collective frame (03 R63). -/
def isColl (t : Nat) : Bool := [ftCollData, ftCollResult, ftCollConfirm, ftCollRecall, ftCollAbort].contains t

/-- The engine core that runs a partition's COLLECTIVE tasks, as far as frames are placed and listed by it: that of its lowest engine, since none is chosen
yet when a frame arrives; without one, core 0 (08 R208, 13 R338; DEDUCED, log 122). -/
def Switch.collCore (w : Switch) (partition : Nat) : Nat :=
  outCore ((((List.range 48).find? fun e => w.sys.cfg.engineOwner.get e 0xFF == partition).getD 0) / 8)

/-- The internal output that a frame for this switch joins: a collective frame joins the list of the engine core that runs the node's task. -/
def Switch.homeOut (w : Switch) (f : Frame) : Nat := if isColl f.typ then w.collCore f.partition else internalOut f

/-- The internal output in whose inbox a whole frame stands. -/
def Switch.inboxOf (w : Switch) (f : Frame) : Nat :=
  ((w.core.inbox.find? fun e => e.2.any fun b => b.f == f && b.whole).map Prod.fst).getD (w.homeOut f)

/-- The queue that a frame of the switch joins: an internal output's, or that of the port on its route; none: no route. -/
def Switch.joins (w : Switch) (f : Frame) : Option Nat :=
  if f.dest = w.sys.homeId then some (qKey (w.homeOut f) f.cls) else (w.route f.dest).map fun p => qKey p (w.vcOf p f.cls false)

/-- An internal source sends a frame to a queue: it joins while the source holds credits for all its cells and none of its class waits; otherwise the
source holds it (13 R353). -/
def State.fromSource (s : State) (src key : Nat) (f : Frame) : State :=
  if (s.sw.core.waiting.get (src * 8 + f.cls) []).isEmpty && s.sw.hasCredit src f then s.enqueue key src f
  else s.onSw fun w => { w with core := { w.core with waiting := w.core.waiting.put (src * 8 + f.cls) (w.core.waiting.get (src * 8 + f.cls) [] ++ [(key, f)]) } }

/-- The switch originates a frame from an internal source (src as in tileFor): stamped now (03 R76) and queued toward its destination. -/
def State.swSend (s : State) (src : Nat) (f : Frame) : State :=
  let f := { f with age := ageStamp (s.now .sw) f.cls }
  match s.sw.joins f with
  | none => s
  | some key => s.fromSource src key f

/-- The switch sends a collective frame. -/
def State.collSend (s : State) (f : Frame) : State := s.swSend (s.sw.collCore f.partition) f

/-- The switch sends a frame out of a named port. -/
def State.swSendPort (s : State) (src p : Nat) (f : Frame) : State :=
  s.fromSource src (qKey p (s.sw.vcOf p f.cls false)) { f with age := ageStamp (s.now .sw) f.cls }

/-- The incarnation a switch puts in a frame to a home (03 R58). -/
def Switch.incFor (w : Switch) (h : Nat) : Nat := if isEpId h then (w.mgmt.rec_.get h {}).inc else 0

/-- The end-point sends a frame on a port: it joins the port's waiting frames of its class (24 R565, 11 R298). -/
def State.epSend (s : State) (p : Nat) (f : Frame) : State :=
  s.onEp fun e => { e with outq := e.outq.put (p * 8 + f.cls) (e.outq.get (p * 8 + f.cls) [] ++ [f]) }

/-- A MGMT frame of a subtype (23 R539). -/
def mgmtFrame (dest src inc msub tag : Nat) (data : List Byte) : Frame :=
  ({ dest := dest, src := src, inc := inc, cls := 0, typ := ftMgmt, tag := tag, opx := opxAt msub 36 } : Frame).withData data

/-- The next free tag of port p: neither in use nor kept out of use after a TIMEOUT (03 R81). -/
def Switch.freeTag (w : Switch) (p : Nat) : Option Nat :=
  let t := w.core.nextTag.get p 0
  let busy := (w.escrow.flight.filter fun x => x.port == p).map (·.tag)
  ((List.range 4096).map fun i => (t + i) % 4096).find? fun c => !busy.contains c && !w.escrow.quarantine.contains (p * 4096 + c)

/-- Take out of a queue the frames that a test selects; they keep their cells. -/
def State.cutQueued (s : State) (key : Nat) (sel : Frame → Bool) : List Buffered × State :=
  let q := s.sw.core.queue.get key []
  (q.filter fun b => sel b.f, s.onSw fun w => { w with core := { w.core with queue := w.core.queue.put key (q.filter fun b => !sel b.f) } })

/-- Take out of a queue the frames that a test selects, and free their cells. -/
def State.takeQueued (s : State) (key : Nat) (sel : Frame → Bool) : List Buffered × State :=
  let (hit, s) := s.cutQueued key sel
  (hit, s.each hit fun s b => s.freeCells b)

/-- Take out of what the internal sources hold the frames that a test on queue and frame selects. -/
def State.takeWaiting (s : State) (sel : Nat → Frame → Bool) : List Frame × State :=
  (s.sw.core.waiting.flatMap fun e => (e.2.filter fun q => sel q.1 q.2).map Prod.snd,
   s.onSw fun w => { w with core := { w.core with waiting := w.core.waiting.mapVals fun _ l => l.filter fun q => !sel q.1 q.2 } })

/-- Take back a frame that has not begun to leave: one that an internal source holds, or that waits in a queue; none: it has begun to leave (02 R51). -/
def State.takeUnsent (s : State) (sel : Frame → Bool) : Option State :=
  if s.sw.core.waiting.any fun e => e.2.any fun q => sel q.2 then some (s.takeWaiting fun _ f => sel f).2
  else (s.sw.core.queue.find? fun q => q.2.any fun b => sel b.f).map fun q => (s.takeQueued q.1 sel).2

/-! ### Retry of a MGMT frame (05 R116) -/

/-- Begin a relay under the resend rule: the frame is queued on the port and resent by RESEND_TIMER. -/
def State.relay (s : State) (p : Nat) (f : Frame) (cmd : Option (Nat × Nat)) : State :=
  let id := s.sw.mgmt.nextRelay
  let f := { f with tag := id % 4096 }
  let s := s.onSw fun w => { w with mgmt := { w.mgmt with nextRelay := id + 1, relay := w.mgmt.relay.put id { port := p, f := f, cmd := cmd } } }
  s.swSendPort outEscrow p f

/-- Send a MGMT frame to the end-point on edge port p under the resend rule. -/
def State.relayEp (s : State) (p msub : Nat) (data : List Byte) (cmd : Option (Nat × Nat)) : State :=
  let h := epId s.sw.sys.rack p
  s.relay p (mgmtFrame h s.sw.sys.homeId (s.sw.incFor h) msub 0 data) cmd

/-- Edge ports that are ACTIVE. -/
def Switch.activeEdges (w : Switch) : List Nat :=
  (List.range 64).filter fun p => isEdge w.sys p && (w.getLink p).state == .active

/-! ### Key slots (21 R502) -/

def Switch.getSlot (w : Switch) (k : Nat) : KeySlot := w.vault.slot.get k {}

def State.putSlot (s : State) (k : Nat) (v : KeySlot) : State :=
  s.onSw fun w => { w with vault := { w.vault with slot := w.vault.slot.put k v } }

/-- Slot k is assigned to partition p (21 R502). -/
def Switch.slotOf (w : Switch) (k p : Nat) : Bool := (w.getSlot k).state != .zeroed && (w.getSlot k).partition == p

def Switch.getPart (w : Switch) (p : Nat) : Part := w.vault.part.get p {}

def State.putPart (s : State) (p : Nat) (v : Part) : State :=
  s.onSw fun w => { w with vault := { w.vault with part := w.vault.part.put p v } }

/-- Owner of an engine and of a 1 GiB range; 0xFF: none. -/
def Switch.engineOwner (w : Switch) (e : Nat) : Nat := w.sys.cfg.engineOwner.get e 0xFF
def Switch.poolOwner (w : Switch) (g : Nat) : Nat := w.sys.cfg.poolOwner.get g 0xFF

def Switch.getEngine (w : Switch) (e : Nat) : Engine := w.escrow.engine.get e {}

def State.putEngine (s : State) (e : Nat) (v : Engine) : State :=
  s.onSw fun w => { w with escrow := { w.escrow with engine := w.escrow.engine.put e v } }

def State.onEscrow (s : State) (g : Escrow → Escrow) : State := s.onSw fun w => { w with escrow := g w.escrow }

/-- An engine that may take a task of a partition: owned, unfenced, not held, not resetting, idle. -/
def Switch.engineIdle (w : Switch) (e partition : Nat) : Bool :=
  let x := w.getEngine e
  w.engineOwner e == partition && !x.fenced && !x.held && !x.resetting && x.task.isNone

/-- An engine that may take a task of a graph: no COLLECTIVE task waits for it to wake (09 R240). -/
def Switch.engineFree (w : Switch) (e partition : Nat) : Bool :=
  w.engineIdle e partition && !(w.escrow.coll.any fun q => q.2.2.2 == 64 + e)

/-- Whether a partition has an unfenced engine (09 R252). -/
def Switch.anyEngine (w : Switch) (partition : Nat) : Bool := (List.range 48).any fun e => w.engineOwner e == partition && !(w.getEngine e).fenced

/-- The partition numbers, key slots, engines, channels and ports. -/
def tenants : List Nat := (List.range 15).map (· + 1)
def slots32 : List Nat := List.range 32
def engines48 : List Nat := List.range 48

end Sys2Proof.Machine
end

