-- ==== Sys2Proof/Machine/Arith.lean ====
section
/-!
DEFINITION. Number formats and arithmetic (07): exact values in units of a format's smallest subnormal, one rounding,
the operations by format, the fixed-order tree and the Ticker.
-/

namespace Sys2Proof.Machine

/-- A floating-point layout (07 R172): exponent bits, mantissa bits, bias, largest finite code, infinities, canonical NaN code. -/
structure Layout where
  eb : Nat
  mb : Nat
  bias : Nat
  maxCode : Nat
  hasInf : Bool
  nan : Option Nat
  deriving DecidableEq, Repr

def fp32 : Layout := ⟨8, 23, 127, 0x7F7FFFFF, true, some 0x7FC00000⟩
def fp16 : Layout := ⟨5, 10, 15, 0x7BFF, true, some 0x7E00⟩
def bf16 : Layout := ⟨8, 7, 127, 0x7F7F, true, some 0x7FC0⟩
def e4m3 : Layout := ⟨4, 3, 7, 0x7E, false, some 0x7F⟩
def e5m2 : Layout := ⟨5, 2, 15, 0x7B, true, some 0x7E⟩
def e2m1 : Layout := ⟨2, 1, 1, 0x7, false, none⟩

/-- Bits of an element. -/
def Layout.width (l : Layout) : Nat := 1 + l.eb + l.mb

/-- An exact value: finite ones are a sign and a count of the layout's smallest subnormal. -/
inductive FVal where
  | nan
  | inf (neg : Bool)
  | fin (neg : Bool) (n : Nat)
  deriving DecidableEq, Repr

/-- The value of a code (07 R172). -/
def Layout.value (l : Layout) (code : Nat) : FVal :=
  let neg := bit code (l.eb + l.mb)
  let m := code % 2 ^ (l.eb + l.mb)
  let e := m / 2 ^ l.mb
  let f := m % 2 ^ l.mb
  if m > l.maxCode then (if l.hasInf && f == 0 then .inf neg else .nan)
  else if e = 0 then .fin neg f
  else .fin neg ((2 ^ l.mb + f) * 2 ^ (e - 1))

/-- The sign bit of a layout. -/
def Layout.sign (l : Layout) (neg : Bool) : Nat := if neg then 2 ^ (l.eb + l.mb) else 0

/-- The canonical quiet NaN of a layout; a layout without one never asks for it. -/
def Layout.nanCode (l : Layout) : Nat := l.nan.getD 0

/-- num / den to the nearest whole number, ties to even. -/
def roundEven (num den : Nat) : Nat :=
  let q := num / den
  let r := num % den
  if 2 * r > den then q + 1 else if 2 * r = den then q + q % 2 else q

/-- The code of num / den smallest subnormals with a sign, rounded once (07 R174, R176). -/
def Layout.round (l : Layout) (neg : Bool) (num den : Nat) : Nat :=
  let whole := num / den
  let k := Nat.log2 whole - l.mb
  let code := k * 2 ^ l.mb + roundEven num (den * 2 ^ k)
  let mag := if code ≤ l.maxCode then code else if l.hasInf then l.maxCode + 1 else l.maxCode
  mag + l.sign neg

/-- The code of a value. -/
def Layout.code (l : Layout) : FVal → Nat
  | .nan => l.nanCode
  | .inf neg => l.maxCode + 1 + l.sign neg
  | .fin neg n => l.round neg n 1

/-- A signed count of smallest subnormals. -/
def signed (neg : Bool) (n : Nat) : Int := if neg then -(n : Int) else n

/-- Sum of two codes (07 R174 to R177). -/
def Layout.add (l : Layout) (a b : Nat) : Nat :=
  match l.value a, l.value b with
  | .nan, _ => l.nanCode
  | _, .nan => l.nanCode
  | .inf s, .inf t => if s = t then l.code (.inf s) else l.nanCode
  | .inf s, .fin _ _ => l.code (.inf s)
  | .fin _ _, .inf s => l.code (.inf s)
  | .fin s n, .fin t m =>
    let v := signed s n + signed t m
    if v = 0 then l.sign (s && t) else l.round (decide (v < 0)) v.natAbs 1

/-- Product of two codes. -/
def Layout.mul (l : Layout) (a b : Nat) : Nat :=
  match l.value a, l.value b with
  | .nan, _ => l.nanCode
  | _, .nan => l.nanCode
  | .inf s, .inf t => l.code (.inf (s != t))
  | .inf s, .fin t n => if n = 0 then l.nanCode else l.code (.inf (s != t))
  | .fin t n, .inf s => if n = 0 then l.nanCode else l.code (.inf (s != t))
  | .fin s n, .fin t m => l.round (s != t) (n * m) (2 ^ (l.bias + l.mb - 1))

/-- A code divided by a count (07 R181). -/
def Layout.divNat (l : Layout) (a d : Nat) : Nat :=
  match l.value a with
  | .nan => l.nanCode
  | .inf s => l.code (.inf s)
  | .fin s n => l.round s n d

/-- Order of values: −0 is less than +0 (07 R177). -/
def FVal.key : FVal → Int
  | .nan => 0
  | .inf neg => if neg then -(2 ^ 400) else 2 ^ 400
  | .fin neg n => if neg then -(n : Int) - 1 else n

/-- MIN or MAX of two codes. -/
def Layout.pick (l : Layout) (wantMax : Bool) (a b : Nat) : Nat :=
  match l.value a, l.value b with
  | .nan, _ => l.nanCode
  | _, .nan => l.nanCode
  | u, v => if decide (u.key < v.key) == wantMax then b else a

/-- Operations that reduce (07 R179). -/
inductive RedOp where
  | sum
  | min
  | max
  | and
  | or
  | xor
  deriving DecidableEq, Repr

/-- Layout of a floating-point format code other than MX. -/
def layoutOf : Nat → Option Layout
  | 1 => some fp32
  | 2 => some fp16
  | 3 => some bf16
  | 4 => some e4m3
  | 5 => some e5m2
  | _ => none

/-- Bits of an integer format code. -/
def intBits : Nat → Option Nat
  | 8 => some 8
  | 9 => some 16
  | 10 => some 32
  | 11 => some 64
  | _ => none

/-- Whether a code names an MX format, and its element layout. -/
def mxLayout : Nat → Option Layout
  | 6 => some e4m3
  | 7 => some e2m1
  | _ => none

/-- Bits of an element of a format; 0 for a reserved code (07 R170). -/
def fmtBits (fmt : Nat) : Nat :=
  match fmt with
  | 1 => 32 | 2 => 16 | 3 => 16 | 4 => 8 | 5 => 8 | 6 => 8 | 7 => 4 | 8 => 8 | 9 => 16 | 10 => 32 | 11 => 64
  | _ => 0

/-- Bytes of n elements of a format. -/
def fmtBytes (fmt n : Nat) : Nat := (fmtBits fmt * n + 7) / 8

/-- Operations allowed by format (07 R179). -/
def opAllowed (op : RedOp) (fmt : Nat) : Bool :=
  match op with
  | .sum | .min | .max => decide (1 ≤ fmt ∧ fmt ≤ 11)
  | .and | .or | .xor => decide (8 ≤ fmt ∧ fmt ≤ 11)

/-- WSUM is allowed for every format but MX (07 R179). -/
def wsumAllowed (fmt : Nat) : Bool := decide ((1 ≤ fmt ∧ fmt ≤ 5) ∨ (8 ≤ fmt ∧ fmt ≤ 11))

/-- n of w bits as a two's complement number. -/
def toSigned (w n : Nat) : Int := if n < 2 ^ (w - 1) then n else (n : Int) - 2 ^ w

/-- v as w bits, wrapped or clamped (07 R187). -/
def fitInt (w : Nat) (sat : Bool) (v : Int) : Nat :=
  let lo : Int := -(2 ^ (w - 1))
  let hi : Int := 2 ^ (w - 1) - 1
  let v := if sat then (if v < lo then lo else if hi < v then hi else v) else v
  (v % 2 ^ w).toNat

/-- One operation on two elements of a format that is not MX. -/
def elemOp (op : RedOp) (fmt : Nat) (sat unsigned : Bool) (a b : Nat) : Nat :=
  match op with
  | .and => a &&& b
  | .or => a ||| b
  | .xor => a ^^^ b
  | .sum =>
    match layoutOf fmt with
    | some l => l.add a b
    | none => let w := fmtBits fmt; fitInt w sat (toSigned w a + toSigned w b)
  | .min =>
    match layoutOf fmt with
    | some l => l.pick false a b
    | none => let w := fmtBits fmt; if unsigned then Nat.min a b else (if toSigned w a ≤ toSigned w b then a else b)
  | .max =>
    match layoutOf fmt with
    | some l => l.pick true a b
    | none => let w := fmtBits fmt; if unsigned then Nat.max a b else (if toSigned w a ≥ toSigned w b then a else b)

/-- Product of two elements (07 R180). -/
def elemMul (fmt : Nat) (sat : Bool) (a b : Nat) : Nat :=
  match layoutOf fmt with
  | some l => l.mul a b
  | none => let w := fmtBits fmt; fitInt w sat (toSigned w a * toSigned w b)

/-- Nearest whole quotient of a signed number, ties to even. -/
def divEven (v : Int) (d : Nat) : Int := if v < 0 then -(roundEven v.natAbs d : Int) else roundEven v.natAbs d

/-- One element divided by a count (07 R181). -/
def elemDiv (fmt a d : Nat) : Nat :=
  match layoutOf fmt with
  | some l => l.divNat a d
  | none => let w := fmtBits fmt; fitInt w false (divEven (toSigned w a) d)

/-- The elements of w bits (4, 8, 16, 32 or 64) of a byte list. -/
def elems (w : Nat) (l : List Byte) : List Nat :=
  if w = 4 then l.flatMap fun b => [b.toNat % 16, b.toNat / 16]
  else if w = 0 then []
  else (List.range (l.length / (w / 8))).map fun i => field l (i * (w / 8)) (w / 8)

/-- Two nibbles a byte. -/
def packNibbles : List Nat → List Byte
  | [] => []
  | [a] => [BitVec.ofNat 8 (a % 16)]
  | a :: b :: t => BitVec.ofNat 8 (a % 16 + 16 * (b % 16)) :: packNibbles t

/-- Elements back to bytes. -/
def unelems (w : Nat) (l : List Nat) : List Byte :=
  if w = 4 then packNibbles l else l.flatMap fun n => leBytes (w / 8) n

/-- An operand of a reduction: its element bytes and, for MX, its scale bytes. -/
structure Operand where
  bytes : List Byte
  scales : List Byte := []
  deriving DecidableEq, Repr

/-! ### MX blocks (07 R184 to R186) -/

/-- a block: scale and 32 element codes -/
abbrev MxBlock := Nat × List Nat

def mxNan : MxBlock := (0xFF, List.replicate 32 0)

/-- Exact value of an element code as a signed count; NaN is none. -/
def mxVal (l : Layout) (c : Nat) : Option (Bool × Nat) :=
  match l.value c with
  | .fin s n => some (s, n)
  | _ => none

/-- The exact rescaled sum of two elements over 2^(x - lo), as sign, numerator; none for NaN. x: result scale, lo: the lower scale. -/
def mxSum (l : Layout) (xa xb x a b : Nat) : Option (Bool × Nat × Nat) :=
  match mxVal l a, mxVal l b with
  | some (s, n), some (t, m) =>
    let lo := Nat.min xa xb
    let v := signed s (n * 2 ^ (xa - lo)) + signed t (m * 2 ^ (xb - lo))
    some (if v = 0 then s && t else decide (v < 0), v.natAbs, 2 ^ (x - lo))
  | _, _ => none

/-- Largest finite element in smallest subnormals. -/
def Layout.maxUnits (l : Layout) : Nat :=
  match l.value l.maxCode with
  | .fin _ n => n
  | _ => 0

/-- Sum of two MX blocks. -/
def mxAdd (l : Layout) (a b : MxBlock) : MxBlock :=
  if a.1 = 0xFF ∨ b.1 = 0xFF then mxNan
  else
    let x := Nat.max a.1 b.1
    let s := (List.zip a.2 b.2).map fun p => mxSum l a.1 b.1 x p.1 p.2
    let big := s.any fun e => match e with | some (_, n, d) => decide (n > l.maxUnits * d) | none => false
    let bump := big && x != 0xFE
    (x + b2n bump, s.map fun e => match e with
      | some (neg, n, d) => l.round neg n (if bump then 2 * d else d)
      | none => l.nanCode)

/-- MIN or MAX of two MX blocks: the chosen element rescaled with one rounding. -/
def mxPick (l : Layout) (wantMax : Bool) (a b : MxBlock) : MxBlock :=
  if a.1 = 0xFF ∨ b.1 = 0xFF then mxNan
  else
    let x := Nat.max a.1 b.1
    (x, (List.zip a.2 b.2).map fun p =>
      match mxVal l p.1, mxVal l p.2 with
      | some (s, n), some (t, m) =>
        let lo := Nat.min a.1 b.1
        let u := FVal.fin s (n * 2 ^ (a.1 - lo))
        let v := FVal.fin t (m * 2 ^ (b.1 - lo))
        if decide (u.key < v.key) == wantMax then l.round t (m * 2 ^ (b.1 - lo)) (2 ^ (x - lo)) else l.round s (n * 2 ^ (a.1 - lo)) (2 ^ (x - lo))
      | _, _ => l.nanCode)

/-- An MX block divided by a count (07 R181). -/
def mxDiv (l : Layout) (a : MxBlock) (d : Nat) : MxBlock :=
  if a.1 = 0xFF then mxNan else (a.1, a.2.map fun c => l.divNat c d)

/-- Lists of n items. -/
def chunksOf {α : Type} (n : Nat) : (fuel : Nat) → List α → List (List α)
  | 0, _ => []
  | _, [] => []
  | k + 1, l => l.take n :: chunksOf n k (l.drop n)

/-- The blocks of an MX operand. -/
def mxBlocks (l : Layout) (o : Operand) : List MxBlock :=
  let es := elems l.width o.bytes
  (chunksOf 32 es.length es).zipIdx.map fun p => ((o.scales.getD p.2 0).toNat, padNat 32 p.1)
where
  /-- A list padded with zeros. -/
  padNat (n : Nat) (l : List Nat) : List Nat := l ++ List.replicate (n - l.length) 0

/-- Blocks back to an operand. -/
def ofBlocks (l : Layout) (bs : List MxBlock) : Operand :=
  { bytes := unelems l.width (bs.flatMap Prod.snd), scales := bs.map fun b => BitVec.ofNat 8 b.1 }

/-- One operation of a reduction on two operands. -/
def redOp (op : RedOp) (fmt : Nat) (sat unsigned : Bool) (a b : Operand) : Operand :=
  match mxLayout fmt with
  | some l =>
    let f := match op with | .sum => mxAdd l | .max => mxPick l true | _ => mxPick l false
    ofBlocks l ((List.zip (mxBlocks l a) (mxBlocks l b)).map fun p => f p.1 p.2)
  | none =>
    let w := fmtBits fmt
    { bytes := unelems w ((List.zip (elems w a.bytes) (elems w b.bytes)).map fun p => elemOp op fmt sat unsigned p.1 p.2) }

/-- An operand divided by a count (07 R181). -/
def operandDiv (fmt : Nat) (a : Operand) (d : Nat) : Operand :=
  match mxLayout fmt with
  | some l => ofBlocks l ((mxBlocks l a).map fun b => mxDiv l b d)
  | none => { bytes := unelems (fmtBits fmt) ((elems (fmtBits fmt) a.bytes).map fun e => elemDiv fmt e d) }

/-- An operand times a weight (07 R180). -/
def operandMul (fmt : Nat) (sat : Bool) (w : Nat) (a : Operand) : Operand :=
  { bytes := unelems (fmtBits fmt) ((elems (fmtBits fmt) a.bytes).map fun e => elemMul fmt sat w e) }

/-! ### The fixed-order tree (07 R183) -/

/-- A node of the tree. -/
def treeNode {α : Type} (op : α → α → α) : Option α → Option α → Option α
  | some a, some b => some (op a b)
  | some a, none => some a
  | none, some b => some b
  | none, none => none

/-- One level: node k combines children 2k and 2k + 1. -/
def treeLevel {α : Type} (op : α → α → α) : List (Option α) → List (Option α)
  | [] => []
  | [a] => [a]
  | a :: b :: t => treeNode op a b :: treeLevel op t

/-- Levels of a tree with n leaves. -/
def treeHeight (n : Nat) : Nat := if n ≤ 1 then 0 else Nat.log2 (n - 1) + 1

/-- k levels. -/
def treeLevels {α : Type} (op : α → α → α) : Nat → List (Option α) → List (Option α)
  | 0, l => l
  | k + 1, l => treeLevels op k (treeLevel op l)

/-- The root of the fixed-order tree over the leaves. -/
def reduceTree {α : Type} (op : α → α → α) (leaves : List (Option α)) : Option α :=
  ((treeLevels op (treeHeight leaves.length) leaves).head?).join

/-! ### The Ticker (07 R188 to R190) -/

/-- n squared k times. -/
def squarings : Nat → Nat → Nat
  | 0, n => n
  | k + 1, n => squarings k (n * n)

/-- Whether m is at most 2^24 · 2^(−f / 65536) rounded to the nearest whole number. -/
def tabAtMost (f m : Nat) : Bool := decide (squarings 16 (2 * m - 1) ≤ 2 ^ (25 * 65536 - f))

/-- The largest 24-bit m that tabAtMost allows, by bits from the top. -/
def tabBits (f : Nat) : Nat → Nat → Nat
  | 0, m => m
  | k + 1, m => tabBits f k (if tabAtMost f (m + 2 ^ k) then m + 2 ^ k else m)

/-- TAB[f] as an FP32 code: 2^(−f / 65536), correctly rounded. -/
def tickerTab (f : Nat) : Nat :=
  if f = 0 then 0x3F800000 else 126 * 2 ^ 23 + (tabBits f 24 0 - 2 ^ 23)

/-- An FP32 code times 2^(−i), rounded. -/
def scaleDown (a i : Nat) : Nat :=
  match fp32.value a with
  | .nan => fp32.nanCode
  | .inf s => fp32.code (.inf s)
  | .fin s n => fp32.round s n (2 ^ Nat.min i 400)

/-- The half-life of EXT[7:0] in units of 2^-16 s, times 8 (07 R189). -/
def halfLife8 (ext : Nat) : Nat := (8 + ext % 8) * 2 ^ (ext / 8 % 32)

/-- The decayed value of a Ticker (07 R190). -/
def tickerDecay (ext v t tNew : Nat) : Nat :=
  if t = 0 then v
  else
    let delta := (tNew + 2 ^ 32 - t) % 2 ^ 32
    let r := delta * 2 ^ 19 / halfLife8 ext
    scaleDown (fp32.mul v (tickerTab (r % 65536))) (r / 65536)

/-- The stamp that a Ticker takes: the operand's, or the time now (07 R190). -/
def tickerStamp (u now : Nat) : Nat := if u ≠ 0 then u else if tickerTime now = 0 then 1 else tickerTime now

/-- The new Ticker: value and time. -/
def tickerNext (ext v t x tNew : Nat) : Nat × Nat := (fp32.add (tickerDecay ext v t tNew) x, tNew)

/-! ### Atomics at a home (03 R66 to R68) -/

/-- AOP, AFMT, UNSIGNED, SAT and RET of an ATOMIC. -/
def aopOf (opx : BitVec 28) : Nat := bits opx.toNat 0 4
def afmtOf (opx : BitVec 28) : Nat := bits opx.toNat 4 8
def aUnsigned (opx : BitVec 28) : Bool := opx.getLsbD 12
def aSat (opx : BitVec 28) : Bool := opx.getLsbD 13
def aRet (opx : BitVec 28) : Bool := opx.getLsbD 14

/-- OPX of an atomic. -/
def atomicOpx (aop afmt : Nat) (unsigned sat ret : Bool) : BitVec 28 :=
  BitVec.ofNat 28 (aop + afmt * 16 + b2n unsigned * 2 ^ 12 + b2n sat * 2 ^ 13 + b2n ret * 2 ^ 14)

/-- The operand size s: half of LENGTH for CAS. -/
def atomicSize (aop len : Nat) : Nat := if aop = 8 then len / 2 else len

/-- Whether an ATOMIC keeps R59, R66, R67, R188 and R189. -/
def atomicOk (opx : BitVec 28) (ext : BitVec 64) (off len : Nat) : Bool :=
  let aop := aopOf opx
  let fmt := afmtOf opx
  let s := atomicSize aop len
  let sizeOk := (s == 4 || s == 8 || s == 16) && (aop != 8 || len % 2 == 0) && off % s == 0 && decide (off % 256 + len ≤ 256)
  let fills := fmtBits fmt != 0 && (8 * s) % fmtBits fmt == 0
  let isInt := decide (8 ≤ fmt ∧ fmt ≤ 11)
  let isFp := decide (1 ≤ fmt ∧ fmt ≤ 5)
  let extOk := if aop = 9 then decide (ext.toNat < 256) else ext == 0
  sizeOk && extOk && (match aop with
    | 0 => isInt && fills
    | 1 => isFp && fills
    | 2 | 3 => (isInt || isFp) && fills
    | 4 | 5 | 6 | 7 | 8 => fmt == 0
    | 9 => fmt == 1 && len == 8
    | _ => false)

/-- New bytes of an ATOMIC on old bytes of the same size; for a TICKER the stamp it took and whether that came from the operand. -/
def atomicApply (opx : BitVec 28) (ext : BitVec 64) (now : Nat) (old arg : List Byte) : List Byte × Option (Nat × Bool) :=
  let fmt := afmtOf opx
  let vec (op : RedOp) := (redOp op fmt (aSat opx) (aUnsigned opx) { bytes := old } { bytes := arg }).bytes
  match aopOf opx with
  | 0 => (vec .sum, none)
  | 1 => (vec .sum, none)
  | 2 => (vec .min, none)
  | 3 => (vec .max, none)
  | 4 => (List.zipWith (· &&& ·) old arg, none)
  | 5 => (List.zipWith (· ||| ·) old arg, none)
  | 6 => (List.zipWith (· ^^^ ·) old arg, none)
  | 7 => (arg, none)
  | 8 => (if old = slice arg 0 old.length then slice arg old.length old.length else old, none)
  | 9 =>
    let u := field arg 4 4
    let tn := tickerStamp u now
    let (v, t) := tickerNext (ext.toNat % 256) (field old 0 4) (field old 4 4) (field arg 0 4) tn
    (leBytes 4 v ++ leBytes 4 t, some (tn, decide (u ≠ 0)))
  | _ => (old, none)

/-- Whether an ATOMIC returns the prior value (03 R66, R67). -/
def atomicReturns (opx : BitVec 28) : Bool := aRet opx || aopOf opx == 7 || aopOf opx == 8

/-- An integer ADD, which a Clearing unit may combine (04 R105). -/
def isIntAdd (f : Frame) : Bool := f.typ == ftAtomic && aopOf f.opx == 0

end Sys2Proof.Machine
end

