-- ==== Sys2Proof/Machine/Pool.lean ====
section
/-!
DEFINITION. The memory of a switch home (02 R23 to R26, 06): windows, channels, the pool cache, stored lines under keys,
partnered regions and rewrap ranges.
-/

namespace Sys2Proof.Machine

/-! ### Windows and channels -/

def poolEnd : Nat := 0x16800000000
def scratchBase : Nat := 0x20000000000
def scratchEnd : Nat := 0x20030000000
def mailboxBase : Nat := 0x3FF00000000

/-- The bytes [off, off + n) lie in the pool window. -/
def inPool (off n : Nat) : Bool := decide (off + n ≤ poolEnd)

/-- The bytes lie in the near-store scratch window. -/
def inScratch (off n : Nat) : Bool := decide (scratchBase ≤ off) && decide (off + n ≤ scratchEnd)

/-- Step number, engine * 4 + step, of a scratch offset (02 R24). -/
def scratchStep (off : Nat) : Nat := (off - scratchBase) / 0x400000

/-- Channel and device address of a pool offset (06 R141). -/
def channelOf (off : Nat) : Nat := 4 * (off / 0x3C00000000) + (off % 0x3C00000000) / 0x1000 % 4
def deviceOf (off : Nat) : Nat := (off % 0x3C00000000) / 0x4000 * 0x1000 + off % 0x1000

/-- The pool offset of a channel's device address: the inverse of R141. -/
def poolOf (chan dev : Nat) : Nat :=
  chan / 4 * 0x3C00000000 + (dev / 0x1000 * 4 + chan % 4) * 0x1000 + dev % 0x1000

/-- The data page of a pool offset within its channel. -/
def pageOf (off : Nat) : Nat := deviceOf off / 0x1000

def Switch.chan (w : Switch) (c : Nat) : Channel := w.mem.chan.get c {}

/-- The step is configured as scratch (06 R149). -/
def Switch.stepIsScratch (w : Switch) (step : Nat) : Bool := bit (w.mem.mask.get (step / 4) 0) (step % 4)

/-- s with its memory system, its home and a Clearing unit changed. -/
def State.onMem (s : State) (g : Mem → Mem) : State := s.onSw fun w => { w with mem := g w.mem }
def State.onHome (s : State) (g : Home → Home) : State := s.onMem fun m => { m with home := g m.home }

/-- Region entry of a pool offset (05 R110). -/
def Switch.region (w : Switch) (off : Nat) : Region := w.mem.home.region.get (off / 0x200000) {}

/-- s with region n's entry replaced. -/
def State.putRegion (s : State) (n : Nat) (r : Region) : State :=
  s.onHome fun h => { h with region := if r = {} then h.region.del n else h.region.put n r }

/-- Region modes. -/
def mOwned : Nat := 0
def mCoherent : Nat := 1
def mSnapshot : Nat := 2
def mDirect : Nat := 3

/-- The line is LOST (05 R139, 06 R160). -/
def Switch.lineLost (w : Switch) (l : Nat) : Bool :=
  (w.mem.home.lines.get l {}).lost || (w.chan (channelOf (l * 128))).fenced || (w.region (l * 128)).lost

/-- s with the metadata of a line changed. -/
def State.onLine (s : State) (l : Nat) (g : LineMeta → LineMeta) : State :=
  s.onHome fun h => { h with lines := h.lines.upd l {} g }

/-! ### Stored lines and the pool cache (06 R144, R151 to R154) -/

/-- The 16-byte blocks of a line, each through its own permutation. -/
def xtsLine (g : Nat → Equiv.Perm (BitVec 128)) (d : List Byte) : List Byte :=
  (List.range 8).flatMap fun j => leBytes 16 (g j (BitVec.ofNat 128 (field d (16 * j) 16))).toNat

/-- Line l encrypted under a slot's key, and decrypted (06 R144). -/
def encrypt (k : Key) (l : Nat) (d : List Byte) : List Byte := xtsLine (Config.xtsBlock k l) d
def decrypt (k : Key) (l : Nat) (d : List Byte) : List Byte := xtsLine (fun j => (Config.xtsBlock k l j).symm) d

/-- 16-bit symbols in which a line and its check bytes differ from stored bytes d with good check bytes (06 R142). -/
def symbolErrors (stored : List Byte) (check : BitVec 64) (d : List Byte) : Nat :=
  ((List.range 64).filter fun i => field stored (2 * i) 2 != field d (2 * i) 2).length
    + ((List.range 4).filter fun i => bits check.toNat (16 * i) 16 != bits (Config.checkBytes d).toNat (16 * i) 16).length

/-- A line with its 16-bit symbol i replaced. -/
def withSymbol (d : List Byte) (i x : Nat) : List Byte := d.take (2 * i) ++ leBytes 2 x ++ d.drop (2 * i + 2)

/-- Every line that differs from d in at most two symbols. -/
def nearLines (d : List Byte) : List (List Byte) :=
  (List.range 64).flatMap fun i => (List.range 65536).flatMap fun x => (List.range 64).flatMap fun j => (List.range 65536).map fun y =>
    withSymbol (withSymbol d i x) j y

/-- Correct a line whose check bytes do not match: a line whose own check bytes are good and from which line and check bytes together differ in at most
two symbols; none: uncorrectable (06 R142). The spec gives what the code corrects and not how, and the definition is that search itself. -/
def eccFix (stored : List Byte) (check : BitVec 64) : Option (List Byte) :=
  (nearLines stored).find? fun d => decide (symbolErrors stored check d ≤ 2)

/-- The stored bytes of a line whose error the code corrects. -/
def LineMeta.fixed (m : LineMeta) : Option (List Byte) := m.check.bind (eccFix m.stored)

/-- A read of the line is uncorrectable. -/
def LineMeta.uncorrectable (m : LineMeta) : Bool := m.bad || (m.check.isSome && m.fixed.isNone)

/-- The bytes of a stored line read under a key; none: uncorrectable. -/
def Home.dramRead (h : Home) (l : Nat) (k : Key) : Option (List Byte) :=
  let m := h.lines.get l {}
  if m.uncorrectable then none
  else if !m.stored.isEmpty then some (decrypt k l (m.fixed.getD m.stored))
  else match m.key with
    | none => some (decrypt k l (List.replicate 128 0))
    | some k0 =>
      let b := Memory.readN h.mem (l * 128) 128
      if k0 = k then some b else some (decrypt k l (encrypt k0 l b))

/-- A whole line stored under a key. -/
def Home.dramWrite (h : Home) (l : Nat) (k : Key) (data : List Byte) (bad : Bool) : Home :=
  { h with mem := Memory.writeN h.mem (l * 128) (padTo 128 data)
           lines := h.lines.upd l {} fun m => { m with key := some k, bad := bad, stored := [], check := none } }

/-- The stored ciphertext and check bytes of a line (06 R144, 10 R277): as brought, zeros, or the cipher of its bytes. -/
def Home.cipher (h : Home) (l : Nat) : List Byte :=
  let m := h.lines.get l {}
  if !m.stored.isEmpty then m.stored
  else match m.key with
    | none => List.replicate 128 0
    | some k => encrypt k l (Memory.readN h.mem (l * 128) 128)

/-- Check bytes as stored: those that came with the line, or those of its bytes; those of an uncorrectable line fail (06 R157): the complement
of good ones. -/
def Home.check (h : Home) (l : Nat) : BitVec 64 :=
  let m := h.lines.get l {}
  let c := Config.checkBytes (h.cipher l)
  if m.bad then ~~~c else m.check.getD c

/-- A line stored as ciphertext and check bytes that came from elsewhere (06 R166, 22 R533). -/
def Home.storeCipher (h : Home) (l : Nat) (data : List Byte) (check : BitVec 64) : Home :=
  let good := check == Config.checkBytes (padTo 128 data)
  { h with lines := h.lines.upd l {} fun m => { m with key := none, bad := false, lost := false, check := if good then none else some check
                                                       stored := if good && data.all (· == 0) then [] else padTo 128 data } }

/-- The pool-cache steps in ascending order (06 R151). -/
def Switch.cacheSteps (w : Switch) : List Nat := (List.range 192).filter fun t => !w.stepIsScratch t

/-- Step and set of a line when n steps are pool cache. -/
def cacheSet (n l : Nat) : Nat × Nat := (l % n, l / n % 2048)

/-- Write a cached line back to its device, if it is dirty. -/
def Mem.writeBack (m : Mem) (c : CacheLine) : Mem :=
  if c.dirty || c.bad then { m with home := m.home.dramWrite c.line c.key c.data c.bad } else m

/-- Drop a line from the pool cache, writing it back. -/
def Mem.drop (m : Mem) (l : Nat) : Mem :=
  match m.cache.find? fun c => c.line == l with
  | none => m
  | some c => { m.writeBack c with cache := m.cache.filter fun c => c.line != l }

/-- Put a line in the pool cache, evicting the least recently used way of a full set (06 R152). n: number of steps. -/
def Mem.insert (m : Mem) (n : Nat) (c : CacheLine) : Mem :=
  let rest := m.cache.filter fun d => d.line != c.line
  let ways := rest.filter fun d => cacheSet n d.line == cacheSet n c.line
  if ways.length < 16 then { m with cache := c :: rest }
  else match ways.getLast? with
    | none => { m with cache := c :: rest }
    | some v => { m.writeBack v with cache := c :: rest.filter fun d => d.line != v.line }

/-- Write back and drop every line of the pool cache that satisfies p. -/
def Mem.flushCache (m : Mem) (p : CacheLine → Bool) : Mem :=
  let m' := (m.cache.filter p).foldl Mem.writeBack m
  { m' with cache := m.cache.filter fun c => !p c }

/-- The SRAM bank group that serves a location: its scratch step's, or that of the step in which the pool cache holds the line, under the numbering in
force (06 R151, R154; 20 R485). -/
def Switch.bankOf (w : Switch) (off : Nat) : Option Nat :=
  if inScratch off 1 then some (scratchStep off / 32)
  else if inPool off 1 then
    let steps := w.mem.drainOld.getD w.cacheSteps
    if steps.isEmpty then none else some (steps.getD (off / 128 % steps.length) 0 / 32)
  else none

/-- The pool cache allocates: some step is pool cache and none drains. -/
def Switch.allocates (w : Switch) : Bool := w.mem.drainOld.isNone && !w.cacheSteps.isEmpty

/-- Read a pool line under a key slot through the pool cache; none: uncorrectable. -/
def State.readLine (s : State) (l slot : Nat) : Option (List Byte) × State :=
  let w := s.sw
  let key := (w.getSlot slot).key
  match w.mem.cache.find? fun c => c.line == l && c.slot == slot with
  | some c =>
    let s' := if w.mem.drainOld.isSome then s.onMem fun m => m.drop l
      else s.onMem fun m => { m with cache := c :: m.cache.filter fun d => d.line != l }
    (if c.bad then none else some c.data, s')
  | none =>
    let s := s.onMem fun m => m.drop l
    match s.sw.mem.home.dramRead l key with
    | none => (none, s)
    | some d =>
      (some d, if w.allocates then s.onMem fun m => m.insert w.cacheSteps.length { line := l, slot := slot, key := key, data := d } else s)

/-- Write a whole pool line under a key slot through the pool cache. -/
def State.writeLine (s : State) (l slot : Nat) (data : List Byte) : State :=
  let w := s.sw
  let key := (w.getSlot slot).key
  let s := s.onMem fun m => m.drop l
  if w.allocates then s.onMem fun m => m.insert w.cacheSteps.length { line := l, slot := slot, key := key, dirty := true, data := padTo 128 data }
  else s.onHome fun h => h.dramWrite l key data false

/-- Put a line into its device without the pool cache holding it dirty: what a mirror, a save or a scrub reads. -/
def State.settleLine (s : State) (l : Nat) : State :=
  s.onMem fun m => match m.cache.find? fun c => c.line == l with
    | none => m
    | some c => { m.writeBack c with cache := m.cache.map fun d => if d.line == l then { d with dirty := false } else d }

/-! ### Rewrap ranges and partnered regions -/

/-- The rewrap record whose range holds an offset (10 R281). -/
def Switch.rewrapAt (w : Switch) (off : Nat) : Option Rewrap :=
  (w.mem.rewrap.find? fun e => decide (e.2.start ≤ off) && decide (off < e.2.start + e.2.length)).map Prod.snd

/-- The key slot under which the home serves an offset for a request that carries k. -/
def Switch.slotAt (w : Switch) (off k : Nat) : Nat :=
  match w.rewrapAt off with
  | some r => if off < r.cursor then r.toSlot else r.fromSlot
  | none => k

/-- The partnered region of a pool offset. -/
def Switch.pairAt (w : Switch) (off : Nat) : Option Pair := w.mem.pair.find (off / 0x40000000)

/-- A secondary completes every request to its region with FENCED (06 R165). -/
def Switch.secondary (w : Switch) (off : Nat) : Bool := (w.pairAt off).any fun p => !p.primary

/-- Whether an update of line l is mirrored now (06 R166, R167). -/
def Pair.mirrors (p : Pair) (l : Nat) : Bool :=
  p.primary && (p.state == .paired || (p.state == .resilvering && decide (l % 0x800000 < p.cursor)))

/-- Send the LINE record of a line to the partner; the SEQ that its acknowledgement names. -/
def State.mirrorLine (s : State) (l : Nat) : Option Nat × State :=
  let g := l * 128 / 0x40000000
  match s.sw.mem.pair.find g with
  | none => (none, s)
  | some p =>
    let s := s.settleLine l
    let h := s.sw.mem.home
    let r : MirrorRec := { kind := 1, region := g, source := s.sw.sys.homeId, seq := p.nextSeq, line := l, check := h.check l, data := h.cipher l }
    (some p.nextSeq, (s.onMem fun m => { m with pair := m.pair.put g { p with nextSeq := p.nextSeq + 1, unacked := p.unacked ++ [p.nextSeq] } }).emit
      (.mirror p.partner r))

/-- Mirror the lines of an update that their pairing mirrors; the last SEQ to wait for. -/
def State.mirrorLines (s : State) (ls : List Nat) : Option Nat × State :=
  ls.foldl (fun a l =>
    match a.2.sw.pairAt (l * 128) with
    | some p => if p.mirrors l then let r := a.2.mirrorLine l; (r.1, r.2) else a
    | none => a) (none, s)

/-! ### Scratch (06 R146, R150) -/

/-- 8-byte words of scratch that [off, off + n) touches. -/
def wordsOf (off n : Nat) : List Nat := (List.range ((off + n - 1) / 8 - off / 8 + 1)).map (off / 8 + ·)

/-- Words that [off, off + n) covers whole. -/
def wordsWhole (off n : Nat) : List Nat := (wordsOf off n).filter fun x => decide (off ≤ 8 * x) && decide (8 * x + 8 ≤ off + n)

/-- Zero a scratch step. -/
def Home.zeroStep (h : Home) (step : Nat) : Home :=
  let lo := scratchBase + step * 0x400000
  { h with mem := h.mem.filter fun c => decide (c.1 < lo) || decide (lo + 0x400000 ≤ c.1)
           badWords := h.badWords.filter fun x => decide (8 * x < lo) || decide (lo + 0x400000 ≤ 8 * x) }

end Sys2Proof.Machine
end

