-- ==== Sys2Proof/Machine/Clearing.lean ====
section
/-!
DEFINITION. The Clearing units of a switch home (05, 04 R104 to R109, 03 R59 to R75): the directory, Busy lines, the retry
queue, what a request does to memory, and what a lost end-point leaves.
-/

namespace Sys2Proof.Machine

/-! ### Units, entries and Busy lines -/

/-- The Clearing unit of a line (05 R122). -/
def unitOfLine (l : Nat) : Nat := l % 16

def Switch.unit (w : Switch) (u : Nat) : Unit := w.mem.unit.get u {}

/-- s with Clearing unit u changed. -/
def State.onUnit (s : State) (u : Nat) (g : Unit → Unit) : State :=
  s.onMem fun m => { m with unit := m.unit.put u (g (m.unit.get u {})) }

/-- The directory entry of a line. -/
def Switch.entry (w : Switch) (l : Nat) : Option DirEntry := (w.unit (unitOfLine l)).dir.find? fun e => e.line == l

/-- The Busy record of a line. -/
def Switch.busy (w : Switch) (l : Nat) : Option Busy := (w.unit (unitOfLine l)).busy.find? fun b => b.line == l

/-- Put a directory entry in front: the most recently used. Only a change of the entry counts as a use (05 R137; DESIGN CHOICE, log 108). -/
def State.putEntry (s : State) (e : DirEntry) : State :=
  s.onUnit (unitOfLine e.line) fun u => { u with dir := e :: u.dir.filter fun d => d.line != e.line }

/-- Free the directory entry of a line; a counted entry leaves the count of its slot (21 R506). -/
def State.freeEntry (s : State) (l : Nat) : State :=
  match s.sw.entry l with
  | none => s
  | some e =>
    let k := s.sw.getSlot e.keySlot
    let s := s.onUnit (unitOfLine l) fun u => { u with dir := u.dir.filter fun d => d.line != l }
    if k.lines.contains l then s.putSlot e.keySlot { k with lines := k.lines.filter (· != l) } else s

/-- Replace the Busy record of a line, or add it. -/
def State.putBusy (s : State) (b : Busy) : State :=
  s.onUnit (unitOfLine b.line) fun u => { u with busy := u.busy.filter (fun c => c.line != b.line) ++ [b] }

/-- End the Busy state of a line. -/
def State.endBusy (s : State) (l : Nat) : State :=
  s.onUnit (unitOfLine l) fun u => { u with busy := u.busy.filter fun c => c.line != l }

/-- The entry without one holder; none: no holder is left. -/
def DirEntry.without (e : DirEntry) (h : Nat) : Option DirEntry :=
  if e.state != .s && e.owner == h then
    if e.sharers.isEmpty then none else some { e with state := .s, owner := 0x3FF }
  else
    let r := e.sharers.filter (· != h)
    if e.state == .s && r.isEmpty then none else some { e with sharers := r }

/-- Holders of an entry: the owner first, then sharers in the order recorded. -/
def DirEntry.holders (e : DirEntry) : List Nat := (if e.state == .s then [] else [e.owner]) ++ e.sharers

/-- Remove a holder from a line's entry. -/
def State.dropHolder (s : State) (l h : Nat) : State :=
  match s.sw.entry l with
  | none => s
  | some e => match e.without h with
    | none => s.freeEntry l
    | some e' => s.putEntry e'

/-- Set of a line's directory entry in its unit: 24,576 sets of 16 ways (05 R122). -/
def dirSet (l : Nat) : Nat := l / 16 % 24576

/-- Mark a line LOST and free its entry (05 R139). -/
def State.loseLine (s : State) (l : Nat) : State := (s.freeEntry l).onLine l fun m => { m with lost := true }

/-! ### Responses of the home -/

/-- Identity of a request in a slot's count. -/
def reqKey (f : Frame) : Nat × Nat × Nat × Nat := (f.src, f.agent, f.tag, f.cls)

/-- A counted request leaves the count of its slot when its response is sent (21 R507). -/
def State.uncount (s : State) (f : Frame) : State :=
  let k := s.sw.getSlot f.keySlot
  if k.counted.contains (reqKey f) then s.putSlot f.keySlot { k with counted := k.counted.filter (· != reqKey f) } else s

/-- Send the response of a home to a request. -/
def State.homeRespond (s : State) (f : Frame) (status : Nat) (data : List Byte) (cache : Nat) : State :=
  let r := f.response s.sw.sys.homeId status data
  let r := if status = stOk then r.withCache cache else r
  (s.uncount f).swSend (outUnit (unitOf f.offset)) r

/-- Send the response, or hold it until the partner acknowledges the mirrored lines (06 R166). -/
def State.homeFinish (s : State) (f : Frame) (pos : Nat) (data : List Byte) (lines : List Nat) : State :=
  let (wait, s) := s.mirrorLines lines
  match wait, s.sw.pairAt f.offset with
  | some q, some p =>
    let r := f.response s.sw.sys.homeId stOk data
    s.onMem fun m => { m with pair := m.pair.put (f.offset / 0x40000000) { p with held := p.held ++ [(q, pos, r)] } }
  | _, _ => s.homeRespond f stOk data 0

/-- Send an OK response without data once the partner has acknowledged every line mirrored so far. -/
def State.homeAfterMirror (s : State) (f : Frame) (pos : Nat) : State :=
  match s.sw.pairAt f.offset with
  | some p => match p.unacked.getLast? with
    | some q =>
      s.onMem fun m => { m with pair := m.pair.put (f.offset / 0x40000000) { p with held := p.held ++ [(q, pos, f.response s.sw.sys.homeId stOk [])] } }
    | none => s.homeRespond f stOk [] 0
  | none => s.homeRespond f stOk [] 0

/-- Send the responses of a pairing held up to a SEQ. -/
def State.releaseHeld (s : State) (g upto : Nat) : State :=
  match s.sw.mem.pair.find g with
  | none => s
  | some p =>
    let go := p.held.filter fun h => decide (h.1 ≤ upto)
    let s := s.onMem fun m => { m with pair := m.pair.put g { p with held := p.held.filter fun h => decide (upto < h.1) } }
    s.each go fun s h => (s.uncount { h.2.2 with src := h.2.2.dest, cls := if h.2.2.cls = 2 then 1 else 3 }).swSend
      (outUnit (unitOf h.2.2.offset)) h.2.2

/-! ### Ledger copies of requests (22 R526 to R528, 07 R191) -/

/-- The INPUT entry and input-log units of a logged write; home: the home ID it names. -/
def State.logInput (s : State) (f : Frame) (home src agent : Nat) (data : List Byte) : State :=
  let p := f.partition
  let l := s.sw.getLedger p
  if !l.started then s
  else
    let body := leBytes 1 f.keySlot ++ leBytes 1 agent ++ leBytes 2 home ++ leBytes 2 data.length ++ leBytes 2 0
      ++ leBytes 8 f.offset ++ leBytes 8 l.nextUnit ++ leBytes 8 0 ++ digestBytes (Config.shake256 data)
    let e := { s.mkEntry 0x08 0 src body with seq := l.nextSeq }
    let head := slice (entryBytes e) 0 0x60 ++ List.replicate 32 0
    let us := head :: ((List.range (ceilDiv data.length 128)).map fun i => slice data (128 * i) 128)
    let l := l.append e
    (s.putLedger p { l with units := l.units ++ us.zipIdx.map fun u => (l.nextUnit + u.2, u.1)
                            nextUnit := l.nextUnit + us.length, staged := l.staged + 128 * us.length }).noteHigh p

/-- Bytes of staging that a logged write takes. -/
def inputBytes (len : Nat) : Nat := 256 + 128 * ceilDiv len 128

/-- Bytes of staging that a request needs before it is performed. -/
def ledgerNeed (f : Frame) : Nat :=
  if f.typ = ftWriteLog then inputBytes f.length
  else if f.typ = ftAtomic ∧ aopOf f.opx = 9 then 128
  else 0

/-- Whether staging has room for a request's Ledger entries (22 R531). -/
def Switch.ledgerRoom (w : Switch) (f : Frame) : Bool :=
  ledgerNeed f == 0 || !(w.getLedger f.partition).started || (w.getLedger f.partition).room (ledgerNeed f) false

/-- The TICKER entry of a stamped Ticker. -/
def State.logTicker (s : State) (f : Frame) (tNew v : Nat) (fromOperand : Bool) : State :=
  let body := leBytes 2 s.sw.sys.homeId ++ leBytes 6 0 ++ leBytes 8 f.offset ++ leBytes 4 tNew ++ leBytes 4 v
  s.ledgerAdd f.partition (s.mkEntry 0x07 (if fromOperand then 2 else 0) f.src body)

/-! ### Errors of stored lines (06 R156, R157) -/

/-- Fence a memory channel (06 R160): its lines are LOST, the pool cache drops them, and holders of COHERENT lines are back-invalidated.
A primary of a region it touches goes from RESILVERING to SINGLE, and stays PAIRED otherwise (R169; DESIGN CHOICE, log 109). -/
def State.fenceChannelBase (s : State) (c : Nat) : State :=
  if (s.sw.chan c).fenced then s
  else
    let s := s.onMem fun m => { m with chan := m.chan.upd c {} fun x => { x with fenced := true }
                                       cache := m.cache.filter fun l => channelOf (l.line * 128) != c }
    let s := s.record { kind := fChannelFenced, domain := 4, index := c }
    -- a fence that touches a region fails its resilvering; a secondary stays in RESILVERING until its pairing ends (06 R164, R169)
    s.onMem fun m => { m with pair := m.pair.mapVals fun g p =>
      if (g * 0x40000000) / 0x3C00000000 = c / 4 ∧ p.state = .resilvering ∧ p.primary then { p with state := .single } else p }

/-- Send a line BACK_INV to a holder. -/
def State.sendBackInv (s : State) (l h slot : Nat) : State :=
  s.swSend (outUnit (unitOfLine l))
    { dest := h, src := s.sw.sys.homeId, cls := 6, typ := ftBackInv, tag := unitOfLine l, keySlot := slot, inc := s.sw.incFor h, offset := l * 128 }

/-- Take back every copy of a line that is not Busy, to free its entry (05 R137), while its unit holds fewer than 256 Busy lines (R124). -/
def State.backInvLine (s : State) (l : Nat) : State :=
  match s.sw.busy l, s.sw.entry l with
  | none, some e =>
    if 256 ≤ (s.sw.unit (unitOfLine l)).busy.length then s
    else
    let s := s.putBusy { line := l, stage := .free, await := e.holders.map fun h => (h, 5), owner := e.owner }
    s.each e.holders fun s h => s.sendBackInv l h e.keySlot
  | _, _ => s

/-- The COHERENT lines recorded in the directory that satisfy p. -/
def Switch.dirLines (w : Switch) (p : DirEntry → Bool) : List Nat :=
  w.mem.unit.flatMap fun u => (u.2.dir.filter p).map (·.line)

/-- Fence a channel and back-invalidate the holders of its lines. -/
def State.fenceChannel (s : State) (c : Nat) : State :=
  let s := s.fenceChannelBase c
  s.each (s.sw.dirLines fun e => channelOf (e.line * 128) == c) fun s l => s.backInvLine l

/-- A line as the copy to a spare page leaves it: corrected where it can be, with check bytes that fail on purpose otherwise (06 R157). -/
def LineMeta.spare (m : LineMeta) : LineMeta :=
  match m.fixed with
  | some d => { m with stored := d, check := none }
  | none => if m.uncorrectable then { m with bad := true } else m

/-- Retire a data page: its lines are copied to a spare page (06 R157, R159). -/
def State.retirePage (s : State) (c page : Nat) : State :=
  let ch := s.sw.chan c
  if ch.retired.contains page then s
  else if ch.retired.length ≥ 32768 then s.fenceChannel c
  else
    let s := s.onMem fun m => { m with
      chan := m.chan.put c { ch with retired := page :: ch.retired, candidates := page :: ch.candidates }
      home := { m.home with lines := m.home.lines.mapVals fun l x => if channelOf (l * 128) = c ∧ pageOf (l * 128) = page then x.spare else x } }
    (s.count (blkChan c) 2).record { kind := fPageRetired, domain := 4, index := c }

/-- An uncorrectable error is read in a pool line. -/
def State.eccSeen (s : State) (l : Nat) : State :=
  let c := channelOf (l * 128)
  let s := (s.count (blkChan c) 1).record { kind := fEcc, domain := 4, index := c, status := stEcc }
  s.retirePage c (pageOf (l * 128))

/-- A corrected error: counted per channel and page, written back; the fourth in a scrub period retires the page. -/
def State.eccCorrected (s : State) (l : Nat) : State :=
  let c := channelOf (l * 128)
  let page := pageOf (l * 128)
  let n := (s.sw.chan c).pageErrors.get page 0 + 1
  let s := (s.count (blkChan c) 0).onMem fun m => { m with chan := m.chan.upd c {} fun x => { x with pageErrors := x.pageErrors.put page n } }
  if n ≥ 4 then s.retirePage c page else s

/-! ### Reading and writing the bytes of a request -/

/-- A demand read that corrects an error writes the corrected line back and counts it (06 R156). -/
def State.correctLine (s : State) (l : Nat) : State :=
  if s.sw.mem.cache.any fun c => c.line == l then s
  else match (s.sw.mem.home.lines.get l {}).fixed with
    | some d => (s.onLine l fun m => { m with stored := d, check := none }).eccCorrected l
    | none => s

/-- The controller reads a stored line for work of its own: what it corrects is written back and counted, and what it cannot correct is recorded and
retires the page (06 R156, R157). A line in the pool cache is not read from its device. -/
def State.lineRead (s : State) (l : Nat) : State :=
  let m := s.sw.mem.home.lines.get l {}
  if s.sw.mem.cache.any fun c => c.line == l then s
  else if m.uncorrectable then s.eccSeen l
  else s.correctLine l

/-- Read a line for a request: corrected if need be, through the pool cache; none: uncorrectable. -/
def State.fetchLine (s : State) (l slot : Nat) : Option (List Byte) × State := (s.correctLine l).readLine l slot

/-- The bytes of a frame's range that fall in line l: first offset and length. -/
def linePart (f : Frame) (l : Nat) : Nat × Nat :=
  let a := max f.offset (l * 128)
  (a, min (f.offset + f.length) (l * 128 + 128) - a)

/-- The bytes of a range of the home, read line by line under the request's slot; none: uncorrectable. -/
def State.readRange (s : State) (f : Frame) : Option (List Byte) × State :=
  if inPool f.offset f.length then
    f.lines.foldl (fun a l =>
      match a.1 with
      | none => a
      | some acc =>
        match a.2.fetchLine l (a.2.sw.slotAt (l * 128) f.keySlot) with
        | (none, s) => (none, s.eccSeen l)
        | (some d, s) => let (o, n) := linePart f l; (some (acc ++ slice d (o - l * 128) n), s)) (some [], s)
  else if (wordsOf f.offset f.length).any s.sw.mem.home.badWords.contains then (none, s)
  else (some (Memory.readN s.sw.mem.home.mem f.offset f.length), s)

/-- Whether every line that a write covers in part can be read (03 R74). -/
def State.partsReadable (s : State) (f : Frame) : Bool × State :=
  if inPool f.offset f.length then
    f.lines.foldl (fun a l =>
      if !a.1 || (linePart f l).2 == 128 then a
      else match a.2.fetchLine l (a.2.sw.slotAt (l * 128) f.keySlot) with
        | (none, s) => (false, s.eccSeen l)
        | (some _, s) => (true, s)) (true, s)
  else (((wordsOf f.offset f.length).filter fun x => !(wordsWhole f.offset f.length).contains x).all fun x =>
    !s.sw.mem.home.badWords.contains x, s)

/-- Write bytes to the home: whole lines under the slot that serves them. -/
def State.writeRange (s : State) (f : Frame) (data : List Byte) : State :=
  if inPool f.offset f.length then
    s.each f.lines fun s l =>
      let slot := s.sw.slotAt (l * 128) f.keySlot
      let (o, n) := linePart f l
      let part := slice data (o - f.offset) n
      if n = 128 then s.writeLine l slot part
      else match s.fetchLine l slot with
        | (none, s) => s
        | (some d, s) => s.writeLine l slot (d.take (o - l * 128) ++ part ++ d.drop (o - l * 128 + n))
  else s.onHome fun h => { h with mem := Memory.writeN h.mem f.offset (padTo f.length data)
                                  badWords := h.badWords.filter fun x => !(wordsWhole f.offset f.length).contains x }

/-! ### Refusals of a home, in order: age, address, key, fence, owner -/

/-- The range lies in a window that the switch home serves: a configured scratch step or the pool (02 R23, R24, R26). -/
def Switch.served (w : Switch) (off n : Nat) : Bool :=
  inPool off n || (inScratch off n && w.stepIsScratch (scratchStep off) && w.stepIsScratch (scratchStep (off + n - 1)))

/-- A memory request whose form breaks R59, R63, R66 to R68 or R113. -/
def malformedReq (y : Sys) (f : Frame) : Bool :=
  decide (f.span = 0) || decide (f.offset % 256 + f.length > 256)
    || ([ftReadShared, ftReadOwn, ftClaim].contains f.typ && !(f.length == 128 && f.offset % 128 == 0))
    || (f.typ == ftDeposit && !(f.length == 128 && f.offset % 128 == 0 && decide (f.ext.toNat < 1024) && epInDomain y f.ext.toNat))
    || (f.typ == ftAtomic && !atomicOk f.opx f.ext f.offset f.length)

/-- Mode of the range: scratch has no region entry and is DIRECT. -/
def Switch.modeAt (w : Switch) (off : Nat) : Nat := if inPool off 1 then (w.region off).mode else mDirect

/-- The key check of R504; some: the status and whether a KEY_PARTITION fault is recorded. -/
def Switch.keyRefusal (w : Switch) (f : Frame) : Option (Nat × Bool) :=
  if !inPool f.offset 1 then none
  else
    let ks := match w.rewrapAt f.offset with
      | some r => [r.fromSlot, r.toSlot]
      | none => [f.keySlot]
    if ks.any fun k => (w.getSlot k).state == .zeroed || ((w.getSlot k).state == .retiring && !(w.getSlot k).counted.contains (reqKey f)) then
      some (stKeyRetired, false)
    else if f.partition != 0 && ks.any fun k => (w.getSlot k).partition != f.partition then some (stFenced, true)
    else none

/-- Status with which the home refuses a request before it does anything, with the fault to record. -/
def Switch.refusal (w : Switch) (f : Frame) : Option (Nat × Bool) :=
  if aged w.sys.cfg w.clock.now f then some (stAged, false)
  else if malformedReq w.sys f || !w.served f.offset f.span then some (stBadAddress, false)
  else match w.keyRefusal f with
    | some r => some r
    | none =>
      if inPool f.offset 1 && (w.secondary f.offset || f.lines.any w.lineLost) then some (stFenced, false)
      else if w.modeAt f.offset = mOwned ∧ [ftWrite, ftWriteLog, ftAtomic, ftDeposit].contains f.typ
          ∧ ((w.region f.offset).owner ≠ f.src ∨ (w.region f.offset).owner = 0x3FF ∨ (f.typ = ftDeposit ∧ f.ext.toNat ≠ f.src)) then
        some (stNotOwner, false)
      else none

/-- Answer a refused request. -/
def State.refuse (s : State) (f : Frame) (r : Nat × Bool) : State :=
  let s := if r.2 then s.record { kind := fKeyPartition, domain := 5, index := f.partition, partition := f.partition, status := stFenced } else s
  let s := if r.1 = stKeyRetired then
      let k := s.sw.getSlot f.keySlot
      let s := s.count (blkPart f.partition) 0
      if k.state == .retiring then s.putSlot f.keySlot { k with refused := k.refused + 1 } else s
    else s
  s.homeRespond f r.1 [] 0

/-! ### Performing a request on memory -/

/-- The CACHE value of a read outside COHERENT regions (05 R113, R114). -/
def Switch.readCache (w : Switch) (f : Frame) : Nat :=
  if f.typ = ftReadVol ∨ f.offset % 128 ≠ 0 ∨ f.length % 128 ≠ 0 then 0
  else if w.modeAt f.offset = mSnapshot then 4
  else if w.modeAt f.offset = mOwned ∧ (w.region f.offset).owner = f.src then 5
  else 0

/-- A read of memory with a CACHE value. -/
def State.performRead (s : State) (f : Frame) (cache : Nat) : State :=
  match s.readRange f with
  | (none, s) => s.homeRespond f stEcc [] 0
  | (some d, s) => s.homeRespond f stOk d cache

/-- A write or a logged write of memory. -/
def State.performWrite (s : State) (f : Frame) (pos : Nat) : State :=
  match s.partsReadable f with
  | (false, s) => s.homeRespond f stEcc [] 0
  | (true, s) =>
    let d := padTo f.length f.data
    let s := s.writeRange f d
    let s := if f.typ = ftWriteLog then s.logInput f s.sw.sys.homeId f.src f.agent d else s
    s.homeFinish f pos [] (if inPool f.offset 1 then f.lines else [])

/-- An atomic on memory (03 R66, R67, 07). -/
def State.performAtomic (s : State) (f : Frame) (pos : Nat) : State :=
  let n := atomicSize (aopOf f.opx) f.length
  let g := { f with length := n }
  match s.readRange g with
  | (none, s) => s.homeRespond f stEcc [] 0
  | (some old, s) =>
    let (new, stamp) := atomicApply f.opx f.ext (s.now .sw) old (padTo f.length f.data)
    let s := s.writeRange g new
    let s := match stamp with
      | some (t, fromOp) => s.logTicker f t (field new 0 4) fromOp
      | none => s
    s.homeFinish f pos (if atomicReturns f.opx then old else []) (if inPool f.offset 1 then f.lines else [])

/-- Whether a fill is sent to the named end-point: it is not fenced here (05 R135). -/
def Switch.epFenced (w : Switch) (h : Nat) : Bool :=
  (w.mgmt.rec_.get h {}).verdict || (epRack h == w.sys.rack && isEpId h && (w.getLink (epSlot h)).state == .fenced)

/-- A deposit: the line is written, and a fill goes to the named end-point where the mode calls for one. -/
def State.performDeposit (s : State) (f : Frame) (pos : Nat) : State :=
  let named := f.ext.toNat
  let l := f.offset / 128
  let s := s.writeRange f (padTo 128 f.data)
  let mode := s.sw.modeAt f.offset
  if mode = mDirect ∨ s.sw.epFenced named then s.homeFinish f pos [] (if inPool f.offset 1 then [l] else [])
  else
    let s := (s.mirrorLines [l]).2
    let fill : Frame := { dest := named, src := s.sw.sys.homeId, partition := f.partition, cls := 6, typ := ftDepositFill, tag := unitOfLine l,
                          keySlot := f.keySlot, inc := s.sw.incFor named, offset := f.offset }
    let next : Option DirEntry := if mode = mCoherent then some { line := l, state := .s, sharers := [named], keySlot := f.keySlot } else none
    let s := s.putBusy { line := l, stage := .fill named, pos := pos, f := f, next := next }
    s.swSend (outUnit (unitOfLine l)) ((fill.withData (padTo 128 f.data)).withCache (if mode = mSnapshot then 4 else if mode = mOwned then 5 else 1))

/-! ### The state table of COHERENT lines (05 R123, R129 to R135) -/

/-- Send a SNOOP of a KIND to an end-point. FWD_ID, FWD_TAG and FWD_AGENT name the requester for every KIND, those too that forward nothing
(DESIGN CHOICE, log 89). -/
def State.sendSnoop (s : State) (l h kind slot : Nat) (f : Frame) : State :=
  s.swSend (outUnit (unitOfLine l))
    { dest := h, src := s.sw.sys.homeId, partition := f.partition, cls := 6, typ := ftSnoop, tag := unitOfLine l, keySlot := slot, inc := s.sw.incFor h,
      offset := l * 128, opx := opxAt kind 36, ext := BitVec.ofNat 64 (f.src + f.tag * 2 ^ 10 + f.agent * 2 ^ 22) }

/-- Snoop KINDs. -/
def kShareFwd : Nat := 0
def kOwnFwd : Nat := 1
def kInvalidate : Nat := 2
def kFetchShare : Nat := 3
def kFetchInv : Nat := 4
def kBackInv : Nat := 5

/-- Ask holders of a line for their copies and leave the line Busy in a stage. -/
def State.ask (s : State) (pos : Nat) (f : Frame) (e : DirEntry) (targets : List (Nat × Nat)) (b : Busy) : State :=
  let s := s.putBusy { b with line := e.line, pos := pos, f := f, await := targets, owner := if e.state == .s then 0x3FF else e.owner }
  s.each targets fun s t => s.sendSnoop e.line t.1 t.2 e.keySlot f

/-- A Busy line will have an entry: that of its grant or fill, or that of a request which waits for copies to be taken back. -/
def Busy.wantsWay (b : Busy) : Bool := b.next.isSome || (b.stage == .again && [ftReadShared, ftReadOwn, ftDeposit].contains b.f.typ)

/-- Whether the set of a line has a way for one more entry; Busy lines that await one count. -/
def Switch.hasWay (w : Switch) (l : Nat) : Bool :=
  let u := w.unit (unitOfLine l)
  let used := (u.dir.filter fun e => dirSet e.line == dirSet l).length
    + (u.busy.filter fun b => dirSet b.line == dirSet l && b.wantsWay && (w.entry b.line).isNone).length
  decide (used < 16)

/-- The least recently used entry of a line's set that is not Busy (05 R137). -/
def Switch.victim (w : Switch) (l : Nat) : Option Nat :=
  let u := w.unit (unitOfLine l)
  ((u.dir.filter fun e => dirSet e.line == dirSet l && (u.busy.all fun b => b.line != e.line)).getLast?).map (·.line)

/-- Put a request in the retry queue. -/
def State.retryLater (s : State) (pos : Nat) (f : Frame) : State :=
  s.onUnit (unitOf f.offset) fun u => { u with retry := u.retry ++ [{ pos := pos, f := f, step := u.step }] }

/-- Put a request that had begun back in front of the retry queue. -/
def State.retryFirst (s : State) (pos : Nat) (f : Frame) : State :=
  s.onUnit (unitOf f.offset) fun u => { u with retry := { pos := pos, f := f, step := u.step } :: u.retry }

/-- A request's line needs an entry in a full set: the victim's copies are taken back (05 R137), one victim of the set at a time. -/
def State.evictFor (s : State) (f : Frame) : State :=
  let l := f.offset / 128
  if (s.sw.unit (unitOfLine l)).busy.any fun b => b.stage == .free && dirSet b.line == dirSet l then s
  else match s.sw.victim l with
    | some v => s.backInvLine v
    | none => s

/-- Performing the request gives its line, which has no entry, one: a grant, or a deposit with a fill. -/
def Switch.wantsEntry (w : Switch) (f : Frame) : Bool :=
  w.modeAt f.offset == mCoherent && (w.entry (f.offset / 128)).isNone
    && (f.typ == ftReadShared || f.typ == ftReadOwn || (f.typ == ftDeposit && !w.epFenced f.ext.toNat))

/-- The entry that a request needs has no way. -/
def Switch.lacksWay (w : Switch) (f : Frame) : Bool := w.wantsEntry f && !w.hasWay (f.offset / 128)

/-- The home grants a line: the answer with its CACHE value, and the COH_ACK awaited. The entry that it needs has a way (R137). -/
def State.grant (s : State) (pos : Nat) (f : Frame) (cache : Nat) (next : DirEntry) : State :=
  let b : Busy := { line := f.offset / 128, stage := .ack, pos := pos, f := f, next := some next }
  if f.typ = ftClaim then (s.putBusy b).homeRespond f stOk [] cache
  else match s.readRange f with
    | (none, s) => s.homeRespond f stEcc [] 0
    | (some d, s) => (s.putBusy b).homeRespond f stOk d cache

/-- The first line of a request whose copies must be taken back, with what to ask. -/
def Switch.takeBack (w : Switch) (f : Frame) : Option (DirEntry × List (Nat × Nat)) :=
  f.lines.findSome? fun l =>
    match w.entry l with
    | none => none
    | some e =>
      let whole := (linePart f l).2 == 128
      if f.typ = ftRead ∨ f.typ = ftReadVol then
        if e.state = .s then none
        else if f.typ = ftRead ∧ e.owner = f.src then some (e, [(e.owner, kInvalidate)])
        else some (e, [(e.owner, kFetchShare)])
      else
        let inv := e.sharers.map fun h => (h, kInvalidate)
        if e.state = .s then some (e, inv)
        else some (e, (e.owner, if (f.typ = ftWrite ∨ f.typ = ftWriteLog) ∧ whole ∨ f.typ = ftDeposit then kInvalidate else kFetchInv) :: inv)

/-- READ_SHARED, READ_OWN or CLAIM of a COHERENT line. A sharer that is granted S again takes the last place of the order in which sharers were
recorded (DESIGN CHOICE, log 87). -/
def State.serveGrant (s : State) (pos : Nat) (f : Frame) : State :=
  let l := f.offset / 128
  let q := f.src
  let mine : DirEntry := { line := l, state := .em, owner := q, keySlot := f.keySlot }
  match s.sw.entry l with
  | none => if f.typ = ftClaim then s.homeRespond f stOk [] 0 else s.grant pos f 2 mine
  | some e =>
    let others := e.sharers.filter (· != q)
    let inv := others.map fun h => (h, kInvalidate)
    let again : Busy := { line := l, stage := .again }
    if e.state ≠ .s ∧ e.owner = q ∧ (f.typ ≠ ftClaim ∨ e.state = .em) then
      -- the owner does not hold what it asks for: its write-back may be behind (R134)
      s.ask pos f e [(q, kInvalidate)] again
    else if f.typ = ftReadShared then
      if !e.sharers.contains q && e.holders.length ≥ 4 then
        match e.sharers with
        | h :: _ => s.ask pos f e [(h, kInvalidate)] again
        | [] => s
      else
        let next : DirEntry := { e with sharers := others ++ [q] }
        match e.state with
        | .s => s.grant pos f 1 next
        | _ => s.ask pos f e [(e.owner, kShareFwd)] { line := l, stage := .forward, next := some next }
    else if f.typ = ftReadOwn then
      match e.state with
      | .s => if others.isEmpty then s.grant pos f 2 { mine with keySlot := e.keySlot } else s.ask pos f e inv again
      | _ => s.ask pos f e ((e.owner, kOwnFwd) :: inv) { line := l, stage := .forward, fwdM := true, next := some { mine with keySlot := e.keySlot } }
    else if !e.holders.contains q then s.homeRespond f stOk [] 0
    else match e.state with
      | .s => if others.isEmpty then s.grant pos f 2 { mine with keySlot := e.keySlot } else s.ask pos f e inv again
      | _ =>
        let targets := if e.owner = q then inv else (e.owner, kInvalidate) :: inv
        if targets.isEmpty then s.grant pos f 3 { mine with keySlot := e.keySlot }
        else s.ask pos f e targets { line := l, stage := .grant 3, next := some { mine with keySlot := e.keySlot } }

/-- Perform a request that nothing refuses and no line of which is Busy. -/
def State.serveOpen (s : State) (pos : Nat) (f : Frame) : State :=
  let coh := decide (s.sw.modeAt f.offset = mCoherent)
  let grants := [ftReadShared, ftReadOwn, ftClaim].contains f.typ
  if coh && grants then (if s.sw.epFenced f.src then s.homeRespond f stFenced [] 0 else s.serveGrant pos f)
  else match (if coh then s.sw.takeBack f else none) with
    | some (e, targets) => s.ask pos f e targets { line := e.line, stage := .again }
    | none =>
      if f.typ = ftClaim then s.homeRespond f stOk [] 0
      else if [ftRead, ftReadVol, ftReadShared, ftReadOwn].contains f.typ then s.performRead f (if coh then 0 else s.sw.readCache f)
      else if f.typ = ftAtomic then s.performAtomic f pos
      else if f.typ = ftDeposit then s.performDeposit f pos
      else s.performWrite f pos

/-- Serve a request at its Clearing unit: refused, or performed. -/
def State.serve (s : State) (pos : Nat) (f : Frame) : State :=
  match s.sw.refusal f with
  | some r => s.refuse f r
  | none => s.serveOpen pos f

/-! ### Arrival, waiting and line operations -/

/-- A region change that empties the region holds its requests (05 R117); a hand-over does not. -/
def Switch.regionHeld (w : Switch) (off : Nat) : Bool :=
  w.mem.home.jobs.any fun j => !j.handover && j.region == off / 0x200000 && inPool off 1

/-- A line of a region has a directory entry, or is Busy. -/
def Switch.regionInUse (w : Switch) (region : Nat) : Bool :=
  w.mem.unit.any fun u => (u.2.dir.any fun e => e.line / 0x4000 == region) || u.2.busy.any fun b => b.line / 0x4000 == region

/-- A directory entry that must be freed: its region leaves COHERENT (05 R117), its key slot retires (21 R506), or its channel is fenced (06 R160). -/
def Switch.entryDue (w : Switch) (e : DirEntry) : Bool :=
  (w.mem.home.jobs.any fun j => !j.handover && j.mode != mCoherent && j.region == e.line / 0x4000)
    || (w.getSlot e.keySlot).state == .retiring || (w.chan (channelOf (e.line * 128))).fenced

/-- Take back the copies of every line whose entry must be freed and that is not Busy. An entry under a retiring slot stands in its count. -/
def State.takeBackDue (s : State) : State :=
  let due := s.sw.mem.unit.flatMap fun u => u.2.dir.filter fun e => s.sw.entryDue e && (s.sw.busy e.line).isNone
  s.each due fun s e =>
    let k := s.sw.getSlot e.keySlot
    let s := if k.state == .retiring && !(k.lines.contains e.line) then s.putSlot e.keySlot { k with lines := e.line :: k.lines } else s
    s.backInvLine e.line

/-- The memory that serves an offset is in RUN: its channel, or the bank group of its scratch step (20 R489). -/
def Switch.memoryAwake (w : Switch) (off : Nat) : Bool :=
  (!inPool off 1 || w.awake 2 (channelOf off)) && (w.bankOf off).all fun g => w.awake 3 g

/-- A request to a line is work for the memory and the unit that serve it (20 R489). -/
def State.workMemory (s : State) (off : Nat) : State :=
  let s := s.work 4 (unitOf off)
  let s := if inPool off 1 then s.work 2 (channelOf off) else s
  match s.sw.bankOf off with
  | some g => s.work 3 g
  | none => s

/-- Performing the request makes its line Busy: it sends a snoop, a grant or a fill (05 R124). -/
def Switch.makesBusy (w : Switch) (f : Frame) : Bool :=
  let coh := w.modeAt f.offset == mCoherent
  (coh && (f.typ == ftReadShared || f.typ == ftReadOwn))
    || (coh && f.typ == ftClaim && (w.entry (f.offset / 128)).any fun e => e.holders.contains f.src)
    || (coh && f.typ != ftClaim && (w.takeBack f).isSome)
    || (f.typ == ftDeposit && w.modeAt f.offset != mDirect && !w.epFenced f.ext.toNat)

/-- Writes, logged writes, deposits and atomics (03 R83). -/
def isStoreReq (t : Nat) : Bool := [ftWrite, ftWriteLog, ftAtomic, ftDeposit].contains t

/-- Requests that have reached the home and are not performed: they wait in the cell buffer, in a retry queue, or for copies to be taken back. -/
def Switch.heldReqs (w : Switch) : List Frame :=
  (w.mem.unit.flatMap fun u => u.2.retry.map (·.f) ++ (u.2.busy.filter fun b => b.stage == .again).map (·.f))
    ++ w.core.inbox.flatMap fun e => if 64 ≤ e.1 ∧ e.1 < 80 then e.2.map (·.f) else []

/-- An earlier request of the same class and source is not performed, and this one must not pass it (03 R83): both are stores, or they touch one line. -/
def Switch.behind (w : Switch) (f : Frame) : Bool :=
  let earlier := (w.mem.order.takeWhile (· != reqKey f)).filter fun k => k.1 == f.src && k.2.2.2 == f.cls
  w.heldReqs.any fun g => earlier.contains (reqKey g) && ((isStoreReq f.typ && isStoreReq g.typ) || g.lines.any f.lines.contains)

/-- Note the arrival of a request; one that has stood in the cell buffer since it first came keeps its place. -/
def State.noteArrival (s : State) (f : Frame) : State :=
  let held := s.sw.heldReqs.map reqKey
  if held.contains (reqKey f) && s.sw.mem.order.contains (reqKey f) then s
  else s.onMem fun m => { m with order := (m.order.filter fun k => held.contains k && k != reqKey f) ++ [reqKey f] }

/-- A unit of a line of the request holds 256 Busy lines, and performing it would make one more (05 R124). -/
def Switch.busyFull (w : Switch) (f : Frame) : Bool :=
  (f.lines.any fun l => decide (256 ≤ (w.unit (unitOfLine l)).busy.length)) && w.makesBusy f

/-- The request must wait in the retry queue: a line of it is Busy, an earlier request of its source is not performed, its entry has no way, its
region or channel is held, its memory wakes, or Ledger staging is full. -/
def Switch.mustWait (w : Switch) (f : Frame) : Bool :=
  f.lines.any (fun l => (w.busy l).isSome) || w.behind f || w.lacksWay f
    || w.regionHeld f.offset || !w.ledgerRoom f || !w.memoryAwake f.offset || !w.awake 4 (unitOf f.offset)
    || (inPool f.offset 1 && (w.chan (channelOf f.offset)).resetting) || w.busyFull f
    -- a unit without credit holds its responses and issues no more (13 R353)
    || !(w.core.waiting.get (outUnit (unitOf f.offset) * 8 + rspClass f.cls) []).isEmpty

/-- An earlier request to one of the same lines waits, or one for an entry in the same set. -/
def Switch.waitsBehind (w : Switch) (f : Frame) : Bool :=
  (w.mem.unit.any fun u => u.2.retry.any fun x => x.f.lines.any f.lines.contains)
    || (w.unit (unitOf f.offset)).retry.any fun x =>
        w.wantsEntry f && w.wantsEntry x.f && dirSet (x.f.offset / 128) == dirSet (f.offset / 128)

/-- The retry queue of a unit is full (04 R109). A request of two lines that has begun keeps its place there, since the copies of its second line may
make it wait again (DESIGN CHOICE, log 104). -/
def Switch.retryFull (w : Switch) (u : Nat) : Bool :=
  decide (1024 ≤ (w.unit u).retry.length
    + (w.mem.unit.flatMap fun t => t.2.busy.filter fun b => b.stage == .again && b.f.lines.length == 2 && unitOf b.f.offset == u).length)

/-- A request takes part in its unit's step (05 R125): where a request that began in the same step touches a line of it, they contend, and the pointer
moves to one past the position of that one. begins: it begins a line operation itself. -/
def State.noteStep (s : State) (pos : Nat) (f : Frame) (begins : Bool) : State :=
  s.onUnit (unitOf f.offset) fun u => match u.begun.find? fun b => f.lines.contains b.1 with
    | some b => { u with pointer := (b.2 + 1) % 65 }
    | none => if begins then { u with begun := u.begun ++ f.lines.map fun l => (l, pos) } else u

/-- Each READ_SHARED, READ_OWN or CLAIM that the home receives outside a COHERENT region is recorded, whatever becomes of it (05 R114). -/
def State.noteMode (s : State) (f : Frame) : State :=
  s.ifThen ([ftReadShared, ftReadOwn, ftClaim].contains f.typ && s.sw.modeAt f.offset != mCoherent) fun s =>
    s.record { kind := fModeMismatch, index := 0, partition := f.partition }

/-- Take a frame out of the inbox of an internal output. Nothing acts on a frame before it is whole (13 R347). -/
def State.takeInbox (s : State) (o : Nat) (f : Frame) : State :=
  match (s.sw.core.inbox.get o []).find? fun b => b.f == f && b.whole with
  | none => s
  | some b =>
    (s.onSw fun w => { w with core := { w.core with inbox := w.core.inbox.put o ((w.core.inbox.get o []).erase b) } }).freeCells b

/-- Take a request out of the inbox: it has reached its Clearing unit. -/
def State.receive (s : State) (f : Frame) : State := (s.takeInbox (outUnit (unitOf f.offset)) f).noteMode f

/-- A request reaches its Clearing unit: refused or performed at once, or put in the retry queue. A full retry queue leaves it in the cell buffer.
Arrivals are commands, taken one at a time: a request to a free line begins its line operation when it arrives, and those of its step that come
after it contend with it (05 R125; DEDUCED, log 85). -/
def State.homeRequest (s : State) (pos : Nat) (f : Frame) : State :=
  let s := s.workMemory f.offset
  match (if s.sw.regionHeld f.offset then none else s.sw.refusal f) with
  | some r => (s.receive f).refuse f r
  | none =>
    if s.sw.mustWait f || s.sw.waitsBehind f then
      let full := s.sw.retryFull (unitOf f.offset)
      let s := (s.noteArrival f).noteStep pos f false
      if full then s
      else
        let s := (s.receive f).retryLater pos f
        s.ifThen (s.sw.lacksWay f) fun s => s.evictFor f
    else (((s.noteArrival f).noteStep pos f true).receive f).serveOpen pos f

/-- Among the waiting requests, those that a line operation may begin, with their index: the first of each line. -/
def Switch.ready (w : Switch) (u : Nat) : List (Waiting × Nat) :=
  ((w.unit u).retry.zipIdx).filter fun x => !w.mustWait x.1.f

/-- The request that a line operation begins: the oldest, or among those of its line and step the first in source order from the pointer. -/
def Switch.nextWaiting (w : Switch) (u : Nat) : Option (Waiting × Bool) :=
  match w.ready u with
  | [] => none
  | (a, _) :: rest =>
    let same := a :: (rest.map Prod.fst).filter fun b => b.step == a.step && b.f.lines.any a.f.lines.contains
    let key (x : Waiting) := (x.pos + 65 - (w.unit u).pointer % 65) % 65
    let best := same.foldl (fun m x => if key x < key m then x else m) a
    some (best, decide (same.length > 1))

/-- Further requests that one line operation takes with the first: the run of waiting writes, or of integer ADDs, to its line, at most 16 in all. -/
def Switch.mergeRun (w : Switch) (u : Nat) (a : Waiting) : List Waiting :=
  let isW (f : Frame) := f.typ == ftWrite || f.typ == ftWriteLog
  let behind := (w.unit u).retry.filter fun x => x != a && x.f.lines.any a.f.lines.contains
  if a.f.lines.length ≠ 1 then []
  else if isW a.f then (behind.takeWhile fun x => isW x.f && x.f.lines == a.f.lines).take 15
  else if isIntAdd a.f then (behind.takeWhile fun x => isIntAdd x.f && x.f.lines == a.f.lines).take 15
  else []

/-- Remove a waiting request from the retry queue. -/
def State.unqueue (s : State) (u : Nat) (x : Waiting) : State := s.onUnit u fun t => { t with retry := t.retry.erase x }

/-- Take back a victim for each set in which a waiting request lacks a way. -/
def State.evictWaiting (s : State) (u : Nat) : State :=
  s.each ((s.sw.unit u).retry) fun s x => s.ifThen (s.sw.lacksWay x.f) fun s => s.evictFor x.f

/-- One line operation of a Clearing unit (04 R108, R109, 05 R125). -/
def State.lineOperation (s : State) (u : Nat) : State :=
  let s' := match s.sw.nextWaiting u with
    | none => s
    | some (a, contended) =>
      let more := s.sw.mergeRun u a
      let s := if contended then s.onUnit u fun t => { t with pointer := (a.pos + 1) % 65 } else s
      let s := (s.unqueue u a).serve a.pos a.f
      s.each more fun s x => if s.sw.mustWait x.f then s else (s.unqueue u x).serve x.pos x.f
  (s'.evictWaiting u).onUnit u fun t => { t with step := t.step + 1, begun := [] }

/-! ### Answers (05 R131, R133, R135, R137) -/

/-- Go on when every answer that a Busy line awaits is in. -/
def State.advance (s : State) (l : Nat) : State :=
  match s.sw.busy l with
  | none => s
  | some b =>
    if !b.await.isEmpty then s
    else match b.stage with
      | .again =>
        let s := s.endBusy l
        if b.f.lines.any (fun x => (s.sw.busy x).isSome) || s.sw.busyFull b.f then s.retryFirst b.pos b.f else s.serve b.pos b.f
      | .grant c => (s.putBusy { b with stage := .ack }).homeRespond b.f stOk [] c
      | .forward =>
        if b.gone then
          let s := (s.endBusy l).uncount b.f
          if b.fwdM then s.loseLine l else s
        else if b.acked then
          let s := (s.endBusy l).uncount b.f
          match b.next with
          | some e => s.putEntry e
          | none => s
        else s
      | .free => (s.freeEntry l).endBusy l
      | .ack | .fill _ => s

/-- An end-point's answer to a SNOOP or BACK_INV, with its RESULT, takes effect on the entry. -/
def State.noteAnswer (s : State) (l h result : Nat) : State :=
  match s.sw.busy l with
  | none => s
  | some b =>
    match b.await.find? fun a => a.1 == h with
    | none => s
    | some (_, kind) =>
      let b := { b with await := b.await.filter fun a => a.1 != h }
      let gone := result = 0 ∨ result = 1 ∨ result = 5
      let s := if kind = kShareFwd ∨ kind = kFetchShare then
          if gone ∨ result = 4 then s.dropHolder l h
          else if result = 2 then
            match s.sw.entry l with
            | some e => s.putEntry { e with state := .s, owner := 0x3FF, sharers := h :: e.sharers.filter (· != h) }
            | none => s
          else match s.sw.entry l with
            | some e => s.putEntry { e with state := .o, owner := h }
            | none => s
        else if b.stage = .free then s
        else s.dropHolder l h
      -- the entry that a forwarded read leaves follows the owner's answer
      let b := if b.stage = .forward ∧ kind = kShareFwd then
          match s.sw.entry l with
          | some e => { b with next := some { e with sharers := e.sharers.filter (· != b.f.src) ++ [b.f.src] } }
          | none => { b with next := some { line := l, state := .s, sharers := [b.f.src], keySlot := b.f.keySlot } }
        else b
      -- an owner without the line: the home answers the requester itself (R131)
      let b := if b.stage = .forward ∧ (kind = kShareFwd ∨ kind = kOwnFwd) ∧ gone then
          if b.gone then { b with fwdM := false } else { b with stage := .again, next := none }
        else b
      s.putBusy b

/-- An answer takes effect, and the line goes on when it was the last. -/
def State.answer (s : State) (l h result : Nat) : State := (s.noteAnswer l h result).advance l

/-- A SNOOP_RSP reaches the home. -/
def State.homeSnoopRsp (s : State) (f : Frame) : State :=
  if f.opxBits 38 36 = 6 then s else s.answer (f.offset / 128) f.src (f.opxBits 38 36)

/-- Write a line that a holder sent to memory, under its entry's slot. -/
def State.storeBack (s : State) (l slot : Nat) (data : List Byte) : State :=
  if (s.sw.chan (channelOf (l * 128))).fenced then s else s.writeLine l (s.sw.slotAt (l * 128) slot) data

/-- FWD_DATA reaches the home: written to memory before the requester is answered. -/
def State.homeFwdData (s : State) (f : Frame) : State :=
  let l := f.offset / 128
  match s.sw.busy l with
  | some b => if b.await.any fun a => a.1 == f.src then s.storeBack l ((s.sw.entry l).map (·.keySlot) |>.getD f.keySlot) f.data else s
  | none => s

/-- A WRITEBACK reaches the home (05 R133). On a Busy line that awaits no answer of the owner it is stored, and the owner stays recorded
(DESIGN CHOICE, log 107). -/
def State.homeWriteback (s : State) (f : Frame) : State :=
  let l := f.offset / 128
  match s.sw.entry l with
  | some e =>
    if e.state ≠ .s ∧ e.owner = f.src then
      let s := s.storeBack l e.keySlot f.data
      match s.sw.busy l with
      | none => s.dropHolder l f.src
      | some b => if b.await.any fun a => a == (f.src, kBackInv) then s.answer l f.src 1 else s
    else s.count 0 cWritebackDiscarded
  | none => s.count 0 cWritebackDiscarded

/-- A COH_ACK reaches the home (05 R124, R130, R135). -/
def State.homeCohAck (s : State) (f : Frame) : State :=
  let l := f.offset / 128
  let decline := f.opxBits 36 36 = 1
  match s.sw.busy l with
  | none => s
  | some b =>
    match b.stage with
    | .fill named =>
      if named ≠ f.src then s
      else
        let s := s.endBusy l
        let s := if s.sw.modeAt f.offset = mCoherent ∧ ¬decline then
            match b.next with
            | some e => s.putEntry e
            | none => s
          else s
        s.homeAfterMirror b.f b.pos
    | .ack =>
      if b.f.src ≠ f.src then s
      else if decline then s.endBusy l
      else match b.next with
        | some e => (s.endBusy l).putEntry e
        | none => s.endBusy l
    | .forward =>
      -- declined: the owner's answer still settles the entry (R130, R138)
      if b.f.src ≠ f.src then s else (s.putBusy (if decline then { b with gone := true } else { b with acked := true })).advance l
    | _ => s

/-! ### Lost holders (05 R138, R139) -/

/-- What the loss of end-point h does to one Busy line, before any request goes on (05 R139). The entry that a grant leaves loses it as a sharer; a
forwarded grant to it waits for the owner's answer; an answer that it owed as a sharer is taken as given. -/
def State.loseBusy (s : State) (h : Nat) (b : Busy) : State :=
  let l := b.line
  let b := if b.f.src = h then b else { b with next := b.next.bind (·.without h) }
  let s := s.putBusy b
  let s :=
    match b.stage with
    | .ack => if b.f.src = h then s.endBusy l else s
    | .forward => if b.f.src = h then s.putBusy { b with gone := true } else s
    | .fill named => if named = h then (s.endBusy l).homeAfterMirror b.f b.pos else s
    | .grant _ => if b.f.src = h then s.putBusy { b with stage := .again, next := none } else s
    | _ => s
  match s.sw.busy l with
  | none => s
  | some b =>
    if b.await.any fun a => a.1 == h then
      if b.owner = h then
        let s := (s.endBusy l).loseLine l
        if b.stage = .free then s else if b.gone then s.uncount b.f else s.homeRespond b.f stFenced [] 0
      else s.noteAnswer l h 1
    else s

/-- What the loss of end-point h does to one directory entry. -/
def State.loseEntry (s : State) (h l : Nat) : State :=
  match s.sw.entry l with
  | none => s
  | some e =>
    if e.state ≠ .s ∧ e.owner = h then
      match s.sw.busy l with
      | none => s.loseLine l
      | some b =>
        let s := (s.endBusy l).loseLine l
        match b.stage with
        | .again | .grant _ => s.homeRespond b.f stFenced [] 0
        | _ => s.uncount b.f
    else if e.sharers.contains h then s.dropHolder l h
    else s

/-- A region of a lost owner becomes LOST (05 R121, R138). -/
def lostRegion (h : Nat) (r : Region) : Region :=
  if r.mode = 0 ∧ r.owner = h then { r with lost := true, owner := 0x3FF, handover := false } else r

/-- The switch applies R138 for an end-point to its own home: to every Busy line and every entry, before any request that waited goes on (R139). -/
def State.loseHolder (s : State) (h : Nat) : State :=
  let busies := s.sw.mem.unit.flatMap fun u => u.2.busy
  let s := s.each busies fun s b => s.loseBusy h b
  let s := s.each (s.sw.dirLines fun e => e.holders.contains h) fun s l => s.loseEntry h l
  let s := s.onHome fun m => { m with region := m.region.mapVals fun _ r => lostRegion h r }
  s.each busies fun s b => s.advance b.line

end Sys2Proof.Machine
end

