-- ==== Sys2Proof/Machine/Operands.lean ====
section
/-!
DEFINITION. Operand forms: the words of a frame header (03 R57), segment descriptors (02 R31 to R33), segment and range
arithmetic (02 R27 to R29), and the fields of mailbox areas (16 R413 to R415).
-/

namespace Sys2Proof

open Machine

/-- The four words of a frame header (03 R57). -/
def Frame.word0 (f : Frame) : Nat :=
  f.dest + f.src * 2 ^ 10 + f.agent * 2 ^ 20 + f.partition * 2 ^ 26 + f.cls * 2 ^ 30 + f.typ * 2 ^ 33 + f.tag * 2 ^ 39
    + b2n f.f * 2 ^ 51 + f.keySlot * 2 ^ 52 + f.inc * 2 ^ 57

def Frame.word1 (f : Frame) : Nat := f.offset + f.age * 2 ^ 42
def Frame.word2 (f : Frame) : Nat := f.length + f.sparse * 2 ^ 16 + f.status * 2 ^ 32 + f.opx.toNat * 2 ^ 36
def Frame.word3 (f : Frame) : Nat := f.ext.toNat

/-- The header that four words spell; the payload is apart. -/
def Frame.ofWords (w0 w1 w2 w3 : Nat) : Frame :=
  { dest := bits w0 0 10, src := bits w0 10 10, agent := bits w0 20 6, partition := bits w0 26 4, cls := bits w0 30 3, typ := bits w0 33 6,
    tag := bits w0 39 12, f := bit w0 51, keySlot := bits w0 52 5, inc := bits w0 57 4, offset := bits w1 0 42, age := bits w1 42 12,
    length := bits w2 0 9, sparse := bits w2 16 16, status := bits w2 32 4, opx := BitVec.ofNat 28 (w2 / 2 ^ 36), ext := BitVec.ofNat 64 w3 }

/-- The 32 header bytes. -/
def Frame.headerBytes (f : Frame) : List Byte := leBytes 8 f.word0 ++ leBytes 8 f.word1 ++ leBytes 8 f.word2 ++ leBytes 8 f.word3

/-- The header of 32 bytes. -/
def Frame.ofHeader (l : List Byte) : Frame := Frame.ofWords (field l 0 8) (field l 8 8) (field l 16 8) (field l 24 8)

/-- The present payload slots of a frame, in ascending order (03 R69). -/
def Frame.presentSlots (f : Frame) : List (List Byte) :=
  ((List.range 16).filter fun i => bit f.sparse i).map fun i => slice f.data (16 * i) 16

/-- The logical payload that present slots spell: omitted slots are zeros (03 R69, R70). -/
def expandSlots (sparse length : Nat) (slots : List (List Byte)) : List Byte :=
  padTo length ((List.range 16).foldl (fun (a : List Byte × List (List Byte)) i =>
    if bit sparse i then match a.2 with
      | s :: t => (a.1 ++ padTo 16 s, t)
      | [] => (a.1 ++ List.replicate 16 0, [])
    else (a.1 ++ List.replicate 16 0, a.2)) ([], slots)).1

end Sys2Proof

namespace Sys2Proof.Machine

/-! ### Segment descriptors (02 R31) -/

/-- The descriptor that 32 bytes spell. -/
def decodeDesc (l : List Byte) : Desc :=
  let w0 := field l 0 8
  let w1 := field l 8 8
  let w2 := field l 16 8
  let w3 := field l 24 8
  { v := bit w0 0, r := bit w0 1, w := bit w0 2, a := bit w0 3, mode := bits w0 4 2, stripe := bit w0 6, log := bit w0 7,
    keySlot := bits w0 8 5, partition := bits w0 13 4, cvaBase := bits w0 21 35 * 2 ^ 21, fgaBase := bits w1 21 31 * 2 ^ 21,
    length := bits w2 0 35, context := bits w3 0 16,
    reserved := bits w0 17 4 != 0 || bits w0 56 8 != 0 || bits w1 0 21 != 0 || bits w1 52 12 != 0 || bits w2 35 29 != 0 || bits w3 16 48 != 0 }

/-- The words of a descriptor without reserved bits. -/
def Desc.word0 (d : Desc) : Nat :=
  b2n d.v + b2n d.r * 2 + b2n d.w * 4 + b2n d.a * 8 + d.mode * 2 ^ 4 + b2n d.stripe * 2 ^ 6 + b2n d.log * 2 ^ 7 + d.keySlot * 2 ^ 8
    + d.partition * 2 ^ 13 + d.cvaBase

/-- The 32 bytes of a descriptor, as TRANSLATE_RSP carries it. -/
def Desc.bytes (d : Desc) : List Byte := leBytes 8 d.word0 ++ leBytes 8 d.fgaBase ++ leBytes 8 d.length ++ leBytes 8 d.context

/-- Bytes that a descriptor maps. -/
def Desc.size (d : Desc) : Nat := d.length * 0x200000

/-- The descriptor covers a CVA. -/
def Desc.covers (d : Desc) (cva : Nat) : Bool := d.v && decide (d.cvaBase ≤ cva) && decide (cva < d.cvaBase + d.size)

/-- The descriptor overlaps a range of 2 MiB units; count 0 is the whole context (02 R47). -/
def Desc.overlaps (d : Desc) (first count : Nat) : Bool :=
  count == 0 || (decide (d.cvaBase / 0x200000 < first + count) && decide (first < d.cvaBase / 0x200000 + d.length))

/-- Home and offset of a byte position x of a segment (02 R27, R40). -/
def Desc.place (d : Desc) (x : Nat) : Nat × Nat :=
  let h := d.fgaBase / 2 ^ 42
  let b := d.fgaBase % 2 ^ 42
  if d.stripe then (h + x / 0x1000 % 8, b + x / 0x8000 * 0x1000 + x % 0x1000) else (h, b + x)

/-- The mapped range lies in one window of one home that allows the mode (02 R23, R25). exposed: the size of the window of an end-point home. -/
def Desc.windowOk (d : Desc) (exposed : Nat → Nat) : Bool :=
  let h := d.fgaBase / 2 ^ 42
  let b := d.fgaBase % 2 ^ 42
  let n := if d.stripe then d.size / 8 else d.size
  if isSwitchId h then
    decide (b + n ≤ 0x16800000000)
      || (d.mode == 3 && ((decide (0x20000000000 ≤ b) && decide (b + n ≤ 0x20030000000)) || (decide (0x3FF00000000 ≤ b) && decide (b + n ≤ 0x3FF01000000))))
  else isEpId h && d.mode != 1 && decide (b + n ≤ exposed h) && decide (b + n ≤ 2 ^ 42)

/-- R28 for a striped segment. -/
def Desc.stripeOk (d : Desc) : Bool :=
  let h := d.fgaBase / 2 ^ 42
  !d.stripe || (isSwitchId h && h % 8 == 0 && d.size % 0x1000000 == 0 && decide (d.fgaBase % 2 ^ 42 + d.size / 8 ≤ 0x16800000000))

/-- Why a descriptor with V set is malformed for a party of a partition (02 R32). slotOk: the key slot is assigned to the partition. -/
def Desc.malformed (d : Desc) (ctx partition : Nat) (slotOk : Bool) (exposed : Nat → Nat) : Bool :=
  d.reserved || d.length == 0 || d.context != ctx || d.partition != partition || !slotOk || !d.windowOk exposed
    || decide (d.cvaBase + d.size > 2 ^ 56) || !d.stripeOk

/-- Kinds of access, with the permission each needs (02 R39). -/
def Desc.permits (d : Desc) (write atomic : Bool) : Bool := if atomic then d.a else if write then d.w else d.r

/-! ### CVA ranges -/

/-- A range cut at multiples of n: pieces of start and length, ascending. -/
def cutRange (n : Nat) : (fuel : Nat) → (cva len : Nat) → List (Nat × Nat)
  | 0, _, _ => []
  | k + 1, cva, len =>
    if len = 0 then []
    else
      let m := min len (n - cva % n)
      (cva, m) :: cutRange n k (cva + m) (len - m)

/-- A range cut at every multiple of n. -/
def cutAt (n cva len : Nat) : List (Nat × Nat) := cutRange n (len / n + 2) cva len

/-- The parts of an access to one line each: home, offset, CVA and length, under a descriptor that covers it all (02 R40). -/
def Desc.parts (d : Desc) (unit cva len : Nat) : List (Nat × Nat × Nat × Nat) :=
  (cutAt unit cva len).map fun p => ((d.place (p.1 - d.cvaBase)).1, (d.place (p.1 - d.cvaBase)).2, p.1, p.2)

/-! ### MGMT payloads (23 R539) -/

/-- A 10-byte instant: seconds (6) and fraction (4). -/
def instantBytes (t : Nat) : List Byte := leBytes 6 (timeSec t % 2 ^ 48) ++ leBytes 4 (timeFrac t)

end Sys2Proof.Machine
end

