-- ==== Sys2Proof/Machine/Mgmt.lean ====
section
/-!
DEFINITION. MGMT frames between devices (23 R539): peers, floods, confirmations; and the choice and spread of the domain's
book (11 R306 to R309).
-/

namespace Sys2Proof.Machine

/-! ### Peers and floods -/

/-- The device at the other end of port p of the switch. -/
def Switch.peer (w : Switch) (p : Nat) : Nat :=
  if isEdge w.sys p then epId w.sys.rack p
  else (w.sys.rack + (if p < 56 then 1 else w.sys.racks - 1)) % w.sys.racks * 8 + w.sys.plane

/-- The switch at the other end of port p of the end-point. -/
def EndPoint.peer (e : EndPoint) (p : Nat) : Nat := epRack e.homeId * 8 + p

/-- MGMT subtypes. -/
def mHeartbeat : Nat := 0x01
def mHeartbeatAck : Nat := 0x02
def mSuspect : Nat := 0x03
def mVerdict : Nat := 0x04
def mFenceNotice : Nat := 0x05
def mAdmit : Nat := 0x06
def mReadmit : Nat := 0x07
def mConfig : Nat := 0x08
def mConfirm : Nat := 0x09
def mBookReport : Nat := 0x0A
def mBookSet : Nat := 0x0B
def mBookAck : Nat := 0x0C
def mPowerReq : Nat := 0x0D
def mPowerAck : Nat := 0x0E
def mSlotClose : Nat := 0x0F
def mSlotOpen : Nat := 0x10

/-- A device sends a MGMT frame out of a port to the device there. -/
def State.mgmtOut (s : State) (d : Dev) (p msub tag : Nat) (data : List Byte) : State :=
  match d with
  | .sw => s.swSendPort outEscrow p (mgmtFrame (s.sw.peer p) s.sw.sys.homeId (s.sw.incFor (s.sw.peer p)) msub tag data)
  | .ep => s.epSend p (mgmtFrame (s.ep.peer p) s.ep.homeId (s.ep.inc.getD 0) msub tag data)

/-- CONFIRM of a frame received on a port (23 R539). -/
def State.sendConfirm (s : State) (d : Dev) (p tag : Nat) : State := s.mgmtOut d p mConfirm 0 (leBytes 2 tag)

/-- The relayed frames a device has seen. -/
def State.seenBy (s : State) (d : Dev) : List (Nat × List Byte) :=
  match d with
  | .sw => s.sw.mgmt.seen
  | .ep => s.ep.seen

def State.putSeen (s : State) (d : Dev) (l : List (Nat × List Byte)) : State :=
  match d with
  | .sw => s.onSw fun w => { w with mgmt := { w.mgmt with seen := l } }
  | .ep => s.onEp fun e => { e with seen := l }

/-- Send a relayed frame on every port that carries frames but these. -/
def State.sendPast (s : State) (d : Dev) (past : List Nat) (msub : Nat) (data : List Byte) : State :=
  s.each ((s.portsUp d).filter fun p => !past.contains p) fun s p => s.mgmtOut d p msub 0 data

/-- Send it on every port that carries frames but the one it came on. -/
def State.sendOn (s : State) (d : Dev) (came : Option Nat) (msub : Nat) (data : List Byte) : State := s.sendPast d came.toList msub data

/-- Item codes of CONFIG (23 R539), in an order of the model's own (DESIGN CHOICE, log 20). -/
def ciRegionSet : Nat := 1
def ciHandover : Nat := 2
def ciLostClear : Nat := 3
def ciRegionRead : Nat := 4
def ciHold : Nat := 5
def ciCeil : Nat := 6
def ciRank : Nat := 7
def ciStage : Nat := 8
def ciArm : Nat := 9
def ciDisarm : Nat := 10

/-- A device relays the first copy of a frame, identified by subtype and payload, on every port but these (23 R539). -/
def State.floodPast (s : State) (d : Dev) (past : List Nat) (msub : Nat) (data : List Byte) : State :=
  if (s.seenBy d).contains (msub, data) then s
  else
    -- a sender's new report is a new frame, whatever it reported before (11 R306)
    let old := (s.seenBy d).filter fun x => !(msub == mBookReport && x.1 == msub && slice x.2 2 2 == slice data 2 2)
    (s.putSeen d ((msub, data) :: old)).sendPast d past msub data

/-- Flood on every port but the one it came on. -/
def State.flood (s : State) (d : Dev) (came : Option Nat) (msub : Nat) (data : List Byte) : State := s.floodPast d came.toList msub data

/-! ### Schedule and clock of either device -/

def State.getSched (s : State) (d : Dev) : Sched :=
  match d with
  | .sw => s.sw.sched
  | .ep => s.ep.sched

def State.onSched (s : State) (d : Dev) (g : Sched → Sched) : State :=
  match d with
  | .sw => s.onSw fun w => { w with sched := g w.sched }
  | .ep => s.onEp fun e => { e with sched := g e.sched }

def State.getClock (s : State) (d : Dev) : Clock :=
  match d with
  | .sw => s.sw.clock
  | .ep => s.ep.clock

def State.onClock (s : State) (d : Dev) (g : Clock → Clock) : State :=
  match d with
  | .sw => s.onSw fun w => { w with clock := g w.clock }
  | .ep => s.onEp fun e => { e with clock := g e.clock }

def State.getGate (s : State) (d : Dev) (p : Nat) : GatePos :=
  match d with
  | .sw => s.sw.core.gate.get p {}
  | .ep => s.ep.gate.get p {}

def State.onGate (s : State) (d : Dev) (p : Nat) (g : GatePos → GatePos) : State :=
  match d with
  | .sw => s.onSw fun w => { w with core := { w.core with gate := w.core.gate.put p (g (w.core.gate.get p {})) } }
  | .ep => s.onEp fun e => { e with gate := e.gate.put p (g (e.gate.get p {})) }

/-- A step of fabric time. -/
def Clock.stepTo (c : Clock) (now : Nat) : Clock := { c with now := now, ppsEdge := c.ppsEdge.map fun e => e + now - c.now }

/-- Close the gates of TC1, TC2 and TC5 on a port, or on every port (11 R288, R305, R309). -/
def State.closePort (s : State) (d : Dev) (p : Nat) : State := s.onGate d p fun g => { g with closed := true }
def State.closeGates (s : State) (d : Dev) : State := s.each (List.range (portCount d)) fun s p => s.closePort d p

/-- The instant of cycle k of a package (11 R294). -/
def Package.instant (p : Package) (k : Nat) : Nat := p.base * tSec + k * p.cycleFlits * tFlit

/-- The number of the first cycle that begins at or after an instant. -/
def Package.cycleFrom (p : Package) (t : Nat) : Nat := ceilDiv (t - p.base * tSec) (p.cycleFlits * tFlit)

/-- The switch acts as time master. -/
def Switch.isMaster (w : Switch) : Bool := (w.clock.master == w.sys.homeId && !w.clock.lost) || w.clock.acting

/-- A device runs a book: it is in holdover, or late, otherwise (11 R305). -/
def State.bookShown (s : State) (d : Dev) : Nat :=
  if (s.getClock d).holdover || (s.getSched d).late || (s.getSched d).active.isNone then 3 else (s.getSched d).book

/-! ### Reports and the master's choice (11 R306, R307) -/

/-- A change of the current book; a switch reports it as an event. -/
def State.takeBook (s : State) (d : Dev) (b : Nat) : State :=
  if (s.getSched d).book = b then s
  else
    let s := s.onSched d fun x => { x with book := b }
    match d with
    | .sw => s.setEvent evSched
    | .ep => s

/-- How much a book covers: main, narrow, slow. -/
def bookRank (b : Nat) : Nat := if b = 1 then 2 else if b = 2 then 1 else 0

/-- The book that the reports ask for. -/
def Sched.wanted (x : Sched) : Nat :=
  if x.reports.any fun r => r.2.1 then 1 else if x.reports.any fun r => r.2.2 then 2 else 0

/-- The book that runs, or is to run. -/
def Sched.target (x : Sched) : Nat := match x.pending_ with | some c => c.book | none => x.book

/-- Send BOOK_SET on a port and note it unacknowledged (11 R308). -/
def State.sendBookSet (s : State) (d : Dev) (p : Nat) (c : BookChange) (n : Nat) : State :=
  (s.onSched d fun x => { x with unacked := x.unacked.put p (c, n) }).mgmtOut d p mBookSet 0
    (leBytes 1 c.book ++ leBytes 8 c.cycle ++ leBytes 4 c.number)

/-- The master begins a change of book. -/
def State.changeBook (s : State) (b : Nat) : State :=
  let x := s.sw.sched
  let n := (x.changeCount + 1) % 2 ^ 32
  let k := match x.active with
    | some p => p.cycleFrom (s.now .sw + x.lead * tUs)
    | none => 0
  let c : BookChange := { book := b, cycle := k, number := n }
  let s := s.onSched .sw fun x => { x with changeCount := n, lastChange := n, seen := n :: x.seen,
                                           pending_ := if x.active.isSome then some c else none }
  let s := if x.active.isNone then s.takeBook .sw b else s
  s.each (s.portsUp .sw) fun s p => s.sendBookSet .sw p c 1

/-- The master decides: a book that covers more at once; one that covers fewer only when the return hold has ended. -/
def State.decideBook (s : State) (held : Bool) : State :=
  let x := s.sw.sched
  if !s.sw.isMaster || x.pending_.isSome || x.wanted == x.target then s
  else if decide (bookRank x.target < bookRank x.wanted) || held then s.changeBook x.wanted
  else s

/-- A report of needs reaches the master's own record. -/
def State.noteReport (s : State) (sender : Nat) (slow narrow : Bool) : State :=
  (s.onSched .sw fun x => { x with reports := x.reports.put sender (slow, narrow) }).decideBook false

/-- The switch reports its needs (11 R306). -/
def State.reportNeeds (s : State) : State :=
  let x := s.sw.sched
  let s := s.noteReport s.sw.sys.homeId x.slow x.narrow
  if s.sw.isMaster then s
  else s.flood .sw none mBookReport (leBytes 1 (b2n x.slow) ++ leBytes 1 (b2n x.narrow) ++ leBytes 2 s.sw.sys.homeId)

/-- NARROW: some port of the switch runs at half width, or trains again after it and has not reached ACTIVE at full width (14 R375; DEDUCED, log 125: the
need ends where such a port is fenced or goes down instead). -/
def Switch.narrowNow (w : Switch) : Bool := w.link.any fun l => l.2.narrowed

/-- Bring the NARROW need up to date. -/
def State.refreshNarrow (s : State) : State :=
  if s.sw.sched.narrow = s.sw.narrowNow then s
  else (s.onSched .sw fun x => { x with narrow := s.sw.narrowNow }).reportNeeds

/-- LATE of ES_SCHED_STATUS, or of EP_SCHED_STATUS, is set. -/
def State.setLate (s : State) (d : Dev) : State :=
  match d with
  | .sw => (s.onSw fun w => { w with host := { w.host with late := true } }).setEvent evSched
  | .ep => s.onEp fun e => { e with late := true }

/-! ### BOOK_SET at a device (11 R308, R309) -/

/-- A change of book takes effect at a device: pending, at once with no package, or late. -/
def State.takeChange (s : State) (d : Dev) (c : BookChange) : State :=
  match (s.getSched d).active with
  | none => s.takeBook d c.book
  | some p =>
    if s.now d ≤ p.instant c.cycle then s.onSched d fun x => { x with pending_ := some c }
    else
      let s := (s.onSched d fun x => { x with pending_ := some { c with cycle := p.cycleFrom (s.now d) }, late := true }).closeGates d
      match d with
      | .sw => (s.setLate .sw).record { kind := fBookLate, domain := 8 }
      | .ep => s.setLate .ep

/-- A BOOK_SET arrives on a port: acknowledged; its first copy is relayed and taken. -/
def State.bookSetArrives (s : State) (d : Dev) (p : Nat) (c : BookChange) : State :=
  let s := s.mgmtOut d p mBookAck 0 (leBytes 4 c.number)
  if (s.getSched d).seen.contains c.number then s
  else
    let s := s.onSched d fun x => { x with seen := c.number :: x.seen, lastChange := c.number, changeCount := c.number }
    let s := s.each ((s.portsUp d).filter (· != p)) fun s q => s.sendBookSet d q c 1
    s.takeChange d c

end Sys2Proof.Machine
end

