-- ==== Sys2Proof/Machine/Gates.lean ====
section
/-!
DEFINITION. Gate lists (11 R293 to R298): what is open on a port, and the steps from entry to entry.
-/

namespace Sys2Proof.Machine

/-- The default list: TC0, TC3, TC4, TC6 and TC7 open (11 R297). -/
def defaultGates : List (Nat × Nat) := [(0xD9, 0xFFFFFF)]

/-- The gate list that a port runs: that of the book in force, or the default list. -/
def State.gateList (s : State) (d : Dev) (p : Nat) : List (Nat × Nat) :=
  match (s.getSched d).active with
  | none => defaultGates
  | some k => k.gates.get ((s.getSched d).book * 64 + p) defaultGates

/-- Flit times for which a class stays open through the entries of a list, from its first, as far as n. -/
def openRun (cls : Nat) : (n : Nat) → List (Nat × Nat) → Nat
  | _, [] => 0
  | n, (m, d) :: t => if !bit m cls then 0 else if d ≥ n then d else d + openRun cls (n - d) t

/-- A port holds the scheduled classes closed (11 R288, R305, R309). -/
def State.schedClosed (s : State) (d : Dev) (p : Nat) : Bool :=
  (s.getGate d p).closed || (s.getClock d).holdover || (s.getSched d).late

/-- The cycle number, in the package that runs before it, of the boundary at which the armed package activates; with none running, its own. -/
def Sched.armedBoundary (x : Sched) : Option (Nat × Package × Nat) :=
  match x.armed, x.standby with
  | some c, some k => some ((match x.active with | some a => a.cycleFrom (k.instant c) | none => c), k, c)
  | _, _ => none

/-- The gate list that begins at the next cycle boundary of a port: that of an armed package that activates there, under the book that a pending
change brings there. -/
def State.nextList (s : State) (d : Dev) (p : Nat) : List (Nat × Nat) :=
  let x := s.getSched d
  let book := match x.pending_ with
    | some c => if c.cycle ≤ x.cycle + 1 then c.book else x.book
    | none => x.book
  let k := match x.armedBoundary with
    | some (n, k, _) => if x.active.isNone || n == x.cycle + 1 then some k else x.active
    | none => x.active
  match k with
  | none => defaultGates
  | some k => k.gates.get (book * 64 + p) defaultGates

/-- Flit times that are left of the entry that runs, by its place and duration. The default list's only entry begins again without end (11 R297):
none, until an armed package ends it. -/
def State.entryLeft (s : State) (d : Dev) (g : GatePos) (dur : Nat) : Option Nat :=
  let x := s.getSched d
  match x.active, x.armedBoundary with
  | some _, _ => some (dur - (s.now d - g.began) / tFlit)
  | none, some (_, k, c) => some ((k.instant c - s.now d) / tFlit)
  | none, none => none

/-- Whether a class's gate is open on a port and stays open for n further flit times (11 R295). -/
def State.gateOpen (s : State) (d : Dev) (p cls n : Nat) : Bool :=
  if [1, 2, 5].contains cls && s.schedClosed d p then false
  else
    let g := s.getGate d p
    let l := s.gateList d p
    match l.drop (if (s.getSched d).active.isNone then 0 else g.entry) with
    | [] => false
    | (m, dur) :: rest =>
      bit m cls && match s.entryLeft d g dur with
        | none => true
        | some left => decide (n ≤ left + (if decide (n ≤ left) then 0 else openRun cls (n - left) (rest ++ s.nextList d p)))

/-- Flit times that a frame with so many present slots needs an open gate (11 R295). -/
def gateNeed (slots : Nat) : Nat := ceilDiv (2 + slots) 15 + 1

/-- The next entry of a port's list begins; after the last, the first of the next cycle. -/
def State.nextEntry (s : State) (d : Dev) (p : Nat) : State :=
  let g := s.getGate d p
  let l := s.gateList d p
  let dur := ((l.drop g.entry).head?.map Prod.snd).getD 0
  s.onGate d p fun g => { g with entry := if g.entry + 1 < l.length then g.entry + 1 else 0, began := g.began + dur * tFlit }

/-- The entry that runs so many flit times into a cycle, and the flit times into the cycle at which it began. -/
def entryAt : (off : Nat) → List (Nat × Nat) → Nat × Nat
  | _, [] => (0, 0)
  | off, (_, dur) :: t => if off < dur then (0, 0) else let r := entryAt (off - dur) t; (r.1 + 1, r.2 + dur)

/-- After a step of fabric time the running package's cycle and every port's entry are those of the new time (11 R294). -/
def State.realign (s : State) (d : Dev) : State :=
  match (s.getSched d).active with
  | none => s
  | some a =>
    let flits := (s.now d - a.base * tSec) / tFlit
    let cycle := flits / a.cycleFlits
    let s := s.onSched d fun x => { x with cycle := cycle }
    s.each (List.range (portCount d)) fun s p =>
      let e := entryAt (flits % a.cycleFlits) (s.gateList d p)
      s.onGate d p fun g => { g with entry := e.1, began := a.instant cycle + e.2 * tFlit }

end Sys2Proof.Machine
end

