-- ==== Sys2Proof/Machine/EpBase.lean ====
section
/-!
DEFINITION. The AKG-8's ports, bindings and translations, and how its frames leave (24 R561 to R565, R572; 02 R38 to R41, R56;
03 R58, R76, R81).
-/

namespace Sys2Proof.Machine

/-! ### Events and bindings -/

/-- EP_EVENT bits (24 R572). -/
def eeBind : Nat := 0
def eeDesc : Nat := 1
def eeSlot : Nat := 2
def eeFence : Nat := 3
def eeThermal : Nat := 4

/-- Drive EP_ALERT_N: asserted while any bit of EP_EVENT is set. -/
def State.epAlert (s : State) : State :=
  let a := s.ep.event != 0
  if a = s.ep.alert then s else (s.onEp fun e => { e with alert := a }).emit (.pin .epAlertN (!a))

/-- Set a bit of EP_EVENT. -/
def State.epEvent (s : State) (b : Nat) : State := (s.onEp fun e => { e with event := e.event ||| (1#32 <<< b) }).epAlert

/-- The fields of an agent's binding (24 R562). -/
def EndPoint.bound (e : EndPoint) (a : Nat) : BitVec 64 := e.bind.get a 0
def bindV (b : BitVec 64) : Bool := b.getLsbD 0
def bindCore (b : BitVec 64) : Nat := bits b.toNat 1 6
def bindNoCache (b : BitVec 64) : Bool := b.getLsbD 7
def bindCtx (b : BitVec 64) : Nat := bits b.toNat 8 16
def bindPart (b : BitVec 64) : Nat := bits b.toNat 24 4

def EndPoint.coreOf (e : EndPoint) (a : Nat) : Nat := bindCore (e.bound a)
def EndPoint.ctxOf (e : EndPoint) (a : Nat) : Nat := bindCtx (e.bound a)
def EndPoint.partOf (e : EndPoint) (a : Nat) : Nat := bindPart (e.bound a)
def EndPoint.noCache (e : EndPoint) (a : Nat) : Bool := bindNoCache (e.bound a)

/-- An agent is refused with FENCED (24 R565 check 1): a verdict, or a fence that some port holds. -/
def EndPoint.agentRefused (e : EndPoint) (a : Nat) : Bool := e.verdict || !(e.agentFence.get a []).isEmpty

def EndPoint.portLive (e : EndPoint) (p : Nat) : Bool := (e.getLink p).state == .active

/-- A port that is neither down nor fenced: a frame for one in NAP or REST wakes it (02 R41, 20 R489), and stays queued while it trains again. -/
def EndPoint.portUp (e : EndPoint) (p : Nat) : Bool := (e.getLink p).carries

/-- The port for a request: the plane of a switch home, or of the 4 KiB block of an end-point home (24 R561). -/
def epPort (home off : Nat) : Nat := if isSwitchId home then home % 8 else off / 0x1000 % 8

/-! ### Frames leave -/

/-- Whether a frame may leave port p now. -/
def State.epMay (s : State) (p : Nat) (f : Frame) : Bool :=
  let e := s.ep
  e.portLive p && !e.off && (e.getLink p).window
    && (!e.verdict || (f.typ == ftMgmt && f.msub == mHeartbeatAck))
    && (e.inc.isSome || f.typ == ftMgmt)
    && s.gateOpen .ep p f.cls (gateNeed f.slots)
    && decide (e.spent.get (p * 16 + f.cls) 0 + f.cells ≤ 256)

/-- A response to a memory request. -/
def isResponse (t : Nat) : Bool := [ftReadRsp, ftWriteRsp, ftAtomicRsp].contains t

/-- A frame's header leaves the end-point: stamped now (03 R76), with its own incarnation (R58), its credits spent. -/
def State.epLeave (s : State) (p : Nat) (f : Frame) : State :=
  let g := { f with age := ageStamp (s.now .ep) f.cls, inc := s.ep.inc.getD 0 }
  (s.onEp fun e => { e with
    outq := e.outq.put (p * 8 + f.cls) ((e.outq.get (p * 8 + f.cls) []).drop 1)
    spent := e.spent.put (p * 16 + f.cls) (e.spent.get (p * 16 + f.cls) 0 + f.cells)
    flight := if isRequest f.typ then e.flight.map fun x => if x.port == p && x.tag == f.tag then { x with sent := true } else x else e.flight }).emit (.frame .ep p g)

/-- Send what one queue may send. -/
def State.drainQueue (s : State) (p cls : Nat) : (fuel : Nat) → State
  | 0 => s
  | n + 1 => match s.ep.outq.get (p * 8 + cls) [] with
    | [] => s
    | f :: _ => if s.epMay p f then (s.epLeave p f).drainQueue p cls n else s

/-- A port in NAP or REST wakes: from NAP it resumes, from REST it trains again (20 R492, 14 R379). An AKG-8 port has no stages of its own. -/
def State.epWake (s : State) (p : Nat) : State :=
  let l := s.ep.getLink p
  if l.state = .nap then s.putLink .ep p { l with state := .active, power := 0 }
  else if l.state = .rest then (s.putLink .ep p { l with state := .detect, power := 0, waking := true }).emit (.tickClock .ep p)
  else s

/-- A frame that waits for a port in NAP or REST wakes it, and the partner by Chime (20 R489). -/
def State.epChime (s : State) (p : Nat) : State :=
  if [PortState.nap, .rest].contains (s.ep.getLink p).state && (List.range 8).any fun c => !(s.ep.outq.get (p * 8 + c) []).isEmpty then
    (s.emit (.chime .ep p)).epWake p
  else s

/-- Send every frame that may leave, class by class in the order of the matcher. -/
def State.epDrain (s : State) : State :=
  let s := s.each (List.range 8) State.epChime
  s.each (List.range 8) fun s p => s.each [2, 5, 1, 6, 4, 7, 3, 0] fun s c => s.drainQueue p c (s.ep.outq.get (p * 8 + c) []).length

/-! ### Arrival -/

/-- Whether the end-point takes a frame by its INCARNATION (03 R58): every frame but ADMIT and a VERDICT or READMIT that names it. -/
def EndPoint.accepts (e : EndPoint) (f : Frame) : Bool :=
  let named := field f.data 0 2 == e.homeId && (f.msub == mVerdict || f.msub == mReadmit)
  (f.typ == ftMgmt && (f.msub == mAdmit || named)) || e.inc == some f.inc

/-- A frame arrives on port p: its cells are taken at once and their credits returned (13 R351, R352). g: what it does, if it is taken. -/
def State.epTake (s : State) (p : Nat) (f : Frame) (g : State → State) : State :=
  if !s.ep.portLive p || s.ep.off then s
  else
    let s := s.emit (.ctrl .ep p (.credit [(f.cls, f.cells)]))
    if s.ep.accepts f then g s else s

/-! ### Tags -/

/-- The lowest tag free on a port (03 R81). -/
def EndPoint.freeTag (e : EndPoint) (p : Nat) : Option Nat :=
  (List.range 4096).find? fun t => (e.flight.all fun x => !(x.port == p && x.tag == t)) && !e.quarantine.contains (p * 4096 + t)

def EndPoint.flightAt (e : EndPoint) (p t : Nat) : Option EpFlight := e.flight.find? fun x => x.port == p && x.tag == t

def State.dropEpFlight (s : State) (p t : Nat) : State :=
  s.onEp fun e => { e with flight := e.flight.filter fun x => !(x.port == p && x.tag == t) }

/-- Note a request in flight and queue its frame. The request that had its tag before has completed, and no invalidation waits for it (02 R51). -/
def State.launch (s : State) (x : EpFlight) : State :=
  (s.onEp fun e => { e with flight := e.flight ++ [x]
                            invals := e.invals.map fun z => { z with drain := z.drain.filter (· != x.port * 4096 + x.tag) } }).epSend x.port x.f

/-- Take the frame of a request that has not begun to leave back from its queue. -/
def State.withdraw (s : State) (x : EpFlight) : State :=
  let k := x.port * 8 + x.f.cls
  s.onEp fun e => { e with outq := e.outq.put k ((e.outq.get k []).filter fun f => !(isRequest f.typ && f.tag == x.tag))
                           flight := e.flight.filter fun y => !(y.port == x.port && y.tag == x.tag) }

/-! ### Translations -/

/-- A held translation of an agent that covers a CVA: first level, then second with a copy into the first (02 R38). -/
def State.epLookup (s : State) (a cva : Nat) : Option Held × State :=
  let ctx := s.ep.ctxOf a
  let hit (h : Held) := h.ctx == ctx && h.desc.covers cva
  let put (n : Nat) (h : Held) (l : List Held) := (h :: l.filter fun x => !(x.ctx == h.ctx && x.seg == h.seg)).take n
  match (s.ep.l1.get a []).find? hit with
  | some h => (some h, s.onEp fun e => { e with l1 := e.l1.put a (put 8 h (e.l1.get a [])) })
  | none => match s.ep.l2.find? hit with
    | some h => (some h, s.onEp fun e => { e with l1 := e.l1.put a (put 8 h (e.l1.get a [])), l2 := put 1024 h e.l2 })
    | none => (none, s)

/-- Install a translation for an agent in both levels. The segment number, which an answer does not carry, is taken as the segment's place in its
context. -/
def State.epHold (s : State) (a ctx : Nat) (d : Desc) : State :=
  let h : Held := { ctx := ctx, seg := d.cvaBase, desc := d }
  let put (n : Nat) (l : List Held) := (h :: l.filter fun x => !(x.ctx == ctx && x.desc.cvaBase == d.cvaBase)).take n
  s.onEp fun e => { e with l1 := e.l1.put a (put 8 (e.l1.get a [])), l2 := put 1024 e.l2 }

/-- Port on which translation misses leave: plane 0, else plane 1 where that of plane 0 is down or fenced (02 R41). -/
def EndPoint.xlatPort (e : EndPoint) : Option Nat := if e.portUp 0 then some 0 else if e.portUp 1 then some 1 else none

/-- What becomes of a miss: no translation switch can be reached (02 R56), or the answer is awaited. -/
inductive MissOut where
  | unreachable
  | waits
  /-- no tag is free -/
  | noTag

/-- Ask for a translation for one access: the serving switch merges misses and counts each access that fails (02 R43, R45). -/
def State.epMiss (s : State) (who : EpWaiter) (a cva : Nat) : MissOut × State :=
  let ctx := s.ep.ctxOf a
  match s.ep.xlatPort with
  | none => (.unreachable, s.onEp fun e => { e with l1 := [], l2 := [] })
  | some p => match s.ep.freeTag p with
    | none => (.noTag, s)
    | some t =>
      let f : Frame := { dest := ctx / 8192 * 8 + p, src := s.ep.homeId, agent := a, partition := s.ep.partOf a, cls := 3, typ := ftTranslateReq, tag := t,
                         opx := opxAt ctx 36, ext := BitVec.ofNat 64 (cva % 2 ^ 56) }
      (.waits, s.launch { port := p, tag := t, agent := a, kind := .translate who cva, f := f, ctx := ctx, cva := cva })

/-- Drop every held translation when neither translation switch can be reached (02 R56). -/
def State.epUnreachable (s : State) : State :=
  if s.ep.xlatPort.isNone then s.onEp fun e => { e with l1 := [], l2 := [] } else s

end Sys2Proof.Machine
end

