-- ==== Sys2Proof/Machine/EpCache.lean ====
section
/-!
DEFINITION. The remote line cache of the AKG-8 (24 R566 to R568; 04 R98 to R102; 05 R113, R126 to R137).
-/

namespace Sys2Proof.Machine

/-- The set of a line (24 R567). fga: the line's address, a multiple of 128. -/
def rlcSet (fga : Nat) : Nat := ((fga >>> 7) ^^^ (fga >>> 21)) % 16384

/-- The address of the line that holds a byte. -/
def lineOf (fga : Nat) : Nat := fga / 128 * 128

def CState.coherent : CState → Bool
  | .s | .e | .m | .o => true
  | _ => false

def CState.dirty : CState → Bool
  | .m | .o => true
  | _ => false

/-- The cached line, a SNAPSHOT line of another generation counting as absent (04 R100). -/
def EndPoint.way (e : EndPoint) (fga : Nat) : Option Way :=
  e.cache.find? fun w => w.fga == fga && (w.state != .snap || w.gen == e.gen.get w.partition 0)

/-- The way that holds a line, current or not. -/
def EndPoint.anyWay (e : EndPoint) (fga : Nat) : Option Way := e.cache.find? fun w => w.fga == fga

/-- Put a way in front: the most recently used. -/
def State.putWay (s : State) (w : Way) : State := s.onEp fun e => { e with cache := w :: e.cache.filter fun x => x.fga != w.fga }

/-- Change the way of a line in place. -/
def State.onWay (s : State) (fga : Nat) (g : Way → Way) : State :=
  s.onEp fun e => { e with cache := e.cache.map fun x => if x.fga == fga then g x else x }

/-- Use a way: it becomes the most recently used. -/
def State.touch (s : State) (fga : Nat) : State :=
  match s.ep.anyWay fga with
  | some w => s.putWay w
  | none => s

/-- A frame of the coherence class from the end-point to the home of a line (05 R128). -/
def EndPoint.cohFrame (e : EndPoint) (typ dest fga partition slot tag : Nat) : Frame :=
  { dest := dest, src := e.homeId, partition := partition, cls := 6, typ := typ, tag := tag, keySlot := slot, offset := fga % 2 ^ 42 }

/-- Drop a line; an M or O line is written back when it is evicted (05 R132). -/
def State.dropWay (s : State) (fga : Nat) (back : Bool) : State :=
  match s.ep.anyWay fga with
  | none => s
  | some w =>
    let s := s.onEp fun e => { e with cache := e.cache.filter fun x => x.fga != fga }
    if back && w.state.dirty then
      let home := fga / 2 ^ 42
      let f := (s.ep.cohFrame ftWriteback home fga w.partition w.keySlot 0).withData w.data
      (s.onEp fun e => { e with wbRecord := (fga :: e.wbRecord).take 64 }).epSend (epPort home (fga % 2 ^ 42)) f
    else s

/-- Lines that a CLAIM in flight keeps, and those reserved for a read in flight (24 R568). -/
def EndPoint.pinned (e : EndPoint) (fga : Nat) : Bool :=
  e.flight.any fun x => x.f.typ == ftClaim && x.f.dest * 2 ^ 42 + x.f.offset == fga

/-- COHERENT ways held and reserved. -/
def EndPoint.cohCount (e : EndPoint) : Nat :=
  (e.cache.filter fun w => w.state.coherent).length + (e.reserved.filter fun r => e.cache.all fun w => !(w.fga == r && w.state.coherent)).length

/-- The COHERENT limit, 8 MiB of ways. -/
def cohLimit : Nat := 65536

/-- Make room for one more COHERENT line (24 R568). -/
def State.cohRoom (s : State) (fga : Nat) : State :=
  if (s.ep.cache.any fun w => w.fga == fga && w.state.coherent) || s.ep.reserved.contains fga || s.ep.cohCount < cohLimit then s
  else match (s.ep.cache.filter fun w => w.state.coherent && !s.ep.pinned w.fga && !w.hold).getLast? with
    | some w => s.dropWay w.fga true
    | none => s

def State.unreserve (s : State) (fga : Nat) : State := s.onEp fun e => { e with reserved := e.reserved.filter (· != fga) }

/-- Ways of a line's set that are reserved for a request in flight and hold no line yet. -/
def EndPoint.setReserved (e : EndPoint) (fga : Nat) : List Nat :=
  e.reserved.filter fun r => rlcSet r == rlcSet fga && e.cache.all fun w => w.fga != r

/-- The way that makes room in a full set: the least recently used that no CLAIM in flight keeps and that is not under the hold of R126. -/
def EndPoint.victim (e : EndPoint) (set : List Way) : Option Way :=
  ((set.filter fun x => !e.pinned x.fga && !x.hold).getLast?).orElse fun _ => set.getLast?

/-- Make room for one more line in its set, replacing the least recently used way of a full one (24 R567). -/
def State.setRoom (s : State) (fga : Nat) : State :=
  let set := s.ep.cache.filter fun x => rlcSet x.fga == rlcSet fga
  if set.length + (s.ep.setReserved fga).length < 16 then s
  else match s.ep.victim set with
    | some v => s.dropWay v.fga true
    | none => s

/-- Reserve a way for a READ_SHARED, READ_OWN or CLAIM, within the COHERENT limit and in the line's set (24 R568). -/
def State.reserve (s : State) (fga : Nat) : State :=
  let s := s.cohRoom fga
  let s := if (s.ep.anyWay fga).isSome || s.ep.reserved.contains fga then s else s.setRoom fga
  s.onEp fun e => { e with reserved := fga :: e.reserved.filter (· != fga) }

/-- Every way of the line's set is reserved for another line: a request that would reserve one waits. -/
def EndPoint.noReserve (e : EndPoint) (fga : Nat) : Bool :=
  (e.anyWay fga).isNone && !e.reserved.contains fga && decide (16 ≤ (e.setReserved fga).length)

/-- Install a line, in the way that it has or in room made for it. -/
def State.install (s : State) (w : Way) : State :=
  let s := if w.state.coherent then s.cohRoom w.fga else s
  let s := s.onEp fun e => { e with cache := e.cache.filter fun x => x.fga != w.fga, reserved := e.reserved.filter (· != w.fga) }
  (s.setRoom w.fga).putWay w

/-- Bytes d in a line at position pos. -/
def patch (line : List Byte) (pos : Nat) (d : List Byte) : List Byte := line.take pos ++ d ++ line.drop (pos + d.length)

/-- A read in flight delivers its data, but is not installed: something passed it (04 R94, R102, 05 R119). -/
def State.spoil (s : State) (p : EpFlight → Bool) : State :=
  s.onEp fun e => { e with flight := e.flight.map fun x => if p x && (x.f.typ == ftRead || x.f.typ == ftReadShared) then { x with noInstall := true } else x }

/-- The lines of a flight's frame. -/
def EpFlight.fga (x : EpFlight) : Nat := lineOf (x.f.dest * 2 ^ 42 + x.f.offset)

/-- An access sent to the home passes the line's copies: reads of SNAPSHOT and OWNED lines in flight do not install. -/
def State.passed (s : State) (fga : Nat) : State := s.spoil fun x => x.fga == fga && x.desc.mode != 1

/-- Discard the SNAPSHOT and OWNED lines that p selects. -/
def State.discardLines (s : State) (p : Way → Bool) : State :=
  s.onEp fun e => { e with cache := e.cache.filter fun w => w.state.coherent || !p w }

/-- Advance the snapshot generation of a partition (04 R101). -/
def State.advanceGen (s : State) (part : Nat) : State :=
  let g := (s.ep.gen.get part 0 + 1) % 256
  let s := s.onEp fun e => { e with gen := e.gen.put part g
                                    flight := e.flight.map fun x => if x.f.partition = part then { x with genPast := true } else x }
  if g = 0 then s.onEp fun e => { e with cache := e.cache.filter fun w => !(w.state == .snap && w.partition == part) } else s

/-! ### Snoops (05 R126 to R129, R137) -/

def EndPoint.gone (e : EndPoint) (fga : Nat) : Nat := if e.wbRecord.contains fga then 5 else 0

/-- SNOOP_RSP on the port where the snoop arrived. -/
def State.snoopRsp (s : State) (p : Nat) (f : Frame) (fga result : Nat) : State :=
  s.epSend p { s.ep.cohFrame ftSnoopRsp f.src fga f.partition f.keySlot f.tag with opx := opxAt result 36 }

/-- Answer a SNOOP or a line BACK_INV. -/
def State.answerSnoop (s : State) (p : Nat) (f : Frame) : State :=
  let fga := f.src * 2 ^ 42 + lineOf f.offset
  match (s.ep.anyWay fga).filter fun w => w.state.coherent with
  | none => s.snoopRsp p f fga (s.ep.gone fga)
  | some w =>
    if f.typ = ftBackInv then
      if w.state.dirty then s.dropWay fga true else (s.dropWay fga false).snoopRsp p f fga 1
    else
      let k := f.opxBits 38 36
      if k = 2 ∨ w.state = .s then (s.dropWay fga false).snoopRsp p f fga 1
      else if k = 0 ∨ k = 1 then
        let cache := if k = 0 then 1 else if w.state.dirty then 3 else 2
        let fwd := ({ s.ep.cohFrame ftFwdData (f.extBits 9 0) fga f.partition f.keySlot (f.extBits 21 10) with agent := f.extBits 27 22 }.withData w.data).withCache cache
        let s := s.epSend p fwd
        if k = 0 then (s.onWay fga fun x => { x with state := if x.state.dirty then .o else .s }).snoopRsp p f fga (if w.state.dirty then 3 else 2)
        else (s.dropWay fga false).snoopRsp p f fga 4
      else
        let fwd := (s.ep.cohFrame ftFwdData f.src fga f.partition f.keySlot f.tag).withData w.data
        let s := s.epSend p fwd
        if k = 3 then (s.onWay fga fun x => { x with state := .s }).snoopRsp p f fga 2
        else (s.dropWay fga false).snoopRsp p f fga 4

/-- A SNOOP or line BACK_INV arrives: held while the line is under the hold of R126. -/
def State.snoopArrives (s : State) (p : Nat) (f : Frame) : State :=
  let fga := f.src * 2 ^ 42 + lineOf f.offset
  if (s.ep.anyWay fga).any (·.hold) then s.onEp fun e => { e with snoops := e.snoops ++ [{ port := p, fga := fga, f := f }] }
  else s.answerSnoop p f

/-- The hold of a line ends: the snoops held for it are honoured in order, also where the line has gone meanwhile (05 R127). -/
def State.holdEnd (s : State) (fga : Nat) : State :=
  let s := s.onWay fga fun w => { w with hold := false }
  let mine := s.ep.snoops.filter fun h => h.fga == fga
  let s := s.onEp fun e => { e with snoops := e.snoops.filter fun h => h.fga != fga }
  s.each mine fun s h => s.answerSnoop h.port h.f

/-! ### Deposit fills (05 R136) -/

/-- Whether a fill may be installed. The frame names no context: an agent of its partition is what makes the fill of use here (DESIGN
CHOICE, log 79). -/
def EndPoint.takesFill (e : EndPoint) (fga partition : Nat) (coherent : Bool) : Bool :=
  let set := e.cache.filter fun w => rlcSet w.fga == rlcSet fga
  let res := e.setReserved fga
  ((List.range 64).any fun a => bindV (e.bound a) && e.partOf a == partition)
    && (!coherent || (e.cache.any fun w => w.fga == fga && w.state.coherent) || decide (e.cohCount < cohLimit))
    && ((e.cache.any fun w => w.fga == fga) || decide (set.length + res.length < 16)
        || set.any fun w => !w.state.dirty && !w.hold && !e.pinned w.fga)

/-- Free the least recently used way that may be dropped at once of a set whose other ways hold lines or are reserved. -/
def State.freeForFill (s : State) (fga : Nat) : State :=
  let set := s.ep.cache.filter fun w => rlcSet w.fga == rlcSet fga && w.fga != fga
  if set.length + ((s.ep.setReserved fga).filter (· != fga)).length < 16 then s
  else match (set.filter fun w => !w.state.dirty && !w.hold && !s.ep.pinned w.fga).getLast? with
    | some v => s.dropWay v.fga false
    | none => s

/-- The state in which a fill with this CACHE value is installed; none for a value that installs nothing. -/
def fillState (cache : Nat) : Option CState := match cache with | 1 => some .s | 2 => some .e | 3 => some .m | 4 => some .snap | 5 => some .owned | _ => none

/-- The die has a store of its own on its way to a line, other than a DEPOSIT whose fill comes here. -/
def EndPoint.storeOut (e : EndPoint) (fga : Nat) : Bool :=
  e.flight.any fun x => x.fga == fga
    && ([ftWrite, ftWriteLog, ftAtomic].contains x.f.typ || (x.f.typ == ftDeposit && x.f.ext.toNat != e.homeId))

/-- A DEPOSIT_FILL arrives: installed or declined, and answered with COH_ACK. No read fetched its line: a SNAPSHOT one takes the generation
current at the fill's arrival (DESIGN CHOICE, log 80). A SNAPSHOT or OWNED fill that crosses a store of the die's own to its line is dropped as soon
as it is installed, so that no agent reads the line without the store (04 R94; DEDUCED, log 105). -/
def State.depositFill (s : State) (p : Nat) (f : Frame) : State :=
  let fga := f.src * 2 ^ 42 + lineOf f.offset
  let ack (s : State) (decline : Nat) : State := s.epSend p { s.ep.cohFrame ftCohAck f.src fga f.partition f.keySlot f.tag with opx := opxAt decline 36 }
  match fillState f.cache with
  | none => ack s 1
  | some c =>
    if s.ep.takesFill fga f.partition c.coherent then
      let s := s.freeForFill fga
      let s := s.install { fga := fga, partition := f.partition, keySlot := f.keySlot, state := c, gen := s.ep.gen.get f.partition 0, data := padTo 128 f.data }
      ack (s.ifThen (s.ep.storeOut fga) fun s => s.discardLines fun w => w.fga == fga) 0
    else ack s 1

/-! ### Answers to the end-point's own reads and grants (05 R113, R124, R126) -/

/-- Install what a read or grant brings, as CACHE allows, and acknowledge a grant. -/
def State.fillFrom (s : State) (x : EpFlight) (rsp : Frame) : State :=
  let fga := x.fga
  let s := s.unreserve fga
  if rsp.status ≠ stOk then s
  else
    let grants := [ftReadShared, ftReadOwn, ftClaim].contains x.f.typ
    let data := padTo rsp.length rsp.data
    let way (c : CState) (hold : Bool) (d : List Byte) : Way :=
      { fga := fga, partition := x.f.partition, keySlot := x.f.keySlot, state := c, gen := x.gen, data := d, hold := hold }
    let coh (c : CState) (s : State) : State :=
      let hold := decide (s.ep.tHold ≠ 0) && (c != .s || x.f.typ == ftClaim)
      let s := if x.f.typ = ftClaim then
          match s.ep.anyWay fga with
          | some w => if w.state.coherent then s.install (way c hold w.data) else s
          | none => s
        else if data.length = 128 then s.install (way c hold data) else s
      if grants then s.epSend (epPort x.f.dest x.f.offset) (s.ep.cohFrame ftCohAck x.f.dest fga x.f.partition x.f.keySlot x.f.tag) else s
    let plain (c : CState) (s : State) : State :=
      if x.noInstall ∨ data.length ≠ 128 ∨ (c = .snap ∧ x.genPast) then s else s.install (way c false data)
    match rsp.cache with
    | 1 => coh .s s
    | 2 => coh .e s
    | 3 => coh .m s
    | 4 => plain .snap s
    | 5 => plain .owned s
    | _ => s

end Sys2Proof.Machine
end

