-- ==== Sys2Proof/Machine/EpReq.lean ====
section
/-!
DEFINITION. The AKG-8's sending path: checks of a REQ, order, the core stage, the store path of COHERENT lines, answers, completion
timeouts and fences (24 R563 to R569; 02 R38 to R40; 03 R80 to R86; 04 R90 to R106).
-/

namespace Sys2Proof

/-- A REQ operation that needs W, one that needs A, one that a flagged frame must not pass when it fails (03 R86). -/
def ReqOp.writes : ReqOp → Bool
  | .write | .deposit => true
  | _ => false

def ReqOp.stores : ReqOp → Bool
  | .write | .deposit | .atomic => true
  | _ => false

/-- Requests that an acquire fence holds and waits for (04 R93). -/
def ReqOp.observes : ReqOp → Bool
  | .read | .readVol | .atomic => true
  | _ => false

/-- SCHED selects TC1, its absence TC3 (24 R565). -/
def Req.cls (r : Req) : Nat := if r.sched then 1 else 3

end Sys2Proof

namespace Sys2Proof.Machine

/-- A request cut into indivisible lines (24 R559); an ATOMIC is one operand. -/
def reqPieces (r : Req) : List Piece :=
  if r.op = .atomic then [{ cva := r.cva, len := atomicSize (aopOf r.aop) r.length, data := padTo r.length r.data }]
  else (cutAt 128 r.cva r.length).map fun p => { cva := p.1, len := p.2, data := if r.op.writes then slice r.data (p.1 - r.cva) p.2 else [] }

def State.onReq (s : State) (order : Nat) (g : EpReq → EpReq) : State :=
  s.onEp fun e => { e with reqs := e.reqs.map fun q => if q.order = order then g q else q }

def State.onPiece (s : State) (order i : Nat) (g : Piece → Piece) : State :=
  s.onReq order fun q => { q with pieces := q.pieces.modify i g }

/-- A piece has its status. -/
def State.endPiece (s : State) (order i status : Nat) (rsp : List Byte) : State :=
  s.onPiece order i fun p => { p with started := true, status := some status, rsp := rsp }

/-! ### Completion of a request -/

def EpReq.accel (q : EpReq) : Bool := q.for_ == .accel

/-- Earlier requests of the agent's own, in its class or in all. -/
def EndPoint.earlier (e : EndPoint) (q : EpReq) (sameClass : Bool) : List EpReq :=
  e.reqs.filter fun x => x.accel && x.r.agent == q.r.agent && decide (x.order < q.order) && (!sameClass || x.r.cls == q.r.cls)

/-- A failed store of an agent: noted for its next SYSTEM release, and it fails the flagged requests that wait for it (03 R86, 04 R91). -/
def State.noteFailed (s : State) (a cls order status : Nat) : State :=
  let first (o : Option (Nat × Nat)) : Option (Nat × Nat) := match o with
    | some x => if x.1 < order then some x else some (order, status)
    | none => some (order, status)
  s.onEp fun e => { e with
    badWrite := e.badWrite.put a (e.badWrite.get a [] ++ [(order, status)])
    reqs := e.reqs.map fun q =>
      if q.accel && q.r.f && q.r.agent == a && q.r.cls == cls && decide (order < q.order) && q.pieces.all (fun p => !p.started) then
        { q with fail := first q.fail } else q }

/-- An accelerator request completes with CPL. A request of a collective call keeps its result, which the call takes. -/
def State.endReq (s : State) (q : EpReq) (status : Nat) (data : List Byte) : State :=
  if q.accel then
    let s := s.onEp fun e => { e with reqs := e.reqs.filter fun x => x.order != q.order }
    let s := if status ≠ stOk ∧ q.r.op.stores then s.noteFailed q.r.agent q.r.cls q.order status else s
    s.emit (.cpl q.r.utag status (if status = stOk then data else []))
  else s.onReq q.order fun x => { x with checked := true, xwait := none,
                                         pieces := x.pieces.map fun p => { p with started := true, status := some (p.status.getD status) } }

def EpReq.finished (q : EpReq) : Bool := q.checked && q.pieces.all fun p => p.status.isSome

/-- The status of the failing line with the lowest address, or OK (24 R559). -/
def EpReq.status (q : EpReq) : Nat := ((q.pieces.filterMap (·.status)).find? (· != stOk)).getD stOk

def State.completeReq (s : State) (q : EpReq) : Option State :=
  if q.accel && q.finished then some (s.endReq q q.status (q.pieces.flatMap (·.rsp))) else none

/-! ### Checks (24 R565) -/

/-- Status with which an access under a descriptor is refused (24 R564, 21 R508, R513), and whether EP_EVENT notes it. -/
def EndPoint.descRefuses (e : EndPoint) (a : Nat) (d : Desc) (op : ReqOp) : Option (Nat × Bool) :=
  if d.partition ≠ e.partOf a then some (stSegFault, true)
  else if e.closed.contains d.keySlot || e.removed.contains d.partition || !d.permits op.writes (op == .atomic) then some (stSegFault, false)
  else none

/-- The translation of pieces by what is held. -/
inductive Cover where
  | ok (l : List Piece)
  | refused (status : Nat) (event : Bool)
  | miss (cva : Nat)

/-- A piece under a descriptor (02 R40). -/
def Piece.at_ (p : Piece) (d : Desc) : Piece :=
  { p with desc := some d, home := (d.place (p.cva - d.cvaBase)).1, off := (d.place (p.cva - d.cvaBase)).2 }

def State.cover (s : State) (a : Nat) (op : ReqOp) : List Piece → Cover × State
  | [] => (.ok [], s)
  | p :: t => match s.epLookup a p.cva with
    | (none, s) => (.miss p.cva, s)
    | (some h, s) => match s.ep.descRefuses a h.desc op with
      | some r => (.refused r.1 r.2, s)
      | none => match s.cover a op t with
        | (.ok l, s) => (.ok (p.at_ h.desc :: l), s)
        | r => r

/-- Checks 2 to 4 of a request; none: it must wait. -/
def State.checkReq (s : State) (q : EpReq) : Option State :=
  if q.checked || q.xwait.isSome then none
  else if q.r.op = .atomic ∧ !atomicOk q.r.aop q.r.ext q.r.cva q.r.length then some (s.endReq q stBadAddress [])
  else if q.pieces.any fun p => decide (2 ^ 56 < p.cva + p.len) then some (s.endReq q stSegFault [])
  else match s.cover q.r.agent q.r.op q.pieces with
    | (.refused st ev, s) => some ((s.ifThen ev fun s => s.epEvent eeDesc).endReq q st [])
    | (.miss cva, s) => match s.epMiss (.req q.order) q.r.agent cva with
      | (.unreachable, s) => some (s.endReq q stSegFault [])
      | (.waits, s) => some (s.onReq q.order fun x => { x with xwait := some cva })
      | (.noTag, _) => none
    | (.ok l, s) =>
      if l.all fun p => s.ep.portUp (epPort p.home p.off) then some (s.onReq q.order fun x => { x with checked := true, pieces := l })
      else some (s.endReq q stFenced [])

/-- A REQ arrives: checks 1 and the binding at once, the rest as it is taken. -/
def State.epReq (s : State) (r : Req) (for_ : ReqFor) : State :=
  let q : EpReq := { r := r, order := s.ep.orderCount, for_ := for_, pieces := reqPieces r }
  let s := s.onEp fun e => { e with orderCount := e.orderCount + 1, reqs := e.reqs ++ [q] }
  if s.ep.agentRefused r.agent then s.endReq q stFenced []
  else if !bindV (s.ep.bound r.agent) then s.endReq q stSegFault []
  else s

/-! ### Order within an agent (03 R82, R85; 04 R90, R93) -/

/-- A flagged request waits for every earlier request of its agent in its class. -/
def EndPoint.flagHeld (e : EndPoint) (q : EpReq) : Bool := q.r.f && q.accel && !(e.earlier q true).isEmpty

/-- A held flagged request that the source holds: its frames are among the agent's first four flagged ones of its class. A fifth frame waits
at the agent (03 R85). -/
def EndPoint.sourceHolds (e : EndPoint) (q : EpReq) : Bool :=
  q.checked && e.flagHeld q && decide ((((e.earlier q true).filter fun x => e.flagHeld x).map fun x => x.pieces.length).sum + q.pieces.length ≤ 4)

/-- Some piece of the request has still to start. -/
def EpReq.unstarted (q : EpReq) : Bool := !q.checked || q.pieces.any fun p => !p.started

/-- Whether piece p of q must not start yet for the sake of order. Pieces of one agent start in issue order, those of one request in address order, but
for those behind a held flagged request with another destination, plane or class. -/
def EndPoint.outOfTurn (e : EndPoint) (q : EpReq) (p : Piece) : Bool :=
  if !q.accel then false
  else
    e.flagHeld q
      || (q.pieces.any fun y => !y.started && decide (y.cva < p.cva))
      || (e.fences.any fun f => f.agent == q.r.agent && decide (f.before ≤ q.order) && (f.kind == .release || q.r.op.observes))
      || ((e.earlier q false).filter EpReq.unstarted).any fun x =>
          if e.sourceHolds x then
            x.r.cls == q.r.cls && x.pieces.any fun y => y.home == p.home && epPort y.home y.off == epPort p.home p.off
          else true

/-- The die has a request to the line in its in-flight table. -/
def EndPoint.lineBusy (e : EndPoint) (fga : Nat) : Bool :=
  e.flight.any fun x => (match x.kind with | .translate _ _ => false | _ => true) && x.fga == fga

def Piece.fga (p : Piece) : Nat := lineOf (p.home * 2 ^ 42 + p.off)

/-- Writes that the core stage of an agent still holds over bytes of a piece, oldest first: request and piece (04 R94). -/
def EndPoint.heldWrites (e : EndPoint) (q : EpReq) (p : Piece) : List (EpReq × Piece) :=
  (e.reqs.filter fun x => x.r.op.stores && x.checked && decide (x.order < q.order) && e.coreOf x.r.agent == e.coreOf q.r.agent).flatMap fun x =>
    (x.pieces.filter fun y => !y.started && y.home == p.home && decide (y.off < p.off + p.len) && decide (p.off < y.off + y.len)).map fun y => (x, y)

/-- A byte of a region of a home. -/
def inRegion (home region dest off : Nat) : Bool := dest == home && off / 0x200000 == region

/-! ### Starting a piece -/

/-- Put a frame for a piece in flight; none: no tag is free. whole: the whole line is asked for. A read counts as issued when it enters the
in-flight table, and takes the generation of that instant (04 R100; DESIGN CHOICE, log 83). What a read of a region that is being flushed brings is
not installed (05 R120). -/
def State.sendPiece (s : State) (q : EpReq) (i : Nat) (p : Piece) (d : Desc) (kind : FlightKind) (typ : Nat) (whole : Bool) : Option State :=
  let port := epPort p.home p.off
  match s.ep.freeTag port with
  | none => none
  | some t =>
    let carries := [ftWrite, ftWriteLog, ftDeposit, ftAtomic].contains typ
    let f : Frame := { dest := p.home, src := s.ep.homeId, agent := q.r.agent, partition := d.partition, cls := q.r.cls, typ := typ, tag := t,
                       f := q.r.f, keySlot := d.keySlot, offset := if whole then p.off / 128 * 128 else p.off,
                       length := if whole then 128 else p.len, opx := if typ = ftAtomic then q.r.aop else 0,
                       ext := if typ = ftAtomic ∨ typ = ftDeposit then q.r.ext else 0 }
    let f := if carries then f.withData p.data else f
    let s := s.launch { port := port, tag := t, agent := q.r.agent, kind := kind, f := f, ctx := s.ep.ctxOf q.r.agent, desc := d, cva := p.cva,
                        gen := s.ep.gen.get d.partition 0
                        noInstall := s.ep.flushes.any fun x => inRegion x.home x.region p.home p.off }
    some (s.onPiece q.order i fun x => { x with started := true })

/-- A store to a line held in E or M is made in the cache. -/
def State.storeHere (s : State) (q : EpReq) (i : Nat) (p : Piece) : State :=
  ((s.touch p.fga).onWay p.fga fun w => { w with state := .m, data := patch w.data (p.off % 128) p.data }).endPiece q.order i stOk []

/-- A store to a COHERENT line (24 R566). -/
def State.storeCoherent (s : State) (q : EpReq) (i : Nat) (p : Piece) (d : Desc) : Option State :=
  if p.plain then s.sendPiece q i p d (.req q.order i) ftWrite false
  else if s.ep.lineBusy p.fga then none
  else
    let state := ((s.ep.anyWay p.fga).filter fun w => w.state.coherent).map (·.state)
    if state == some .e || state == some .m then some (s.storeHere q i p)
    else if p.rounds ≥ 4 then some (s.onPiece q.order i fun x => { x with plain := true })
    else
      let typ := if state.isSome && !p.own then ftClaim else ftReadOwn
      if s.ep.noReserve p.fga then none else
      ((s.reserve p.fga).sendPiece q i p d (.grant q.order i) typ true).map fun s => s.onPiece q.order i fun x => { x with rounds := x.rounds + 1 }

/-- A read served here. -/
def State.readHere (s : State) (q : EpReq) (i : Nat) (p : Piece) (line : List Byte) : State :=
  (s.touch p.fga).endPiece q.order i stOk (slice line (p.off % 128) p.len)

/-- A READ (04 R94, R99). -/
def State.beginRead (s : State) (q : EpReq) (i : Nat) (p : Piece) (d : Desc) : Option State :=
  match (s.ep.heldWrites q p).getLast? with
  | some (x, y) =>
    if x.r.op.writes && decide (y.off ≤ p.off) && decide (p.off + p.len ≤ y.off + y.len) then
      some (s.endPiece q.order i stOk (slice y.data (p.off - y.off) p.len))
    else none
  | none =>
    if s.ep.lineBusy p.fga then none
    else
      let quiet := s.ep.noCache q.r.agent
      let send := fun (s : State) typ whole => s.sendPiece q i p d (.req q.order i) typ whole
      if d.mode = 3 then send s ftRead false
      else match (s.ep.way p.fga).filter fun w => w.state.coherent == (d.mode == 1) with
        | some w => some (s.readHere q i p w.data)
        | none =>
          if quiet then send s ftRead false
          else if d.mode = 1 then (if s.ep.noReserve p.fga then none else send (s.reserve p.fga) ftReadShared true)
          else send s ftRead true

/-- A READ_VOL (04 R98). -/
def State.beginReadVol (s : State) (q : EpReq) (i : Nat) (p : Piece) (d : Desc) : Option State :=
  if s.ep.lineBusy p.fga || ((s.ep.heldWrites q p).any fun x => x.1.r.agent == q.r.agent) then none
  else match (s.ep.anyWay p.fga).filter fun w => d.mode == 1 && w.state.dirty with
    | some w => some (s.readHere q i p w.data)
    | none => s.sendPiece q i p d (.req q.order i) ftReadVol false

/-- A store sent to the home updates the die's own SNAPSHOT or OWNED copy at the same time (04 R99), whoever issued it: so a party always
observes its own writes (R94), and the die's other agents those they are synchronised with (R88). 24 R566's "does not touch the cache" is
read for the MOESI states of COHERENT lines and for what is held (DEDUCED, log 81). -/
def State.sendStore (s : State) (q : EpReq) (i : Nat) (p : Piece) (d : Desc) (typ : Nat) : Option State :=
  (s.sendPiece q i p d (.req q.order i) typ false).map fun s =>
    (s.onWay p.fga fun w => if w.state.coherent then w else { w with data := patch w.data (p.off % 128) p.data }).passed p.fga

/-- A WRITE (24 R566, 04 R99): a logged one is a WRITE_LOG; a store to a COHERENT line that may be cached takes the MOESI path.
A WRITE_LOG and an ATOMIC that leave drop the die's own copy of the line (DESIGN CHOICE, log 102). -/
def State.beginWrite (s : State) (q : EpReq) (i : Nat) (p : Piece) (d : Desc) : Option State :=
  if d.log then
    (s.sendPiece q i p d (.req q.order i) ftWriteLog false).map fun s => (s.discardLines fun w => w.fga == p.fga).passed p.fga
  else if d.mode = 1 ∧ ¬s.ep.noCache q.r.agent then s.storeCoherent q i p d
  else s.sendStore q i p d ftWrite

/-- An ATOMIC, always at the home (04 R104). -/
def State.beginAtomic (s : State) (q : EpReq) (i : Nat) (p : Piece) (d : Desc) : Option State :=
  if s.ep.lineBusy p.fga || ((s.ep.heldWrites q p).any fun x => x.1.r.agent == q.r.agent) then none
  else (s.sendPiece q i p d (.req q.order i) ftAtomic false).map fun s => (s.discardLines fun w => w.fga == p.fga).passed p.fga

/-- Translate a piece that an invalidation took back. -/
def State.askAgain (s : State) (q : EpReq) (i : Nat) (p : Piece) : Option State :=
  if q.xwait.isSome then none
  else match s.epLookup q.r.agent p.cva with
    | (some h, s) => some (s.onPiece q.order i fun x => x.at_ h.desc)
    | (none, s) => match s.epMiss (.req q.order) q.r.agent p.cva with
      | (.unreachable, s) => some (s.endPiece q.order i stSegFault [])
      | (.waits, s) => some (s.onReq q.order fun x => { x with xwait := some p.cva })
      | (.noTag, _) => none

/-- Start a piece whose turn it is; none: it waits. A store to a region that is being flushed is stopped (05 R120 step 3). -/
def State.startPiece (s : State) (q : EpReq) (i : Nat) (p : Piece) : Option State :=
  if p.started then none
  else match p.desc with
    | none => s.askAgain q i p
    | some d => match s.ep.descRefuses q.r.agent d q.r.op with
      | some r => some ((s.ifThen r.2 fun s => s.epEvent eeDesc).endPiece q.order i r.1 [])
      | none =>
        if q.r.op.stores && s.ep.flushes.any (fun x => inRegion x.home x.region p.home p.off) then some (s.endPiece q.order i stNotOwner [])
        else if s.ep.outOfTurn q p then none
        else if !s.ep.portUp (epPort p.home p.off) then some (s.endPiece q.order i stFenced [])
        else match q.r.op with
          | .read => s.beginRead q i p d
          | .readVol => s.beginReadVol q i p d
          | .write => s.beginWrite q i p d
          | .deposit => s.sendStore q i p d ftDeposit
          | .atomic => s.beginAtomic q i p d

/-- The first of a list on which g makes progress. -/
def firstSome {α : Type} (l : List α) (g : α → Option State) : Option State := l.findSome? g

/-- Start what can start of a request. A flagged request whose wait is over after a failure completes unsent (03 R86). -/
def State.startReq (s : State) (q : EpReq) : Option State :=
  if !q.checked then none
  else match q.fail with
    | some x => if s.ep.flagHeld q then none else some (s.endReq q x.2 [])
    | none => firstSome q.pieces.zipIdx fun p => s.startPiece q p.2 p.1

/-! ### Fences (04 R90 to R93, 24 R569) -/

/-- Whether a fence completes: its status. An agent's second fence waits for its first. -/
def EndPoint.fenceDone (e : EndPoint) (f : EpFence) : Option Nat :=
  let mine := e.reqs.filter fun q => q.accel && q.r.agent == f.agent && decide (q.order < f.before)
  if (e.fences.find? fun g => g.agent == f.agent) != some f then none
  else match f.kind with
    | .acquire => if mine.any fun q => q.r.op.observes then none else some stOk
    | .release => match f.scope with
      | .core => some stOk
      | .chip => if mine.any EpReq.unstarted then none else some stOk
      | .system =>
        if !mine.isEmpty then none
        else
          let bad := (e.badWrite.get f.agent []).filter fun b => b.1 < f.before
          some ((bad.foldl (fun (m : Nat × Nat) b => if b.1 < m.1 then b else m) (f.before, stOk)).2)

def State.fenceStep (s : State) (f : EpFence) : Option State :=
  (s.ep.fenceDone f).map fun st =>
    let s := s.onEp fun e => { e with fences := e.fences.erase f }
    let s := s.ifThen (f.scope == .system && f.kind == .release) fun s =>
      s.onEp fun e => { e with badWrite := e.badWrite.put f.agent ((e.badWrite.get f.agent []).filter fun b => f.before ≤ b.1) }
    let s := s.ifThen (f.scope == .system && f.kind == .acquire) fun s => s.advanceGen (s.ep.partOf f.agent)
    -- a fence of a collective call (08 R201) has its call's tag above 65,535
    if f.utag < 65536 then s.emit (.fenceDone f.utag st)
    else s.onEp fun e => { e with calls := e.calls.map fun c => if c.agent = f.agent ∧ c.utag + 65536 = f.utag then { c with stage := c.stage + 1 } else c }

/-- The next progress of the sending path. -/
def State.reqStep (s : State) : Option State :=
  (firstSome s.ep.reqs s.completeReq).orElse fun _ =>
  (firstSome s.ep.fences s.fenceStep).orElse fun _ =>
  (firstSome s.ep.reqs s.checkReq).orElse fun _ => firstSome s.ep.reqs s.startReq

/-! ### Answers -/

/-- A piece of a request by its place. -/
def EndPoint.piece (e : EndPoint) (order i : Nat) : Option (EpReq × Piece) :=
  (e.reqs.find? fun q => q.order == order).bind fun q => (q.pieces[i]?).map fun p => (q, p)

/-- The answer to a store's CLAIM or READ_OWN (24 R566, 05 R114, R130). A store whose descriptor was dropped meanwhile is translated again
before it is made (02 R51). -/
def State.granted (s : State) (x : EpFlight) (order i status : Nat) : State :=
  if status ≠ stOk then s.endPiece order i status []
  else match s.ep.piece order i with
    | none => s
    | some (q, p) =>
      if p.desc.isNone then s.onPiece order i fun y => { y with started := false, own := false, plain := false, rounds := 0 }
      else
      let state := (s.ep.anyWay x.fga).map (·.state)
      if state == some .e || state == some .m then s.storeHere q i p
      else s.onPiece order i fun y => if x.f.typ = ftClaim then { y with started := false, own := true } else { y with started := false, plain := true }

/-- READ_RSP, WRITE_RSP, ATOMIC_RSP or FWD_DATA for a request of the end-point, matched by port and tag (03 R60). One that matches none is late
and is dropped; no counter of the AKG-8 holds it (DESIGN CHOICE, log 82). -/
def State.epResponse (s : State) (p : Nat) (f : Frame) : State :=
  match s.ep.flightAt p f.tag with
  | none => s
  | some x =>
    let s := (s.fillFrom x f).dropEpFlight p f.tag
    match x.kind with
    | .translate _ _ => s
    | .grant order i => s.granted x order i f.status
    | .req order i => match s.ep.piece order i with
      | none => s
      | some (_, y) =>
        let d := padTo f.length f.data
        s.endPiece order i f.status (if f.status ≠ stOk then [] else if x.f.typ = ftAtomic then d
          else if x.f.length = f.length ∧ isMemReq x.f.typ then slice d (y.off - x.f.offset) y.len else [])

/-- What a translation or its failure does to the access that waits for it (02 R43 to R46). -/
def State.xlatDone (s : State) (who : EpWaiter) (cva status : Nat) : State :=
  match who with
  | .call a utag =>
    if status = stOk then s.onEp fun e => { e with calls := e.calls.map fun c => if c.agent = a ∧ c.utag = utag then { c with xwait := none } else c }
    else if s.ep.calls.any fun c => c.agent == a && c.utag == utag then
      (s.onEp fun e => { e with calls := e.calls.filter fun c => !(c.agent == a && c.utag == utag) }).emit (.callDone utag status 0)
    else s
  | .req order =>
    let s := s.onReq order fun y => { y with xwait := none }
    match s.ep.reqs.find? fun q => q.order == order with
    | none => s
    | some q =>
      if status = stOk then s
      else if !q.checked then s.endReq q status []
      else s.onReq order fun y => { y with pieces := y.pieces.map fun p => if !p.started && p.cva == cva then { p with started := true, status := some status } else p }

/-- TRANSLATE_RSP (02 R41, R42). -/
def State.epTranslated (s : State) (p : Nat) (f : Frame) : State :=
  match s.ep.flightAt p f.tag with
  | none => s
  | some x => match x.kind with
    | .translate who cva =>
      let s := s.dropEpFlight p f.tag
      let s := if f.status = stOk then s.epHold x.agent x.ctx (decodeDesc f.data) else s
      s.xlatDone who cva f.status
    | _ => s

/-- A request of the end-point ends without an answer: TIMEOUT, a lost port or a fence. -/
def State.epAbandon (s : State) (x : EpFlight) (status : Nat) : State :=
  let s := s.unreserve x.fga
  match x.kind with
  | .translate who cva => s.xlatDone who cva status
  | .grant order i => s.endPiece order i status []
  | .req order i => s.endPiece order i status []

/-- The completion timeout of a request (03 R80, R81, 04 R106): one whose header has not left is withdrawn, and its tag stays out of use. -/
def State.epFlightTimeout (s : State) (p tag : Nat) : State :=
  match s.ep.flightAt p tag with
  | none => s
  | some x =>
    let s := if x.sent then s.dropEpFlight p tag else s.withdraw x
    (s.onEp fun e => { e with quarantine := (p * 4096 + tag) :: e.quarantine }).epAbandon x stTimeout

/-- A request that its core stage still holds times out: what of it has not started is never sent (04 R106). -/
def State.epHeldTimeout (s : State) (order : Nat) : State :=
  match s.ep.reqs.find? fun q => q.order == order with
  | none => s
  | some q =>
    if !q.checked then s.endReq q stTimeout []
    else s.onReq order fun x => { x with xwait := none
                                         pieces := x.pieces.map fun p => if p.started then p else { p with started := true, status := some stTimeout } }

/-- The completion timeout of a request of the AKG-8; a miss of its agents is a request with a tag of its own. -/
def State.epTimeout (s : State) (p : Nat) (r : Timed) : State :=
  match r with
  | .flight tag => s.epFlightTimeout p tag
  | .held order => s.epHeldTimeout order
  | .miss _ => s

/-! ### Fences of an agent and its binding (24 R562, R563) -/

/-- A FENCE arrives. -/
def State.epFence (s : State) (a utag : Nat) (kind : FenceKind) (scope : Scope) : State :=
  s.onEp fun e => { e with fences := e.fences ++ [{ agent := a, utag := utag, kind := kind, scope := scope, before := e.orderCount }] }

/-- The agent runs: a request in the in-flight table, a fence pending or a call open. -/
def EndPoint.agentRuns (e : EndPoint) (a : Nat) : Bool :=
  (e.flight.any fun x => x.agent == a) || (e.fences.any fun f => f.agent == a) || e.calls.any fun c => c.agent == a

/-- A write of EP_AGENT_BIND: its reserved bits stay 0. -/
def State.bindAgent (s : State) (a : Nat) (v : BitVec 64) : State :=
  if s.ep.agentRuns a then s.epEvent eeBind
  else s.onEp fun e => { e with bind := e.bind.put a (v &&& 0xFFFFFFF#64), l1 := e.l1.del a }

end Sys2Proof.Machine
end

