-- ==== Sys2Proof/Machine/Programs.lean ====
section
/-!
DEFINITION. What an engine task does, by kind (09 R237 to R244, 10): a program that checks ranges, asks for accesses and ends
with a status. The state keeps only the replies so far; the program is read again from the descriptor.
-/

namespace Sys2Proof.Machine

/-- A range that the engine checks by R39 before any request to it. -/
structure Range where
  cva : Nat
  len : Nat
  write : Bool := false
  atomic : Bool := false
  deriving DecidableEq, Repr

/-- A task's work. -/
inductive Prog where
  /-- the task ends with a status -/
  | done (status : Nat)
  /-- ranges are checked, then the work goes on -/
  | check (rs : List Range) (next : Prog)
  /-- accesses are made; the work goes on with their replies, in issue order -/
  | ask (accs : List Access) (next : List Reply → Prog)

/-- First status other than OK. -/
def firstBad (rs : List Reply) : Option Nat := (rs.find? fun r => r.status != stOk).map (·.status)

/-- Ask, and end with the first failed status if any. -/
def Prog.need (accs : List Access) (k : List Reply → Prog) : Prog :=
  .ask accs fun rs => match firstBad rs with
    | some st => .done st
    | none => k rs

/-- Accesses of one line each that read a range. -/
def readAcc (cva len : Nat) : List Access := (cutAt 128 cva len).map fun p => { kind := .read, cva := p.1, len := p.2 }

/-- Accesses of one line each that write data from a CVA; flag: the frames carry F. -/
def writeAcc (cva : Nat) (data : List Byte) (flag : Bool := false) : List Access :=
  (cutAt 128 cva data.length).map fun p =>
    { kind := if flag then .flagged else .write, cva := p.1, len := p.2, data := slice data (p.1 - cva) p.2 }

/-- Read a range, then go on with its bytes. -/
def Prog.read (cva len : Nat) (k : List Byte → Prog) : Prog :=
  .need (readAcc cva len) fun rs => k (rs.flatMap (·.data))

/-- Write bytes, then go on. -/
def Prog.write (cva : Nat) (data : List Byte) (k : Prog) : Prog := .need (writeAcc cva data) fun _ => k

/-- Do a list of works in order. -/
def Prog.seq : List (Prog → Prog) → Prog → Prog
  | [], k => k
  | w :: t, k => w (Prog.seq t k)

/-- The program as it stands after the replies in the log. -/
def Prog.replay : Prog → List (List Reply) → Prog
  | p, [] => p
  | .done st, _ => .done st
  | .check _ p, _ :: t => p.replay t
  | .ask _ k, rs :: t => (k rs).replay t

/-! ### Descriptors -/

/-- Fields of a 64-byte task descriptor (09 R237, R238). -/
structure TaskDesc where
  kind : Nat
  fmt : Nat
  op : Nat
  mode : Nat
  scopes : Nat
  retry : Nat
  engine : Nat
  res7 : Nat
  count : Nat
  aux : Nat
  a0 : Nat
  a1 : Nat
  a2 : Nat
  a3 : Nat
  a4 : Nat
  a5 : Nat
  deriving DecidableEq, Repr

def TaskDesc.of (l : List Byte) : TaskDesc :=
  { kind := field l 0 1, fmt := field l 1 1, op := field l 2 1, mode := field l 3 1, scopes := field l 4 1, retry := field l 5 1,
    engine := field l 6 1, res7 := field l 7 1, count := field l 8 4, aux := field l 12 4, a0 := field l 16 8, a1 := field l 24 8,
    a2 := field l 32 8, a3 := field l 40 8, a4 := field l 48 8, a5 := field l 56 8 }

def TaskDesc.sat (d : TaskDesc) : Bool := bit d.mode 0
def TaskDesc.sched (d : TaskDesc) : Bool := bit d.mode 2

/-- An INT32 index. -/
def indexAt (l : List Byte) (i : Nat) : Int := toSigned 32 (field l (4 * i) 4)

/-- Row n of a table at base with rows of w bytes. -/
def rowAt (base w n : Nat) : Nat := base + n * w

/-! ### Simple kinds (09 R239) -/

/-- COPY: ascending, a line at a time. -/
def copyProg (src dst count : Nat) (k : Prog) : Prog :=
  .check [{ cva := src, len := count }, { cva := dst, len := count, write := true }]
    (Prog.seq ((cutAt 128 src count).map fun p k => Prog.read p.1 p.2 fun d => Prog.write (dst + (p.1 - src)) d k) k)

def fillProg (d : TaskDesc) : Prog :=
  let pat := leBytes 8 d.a1 ++ leBytes 8 d.a2
  .check [{ cva := d.a0, len := d.count, write := true }]
    (.write d.a0 ((List.range d.count).map fun i => pat.getD (i % 16) 0) (.done stOk))

def gatherProg (d : TaskDesc) : Prog :=
  let w := d.aux % 2 ^ 16
  .check [{ cva := d.a0, len := 4 * d.count }, { cva := d.a2, len := d.count * w, write := true }]
    (.read d.a0 (4 * d.count) fun ix =>
      Prog.seq ((List.range d.count).map fun i k =>
        let n := indexAt ix i
        if n = -1 then Prog.write (rowAt d.a2 w i) (List.replicate w 0) k
        else if n < 0 ∨ (d.a3 : Int) ≤ n then .done stBadAddress
        else .check [{ cva := rowAt d.a1 w n.toNat, len := w }] (Prog.read (rowAt d.a1 w n.toNat) w fun r => Prog.write (rowAt d.a2 w i) r k))
        (.done stOk))

def scatterProg (d : TaskDesc) : Prog :=
  let w := d.aux % 2 ^ 16
  .check [{ cva := d.a0, len := 4 * d.count }, { cva := d.a1, len := d.count * w }]
    (.read d.a0 (4 * d.count) fun ix =>
      Prog.seq ((List.range d.count).map fun i k =>
        let n := indexAt ix i
        if n = -1 then k
        else if n < 0 ∨ (d.a3 : Int) ≤ n then .done stBadAddress
        else Prog.read (rowAt d.a1 w i) w fun r =>
          .check [{ cva := rowAt d.a2 w n.toNat, len := w, write := true }] (Prog.write (rowAt d.a2 w n.toNat) r k))
        (.done stOk))

def checkProg (d : TaskDesc) : Prog :=
  let out := if d.a1 = 0 then [] else [({ cva := d.a1, len := 4, write := true } : Range)]
  .check ({ cva := d.a0, len := d.count } :: out)
    (.read d.a0 d.count fun l =>
      let c := (crc32c l).toNat
      let fin : Prog := .done (if d.op = 1 ∧ c ≠ d.aux then stEcc else stOk)
      if d.a1 = 0 then fin else .write d.a1 (leBytes 4 c) fin)

def sealProg (d : TaskDesc) : Prog :=
  .check [{ cva := d.a0, len := d.count }, { cva := d.a1, len := 64, write := true }]
    (.read d.a0 d.count fun l => .write d.a1 (digestBytes (Config.shake256 l)) (.done stOk))

/-- A note record (09 R243). -/
def noteRecord (value graphTag status task doneCount : Nat) : List Byte :=
  leBytes 8 value ++ leBytes 4 graphTag ++ leBytes 1 status ++ leBytes 1 task ++ leBytes 2 doneCount

/-- NOTIFY (09 R244). -/
def notifyProg (d : TaskDesc) (graphTag task doneCount : Nat) : Prog :=
  .check [{ cva := d.a2, len := 16, write := true }]
    (copyProg d.a0 d.a1 d.count
      (.need (writeAcc d.a2 (noteRecord d.a3 graphTag stOk task doneCount) true) fun _ => .done stOk))

/-! ### Embedding bags (10 R254 to R256) -/

/-- A row as an operand: for MX, elements followed by scale bytes. -/
def rowOperand (fmt : Nat) (row : List Byte) : Operand :=
  match fmt with
  | 6 => let e := row.length * 32 / 33; { bytes := row.take e, scales := row.drop e }
  | 7 => let e := row.length * 16 / 17; { bytes := row.take e, scales := row.drop e }
  | _ => { bytes := row }

def operandRow (o : Operand) : List Byte := o.bytes ++ o.scales

/-- Whether W is a whole row of a format (10 R255). -/
def rowSizeOk (fmt w : Nat) : Bool :=
  match fmt with
  | 6 => w % 33 == 0 && w != 0
  | 7 => w % 17 == 0 && w != 0
  | _ => fmtBits fmt != 0 && w != 0 && (8 * w) % fmtBits fmt == 0

/-- The result of one bag: its row and its present count. -/
def bagResult (d : TaskDesc) (rows : List (Option (List Byte))) (weights : List Nat) : List Byte × Nat :=
  let w := d.aux / 2 ^ 16
  let ops := rows.zipIdx.map fun r => r.1.map fun b =>
    let o := rowOperand d.fmt b
    if d.a3 = 0 then o else operandMul d.fmt d.sat (weights.getD r.2 0) o
  let present := (rows.filter Option.isSome).length
  match reduceTree (redOp (if d.op = 2 then .max else .sum) d.fmt d.sat (bit d.mode 1)) ops with
  | none => (List.replicate w 0, 0)
  | some o => (operandRow (if d.op = 1 then operandDiv d.fmt o present else o), present)

def gatherReduceProg (d : TaskDesc) : Prog :=
  let k := d.aux % 2 ^ 16
  let w := d.aux / 2 ^ 16
  let n := d.count * k
  let es := fmtBytes d.fmt 1
  let opt := (if d.a3 = 0 then [] else [({ cva := d.a3, len := n * es } : Range)])
    ++ (if d.a5 = 0 then [] else [({ cva := d.a5, len := 4 * d.count, write := true } : Range)])
  .check ([({ cva := d.a0, len := 4 * n } : Range), { cva := d.a2, len := d.count * w, write := true }] ++ opt)
    (.read d.a0 (4 * n) fun ix =>
      let bags (ws : List Byte) : Prog :=
        if (List.range n).any fun i => decide (indexAt ix i < -1 ∨ (d.a4 : Int) ≤ indexAt ix i) then .done stBadAddress
        else Prog.seq ((List.range d.count).map fun b next =>
          let idx := (List.range k).map fun j => indexAt ix (b * k + j)
          let here := idx.filter fun i => decide (0 ≤ i)
          .check (here.map fun i => { cva := rowAt d.a1 w i.toNat, len := w })
            (.need (here.flatMap fun i => readAcc (rowAt d.a1 w i.toNat) w) fun rs =>
              let bytes := rs.flatMap (·.data)
              let rows := (idx.foldl (fun (a : List (Option (List Byte)) × List Byte) i =>
                if 0 ≤ i then (a.1 ++ [some (a.2.take w)], a.2.drop w) else (a.1 ++ [none], a.2)) ([], bytes)).1
              let res := bagResult d rows ((List.range k).map fun j => field ws ((b * k + j) * es) es)
              .write (rowAt d.a2 w b) res.1 (if d.a5 = 0 then next else .write (d.a5 + 4 * b) (leBytes 4 res.2) next)))
          (.done stOk)
      if d.a3 = 0 then bags [] else .read d.a3 (n * es) bags)

/-! ### Dispatch and combine (10 R257 to R261) -/

/-- Fields of A4 of DISPATCH and COMBINE: row bytes W, capacity C, experts X. -/
def moeW (d : TaskDesc) : Nat := d.a4 % 2 ^ 32
def moeC (d : TaskDesc) : Nat := bits d.a4 32 16
def moeX (d : TaskDesc) : Nat := bits d.a4 48 16

/-- Bytes of a routing entry. -/
def routeBytes (fmt : Nat) : Nat := if fmt = 11 then 16 else 8

/-- Expert and weight of selection i of a routing array. -/
def selection (fmt : Nat) (l : List Byte) (i : Nat) : Nat × Nat :=
  let e := routeBytes fmt
  (field l (e * i) 2, if fmt = 11 then field l (e * i + 8) 8 else field l (e * i + 4) 4 % 2 ^ fmtBits fmt)

/-- The reserved bits of entry i are 0, and its weight is zero-extended (10 R257). -/
def entryOk (fmt : Nat) (l : List Byte) (i : Nat) : Bool :=
  let e := routeBytes fmt
  if fmt = 11 then field l (e * i + 2) 6 == 0
  else field l (e * i + 2) 2 == 0 && decide (field l (e * i + 4) 4 < 2 ^ fmtBits fmt)

/-- The routing array keeps R257: its entries well formed, every expert below X, none twice in a token. -/
def routingOk (d : TaskDesc) (l : List Byte) : Bool :=
  let k := d.aux % 16
  (List.range (d.count * k)).all (entryOk d.fmt l) && (List.range d.count).all fun t =>
    let es := ((List.range k).map fun j => (selection d.fmt l (t * k + j)).1).filter (· != 0xFFFF)
    es.all (fun e => decide (e < moeX d)) && decide (es.Nodup)

/-- Slots of every selection, the fill of each expert and the number dropped (10 R259). -/
def assignSlots (d : TaskDesc) (l : List Byte) : List Nat × Tab Nat × Nat :=
  (List.range (d.count * (d.aux % 16))).foldl (fun a i =>
    let e := (selection d.fmt l i).1
    if e = 0xFFFF then (a.1 ++ [0xFFFE], a.2.1, a.2.2)
    else
      let n := a.2.1.get e 0
      if n < moeC d then (a.1 ++ [n], a.2.1.put e (n + 1), a.2.2) else (a.1 ++ [0xFFFF], a.2.1, a.2.2 + 1)) ([], [], 0)

/-- Selection i, with this slot, was kept: it names an expert and was not dropped. A capacity of 65,535 has a slot 0xFFFE too. -/
def selKept (d : TaskDesc) (l : List Byte) (i slot : Nat) : Bool := (selection d.fmt l i).1 != 0xFFFF && slot != 0xFFFF

def up16 (n : Nat) : Nat := 16 * ceilDiv n 16

/-- Sizes M, F and B of the drop report, and its whole length (10 R260). -/
def reportM (d : TaskDesc) : Nat := up16 (2 * d.count * (d.aux % 16))
def reportF (d : TaskDesc) : Nat := up16 (2 * moeX d)
def reportB (d : TaskDesc) : Nat := 16 * ceilDiv (moeC d) 128
def reportLen (d : TaskDesc) : Nat := 16 + reportM d + reportF d + moeX d * reportB d

/-- The drop report. -/
def dropReport (d : TaskDesc) (slots : List Nat) (fill : Tab Nat) (dropped : Nat) : List Byte :=
  let head := leBytes 4 d.count ++ leBytes 1 (d.aux % 16) ++ leBytes 1 0 ++ leBytes 2 (moeX d) ++ leBytes 2 (moeC d) ++ leBytes 2 0 ++ leBytes 4 dropped
  let sl := padTo (reportM d) (slots.flatMap fun n => leBytes 2 n)
  let fl := padTo (reportF d) ((List.range (moeX d)).flatMap fun e => leBytes 2 (fill.get e 0))
  let pr := (List.range (moeX d)).flatMap fun e => leBytes (reportB d) (2 ^ fill.get e 0 - 1)
  head ++ sl ++ fl ++ pr

def dispatchProg (d : TaskDesc) : Prog :=
  let k := d.aux % 16
  let w := moeW d
  let rb := d.count * k * routeBytes d.fmt
  .check [{ cva := d.a0, len := d.count * w }, { cva := d.a1, len := rb }, { cva := d.a2, len := moeX d * moeC d * w, write := true },
      { cva := d.a3, len := reportLen d, write := true }]
    (.read d.a1 rb fun l =>
      if !routingOk d l then .done stBadAddress
      else
        let (slots, fill, dropped) := assignSlots d l
        let copies := ((List.range (d.count * k)).filter fun i => selKept d l i (slots.getD i 0xFFFF)).map fun i (next : Prog) =>
          Prog.read (rowAt d.a0 w (i / k)) w fun r =>
            Prog.write (rowAt d.a2 w ((selection d.fmt l i).1 * moeC d + slots.getD i 0)) r next
        let zeros := (List.range (moeX d)).flatMap fun e =>
          ((List.range (moeC d)).filter fun s => decide (fill.get e 0 ≤ s)).map fun s (next : Prog) =>
            Prog.write (rowAt d.a2 w (e * moeC d + s)) (List.replicate w 0) next
        .write d.a3 (dropReport d slots fill dropped) (Prog.seq (copies ++ zeros) (.done stOk)))

/-- Put items in ascending order of a key, keeping the order of equals. -/
def insertBy {α : Type} (key : α → Nat) (a : α) : List α → List α
  | [] => [a]
  | b :: t => if key b ≤ key a then b :: insertBy key a t else a :: b :: t

def sortBy {α : Type} (key : α → Nat) (l : List α) : List α := l.foldl (fun acc a => insertBy key a acc) []

def combineProg (d : TaskDesc) : Prog :=
  let k := d.aux % 16
  let w := moeW d
  let rb := d.count * k * routeBytes d.fmt
  .check [{ cva := d.a0, len := moeX d * moeC d * w }, { cva := d.a1, len := rb }, { cva := d.a2, len := reportLen d },
      { cva := d.a3, len := d.count * w, write := true }]
    (.read d.a2 (reportLen d) fun rep =>
      if field rep 0 4 ≠ d.count ∨ field rep 4 1 ≠ k ∨ field rep 6 2 ≠ moeX d ∨ field rep 8 2 ≠ moeC d
          -- reserved bytes of the report (R6, R260)
          ∨ field rep 5 1 ≠ 0 ∨ field rep 10 2 ≠ 0 then .done stBadAddress
      else .read d.a1 rb fun l =>
        let slot (i : Nat) := field rep (16 + 2 * i) 2
        let slotBad (i : Nat) := if (selection d.fmt l i).1 = 0xFFFF then slot i != 0xFFFE else decide (moeC d ≤ slot i) && slot i != 0xFFFF
        if !routingOk d l || (List.range (d.count * k)).any slotBad then .done stBadAddress
        else Prog.seq ((List.range d.count).map fun t next =>
          let sel := sortBy (fun i => (selection d.fmt l i).1)
            (((List.range k).map fun j => t * k + j).filter fun i => (selection d.fmt l i).1 != 0xFFFF)
          let kept := sel.filter fun i => selKept d l i (slot i)
          .need (kept.flatMap fun i => readAcc (rowAt d.a0 w ((selection d.fmt l i).1 * moeC d + slot i)) w) fun rs =>
            let leaves := (sel.foldl (fun (a : List (Option Operand) × List Byte) i =>
              if selKept d l i (slot i) then
                (a.1 ++ [some (operandMul d.fmt d.sat (selection d.fmt l i).2 { bytes := a.2.take w })], a.2.drop w)
              else (a.1 ++ [none], a.2)) ([], rs.flatMap (·.data))).1
            let res := match reduceTree (redOp .sum d.fmt d.sat false) leaves with
              | some o => o.bytes
              | none => List.replicate w 0
            Prog.write (rowAt d.a3 w t) res next)
          (.done stOk))

/-! ### Passbook tables (10 R262 to R274) -/

/-- A Passbook header. -/
structure Passbook where
  row : Nat
  log2 : Nat
  probe : Nat
  seed : Nat
  base : Nat
  deriving DecidableEq, Repr

/-- The header that 64 bytes spell, if it keeps R262. -/
def Passbook.of (l : List Byte) : Option Passbook :=
  let p : Passbook := { row := field l 2 2, log2 := field l 4 1, probe := field l 5 1, seed := field l 8 4, base := field l 16 8 }
  let ok := field l 0 2 == 1 && p.row % 32 == 0 && decide (32 ≤ p.row ∧ p.row ≤ 512) && decide (10 ≤ p.log2 ∧ p.log2 ≤ 32)
    && decide (1 ≤ p.probe ∧ p.probe ≤ 64) && p.base % 128 == 0
    && field l 6 2 == 0 && field l 12 4 == 0 && (slice l 32 32).all (· == 0)
  if ok then some p else none

/-- CVA of the slot that probe n of a key examines (10 R263, R264). -/
def Passbook.slot (p : Passbook) (key : List Byte) (n : Nat) : Nat :=
  p.base + (((crc32c (leBytes 4 p.seed ++ key)).toNat + n) % 2 ^ p.log2) * (32 + p.row)

/-- STATE and VERSION of a control word. Bits [31:8] are reserved: they belong to STATE here, so that no defined STATE has one set. -/
def ctlState (c : Nat) : Nat := c % 2 ^ 32
def ctlVersion (c : Nat) : Nat := c / 2 ^ 32 % 2 ^ 32
def ctlWord (state version : Nat) : List Byte := leBytes 4 state ++ leBytes 4 (version % 2 ^ 32)

/-- Read a slot by R266, at most n times more: the control word and the key and row, or BUSY. -/
def slotRead (p : Passbook) (at_ : Nat) (k : Option (Nat × List Byte × List Byte) → Prog) : Nat → Prog
  | 0 => k none
  | n + 1 =>
    .read (at_ + 16) 8 fun c1 => .need (readAcc at_ 16 ++ readAcc (at_ + 32) p.row) fun rs =>
      let kr := rs.flatMap (·.data)
      .read (at_ + 16) 8 fun c2 =>
        if c1 = c2 ∧ ctlVersion (field c1 0 8) % 2 = 0 then k (some (field c1 0 8, kr.take 16, kr.drop 16)) else slotRead p at_ k n

/-- What a search finds. -/
inductive Found where
  | hit (slot ctl probes : Nat) (row : List Byte)
  /-- absent; the first EMPTY or TOMB slot met, if any -/
  | miss (free : Option (Nat × Nat)) (probes : Nat)
  | busy (probes : Nat)
  /-- a control word with a reserved STATE -/
  | broken

/-- The search of R267 from probe n, with m probes left. -/
def search (p : Passbook) (key : List Byte) (access : Nat → List Range) (k : Found → Prog) : (n : Nat) → (free : Option (Nat × Nat)) → Nat → Prog
  | n, free, 0 => k (.miss free n)
  | n, free, m + 1 =>
    let at_ := p.slot key n
    .check (access at_) (slotRead p at_ (fun r => match r with
      | none => k (.busy (n + 1))
      | some (c, key', row) =>
        let free' := match free with
          | some f => some f
          | none => some (at_, c)
        if ctlState c = 0 then k (.miss free' (n + 1))
        else if ctlState c = 1 then (if key' = key then k (.hit at_ c (n + 1) row) else search p key access k (n + 1) free m)
        else if ctlState c = 2 then search p key access k (n + 1) free' m
        else k .broken) 16)

/-- The checks of a slot that KEYED_UPDATE examines: it may read, write and change it. -/
def Passbook.updateAccess (p : Passbook) (a : Nat) : List Range :=
  [{ cva := a, len := 32 + p.row }, { cva := a, len := 32 + p.row, write := true }, { cva := a, len := 32 + p.row, atomic := true }]

/-- A per-key result (10 R268). -/
def keyResult (outcome probes version prior : Nat) : List Byte :=
  leBytes 1 outcome ++ leBytes 1 probes ++ leBytes 2 0 ++ leBytes 4 version ++ leBytes 8 prior

def oHit : Nat := 0
def oMiss : Nat := 1
def oExists : Nat := 2
def oNoRoom : Nat := 3
def oBusy : Nat := 4
def oDone : Nat := 5

/-- Look up the keys from i on, each slot under these checks: each key's row and result bytes, all of them read before anything is written
(10 R253). -/
def lookupAll (p : Passbook) (ks : List Byte) (access : Nat → List Range) (k : List (List Byte × List Byte) → Prog) : (n i : Nat) → List (List Byte × List Byte) → Prog
  | 0, _, acc => k acc
  | n + 1, i, acc =>
    let got (o probes v : Nat) (row : List Byte) : Prog := lookupAll p ks access k n (i + 1) (acc ++ [(row, keyResult o probes v 0)])
    search p (slice ks (16 * i) 16) access (fun r => match r with
      | .hit _ c m row => got oHit m (ctlVersion c) row
      | .miss _ m => got oMiss m 0 (List.replicate p.row 0)
      | .busy m => got oBusy m 0 (List.replicate p.row 0)
      | .broken => .done stBadAddress) 0 none p.probe

/-- KEYED_LOOKUP (10 R268). -/
def lookupProg (d : TaskDesc) : Prog :=
  .check [{ cva := d.a0, len := 64 }, { cva := d.a1, len := 16 * d.count }, { cva := d.a3, len := 16 * d.count, write := true }]
    (.read d.a0 64 fun h => match Passbook.of h with
      | none => .done stBadAddress
      | some p =>
        .check [{ cva := d.a2, len := d.count * p.row, write := true }]
          (.read d.a1 (16 * d.count) fun ks =>
            lookupAll p ks (fun a => [{ cva := a, len := 32 + p.row }]) (fun res => Prog.seq (res.zipIdx.map fun r next =>
              Prog.write (rowAt d.a2 p.row r.2) r.1.1 (Prog.write (d.a3 + 16 * r.2) r.1.2 next)) (.done stOk)) d.count 0 []))

/-- An 8-byte CAS access. -/
def casAcc (cva : Nat) (old new : List Byte) : Access :=
  { kind := .atomic (atomicOpx 8 0 false false true) 0, cva := cva, len := 8, data := old ++ new }

/-- An integer ADD of a signed 64-bit number. -/
def addAcc (cva : Nat) (v : Int) : Access :=
  { kind := .atomic (atomicOpx 0 0x0B false false false) 0, cva := cva, len := 8, data := leBytes 8 (v % 2 ^ 64).toNat }

/-- Take a slot, write what it holds and set its new state (10 R270). full: the key is written too. -/
def takeSlot (at_ ctl state : Nat) (body : List Access) (ok : Prog) (failed : Prog) : Prog :=
  let v := ctlVersion ctl
  let old := leBytes 8 ctl
  .need [casAcc (at_ + 16) old (ctlWord state (v + 1))] fun rs =>
    if (rs.head?.map (·.data)).getD [] ≠ old then failed
    else .need body fun _ => .need (writeAcc (at_ + 16) (ctlWord state (v + 2))) fun _ => ok

/-- One key of a KEYED_UPDATE, with n tries left (10 R269 to R274). last: the slots that the search before examined. -/
def updateKey (d : TaskDesc) (p : Passbook) (key src : List Byte) (put : (o probes version prior : Nat) → Prog) : (n last : Nat) → Prog
  | 0, last => put oBusy last 0 0
  | n + 1, _ =>
    let again := updateKey d p key src put n
    let entries := d.a0 + 0x18
    let fieldOff := field src 0 2
    let tick (slot ctl probes : Nat) : Prog :=
      .need [{ kind := .atomic (atomicOpx 9 1 false false true) (BitVec.ofNat 64 (field src 2 1)), cva := slot + 32 + fieldOff, len := 8, data := slice src 4 8 }]
        fun rs => put oDone probes (ctlVersion ctl) (field ((rs.head?.map (·.data)).getD []) 0 8)
    let insert (free : Option (Nat × Nat)) (probes : Nat) (row : List Byte) (ok : Nat → Nat → Prog) : Prog :=
      match free with
      | none => put oNoRoom probes 0 0
      | some (at_, c) =>
        takeSlot at_ c 1 (writeAcc at_ key ++ writeAcc (at_ + 32) row)
          (.need [addAcc entries 1] fun _ => ok at_ (ctlVersion c + 2)) (again probes)
    search p key p.updateAccess (fun r => match r with
      | .broken => .done stBadAddress
      | .busy m => put oBusy m 0 0
      | .hit at_ c m _ =>
        match d.op with
        | 0 => put oExists m (ctlVersion c) 0
        | 3 => takeSlot at_ c 2 [] (.need [addAcc entries (-1)] fun _ => put oDone m ((ctlVersion c + 2) % 2 ^ 32) 0) (again m)
        | 4 => tick at_ c m
        | _ => takeSlot at_ c 1 (writeAcc (at_ + 32) src) (put oDone m ((ctlVersion c + 2) % 2 ^ 32) 0) (again m)
      | .miss free m =>
        match d.op with
        | 1 => put oMiss m 0 0
        | 3 => put oMiss m 0 0
        | 4 =>
          if bit (field src 3 1) 0 then insert free m (List.replicate p.row 0) fun at_ v => tick at_ (v % 2 ^ 32 * 2 ^ 32 + 1) m
          else put oMiss m 0 0
        | _ => insert free m src fun _ v => put oDone m (v % 2 ^ 32) 0) 0 none p.probe

def updateProg (d : TaskDesc) : Prog :=
  .check [{ cva := d.a0, len := 64 }, { cva := d.a1, len := 16 * d.count }, { cva := d.a3, len := 16 * d.count, write := true }]
    (.read d.a0 64 fun h => match Passbook.of h with
      | none => .done stBadAddress
      | some p =>
        -- TICK reads the first 16 bytes of a source row alone (R273)
        let w := if d.op = 4 then 16 else p.row
        let src (i : Nat) := rowAt d.a2 p.row i
        .check (({ cva := d.a0 + 0x18, len := 8, atomic := true } : Range) :: (List.range d.count).map fun i => { cva := src i, len := w })
          (.read d.a1 (16 * d.count) fun ks => .need ((List.range d.count).flatMap fun i => readAcc (src i) w) fun rs =>
            let rows := rs.flatMap (·.data)
            if d.op = 4 ∧ (List.range d.count).any fun i =>
                let t := slice rows (w * i) 16
                decide (field t 0 2 % 8 ≠ 0 ∨ p.row < field t 0 2 + 8) || decide (field t 3 1 > 1) || decide (field t 12 4 ≠ 0) then
              .done stBadAddress
            -- an addition to ENTRIES is 8 bytes aligned (03 R68; DESIGN CHOICE, log 101)
            else if d.op ≠ 1 ∧ d.a0 % 8 ≠ 0 then .done stBadAddress
            else lookupAll p ks p.updateAccess (fun _ =>
            Prog.seq ((List.range d.count).map fun i next =>
              updateKey d p (slice ks (16 * i) 16) (slice rows (w * i) w)
                (fun o probes v prior => Prog.write (d.a3 + 16 * i) (keyResult o probes v prior) next) 16 0)
              (.done stOk)) d.count 0 []))

/-! ### Atomic batches (09 R242) -/

/-- Entry i of an ATOMIC_BATCH as an access, if it keeps R66 and its reserved bytes are 0. -/
def batchEntry (l : List Byte) (i : Nat) : Option Access :=
  let e := slice l (64 * i) 64
  let aop := field e 8 1
  let flags := field e 10 1
  let size := field e 11 1
  let opx := atomicOpx aop (field e 9 1) (bit flags 1) (bit flags 0) (bit flags 2)
  let len := if aop = 8 then 2 * size else size
  let ext := BitVec.ofNat 64 (field e 12 1)
  let cva := field e 0 8
  if decide (aop < 16) && decide (flags < 8) && (slice e 13 19).all (· == 0) && atomicOk opx ext cva len then
    some { kind := .atomic opx ext, cva := cva, len := size, data := slice e 0x20 len }
  else none

def batchProg (d : TaskDesc) : Prog :=
  let out := if d.a1 = 0 then [] else [({ cva := d.a1, len := 32 * d.count, write := true } : Range)]
  .check ({ cva := d.a0, len := 64 * d.count } :: out)
    (.read d.a0 (64 * d.count) fun l =>
      match (List.range d.count).mapM (batchEntry l) with
      | none => .done stBadAddress
      | some accs =>
        .check (accs.map fun a => { cva := a.cva, len := a.len, atomic := true })
          (.ask accs fun rs =>
            if d.a1 = 0 then .done ((firstBad rs).getD stOk)
            else .ask (writeAcc d.a1 (rs.flatMap fun r => padTo 16 (if r.status = stOk then r.data else []) ++ leBytes 1 r.status ++ List.replicate 15 0))
              fun ws => .done ((firstBad (rs ++ ws)).getD stOk)))

/-- The program of a task (09 R238). WAIT_TIME and COLLECTIVE do no accesses of their own. -/
def taskProg (desc : List Byte) (graphTag task doneCount : Nat) : Prog :=
  let d := TaskDesc.of desc
  match d.kind with
  | 0x01 => copyProg d.a0 d.a1 d.count (.done stOk)
  | 0x02 => fillProg d
  | 0x03 => gatherProg d
  | 0x04 => scatterProg d
  | 0x05 => gatherReduceProg d
  | 0x07 => dispatchProg d
  | 0x08 => combineProg d
  | 0x09 => lookupProg d
  | 0x0A => updateProg d
  | 0x0B => batchProg d
  | 0x0C => checkProg d
  | 0x0D => sealProg d
  | 0x0F => notifyProg d graphTag task doneCount
  | _ => .done stOk

/-! ### The checks of a submission (09 R234) -/

/-- A word or bit range that the kind does not name is not zero, or a value is out of its range: BAD_FIELD. -/
def fieldsBad (d : TaskDesc) : Bool :=
  let zero (l : List Nat) := l.any (· != 0)
  let count (lo hi : Nat) := decide (d.count < lo ∨ hi < d.count)
  let common := decide (d.mode > 7) || decide (d.scopes > 15) || d.scopes % 4 == 3 || d.scopes / 4 == 3 || decide (d.retry > 3) || d.res7 != 0
    || decide (47 < d.engine ∧ d.engine ≠ 0xFF)
  let noFmt := d.fmt != 0
  let moe := count 1 65536 || d.aux / 16 != 0 || decide (d.aux % 16 < 1 ∨ 8 < d.aux % 16) || d.op != 0 || d.a5 != 0
    || !wsumAllowed d.fmt || !rowSizeOk d.fmt (moeW d) || moeC d == 0 || decide (moeX d < 1 ∨ 65534 < moeX d)
  common || match d.kind with
    | 0x01 => noFmt || d.op != 0 || d.aux != 0 || d.count == 0 || zero [d.a2, d.a3, d.a4, d.a5]
    | 0x02 => noFmt || d.op != 0 || d.aux != 0 || zero [d.a3, d.a4, d.a5]
    | 0x03 | 0x04 => noFmt || d.op != 0 || count 1 65536 || decide (d.aux < 1 ∨ 65535 < d.aux) || zero [d.a4, d.a5]
    | 0x05 => count 1 65536 || decide (d.aux % 2 ^ 16 < 1 ∨ 256 < d.aux % 2 ^ 16) || decide (d.op > 2) || !opAllowed .sum d.fmt
        || !rowSizeOk d.fmt (d.aux / 2 ^ 16) || (d.a3 != 0 && (d.op == 2 || !wsumAllowed d.fmt))
    | 0x07 => moe
    | 0x08 => moe
    | 0x09 => noFmt || d.op != 0 || d.aux != 0 || count 1 4096 || zero [d.a4, d.a5]
    | 0x0A => noFmt || decide (d.op > 4) || d.aux != 0 || count 1 4096 || zero [d.a4, d.a5]
    | 0x0B => noFmt || d.op != 0 || d.aux != 0 || count 1 4096 || zero [d.a2, d.a3, d.a4, d.a5]
    | 0x0C => noFmt || decide (d.op > 1) || zero [d.a2, d.a3, d.a4, d.a5]
    | 0x0D => noFmt || d.op != 0 || d.aux != 0 || zero [d.a2, d.a3, d.a4, d.a5]
    | 0x0E => noFmt || d.op != 0 || d.aux != 0 || d.count != 0 || d.a0 / 2 ^ 48 != 0 || d.a1 / 2 ^ 32 != 0 || zero [d.a2, d.a3, d.a4, d.a5]
    | 0x0F => noFmt || d.op != 0 || d.aux != 0 || zero [d.a4, d.a5]
    | _ => true

/-- RETRY is non-zero for a kind that does not allow it (09 R248). -/
def retryBad (d : TaskDesc) : Bool := d.retry != 0 && [0x06, 0x0A, 0x0B, 0x0E].contains d.kind

end Sys2Proof.Machine
end

