-- ==== Sys2Proof/Machine/Synd.lean ====
section
/-!
DEFINITION. Syndicates and collective operations at a switch (08): the frames' fields, placement, inputs, results, settlement,
recall and abort.
-/

namespace Sys2Proof.Machine

/-! ### Fields of collective frames (08 R202) -/

def cSynd (f : Frame) : Nat := f.opxBits 43 36
def cRank (f : Frame) : Nat := f.opxBits 53 44
def cCop (f : Frame) : Nat := f.opxBits 56 54
def cRop (f : Frame) : Nat := f.opxBits 59 57
def cSat (f : Frame) : Bool := f.opxBits 60 60 == 1
def cUns (f : Frame) : Bool := f.opxBits 61 61 == 1
def cAttempt (f : Frame) : Nat := f.opxBits 63 62
def cCheck (f : Frame) : Nat := f.extBits 31 0
def cEpoch (f : Frame) : Nat := f.extBits 43 32
def cLast (f : Frame) : Bool := f.extBits 44 44 == 1
def cEnd (f : Frame) : Bool := f.extBits 45 45 == 1
def cFmt (f : Frame) : Nat := f.extBits 53 46
def cRoot (f : Frame) : Nat := f.extBits 63 54
def cPos (f : Frame) : Nat := f.offset % 2 ^ 41
def cScale (f : Frame) : Bool := bit f.offset 41

/-- Collective operations and reduce operations. -/
def copAllReduce : Nat := 0
def copReduceScatter : Nat := 1
def copAllGather : Nat := 2
def copBroadcast : Nat := 3
def copReduce : Nat := 4
def copBarrier : Nat := 5

def ropOf : Nat → RedOp
  | 0 => .sum
  | 1 => .min
  | 2 => .max
  | 3 => .and
  | 4 => .or
  | _ => .xor

/-- Scale bytes of a chunk (08 R203). -/
def scaleChunk (fmt : Nat) : Nat := if fmt = 6 then 2048 else 4096

/-- The chunk that a position of the sender's buffer belongs to. -/
def chunkOf (fmt pos : Nat) (scale : Bool) : Nat := if scale then pos / scaleChunk fmt else pos / 65536

/-- OPX and EXT of a collective frame. -/
def collOpx (synd rank cop rop : Nat) (sat uns : Bool) (attempt : Nat) : BitVec 28 :=
  BitVec.ofNat 28 (synd + rank * 2 ^ 8 + cop * 2 ^ 18 + rop * 2 ^ 21 + b2n sat * 2 ^ 24 + b2n uns * 2 ^ 25 + attempt * 2 ^ 26)
def collExt (check epoch : Nat) (last end_ : Bool) (fmt root : Nat) : BitVec 64 :=
  BitVec.ofNat 64 (check + epoch * 2 ^ 32 + b2n last * 2 ^ 44 + b2n end_ * 2 ^ 45 + fmt * 2 ^ 46 + root * 2 ^ 54)

/-! ### Syndicates, epochs and chunks -/

def Switch.getSynd (w : Switch) (i : Nat) : Option Synd := w.synd.find i
def State.putSynd (s : State) (i : Nat) (y : Synd) : State := s.onSw fun w => { w with synd := w.synd.put i y }

def Synd.epoch (y : Synd) (n : Nat) : Option Epoch := y.epochs.find? fun e => e.number == n
def Synd.putEpoch (y : Synd) (e : Epoch) : Synd :=
  { y with epochs := if y.epochs.any fun x => x.number == e.number then y.epochs.map fun x => if x.number == e.number then e else x else y.epochs ++ [e] }

def State.putEpoch (s : State) (i : Nat) (e : Epoch) : State :=
  match s.sw.getSynd i with
  | some y => s.putSynd i (y.putEpoch e)
  | none => s

/-- End-point and agent of a member; none beyond N. -/
def Synd.member (y : Synd) (r : Nat) : Option (Nat × Nat) := (y.members[r]?).map fun m => (m / 64, m % 64)

/-- Rack of a member. -/
def Synd.rackOfRank (y : Synd) (r : Nat) : Nat := match y.member r with | some (h, _) => epRack h | none => 0

/-- Rack of the root switch: that of rank 0 (08 R207). -/
def Synd.rootRack (y : Synd) : Nat := y.rackOfRank 0

/-- Whether this switch is the root switch of its plane. -/
def Switch.isRoot (w : Switch) (y : Synd) : Bool := w.sys.rack == y.rootRack

/-- Home ID of this plane's switch in a rack. -/
def Switch.planeId (w : Switch) (rack : Nat) : Nat := rack * 8 + w.sys.plane

/-- Present leaves below a node. -/
def Synd.leaves (y : Synd) (level k : Nat) : List Nat :=
  (List.range (2 ^ level)).map (k * 2 ^ level + ·) |>.filter fun r => decide (r < y.members.length)

/-- The operation reduces. -/
def Epoch.reduces (e : Epoch) : Bool := e.cop != copAllGather && e.cop != copBroadcast && e.cop != copBarrier

/-- Rack that computes a node: its placement, its own rack where it is local, else the root's (08 R207). Only a reduction has nodes to place, and the
leaves of an ALL_GATHER go to the root one by one. -/
def Epoch.owner (e : Epoch) (y : Synd) (level k : Nat) : Nat :=
  if e.cop = copAllGather ∧ level ≠ 0 then y.rootRack
  else match (if e.reduces && level != 0 then e.place.find (level * 1024 + k) else none) with
    | some r => r
    | none => match y.leaves level k with
      | [] => y.rootRack
      | r :: t => if t.all fun q => y.rackOfRank q == y.rackOfRank r then y.rackOfRank r else y.rootRack

/-- Height of the tree of a Syndicate. -/
def Synd.height (y : Synd) : Nat := treeHeight y.members.length

/-- One operation of an epoch on two operands: a reduction, or for operations that reduce nothing the one that carries data. -/
def Epoch.op (e : Epoch) (a b : Operand) : Operand :=
  if e.cop = copBroadcast ∨ e.cop = copBarrier then (if a.bytes.isEmpty then b else a)
  else redOp (ropOf e.rop) e.fmt e.sat e.unsigned a b

/-- What a node's evaluation finds. -/
inductive NodeVal where
  | missing
  | absent
  | val (o : Operand)
  deriving DecidableEq, Repr

/-- The input that a part gives, once its last frame has arrived. -/
def Chunk.input (c : Chunk) (level rank : Nat) : NodeVal :=
  match c.parts.find? fun p => p.level == level && p.rank == rank with
  | some p => if p.last then .val { bytes := p.bytes, scales := p.scales } else .missing
  | none => .missing

/-- The value of node (level, k) at the switch of a rack (08 R206, R207): an input or kept operand, or computed from its children. -/
def Epoch.eval (e : Epoch) (y : Synd) (c : Chunk) (rack : Nat) : (level k : Nat) → NodeVal
  | 0, k =>
    if k ≥ y.members.length then .absent
    else c.input 0 k
  | l + 1, k =>
    if (y.leaves (l + 1) k).isEmpty then .absent
    else match c.input (l + 1) (k * 2 ^ (l + 1)) with
      | .val o => .val o
      | x =>
        if e.owner y (l + 1) k ≠ rack then x
        else match e.eval y c rack l (2 * k), e.eval y c rack l (2 * k + 1) with
          | .missing, _ => .missing
          | _, .missing => .missing
          | .absent, x => x
          | x, .absent => x
          | .val a, .val b => .val (e.op a b)

/-- Rack of the switch that takes a node's result: that of its parent, or the root switch's for the top node. -/
def Epoch.parentRack (e : Epoch) (y : Synd) (level k : Nat) : Nat :=
  if level = y.height then y.rootRack else e.owner y (level + 1) (k / 2)

/-- Nodes that the switch of a rack computes and whose result goes elsewhere: level and node. -/
def Epoch.outputs (e : Epoch) (y : Synd) (rack : Nat) : List (Nat × Nat) :=
  (List.range (y.height + 1)).flatMap fun l =>
    ((List.range (ceilDiv y.members.length (2 ^ l))).map fun k => (l, k)).filter fun n =>
      e.owner y n.1 n.2 == rack && e.parentRack y n.1 n.2 != rack

/-- The level of a partial result by its lowest leaf, the rack that sent it and the rack that takes it: of the nodes that this can be, the lowest that is
not complete yet, since a node's result leaves after those below it. -/
def Epoch.levelOf (e : Epoch) (y : Synd) (c : Chunk) (sender rack rank : Nat) : Nat :=
  let nodes := (e.outputs y sender).filter fun n => n.2 * 2 ^ n.1 == rank && e.parentRack y n.1 n.2 == rack
  match nodes.find? fun n => !(c.parts.any fun p => p.level == n.1 && p.rank == rank && p.last) with
  | some n => n.1
  | none => (nodes.getLast?.map Prod.fst).getD 0

/-- Nodes whose children the switch of a rack keeps (08 R212): those whose result it sends on, and the root. -/
def Epoch.tops (e : Epoch) (y : Synd) (rack : Nat) : List (Nat × Nat) :=
  e.outputs y rack ++ if e.owner y y.height 0 = rack ∧ y.rootRack = rack then [(y.height, 0)] else []

/-- Kept operands of one chunk at a switch, by number (08 R212): the present children of the nodes it keeps them for; the ranks' chunks of an
ALL_GATHER; the root's chunk of a BROADCAST. -/
def Epoch.keptCount (e : Epoch) (y : Synd) (rack : Nat) : Nat :=
  let n := y.members.length
  if e.reduces then
    ((e.tops y rack).map fun lk => if lk.1 = 0 then 1 else if (2 * lk.2 + 1) * 2 ^ (lk.1 - 1) < n then 2 else 1).foldl (· + ·) 0
  else if e.cop = copAllGather then (if y.rootRack = rack then n else ((List.range n).filter fun r => y.rackOfRank r == rack).length)
  else if e.cop = copBroadcast then 1 else 0

/-- Bytes of an operand of a chunk: a whole chunk with the scale bytes of its format, but of the epoch's last chunk what has come of it (08 R203). -/
def Epoch.operandSize (e : Epoch) (c : Chunk) (last : Bool) : Nat :=
  if last then (c.parts.map fun p => p.bytes.length + p.scales.length).foldl max 0
  else 65536 + if e.fmt = 6 ∨ e.fmt = 7 then scaleChunk e.fmt else 0

/-- Bytes of cells that the kept operands of chunk k take (08 R197, R212). -/
def Epoch.keptNeed (e : Epoch) (y : Synd) (rack k : Nat) (c : Chunk) : Nat :=
  if e.cop = copBarrier then 0 else e.keptCount y rack * e.operandSize c (e.endChunk == some k)

/-- Replace what has been reduced by what is kept: each child of a kept node, once it is computed, in place of the inputs below it. -/
def Epoch.condense (e : Epoch) (y : Synd) (c : Chunk) (rack : Nat) : Chunk :=
  let kids := (e.tops y rack).flatMap fun n => if n.1 = 0 then [] else [(n.1 - 1, 2 * n.2), (n.1 - 1, 2 * n.2 + 1)]
  (kids.filter fun n => n.1 != 0).foldl (fun c n => match e.eval y c rack n.1 n.2 with
    | .val o =>
      { c with parts := c.parts.filter (fun p => !(decide (p.level ≤ n.1) && p.rank / 2 ^ n.1 == n.2))
                        ++ [{ rank := n.2 * 2 ^ n.1, level := n.1, bytes := o.bytes, scales := o.scales, last := true }] }
    | _ => c) c

/-- A kept operand already holds what a part would bring. -/
def Chunk.covered (c : Chunk) (level rank : Nat) : Bool :=
  c.parts.any fun p => decide (level < p.level) && rank / 2 ^ p.level == p.rank / 2 ^ p.level

/-! ### Frames that a chunk's data travels in -/

/-- Frames of element bytes then scale bytes, each of at most 256, with LAST on the last; an empty chunk is one empty frame. -/
def Epoch.dataFrames (e : Epoch) (base : Frame) (synd rank attempt check : Nat) (end_ : Bool) (pieces : List (Nat × Bool × List Byte)) : List Frame :=
  let cut := pieces.flatMap fun p => (cutAt 256 0 p.2.2.length).map fun c => (p.1 + c.1, p.2.1, slice p.2.2 c.1 c.2)
  let cut := if cut.isEmpty then [((pieces.head?.map (·.1)).getD base.offset, false, [])] else cut
  cut.zipIdx.map fun p =>
    let last := p.2 + 1 == cut.length
    ({ base with cls := 5, opx := collOpx synd rank e.cop e.rop e.sat e.unsigned attempt,
                 ext := collExt (if last then check else 0) e.number last end_ e.fmt e.root,
                 offset := p.1.1 + b2n p.1.2.1 * 2 ^ 41 }).withData p.1.2.2

/-- Bytes in the member's contribution, L (08 R198), once a part of the END chunk is whole: what this plane then knows. -/
def Epoch.withLength (e : Epoch) (chunk : Nat) (p : Part1) : Epoch :=
  if e.endChunk = some chunk ∧ p.last ∧ (e.cop ≠ copBroadcast ∨ p.rank = e.root) then { e with len := chunk * 65536 + p.bytes.length } else e

/-- Position, scale flag and bytes that a member receives of a chunk (08 table Collective operations). all: every rank's operand for ALL_GATHER. -/
def Epoch.delivery (e : Epoch) (y : Synd) (chunk rank : Nat) (result : Operand) (all : List (Nat × Operand)) : List (Nat × Bool × List Byte) :=
  let n := y.members.length
  let p := chunk * 65536
  let sp := chunk * scaleChunk e.fmt
  let scales (at_ : Nat) (o : List Byte) : List (Nat × Bool × List Byte) := if o.isEmpty then [] else [(at_, true, o)]
  if e.cop = copAllReduce ∨ (e.cop = copReduce ∧ rank = e.root) ∨ (e.cop = copBroadcast ∧ rank ≠ e.root) then
    (p, false, result.bytes) :: scales sp result.scales
  else if e.cop = copReduceScatter then
    let b := e.len / n
    let lo := max p (rank * b)
    let hi := min (p + result.bytes.length) ((rank + 1) * b)
    if lo < hi then
      let perScale := result.bytes.length / max 1 result.scales.length
      (lo - rank * b, false, slice result.bytes (lo - p) (hi - lo)) ::
        (if result.scales.isEmpty then [] else [((lo - rank * b) / perScale, true, slice result.scales ((lo - p) / perScale) ((hi - lo) / perScale))])
    else []
  else if e.cop = copAllGather then
    let l := e.len
    (all.map fun a => (a.1 * l + p, false, a.2.bytes)) ++ (all.flatMap fun a => scales (a.1 * (l * scaleChunk e.fmt / 65536) + sp) a.2.scales)
  else []

/-- Chunk check of what is delivered (08 R210). -/
def deliveryCheck (d : List (Nat × Bool × List Byte)) : Nat :=
  let bytes := d.flatMap (·.2.2)
  if bytes.isEmpty then 0 else (crc32c bytes).toNat

/-- Where a frame to a member goes from this switch: the member itself in its own rack, else that rack's switch (08 R209). -/
def Switch.towardMember (w : Switch) (h : Nat) : Nat := if epRack h = w.sys.rack then h else w.planeId (epRack h)

/-- Ranks to which the switch addresses a frame meant for all members: each member of its own rack, and one member of each other rack. -/
def Switch.fanOut (w : Switch) (y : Synd) : List Nat :=
  (List.range y.members.length).filter fun r =>
    y.rackOfRank r == w.sys.rack || (List.range r).all fun q => y.rackOfRank q != y.rackOfRank r

/-- Racks whose switch of the plane computes for an epoch: the members' own, the root's, and those that a placement names. -/
def Epoch.racks (e : Epoch) (y : Synd) : List Nat :=
  (y.rootRack :: (List.range y.members.length).map y.rackOfRank ++ e.place.map Prod.snd).dedup

/-- EXT of a COLL_CONFIRM or COLL_RECALL, the one frame about its chunk: LAST, and END for the epoch's last chunk; COLL_ABORT is about no chunk (08
R202; log 78). -/
def Epoch.noteExt (e : Epoch) (typ check chunk : Nat) : BitVec 64 :=
  collExt check e.number (typ != ftCollAbort) (typ != ftCollAbort && e.endChunk == some chunk) e.fmt e.root

/-- Send a TC5 frame about a chunk to a rank's end-point or rack. -/
def State.sendColl (s : State) (y : Synd) (e : Epoch) (synd rank typ attempt check chunk status : Nat) : State :=
  match y.member rank with
  | none => s
  | some (h, a) =>
    let dest := s.sw.towardMember h
    s.collSend
      { dest := dest, src := s.sw.sys.homeId, agent := a, partition := y.partition, cls := 5, typ := typ, inc := s.sw.incFor dest, status := status,
        offset := chunk * 65536, opx := collOpx synd rank e.cop e.rop e.sat e.unsigned attempt, ext := e.noteExt typ check chunk }

/-- Send a TC5 frame about a chunk to the computing switches of racks that hold no member (08 R213, R220). -/
def State.sendCollSwitches (s : State) (y : Synd) (e : Epoch) (synd typ attempt check chunk status : Nat) : State :=
  let racks := (e.racks y).filter fun k => k != s.sw.sys.rack && (List.range y.members.length).all fun r => y.rackOfRank r != k
  s.each racks fun s k =>
    s.collSend
      { dest := s.sw.planeId k, src := s.sw.sys.homeId, partition := y.partition, cls := 5, typ := typ, status := status, offset := chunk * 65536,
        opx := collOpx synd 0 e.cop e.rop e.sat e.unsigned attempt, ext := e.noteExt typ check chunk }

/-- A rank receives data of a BROADCAST or REDUCE: all but the root of the one, the root alone of the other (08 table Collective operations). -/
def takesData (cop root r : Nat) : Bool := if cop = copBroadcast then r != root else if cop = copReduce then r == root else true

/-- Ranks to which the root switch addresses a chunk's result: the members of its own rack, and one copy to each other rack (08 R209), whose switch
gives its members theirs. The blocks of a REDUCE_SCATTER differ, so each goes to its own rank. -/
def Switch.resultRanks (w : Switch) (y : Synd) (e : Epoch) : List Nat :=
  let all := List.range y.members.length
  if e.cop = copReduceScatter then all
  else all.filter fun r => y.rackOfRank r == w.sys.rack ||
    match all.filter fun q => y.rackOfRank q == y.rackOfRank r && takesData e.cop e.root q with
    | q :: _ => q == r
    | [] => (List.range r).all fun q => y.rackOfRank q != y.rackOfRank r

/-- Send a chunk's result for an attempt to every member. -/
def State.sendResult (s : State) (y : Synd) (e : Epoch) (synd chunk attempt : Nat) (result : Operand) (all : List (Nat × Operand)) : State :=
  s.each (s.sw.resultRanks y e) fun s r =>
    match y.member r with
    | none => s
    | some (h, a) =>
      let dest := s.sw.towardMember h
      let d := e.delivery y chunk r result all
      let base : Frame := { dest := dest, src := s.sw.sys.homeId, agent := a, partition := y.partition, typ := ftCollResult, offset := chunk * 65536, inc := s.sw.incFor dest }
      s.each (e.dataFrames base synd r attempt (deliveryCheck d) (e.endChunk == some chunk) d) fun s f => s.collSend f

/-- Operands of every rank, for ALL_GATHER. -/
def Chunk.leafOperands (c : Chunk) (n : Nat) : List (Nat × Operand) :=
  (List.range n).filterMap fun r => match c.input 0 r with
    | .val o => some (r, o)
    | _ => none

/-- The whole result at the root: none while an input is missing. -/
def Epoch.result (e : Epoch) (y : Synd) (c : Chunk) (rack : Nat) : Option (Operand × List (Nat × Operand)) :=
  if e.cop = copAllGather then
    let l := c.leafOperands y.members.length
    if l.length = y.members.length then some ({ bytes := [] }, l) else none
  else match e.eval y c rack y.height 0 with
    | .val o => some (o, [])
    | .absent => some ({ bytes := [] }, [])
    | .missing => none

/-- Send a node's result to the switch that takes it. -/
def State.sendPartial (s : State) (y : Synd) (e : Epoch) (synd chunk attempt level k : Nat) (o : Operand) : State :=
  let dest := s.sw.planeId (e.parentRack y level k)
  let base : Frame := { dest := dest, src := s.sw.sys.homeId, partition := y.partition, typ := ftCollData }
  let pieces := (chunk * 65536, false, o.bytes) :: (if o.scales.isEmpty then [] else [(chunk * scaleChunk e.fmt, true, o.scales)])
  s.each (e.dataFrames base synd (k * 2 ^ level) attempt 0 (e.endChunk == some chunk) pieces) fun s f => s.collSend f

/-- Nodes of a reduction that the switch of a rack can compute now and has not, each a COLLECTIVE task (09 R240). -/
def Epoch.ready (e : Epoch) (y : Synd) (c : Chunk) (rack : Nat) : List Nat :=
  if !e.reduces then []
  else ((List.range y.height).flatMap fun l => (List.range (ceilDiv y.members.length (2 ^ (l + 1)))).map fun k => (l + 1, k)).filterMap fun n =>
    if e.owner y n.1 n.2 == rack && !c.computed.contains (n.1 * 1024 + n.2)
        && !(c.parts.any fun p => decide (n.1 < p.level) && n.2 * 2 ^ n.1 / 2 ^ p.level == p.rank / 2 ^ p.level)
        && (match c.input n.1 (n.2 * 2 ^ n.1) with | .val _ => false | _ => true)
        && (match e.eval y c rack n.1 n.2 with | .val _ => true | _ => false) then some (n.1 * 1024 + n.2) else none

/-- What a switch can do for a chunk now: compute a node, send a node's result on, or at the root deliver the chunk's result. -/
def Epoch.computable (e : Epoch) (y : Synd) (c : Chunk) (rack : Nat) : Bool :=
  !(e.ready y c rack).isEmpty
    || ((e.outputs y rack).any fun n => !c.sent.contains (n.1 * 1024 + n.2) && match e.eval y c rack n.1 n.2 with | .val _ => true | _ => false)
    || (y.rootRack == rack && (decide (c.state = .open_) || c.owed) && (e.result y c rack).isSome)

/-- Compute what can be computed of a chunk: partial results go on, and the root delivers an attempt when every input is in. -/
def State.computeNow (s : State) (y : Synd) (e : Epoch) (synd chunk : Nat) : State :=
  let rack := s.sw.sys.rack
  let c := e.chunks.get chunk {}
  let c := { c with computed := c.computed ++ e.ready y c rack }
  let c := if e.reduces then e.condense y c rack else c
  let outs := (e.outputs y rack).filterMap fun n =>
    if c.sent.contains (n.1 * 1024 + n.2) then none
    else match e.eval y c rack n.1 n.2 with
      | .val o => some (n, o)
      | _ => none
  let s := s.each outs fun s o => s.sendPartial y e synd chunk c.attempt o.1.1 o.1.2 o.2
  let c := { c with sent := c.sent ++ outs.map fun o => o.1.1 * 1024 + o.1.2 }
  match (if s.sw.isRoot y && (decide (c.state = .open_) || c.owed) then e.result y c rack else none) with
  | none => s.putEpoch synd { e with chunks := e.chunks.put chunk c }
  | some (o, all) =>
    let a := match c.state with | .delivered a => a | _ => 0
    let check := if e.cop = copAllGather then deliveryCheck (e.delivery y chunk 0 o all) else deliveryCheck [(0, false, o.bytes ++ o.scales)]
    let checks := (List.range y.members.length).map fun r => (r, deliveryCheck (e.delivery y chunk r o all))
    let c := { c with state := .delivered a, owed := false, check := BitVec.ofNat 32 check, checks := checks, confirms := [] }
    let e := { e with chunks := e.chunks.put chunk c }
    (s.putEpoch synd e).sendResult y e synd chunk a o all

/-- COLLECTIVE tasks of a chunk are ready: they wait, for engine n to wake at 64 + n, or for an idle one at 0xFF (09 R240). -/
def State.collWait (s : State) (synd number chunk at_ : Nat) : State :=
  s.onEscrow fun x => { x with coll := x.coll.filter (fun q => !(q.1 == synd && q.2.1 == number && q.2.2.1 == chunk && decide (64 ≤ q.2.2.2)))
                                 ++ [(synd, number, chunk, at_)] }

/-- k COLLECTIVE tasks of a chunk run on engine n, one for each node, and end at once. -/
def State.collRun (s : State) (synd number chunk n k : Nat) : State :=
  let s := s.onEscrow fun x => { x with
    coll := x.coll.filter (fun q => !(q.1 == synd && q.2.1 == number && q.2.2.1 == chunk && (decide (64 ≤ q.2.2.2) || q.2.2.2 == n))) ++ [(synd, number, chunk, n)] }
  s.each (List.range k) fun s _ => s.count (blkEng n) 0

/-- The engine on which a chunk's COLLECTIVE tasks run: the one that they wait for to wake, else the lowest idle one that no other chunk's wait for. -/
def Switch.collEngine (w : Switch) (synd number chunk partition : Nat) : Option Nat :=
  match (List.range 48).find? fun n => w.engineIdle n partition && w.escrow.coll.contains (synd, number, chunk, 64 + n) with
  | some n => some n
  | none => (List.range 48).find? fun n => w.engineFree n partition

/-- Compute of a chunk what its inputs allow: the nodes of a reduction as COLLECTIVE tasks on an engine of the Syndicate's partition (08 R208, 09 R240);
the other operations compute nothing. -/
def State.computeChunk (s : State) (synd number chunk : Nat) : State :=
  match s.sw.getSynd synd with
  | none => s
  | some y => match y.epoch number with
    | none => s
    | some e =>
      let c := e.chunks.get chunk {}
      let k := (e.ready y c s.sw.sys.rack).length
      if c.state = .settled ∨ c.state = .aborted ∨ c.failed ∨ e.aborted.isSome ∨ !e.computable y c s.sw.sys.rack then s
      else if k = 0 then s.computeNow y e synd chunk
      else match s.sw.collEngine synd number chunk y.partition with
        | none => s.collWait synd number chunk 0xFF
        | some n =>
          if s.sw.awake 1 n then (s.collRun synd number chunk n k).computeNow y e synd chunk
          else (s.work 1 n).collWait synd number chunk (64 + n)

/-- Ready COLLECTIVE tasks of a chunk whose partition has no unfenced engine left fail with FENCED, each recorded (09 R247, R252): the record names no
graph, and the node in place of the task index. Nothing more of the chunk is computed here; the settlement limit ends its epoch. -/
def State.collFail (s : State) (synd number chunk : Nat) : State :=
  let s := s.onEscrow fun x => { x with coll := x.coll.filter fun q => !(q.1 == synd && q.2.1 == number && q.2.2.1 == chunk && decide (64 ≤ q.2.2.2)) }
  match s.sw.getSynd synd with
  | none => s
  | some y => match y.epoch number with
    | none => s
    | some e =>
      let c := e.chunks.get chunk {}
      let s := s.each (e.ready y c s.sw.sys.rack) fun s n => (s.count (blkPart y.partition) 1).record
        { kind := fTaskFailed, domain := 5, index := y.partition, partition := y.partition, status := stFenced,
          detail := leBytes 4 0 ++ leBytes 1 (n % 256) ++ leBytes 1 6 }
      s.putEpoch synd { e with chunks := e.chunks.put chunk { c with failed := true } }

/-- COLLECTIVE tasks that wait for an engine are dispatched; those of a partition without an unfenced engine fail (09 R252). -/
def State.collDispatch (s : State) : State :=
  s.each (s.sw.escrow.coll.filter fun q => decide (64 ≤ q.2.2.2)) fun s q =>
    if (s.sw.getSynd q.1).all fun y => !s.sw.anyEngine y.partition then s.collFail q.1 q.2.1 q.2.2.1
    else s.computeChunk q.1 q.2.1 q.2.2.1

/-! ### Abort and loss (08 R219 to R222) -/

/-- Every chunk this plane carries is settled, the last one among them. -/
def Epoch.finished (e : Epoch) : Bool :=
  match e.endChunk with
  | some k => e.chunks.length == k / 8 + 1 && e.chunks.all fun c => decide (c.2.state = ChunkState.settled)
  | none => false

/-- An epoch is open: some chunk that this plane has seen of it is not settled, or the END chunk is known and not all are in (08 R196, R200). -/
def Epoch.isOpen (e : Epoch) : Bool :=
  (e.chunks.any fun c => decide (c.2.state ≠ ChunkState.settled)) || (e.endChunk.isSome && !e.finished)

/-- Close an epoch: a finished or aborted number is refused from then on. -/
def State.closeEpoch (s : State) (synd number : Nat) : State :=
  match s.sw.getSynd synd with
  | none => s
  | some y =>
    (s.putSynd synd { y with epochs := y.epochs.filter fun e => e.number != number, closed := (number :: y.closed).take 1024 }).onEscrow fun x =>
      { x with coll := x.coll.filter fun q => !(q.1 == synd && q.2.1 == number) }

/-- The root switch aborts an epoch: COLL_ABORT to every member that remains and to every other computing switch. -/
def State.abortEpoch (s : State) (synd number status : Nat) : State :=
  match s.sw.getSynd synd with
  | none => s
  | some y => match y.epoch number with
    | none => s
    | some e =>
      let s := s.closeEpoch synd number
      let s := s.each ((s.sw.fanOut y).filter fun r => y.rackOfRank r != s.sw.sys.rack || !y.lost.contains r) fun s r =>
        s.sendColl y e synd r ftCollAbort 0 0 0 status
      s.sendCollSwitches y e synd ftCollAbort 0 0 0 status

/-- A computing switch meets a reason to abort: the root aborts, another tells the root. -/
def State.abortFrom (s : State) (synd number status : Nat) : State :=
  match s.sw.getSynd synd with
  | none => s
  | some y =>
    if s.sw.isRoot y then s.abortEpoch synd number status
    else match y.epoch number with
      | none => s
      | some e =>
        -- its COLLECTIVE tasks end (09 R252)
        let s := (s.putEpoch synd { e with aborted := some status }).onEscrow fun x =>
          { x with coll := x.coll.filter fun q => !(q.1 == synd && q.2.1 == number) }
        s.collSend
          { dest := s.sw.planeId y.rootRack, src := s.sw.sys.homeId, partition := y.partition, cls := 5, typ := ftCollAbort, status := status,
            opx := collOpx synd 0 e.cop e.rop e.sat e.unsigned 0, ext := collExt 0 number false false e.fmt e.root }

/-- The trunk port on which frames from this plane's switch of a rack arrive, on the shortest way around the ring, ties east (11 R291). -/
def Switch.arrivesFrom (w : Switch) (rack : Nat) : Nat :=
  let east := (w.sys.rack + w.sys.racks - rack) % w.sys.racks
  let west := (rack + w.sys.racks - w.sys.rack) % w.sys.racks
  (if east ≤ west then 56 else 48) + w.sys.plane

/-- Trunk port p has been fenced: an epoch whose root switch, or at the root a computing switch, was reached through it aborts with TARGET_LOST (08
R219), and so does one whose root's frames arrived on it. A switch cut off from the root tells the members of its own rack. -/
def State.cutOff (s : State) (p : Nat) : State :=
  let lost (k : Nat) : Bool := k != s.sw.sys.rack && s.sw.route (s.sw.planeId k) == some p
  s.each s.sw.synd fun s i => s.each i.2.epochs fun s e =>
    if s.sw.isRoot i.2 then if (e.racks i.2).any lost then s.abortEpoch i.1 e.number stTargetLost else s
    else if !(lost i.2.rootRack || s.sw.arrivesFrom i.2.rootRack == p) || !(e.racks i.2).contains s.sw.sys.rack then s
    else
      let here := (List.range i.2.members.length).filter fun r => i.2.rackOfRank r == s.sw.sys.rack && !i.2.lost.contains r
      (s.closeEpoch i.1 e.number).each here fun s r => s.sendColl i.2 e i.1 r ftCollAbort 0 0 0 stTargetLost

/-- Ranks that an end-point (and an agent of it) holds in a Syndicate. -/
def Synd.ranksOf (y : Synd) (h : Nat) (agent : Option Nat) : List Nat :=
  (y.members.zipIdx.filter fun m => m.1 / 64 == h && (match agent with | some a => m.1 % 64 == a | none => true)).map Prod.snd

/-- The epoch after the last that ended here, which a new member's first call opens (DEDUCED, log 36). -/
def Synd.nextEpoch (y : Synd) : Nat := (y.closed.head?.map fun n => (n + 1) % 4096).getD 0

/-- A loss finds no epoch open: the members that remain hear of it by an abort of the next one, so that they refuse their later calls (08 R222;
DESIGN CHOICE, log 117). -/
def State.lossNotice (s : State) (i : Nat) (y : Synd) : State :=
  (s.putEpoch i { number := y.nextEpoch, cop := 0, rop := 0, fmt := 0, sat := false, unsigned := false, root := 0 }).abortFrom i y.nextEpoch stMemberLost

/-- A member is lost to its Syndicates: every open epoch of them aborts with MEMBER_LOST (08 R219). -/
def State.loseMember (s : State) (h : Nat) (agent : Option Nat) : State :=
  s.each s.sw.synd fun s i =>
    match s.sw.getSynd i.1 with
    | none => s
    | some y =>
      let rs := y.ranksOf h agent
      if rs.isEmpty then s
      else
        let s := s.putSynd i.1 { y with lost := y.lost ++ rs.filter fun r => !y.lost.contains r }
        if y.epochs.isEmpty ∧ rs.any fun r => !y.lost.contains r then s.lossNotice i.1 y
        else s.each y.epochs fun s e => s.abortFrom i.1 e.number stMemberLost

/-! ### Inputs (08 R204, R205) -/

/-- Bytes of cells that the kept operands of a partition's unsettled chunks take at the switch (08 R197, R212). -/
def Switch.keptBytes (w : Switch) (partition : Nat) : Nat :=
  (w.synd.filter fun y => y.2.partition == partition).foldl (fun n y => y.2.epochs.foldl (fun n e =>
    ((e.chunks.filter fun c => decide (c.2.state ≠ ChunkState.settled)).map fun c => e.keptNeed y.2 w.sys.rack c.1 c.2).foldl (· + ·) n) n) 0

/-- A chunk that this frame begins finds the partition's quota used: it waits for cells (08 R197). Only the epoch's last chunk may be short; of such a
one the frame's own bytes count. -/
def Switch.quotaFull (w : Switch) (y : Synd) (e : Epoch) (chunk : Nat) (f : Frame) : Bool :=
  let need := if cEnd f then e.keptCount y w.sys.rack * f.length else e.keptNeed y w.sys.rack chunk {}
  (e.chunks.find chunk).isNone && decide ((w.getPart y.partition).collQuota * 0x100000 < w.keptBytes y.partition + need)

/-- A COLL_DATA agrees with the epoch it belongs to. -/
def Epoch.agrees (e : Epoch) (f : Frame) (chunk : Nat) : Bool :=
  e.cop == cCop f && e.rop == cRop f && e.fmt == cFmt f && e.sat == cSat f && e.unsigned == cUns f && e.root == cRoot f
    && (!cEnd f || e.endChunk.all fun c => c == chunk)
    && (e.cop != copBroadcast || f.length == 0 || !isEpId f.src || cRank f == e.root)

/-- Bytes placed at a position of what has arrived. -/
def placeAt (l : List Byte) (at_ : Nat) (d : List Byte) : List Byte := padTo (max at_ l.length) l |>.take at_ |>.append (d ++ l.drop (at_ + d.length))

/-- A part with a frame's bytes added. -/
def Part1.add (p : Part1) (f : Frame) (chunk : Nat) : Part1 :=
  let p := if cScale f then { p with scales := placeAt p.scales (cPos f - chunk * scaleChunk (cFmt f)) f.data }
    else { p with bytes := placeAt p.bytes (cPos f - chunk * 65536) f.data }
  { p with last := p.last || cLast f }

/-- Lengths of the members' complete parts agree (BROADCAST apart). -/
def Chunk.lengthsAgree (c : Chunk) (e : Epoch) : Bool :=
  e.cop == copBroadcast ||
    match c.parts.filter fun p => p.last with
    | [] => true
    | p :: t => t.all fun q => q.bytes.length == p.bytes.length && q.scales.length == p.scales.length

/-- The source of a COLL_DATA, COLL_CONFIRM or COLL_ABORT is the member that holds RANK, or a switch of the plane (08 R204). -/
def Switch.collSourceOk (w : Switch) (y : Synd) (f : Frame) : Bool :=
  f.partition == y.partition && (if isEpId f.src then y.member (cRank f) == some (f.src, f.agent) else f.src % 8 == w.sys.plane)

/-- L of an epoch as its first frame finds it: a frame of TC5 names no length, so a free value (log 16), but where the model's own end-point is a member
and has called, L is what its call names, as every member's does (08 R198). -/
def State.epochLength (s : State) (synd number : Nat) : Nat :=
  match s.ep.calls.find? fun c => c.c.synd == synd && c.epoch == number && decide (1 ≤ c.stage) with
  | some c => c.c.len
  | none => Config.freeBits s.fresh % 2 ^ 40

/-- A new epoch as its first COLL_DATA opens it, with the placements in force. -/
def State.newEpoch (s : State) (synd : Nat) (f : Frame) : Epoch :=
  { number := cEpoch f, cop := cCop f, rop := cRop f, fmt := cFmt f, sat := cSat f, unsigned := cUns f, root := cRoot f, len := s.epochLength synd (cEpoch f),
    place := ((s.sw.sched.active.bind (·.coll)).bind fun t => t.find synd).getD [] }

/-- Epochs that a new one shows to have closed: four or more behind it, every chunk that this plane carries of them settled (08 R200; DEDUCED, log
76). -/
def Synd.closedBy (y : Synd) (number : Nat) : List Nat :=
  (y.epochs.filter fun e =>
    let behind := (number + 4096 - e.number) % 4096
    decide (4 ≤ behind) && decide (behind < 2048) && e.chunks.all fun c => decide (c.2.state = ChunkState.settled)).map (·.number)

/-- A part of a chunk takes a frame's bytes. A partial result that is sent again after a recall replaces the earlier one. -/
def Epoch.take (e : Epoch) (f : Frame) (chunk level : Nat) : Epoch :=
  let c := e.chunks.get chunk {}
  let old := (c.parts.find? fun p => p.level == level && p.rank == cRank f).getD { rank := cRank f, level := level }
  let old := if old.last && cPos f == chunk * 65536 && !cScale f then { rank := cRank f, level := level } else old
  let p := old.add f chunk
  let c := { c with parts := c.parts.filter (fun p => !(p.level == level && p.rank == cRank f)) ++ [p] }
  { e with chunks := e.chunks.put chunk c, endChunk := if cEnd f then some chunk else e.endChunk }.withLength chunk p

/-- A COLL_DATA reaches a computing switch. One whose FMT or ROP no member may send is computed like any other (07 R171, R179; DESIGN CHOICE,
log 113). -/
def State.collData (s : State) (f : Frame) : State :=
  let i := cSynd f
  let o := s.sw.inboxOf f
  match s.sw.getSynd i with
  | none => (s.takeInbox o f).count 0 cSyndDiscard
  | some y =>
    let chunk := chunkOf (cFmt f) (cPos f) (cScale f)
    let e := (y.epoch (cEpoch f)).getD (s.newEpoch i f)
    if !s.sw.collSourceOk y f || y.closed.contains (cEpoch f) || e.aborted.isSome then (s.takeInbox o f).count 0 cSyndDiscard
    else if s.sw.quotaFull y e chunk f then s
    else
      let s := s.takeInbox o f
      let s := if (y.epoch (cEpoch f)).isSome then s else { s.each (y.closedBy (cEpoch f)) fun s n => s.closeEpoch i n with fresh := s.fresh + 1 }
      -- a Syndicate with a lost member refuses every later call (08 R222)
      if !y.lost.isEmpty then (s.putEpoch i e).abortFrom i e.number stMemberLost
      else if !e.agrees f chunk then (s.putEpoch i e).abortFrom i e.number stBadAddress
      else
        let c := e.chunks.get chunk {}
        let level := if isEpId f.src then 0 else e.levelOf y c (f.src / 8) s.sw.sys.rack (cRank f)
        -- its operands are kept already, and a recomputed node has the same bits (R183, R215)
        if c.state ≠ .open_ ∨ c.covered level (cRank f) then s
        else
          let e := e.take f chunk level
          let s := s.putEpoch i e
          if !(e.chunks.get chunk {}).lengthsAgree e then s.abortFrom i e.number stBadAddress else s.computeChunk i e.number chunk

/-! ### Settlement and recall (08 R213 to R215) -/

/-- What stays computed when a chunk is recalled: the nodes below those that are computed again from the kept operands (08 R215). -/
def Epoch.recomputed (e : Epoch) (y : Synd) (c : Chunk) (rack : Nat) : List Nat :=
  c.computed.filter fun n => !((e.tops y rack).any fun t => t.1 * 1024 + t.2 == n)

/-- Recall an attempt; the next is computed from the kept operands and sent. CHECK of COLL_RECALL and of COLL_ABORT is 0 (08 R202; DESIGN CHOICE,
log 114). -/
def State.recallChunk (s : State) (i : Nat) (y : Synd) (e : Epoch) (chunk a : Nat) : State :=
  let c := e.chunks.get chunk {}
  let e := { e with chunks := e.chunks.put chunk { c with state := .delivered (a + 1), owed := true, confirms := [], computed := e.recomputed y c s.sw.sys.rack } }
  let s := s.putEpoch i e
  let s := s.each (s.sw.fanOut y) fun s r => s.sendColl y e i r ftCollRecall a 0 chunk 0
  s.computeChunk i e.number chunk

/-- Staging has room for a settlement's entry, or the Ledger takes none. -/
def Switch.settleRoom (w : Switch) (partition : Nat) : Bool := !(w.getLedger partition).started || (w.getLedger partition).room 128 false

/-- A chunk settles: the Ledger entry, the settling confirms, and its kept operands freed. Waits where staging has no room (22 R531). -/
def State.settleChunk (s : State) (i : Nat) (y : Synd) (e : Epoch) (chunk a : Nat) : State :=
  if !s.sw.settleRoom y.partition then s
  else
    let c := e.chunks.get chunk {}
    let body := leBytes 1 i ++ leBytes 1 a ++ leBytes 2 e.number ++ leBytes 4 chunk ++ leBytes 4 c.check.toNat ++ leBytes 2 y.members.length
      ++ leBytes 1 e.fmt ++ leBytes 1 e.rop
    let s := s.ledgerAdd y.partition (s.mkEntry 0x06 0 s.sw.sys.homeId body)
    let e := { e with chunks := e.chunks.put chunk { c with state := .settled, parts := [] } }
    let s := s.putEpoch i e
    let s := s.each (s.sw.fanOut y) fun s r => s.sendColl y e i r ftCollConfirm a c.check.toNat chunk 0
    let s := s.sendCollSwitches y e i ftCollConfirm a c.check.toNat chunk 0
    if e.finished then
      s.closeEpoch i e.number
    else s

/-- Every member has confirmed the current attempt. -/
def Chunk.allConfirmed (c : Chunk) (y : Synd) : Bool := (List.range y.members.length).all c.confirms.contains

/-- A member's confirm reaches the root switch. -/
def State.collConfirm (s : State) (f : Frame) : State :=
  let i := cSynd f
  let s := s.takeInbox (s.sw.inboxOf f) f
  match s.sw.getSynd i with
  | none => s.count 0 cSyndDiscard
  | some y => match y.epoch (cEpoch f) with
    | none => s.count 0 cSyndDiscard
    | some e =>
      if !s.sw.collSourceOk y f || !s.sw.isRoot y then s.count 0 cSyndDiscard
      else
        let chunk := cPos f / 65536
        let c := e.chunks.get chunk {}
        match c.state with
        | .delivered a =>
          if cAttempt f ≠ a ∨ c.owed then s
          else if c.checks.find (cRank f) = some (cCheck f) then
            let c := { c with confirms := cRank f :: c.confirms.filter (· != cRank f) }
            let e := { e with chunks := e.chunks.put chunk c }
            let s := s.putEpoch i e
            if c.allConfirmed y then s.settleChunk i y e chunk a else s
          else if a < 3 then s.recallChunk i y e chunk a
          else s.abortEpoch i e.number stEcc
        | _ => s

/-- Forward a root switch's frame to the members of this rack (08 R209). Of a BROADCAST or REDUCE the members that receive nothing get an empty last
frame. -/
def State.forwardColl (s : State) (y : Synd) (f : Frame) : State :=
  let here := (List.range y.members.length).filter fun r => y.rackOfRank r == s.sw.sys.rack
  let takes (r : Nat) : Bool := takesData (cCop f) (cRoot f) r
  let one := f.typ = ftCollResult
  let ranks := if one ∧ cCop f = copReduceScatter then here.filter (· == cRank f)
    else if one then here.filter fun r => takes r == takes (cRank f)
    else if f.typ = ftCollAbort then here.filter (fun r => !y.lost.contains r) else here
  let rest := if one ∧ cCop f ≠ copReduceScatter ∧ cLast f ∧ takes (cRank f) then here.filter fun r => !takes r else []
  let give (s : State) (r : Nat) (f : Frame) : State := match y.member r with
    | none => s
    | some (h, a) =>
      let o := collOpx (cSynd f) r (cCop f) (cRop f) (cSat f) (cUns f) (cAttempt f)
      s.collSend { f with dest := h, agent := a, inc := s.sw.incFor h, opx := o }
  let empty : Frame := ({ f with offset := cPos f / 65536 * 65536, ext := collExt 0 (cEpoch f) true (cEnd f) (cFmt f) (cRoot f) } : Frame).withData []
  (s.each ranks fun s r => give s r f).each rest fun s r => give s r empty

/-- The root's settling confirm, recall, abort or result reaches another rack's switch. -/
def State.collFromRoot (s : State) (f : Frame) : State :=
  let i := cSynd f
  let s := s.takeInbox (s.sw.inboxOf f) f
  match s.sw.getSynd i with
  | none => s.count 0 cSyndDiscard
  | some y =>
    let s := match y.epoch (cEpoch f) with
      | none => if f.typ = ftCollAbort ∧ !y.closed.contains (cEpoch f) then s.closeEpoch i (cEpoch f) else s
      | some e =>
        let chunk := cPos f / 65536
        let c := e.chunks.get chunk {}
        if f.typ = ftCollConfirm then
          let e := { e with chunks := e.chunks.put chunk { c with state := .settled, parts := [] } }
          let s := s.putEpoch i e
          if e.finished then
            s.closeEpoch i e.number
          else s
        else if f.typ = ftCollRecall then
          if c.state ≠ ChunkState.open_ then s
          else (s.putEpoch i { e with chunks := e.chunks.put chunk { c with attempt := cAttempt f + 1, sent := [], computed := e.recomputed y c s.sw.sys.rack } }).computeChunk i e.number chunk
        else if f.typ = ftCollAbort then s.closeEpoch i e.number
        else s
    s.forwardColl y f

/-- COLL_ABORT at a switch: the root aborts the epoch; another frees its operands and forwards. -/
def State.collAbortSw (s : State) (f : Frame) : State :=
  match s.sw.getSynd (cSynd f) with
  | none => (s.takeInbox (s.sw.inboxOf f) f).count 0 cSyndDiscard
  | some y =>
    if s.sw.isRoot y then
      let s := s.takeInbox (s.sw.inboxOf f) f
      if !s.sw.collSourceOk y f || y.closed.contains (cEpoch f) then s.count 0 cSyndDiscard
      else
        let s := if (y.epoch (cEpoch f)).isSome then s else { s.putEpoch (cSynd f) (s.newEpoch (cSynd f) f) with fresh := s.fresh + 1 }
        s.abortEpoch (cSynd f) (cEpoch f) f.status
    else if isEpId f.src && (!s.sw.collSourceOk y f || y.closed.contains (cEpoch f)) then (s.takeInbox (s.sw.inboxOf f) f).count 0 cSyndDiscard
    else s.collFromRoot f

/-- The settlement limit of a chunk passes. -/
def State.settlementLimit (s : State) (i number chunk : Nat) : State :=
  match s.sw.getSynd i with
  | none => s
  | some y => match y.epoch number with
    | none => s
    | some e =>
      match e.chunks.find chunk with
      | none => s
      | some c =>
        if !s.sw.isRoot y then s
        else match c.state with
          | .open_ => s.abortEpoch i number stTimeout
          | .delivered a =>
            if c.allConfirmed y && s.sw.settleRoom y.partition then s.settleChunk i y e chunk a
            else if a < 3 then s.recallChunk i y e chunk a else s.abortEpoch i number stTimeout
          | _ => s

end Sys2Proof.Machine
end

