-- ==== Sys2Proof/Machine/Escrow.lean ====
section
/-!
DEFINITION. Translation for the switch's engines and the service of misses (02 R31 to R46), and Escrow: graphs, tasks, their
requests and their ends (09 R223 to R252).
-/

namespace Sys2Proof.Machine

/-! ### Translation levels and host reads -/

def State.onXlat (s : State) (g : Xlat → Xlat) : State := s.onSw fun w => { w with xlat := g w.xlat }

/-- Put a held translation in front, within a level's size (02 R38). -/
def holdIn (n : Nat) (h : Held) (l : List Held) : List Held :=
  (h :: l.filter fun x => !(x.ctx == h.ctx && x.seg == h.seg)).take n

/-- The unit whose first level a user looks in: an engine, or 48 for the Escrow port. -/
def xlatUnit (e : Nat) : Nat := if e < 48 then e else 48

/-- Install a translation in both levels for a user. -/
def State.hold (s : State) (e : Nat) (h : Held) : State :=
  s.onXlat fun x => { x with l1 := x.l1.put (xlatUnit e) (holdIn 8 h (x.l1.get (xlatUnit e) [])), l2 := holdIn 4096 h x.l2 }

/-- The held translation that covers a CVA for a party: first level, then second with a copy into the first. -/
def State.lookup (s : State) (e ctx partition cva : Nat) : Option Held × State :=
  let hit (h : Held) := h.ctx == ctx && h.desc.covers cva && h.desc.partition == partition
  match (s.sw.xlat.l1.get (xlatUnit e) []).find? hit with
  | some h => (some h, s.onXlat fun x => { x with l1 := x.l1.put (xlatUnit e) (holdIn 8 h (x.l1.get (xlatUnit e) [])) })
  | none => match s.sw.xlat.l2.find? hit with
    | some h => (some h, s.onXlat fun x => { x with l1 := x.l1.put (xlatUnit e) (holdIn 8 h (x.l1.get (xlatUnit e) [])), l2 := holdIn 4096 h x.l2 })
    | none => (none, s)

/-- What serving a miss finds in a context entry: a descriptor, or a fault kind with the segment concerned. -/
inductive Found2 where
  | ok (seg : Nat) (d : Desc)
  | bad (kind seg : Nat)

/-- The answer for a CVA and a party from the 1 KiB of a context entry (02 R32, R33). -/
def Switch.serveMiss (w : Switch) (exposed : Nat → Nat) (data : List Byte) (ctx partition cva : Nat) : Found2 :=
  let ds := (List.range 32).map fun n => (n, decodeDesc (slice data (32 * n) 32))
  let cov := ds.filter fun p => p.2.covers cva
  match cov.find? fun p => p.2.malformed ctx partition (w.slotOf p.2.keySlot partition) exposed with
  | some (n, _) => .bad fBadDescriptor n
  | none => match cov with
    | [] => .bad fNoSegment 0xFF
    | [(n, d)] => .ok n d
    | (n, _) :: _ :: _ => .bad fOverlap n

/-- A translation fault's DETAIL: context and segment. -/
def xlatDetail (ctx seg : Nat) : List Byte := leBytes 2 ctx ++ leBytes 1 seg

/-- Record a translation fault (02 R45). -/
def State.xlatFault (s : State) (kind ctx seg partition : Nat) (group : Option Nat) : State :=
  s.record { kind := kind, partition := partition, status := if kind = fTableRead then stTimeout else stSegFault, detail := xlatDetail ctx seg, group := group }

/-- Size of the memory that an end-point exposes: the model's own end-point's, or a free value for another (log 77). -/
def State.exposedSize (s : State) (h : Nat) : Nat := if h = s.ep.homeId then s.ep.exposed.toNat else Config.exposedSize h

/-- No edge port is live (02 R46). -/
def Switch.noEdge (w : Switch) : Bool := w.activeEdges.isEmpty

/-- Host address of a context's entry, if a table base is given for its rack (02 R35, R36). -/
def Switch.tableAddr (w : Switch) (ctx : Nat) : Option Nat := (w.xlat.base.find (ctx / 8192)).map fun b => b + ctx % 8192 * 0x400

/-- The switch can issue host reads: the HOST link is up and PF0 may master the bus (18 R454, 25 R579). -/
def Switch.hostReads (w : Switch) : Bool := w.sys.hostLink && w.sys.busMaster

/-- Join or start the host read of a context (02 R42, R43). full: both limits leave no room. -/
def State.startRead (s : State) (ctx addr : Nat) (m : Miss) : State :=
  let x := s.sw.xlat
  if (x.reads.map fun r => r.waiters.length).foldl (· + ·) 0 ≥ 8192 then s
  else match x.reads.find? fun r => r.ctx == ctx with
    | some r =>
      if r.waiters.contains m then s
      else s.onXlat fun x => { x with reads := x.reads.map fun r => if r.ctx == ctx then { r with waiters := r.waiters ++ [m] } else r }
    | none =>
      if x.reads.length ≥ 256 then s
      else
        (s.onXlat fun x => { x with reads := x.reads ++ [{ ctx := ctx, id := x.nextRead, waiters := [m] }], nextRead := x.nextRead + 1 }).emit (.pcieRead addr 1024)

/-- A miss would need a host read that fails at once (18 R454): none is in flight for its context, and the switch can issue none. -/
def Switch.readFails (w : Switch) (ctx : Nat) : Bool := !w.hostReads && !(w.xlat.reads.any fun r => r.ctx == ctx)

/-- The fault of a host read that fails as it is issued (02 R44). -/
def State.readFault (s : State) (ctx partition : Nat) : State :=
  (s.xlatFault fTableRead ctx 0xFF partition (some s.sw.xlat.nextRead)).onXlat fun x => { x with nextRead := x.nextRead + 1 }

/-! ### Tasks and graphs -/

def Switch.getGraph (w : Switch) (slot : Nat) : Option Graph := w.escrow.graph.find slot

def State.putGraph (s : State) (slot : Nat) (g : Graph) : State := s.onEscrow fun e => { e with graph := e.graph.put slot g }

/-- Task t of a graph. -/
def Switch.getTask (w : Switch) (slot t : Nat) : Option Task := (w.getGraph slot).bind fun g => g.tasks[t]?

def State.onTask (s : State) (slot t : Nat) (f : Task → Task) : State :=
  match s.sw.getGraph slot with
  | none => s
  | some g => s.putGraph slot { g with tasks := g.tasks.modify t f }

/-- Tasks of a graph completed with OK so far. -/
def Graph.doneCount (g : Graph) : Nat := (g.tasks.filter fun t => t.state == .done).length

/-- Class of a task's or done record's requests. -/
def reqClass (sched : Bool) : Nat := if sched then 1 else 3

/-- The request frame of an access under a descriptor that covers it (02 R40, 03 R57). -/
def Switch.accessFrame (w : Switch) (agent cls : Nat) (d : Desc) (a : Access) : Frame :=
  let (home, off) := d.place (a.cva - d.cvaBase)
  let base : Frame := { dest := home, src := w.sys.homeId, agent := agent, partition := d.partition, cls := cls, keySlot := d.keySlot,
                        inc := w.incFor home, offset := off }
  match a.kind with
  | .read => { base with typ := ftReadVol, length := a.len }
  | .write => ({ base with typ := if d.log then ftWriteLog else ftWrite }).withData a.data
  | .flagged => ({ base with typ := if d.log then ftWriteLog else ftWrite, f := true }).withData a.data
  | .atomic opx ext => ({ base with typ := ftAtomic, opx := opx, ext := ext }).withData a.data

/-- Port of arrival of the responses to requests for a destination: its route, or 64 for the switch's own home. An engine reaches no end-point of
another rack (09 R224). -/
def Switch.portTo (w : Switch) (dest : Nat) : Option Nat :=
  if dest = w.sys.homeId then some 64
  else if isEpId dest && epRack dest != w.sys.rack then none
  else w.route dest

/-! ### The core stages and the in-flight table of the switch (04 R90 to R94; 03 R81, R85, R86) -/

/-- The request belongs to a party: an engine, or Escrow's own port. A host access belongs to none. -/
def Flight.ofParty (x : Flight) : Bool := match x.owner with | .host _ _ => false | _ => true

/-- Two requests of one party, or of one function's apertures. -/
def Flight.sameParty (x y : Flight) : Bool := x.engine == y.engine && x.ofParty == y.ofParty

/-- A write of any form. -/
def Flight.isWrite (x : Flight) : Bool := x.f.typ == ftWrite || x.f.typ == ftWriteLog

/-- Two requests touch one line of one home. -/
def Flight.meets (x y : Flight) : Bool := x.f.dest == y.f.dest && x.f.lines.any y.f.lines.contains

/-- The engine's release fence runs, and this request was issued after it (04 R90). -/
def Switch.fenceHolds (w : Switch) (x : Flight) : Bool :=
  x.ofParty && match (w.getEngine x.engine).task with
    | some (slot, t) => ((w.escrow.graph.find slot).bind fun g => g.tasks[t]?).any fun y => y.result.isSome && y.ended.isNone && decide (y.fenceAt ≤ x.order)
    | none => false

/-- Two requests of one party, class, destination and plane, of which the first was issued first. -/
def Flight.before (x y : Flight) : Bool :=
  x.sameParty y && x.f.dest == y.f.dest && x.port == y.port && x.f.cls == y.f.cls && decide (x.order < y.order)

/-- A flagged request that its core stage holds for an earlier one, among the first four of its party and class: later requests to another
destination, plane or class do not wait for it (03 R85). -/
def Switch.heldFlag (w : Switch) (y : Flight) : Bool :=
  let earlier := (w.escrow.flight ++ w.escrow.held).filter fun z => z.sameParty y && z.f.cls == y.f.cls && decide (z.order < y.order)
  y.f.f && !earlier.isEmpty && decide ((earlier.filter fun z => z.f.f && w.escrow.held.contains z).length < 4)

/-- A request may leave its core stage: it is translated; every earlier one of its party has left, but for a flagged one held on another path (03 R82,
R85, 04 R90), and every earlier one of its function's apertures on its path; flagged, none of its party and class is incomplete (R85); a read or
atomic of a party has no request to its lines in the in-flight table, and none held in its core stage (04 R94); and no release fence holds it (04
R90). -/
def Switch.mayLeave (w : Switch) (x : Flight) : Bool :=
  let ahead := w.escrow.held.filter fun y => decide (y.order < x.order)
  -- a source without credit issues nothing more of the class (13 R353)
  (w.core.waiting.get (x.src * 8 + x.f.cls) []).isEmpty && w.hasCredit x.src x.f && x.sent && !(ahead.any fun y => y.before x || (x.ofParty && y.sameParty x && !w.heldFlag y))
    && (!x.f.f || !((w.escrow.flight ++ ahead).any fun y => y.sameParty x && y.f.cls == x.f.cls && decide (y.order < x.order)))
    && (x.isWrite || !x.ofParty || !((w.escrow.flight.any fun y => y.ofParty && y.meets x)
        || ahead.any fun y => y.ofParty && y.engine / 8 == x.engine / 8 && y.meets x))
    && !w.fenceHolds x

/-- Put a request in the in-flight table and send its frame, with a free tag of its port (03 R81). The request that had the tag before has completed,
and no invalidation waits for it (02 R51). -/
def State.sendNow (s : State) (x : Flight) (tag : Nat) : State :=
  let f := { x.f with tag := tag, inc := s.sw.incFor x.f.dest }
  let s := s.onSw fun w => { w with
    core := { w.core with nextTag := w.core.nextTag.put x.port ((tag + 1) % 4096) }
    xlat := { w.xlat with inval := w.xlat.inval.map fun z => { z with draining := z.draining.filter (· != x.port * 4096 + tag) } } }
  (s.onEscrow fun e => { e with flight := e.flight ++ [{ x with tag := tag, f := f, sent := true, fail := none }] }).swSend x.src f

/-- A request is issued: it leaves now, or its core stage holds it. -/
def State.sendFlight (s : State) (x : Flight) : State :=
  match (if s.sw.mayLeave x then s.sw.freeTag x.port else none) with
  | some tag => s.sendNow x tag
  | none => s.onEscrow fun e => { e with held := insertBy (·.order) x e.held }

/-- The switch issues a request toward a port (64: its own home). -/
def State.sendRequest (s : State) (src port : Nat) (f : Frame) (owner : Owner) (engine cva : Nat) (h : Held) : State :=
  let n := s.sw.escrow.orderCount
  (s.onEscrow fun e => { e with orderCount := n + 1 }).sendFlight
    { port := port, owner := owner, engine := engine, f := f, src := src, order := n, ctx := h.ctx, desc := h.desc, cva := cva }

/-- What a core stage serves a read from: the last write to its lines that it still holds, where that write covers the read (04 R94). -/
def Switch.coreServes (w : Switch) (e : Nat) (f : Frame) : Option (List Byte) :=
  let r : Flight := { port := 0, owner := .done 0, engine := e, f := f }
  match (w.escrow.held.filter fun y => y.ofParty && y.engine / 8 == e / 8 && y.meets r).getLast? with
  | some y =>
    if f.typ == ftReadVol && y.isWrite && decide (y.f.offset ≤ f.offset) && decide (f.offset + f.length ≤ y.f.offset + y.f.length) then
      some (slice y.f.data (f.offset - y.f.offset) f.length)
    else none
  | none => none

/-- A slot closed to the switch's own senders (21 R505), or not assigned to the partition. -/
def Switch.slotClosed (w : Switch) (d : Desc) : Bool := (w.getSlot d.keySlot).state == .retiring

/-- The result of checking one range by R39. -/
inductive Checked where
  | ok
  /-- the check fails with SEG_FAULT; kind and segment of the fault to record, if the switch records one here -/
  | fail (fault : Option (Nat × Nat))
  /-- no translation is held for this CVA -/
  | miss (cva : Nat)

/-- Check a range of an engine's access, segment by segment (02 R29, R39). fuel: the 32 segments a context can have. -/
def State.checkRange (s : State) (e ctx partition : Nat) (write atomic : Bool) : (fuel cva len : Nat) → Checked × State
  | 0, _, _ => (.fail none, s)
  | k + 1, cva, len =>
    if len = 0 then (.ok, s)
    else if cva + len > 2 ^ 56 then (.fail none, s)
    else match s.lookup e ctx partition cva with
      | (none, s) => (.miss cva, s)
      | (some h, s) =>
        if !h.desc.permits write atomic then (.fail (some (fPermission, h.seg)), s)
        else
          let n := h.desc.cvaBase + h.desc.size - cva
          s.checkRange e ctx partition write atomic k (cva + n) (len - n)

/-- Check every range of a list. -/
def State.checkRanges (s : State) (e ctx partition : Nat) : List Range → Checked × State
  | [] => (.ok, s)
  | r :: t => match s.checkRange e ctx partition r.write r.atomic 34 r.cva r.len with
    | (.ok, s) => s.checkRanges e ctx partition t
    | x => x

/-- What becomes of an engine's miss (02 R36, R42, R44, R46): the status that it ends with at once, or none and a host read that will answer it. who:
the engine, or 256 + graph slot. -/
def State.engineMiss (s : State) (who ctx partition cva : Nat) : Option Nat × State :=
  if s.sw.noEdge then
    let s := s.onXlat fun x => { x with l1 := [], l2 := [] }
    (some stSegFault, s.xlatFault fUnreachable ctx 0xFF partition none)
  else match s.sw.tableAddr ctx with
    | none => (some stSegFault, s.xlatFault fNoSegment ctx 0xFF partition none)
    | some a =>
      if s.sw.readFails ctx then (some stTimeout, s.readFault ctx partition)
      else (none, s.startRead ctx a (.engine who partition cva))

/-! ### Running a task -/

/-- A release fence of an engine completes (04 R90): CORE (0) at once, CHIP (1) when every earlier request of the engine is in the in-flight table,
SYSTEM (2) when every earlier one has completed. -/
def Switch.released (w : Switch) (e scope before : Nat) : Bool :=
  let earlier (y : Flight) : Bool := y.ofParty && y.engine == e && decide (y.order < before)
  (scope == 0 || !(w.escrow.held.any earlier)) && (decide (scope ≤ 1) || !(w.escrow.flight.any earlier))

/-- Status of a SYSTEM release fence: of the first failed write that the engine issued since its previous one (04 R91). -/
def Switch.fenceStatus (w : Switch) (e before : Nat) : Nat :=
  match sortBy (fun b => b.1) ((w.escrow.badWrite.get e []).filter fun b => decide (b.1 < before)) with
  | b :: _ => b.2
  | [] => stOk

/-- An engine's acquire fence completes when none of its earlier reads and atomics is incomplete (04 R93). -/
def Switch.acquired (w : Switch) (e : Nat) : Bool :=
  !((w.escrow.flight ++ w.escrow.held).any fun y => y.ofParty && y.engine == e && !y.isWrite)

/-- The release fence of a task whose work is over: once it completes the task has ended, with the first failed status of its requests, or with the
fence's (04 R95, 09 R247). WAIT_TIME runs on no engine and fences nothing. -/
def State.releaseTask (s : State) (slot t : Nat) : State :=
  match s.sw.getTask slot t with
  | none => s
  | some x => match x.result with
    | none => s
    | some st =>
      let scope := (TaskDesc.of x.desc).scopes / 4 % 4
      if x.ended.isSome || x.state != .running then s
      else if decide (48 ≤ x.engine) then s.onTask slot t fun x => { x with ended := some st }
      else if !s.sw.released x.engine scope x.fenceAt then s
      else
        let fs := if scope = 2 then s.sw.fenceStatus x.engine x.fenceAt else stOk
        let s := if scope = 2 then s.onEscrow fun e => { e with badWrite := e.badWrite.put x.engine ((e.badWrite.get x.engine []).filter fun b => decide (x.fenceAt ≤ b.1)) } else s
        s.onTask slot t fun x => { x with ended := some (if st = stOk then fs else st) }

/-- The task's work is over with a status: its release fence runs, and then TASK_COMPLETE takes it. -/
def State.endTask (s : State) (slot t status : Nat) : State :=
  (s.onTask slot t fun x => { x with result := some status, fenceAt := s.sw.escrow.orderCount, xwait := none }).releaseTask slot t

/-- An access that its engine completes itself with a failure: a write or atomic counts for the engine's next SYSTEM release fence (04 R91). -/
def State.answerSelf (s : State) (slot t i e : Nat) (a : Access) (st : Nat) : State :=
  let s := match a.kind with
    | .read => s
    | _ => s.onEscrow fun x => { x with orderCount := x.orderCount + 1, badWrite := x.badWrite.put e ((x.orderCount, st) :: x.badWrite.get e []) }
  s.onTask slot t fun x => { x with phase := x.phase.put i { status := st } }

/-- An ATOMIC that breaks R59 or R66 to R68, which no engine sends. -/
def badAtomic (f : Frame) : Bool := f.typ == ftAtomic && !atomicOk f.opx f.ext f.offset f.length

/-- Issue the accesses of a phase: each becomes a frame, or an answer at once. -/
def State.issue (s : State) (slot t e ctx partition cls : Nat) : (i : Nat) → List Access → State
  | _, [] => s
  | i, a :: rest =>
    let s := match s.lookup e ctx partition a.cva with
      | (none, s) => s.answerSelf slot t i e a stSegFault
      | (some h, s) =>
        if s.sw.slotClosed h.desc then s.answerSelf slot t i e a stSegFault
        else
          let f := s.sw.accessFrame e cls h.desc a
          if badAtomic f then s.answerSelf slot t i e a stBadAddress else
          match s.sw.portTo f.dest, s.sw.coreServes e f with
          | none, _ => s.answerSelf slot t i e a stBadAddress
          | some _, some d => s.onTask slot t fun x => { x with phase := x.phase.put i { status := stOk, data := d } }
          | some p, none => (s.onTask slot t fun x => { x with outstanding := x.outstanding + 1 }).sendRequest (outCore (e / 8)) p f (.task slot t i) e a.cva h
    s.issue slot t e ctx partition cls (i + 1) rest

/-- Ranges that a phase's accesses need held. -/
def accRanges (accs : List Access) : List Range :=
  accs.map fun a => match a.kind with
    | .read => { cva := a.cva, len := a.len }
    | .atomic _ _ => { cva := a.cva, len := a.len, atomic := true }
    | _ => { cva := a.cva, len := a.len, write := true }

/-- A check failed or must wait: the task ends with SEG_FAULT, or waits for a translation. -/
def State.checkFailed (s : State) (slot t e ctx partition : Nat) : Checked → State
  | .ok => s
  | .fail none => s.endTask slot t stSegFault
  | .fail (some (k, seg)) => (s.xlatFault k ctx seg partition s.sw.xlat.serving).endTask slot t stSegFault
  | .miss cva =>
    match s.engineMiss e ctx partition cva with
    | (none, s) => s.onTask slot t fun x => { x with xwait := some cva }
    | (some st, s) => s.endTask slot t st

/-- Go on with a task's program until it waits or ends. -/
def State.runProg (s : State) (slot t e ctx partition cls : Nat) : Prog → State
  | .done st => s.endTask slot t st
  | .check rs next =>
    match s.checkRanges e ctx partition rs with
    | (.ok, s) => (s.onTask slot t fun x => { x with log := x.log ++ [[]] }).runProg slot t e ctx partition cls next
    | (c, s) => s.checkFailed slot t e ctx partition c
  | .ask accs next =>
    match s.checkRanges e ctx partition (accRanges accs) with
    | (.ok, s) =>
      let s := s.onTask slot t fun x => { x with phase := [], outstanding := 0 }
      let s := s.issue slot t e ctx partition cls 0 accs
      match s.sw.getTask slot t with
      | none => s
      | some x =>
        if x.outstanding ≠ 0 then s
        else
          let rs := (List.range accs.length).map fun i => x.phase.get i { status := stOk }
          (s.onTask slot t fun x => { x with log := x.log ++ [rs], phase := [] }).runProg slot t e ctx partition cls (next rs)
    | (c, s) => s.checkFailed slot t e ctx partition c

/-- An engine in STILL, or in or between deeper states, pauses its task (20 R492). -/
def Switch.enginePaused (w : Switch) (e : Nat) : Bool := decide (e < 48) && ((w.getEngine e).held || !w.awake 1 e)

/-- Run or resume a running task: its acquire fence stands before its first read (04 R95). -/
def State.resumeTask (s : State) (slot t : Nat) : State :=
  match s.sw.getGraph slot with
  | none => s
  | some g => match g.tasks[t]? with
    | none => s
    | some x =>
      if x.state ≠ .running ∨ x.result.isSome ∨ x.outstanding ≠ 0 ∨ s.sw.enginePaused x.engine ∨ (x.log.isEmpty ∧ ¬s.sw.acquired x.engine) then s
      else
        let s := s.onTask slot t fun y => { y with xwait := none }
        let d := TaskDesc.of x.desc
        if d.kind = 0x0E then s
        else s.runProg slot t x.engine g.ctx g.partition (reqClass d.sched) ((taskProg x.desc g.tag t g.doneCount).replay x.log)

/-! ### Dispatch (09 R245) -/

/-- Ready tasks in dispatch order: slot, task, descriptor, partition. -/
def Switch.readyTasks (w : Switch) : List (Nat × Nat × TaskDesc × Nat) :=
  let all := w.escrow.graph.flatMap fun g => (g.2.tasks.zipIdx.filter fun t => t.1.state == .ready).map fun t =>
    (t.1.readyAt, g.1, t.2, TaskDesc.of t.1.desc, g.2.partition)
  (sortBy (fun x => x.1) all).map fun x => x.2

/-- Start a task on an engine. -/
def State.startTask (s : State) (slot t e : Nat) : State :=
  let s := s.onTask slot t fun x => { x with state := .running, engine := e, log := [], phase := [], outstanding := 0, result := none, ended := none, xwait := none }
  let s := (s.putEngine e { s.sw.getEngine e with task := some (slot, t) }).work 1 e
  (s.count (blkEng e) 0).resumeTask slot t

/-- Dispatch ready tasks to idle engines in order, COLLECTIVE tasks before any of a graph (09 R240, R245); a WAIT_TIME task takes no engine. -/
def State.dispatch (s : State) : State :=
  let s := s.collDispatch
  s.each s.sw.readyTasks fun s x =>
    let (slot, t, d, part) := x
    if d.kind = 0x0E then s.onTask slot t fun y => { y with state := .running, engine := 0xFF }
    else if d.engine = 0xFF then
      match engines48.find? fun e => s.sw.engineFree e part with
      | some e => s.startTask slot t e
      | none => s
    else if s.sw.engineFree d.engine part then s.startTask slot t d.engine else s

/-! ### Ends of tasks and graphs (09 R247 to R250) -/

/-- Predecessors of a task. -/
def Graph.preds (g : Graph) (t : Nat) : List Nat := (g.edges.filter fun e => e.2 == t).map Prod.fst

/-- Tasks that depend on t through a chain of edges: one pass in ascending order suffices, since every edge ascends. -/
def Graph.dependants (g : Graph) (t : Nat) : List Nat :=
  (List.range g.tasks.length).foldl (fun acc i => if (g.preds i).any fun p => p == t || acc.contains p then acc ++ [i] else acc) []

/-- Not started: waiting, ready, or waiting for a re-run. -/
def TaskState.unstarted : TaskState → Bool
  | .waiting | .ready | .retryWait => true
  | _ => false

/-- A task is over. -/
def TaskState.over : TaskState → Bool
  | .done | .failed | .cancelled => true
  | _ => false

/-- Tasks whose predecessors have all completed become ready. -/
def State.readyUp (s : State) (slot : Nat) : State :=
  match s.sw.getGraph slot with
  | none => s
  | some g =>
    let n := s.sw.escrow.readyCount
    let g' := { g with tasks := g.tasks.zipIdx.map fun t =>
      if t.1.state == .waiting && (g.preds t.2).all fun p => (g.tasks[p]?).any fun x => x.state == .done then { t.1 with state := .ready, readyAt := n } else t.1 }
    (s.putGraph slot g').onEscrow fun e => { e with readyCount := n + 1 }

/-- Record a failed task with its graph tag, index and KIND (09 R247, log 51) and mark it. Tasks that one event fails have failed together. -/
def State.failTask (s : State) (slot t status : Nat) : State :=
  match s.sw.getGraph slot with
  | none => s
  | some g =>
    let n := s.sw.escrow.failCount
    let s := s.onTask slot t fun x => { x with state := .failed, status := status, failedAt := n }
    let s := s.count (blkPart g.partition) 1
    s.record { kind := fTaskFailed, domain := 5, index := g.partition, partition := g.partition, status := status,
               detail := leBytes 4 g.tag ++ leBytes 1 t ++ leBytes 1 (((g.tasks[t]?).map fun x => (TaskDesc.of x.desc).kind).getD 0) }

/-- Cancel the tasks that p selects among the unstarted; one that awaits a re-run, with its engine or without, fails for good with its last status (09
R249). -/
def State.cancelTasks (s : State) (slot : Nat) (p : Nat → Bool) : State :=
  match s.sw.getGraph slot with
  | none => s
  | some g =>
    let hit := g.tasks.zipIdx.filter fun t => t.1.state.unstarted && p t.2
    s.each hit fun s t =>
      if decide (0 < t.1.runs) then s.failTask slot t.2 t.1.status else s.onTask slot t.2 fun x => { x with state := .cancelled }

/-- The done record's STATUS and TASK (09 R250). -/
def Graph.outcome (g : Graph) : Nat × Nat :=
  let failed := g.tasks.zipIdx.filter fun t => t.1.state == .failed
  match sortBy (fun t => t.1.failedAt * 256 + t.2) failed with
  | (x, t) :: _ => (x.status, t)
  | [] => (match g.cancel with | .none => stOk | .deadline => stTimeout | .fenced => stFenced, 0)

/-- Record that a done record could not be written. -/
def State.doneLost (s : State) (partition tag : Nat) : State :=
  s.record { kind := fDoneLost, domain := 5, index := partition, partition := partition, detail := leBytes 4 tag }

/-- Free a graph's slot and let in what waits for one. -/
def State.freeSlot (s : State) (slot : Nat) : State := s.onEscrow fun e => { e with graph := e.graph.del slot }

/-- Write the done record of a graph whose tasks are over, by engine e or the Escrow port; wait on a miss. A record that crosses a line goes in two
frames. -/
def State.writeDone (s : State) (slot : Nat) (g : Graph) : State :=
  let e := (engines48.find? fun e => s.sw.engineOwner e == g.partition && !(s.sw.getEngine e).fenced).getD 48
  let lost (s : State) := (s.doneLost g.partition g.tag).freeSlot slot
  match s.checkRange e g.ctx g.partition true false 34 g.doneAddr 16 with
  | (.fail none, s) => lost s
  | (.fail (some (k, seg)), s) => lost (s.xlatFault k g.ctx seg g.partition s.sw.xlat.serving)
  | (.miss cva, s) => match s.engineMiss (256 + slot) g.ctx g.partition cva with
    | (none, s) => s.putGraph slot { g with ending := true }
    | (some _, s) => lost s
  | (.ok, s) =>
    let (st, t) := g.outcome
    let parts := (writeAcc g.doneAddr (noteRecord g.doneValue g.tag st t g.doneCount) true).map fun a =>
      ((s.lookup e g.ctx g.partition a.cva).1.filter fun h => !s.sw.slotClosed h.desc).bind fun h =>
        let f := s.sw.accessFrame (if e < 48 then e else 63) (reqClass g.sched) h.desc a
        (s.sw.portTo f.dest).map fun p => (p, f, a.cva, h)
    if parts.any Option.isNone then lost s
    else
      let s := s.putGraph slot { g with ending := true, doneLeft := parts.length, doneBad := stOk }
      s.each (parts.filterMap id) fun s q => s.sendRequest (if e < 48 then outCore (e / 8) else outEscrow) q.1 q.2.1 (.done slot) e q.2.2.1 q.2.2.2

/-- A graph whose tasks are all over ends: the done record, then its slot is freed. -/
def State.endGraph (s : State) (slot : Nat) : State :=
  match s.sw.getGraph slot with
  | none => s
  | some g =>
    if g.ending || !(g.tasks.all fun t => t.state.over) then s
    else
      let s := s.count (blkPart g.partition) 2
      if g.noDone then (s.doneLost g.partition g.tag).freeSlot slot
      else if g.doneAddr = 0 then s.freeSlot slot
      else s.writeDone slot g

/-- Whether a failed task is run again (09 R248). fencedEngine: it failed because its engine was fenced. -/
def Switch.mayRetry (w : Switch) (x : Task) (status : Nat) (fencedEngine : Bool) : Bool :=
  let d := TaskDesc.of x.desc
  decide (x.runs < d.retry) && ([stAged, stBusyTimeout, stTimeout].contains status || (status == stFenced && fencedEngine))
    && !(d.engine != 0xFF && (w.getEngine d.engine).fenced)

/-- A task ends with a status: done, run again, or failed for good with what that cancels. -/
def State.settleTask (s : State) (slot t status : Nat) (fencedEngine : Bool) : State :=
  match s.sw.getGraph slot, s.sw.getTask slot t with
  | some g, some x =>
    let e := x.engine
    let s := if e < 48 ∧ (s.sw.getEngine e).task = some (slot, t) then s.putEngine e { s.sw.getEngine e with task := none } else s
    if status = stOk then (s.onTask slot t fun y => { y with state := .done, result := none, ended := none }).readyUp slot
    else if !g.closed ∧ s.sw.mayRetry x status fencedEngine then
      let again (y : Task) : Task := { y with status := status, runs := y.runs + 1, result := none, ended := none }
      if status = stTimeout then s.onTask slot t fun y => { again y with state := .retryWait }
      else
        let n := s.sw.escrow.readyCount
        (s.onTask slot t fun y => { again y with state := .ready, readyAt := n }).onEscrow fun e => { e with readyCount := n + 1 }
    else
      let s := s.failTask slot t status
      let deps := g.dependants t
      s.cancelTasks slot fun i => g.halt || deps.contains i
  | _, _ => s

/-! ### Submission and admission (09 R229 to R236) -/

def Switch.getMbox (w : Switch) (m : Nat) : FabMbox := w.escrow.mbox.get m {}
def State.putMbox (s : State) (m : Nat) (x : FabMbox) : State := s.onEscrow fun e => { e with mbox := e.mbox.put m x }

/-- n image bytes at an offset. -/
def FabMbox.bytes (x : FabMbox) (off n : Nat) : List Byte := (List.range n).map fun i => x.image.get (off + i) 0

/-- The graph of an image and its result: ADMITTED (0) or the first failed check with its task (09 R234). -/
def Switch.checkGraph (w : Switch) (m : Nat) (x : FabMbox) : Nat × Nat × Graph :=
  let h := x.bytes 0 64
  let n := field h 2 2
  let ne := field h 4 2
  let ctx := field h 6 2
  let edges := (List.range (min ne 1024)).map fun j => (field (x.bytes (0x400 + 2 * j) 1) 0 1, field (x.bytes (0x400 + 2 * j + 1) 1) 0 1)
  let descs := (List.range (min n 256)).map fun t => x.bytes (0x1000 + 64 * t) 64
  let g : Graph := { mailbox := m, partition := x.partition, ctx := ctx, tag := field h 8 4, halt := bit (field h 1 1) 0, sched := bit (field h 1 1) 1,
                     doneAddr := field h 0x10 8, doneValue := field h 0x18 8, deadline := field h 12 4, edges := edges,
                     tasks := descs.map fun d => { desc := d } }
  let first (p : TaskDesc → Bool) : Option Nat := (descs.zipIdx.find? fun d => p (TaskDesc.of d.1)).map Prod.snd
  if decide (field h 1 1 > 3) || n == 0 || decide (n > 256) || decide (ne > 1024) || (slice h 0x20 32).any (· != 0) then (1, 0, g)
  else if ctx / 8192 ≥ w.sys.racks then (2, 0, g)
  else if edges.any fun e => decide (n ≤ e.1 ∨ n ≤ e.2 ∨ e.2 ≤ e.1) then (3, 0, g)
  else match first fun d => d.kind == 0 || d.kind == 6 || decide (d.kind > 15) with
    | some t => (4, t, g)
    | none => match first fieldsBad with
      | some t => (5, t, g)
      | none => match first fun d => d.engine != 0xFF && !(decide (d.engine < 48) && w.engineOwner d.engine == x.partition) with
        | some t => (6, t, g)
        | none => match first retryBad with
          | some t => (7, t, g)
          | none => (0, 0, g)

/-- A partition is closed to new work: a tenant that is not ADMITTED, or whose key slot is RETIRING (09 R234, R252). -/
def Switch.closedToWork (w : Switch) (partition : Nat) : Bool :=
  partition != 0 && ((w.getPart partition).state != .admitted
    || slots32.any fun k => (w.getSlot k).state == .retiring && (w.getSlot k).partition == partition)

/-- A graph slot free for a partition within its quota. -/
def Switch.freeGraphSlot (w : Switch) (partition : Nat) : Option Nat :=
  let held := (w.escrow.graph.filter fun g => g.2.partition == partition).length
  if held ≥ (w.getPart partition).graphQuota then none else (List.range 64).find? fun i => (w.escrow.graph.find i).isNone

/-- Put a graph in a slot: its first tasks become ready and are dispatched. -/
def State.admitGraph (s : State) (slot : Nat) (g : Graph) : State :=
  let s := s.putMbox g.mailbox { s.sw.getMbox g.mailbox with filling := false, image := [], result := 0, task := 0, slot := slot, tag := g.tag }
  (s.putGraph slot g).readyUp slot

/-- Empty a mailbox after a GO (09 R236), with its result. -/
def State.emptyMbox (s : State) (m result task tag : Nat) : State :=
  s.putMbox m { s.sw.getMbox m with filling := false, image := [], result := result, task := task, tag := tag }

/-- Answer a request that came to Escrow. -/
def State.escrowRespond (s : State) (f : Frame) (status : Nat) (data : List Byte) : State :=
  s.swSend outEscrow (f.response s.sw.sys.homeId status data)

/-- A graph that has passed the other checks takes a slot that is free for it, unless its partition is closed: the last check (09 R234). -/
def State.takeSlot (s : State) (slot : Nat) (g : Graph) (f : Frame) : State :=
  if s.sw.closedToWork g.partition then (s.emptyMbox g.mailbox 9 0 g.tag).escrowRespond f stBadAddress []
  else (s.admitGraph slot g).escrowRespond f stOk []

/-- A waiting graph whose write has passed its age limit is never admitted (04 R107). The table of results names none for it: RESULT is a free value
(DESIGN CHOICE, log 103). -/
def State.admitAged (s : State) (x : Submission) : State :=
  let r := s.free
  ((r.2.onEscrow fun e => { e with queue := e.queue.erase x }).emptyMbox x.mailbox (r.1 % 256) 0 x.graph.tag).escrowRespond x.f stAged []

/-- Admit waiting graphs in arrival order among those whose partition has a slot. -/
def State.admitWaiting (s : State) : State :=
  s.each s.sw.escrow.queue fun s x =>
    match s.sw.freeGraphSlot x.graph.partition with
    | none => s
    | some slot =>
      if aged s.sw.sys.cfg (s.now .sw) x.f then s.admitAged x
      else (s.onEscrow fun e => { e with queue := e.queue.erase x }).takeSlot slot x.graph x.f

/-- A miss of party n (an engine, or 256 + graph slot) waits for a host read. -/
def Switch.missWaits (w : Switch) (n : Nat) : Bool :=
  w.xlat.reads.any fun r => r.waiters.any fun m => match m with
    | .engine k _ _ => k == n
    | .endpoint _ _ => false

/-- Frames of a graph's done record are held or in flight. -/
def Switch.doneUnderWay (w : Switch) (slot : Nat) : Bool := (w.escrow.flight ++ w.escrow.held).any fun x => x.owner == .done slot

/-- Misses that found the limits of R43 reached wait in their engine: each tries again once there is room. -/
def State.retryMisses (s : State) : State :=
  let s := s.each engines48 fun s e =>
    match (s.sw.getEngine e).task with
    | some (slot, t) =>
      if (s.sw.getTask slot t).any (fun x => x.xwait.isSome && x.state == .running && x.result.isNone) && !s.sw.missWaits e then s.resumeTask slot t else s
    | none => s
  s.each s.sw.escrow.graph fun s g =>
    if g.2.ending && !s.sw.missWaits (256 + g.1) && !s.sw.doneUnderWay g.1 then s.writeDone g.1 g.2 else s

/-- What follows any change of tasks or engines: ready tasks of a partition without an unfenced engine fail (09 R252), and so does a re-run that is
pinned to a fenced engine, with its last status (09 R248); graphs whose tasks are over end, waiting ones are admitted, and the rest are dispatched. -/
def State.escrowRound (s : State) : State :=
  let s := s.each s.sw.readyTasks fun s x =>
    if !s.sw.anyEngine x.2.2.2 then s.settleTask x.1 x.2.1 stFenced false
    else match s.sw.getTask x.1 x.2.1 with
      | some y => if 0 < y.runs ∧ x.2.2.1.engine ≠ 0xFF ∧ (s.sw.getEngine x.2.2.1.engine).fenced then s.settleTask x.1 x.2.1 y.status false else s
      | none => s
  let s := s.onEscrow fun e => { e with failCount := e.failCount + 1 }
  let s := s.retryMisses
  let s := s.each (s.sw.escrow.graph.map Prod.fst) fun s g => s.endGraph g
  s.admitWaiting

/-- Rounds until no graph waits that a round could admit: what one admits, the next takes into account. n: graphs that wait. -/
def State.escrowRounds : (n : Nat) → State → State
  | 0, s => s.escrowRound
  | n + 1, s =>
    let t := s.escrowRound
    if t.sw.escrow.queue.length = s.sw.escrow.queue.length then t else State.escrowRounds n t

/-- What follows any change of tasks or engines, and then the dispatch. -/
def State.escrowSettle (s : State) : State := (State.escrowRounds s.sw.escrow.queue.length s).dispatch

/-- A reply for a task's access: when the phase is complete the task goes on. -/
def State.taskReply (s : State) (slot t i : Nat) (r : Reply) : State :=
  match s.sw.getGraph slot, s.sw.getTask slot t with
  | some g, some x =>
    if x.state ≠ .running then s
    else
      let s := s.onTask slot t fun y => { y with phase := y.phase.put i r, outstanding := y.outstanding - 1 }
      if x.outstanding ≠ 1 then s
      else
        match (taskProg x.desc g.tag t g.doneCount).replay x.log with
        | .ask accs _ =>
          let ph := x.phase.put i r
          let rs := (List.range accs.length).map fun j => ph.get j { status := stOk }
          if x.result.isSome then s
          else (s.onTask slot t fun y => { y with log := y.log ++ [rs], phase := [] }).resumeTask slot t
        | _ => s
  | _, _ => s

/-! ### Engine fences (09 R252, 23 R552) -/

/-- A frame is that of a flight. -/
def Flight.frameIs (x : Flight) (me : Nat) (f : Frame) : Bool :=
  f.src == me && f.dest == x.f.dest && f.tag == x.f.tag && f.typ == x.f.typ && f.agent == x.f.agent

/-- Take back a flight's frame if it has not begun to leave (02 R51, 04 R106). -/
def State.withdrawFlight (s : State) (x : Flight) : State := (s.takeUnsent (x.frameIs s.sw.sys.homeId)).getD s

/-- Requests of an engine's task that have not come back are forgotten, and what its core stage holds is dropped. -/
def State.dropFlights (s : State) (e : Nat) : State :=
  let mine (f : Flight) : Bool := f.engine == e && match f.owner with | .task _ _ _ => true | _ => false
  let gone := s.sw.escrow.flight.filter mine
  let s := s.each gone fun s x => s.withdrawFlight x
  s.onEscrow fun x => { x with flight := x.flight.filter fun f => !mine f
                               held := x.held.filter fun f => !(f.engine == e && f.ofParty)
                               quarantine := x.quarantine ++ gone.map fun f => f.port * 4096 + f.tag }

/-- Fail the task that an engine runs, with FENCED. -/
def State.stopEngine (s : State) (e : Nat) : State :=
  let s := s.dropFlights e
  match (s.sw.getEngine e).task with
  | none => s
  | some (slot, t) => s.settleTask slot t stFenced true

/-- Fence engines together (09 R227, R252): none of them takes a task that another's fence moves. -/
def State.fenceEngines (s : State) (es : List Nat) : State :=
  let es := es.filter fun e => !(s.sw.getEngine e).fenced
  if es.isEmpty then s
  else
    let s := s.each es fun s e => s.putEngine e { s.sw.getEngine e with fenced := true }
    let s := s.each es fun s e => s.stopEngine e
    (s.each es fun s e => s.record { kind := fEngineFenced, domain := 2, index := e, partition := s.sw.engineOwner e }).escrowSettle

/-- Fence one engine. -/
def State.fenceEngine (s : State) (e : Nat) : State := s.fenceEngines [e]

/-- Cancel every unstarted task of a graph for a cause (09 R249): the cause is reported when it cancelled one, or is FENCED; none is run again. -/
def State.cancelGraphFor (s : State) (slot : Nat) (g : Graph) (why : Cancel) : State :=
  let some_ := g.tasks.any fun t => t.state.unstarted && t.runs == 0
  let c := if why = .fenced ∨ (some_ ∧ g.cancel = .none) then why else g.cancel
  (s.putGraph slot { g with cancel := c, closed := true }).cancelTasks slot fun _ => true

/-- Cancel the unstarted tasks of a partition's graphs, the done records reporting FENCED (09 R252). -/
def State.cancelUnstarted (s : State) (p : Nat) : State :=
  s.each (s.sw.escrow.graph.filter fun g => g.2.partition == p) fun s g => s.cancelGraphFor g.1 g.2 .fenced

def State.cancelPartition (s : State) (p : Nat) : State := (s.cancelUnstarted p).escrowSettle

end Sys2Proof.Machine
end

