-- ==== Sys2Proof/Machine/Sources.lean ====
section
/-!
DEFINITION. The frequency source of a device (01 R16, R17) and holdover (11 R286, R288).
-/

namespace Sys2Proof.Machine

/-- A port whose partner may be the frequency source: live, and advertising a path (14 R362). A port in TIME, whose link carries probes, counts as
live (01 R16 does not say; DESIGN CHOICE, log 91). -/
def State.sourceOk (s : State) (d : Dev) (p : Nat) : Bool :=
  [PortState.active, .time].contains (s.getLink d p).state && ((s.getClock d).advert.get p {}).hops != 0xFF

/-- The frequency-source port: fewest hops, paths without VIA_STANDBY first, ties to the lowest port; an AKG-8's is its lowest live port. -/
def State.pickSource (s : State) (d : Dev) : Option Nat :=
  let ok := (List.range (portCount d)).filter (s.sourceOk d)
  match d with
  | .ep =>
    match ok.find? fun p => !((s.getClock d).advert.get p {}).via with
    | some p => some p
    | none => ok.head?
  | .sw =>
    if s.sw.isMaster then none
    else
      let rank (p : Nat) := let a := (s.sw.clock.advert.get p {}); b2n a.via * 256 + a.hops
      ok.foldl (fun m p => match m with
        | none => some p
        | some q => if rank p < rank q then some p else some q) none

/-- The end-point raises a fault record. The spec gives it no register for its records: State keeps kind and fabric time, oldest first (log 99). -/
def State.epRaise (s : State) (kind : Nat) : State := s.onEp fun e => { e with raised := e.raised ++ [(kind, s.now .ep)] }

/-- Enter holdover: the scheduled gates close, and the device raises a fault record (01 R17, 11 R288). A device that never had a source enters it like any
other, when it first looks for one and finds none (DEDUCED, log 86). -/
def State.enterHoldover (s : State) (d : Dev) : State :=
  let c := s.getClock d
  if c.holdover then s.onClock d fun c => { c with source := none }
  else
    let s := (s.onClock d fun c => { c with holdover := true, source := none, thetas := [] }).closeGates d
    match d with
    | .sw => s.record { kind := fHoldover, domain := 8 }
    | .ep => s.epRaise fHoldover

/-- Choose the frequency source again. A device whose time came from a VIA_STANDBY path and that now takes a path without it closes its scheduled
gates and steps at its first probe (11 R286). -/
def State.retime (s : State) (d : Dev) : State :=
  let c := s.getClock d
  if d = Dev.sw ∧ s.sw.isMaster then s.onClock d fun c => { c with source := none, thetas := [], holdover := false }
  else match s.pickSource d with
    | none => s.enterHoldover d
    | some p =>
      let leaves := c.viaTime && !(c.advert.get p {}).via && !c.restep
      let s := s.onClock d fun c => { c with source := some p, thetas := if c.source = some p then c.thetas else [], restep := c.restep || leaves }
      if leaves then s.closeGates d else s

/-- The frequency source fails: the next in order takes its place, or the device enters holdover (01 R17). -/
def State.sourceFails (s : State) (d : Dev) : State :=
  match (s.getClock d).source with
  | none => s
  | some p => (s.onClock d fun c => { c with advert := c.advert.del p }).retime d

/-- A port leaves service: where it was the frequency source, the next in order takes its place (01 R17). -/
def State.lostSource (s : State) (d : Dev) (p : Nat) : State := if (s.getClock d).source = some p then s.sourceFails d else s

end Sys2Proof.Machine
end

