-- ==== Sys2Proof/Machine/Ports.lean ====
section
/-!
DEFINITION. What a switch does when one of its ports leaves service (13 R345, 23 R541, R542), and the work of a command that
waits (16 R421).
-/

namespace Sys2Proof.Machine

/-! ### The end of a command's work -/

/-- Mailbox STATUS codes (16 R420). -/
def mbOk : Nat := 0x00
def mbBusy : Nat := 0x01
def mbTransition : Nat := 0x02
def mbBadOpcode : Nat := 0x10
def mbBadLength : Nat := 0x11
def mbBadField : Nat := 0x12
def mbNotPermitted : Nat := 0x20
def mbNoResource : Nat := 0x30
def mbTimeout : Nat := 0x40
def mbDigest : Nat := 0x50
def mbSignature : Nat := 0x51
def mbConflict : Nat := 0x60
def mbFenced : Nat := 0x70

/-- The work of a command ends: COMMAND_COMPLETION takes its status and response. The first end stands. -/
def State.finishWork (s : State) (fn mb status : Nat) (rsp : List Byte) : State :=
  s.onSw fun w => { w with teller := { w.teller with active := w.teller.active.map fun a =>
    if a.fn == fn && a.mb == mb && a.result.isNone then { a with result := some (status, rsp) } else a } }

/-- The active command of a mailbox. -/
def Switch.activeOf (w : Switch) (fn mb : Nat) : Option Active := w.teller.active.find? fun a => a.fn == fn && a.mb == mb

/-- Change the active command of a mailbox. -/
def State.onActive (s : State) (fn mb : Nat) (g : Active → Active) : State :=
  s.onSw fun w => { w with teller := { w.teller with active := w.teller.active.map fun a => if a.fn == fn && a.mb == mb then g a else a } }

/-! ### Port states -/

/-- Replace the link of a switch port: a change of STATE or CHANGED is an event (18 SW_EVENT), the NARROW need follows the width (11 R306), and a
switch without a live edge port drops its translations (02 R46). -/
def State.setPort (s : State) (p : Nat) (l : Link) : State :=
  let o := s.sw.getLink p
  let s := s.putLink .sw p l
  let s := if o.state ≠ l.state ∨ (l.changed ∧ ¬o.changed) then s.setEvent evPort else s
  let s := if s.sw.noEdge then s.onXlat fun x => { x with l1 := [], l2 := [] } else s
  s.refreshNarrow

def State.onPort (s : State) (p : Nat) (g : Link → Link) : State := s.setPort p (g (s.sw.getLink p))

/-- The response to a request that is discarded (13 R339). -/
def State.discardRsp (s : State) (f : Frame) (status : Nat) : Frame :=
  { f.response s.sw.sys.homeId status [] with age := ageStamp (s.now .sw) (rspClass f.cls) }

/-- Answer a discarded request that holds no cells here. -/
def State.answerFor (s : State) (f : Frame) (status : Nat) : State :=
  if isRequest f.typ then
    let s := s.uncount f
    let r := s.discardRsp f status
    match s.sw.joins r with
    | none => s
    | some key => s.enqueue key outEscrow r
  else s

/-- Give back all cells of a frame but one. -/
def State.keepCell (s : State) (b : Buffered) : Buffered × State :=
  let k := { b with cells := 1, sched := min b.sched 1, shared := if b.sched = 0 then min b.shared 1 else 0, paid := b.paid - (b.cells - 1) }
  (k, s.freeCells { b with cells := b.cells - 1, sched := b.sched - k.sched, shared := b.shared - k.shared })

/-- A frame that has left its queue is discarded, and a request answered: the response is built in the cells that it held and joins the queue of its class
toward the requester; it needs no new cell (13 R339). It is whole when the request is. The cells beyond its one are freed. -/
def State.answerIn (s : State) (b : Buffered) (status : Nat) : State :=
  if isRequest b.f.typ then
    let s := s.uncount b.f
    let r := s.discardRsp b.f status
    match s.sw.joins r with
    | none => s.freeCells b
    | some key =>
      let (k, s) := s.keepCell b
      s.join key { k with f := r, at_ := s.now .sw, red := 0 }
  else s.freeCells b

/-- SEG_INV_ACK in the stead of an end-point that this switch cannot reach (02 R49, 03 R65). -/
def State.unreached (s : State) (f : Frame) : State :=
  let data := slice f.data 12 4 ++ leBytes 2 0 ++ leBytes 1 0 ++ leBytes 1 1 ++ leBytes 8 0
  s.swSend outEscrow (({ dest := f.src, src := f.dest, cls := 3, typ := ftSegInvAck, tag := f.tag, inc := f.inc } : Frame).withData data)

/-- What becomes of a frame that its port cannot send. -/
def State.discard (s : State) (f : Frame) (status : Nat) : State :=
  if f.typ = ftSegInv ∧ isEpId f.dest ∧ epRack f.dest = s.sw.sys.rack then s.unreached f else s.answerFor f status

/-- The same for one that holds cells. -/
def State.discardIn (s : State) (b : Buffered) (status : Nat) : State :=
  if b.f.typ = ftSegInv ∧ isEpId b.f.dest ∧ epRack b.f.dest = s.sw.sys.rack then (s.freeCells b).unreached b.f else s.answerIn b status

/-- Count a discard at an output port (13 R345). The Tally's counters of 23 R538 name none for it: State holds the count (DESIGN CHOICE, log 39). -/
def State.noteDiscard (s : State) (p : Nat) : State :=
  s.onSw fun w => { w with core := { w.core with discards := w.core.discards.upd p 0 (· + 1) } }

/-- Status for a request discarded at a port: TARGET_LOST if the port led to an end-point that was lost. -/
def Switch.discardStatus (w : Switch) (p : Nat) (f : Frame) : Nat :=
  if isEdge w.sys p && f.dest == w.peer p && ((w.getLink p).fenceWhy == 1 || (w.mgmt.rec_.get (w.peer p) {}).verdict) then stTargetLost else stFenced

/-- Queue keys of an output. -/
def queueKeys (o : Nat) : List Nat := (List.range 16).map (qKey o)

/-- An output ends the frame that it had begun, if one, and its cells are free: with its tail, or a void tail in its place. -/
def State.endCut (s : State) (o : Nat) : State :=
  match s.sw.core.cut.find o with
  | none => s
  | some x => (s.onSw fun w => { w with core := { w.core with cut := w.core.cut.del o } }).freeCells x.b

/-- End the lock of an output whose frame has left: no draw is to come, and its tail has arrived. -/
def Core.unlock (c : Core) : Core :=
  { c with lock := c.lock.filter fun e => !(e.2.left == 0 && (c.cut.find e.1).isNone && (decide (e.1 < 64) || (c.inbox.get e.1 []).all (·.whole))) }

/-- An output ends the frame that it is sending with a void tail, in place of its remaining slots. -/
def State.voidOut (s : State) (o reason : Nat) : State :=
  let s := (s.endCut o).onSw fun w => { w with core := { w.core with lock := w.core.lock.del o } }
  if o < 64 then s.emit (.voidTail .sw o reason) else s

/-- Frames that came in on port p and whose tails have not arrived are lost, those that a test selects: discarded where the header has not left, else ended
on the output with a void tail of this REASON (13 R348, R349, 15 R386). -/
def State.voidFrames (s : State) (p : Nat) (sel : Buffered → Bool) (reason : Nat) : State :=
  let mine (b : Buffered) : Bool := b.src == p && !b.whole && sel b
  let c := s.sw.core
  let gone := (c.queue ++ c.inbox ++ c.held).flatMap fun e => e.2.filter mine
  let outs := (c.cut.filter fun e => mine e.2.b).map Prod.fst
  let keep (t : Tab (List Buffered)) : Tab (List Buffered) := t.mapVals fun _ l => l.filter fun b => !mine b
  let s := s.onSw fun w => { w with core := ({ w.core with
    queue := keep w.core.queue, inbox := keep w.core.inbox, held := (keep w.core.held).filter fun e => !e.2.isEmpty } : Core).unlock }
  let s := s.each gone fun s b => s.freeCells b
  s.each outs fun s o => s.voidOut o reason

/-- Cells of the frame with this mark that have credits to return: a TC0 frame has had all of its own back. -/
def Switch.owesAt (w : Switch) (p mark : Nat) : Nat :=
  let mine (b : Buffered) : Bool := b.src == p && !b.whole && b.mark == mark && b.f.cls != 0
  let all := ((w.core.queue ++ w.core.inbox ++ w.core.held).flatMap fun e => e.2.filter mine) ++ (w.core.cut.filter fun e => mine e.2.b).map (·.2.b)
  all.foldl (fun n b => n + b.owes) 0

/-- A seal group failed: the frames with these marks are lost, and return no credit, since the replay brings the same cells again (13 R348, R350;
DEDUCED, log 124). -/
def State.takeBack (s : State) (p : Nat) (marks : List Nat) : State :=
  let mine (b : Buffered) : Bool := b.src == p && !b.whole && marks.contains b.mark
  let pay (t : Tab (List Buffered)) : Tab (List Buffered) := t.mapVals fun _ l => l.map fun b => if mine b then { b with paid := b.cells } else b
  let s := s.onSw fun w => { w with core := { w.core with
    queue := pay w.core.queue, inbox := pay w.core.inbox, held := pay w.core.held
    cut := w.core.cut.mapVals fun _ x => if mine x.b then { x with b := { x.b with paid := x.b.cells } } else x } }
  s.voidFrames p (fun b => marks.contains b.mark) 0

/-- Every frame of port p whose tail has not arrived is lost. -/
def State.cutOpen (s : State) (p reason : Nat) : State := s.voidFrames p (fun _ => true) reason

/-- An output ends the frame that it is sending with a void tail whose REASON the spec does not state for the cause (a free value, log 5). -/
def State.voidFree (s : State) (o : Nat) : State :=
  if (s.sw.core.lock.find o).isSome then
    let r := s.free
    r.2.voidOut o (r.1 % 4)
  else s

/-- Discard every frame in the queues of a port that leaves service, each one counted (13 R345). -/
def State.discardQueues (s : State) (p : Nat) : State :=
  let s := s.voidFree p
  let (held, s) := s.takeWaiting fun k _ => k / 16 == p
  let s := s.each (queueKeys p) fun s k =>
    let (hit, s) := s.cutQueued k fun _ => true
    s.each hit fun s b => (s.noteDiscard p).discardIn b (s.sw.discardStatus p b.f)
  s.each held fun s f => (s.noteDiscard p).discard f (s.sw.discardStatus p f)

/-- Complete with TARGET_LOST each request held for an end-point, queued or sent and not answered (23 R542, R547). -/
def State.loseTarget (s : State) (h : Nat) : State :=
  let keys := (s.sw.core.queue.map Prod.fst).filter fun k => decide (k < 1024)
  let s := s.each keys fun s k =>
    let (hit, s) := s.cutQueued k fun f => f.dest == h && isRequest f.typ
    s.each hit fun s b => s.answerIn b stTargetLost
  let (held, s) := s.takeWaiting fun _ f => f.dest == h && isRequest f.typ
  let s := s.each held fun s f => s.answerFor f stTargetLost
  let wait := s.sw.core.awaiting.filter fun a => a.2.dest == h
  let s := s.onSw fun w => { w with core := { w.core with awaiting := w.core.awaiting.filter fun a => a.2.dest != h } }
  s.each wait fun s a => s.answerFor a.2 stTargetLost

/-- A test ends at once: in both directions the lane under test takes back its data, or the clock (14 R378). -/
def Link.endTest (l : Link) : Link :=
  if l.test.isSome then { l with test := none, jewel := 9, clockLane := 8, out := { l.out with jewel := 9, clock := 8 } } else l

/-- A link starts afresh: sequence numbers, keys and what was under way go; settings for a resume stay. -/
def Link.fresh (l : Link) : Link :=
  { l with rx := {}, tx := {}, xchg := none, changing := none, later := [], test := none, fast := false, adaptive := false, retry := false, waking := false, probesOk := 0, partnerOk := 0, asked := none, partnerVote := 0, power := 0,
           partner := none }

/-- A port leaves service for a state: the frame it was taking in is lost (13 R348), its queues are discarded and its credits return to the start (13
R345, R351). -/
def State.leavePort (s : State) (p : Nat) (st : PortState) (why : Nat) : State :=
  let s := s.onPort p fun l => { l.fresh with state := st, fenceWhy := why, attempts := 0, narrowed := st == .detect && l.narrowed }
  let s := (s.cutOpen p 1).discardQueues p
  s.onSw fun w => { w with core := { w.core with spent := w.core.spent.filter (fun e => e.1 / 16 != p)
                                                 owed := w.core.owed.filter (fun e => e.1 / 16 != p) }
                           sched := { w.sched with unacked := w.sched.unacked.del p }
                           power := { w.power with dom := w.power.dom.mapVals fun k d =>
                             if k = p then { d with state := 0, entering := none, exiting := none, wake := false, fenced := false } else d } }

/-- Fence a port: why 1 link loss, 2 another cause, 3 a command. A frequency source that leaves service is replaced (01 R17). An edge port's end-point loses what it held of this home
(05 R138), and is lost to its Syndicates (08 R219). -/
def State.fencePort (s : State) (p why : Nat) : State :=
  let h := s.sw.peer p
  let s := (s.leavePort p .fenced why).lostSource .sw p
  if !isEdge s.sw.sys p then s.cutOff p
  else
    let s := if why = 1 then s.loseTarget h
      else s.onSw fun w => { w with core := { w.core with awaiting := w.core.awaiting.filter fun a => a.2.dest != h } }
    (s.loseHolder h).loseMember h none

/-- Put a port in DETECT to train: its fence ends, and on an edge port nothing else is held against the end-point there (19 R484, 14 R364). It stays
DOWN without a cable, and without a valid config book (25 R577, 19 R470). -/
def State.retrain (s : State) (p : Nat) : State :=
  if s.sw.sys.noCable.contains p || s.sw.sys.configDefault then (s.leavePort p .down 0).lostSource .sw p
  else ((s.leavePort p .detect 0).emit (.tickClock .sw p)).lostSource .sw p

end Sys2Proof.Machine
end

