-- ==== Sys2Proof/Machine/EpHome.lean ====
section
/-!
DEFINITION. The end-point home (24 R560; 05 R110 to R121; 03 R59, R63, R74 to R83; 22 R529).
-/

namespace Sys2Proof.Machine

def State.onEpHome (s : State) (g : Home → Home) : State := s.onEp fun e => { e with home := g e.home }

/-- Region entry of an offset of the exposed window, and that region n's entry replaced. -/
def EndPoint.region (e : EndPoint) (off : Nat) : Region := e.home.region.get (off / 0x200000) {}

def State.onEpRegion (s : State) (i : Nat) (g : Region → Region) : State :=
  s.onEpHome fun h => { h with region := h.region.upd i {} g }

/-- Bytes of the exposed window: SIZE counts 2 MiB units from bit 21 (24 R572). -/
def EndPoint.window (e : EndPoint) : Nat := e.exposed.toNat

/-- The age limits that an end-point home keeps: no rule tells an AKG-8 others (DESIGN CHOICE, log 21). -/
def epCfg : Persist := {}

/-- Status with which the end-point home refuses a request before it does anything. y: the domain, whose racks and mode bound the
end-points that a DEPOSIT may name (03 R63); it is that of the model's switch (DEDUCED, log 21). MODE_MISMATCH of a READ_SHARED, READ_OWN
or CLAIM (05 R114) is a Tally's record, and an AKG-8 has no Tally: it records none (DESIGN CHOICE, log 84). -/
def EndPoint.homeRefuses (e : EndPoint) (y : Sys) (now : Nat) (f : Frame) : Option Nat :=
  if aged epCfg now f then some stAged
  else if malformedReq y f || decide (e.window < f.offset + f.length) then some stBadAddress
  else
    let r := e.region f.offset
    if r.lost then some stFenced
    else if r.mode = mOwned ∧ [ftWrite, ftWriteLog, ftAtomic, ftDeposit].contains f.typ
        ∧ (r.owner ≠ f.src ∨ r.owner = 0x3FF ∨ (f.typ = ftDeposit ∧ f.ext.toNat ≠ f.src)) then some stNotOwner
    else none

/-! ### Requests -/

def State.onHomeReq (s : State) (utag : Nat) (g : HomeReq → HomeReq) : State :=
  s.onEp fun e => { e with homeReqs := e.homeReqs.map fun x => if x.utag = utag then g x else x }

/-- A request of the home ends with an answer on its port; one that a fence or its time has ended gets none. -/
def State.homeEnd (s : State) (x : HomeReq) (status : Nat) (data : List Byte) (cache : Nat) : State :=
  let s := s.onEp fun e => { e with homeReqs := e.homeReqs.erase x }
  if x.ended then s else s.epSend x.port ((x.f.response s.ep.homeId status data).withCache cache)

/-- CACHE of a read (05 R113, R114): whole lines only. -/
def EndPoint.homeCache (e : EndPoint) (f : Frame) : Nat :=
  let r := e.region f.offset
  if f.typ = ftReadVol ∨ f.offset % 128 ≠ 0 ∨ f.length % 128 ≠ 0 then 0
  else if r.mode = mSnapshot then 4
  else if r.mode = mOwned ∧ r.owner = f.src then 5
  else 0

/-- Bytes of a request's range in line number i of it. -/
def partOf (f : Frame) (i : Nat) : Nat × Nat :=
  let lo := max f.offset ((f.offset / 128 + i) * 128)
  (lo, min (f.offset + f.span) ((f.offset / 128 + i + 1) * 128) - lo)

/-- The operand of an atomic as the accelerator gets it: a TICKER without a time takes the home's (07 R188; DEDUCED, log 22). -/
def State.memOperand (s : State) (f : Frame) : List Byte :=
  let d := padTo f.length f.data
  if aopOf f.opx = 9 ∧ field d 4 4 = 0 then slice d 0 4 ++ leBytes 4 (tickerStamp 0 (s.now .ep)) else d

/-- Ask the accelerator for the line of a request that is next: MEM_RD, MEM_WR or MEM_ATOMIC, under a UCIe tag of its own. -/
def State.askMemory (s : State) (x : HomeReq) : State :=
  let (lo, n) := partOf x.f x.line
  let t := s.ep.nextMem
  let s := s.onEp fun e => { e with nextMem := (t + 1) % 65536, homeReqs := e.homeReqs.map fun y => if y = x then { x with utag := t, stage := 2 } else y }
  if x.f.typ = ftAtomic then s.emit (.memAtomic t lo x.f.opx x.f.ext (s.memOperand x.f))
  else if isStoreReq x.f.typ then s.emit (.memWr t lo (slice x.f.data (lo - x.f.offset) n))
  else s.emit (.memRd t lo n)

/-- INPUT_COPY of a logged write, to the switch of the plane on which it arrived (22 R529, R530). -/
def State.sendInputCopy (s : State) (x : HomeReq) : State :=
  let t := s.ep.nextCopy
  let f : Frame := { dest := s.ep.peer x.port, src := s.ep.homeId, partition := x.f.partition, cls := 7, typ := ftLedger, tag := t, keySlot := x.f.keySlot,
                     offset := x.f.offset, opx := opxAt 1 36, ext := BitVec.ofNat 64 (x.f.src + x.f.agent * 2 ^ 10) }
  let s := s.onEp fun e => { e with nextCopy := (t + 1) % 4096, homeReqs := e.homeReqs.map fun y => if y = x then { x with ctag := t, stage := 1 } else y }
  s.epSend x.port (f.withData (padTo x.f.length x.f.data))

/-- Whether a request waits for one that came earlier: the same line, or stores of one class from one source on one port (03 R83), or a
region that is being emptied for a new mode (05 R117). -/
def EndPoint.homeWaits (e : EndPoint) (x : HomeReq) : Bool :=
  ((e.homeReqs.takeWhile (· != x)).any fun y =>
    x.f.lines.any y.f.lines.contains
      || (isStoreReq x.f.typ && isStoreReq y.f.typ && x.f.src == y.f.src && x.f.cls == y.f.cls && x.port == y.port))
  || e.home.jobs.any fun j => j.region == x.f.offset / 0x200000 && !j.handover

/-- Begin a request whose turn it is. -/
def State.homeBegin (s : State) (x : HomeReq) : Option State :=
  if x.stage ≠ 0 ∨ s.ep.homeWaits x then none
  else match s.ep.homeRefuses s.sw.sys (s.now .ep) x.f with
    | some st => some (s.homeEnd x st [] 0)
    | none =>
      if x.f.typ = ftClaim then some (s.homeEnd x stOk [] 0)
      else if x.f.typ = ftWriteLog then some (s.sendInputCopy x)
      else some (s.askMemory x)

def State.homeStep (s : State) : Option State := firstSome s.ep.homeReqs s.homeBegin

/-- A memory request arrives at the end-point home. -/
def State.epHomeRequest (s : State) (p : Nat) (f : Frame) : State :=
  if s.ep.verdict then s else s.onEp fun e => { e with homeReqs := e.homeReqs ++ [{ port := p, f := f, utag := 65536 }] }

/-- Every line of a request is done at the accelerator. -/
def State.homePerformed (s : State) (x : HomeReq) : State :=
  let f := x.f
  if f.typ = ftDeposit then
    let mode := (s.ep.region f.offset).mode
    let named := f.ext.toNat
    if mode = mDirect ∨ x.ended ∨ s.ep.peerLost.contains named then s.homeEnd x stOk [] 0
    else
      let fill : Frame := { dest := named, src := s.ep.homeId, partition := f.partition, cls := 6, typ := ftDepositFill, tag := f.tag, keySlot := f.keySlot, offset := f.offset }
      (s.onEp fun e => { e with homeReqs := e.homeReqs.map fun y => if y = x then { x with stage := 3 } else y }).epSend x.port
        ((fill.withData (padTo 128 f.data)).withCache (if mode = mSnapshot then 4 else 5))
  else if f.typ = ftAtomic then s.homeEnd x stOk (if atomicReturns f.opx then padTo f.span x.acc else []) 0
  else if isStoreReq f.typ then s.homeEnd x stOk [] 0
  else s.homeEnd x stOk x.acc (s.ep.homeCache f)

/-- MEM_CPL (24 R559, R560): the line is read, or visible to every accelerator core. -/
def State.memDone (s : State) (utag : Nat) (data : List Byte) : State :=
  match s.ep.homeReqs.find? fun x => x.stage == 2 && x.utag == utag with
  | none => s
  | some x =>
    let n := (partOf x.f x.line).2
    let y := { x with acc := x.acc ++ padTo n data, line := x.line + 1 }
    let s := s.onEp fun e => { e with homeReqs := e.homeReqs.map fun z => if z = x then y else z }
    if y.line < x.f.lines.length then s.askMemory y else s.homePerformed y

/-- INPUT_ACK (22 R529): the write is performed, or completed with the status it carries; one whose age has passed its limit meanwhile is
never performed (04 R107). -/
def State.inputAcked (s : State) (p : Nat) (f : Frame) : State :=
  match s.ep.homeReqs.find? fun x => x.stage == 1 && x.ctag == f.tag && x.port == p with
  | none => s
  | some x =>
    if f.status ≠ stOk then s.homeEnd x f.status [] 0
    else if aged epCfg (s.now .ep) x.f then s.homeEnd x stAged [] 0
    else s.askMemory x

/-- No INPUT_ACK came within 100 µs. -/
def State.inputUnacked (s : State) (p tag : Nat) : State :=
  match s.ep.homeReqs.find? fun x => x.stage == 1 && x.ctag == tag && x.port == p with
  | none => s
  | some x => (s.homeEnd x stFenced [] 0).onEp fun e => { e with inputUnacked := min (2 ^ 64 - 1) (e.inputUnacked + 1) }

/-- COH_ACK of a deposit's fill, or its end-point's fence (03 R63, 05 R127, R135). -/
def State.fillAcked (s : State) (src line : Nat) : State :=
  match s.ep.homeReqs.find? fun x => x.stage == 3 && x.f.ext.toNat == src && x.f.offset / 128 == line with
  | none => s
  | some x => s.homeEnd x stOk [] 0

/-! ### The region table (05 R116 to R121, R140) -/

/-- The port on which BACK_INV for a region leaves: that of its first block, or the lowest that is ACTIVE. -/
def EndPoint.regionPort (e : EndPoint) (region : Nat) : Nat :=
  let p := epPort 0x3FF (region * 0x200000)
  if e.portLive p then p else ((List.range 8).find? e.portLive).getD p

/-- Begin to give a region its new entry; from says which CONFIG frame asks: its port and tag. -/
def State.epRegionBegin (s : State) (i port tag mode owner : Nat) (handover : Bool) : State :=
  let r := s.ep.home.region.get i {}
  let flush := decide (r.mode = mOwned ∧ r.owner ≠ 0x3FF) && !r.lost && (handover || decide (mode ≠ mOwned ∨ owner ≠ r.owner))
  let s := s.ifThen handover fun s => s.onEpRegion i fun r => { r with handover := true }
  let s := s.onEpHome fun h => { h with jobs := h.jobs ++ [{ region := i, fn := port, mb := tag, awaitOwner := if flush then some r.owner else none,
                                                             mode := mode, newOwner := owner, handover := handover }] }
  s.ifThen flush fun s => s.epSend (s.ep.regionPort i)
    { dest := r.owner, src := s.ep.homeId, cls := 6, typ := ftBackInv, tag := i % 4096, offset := i * 0x200000, opx := opxAt 1 36 }

/-- CONFIRM of a CONFIG frame about regions: a mailbox status other than OK follows the tag (DESIGN CHOICE, log 20). The status is kept for a copy of
the frame that comes later. -/
def State.confirmRegion (s : State) (p tag status : Nat) : State :=
  (s.onEp fun e => { e with configs := e.configs.map fun c => if c.1 = p ∧ c.2.1 = tag then (p, tag, c.2.2.1, some status) else c }).mgmtOut .ep p mConfirm 0
    (leBytes 2 tag ++ if status = mbOk then [] else leBytes 1 status)

/-- Finish the regions whose owner has answered. The last region of a CONFIG frame confirms it; 4096 is added to the tag of a frame that
has lost a region. -/
def State.epRegionCheck (s : State) : State :=
  let ready := (s.ep.home.jobs.filter fun j => j.awaitOwner.isNone).map (·.region)
  s.each ready fun s i => match s.ep.home.jobs.find? fun j => j.region == i && j.awaitOwner.isNone with
    | none => s
    | some j =>
      let s := s.onEpHome fun h => { h with jobs := h.jobs.erase j }
      let s := s.onEpRegion j.region fun r =>
        if j.lostNow then { r with handover := false } else if j.handover then { r with owner := j.newOwner, handover := false }
        else { r with mode := j.mode, owner := j.newOwner, handover := false }
      let same (k : RegionJob) : Bool := k.fn == j.fn && k.mb % 4096 == j.mb % 4096
      let lost := j.lostNow || decide (4096 ≤ j.mb)
      if s.ep.home.jobs.any same then
        if lost then s.onEpHome fun h => { h with jobs := h.jobs.map fun k => if same k then { k with mb := j.mb % 4096 + 4096 } else k } else s
      else s.confirmRegion j.fn (j.mb % 4096) (if lost then mbFenced else mbOk)

/-- REGION_DONE from an old owner. -/
def State.epRegionDone (s : State) (owner region : Nat) : State :=
  (s.onEpHome fun h => { h with jobs := h.jobs.map fun j => if j.region == region && j.awaitOwner == some owner then { j with awaitOwner := none } else j }).epRegionCheck

/-- The old owner of a region is lost or late: the region is LOST (05 R121, R138). -/
def State.epRegionLost (s : State) (region : Nat) : State :=
  let s := s.onEpHome fun h => { h with jobs := h.jobs.map fun j => if j.region = region ∧ j.awaitOwner.isSome then { j with awaitOwner := none, lostNow := true } else j }
  (s.onEpRegion region fun r => { r with lost := true, owner := 0x3FF, handover := false }).epRegionCheck

/-- An end-point is fenced by a verdict: the OWNED regions that it owns here are LOST, and deposits whose fill it has not answered are
answered (05 R138, 03 R63). -/
def State.epPeerLost (s : State) (h : Nat) : State :=
  let waiting := (s.ep.home.jobs.filter fun j => j.awaitOwner == some h).map (·.region)
  let s := s.onEp fun e => { e with peerLost := h :: e.peerLost.filter (· != h) }
  let s := s.onEpHome fun m => { m with region := m.region.mapVals fun _ r => lostRegion h r }
  let s := s.each (s.ep.homeReqs.filter fun x => x.stage == 3 && x.f.ext.toNat == h) fun s x => s.homeEnd x stOk [] 0
  s.each waiting fun s i => s.epRegionLost i

/-- The end-point home has another end-point fenced at every switch (05 R117, R121, R127): it sends VERDICT on every live port, with the
incarnation it has learnt and cause 2, and acts on it as on any verdict (DEDUCED, log 25). -/
def State.epFencePeer (s : State) (h : Nat) : State :=
  if s.ep.peerLost.contains h then s
  else
    let old := s.ep.peerInc.get h 0
    let new := (old + 1) % 16
    let s := s.onEp fun e => { e with peerInc := e.peerInc.put h new }
    (s.flood .ep none mVerdict (leBytes 2 h ++ leBytes 1 old ++ leBytes 1 new ++ leBytes 1 2)).epPeerLost h

/-- The old owner of a region has not answered in time: it is fenced, and the region is LOST (05 R121). -/
def State.epHandoverLate (s : State) (region : Nat) : State :=
  match s.ep.home.jobs.find? fun j => j.region == region && j.awaitOwner.isSome with
  | none => s
  | some j => (s.epFencePeer (j.awaitOwner.getD 0x3FF)).epRegionLost region

/-- The COH_ACK of a deposit's fill has not come within 1 ms: the end-point that owes it is fenced (05 R127). -/
def State.epFillLate (s : State) (h line : Nat) : State :=
  if s.ep.homeReqs.any fun x => x.stage == 3 && x.f.ext.toNat == h && x.f.offset / 128 == line then (s.epFencePeer h).fillAcked h line else s

/-- REGION_SET or REGION_HANDOVER, in the command's layout after the item code (17). A range that breaks R112, R117 or R120 changes nothing. -/
def State.epRegionTake (s : State) (p tag : Nat) (handover : Bool) (l : List Byte) : State :=
  let first := field l 4 4
  let count := field l 8 4
  let mode := field l 12 1
  let owner := field l 14 2
  let rs := (List.range count).map (first + ·)
  let at_ := fun i => s.ep.home.region.get i {}
  let ownerOk := owner = 0x3FF ∨ isEpId owner
  if s.ep.window < (first + count) * 0x200000 ∨ !ownerOk then s.confirmRegion p tag mbBadField
  else if handover ∧ rs.any (fun i => (at_ i).mode ≠ mOwned) then s.confirmRegion p tag mbBadField
  else if !handover ∧ (mode = mCoherent ∨ 3 < mode ∨ (mode ≠ mOwned ∧ owner ≠ 0x3FF)) then s.confirmRegion p tag mbBadField
  else if !handover ∧ rs.any (fun i => (at_ i).handover) then s.confirmRegion p tag mbConflict
  else
    let need := rs.filter fun i => handover || (at_ i) != { (at_ i) with mode := mode, owner := owner }
    if need.isEmpty then s.confirmRegion p tag mbOk
    else (s.each need fun s i => s.epRegionBegin i p tag mode owner handover).epRegionCheck

/-- REGION_SET or REGION_HANDOVER by CONFIG. A repeated relay has no further effect (05 R116): one of the last 64 is confirmed as before, or when its work
ends (DESIGN CHOICE, log 106). -/
def State.epRegionConfig (s : State) (p tag : Nat) (handover : Bool) (l : List Byte) : State :=
  match s.ep.configs.find? fun c => c.1 == p && c.2.1 == tag && c.2.2.1 == l with
  | some c => match c.2.2.2 with
    | some st => s.confirmRegion p tag st
    | none => s
  | none =>
    (s.onEp fun e => { e with configs := ((p, tag, l, none) :: e.configs.filter fun c => !(c.1 == p && c.2.1 == tag)).take 64 }).epRegionTake p tag handover l

/-- REGION_LOST_CLEAR by CONFIG: the end-point home has LOST regions, not lines. -/
def State.epLostClear (s : State) (p tag : Nat) (l : List Byte) : State :=
  let first := field l 8 8
  let count := field l 16 4
  let clear (k : Nat) (r : Region) : Region := if first ≤ k ∧ k < first + count ∧ r.lost then { r with lost := false, owner := 0x3FF } else r
  let s := if field l 2 1 = 1 then s.onEpHome fun h => { h with region := h.region.mapVals clear } else s
  s.sendConfirm .ep p tag

/-- A region table entry as 16 bits (05 R110). -/
def Region.bits (r : Region) : Nat := r.mode + b2n r.lost * 4 + b2n r.handover * 8 + r.owner * 16

/-- REGION_READ by CONFIG: the entries follow the tag in the CONFIRM (DESIGN CHOICE, log 20). -/
def State.epRegionRead (s : State) (p tag : Nat) (l : List Byte) : State :=
  let first := field l 4 4
  let count := field l 8 4
  s.mgmtOut .ep p mConfirm 0 (leBytes 2 tag ++ (List.range (min count 120)).flatMap fun i => leBytes 2 (s.ep.home.region.get (first + i) {}).bits)

end Sys2Proof.Machine
end

