-- ==== Sys2Proof/Machine/EpMgmt.lean ====
section
/-!
DEFINITION. Invalidations, hand-over flushes, fences, verdicts, admission and settings at the AKG-8 (02 R51 to R56; 05 R119, R120, R126;
21 R508, R513; 23 R543 to R552; 24 R563, R573).
-/

namespace Sys2Proof.Machine

/-! ### Requests ended by a fence -/

/-- A piece whose frame has not begun to leave goes back to its core stage. again: to be translated again. -/
def State.takeBackPiece (s : State) (x : EpFlight) (again : Bool) : State :=
  let s := s.withdraw x
  let back (order i : Nat) (s : State) : State := s.onPiece order i fun p => { p with started := false, desc := if again then none else p.desc }
  match x.kind with
  | .translate _ _ => s
  | .req order i => back order i (s.unreserve x.fga)
  | .grant order i => back order i (s.unreserve x.fga)

/-- Every request outstanding ends with a status, sent or not. -/
def State.endAll (s : State) (status : Nat) : State :=
  let s := s.onEp fun e => { e with flight := [], reserved := [], outq := [] }
  s.each s.ep.reqs fun s q => s.endReq q status []

/-- The place of a request's frame in its agent's order of issue: the request and the piece. -/
def EpFlight.place (x : EpFlight) : Option (Nat × Nat) := match x.kind with
  | .req order i | .grant order i => some (order, i)
  | .translate _ _ => none

/-- Two frames of one agent, class, destination and plane, of which the first was issued first. -/
def EpFlight.before (x y : EpFlight) : Bool :=
  x.agent == y.agent && x.f.cls == y.f.cls && x.f.dest == y.f.dest && x.port == y.port
    && match x.place, y.place with
      | some a, some b => decide (a.1 < b.1 ∨ (a.1 = b.1 ∧ a.2 < b.2))
      | _, _ => false

/-! ### Invalidation (02 R51) -/

/-- An FGA lies in the range of a descriptor (05 R119). -/
def Desc.holds (d : Desc) (fga : Nat) : Bool :=
  let h := d.fgaBase / 2 ^ 42
  let b := d.fgaBase % 2 ^ 42
  let n := if d.stripe then d.size / 8 else d.size
  let home := fga / 2 ^ 42
  let off := fga % 2 ^ 42
  decide (h ≤ home) && decide (home < h + (if d.stripe then 8 else 1)) && decide (b ≤ off) && decide (off < b + n)

/-- Answer an invalidation whose requests are done and whose relays are acknowledged. -/
def State.epInvalCheck (s : State) (x : EpInval) : State :=
  let live := x.drain.filter fun k => s.ep.flight.any fun y => y.port * 4096 + y.tag == k
  if x.dead then s.ifThen x.await.isEmpty fun s => s.onEp fun e => { e with invals := e.invals.erase x }
  else if live.isEmpty && x.await.isEmpty then
    let s := s.onEp fun e => { e with invals := e.invals.erase x }
    let data := leBytes 4 x.number ++ leBytes 2 x.engines ++ leBytes 1 x.silent ++ leBytes 9 0
    s.epSend x.port (({ dest := x.f.src, src := s.ep.homeId, cls := 3, typ := ftSegInvAck, tag := x.f.tag } : Frame).withData data)
  else s

/-- SEG_INV arrives at a holder. It is relayed to every own-rack switch but its sender; a store whose grant is in flight under a dropped
descriptor is translated again before it is made. What an agent issued after a frame that is taken back, on the same path, goes back too, so that it
leaves in the order of issue (03 R82). -/
def State.epSegInv (s : State) (p : Nat) (f : Frame) : State :=
  let number := field f.data 12 4
  let ctx := f.opxBits 51 36
  let first := field f.data 0 8
  let count := field f.data 8 4
  let hit (c : Nat) (d : Desc) : Bool := c == ctx && d.v && d.overlaps first count
  if s.ep.invals.any fun x => x.number == number && x.port == p && !x.dead then s
  else
    let dropped := (s.ep.l2 ++ s.ep.l1.flatMap Prod.snd).filter fun h => hit h.ctx h.desc
    let s := s.onEp fun e => { e with l1 := e.l1.mapVals fun _ l => l.filter fun h => !hit h.ctx h.desc
                                      l2 := e.l2.filter fun h => !hit h.ctx h.desc }
    let s := s.discardLines fun w => dropped.any fun h => h.desc.holds w.fga
    let mine := s.ep.flight.filter fun x => hit x.ctx x.desc
    let back := mine.filter fun x => !x.sent
    let s := s.each back fun s x => s.takeBackPiece x true
    let s := s.each (s.ep.flight.filter fun y => !y.sent && back.any fun x => x.before y) fun s y => s.takeBackPiece y false
    let untie (c : Piece) : Piece := if !c.started && c.desc.any (hit ctx) then { c with desc := none } else c
    let s := s.onEp fun e => { e with reqs := e.reqs.map fun q => if e.ctxOf q.r.agent = ctx then { q with pieces := q.pieces.map untie } else q }
    let s := s.each mine fun s x => match x.kind, x.sent with
      | .grant order i, true => s.onPiece order i fun c => { c with desc := none }
      | _, _ => s
    let s := s.spoil fun x => hit x.ctx x.desc && x.desc.mode != 1
    let relay := (List.range 8).filter fun q => s.ep.portLive q && s.ep.peer q != f.src
    let s := s.onEp fun e => { e with invals := e.invals ++ [{ number := number, port := p, f := f, ctx := ctx, await := relay,
                                                               drain := (mine.filter (·.sent)).map fun x => x.port * 4096 + x.tag }] }
    s.each relay fun s q => s.epSend q
      (({ dest := s.ep.peer q, src := s.ep.homeId, cls := 4, typ := ftSegInv, tag := f.tag, opx := f.opx } : Frame).withData (padTo 16 f.data))

/-- SEG_INV_ACK from a relayed switch. -/
def State.epSegInvAck (s : State) (p : Nat) (f : Frame) : State :=
  let take (x : EpInval) : EpInval :=
    if x.number = field f.data 0 4 ∧ x.await.contains p then { x with await := x.await.filter (· != p), engines := x.engines + field f.data 4 2 } else x
  s.onEp fun e => { e with invals := e.invals.map take }

/-! ### Region flush by the old owner (05 R120 step 3) -/

/-- BACK_INV with REGION set. -/
def State.epRegionInv (s : State) (p : Nat) (f : Frame) : State :=
  let home := f.src
  let region := f.offset / 0x200000
  let unsent := s.ep.flight.filter fun x => !x.sent && isStoreReq x.f.typ && inRegion home region x.f.dest x.f.offset
  let s := s.each unsent fun s x => (s.withdraw x).epAbandon x stNotOwner
  let stop (c : Piece) : Piece :=
    if !c.started && c.desc.isSome && inRegion home region c.home c.off then { c with started := true, status := some stNotOwner } else c
  let s := s.onEp fun e => { e with reqs := e.reqs.map fun q => if q.r.op.stores then { q with pieces := q.pieces.map stop } else q }
  let s := s.discardLines fun w => inRegion home region (w.fga / 2 ^ 42) (w.fga % 2 ^ 42)
  let s := s.spoil fun x => inRegion home region x.f.dest x.f.offset
  s.onEp fun e => { e with flushes := e.flushes ++ [{ home := home, region := region, port := p, f := f }] }

/-- A store to the region whose translation was taken back and has not come again. -/
def EndPoint.untied (e : EndPoint) (x : EpFlush) : Bool :=
  e.reqs.any fun q => q.checked && q.r.op.stores && q.pieces.any fun c => c.desc.isNone && c.status.isNone && inRegion x.home x.region c.home c.off

/-- Answer a flush once every request sent to the region has completed, those sent since it began too. -/
def State.flushCheck (s : State) (x : EpFlush) : State :=
  if s.ep.untied x || s.ep.flight.any fun y => isMemReq y.f.typ && inRegion x.home x.region y.f.dest y.f.offset then s
  else
    (s.onEp fun e => { e with flushes := e.flushes.erase x }).epSend x.port
      { s.ep.cohFrame ftSnoopRsp x.home (x.region * 0x200000) x.f.partition x.f.keySlot x.f.tag with opx := opxAt 6 36 }

/-- Invalidations and flushes that can be answered. -/
def State.epPoll (s : State) : State :=
  let s := s.each s.ep.invals State.epInvalCheck
  s.each s.ep.flushes State.flushCheck

/-! ### Key slots (21 R508, R513) -/

/-- A slot opens when the switch of every plane whose port is ACTIVE has sent SLOT_OPEN. -/
def State.slotsCheck (s : State) : State :=
  let ready := s.ep.closed.filter fun k => (s.livePorts .ep).all fun p => (s.ep.opens.get k []).contains p
  s.onEp fun e => { e with closed := e.closed.filter fun k => !(ready.contains k && !(e.opens.get k []).isEmpty)
                           opens := e.opens.filter fun o => !ready.contains o.1 }

/-- SLOT_CLOSE. -/
def State.slotClose (s : State) (p : Nat) (f : Frame) : State :=
  let k := field f.data 0 1
  let part := field f.data 1 1
  let removal := bit (field f.data 2 1) 0
  let s := s.onEp fun e => { e with closed := k :: e.closed.filter (· != k), opens := e.opens.del k
                                    removed := if removal then part :: e.removed.filter (· != part) else e.removed }
  let s := s.discardLines fun w => w.keySlot == k || (removal && w.partition == part)
  let s := s.spoil fun x => x.f.keySlot == k || (removal && x.f.partition == part)
  let unsent := s.ep.flight.filter fun x => !x.sent && isMemReq x.f.typ && (x.f.keySlot == k || (removal && x.f.partition == part))
  let s := s.each unsent fun s x => (s.withdraw x).epAbandon x stSegFault
  (s.epEvent eeSlot).sendConfirm .ep p f.tag

/-- SLOT_OPEN. The partition that it names is admitted again (DEDUCED, log 23). -/
def State.slotOpen (s : State) (p : Nat) (f : Frame) : State :=
  let k := field f.data 0 1
  let s := s.onEp fun e => { e with opens := e.opens.put k (p :: (e.opens.get k []).filter (· != p)), removed := e.removed.filter (· != field f.data 1 1) }
  (s.slotsCheck).sendConfirm .ep p f.tag

/-! ### Port fences (23 R543, R544) -/

/-- The end-point's own members are lost to their Syndicates, those of one agent or all (08 R219): their calls are refused until the Syndicate is
mended (R222). -/
def State.loseRanks (s : State) (agent : Option Nat) : State :=
  s.onEp fun e => { e with ranks := e.ranks.map fun r => if agent.all (· == r.agent) then { r with lost := true } else r }

/-- The end-point fences port p. why: 1 link loss, 2 another cause. Requests sent on it complete with TARGET_LOST, those not sent with FENCED. -/
def State.epFencePort (s : State) (p why : Nat) : State :=
  if (s.ep.getLink p).state = .fenced then s
  else
    let s := (s.onLink .ep p fun l => { l.fresh with state := .fenced, fenceWhy := why, attempts := 0 }).lostSource .ep p
    let mine := s.ep.flight.filter fun x => x.port == p
    let s := s.onEp fun e => { e with
      flight := e.flight.filter fun x => x.port != p
      outq := e.outq.filter fun q => q.1 / 8 != p
      spent := e.spent.filter fun c => c.1 / 16 != p
      invals := e.invals.map fun x => if x.port = p then { x with dead := true } else x
      flushes := e.flushes.filter fun x => x.port != p
      configs := e.configs.filter fun c => c.1 != p
      snoops := e.snoops.filter fun h => h.port != p
      homeReqs := (e.homeReqs.map fun x => if x.port = p then { x with ended := true } else x).filter fun x => !(x.ended && x.stage == 0)
      agentFence := e.agentFence.mapVals fun _ l => l.filter (· != p) }
    let s := s.loseRanks none
    let s := s.each mine fun s x => match x.kind, x.sent with
      | .translate who cva, false => s.xlatDone who cva stOk
      | _, sent => s.epAbandon x (if sent then stTargetLost else stFenced)
    ((s.epUnreachable).slotsCheck).epEvent eeFence

/-- An end-point port goes back to DETECT (23 R544): from a link loss it waits there for its partner. -/
def State.epRedetect (s : State) (p : Nat) : State :=
  if (s.ep.getLink p).state = .fenced then s.onLink .ep p fun l => { l with state := .detect, attempts := 0 } else s

/-! ### Verdict, admission and agent fences (23 R549 to R552) -/

/-- A VERDICT that names this end-point. -/
def State.selfVerdict (s : State) : State :=
  let s := s.onEp fun e => { e with verdict := true, cache := [], l1 := [], l2 := [], snoops := [], wbRecord := [], invals := [], flushes := []
                                    homeReqs := (e.homeReqs.filter fun x => x.stage == 2).map fun x => { x with ended := true } }
  let s := s.endAll stFenced
  let s := s.each s.ep.calls fun s c => s.emit (.callDone c.utag stMemberLost c.epoch)
  (s.onEp fun e => { e with calls := [], reqs := e.reqs.filter EpReq.accel }).epEvent eeFence

/-- VERDICT at the end-point: relayed, and acted on where it names this end-point or an owner of its regions. -/
def State.epVerdict (s : State) (p : Nat) (f : Frame) : State :=
  let h := field f.data 0 2
  let s := s.flood .ep (some p) mVerdict f.data
  if h = s.ep.homeId then (if s.ep.verdict || s.ep.inc != some (field f.data 2 1) then s else s.selfVerdict)
  else (s.onEp fun e => { e with peerInc := e.peerInc.put h (field f.data 3 1 % 16) }).epPeerLost h

/-- A readmitted end-point starts afresh (23 R551). -/
def State.epReadmitted (s : State) : State :=
  s.onEp fun e => { e with verdict := false, cache := [], l1 := [], l2 := [], bind := [], ranks := [], outq := [] }

/-- ADMIT: the home ID is checked (14 R367) and the incarnation taken (23 R550). -/
def State.epAdmit (s : State) (p : Nat) (f : Frame) : State :=
  let h := field f.data 0 2
  let inc := field f.data 2 1 % 16
  if s.ep.homeId ≠ 0x3FF ∧ h ≠ s.ep.homeId then (s.epRaise fWiring).epFencePort p 2
  else
    let s := s.ifThen (s.ep.verdict || s.ep.inc.any (· != inc)) State.epReadmitted
    let on := bit (field f.data 3 1) 0
    s.onEp fun e => { e with homeId := h, inc := some inc, strongroom := on, debug := !(on || e.kgs) }

/-- FENCE_NOTICE: an agent fence is kept for the port on which it came. -/
def State.fenceNotice (s : State) (p : Nat) (f : Frame) : State :=
  let a := field f.data 1 1
  if field f.data 0 1 ≠ 5 then s
  else
    let rest := (s.ep.agentFence.get a []).filter (· != p)
    if field f.data 3 1 = 0 then ((s.onEp fun e => { e with agentFence := e.agentFence.put a (p :: rest) }).loseRanks (some a)).epEvent eeFence
    else s.onEp fun e => { e with agentFence := e.agentFence.put a rest }

/-- HEARTBEAT is answered on the port where it came (23 R545): the instant and the live-port map. -/
def State.epHeartbeat (s : State) (p : Nat) (f : Frame) : State :=
  let live := (s.livePorts .ep).foldl (fun m q => m + 2 ^ q) 0
  s.mgmtOut .ep p mHeartbeatAck 0 (padTo 10 f.data ++ leBytes 1 live)

/-- No acknowledgement came from a relayed switch within 900 µs: its port is fenced, and the acknowledgement lists it (02 R51, R53). -/
def State.relayAckTimeout (s : State) (number : Nat) : State :=
  let late := (s.ep.invals.filter fun x => x.number == number).flatMap (·.await)
  let quiet (x : EpInval) : EpInval := if x.number = number then { x with await := [], silent := x.await.foldl (fun m q => m + 2 ^ q) 0 } else x
  let s := s.onEp fun e => { e with invals := e.invals.map quiet }
  s.each late fun s q => s.epFencePort q 1

/-! ### Settings by CONFIG (23 R539) -/

/-- Gate lists of an edge link (11 R298), for the port on which they come: PACKAGE_ID, cycle, BASE, MAIN_PACE, book, entries in all, first
entry, entries. -/
def State.epStage (s : State) (p : Nat) (l : List Byte) : State :=
  let id := field l 0 8
  let k : Package := match s.ep.sched.standby with
    | some k => if k.id = id then k else { id := id }
    | none => { id := id }
  let n := (l.length - 26) / 4
  let new := (List.range n).map fun i => (field l (26 + 4 * i + 3) 1, field l (26 + 4 * i) 3)
  let key := field l 21 1 * 64 + p
  let total := field l 22 2
  let at_ := field l 24 2
  let old := (k.gates.get key [] ++ List.replicate total (0, 0)).take total
  let k := { k with cycleFlits := field l 8 4, base := field l 12 8, mainPace := field l 20 1, gates := k.gates.put key ((old.take at_ ++ new ++ old.drop (at_ + n)).take total) }
  s.onEp fun e => { e with sched := { e.sched with standby := some k } }

/-- The ranks of this end-point's agents in a Syndicate (08 R194, R196): Syndicate, partition, N, the epoch of a new member's first call, and
each agent and rank. They replace what was held; a member that stays goes on with its own next epoch where that is the later one. -/
def State.epRanks (s : State) (l : List Byte) : State :=
  let synd := field l 0 1
  let n := (l.length - 8) / 3
  let flags := field l 7 1
  let mk (i : Nat) : Rank :=
    { synd := synd, partition := field l 1 1, n := field l 2 2, nextEpoch := field l 4 2, rootRack := field l 6 1,
      lost := bit flags 0, agent := field l (8 + 3 * i) 1, rank := field l (9 + 3 * i) 2 }
  let keep (r : Rank) : Rank := match s.ep.ranks.find? fun o => o.synd == synd && o.agent == r.agent && o.rank == r.rank with
    | some o => if bit flags 1 || decide ((r.nextEpoch + 4096 - o.nextEpoch) % 4096 < 2048) then r else { r with nextEpoch := o.nextEpoch }
    | none => r
  s.onEp fun e => { e with aborted := e.aborted.filter (fun x => x.1 != synd), ranks := (e.ranks.filter fun r => r.synd != synd) ++ (List.range n).map fun i => keep (mk i) }

/-- CONFIG arrives: the setting is made and confirmed. -/
def State.epConfig (s : State) (p : Nat) (f : Frame) : State :=
  let item := field f.data 0 1
  let l := f.data.drop 1
  let done (s : State) : State := s.sendConfirm .ep p f.tag
  if item = ciRegionSet then s.epRegionConfig p f.tag false l
  else if item = ciHandover then s.epRegionConfig p f.tag true l
  else if item = ciLostClear then s.epLostClear p f.tag l
  else if item = ciRegionRead then s.epRegionRead p f.tag l
  else if item = ciHold then done (s.onEp fun e => { e with tHold := field l 0 2 })
  else if item = ciCeil then done (s.onEp fun e => { e with ceil := field l 0 1 })
  else if item = ciRank then done (s.epRanks l)
  else if item = ciStage then done (s.epStage p l)
  else if item = ciArm then
    done (if s.ep.sched.standby.any fun k => k.id == field l 0 8 then s.onEp fun e => { e with sched := { e.sched with armed := some (field l 8 8) } } else s)
  else if item = ciDisarm then done (s.onEp fun e => { e with sched := { e.sched with armed := none } })
  else s

end Sys2Proof.Machine
end

