-- ==== Sys2Proof/Machine/EpColl.lean ====
section
/-!
DEFINITION. Collective calls at the AKG-8 (24 R570, R571; 08 R198 to R203, R210 to R222), and the pump that carries the end-point's work
on after every event.
-/

namespace Sys2Proof

/-- Element and scale bytes of a member's contribution (08 R198, R203). -/
def CallRec.sendLen (c : CallRec) (rank : Nat) : Nat :=
  if c.cop = 5 ∨ (c.cop = 3 ∧ rank ≠ c.root) then 0 else c.len

/-- Element bytes that a member receives. -/
def CallRec.recvLen (c : CallRec) (rank n : Nat) : Nat :=
  match c.cop with
  | 0 => c.len
  | 1 => c.len / n
  | 2 => n * c.len
  | 3 => if rank = c.root then 0 else c.len
  | 4 => if rank = c.root then c.len else 0
  | _ => 0

end Sys2Proof

namespace Sys2Proof.Machine

/-! ### Checks of a call (24 R570) -/

/-- Scale bytes that belong to element bytes of an MX format; 0 for others. -/
def scaleLen (fmt n : Nat) : Nat := if fmt = 6 then n / 32 else if fmt = 7 then n / 16 else 0

/-- The record keeps R198 and R199 for a Syndicate of n members. A reduction takes whole elements or blocks only (DESIGN CHOICE, log 116). -/
def callOk (c : CallRec) (n : Nat) : Bool :=
  let reduces := c.cop == 0 || c.cop == 1 || c.cop == 4
  let unit := if c.fmt = 6 then 32 else if c.fmt = 7 then 16 else max 1 (fmtBits c.fmt / 8)
  !c.reserved && decide (c.cop ≤ 5) && decide (c.len < 2 ^ 40)
    && (if reduces then decide (c.rop ≤ 5) && opAllowed (ropOf c.rop) c.fmt && c.len % unit == 0 else c.fmt == 0 && c.rop == 0)
    && (if c.cop = 3 ∨ c.cop = 4 then decide (c.root < n) else c.root == 0)
    && (c.cop != 1 || c.len % (n * unit) == 0)
    && (c.cop != 2 || decide (n * c.len < 2 ^ 40))

/-- The buffers of a call: CVA, length, written. -/
def EpCall.buffers (x : EpCall) : List (Nat × Nat × Bool) :=
  let a := x.c.sendLen x.rank
  let b := x.c.recvLen x.rank x.n
  [(x.c.send, a, false), (x.c.sendScale, scaleLen x.c.fmt a, false), (x.c.recv, b, true), (x.c.recvScale, scaleLen x.c.fmt b, true)]

/-- Check a range segment by segment: a CVA that misses, or whether it is refused. A context has 32 segments. -/
def State.coverRange (s : State) (a : Nat) (write : Bool) : (fuel : Nat) → (cva len : Nat) → (Option Nat × Bool × Bool) × State
  | 0, _, _ => ((none, true, false), s)
  | k + 1, cva, len =>
    if len = 0 then ((none, false, false), s)
    else if 2 ^ 56 < cva + len then ((none, true, false), s)
    else match s.epLookup a cva with
      | (none, s) => ((some cva, false, false), s)
      | (some h, s) => match s.ep.descRefuses a h.desc (if write then .write else .read) with
        | some r => ((none, true, r.2), s)
        | none =>
          let n := min len (h.desc.cvaBase + h.desc.size - cva)
          s.coverRange a write k (cva + n) (len - n)

def State.coverAll (s : State) (a : Nat) : List (Nat × Nat × Bool) → (Option Nat × Bool × Bool) × State
  | [] => ((none, false, false), s)
  | b :: t => match s.coverRange a b.2.2 33 b.1 b.2.1 with
    | ((none, false, _), s) => s.coverAll a t
    | r => r

def State.onCall (s : State) (x : EpCall) (g : EpCall → EpCall) : State :=
  s.onEp fun e => { e with calls := e.calls.map fun c => if c.agent = x.agent ∧ c.utag = x.utag then g c else c }

/-- A call ends without an epoch. -/
def State.refuseCall (s : State) (x : EpCall) (status : Nat) : State :=
  (s.onEp fun e => { e with calls := e.calls.filter fun c => !(c.agent == x.agent && c.utag == x.utag) }).emit (.callDone x.utag status 0)

/-- A fence of a call, for its agent. -/
def State.callFence (s : State) (x : EpCall) (kind : FenceKind) : State := s.epFence x.agent (65536 + x.utag) kind .system

def EndPoint.rankOf (e : EndPoint) (synd agent : Nat) : Option Rank := e.ranks.find? fun r => r.synd == synd && r.agent == agent

/-- Epochs of a Syndicate open here (08 R200): one closes when its chunks have settled, or at its abort. -/
def EndPoint.openEpochs (e : EndPoint) (synd : Nat) : List Nat :=
  ((e.calls.filter fun c => c.c.synd == synd && (c.stage == 1 || c.stage == 2)).map (·.epoch)).eraseDups

/-- Whether epoch n may open: it is open, or fewer than four are and none of them is four or more epochs before it, so that a fifth call waits
for the oldest. -/
def EndPoint.mayOpen (e : EndPoint) (synd n : Nat) : Bool :=
  let o := e.openEpochs synd
  o.contains n || (decide (o.length < 4) && o.all fun m => let k := (n + 4096 - m) % 4096; decide (k < 4 ∨ 2048 ≤ k))

/-- Take a call whose turn it is: its rank, its buffers, then an epoch and the release fence. One whose epoch has aborted already sends nothing, and
completes with the abort's status (08 R220). -/
def State.admitCall (s : State) (x : EpCall) : Option State :=
  if x.stage ≠ 0 ∨ x.xwait.isSome then none
  else if (s.ep.calls.takeWhile (· != x)).any fun c => c.agent == x.agent && c.c.synd == x.c.synd && c.stage == 0 then none
  else match s.ep.rankOf x.c.synd x.agent with
    | none => some (s.refuseCall x stBadAddress)
    | some r =>
      if !callOk x.c r.n then some (s.refuseCall x stBadAddress)
      else if r.lost ∨ s.ep.agentRefused x.agent then some (s.refuseCall x stMemberLost)
      else if !bindV (s.ep.bound x.agent) then some (s.refuseCall x stSegFault)
      else
        let x' : EpCall := { x with rank := r.rank, n := r.n, partition := r.partition, chunks := if x.c.cop = 5 then 1 else max 1 (ceilDiv x.c.len 65536) }
        match s.coverAll x.agent x'.buffers with
        | ((some cva, _), s) => match s.epMiss (.call x.agent x.utag) x.agent cva with
          | (.unreachable, s) => some (s.refuseCall x stSegFault)
          | (.waits, s) => some (s.onCall x fun c => { c with xwait := some cva })
          | (.noTag, _) => none
        | ((none, true, ev), s) => some ((s.ifThen ev fun s => s.epEvent eeDesc).refuseCall x stSegFault)
        | ((none, false, _), s) =>
          let e := r.nextEpoch
          if !s.ep.mayOpen x.c.synd e then none
          else
            let s := s.onEp fun p => { p with ranks := p.ranks.map fun q => if q = r then { q with nextEpoch := (e + 1) % 4096 } else q }
            match s.ep.aborted.find? fun q => q.1 == x.c.synd && q.2.1 == x.agent && q.2.2.1 == e with
            | some q => some ((s.onEp fun p => { p with aborted := p.aborted.erase q }).onCall x fun _ => { x' with stage := 3, epoch := e, status := q.2.2.2 })
            | none => some ((s.onCall x fun _ => { x' with stage := 1, epoch := e }).callFence x .release)

/-! ### Sending a contribution (08 R203) -/

/-- Element and scale bytes of chunk k of the contribution. -/
def EpCall.chunkLen (x : EpCall) (k : Nat) : Nat := min 65536 (x.c.sendLen x.rank - k * 65536)

/-- A COLL frame of a call, to the switch of a plane. -/
def State.collFrame (s : State) (x : EpCall) (dest typ attempt check pos : Nat) (scale last end_ : Bool) (data : List Byte) : Frame :=
  ({ dest := dest, src := s.ep.homeId, agent := x.agent, partition := x.partition, cls := 5, typ := typ, offset := pos + b2n scale * 2 ^ 41,
     opx := collOpx x.c.synd x.rank x.c.cop x.c.rop x.c.sat x.c.unsigned attempt,
     ext := collExt check x.epoch last end_ x.c.fmt x.c.root } : Frame).withData data

/-- Send a frame of chunk k on its plane, while the port there is neither down nor fenced. -/
def State.sendOnPlane (s : State) (k : Nat) (f : Frame) : State := s.ifThen (s.ep.portUp (k % 8)) fun s => s.epSend (k % 8) f

/-- COLL_DATA frames of bytes at a position of a chunk, the last of them with LAST where the chunk ends there. -/
def State.sendPieces (s : State) (x : EpCall) (scale last : Bool) (at_ : Nat) (data : List Byte) : State :=
  let k := x.cur
  let n := max 1 (ceilDiv data.length 256)
  s.each (List.range n) fun s i =>
    let d := (data.drop (256 * i)).take 256
    s.sendOnPlane k (s.collFrame x (s.ep.peer (k % 8)) ftCollData 0 0 (at_ + 256 * i) scale (last && i + 1 == n) (k + 1 == x.chunks) d)

/-- Read the next part of the send buffer, or end a chunk. -/
def State.sendStep (s : State) (x : EpCall) : Option State :=
  if x.stage ≠ 2 ∨ x.reading ∨ x.chunks ≤ x.cur then none
  else
    let n := x.chunkLen x.cur
    let sn := scaleLen x.c.fmt n
    let base := x.cur * 65536
    let sbase := x.cur * scaleLen x.c.fmt 65536
    let ask (s : State) (cva len pos : Nat) (scale : Bool) : State :=
      (s.onCall x fun c => { c with reading := true }).epReq { agent := x.agent, op := .read, cva := cva, length := len }
        (.collSend x.c.synd x.epoch x.cur scale pos)
    if n = 0 then some ((s.sendPieces x false true base []).onCall x fun c => { c with cur := c.cur + 1 })
    else if x.pos < n then some (ask s (x.c.send + base + x.pos) (min 4096 (n - x.pos)) (base + x.pos) false)
    else if x.spos < sn then some (ask s (x.c.sendScale + sbase + x.spos) (min 4096 (sn - x.spos)) (sbase + x.spos) true)
    else some (s.onCall x fun c => { c with cur := c.cur + 1, pos := 0, spos := 0 })

/-- The call of an agent in an epoch. -/
def EndPoint.callIn (e : EndPoint) (agent synd epoch : Nat) : Option EpCall :=
  e.calls.find? fun c => c.agent == agent && c.c.synd == synd && c.epoch == epoch && decide (1 ≤ c.stage)

/-- Take the result of a request that a call made. A read of the send buffer that fails sends nothing more: the root's settlement limit ends
the epoch (DESIGN CHOICE, log 24). -/
def State.takeInternal (s : State) (q : EpReq) : Option State :=
  if q.accel || !q.finished then none
  else
    let s := s.onEp fun e => { e with reqs := e.reqs.filter fun x => x.order != q.order }
    match q.for_ with
    | .accel => some s
    | .collSend synd epoch k scale pos => match s.ep.callIn q.r.agent synd epoch with
      | none => some s
      | some x =>
        if q.status ≠ stOk ∨ x.cur ≠ k ∨ x.stage ≠ 2 then some s
        else
          let data := q.pieces.flatMap (·.rsp)
          let n := x.chunkLen k
          let sn := scaleLen x.c.fmt n
          let last := if scale then decide (x.spos + data.length = sn) else sn == 0 && decide (x.pos + data.length = n)
          some ((s.sendPieces x scale last pos data).onCall x fun c =>
            if scale then { c with reading := false, spos := c.spos + data.length } else { c with reading := false, pos := c.pos + data.length })
    | .collRecv synd epoch k a _ => match s.ep.callIn q.r.agent synd epoch with
      | none => some s
      | some x => some (s.onCall x fun c => { c with chunk := c.chunk.mapVals fun j y =>
          if j = k ∧ y.attempt = a ∧ y.fail = stOk then { y with fail := q.status } else y })
    | .collReport synd epoch => match s.ep.callIn q.r.agent synd epoch with
      | none => some s
      | some x => some (s.onCall x fun c => { c with reported := c.reported + q.r.length, reading := false })

/-! ### Results (08 R210, R211, R216) -/

def EpCall.part (x : EpCall) (k : Nat) : EpChunk := x.chunk.get k {}

def State.onChunk (s : State) (x : EpCall) (k : Nat) (g : EpChunk → EpChunk) : State :=
  s.onCall x fun c => { c with chunk := c.chunk.put k (g (c.part k)) }

def State.chunkNote (s : State) (x : EpCall) (k attempt : Nat) (kind : NoteKind) : State :=
  s.ifThen x.c.notes fun s => s.emit (.chunkNote x.agent x.epoch k attempt kind)

/-- A position put among those received, in ascending order; a redelivery of the same position replaces it. -/
def placePart (p : Nat) (d : List Byte) : List (Nat × List Byte) → List (Nat × List Byte)
  | [] => [(p, d)]
  | (q, e) :: t => if p < q then (p, d) :: (q, e) :: t else if p = q then (p, d) :: t else (q, e) :: placePart p d t

/-- The check of what was delivered: element bytes before scale bytes, in ascending position; 0 for an empty delivery. -/
def EpChunk.check (k : EpChunk) : Nat :=
  let l := k.rx.flatMap Prod.snd ++ k.rxScale.flatMap Prod.snd
  if l.isEmpty then 0 else (crc32c l).toNat

/-- The chunk of a result frame: by the receiver's position, except for ALL_GATHER, whose blocks each hold every chunk, and REDUCE_SCATTER,
whose block lies within the contribution. -/
def EpCall.chunkAt (x : EpCall) (pos : Nat) (scale : Bool) : Nat :=
  let whole := if scale then scaleLen x.c.fmt x.c.len else x.c.len
  let unit := if scale then scaleChunk x.c.fmt else 65536
  if x.c.cop = 2 then pos % max 1 whole / unit
  else if x.c.cop = 1 then (pos + x.rank * (whole / x.n)) / unit
  else pos / unit

/-- A COLL_RESULT frame: its bytes are written at POS, and the frame with LAST is confirmed to the root switch. -/
def State.epCollResult (s : State) (f : Frame) : State :=
  match s.ep.callIn f.agent (cSynd f) (cEpoch f) with
  | none => s
  | some x =>
    if x.stage ≠ 2 then s
    else
      let pos := cPos f
      let k := if f.length = 0 then pos / 65536 else x.chunkAt pos (cScale f)
      let d := padTo f.length f.data
      let a := cAttempt f
      let s := s.onChunk x k fun c => if c.attempt = a then c else { attempt := a, settled := c.settled }
      let s := if f.length = 0 then s else s.onChunk x k fun c =>
        if cScale f then { c with rxScale := placePart pos d c.rxScale } else { c with rx := placePart pos d c.rx }
      let s := if f.length = 0 then s else
        s.epReq { agent := x.agent, op := .write, cva := (if cScale f then x.c.recvScale else x.c.recv) + pos, length := f.length, data := d }
          (.collRecv x.c.synd x.epoch k a (cLast f))
      if !cLast f then s
      else match s.ep.callIn f.agent (cSynd f) (cEpoch f) with
        | none => s
        | some y =>
          let chk := (y.part k).check
          let s := s.onChunk x k fun c => { c with whole := chk == cCheck f }
          s.sendOnPlane k (s.collFrame x f.src ftCollConfirm a chk (k * 65536) false true (k + 1 == x.chunks) [])

/-- Result writes of a call that are under way, for one chunk or any. -/
def EndPoint.receiving (e : EndPoint) (x : EpCall) (k : Option Nat) : Bool :=
  e.reqs.any fun q => match q.for_ with
    | .collRecv synd epoch j _ _ => q.r.agent == x.agent && synd == x.c.synd && epoch == x.epoch && k.all (· == j)
    | _ => false

/-- A chunk whose frames are all written, and whose check agrees, is delivered. -/
def State.deliverStep (s : State) (x : EpCall) : Option State :=
  if x.stage ≠ 2 then none
  else firstSome x.chunk fun e =>
    if e.2.whole && e.2.fail == stOk && !e.2.delivered && !e.2.settled && !s.ep.receiving x (some e.1) then
      some ((s.onChunk x e.1 fun c => { c with delivered := true }).chunkNote x e.1 e.2.attempt .delivered)
    else none

/-- Withdraw a chunk's delivery. -/
def State.withdrawChunk (s : State) (x : EpCall) (k : Nat) : State :=
  let c := x.part k
  let s := s.ifThen (c.delivered && !c.settled) fun s => s.chunkNote x k c.attempt .recalled
  s.onChunk x k fun c => if c.settled then c else { attempt := c.attempt }

/-- COLL_RECALL. -/
def State.epCollRecall (s : State) (f : Frame) : State :=
  match s.ep.callIn f.agent (cSynd f) (cEpoch f) with
  | none => s
  | some x => if x.stage = 2 ∧ (x.part (cPos f / 65536)).attempt = cAttempt f then s.withdrawChunk x (cPos f / 65536) else s

/-- The call of a member that a TC5 frame from a root switch is for. -/
def EndPoint.memberCall (e : EndPoint) (f : Frame) : Option EpCall := e.callIn f.agent (cSynd f) (cEpoch f)

/-- COLL_CONFIRM with which the root switch settles a chunk (24 R571). -/
def State.epSettled (s : State) (f : Frame) : State :=
  match s.ep.memberCall f with
  | none => s
  | some x =>
    let k := cPos f / 65536
    if x.stage ≠ 2 ∨ (x.part k).settled then s
    else
      let s := (s.onChunk x k fun c => { c with settled := true, rx := [], rxScale := [] }).chunkNote x k (cAttempt f) .settled
      match s.ep.memberCall f with
      | none => s
      | some y => if (List.range y.chunks).all fun j => (y.part j).settled then s.onCall y fun c => { c with stage := 3, status := stOk } else s

/-- Fresh free bytes in place of n bytes at pos of a line. -/
def State.forget (s : State) (fga pos n : Nat) : State :=
  let d := (List.range n).map fun i => BitVec.ofNat 8 (Config.freeBits (s.fresh + i))
  { s.onWay fga fun w => { w with data := patch w.data pos d } with fresh := s.fresh + n }

/-- Fresh free bytes in place of n bytes at an offset of the switch's pool, on a line that can be read. -/
def State.forgetPool (s : State) (off n slot : Nat) : State :=
  if s.sw.lineLost (off / 128) then s
  else
    let d := (List.range n).map fun i => BitVec.ofNat 8 (Config.freeBits (s.fresh + i))
    { s.writeRange { offset := off, length := n, keySlot := slot } d with fresh := s.fresh + n }

/-- The bytes that an unsettled chunk brought into the receive buffer are undefined after the abort (08 R221): those that the cache or the switch's pool
holds become free values (log 5). -/
def State.forgetChunk (s : State) (x : EpCall) (c : EpChunk) : State :=
  let wipe (base : Nat) (s : State) (r : Nat × List Byte) : State :=
    s.each (cutAt 128 (base + r.1) r.2.length) fun s p => match (s.epLookup x.agent p.1).1 with
      | none => s
      | some h =>
        let (home, off) := h.desc.place (p.1 - h.desc.cvaBase)
        let s := s.forget (lineOf (home * 2 ^ 42 + off)) (off % 128) p.2
        if home = s.sw.sys.homeId ∧ inPool off p.2 then s.forgetPool off p.2 h.desc.keySlot else s
  (s.each c.rx (wipe x.c.recv)).each c.rxScale (wipe x.c.recvScale)

/-- The root switches of the other planes hear of an abort: those of the rack of rank 0 (08 R207, R220). -/
def State.passAbort (s : State) (p : Nat) (f : Frame) (r : Rank) : State :=
  s.each ((List.range 8).filter (· != p)) fun s q => s.sendOnPlane q
    { f with dest := r.rootRack * 8 + q, src := s.ep.homeId, inc := 0, opx := collOpx (cSynd f) r.rank (cCop f) (cRop f) (cSat f) (cUns f) 0 }

/-- COLL_ABORT of an epoch that the agent has not called: it is kept for the call that opens the epoch, and passed on once (08 R220). An epoch before
the agent's next one is over. -/
def State.epAbortAhead (s : State) (p : Nat) (f : Frame) : State :=
  match s.ep.rankOf (cSynd f) f.agent with
  | none => s
  | some r =>
    if 2048 ≤ (cEpoch f + 4096 - r.nextEpoch) % 4096 ∨ s.ep.aborted.any fun q => q.1 == cSynd f && q.2.1 == f.agent && q.2.2.1 == cEpoch f then s
    else (s.onEp fun e => { e with aborted := e.aborted ++ [(cSynd f, f.agent, cEpoch f, f.status)] }).passAbort p f r

/-- COLL_ABORT (08 R220): the epoch's unsettled chunks are withdrawn, and the root switches of the other planes hear of it. -/
def State.epCollAbort (s : State) (p : Nat) (f : Frame) : State :=
  let s := s.ifThen (f.status == stMemberLost) fun s => s.onEp fun e =>
    { e with ranks := e.ranks.map fun r => if r.synd = cSynd f ∧ r.agent = f.agent then { r with lost := true } else r }
  match s.ep.memberCall f with
  | none => s.epAbortAhead p f
  | some x =>
    if 2 < x.stage then s
    else
      let s := s.onEp fun e => { e with
        outq := e.outq.map fun q => (q.1, q.2.filter fun g => !(g.cls == 5 && g.agent == x.agent && cSynd g == x.c.synd && cEpoch g == x.epoch))
        reqs := e.reqs.filter fun q => match q.for_ with
          | .collSend synd epoch _ _ _ => q.pieces.any (·.started) || !(q.r.agent == x.agent && synd == x.c.synd && epoch == x.epoch)
          | _ => true
        fences := e.fences.filter fun g => !(g.agent == x.agent && g.utag == x.utag + 65536) }
      let s := s.each x.chunk fun s c => (s.ifThen (!c.2.settled) fun s => s.forgetChunk x c.2).withdrawChunk x c.1
      let s := s.onCall x fun c => { c with stage := 3, status := f.status }
      match s.ep.rankOf x.c.synd x.agent with
      | none => s
      | some r => s.passAbort p f r

/-! ### The end of a call (24 R571, 08 R201) -/

/-- The settlement report: bit k for each chunk k that settled. -/
def EpCall.report (x : EpCall) : List Byte :=
  (List.range (ceilDiv x.chunks 8)).map fun i => BitVec.ofNat 8 ((List.range 8).foldl (fun m b => m + b2n (x.part (8 * i + b)).settled * 2 ^ b) 0)

/-- Status of the first settled chunk whose writes into the receive buffer failed: such a call holds no result of it, and does not complete
with OK (08 R217; DESIGN CHOICE, log 24). -/
def EpCall.endStatus (x : EpCall) : Nat :=
  if x.status ≠ stOk then x.status else (((List.range x.chunks).map fun k => (x.part k).fail).find? (· != stOk)).getD stOk

/-- Once every write into the receive buffer has ended: write the report, then the acquire fence, then CALL_DONE. -/
def State.endStep (s : State) (x : EpCall) : Option State :=
  if x.stage = 3 ∧ s.ep.receiving x none then none
  else if x.stage = 3 then
    let l := x.report
    if x.c.report = 0 ∨ l.length ≤ x.reported then some ((s.onCall x fun c => { c with stage := 4 }).callFence x .acquire)
    else if x.reading then none
    else
      let d := (l.drop x.reported).take 4096
      some ((s.onCall x fun c => { c with reading := true }).epReq
        { agent := x.agent, op := .write, cva := x.c.report + x.reported, length := d.length, data := d } (.collReport x.c.synd x.epoch))
  else if x.stage = 5 then
    some ((s.onEp fun e => { e with calls := e.calls.filter fun c => !(c.agent == x.agent && c.utag == x.utag) }).emit (.callDone x.utag x.endStatus x.epoch))
  else none

/-- A call that aborts while a read of its send buffer is under way takes its report's turn when that read has ended. -/
def State.settleReading (s : State) (x : EpCall) : Option State :=
  if x.stage = 3 ∧ x.reading ∧ s.ep.reqs.all (fun q => match q.for_ with
      | .collReport synd epoch => !(q.r.agent == x.agent && synd == x.c.synd && epoch == x.epoch)
      | _ => true) then some (s.onCall x fun c => { c with reading := false })
  else none

/-- The next progress of the calls. -/
def State.collStep (s : State) : Option State :=
  (firstSome s.ep.reqs s.takeInternal).orElse fun _ =>
  firstSome s.ep.calls fun x =>
    (s.admitCall x).orElse fun _ => (s.sendStep x).orElse fun _ => (s.deliverStep x).orElse fun _ => (s.settleReading x).orElse fun _ => s.endStep x

/-- A CALL arrives. -/
def State.epCall (s : State) (a utag : Nat) (c : CallRec) : State :=
  s.onEp fun e => { e with calls := e.calls ++ [{ agent := a, utag := utag, c := c }] }

/-! ### The pump -/

/-- One progress of the end-point's own work. -/
def State.epStep (s : State) : Option State :=
  s.reqStep.orElse fun _ => s.homeStep.orElse fun _ => s.collStep

/-- Carry the end-point's work on until nothing moves, or a bound of steps is reached. -/
def State.pumpN : (fuel : Nat) → State → State
  | 0, s => s
  | n + 1, s => match s.epStep with
    | some t => State.pumpN n t
    | none => s

/-- Everything that can go on at the end-point goes on, what can be answered is answered, and what may leave leaves. -/
def State.pump (s : State) : State :=
  if s.ep.off then s else ((State.pumpN 100000 s.epUnreachable).epPoll).epDrain

/-- A frame arrives at the end-point on a port: taken, and its work carried on. -/
def State.epIn (s : State) (p : Nat) (f : Frame) (g : State → State) : State :=
  if !s.ep.portLive p || s.ep.off then s else (s.epTake p f g).pump

/-- An event of the end-point's own: nothing while it is off. -/
def State.epEv (s : State) (g : State → State) : State := if s.ep.off then s else (g s).pump

end Sys2Proof.Machine
end

