-- ==== Sys2Proof/Machine/Flights.lean ====
section
/-!
DEFINITION. Requests of the switch itself: completion (03 R72, R80, R81), the host window (18 R458 to R462), and invalidation of
its translations (02 R49 to R52).
-/

namespace Sys2Proof.Machine

/-! ### Host window accesses -/

def State.onHost (s : State) (g : HostIf → HostIf) : State := s.onSw fun w => { w with host := g w.host }

/-- Fields of SW_HOST_AP (18). -/
def apEnable (a : BitVec 64) : Bool := a.getLsbD 0
def apWrite (a : BitVec 64) : Bool := a.getLsbD 1
def apSlot (a : BitVec 64) : Nat := bits a.toNat 2 5
def apBase (a : BitVec 64) : Nat := bits a.toNat 30 22 * 2 ^ 30

/-- The FGA of a BAR2 address through its aperture. -/
def HostOp.fga (o : HostOp) : Nat := apBase o.aperture + o.addr % 2 ^ 30

/-- Whether a host access is refused (18 R459). -/
def Switch.hostRefuses (w : Switch) (o : HostOp) : Bool :=
  let home := o.fga / 2 ^ 42
  let off := o.fga % 2 ^ 42
  let ranges := (cutAt 0x40000000 off o.len).map fun p => p.1 / 0x40000000
  let own := home == w.sys.homeId && inPool off o.len
  !apEnable o.aperture || (o.ctag.isNone && !apWrite o.aperture)
    || (isSwitchId home && home % 8 != w.sys.plane) || (w.portTo home).isNone
    || (o.fn != 0 && !(own && (ranges.all fun g => w.poolOwner g == o.fn) && w.slotOf (apSlot o.aperture) o.fn))
    || (o.fn == 0 && w.sys.strongroom && own && ranges.any fun g => decide (1 ≤ w.poolOwner g ∧ w.poolOwner g ≤ 15))

/-- The AGENT of a function's apertures. -/
def hostAgent (fn : Nat) : Nat := if fn = 0 then 63 else 47 + fn

def State.onOp (s : State) (id : Nat) (g : HostOp → HostOp) : State :=
  s.onHost fun h => { h with ops := h.ops.map fun o => if o.id == id then g o else o }

/-- Record a failed host access (18 R460). -/
def State.hostFault (s : State) (fn status : Nat) : State :=
  s.record { kind := fHostAccess, partition := fn, status := status }

/-- A frame of a host access has completed. -/
def State.hostPiece (s : State) (id off status : Nat) (data : List Byte) : State :=
  match s.sw.host.ops.find? fun o => o.id == id with
  | none => s
  | some o =>
    let s := if status ≠ stOk ∧ (o.ctag.isNone ∨ o.status = stOk) then s.hostFault o.fn status else s
    let d := if status = stOk ∧ o.ctag.isSome then padTo off o.data ++ data ++ o.data.drop (off + data.length) else o.data
    let o := { o with left := o.left - 1, status := if o.status = stOk then status else o.status, data := d }
    if o.left ≠ 0 then s.onOp id fun _ => o
    else
      let s := s.onHost fun h => { h with ops := h.ops.filter fun x => x.id != id }
      match o.ctag with
      | some t => if o.owed then s.emit (.pcieCpl o.fn t (if o.status = stOk then some (padTo o.len o.data) else none)) else s
      | none => s

/-- Send the frames of a host access: one for each line or part of a line (18 R458). -/
def State.startOp (s : State) (o : HostOp) : State :=
  let home := o.fga / 2 ^ 42
  let parts := cutAt 128 o.fga o.len
  let s := s.onOp o.id fun x => { x with started := true, left := parts.length }
  let k := apSlot o.aperture
  s.each parts fun s p =>
    let at_ := p.1 - o.fga
    let base : Frame := { dest := home, src := s.sw.sys.homeId, agent := hostAgent o.fn, partition := o.fn, cls := 3, keySlot := k, inc := s.sw.incFor home,
                          offset := p.1 % 2 ^ 42 }
    let f := if o.ctag.isSome then { base with typ := ftReadVol, length := p.2 } else ({ base with typ := ftWrite } : Frame).withData (slice o.data at_ p.2)
    if (s.sw.getSlot k).state = .retiring then s.hostPiece o.id at_ stSegFault []
    else match s.sw.portTo home with
      | none => s.hostPiece o.id at_ stBadAddress []
      | some port => s.sendRequest outEscrow port f (.host o.id at_) (hostAgent o.fn) 0 { ctx := 0, seg := 0xFF, desc := {} }

/-- Start each host access that PCIe ordering lets begin (18 R461): a read after every earlier write of its function, a write after every earlier
write of it to another home. -/
def State.startOps (s : State) : State :=
  s.each s.sw.host.ops fun s o =>
    let before := s.sw.host.ops.filter fun x => x.fn == o.fn && x.ctag.isNone && decide (x.id < o.id)
    if o.started then s
    else if o.ctag.isSome then (if before.isEmpty then s.startOp o else s)
    else if before.all fun x => x.fga / 2 ^ 42 == o.fga / 2 ^ 42 then s.startOp o else s

/-- A host access arrives at BAR2. -/
def State.hostAccess (s : State) (fn : Nat) (ctag : Option Nat) (addr len : Nat) (data : List Byte) : State :=
  let o : HostOp := { id := s.sw.host.nextOp, fn := fn, ctag := ctag, addr := addr, len := len, data := data,
                      aperture := s.sw.host.aperture.get (fn * 64 + addr / 2 ^ 30) 0 }
  if s.sw.hostRefuses o then
    match ctag with
    | some t => s.emit (.pcieCpl fn t none)
    | none => s.count 0 cHostRefused
  else (s.onHost fun h => { h with ops := h.ops ++ [o], nextOp := h.nextOp + 1 }).startOps

/-! ### Completion of the switch's own requests -/

/-- A frame of a graph's done record is answered: with the last one the record is written, or cannot be (09 R250). -/
def State.doneWritten (s : State) (slot status : Nat) : State :=
  match s.sw.getGraph slot with
  | none => s
  | some g =>
    let bad := if g.doneBad = stOk then status else g.doneBad
    if 1 < g.doneLeft then s.putGraph slot { g with doneLeft := g.doneLeft - 1, doneBad := bad }
    else ((if bad = stOk then s else s.doneLost g.partition g.tag).freeSlot slot).escrowSettle

/-- The asker's acknowledgement of an invalidation: the number of engines fenced (02 R52, 03 R65). -/
def State.ackInval (s : State) (number engines : Nat) (f : Frame) : State :=
  let data := leBytes 4 number ++ leBytes 2 engines ++ leBytes 10 0
  s.swSend outEscrow (({ dest := f.src, src := s.sw.sys.homeId, cls := 3, typ := ftSegInvAck, tag := f.tag, inc := s.sw.incFor f.src } : Frame).withData data)

/-- Go on with an invalidation once the engines of this switch have drained: answer each copy, and complete the command when every end-point has
answered. -/
def State.invalCheck (s : State) (x : Inval) : State :=
  let live := x.draining.filter fun k => s.sw.escrow.flight.any fun f => f.port * 4096 + f.tag == k
  let x := { x with draining := live }
  let put (s : State) (x : Inval) := s.onXlat fun y => { y with inval := y.inval.map fun z => if z.number == x.number then x else z }
  if !live.isEmpty then put s x
  else
    let s := s.each x.askers.zipIdx fun s a => s.ackInval x.number (if a.2 = 0 ∧ ¬x.answered then x.ownFenced else 0) a.1.2
    let x := { x with answered := x.answered || !x.askers.isEmpty, askers := [] }
    match x.cmd with
    | some (fn, mb) =>
      if x.await.isEmpty then
        let st := if x.fencedEps = 0 ∧ x.fencedEngines = 0 ∧ x.silent = [] then mbOk else mbFenced
        (put s { x with cmd := none }).finishWork fn mb st (leBytes 4 x.number ++ leBytes 2 x.fencedEps ++ leBytes 2 x.fencedEngines ++ leBytes 2 x.silent.length)
      else put s x
    | none => put s x

/-- Change the record of an invalidation. -/
def State.onInval (s : State) (number : Nat) (g : Inval → Inval) : State :=
  s.onXlat fun x => { x with inval := x.inval.map fun z => if z.number == number then g z else z }

/-- Check every invalidation. -/
def State.invalPoll (s : State) : State := s.each s.sw.xlat.inval fun s x => s.invalCheck x

/-- A party's write has failed: it counts for the party's next SYSTEM release fence (04 R91), and for each later flagged frame of its class that is
held (03 R86). -/
def State.noteBadWrite (s : State) (x : Flight) (status : Nat) : State :=
  if status = stOk ∨ !x.ofParty ∨ ¬(x.isWrite ∨ x.f.typ = ftAtomic) then s
  else s.onEscrow fun e => { e with
    badWrite := e.badWrite.put x.engine ((x.order, status) :: e.badWrite.get x.engine [])
    held := e.held.map fun y =>
      if y.f.f && y.sameParty x && y.f.cls == x.f.cls && decide (x.order < y.order) && y.fail.all (fun q => decide (x.order < q.1)) then
        { y with fail := some (x.order, status) }
      else y }

/-- Tasks go on that waited for their engine's requests: a release fence may complete, and an acquire fence (04 R95). -/
def State.enginesGo (s : State) : State :=
  s.each engines48 fun s e => match (s.sw.getEngine e).task with
    | none => s
    | some (slot, t) => match s.sw.getTask slot t with
      | none => s
      | some x => if x.result.isSome then s.releaseTask slot t else if x.log.isEmpty ∧ x.xwait.isNone then s.resumeTask slot t else s

/-- A request of the switch ends with a status: its owner goes on. -/
def State.endFlight (s : State) (x : Flight) (status : Nat) (data : List Byte) : State :=
  let s := s.noteBadWrite x status
  (match x.owner with
    | .task slot t i => s.taskReply slot t i { status := status, data := data }
    | .done slot => s.doneWritten slot status
    | .host id off => (s.hostPiece id off status data).startOps).enginesGo

/-- The first held request that need not wait any longer: it may leave and a tag is free, or it ends unsent. -/
def Switch.nextToLeave (w : Switch) : Option Flight :=
  w.escrow.held.find? fun x => w.mayLeave x && (x.fail.isSome || (w.getSlot x.f.keySlot).state == .retiring || (w.freeTag x.port).isSome)

/-- Held requests leave in order of issue as far as they may. A flagged one behind a failed write ends with that write's status (03 R86), and one
whose key slot has closed with SEG_FAULT. -/
def State.leaveHeld (s : State) : (fuel : Nat) → State
  | 0 => s
  | n + 1 => match s.sw.nextToLeave with
    | none => s
    | some x =>
      let s := s.onEscrow fun e => { e with held := e.held.filter fun y => y.order != x.order }
      (match x.fail, s.sw.freeTag x.port with
        | some (_, st), _ => s.endFlight x st []
        | none, some tag => if (s.sw.getSlot x.f.keySlot).state = SlotState.retiring then s.endFlight x stSegFault [] else s.sendNow x tag
        | none, none => s.endFlight x stSegFault []).leaveHeld n

/-- What follows the end of requests: held ones leave, tasks whose fences waited for that go on (04 R90), and so do invalidations. -/
def State.flightsGo (s : State) : State := ((s.leaveHeld 4096).enginesGo).invalPoll

/-- A request in flight completes. -/
def State.completeFlight (s : State) (x : Flight) (status : Nat) (data : List Byte) : State :=
  ((s.onEscrow fun e => { e with flight := e.flight.filter fun y => !(y.port == x.port && y.tag == x.tag) }).endFlight x status data).flightsGo

/-- A response reaches the switch on a port: it completes the request of that port and tag, or is late. -/
def State.switchResponse (s : State) (port : Nat) (f : Frame) : State :=
  let s := s.takeInbox (internalOut f) f
  match s.sw.escrow.flight.find? fun x => x.port == port && x.tag == f.tag with
  | some x => s.completeFlight x f.status (if f.status = stOk then f.data else [])
  | none => s.count 0 cLateResponse

/-- A held request ends unsent. -/
def State.endHeld (s : State) (x : Flight) (status : Nat) : State :=
  (s.onEscrow fun e => { e with held := e.held.filter fun z => z.order != x.order }).endFlight x status []

/-- What a party's access that waits for its translation comes to, without one: an engine's task ends with the status, a done record is lost. -/
def State.missEnds (s : State) (n status : Nat) : State :=
  if n < 256 then
    match (s.sw.getEngine n).task with
    | some (slot, t) => if (s.sw.getTask slot t).any fun x => x.xwait.isSome && x.state == .running && x.result.isNone then s.endTask slot t status else s
    | none => s
  else match s.sw.getGraph (n - 256) with
    | some g => if g.ending && !s.sw.doneUnderWay (n - 256) then ((s.doneLost g.partition g.tag).freeSlot (n - 256)).escrowSettle else s
    | none => s

/-- A request of the switch times out (03 R80). One in flight is withdrawn if its header has not left (04 R106), and its tag stays out of use (R81); one
that its core stage holds, or whose access waits for a translation (02 R44), is never sent. -/
def State.switchTimeout (s : State) (port : Nat) (r : Timed) : State :=
  match r with
  | .flight tag =>
    match s.sw.escrow.flight.find? fun x => x.port == port && x.tag == tag with
    | some x => ((s.withdrawFlight x).onEscrow fun e => { e with quarantine := (port * 4096 + tag) :: e.quarantine }).completeFlight x stTimeout []
    | none => s
  | .held order =>
    match s.sw.escrow.held.find? fun x => x.order == order with
    | some x => (s.endHeld x stTimeout).flightsGo
    | none => s
  | .miss party => s.missEnds party stTimeout

/-! ### Frames taken back by an invalidation (02 R51 step 2) -/

/-- The party whose miss brings a request's translation: its engine, or 256 + graph slot for a done record. -/
def Flight.who (x : Flight) : Nat := match x.owner with | .done slot => 256 + slot | _ => x.engine

/-- What translating an access again finds: it waits for a host read, ends with a status, or goes on under the new descriptor. -/
inductive Again where
  | waits
  | ends (status : Nat)
  | goes (x : Flight)

/-- Translate a taken-back access again (02 R51). -/
def State.translateAgain (s : State) (x : Flight) : Again × State :=
  match s.lookup x.engine x.ctx x.f.partition x.cva with
  | (none, s) => match s.engineMiss x.who x.ctx x.f.partition x.cva with
    | (none, s) => (.waits, s)
    | (some st, s) => (.ends st, s)
  | (some h, s) =>
    if !h.desc.permits x.isWrite (x.f.typ == ftAtomic) then (.ends stSegFault, s.xlatFault fPermission x.ctx h.seg x.f.partition s.sw.xlat.serving)
    else if s.sw.slotClosed h.desc then (.ends stSegFault, s)
    else
      let (home, off) := h.desc.place (x.cva - h.desc.cvaBase)
      let typ := if x.isWrite then (if h.desc.log then ftWriteLog else ftWrite) else x.f.typ
      match s.sw.portTo home with
      | none => (.ends stBadAddress, s)
      | some p => (.goes { x with port := p, ctx := h.ctx, desc := h.desc, sent := true,
                                  f := { x.f with dest := home, offset := off, typ := typ, keySlot := h.desc.keySlot, inc := s.sw.incFor home } }, s)

/-- Translate a held request again: until that is done it does not leave. -/
def State.rehold (s : State) (x : Flight) : State :=
  let put (s : State) (y : Flight) := s.onEscrow fun e => { e with held := e.held.map fun z => if z.order == x.order then y else z }
  match s.translateAgain x with
  | (.waits, s) => put s { x with sent := false }
  | (.ends st, s) => s.endHeld x st
  | (.goes y, s) => put s y

/-- Translate again what was taken back and a test selects. -/
def State.retranslate (s : State) (sel : Flight → Bool) : State :=
  (s.each (s.sw.escrow.held.filter fun x => !x.sent && sel x) fun s x => s.rehold x).flightsGo

/-- A request whose frame has not begun to leave goes back to its core stage. again: to be translated again. -/
def State.unsend (s : State) (x : Flight) (again : Bool) : State :=
  match s.takeUnsent (x.frameIs s.sw.sys.homeId) with
  | none => s
  | some s => s.onEscrow fun e => { e with flight := e.flight.filter fun y => !(y.port == x.port && y.tag == x.tag)
                                           held := insertBy (·.order) { x with sent := !again } e.held }

/-- A request that a miss of its party and CVA has found no host read for: the limits of R43 were reached, and it tries again (02 R43). -/
def Switch.unasked (w : Switch) (x : Flight) : Bool :=
  !(w.xlat.reads.any fun r => r.waiters.contains (.engine x.who x.f.partition x.cva))

/-- Steps 1 to 3 of R51 for the switch's engines: drop the matching translations, take back what has not begun to leave, and note what has. What its
party issued later on the same path goes back too, so that it leaves in the order of issue (03 R82). -/
def State.dropXlat (s : State) (ctx first count : Nat) : List Nat × State :=
  let hit (h : Held) := h.ctx == ctx && h.desc.overlaps first count
  let s := s.onXlat fun x => { x with l1 := x.l1.mapVals fun _ l => l.filter fun h => !hit h
                                      l2 := x.l2.filter fun h => !hit h
                                      reads := x.reads.map fun r => if r.ctx == ctx then { r with stale := true } else r }
  let under (x : Flight) : Bool := x.ofParty && x.ctx == ctx && x.desc.v && x.desc.overlaps first count && x.sent
  let mine := s.sw.escrow.flight.filter under
  let s := s.each mine fun s x => s.unsend x true
  let left := mine.filter fun x => s.sw.escrow.flight.any fun y => y.port == x.port && y.tag == x.tag
  let back := mine.filter fun x => !left.contains x
  let s := s.each (s.sw.escrow.flight.filter fun y => back.any fun x => x.before y) fun s y => s.unsend y false
  let s := s.onEscrow fun e => { e with held := e.held.map fun x => if under x then { x with sent := false } else x }
  (left.map fun x => x.port * 4096 + x.tag, s.retranslate fun x => x.ctx == ctx && x.desc.overlaps first count && s.sw.unasked x)

/-! ### Invalidations at a switch -/

/-- A SEG_INV reaches a switch (02 R52). An invalidation number is remembered until the next start, so one that a sender uses again, past its 2^22
counts or after its own start, is taken for a later copy (DESIGN CHOICE, log 94: the spec does not say how long a number is remembered). -/
def State.segInvSwitch (s : State) (port : Nat) (f : Frame) : State :=
  let s := s.takeInbox (internalOut f) f
  let number := field f.data 12 4
  let s := match s.sw.xlat.inval.find? fun x => x.number == number with
    | some _ => s.onInval number fun x => { x with askers := x.askers ++ [(port, f)] }
    | none =>
      let ctx := f.opxBits 51 36
      let (tags, s) := s.dropXlat ctx (field f.data 0 8) (field f.data 8 4)
      let x : Inval := { number := number, ctx := ctx, first := field f.data 0 8, count := field f.data 8 4, draining := tags, askers := [(port, f)] }
      s.onXlat fun y => { y with inval := y.inval ++ [x] }
  s.invalPoll

/-- The translation switch takes SEG_INVALIDATE (02 R49): own engines first, then SEG_INV to every end-point it does not hold fenced. The first
invalidation after a start of the switch carries count 1, and a warm start counts from the beginning too (DESIGN CHOICE, log 95: the spec gives no
first count). -/
def State.beginInval (s : State) (fn mb ctx first count : Nat) : State :=
  let c := (s.sw.xlat.count + 1) % 2 ^ 22
  let number := s.sw.sys.homeId * 2 ^ 22 + c
  let s := s.onXlat fun x => { x with count := c }
  let (tags, s) := s.dropXlat ctx first count
  let y := s.sw.sys
  let eps := (List.range y.racks).flatMap fun r => ((List.range (if y.mode = 0 then 64 else 48)).map fun n => epId r n).filter fun h =>
    !(s.sw.mgmt.rec_.get h {}).verdict
  let s := s.onXlat fun x => { x with inval := x.inval ++ [{ number := number, ctx := ctx, first := first, count := count, cmd := some (fn, mb), await := eps, draining := tags }] }
  let data := leBytes 8 first ++ leBytes 4 count ++ leBytes 4 number
  let s := s.each eps fun s h =>
    let f := ({ dest := h, src := y.homeId, cls := 4, typ := ftSegInv, tag := c % 4096, inc := s.sw.incFor h, opx := opxAt ctx 36 } : Frame).withData data
    if epRack h = y.rack ∧ (s.sw.getLink (epSlot h)).state ≠ .active then
      s.onInval number fun z => { z with await := z.await.filter (· != h) }
    else s.swSend outEscrow f
  s.invalPoll

/-- A SEG_INV_ACK reaches the switch that sent the SEG_INV. -/
def State.segInvAckSwitch (s : State) (f : Frame) : State :=
  let s := s.takeInbox (internalOut f) f
  let number := field f.data 0 4
  let silent := ((List.range 8).filter fun q => bit (field f.data 6 1) q).map fun q => rackOf f.src * 8 + q
  (s.onInval number fun z =>
    if z.await.contains f.src then
      { z with await := z.await.filter (· != f.src), fencedEngines := z.fencedEngines + field f.data 4 2
               silent := z.silent ++ silent.filter fun h => !z.silent.contains h }
    else z).invalPoll

/-- Engines still draining 500 µs after an invalidation are fenced (02 R49, R52). -/
def State.drainTimeout (s : State) (number : Nat) : State :=
  match s.sw.xlat.inval.find? fun x => x.number == number with
  | none => s
  | some x =>
    let es := ((s.sw.escrow.flight.filter fun f => x.draining.contains (f.port * 4096 + f.tag)).map (·.engine)).eraseDups.filter (· < 48)
    let s := s.onInval number fun z =>
      { z with ownFenced := es.length, fencedEngines := if z.cmd.isSome then z.fencedEngines + es.length else z.fencedEngines, draining := [] }
    (s.fenceEngines es).flightsGo

/-- An end-point counts as having acknowledged every pending invalidation (02 R54). -/
def State.invalGone (s : State) (h : Nat) : State :=
  (s.onXlat fun x => { x with inval := x.inval.map fun z => { z with await := z.await.filter (· != h) } }).invalPoll

end Sys2Proof.Machine
end

