-- ==== Sys2Proof/Machine/Fence.lean ====
section
/-!
DEFINITION. The failure detector's verdict at a switch and what else fences an end-point or an agent (23 R545 to R552, 05 R117 to
R127).
-/

namespace Sys2Proof.Machine

def Switch.epRec (w : Switch) (h : Nat) : EpRec := w.mgmt.rec_.get h {}

def State.onEpRec (s : State) (h : Nat) (g : EpRec → EpRec) : State :=
  s.onSw fun w => { w with mgmt := { w.mgmt with rec_ := w.mgmt.rec_.put h (g (w.epRec h)) } }

/-! ### Verdicts (23 R547, R548) -/

/-- Causes of a VERDICT frame. -/
def vDetector : Nat := 0
def vInvalidation : Nat := 1
def vCoherence : Nat := 2
def vCommand : Nat := 3

/-- VERDICT leaves on the edge port to the end-point before the port is fenced (23 R547): ahead of the queues, which the fence discards
(DEDUCED, log 130). -/
def State.verdictOut (s : State) (p h : Nat) (data : List Byte) : State :=
  if (s.sw.getLink p).state = .active then
    (s.count (blkPort p) cFramesTx).emit (.frame .sw p { mgmtFrame h s.sw.sys.homeId (s.sw.incFor h) mVerdict 0 data with age := ageStamp (s.now .sw) 0 })
  else s

/-- The one step of R547. came: the port of the VERDICT received, none where this switch gives it. A record that has moved on has had its verdict. -/
def State.applyVerdict (s : State) (h old cause : Nat) (came : Option Nat) : State :=
  if (s.sw.epRec h).inc ≠ old then s
  else
    let new := (old + 1) % 16
    let s := s.onEpRec h fun r => { r with inc := new, verdict := true, misses := 0, suspects := [], acked := true, beat := [], readmitting := false }
    let data := leBytes 2 h ++ leBytes 1 old ++ leBytes 1 new ++ leBytes 1 cause
    let here := isEpId h && epRack h == s.sw.sys.rack
    let s := s.floodPast .sw (came.toList ++ if here then [epSlot h] else []) mVerdict data
    let s := s.loseTarget h
    let s := if here && (s.sw.getLink (epSlot h)).state != .fenced then (s.verdictOut (epSlot h) h data).fencePort (epSlot h) 2 else s
    let s := s.loseHolder h
    let s := (s.loseMember h none).invalGone h
    s.record { kind := fVerdict, domain := 7, index := h }

/-- Fence an end-point at every switch by a verdict given here. A Teller-only restart gives none: one that falls due meanwhile is given when
the restart ends (01 R20, 23 R548). -/
def State.giveVerdict (s : State) (h cause : Nat) : State :=
  if (s.sw.epRec h).verdict then s
  else if s.sw.teller.state = 1 then s.onSw fun w => { w with teller := { w.teller with owedVerdicts := w.teller.owedVerdicts ++ [(h, cause)] } }
  else s.applyVerdict h (s.sw.epRec h).inc cause none

/-- Whether this switch gives the verdict on an end-point (23 R546). -/
def Switch.judges (w : Switch) (h : Nat) : Bool :=
  let r := w.epRec h
  let planes := r.suspects.filter fun x => isSwitchId x && x / 8 == epRack h && x % 8 != w.sys.plane
  decide (w.sys.cfg.misses ≤ r.misses) && !r.verdict
    && (decide (4 ≤ planes.length) || (w.activeEdges.all fun p => w.peer p == h))

/-- Give the verdict where it is due; a Teller-only restart gives none (23 R548). -/
def State.judge (s : State) (h : Nat) : State :=
  if s.sw.judges h && s.sw.teller.state != 1 then s.giveVerdict h vDetector else s

/-- Count a miss for an end-point (23 R545, R546). -/
def State.miss (s : State) (h : Nat) : State :=
  let s := s.onEpRec h fun r => { r with misses := r.misses + 1 }
  if (s.sw.epRec h).misses < s.sw.sys.cfg.misses then s
  else
    (s.sendOn .sw none mSuspect (leBytes 2 h ++ leBytes 1 (s.sw.epRec h).inc ++ leBytes 2 s.sw.sys.homeId)).judge h

/-- One heartbeat instant (23 R545). A halted Teller sends none (16 R429). -/
def State.heartbeatInstant (s : State) : State :=
  if s.sw.teller.state ≠ 0 then s
  else
    let beat := instantBytes (s.now .sw)
    s.each (ports64.filter fun p => isEdge s.sw.sys p) fun s p =>
      let h := s.sw.peer p
      let r := s.sw.epRec h
      let l := s.sw.getLink p
      if r.verdict ∨ r.readmitting ∨ ¬r.admitted then s
      else if l.state = .nap ∨ l.state = .rest then s
      else
        let s := if l.state ≠ .active ∨ (¬r.acked ∧ ¬r.beat.isEmpty) then s.miss h else s
        if (s.sw.getLink p).state = .active then
          (s.onEpRec h fun r => { r with acked := false, beat := beat }).mgmtOut .sw p mHeartbeat 0 beat
        else s.onEpRec h fun r => { r with beat := [] }

/-- HEARTBEAT_ACK: any answer sets the count to 0. -/
def State.heartbeatAck (s : State) (h : Nat) (data : List Byte) : State :=
  s.onEpRec h fun r => { r with misses := 0, acked := r.acked || padTo 10 data == r.beat }

/-- A SUSPECT received is held for its incarnation. -/
def State.suspectSwitch (s : State) (h inc sender : Nat) : State :=
  if (s.sw.epRec h).inc ≠ inc then s
  else (s.onEpRec h fun r => { r with suspects := sender :: r.suspects.filter (· != sender) }).judge h

/-- VERDICT at a switch: applied at once, or when a Teller-only restart ends. -/
def State.verdictSwitch (s : State) (came : Nat) (f : Frame) : State :=
  if s.sw.teller.state = 1 then s.onSw fun w => { w with teller := { w.teller with heldVerdicts := w.teller.heldVerdicts ++ [f] } }
  else s.applyVerdict (field f.data 0 2) (field f.data 2 1) (field f.data 4 1) (some came)

/-! ### Agent fences (23 R552) -/

/-- Fence an agent of an end-point at this switch. -/
def State.fenceAgent (s : State) (h a : Nat) : State :=
  if s.sw.vault.fencedAgents.contains (h * 64 + a) then s
  else
    let s := s.onSw fun w => { w with vault := { w.vault with fencedAgents := (h * 64 + a) :: w.vault.fencedAgents } }
    let s := s.record { kind := fAgentFenced, domain := 6, index := h, detail := leBytes 1 a }
    let s := s.loseMember h (some a)
    if epRack h = s.sw.sys.rack ∧ isEpId h then s.mgmtOut .sw (epSlot h) mFenceNotice 0 (leBytes 1 5 ++ leBytes 1 a ++ leBytes 1 0xFF ++ leBytes 1 0) else s

/-- Clear an agent's fence at this switch. -/
def State.clearAgent (s : State) (h a : Nat) : State :=
  let s := s.onSw fun w => { w with vault := { w.vault with fencedAgents := w.vault.fencedAgents.filter (· != h * 64 + a) } }
  if epRack h = s.sw.sys.rack ∧ isEpId h then s.mgmtOut .sw (epSlot h) mFenceNotice 0 (leBytes 1 5 ++ leBytes 1 a ++ leBytes 1 0xFF ++ leBytes 1 1) else s

/-! ### Regions being emptied (05 R117, R120, R121) -/

def State.onRegion (s : State) (i : Nat) (g : Region → Region) : State :=
  s.onHome fun h => { h with region := h.region.upd i {} g }

/-- BACK_INV with REGION set, to an owner (05 R120, R128). -/
def State.sendRegionInv (s : State) (owner region : Nat) : State :=
  s.swSend (outUnit 0) { dest := owner, src := s.sw.sys.homeId, cls := 6, typ := ftBackInv, tag := region % 4096, inc := s.sw.incFor owner,
                         offset := region * 0x200000, opx := opxAt 1 36 }

/-- Begin to empty a region for a command, which ends with the new entry: an old owner is flushed, the entries of a COHERENT region are taken back. -/
def State.beginRegion (s : State) (i fn mb mode owner : Nat) (handover : Bool) : State :=
  let r := s.sw.mem.home.region.get i {}
  let flush := decide (r.mode = mOwned ∧ r.owner ≠ 0x3FF) && !r.lost && !(s.sw.epRec r.owner).verdict
    && (handover || decide (mode ≠ mOwned ∨ owner ≠ r.owner))
  let s := if handover then s.onRegion i fun r => { r with handover := true } else s
  let s := s.onHome fun h => { h with jobs := h.jobs ++ [{ region := i, fn := fn, mb := mb, awaitOwner := if flush then some r.owner else none,
                                                           mode := mode, newOwner := owner, handover := handover }] }
  (if flush then s.sendRegionInv r.owner i else s).takeBackDue

/-- Finish every region whose owner and holders have answered; a command whose regions are all done ends with OK. -/
def State.regionCheck (s : State) : State :=
  let s := s.takeBackDue
  let busy (s : State) (j : RegionJob) := j.awaitOwner.isSome || (!j.handover && j.mode != mCoherent && s.sw.regionInUse j.region)
  let ready := s.sw.mem.home.jobs.filter fun j => !busy s j
  let s := s.each ready fun s j =>
    let s := s.onHome fun h => { h with jobs := h.jobs.filter fun k => k.region != j.region }
    s.onRegion j.region fun r =>
      if j.lostNow then { r with handover := false } else if j.handover then { r with owner := j.newOwner, handover := false } else { r with mode := j.mode, owner := j.newOwner, handover := false }
  s.each ready fun s j =>
    if s.sw.mem.home.jobs.any fun k => k.fn == j.fn && k.mb == j.mb then s
    else match s.sw.activeOf j.fn j.mb with
      | some a => if a.work = .regionChange ∨ a.work = .handover then s.finishWork j.fn j.mb (if a.data.contains 1 then mbFenced else mbOk) [] else s
      | none => s

/-- REGION_DONE from an old owner (05 R120 step 4). -/
def State.regionDone (s : State) (owner region : Nat) : State :=
  (s.onHome fun h => { h with jobs := h.jobs.map fun j => if j.region == region && j.awaitOwner == some owner then { j with awaitOwner := none } else j }).regionCheck

/-- The old owner has not answered: it is fenced and the region is LOST; the command completes with FENCED. -/
def State.handoverLate (s : State) (region : Nat) : State :=
  match s.sw.mem.home.jobs.find? fun j => j.region == region && j.awaitOwner.isSome with
  | none => s
  | some j =>
    let s := s.onHome fun h => { h with jobs := h.jobs.map fun k => if k.region == region then { k with awaitOwner := none, lostNow := true } else k }
    let s := s.onActive j.fn j.mb fun a => { a with data := 1 :: a.data }
    let s := s.giveVerdict (j.awaitOwner.getD 0x3FF) vCoherence
    (s.onRegion region fun r => { r with lost := true, owner := 0x3FF, handover := false }).regionCheck

/-- Hand-overs and mode changes that wait for a fenced end-point go on: its regions are LOST already (05 R121, R138). -/
def State.regionGone (s : State) : State :=
  let hit (s : State) (j : RegionJob) := j.awaitOwner.any fun h => (s.sw.epRec h).verdict || (s.sw.mem.home.region.get j.region {}).lost
  let jobs := s.sw.mem.home.jobs.filter (hit s)
  let s := s.each jobs fun s j => s.onActive j.fn j.mb fun a => { a with data := 1 :: a.data }
  (s.onHome fun h => { h with jobs := h.jobs.map fun j => if jobs.contains j then { j with awaitOwner := none, lostNow := true } else j }).regionCheck

/-- An awaited coherence answer has not come within 1 ms (05 R127). -/
def State.coherenceLate (s : State) (line h : Nat) : State :=
  match s.sw.busy line with
  | none => s
  | some b =>
    let owed := b.await.any (fun a => a.1 == h) || (match b.stage with
      | .ack | .forward => b.f.src == h && !b.acked
      | .fill n => n == h
      | _ => false)
    if owed then (s.giveVerdict h vCoherence).regionGone else s

end Sys2Proof.Machine
end

