-- ==== Sys2Proof/Machine/Answers.lean ====
section
/-!
DEFINITION. The meanings of responses (03 R60, R72, R73) and of the coherence frames (05 R123 to R138).
-/

namespace Sys2Proof.Machine

/-- A response reaches its requester on the port of its request. -/
def State.responseAt (s : State) (d : Dev) (port : Nat) (f : Frame) : State :=
  match d with
  | .sw => s.switchResponse port f
  | .ep => s.epIn port f fun s => s.epResponse port f

/-- READ_RSP answers a READ, READ_VOL, READ_SHARED or READ_OWN. -/
def execReadRsp (d : Dev) (port : Nat) (f : Frame) (s : State) : Host.Outcome State Fault Refusal := .next (s.responseAt d port { f with typ := ftReadRsp })

/-- WRITE_RSP answers a WRITE, WRITE_LOG, DEPOSIT or CLAIM. -/
def execWriteRsp (d : Dev) (port : Nat) (f : Frame) (s : State) : Host.Outcome State Fault Refusal := .next (s.responseAt d port { f with typ := ftWriteRsp })

/-- ATOMIC_RSP answers an ATOMIC. -/
def execAtomicRsp (d : Dev) (port : Nat) (f : Frame) (s : State) : Host.Outcome State Fault Refusal := .next (s.responseAt d port { f with typ := ftAtomicRsp })

/-- SNOOP at a holder (05 R126, R127, R129). -/
def execSnoop (port : Nat) (f : Frame) (s : State) : Host.Outcome State Fault Refusal :=
  .next (s.epIn port f fun s => s.snoopArrives port { f with typ := ftSnoop })

/-- SNOOP_RSP at the home: a holder's answer, or REGION_DONE (05 R120, R128, R131). -/
def State.snoopRspAt (s : State) (d : Dev) (port : Nat) (f : Frame) : State :=
  let done := f.opxBits 38 36 = 6
  match d with
  | .sw => if done then (s.takeInbox (internalOut f) f).regionDone f.src (f.offset / 0x200000) else ((s.takeInbox (internalOut f) f).homeSnoopRsp f).regionCheck
  | .ep => s.epIn port f fun s => if done then s.epRegionDone f.src (f.offset / 0x200000) else s

def execSnoopRsp (d : Dev) (port : Nat) (f : Frame) (s : State) : Host.Outcome State Fault Refusal := .next (s.snoopRspAt d port f)

/-- FWD_DATA: at the home, the line that a holder gives up; at a requester, its line (05 R129, R130). -/
def State.fwdDataAt (s : State) (d : Dev) (port : Nat) (f : Frame) : State :=
  match d with
  | .sw => ((s.takeInbox (internalOut f) f).homeFwdData f).regionCheck
  | .ep => s.epIn port f fun s => s.epResponse port f

def execFwdData (d : Dev) (port : Nat) (f : Frame) (s : State) : Host.Outcome State Fault Refusal := .next (s.fwdDataAt d port f)

/-- WRITEBACK at the home (05 R133). -/
def execWriteback (_port : Nat) (f : Frame) (s : State) : Host.Outcome State Fault Refusal :=
  .next (((s.takeInbox (internalOut f) f).homeWriteback f).regionCheck)

/-- COH_ACK: the requester has what it was granted, or a deposit's fill is answered (05 R124, R130, R135). -/
def State.cohAckAt (s : State) (d : Dev) (port : Nat) (f : Frame) : State :=
  match d with
  | .sw => ((s.takeInbox (internalOut f) f).homeCohAck f).regionCheck
  | .ep => s.epIn port f fun s => s.fillAcked f.src (f.offset / 128)

def execCohAck (d : Dev) (port : Nat) (f : Frame) (s : State) : Host.Outcome State Fault Refusal := .next (s.cohAckAt d port f)

/-- BACK_INV: one line, or the whole region, which the owner flushes (05 R120, R128, R137). -/
def execBackInv (port : Nat) (f : Frame) (s : State) : Host.Outcome State Fault Refusal :=
  .next (s.epIn port f fun s => if f.opxBits 36 36 = 1 then s.epRegionInv port f else s.snoopArrives port { f with typ := ftBackInv })

/-- DEPOSIT_FILL: installed or declined (05 R136). -/
def execDepositFill (port : Nat) (f : Frame) (s : State) : Host.Outcome State Fault Refusal := .next (s.epIn port f fun s => s.depositFill port f)

/-- The hold of a line ends: the SNOOPs and BACK_INVs held for it are honoured (05 R126). -/
def execHoldEnd (fga : Nat) (s : State) : Host.Outcome State Fault Refusal :=
  .next (s.epEv fun s => s.holdEnd (lineOf fga))

/-- An answer that a home awaits from an end-point about a line is 1 ms late (05 R127): the end-point is fenced. -/
def execCoherenceAnswerTimeout (d : Dev) (line endpoint : Nat) (s : State) : Host.Outcome State Fault Refusal :=
  .next (match d with
    | .sw => s.coherenceLate line endpoint
    | .ep => s.epEv fun s => s.epFillLate endpoint line)

/-- The old owner of a region has not answered 1 ms after BACK_INV (05 R121). -/
def execHandoverTimeout (d : Dev) (region : Nat) (s : State) : Host.Outcome State Fault Refusal :=
  .next (match d with
    | .sw => s.handoverLate region
    | .ep => s.epEv fun s => s.epHandoverLate region)

/-- INPUT_ACK at an end-point home: the logged write goes on, or ends with its status (22 R529). -/
def execInputAck (port : Nat) (f : Frame) (s : State) : Host.Outcome State Fault Refusal := .next (s.epIn port f fun s => s.inputAcked port f)

/-- No INPUT_ACK within 100 µs: FENCED, counted in EP_INPUT_UNACKED (22 R529). -/
def execInputAckTimeout (port tag : Nat) (s : State) : Host.Outcome State Fault Refusal := .next (s.epEv fun s => s.inputUnacked port tag)

end Sys2Proof.Machine
end

