-- ==== Sys2Proof/Machine/Power.lean ====
section
/-!
DEFINITION. Power domains, their votes and wakes (20 R485 to R492), pace regulation and the brake (20 R493 to R497), and the thermal
trip (20 R498).
-/

namespace Sys2Proof.Machine

/-! ### Domains and votes -/

def Switch.domain (w : Switch) (kind index : Nat) : Domain := w.power.dom.get (kind * 64 + index) {}

def State.onPower (s : State) (g : Power → Power) : State := s.onSw fun w => { w with power := g w.power }

def State.onDomain (s : State) (kind index : Nat) (g : Domain → Domain) : State :=
  s.onPower fun x => { x with dom := x.dom.put (kind * 64 + index) (g (s.sw.domain kind index)) }

/-- Number of domains of a kind, and the deepest state it allows (20 R485). -/
def domainCount (kind : Nat) : Nat := [64, 48, 24, 6, 16, 1].getD kind 0
def deepestOf (kind : Nat) : Nat := if kind ≤ 3 then 3 else 2

/-- The numbers of the states. -/
def pwRun : Nat := 0
def pwStill : Nat := 1
def pwNap : Nat := 2
def pwRest : Nat := 3

/-- The partitions that use a domain (20 R488). A port's are those that have voted for it (DESIGN CHOICE, log 26). -/
def Switch.domainUsers (w : Switch) (kind index : Nat) : List Nat :=
  if kind = 1 then [w.engineOwner index].filter tenants.contains
  else if kind = 3 then ((List.range 8).map fun i => w.engineOwner (8 * index + i)).filter tenants.contains
  else if kind = 0 then ((w.domain kind index).votes.map Prod.fst).filter tenants.contains
  else []

/-- The running book opens a scheduled class at a port in some cycle. -/
def State.scheduledAt (s : State) (d : Dev) (p : Nat) : Bool :=
  (s.getSched d).active.isSome && (s.gateList d p).any fun e => bit e.1 1 || bit e.1 2 || bit e.1 5

/-- A memory channel may lose its contents (20 R487). -/
def Switch.channelFree (w : Switch) (c : Nat) : Bool :=
  let inGroup (off : Nat) := decide (off / 0x3C00000000 = c / 4)
  (w.sys.cfg.poolOwner.all fun g => !inGroup (g.1 * 0x40000000) || g.2 == 0xFF)
    && (w.ledger.all fun l => l.2.region.all fun r => !inGroup r.1)
    && (w.mem.pair.all fun p => !inGroup (p.1 * 0x40000000))

/-- The state that the votes of a domain allow, its link partner's apart. -/
def State.wish (s : State) (kind index : Nat) : Nat :=
  let d := s.sw.domain kind index
  let votes := (d.votes.get 0 0) :: (s.sw.domainUsers kind index).map fun p => d.votes.get p 0
  let low := votes.foldl min (deepestOf kind)
  let low := if kind = 0 ∧ s.scheduledAt .sw index then min low pwStill else low
  if kind = 2 ∧ low = pwRest ∧ !s.sw.channelFree index then pwNap else low

/-- The state that every vote of a domain allows. -/
def State.allowed (s : State) (kind index : Nat) : Nat :=
  if kind = 0 then min (s.wish kind index) (s.sw.getLink index).partnerVote else s.wish kind index

/-! ### Entry and exit -/

/-- Contents that a memory channel in REST loses (20 R486): its lines hold zero stored bytes. -/
def State.loseChannel (s : State) (c : Nat) : State :=
  s.onMem fun m => { m with
    home := { m.home with mem := m.home.mem.filter fun x => !(inPool x.1 1 && channelOf x.1 == c)
                          lines := m.home.lines.filter fun x => channelOf (x.1 * 128) != c }
    cache := m.cache.filter fun l => channelOf (l.line * 128) != c }

/-- What a bank group in REST loses: its scratch; its pool-cache lines are written back first. -/
def State.loseBank (s : State) (g : Nat) : State :=
  let steps := s.sw.cacheSteps
  let mine (l : Nat) := decide (steps.getD (l % steps.length) 192 / 32 = g)
  let s := s.onMem fun m => m.flushCache fun c => mine c.line
  let zero := ((List.range 32).map (32 * g + ·)).filter s.sw.stepIsScratch
  s.onHome fun h => zero.foldl Home.zeroStep h

/-- The exit from NAP or REST begins. -/
def State.beginExit (s : State) (kind index : Nat) : State :=
  let s := s.onDomain kind index fun d => { d with exiting := some 1, wake := false }
  if kind = 0 then s.emit (.chime .sw index) else s

/-- A domain enters a state: STILL at once, NAP and REST by an entry that is completed (20 R491). -/
def State.enter (s : State) (kind index st : Nat) : State :=
  let d := s.sw.domain kind index
  if d.fenced || d.entering.isSome || d.exiting.isSome || decide (st ≤ d.state) then s
  else if st = pwStill then s.onDomain kind index fun d => { d with state := pwStill }
  else s.onDomain kind index fun d => { d with entering := some st }

/-- A port asks its partner for a deepest state (23 R539). -/
def State.askPower (s : State) (d : Dev) (p st : Nat) : State :=
  (s.onLink d p fun l => { l with asked := some st }).mgmtOut d p mPowerReq 0 (leBytes 1 st)

/-- No work has come for the idle hold: the domain returns to the state its votes allow (20 R489). A port goes deeper than STILL by agreement. -/
def State.idleHold (s : State) (kind index : Nat) : State :=
  if kind = 0 then
    if (s.sw.getLink index).state ≠ .active then s
    else
      let s := s.enter 0 index (min pwStill (s.allowed 0 index))
      if s.wish 0 index ≥ pwNap then s.askPower .sw index (s.wish 0 index) else s
  else s.enter kind index (s.allowed kind index)

/-- A vote or a book has changed: a domain deeper than its votes allow leaves that state. -/
def State.revote (s : State) (kind index : Nat) : State :=
  let d := s.sw.domain kind index
  let a := s.allowed kind index
  if d.entering.isSome then (if decide (a < pwNap) then s.onDomain kind index fun d => { d with wake := true } else s)
  else if d.state ≤ a ∨ d.exiting.isSome ∨ d.fenced then s
  else if d.state = pwStill then s.onDomain kind index fun d => { d with state := pwRun }
  else s.beginExit kind index

def State.revoteAll (s : State) : State :=
  s.each s.sw.power.dom fun s d => s.revote (d.1 / 64) (d.1 % 64)

/-- POWER_REQ on a port of the switch: the partner's vote; the agreed state is answered and entered. -/
def State.powerReqSw (s : State) (p st : Nat) : State :=
  let s := s.onLink .sw p fun l => { l with partnerVote := st }
  let a := s.allowed 0 p
  let s := s.mgmtOut .sw p mPowerAck 0 (leBytes 1 a)
  if (s.sw.getLink p).state = .active then (s.enter 0 p a).revote 0 p else s

/-- POWER_ACK on a port of the switch: both ends enter the state agreed. -/
def State.powerAckSw (s : State) (p a : Nat) : State :=
  if (s.sw.getLink p).asked.isNone ∨ (s.sw.getLink p).state ≠ .active then s
  else
    let s := s.onLink .sw p fun l => { l with asked := none, partnerVote := a }
    s.enter 0 p (min a (s.wish 0 p))

/-- The deepest state an AKG-8 allows for its port: its Escapement's vote, and RUN while frames wait. -/
def State.epWish (s : State) (p : Nat) : Nat :=
  if (List.range 8).any fun c => !(s.ep.outq.get (p * 8 + c) []).isEmpty then pwRun
  else if s.scheduledAt .ep p then pwStill else pwRest

/-- An AKG-8 port takes a state agreed with its partner. It has no domain of R485: it is in the state at once. -/
def State.epPower (s : State) (p a : Nat) : State :=
  if a = pwNap then s.onLink .ep p fun l => { l.endTest with state := .nap, power := a }
  else if a = pwRest then
    (s.onLink .ep p fun l => { l.fresh with state := .rest, power := a, partner := l.partner }).onEp fun e => { e with spent := e.spent.filter fun x => x.1 / 16 != p }
  else s

def State.powerReqEp (s : State) (p st : Nat) : State :=
  let a := min st (s.epWish p)
  -- the acknowledgement leaves before the port enters the state
  let s := s.mgmtOut .ep p mPowerAck 0 (leBytes 1 a)
  (s.drainQueue p 0 (s.ep.outq.get (p * 8) []).length).epPower p a

/-- The entry to NAP or REST is complete: what the state loses is lost, and a wake that came meanwhile is taken (20 R486, R491). -/
def State.entryDone (s : State) (kind index : Nat) : State :=
  let d := s.sw.domain kind index
  match d.entering with
  | none => s
  | some st =>
    let s := s.onDomain kind index fun d => { d with state := st, entering := none }
    let s :=
      if kind = 0 then
        if st = pwNap then s.onPort index fun l => { l.endTest with state := .nap, power := st }
        else (s.onPort index fun l => { l.fresh with state := .rest, power := st, partner := l.partner }).onSw fun w =>
          { w with core := { w.core with spent := w.core.spent.filter fun e => e.1 / 16 != index } }
      else if st ≠ pwRest then s
      else if kind = 1 then s.onXlat fun x => { x with l1 := x.l1.del index }
      else if kind = 2 then s.loseChannel index
      else if kind = 3 then s.loseBank index
      else s
    let queued := kind == 0 && (queueKeys index).any fun k => !(s.sw.core.queue.get k []).isEmpty
    if d.wake || queued || decide (s.allowed kind index < pwNap) then s.beginExit kind index else s

/-- A stage of the exit is ready; after the fourth the domain runs (20 R492). -/
def State.stageReady (s : State) (kind index : Nat) : State :=
  let d := s.sw.domain kind index
  match d.exiting with
  | none => s
  | some n =>
    if n < 4 then s.onDomain kind index fun d => { d with exiting := some (n + 1) }
    else
      let s := s.onDomain kind index fun d => { d with state := pwRun, exiting := none }
      if kind = 0 then
        -- from REST the port trains again, by a fast resume where it can (20 R492, 14 R368)
        if (s.sw.getLink index).state = .nap then s.onPort index fun l => { l with state := .active, power := 0 }
        else if (s.sw.getLink index).state = .rest then (s.onPort index fun l => { l with state := .detect, power := 0, fast := l.stored.isSome, waking := true }).emit (.tickClock .sw index)
        else s
      else if kind = 1 then
        match (s.sw.getEngine index).task with
        | some (slot, t) => (s.resumeTask slot t).escrowSettle
        | none => s.escrowSettle
      else s

/-- A stage of the exit has not become ready in time: the domain is fenced (20 R492). -/
def State.stageLate (s : State) (kind index : Nat) : State :=
  if (s.sw.domain kind index).exiting.isNone then s
  else
    let s := s.onDomain kind index fun d => { d with exiting := none, fenced := true }
    let s := s.record { kind := fWakeFailed, domain := [1, 2, 4, 3, 8, 8].getD kind 8, index := if kind ≤ 3 then index else 0 }
    if kind = 0 then (s.fencePort index 2).regionGone.invalPoll
    else if kind = 1 then s.fenceEngine index
    else if kind = 2 then s.fenceChannel index
    else s

/-- A falling edge of WAKE_N: work for every domain in NAP or REST (20 R492); ignored while RST_N is low (25 R583). -/
def State.wakeAll (s : State) : State :=
  if !s.sw.sys.rstN then s
  else s.each (s.sw.power.dom.filter fun d => decide (2 ≤ d.2.state) || d.2.entering.isSome) fun s d => s.work (d.1 / 64) (d.1 % 64)

/-! ### Pace (20 R493 to R497) -/

/-- The mean of the power samples kept. -/
def Power.average (x : Power) : Nat := if x.samples.isEmpty then 0 else x.samples.foldl (· + ·) 0 / x.samples.length

/-- LIMIT as throttling lowers it, and the brake level while PWRBRK_N is asserted. -/
def Switch.limit (w : Switch) : Nat :=
  let l := w.sys.cfg.limit - 20 * w.power.throttle
  if w.sys.pwrbrk then min l w.sys.cfg.brake else l

/-- The core voltage moves to a value within 0.60 V to 0.90 V. -/
def State.setVoltage (s : State) (d : Dev) (mV : Nat) : State :=
  let v := max 600 (min 900 mV)
  match d with
  | .sw => if s.sw.power.mV = v then s else (s.onPower fun x => { x with mV := v }).emit (.voltage .sw v)
  | .ep => if s.ep.mV = v then s else (s.onEp fun e => { e with mV := v }).emit (.voltage .ep v)

/-- The lowest voltage at which P is at most 2.00, at least 0.60 V (20 R495). The curve is a free function (log 5). -/
def brakeFloor : Nat := (((List.range 301).map (600 + ·)).find? fun v => decide (Config.paceAt v ≤ 200)).getD 900

/-- The voltage is lowered in one step, without regard to P_ceil, by an amount the spec leaves to the part within the bound of 20 R495 (a free value,
log 5). -/
def State.lowerAtOnce (s : State) : State :=
  let (v, s) := s.free
  let floor := max 600 (min brakeFloor s.sw.power.mV)
  s.setVoltage .sw (floor + v % (s.sw.power.mV - floor + 1))

/-- The engine that the regulator holds next: idle ones first, highest number first (20 R494). None runs a COLLECTIVE task then: one ends in the step
that starts it. -/
def Switch.nextHeld (w : Switch) : Option Nat :=
  let free := (engines48.filter fun e => !(w.getEngine e).held && !(w.getEngine e).fenced).reverse
  match free.find? fun e => (w.getEngine e).task.isNone with
  | some e => some e
  | none => free.head?

/-- Hold one more engine in STILL. -/
def State.holdEngine (s : State) : State :=
  match s.sw.nextHeld with
  | none => s
  | some e =>
    let s := s.putEngine e { s.sw.getEngine e with held := true }
    (s.onPower fun x => { x with heldOrder := x.heldOrder ++ [e] }).count (blkEng e) 2

/-- Release the engine held last. -/
def State.releaseEngine (s : State) : State :=
  match s.sw.power.heldOrder.getLast? with
  | none => s
  | some e =>
    let s := s.putEngine e { s.sw.getEngine e with held := false }
    let s := s.onPower fun x => { x with heldOrder := x.heldOrder.dropLast }
    match (s.sw.getEngine e).task with
    | some (slot, t) => (s.resumeTask slot t).escrowSettle
    | none => s.escrowSettle

/-- The regulator's step every 100 µs (20 R493, R494, R497). -/
def State.regulate (s : State) (watts : Nat) : State :=
  let s := s.onPower fun x => { x with watts := watts, samples := (watts :: x.samples).take 1000 }
  let w := s.sw
  let lim := w.limit
  let x := w.power
  let s :=
    if watts ≥ lim then
      if w.sys.pwrbrk then s.holdEngine
      else if x.p < w.sys.cfg.ceil then s.setVoltage .sw (x.mV - 5)
      else if x.throttle > 0 ∧ brakeFloor < x.mV then s.lowerAtOnce
      else s.holdEngine
    else if w.sys.pwrbrk then s
    else if x.p > w.sys.cfg.target + 1 then s.setVoltage .sw (x.mV + 5)
    else if x.p + 1 < w.sys.cfg.target then s.setVoltage .sw (x.mV - 5)
    else s
  if watts + 20 < lim then
    let s := s.onPower fun x => { x with lowTicks := x.lowTicks + 1 }
    if s.sw.power.lowTicks ≥ 100 then s.releaseEngine else s
  else s.onPower fun x => { x with lowTicks := 0 }

/-- The regulator of an AKG-8 (24 R574): it regulates P to the P_ceil of its domain (12 R332), which is its target under 20 R493 (DEDUCED, log 123). -/
def State.epRegulate (s : State) (watts : Nat) : State :=
  let e := s.ep
  if watts ≥ e.powerLimit then (if e.p < e.ceil then s.setVoltage .ep (e.mV - 5) else s)
  else if e.p > e.ceil + 1 then s.setVoltage .ep (e.mV + 5)
  else if e.p + 1 < e.ceil then s.setVoltage .ep (e.mV - 5)
  else s

/-- P is taken as the largest of the readings (01 R18); passing 1.60 and P_ceil are noted (20 R496, 18 SW_EVENT). -/
def State.balance (s : State) (readings : List Nat) : State :=
  let p := readings.foldl max 0
  let was := s.sw.power.p
  let s := s.onPower fun x => { x with p := p, pMax := max x.pMax p, balance := readings }
  let s := if decide (s.sw.sys.cfg.ceil < p) && decide (was ≤ s.sw.sys.cfg.ceil) then s.setEvent evPower else s
  if p > 160 then
    if s.sw.power.paceOver then s
    else ((s.onPower fun x => { x with paceOver := true }).record { kind := fPaceOver, domain := 8 }).setEvent evPower
  else s.onPower fun x => { x with paceOver := false }

/-- The P that SLOW of this switch follows: its own, and that of the end-point at the other end of a plane-0 port (11 R306, 12 R332). -/
def State.slowPace (s : State) : Nat :=
  if s.sw.sys.plane = 0 ∧ isEpId s.ep.homeId ∧ epRack s.ep.homeId = s.sw.sys.rack then max s.sw.power.p s.ep.p else s.sw.power.p

/-- It is above P_ceil. -/
def State.slowNow (s : State) : Bool := decide (s.sw.sys.cfg.ceil < s.slowPace)

/-- SLOW is set and reported. -/
def State.setSlow (s : State) (v : Bool) : State :=
  if s.sw.sched.slow = v then s else (s.onSched .sw fun x => { x with slow := v }).reportNeeds

/-- The module brakes: power above the brake level is lowered at once (20 R495). -/
def State.brakeNow (s : State) : State :=
  let s := s.setEvent evPower
  if s.sw.power.watts ≤ s.sw.sys.cfg.brake then s else s.lowerAtOnce

/-- Whether PWRBRK_N is honoured: during a start from step 7 on, at any other time always (25 R583). -/
def Phase.brakes : Phase → Bool
  | .starting _ n => decide (7 ≤ n)
  | _ => true

/-- PWRBRK_N falls (20 R495, 25 R583). -/
def State.brake (s : State) : State :=
  if s.sw.sys.pwrbrk then s
  else
    let s := s.onSw fun w => { w with sys := { w.sys with pwrbrk := true } }
    if s.sw.sys.phase.brakes then s.brakeNow else s

def State.unbrake (s : State) : State := s.onSw fun w => { w with sys := { w.sys with pwrbrk := false } }

/-- A junction reads 95 °C or more (20 R497). -/
def State.throttleAt (s : State) (degrees : Nat) : State :=
  if degrees < 95 then s
  else
    let fresh := s.sw.power.throttle == 0
    let s := s.onPower fun x => { x with throttle := degrees - 94 }
    if fresh then (s.record { kind := fThrottle, domain := 8 }).setEvent evPower else s

/-! ### Thermal trip (20 R498) -/

/-- The Ledger of every partition writes its staging to its region and is sealed. -/
def State.sealAll (s : State) : State :=
  s.each (s.sw.ledger.map Prod.fst) fun s p =>
    ((s.flushLedger p).ledgerSeal p).flushLedger p

/-- The channels go into self-refresh (06 R155, 19 R480). -/
def State.selfRefresh (s : State) : State :=
  s.each (List.range 24) fun s c => s.onDomain 2 c fun d => { d with state := pwNap, entering := none, exiting := none }

/-- 110 °C: THERMTRIP_N, the Ledger, and every domain but PCIe and the channels in REST; the channels in self-refresh. -/
def State.trip (s : State) : State :=
  if s.sw.sys.phase = .tripHold ∨ s.sw.sys.phase = .off then s
  else
    let s := (s.onSw fun w => { w with sys := { w.sys with thermTrip := true, phase := .tripHold } }).emit (.pin .thermTripN false)
    let s := (s.record { kind := fThermalTrip, domain := 8 }).sealAll
    let s := s.each ports64 fun s p => if (s.sw.getLink p).state = .down then s else s.leavePort p .rest 0
    let s := s.each [(1, 48), (3, 6), (4, 16)] fun s k => s.each (List.range k.2) fun s i =>
      let s := if k.1 = 1 then s.onXlat fun x => { x with l1 := x.l1.del i } else if k.1 = 3 then s.loseBank i else s
      s.onDomain k.1 i fun d => { d with state := min pwRest (deepestOf k.1), entering := none, exiting := none }
    let s := s.each ports64 fun s p => s.onDomain 0 p fun d => { d with state := pwRest, entering := none, exiting := none }
    s.selfRefresh.refreshAlert

/-- The regulators turn off: 60 s or 115 °C after a trip, or an input out of range. -/
def State.turnOff (s : State) : State :=
  let s := if s.sw.sys.thermTrip then (s.onSw fun w => { w with sys := { w.sys with thermTrip := false } }).emit (.pin .thermTripN true) else s
  (s.onSw fun w => { w with sys := { w.sys with phase := .off, hostLink := false } }).refreshAlert

end Sys2Proof.Machine
end

