-- ==== Sys2Proof/Machine/Movement.lean ====
section
/-!
DEFINITION. The switch core: arrival, policing and the queue decision (03 R58 to R71, 11 R317 R318, 13 R339 R354), the matcher (13 R340 to
R346), buckets (11 R314 to R319), queue samples (11 R320, 03 R78), gate steps and cycle boundaries (11 R294 to R309).
-/

namespace Sys2Proof.Machine

def State.onCore (s : State) (g : Core → Core) : State := s.onSw fun w => { w with core := g w.core }

/-! ### Shapers and policers -/

/-- Keys of the class shaper and the partition shaper of a port, and of a policer. -/
def classShaper (p cls : Nat) : Nat := p * 32 + cls
def partShaper (p n : Nat) : Nat := p * 32 + 16 + n
def policerKey (p cls : Nat) : Nat := p * 8 + cls

/-- Classes that are shaped and policed (11 R314, R317). -/
def shapedClass (cls : Nat) : Bool := [0, 3, 4, 6, 7].contains cls

/-- The counted length of a frame in 1/256 byte (11 R315). -/
def counted (f : Frame) (overhead : Nat) : Nat := (f.bytes + overhead) * 256

/-- The shapers that count a frame leaving port p (11 R314). -/
def shapersOf (p : Nat) (f : Frame) : List Nat :=
  (if shapedClass f.cls then [classShaper p f.cls] else []) ++ (if [3, 4, 6].contains f.cls then [partShaper p f.partition] else [])

/-- Every enabled shaper that counts the frame holds its counted length. -/
def Switch.shaped (w : Switch) (p : Nat) (f : Frame) : Bool :=
  (shapersOf p f).all fun k =>
    let b : Bucket := w.core.shaper.get k {}
    !b.enable || decide (counted f b.overhead ≤ b.tokens)

/-- The frame's length is taken from each enabled shaper that counts it. -/
def State.spendTokens (s : State) (p : Nat) (f : Frame) : State :=
  s.each (shapersOf p f) fun s k => s.onCore fun c =>
    let b : Bucket := c.shaper.get k {}
    if b.enable then { c with shaper := c.shaper.put k { b with tokens := b.tokens - counted f b.overhead } } else c

/-- Colours: 0 green, 1 yellow, 2 red. -/
def green : Nat := 0
def yellow : Nat := 1
def red : Nat := 2

/-- Frames of the failure detector are green to every policer and never dropped early (23 R540). -/
def isDetector (f : Frame) : Bool := f.typ == ftMgmt && [mHeartbeat, mHeartbeatAck, mSuspect, mVerdict].contains f.msub

/-- A policer marks a frame (11 R317). -/
def Policer.mark (x : Policer) (f : Frame) : Nat × Policer :=
  let b := counted f x.overhead
  if !x.enable || isDetector f then (green, x)
  else if x.tp < b then (red, x)
  else if x.tc < b then (yellow, { x with tp := x.tp - b })
  else (green, { x with tp := x.tp - b, tc := x.tc - b })

/-- Mark a frame that stands at the head of its ingress virtual channel. -/
def State.markFrame (s : State) (p : Nat) (f : Frame) : Nat × State :=
  if !shapedClass f.cls then (green, s)
  else
    let (c, x) := (s.sw.core.policer.get (policerKey p f.cls) {}).mark f
    (c, (s.onCore fun k => { k with policer := k.policer.put (policerKey p f.cls) x }).count (blkPort p) (cPolicer f.cls c))

/-! ### The queue decision (13 R339) -/

/-- Frame types that a class may carry (03 R61, R62). -/
def typeAllowed (cls typ : Nat) : Bool :=
  match cls with
  | 0 => typ == ftMgmt
  | 1 => isMemReq typ
  | 2 => [ftReadRsp, ftWriteRsp, ftAtomicRsp].contains typ
  | 3 => isMemReq typ || typ == ftTranslateReq || typ == ftSegInvAck
  | 4 => [ftReadRsp, ftWriteRsp, ftAtomicRsp, ftTranslateRsp, ftSegInv].contains typ
  | 5 => [ftCollData, ftCollResult, ftCollConfirm, ftCollRecall, ftCollAbort].contains typ
  | 6 => [ftSnoop, ftSnoopRsp, ftFwdData, ftWriteback, ftCohAck, ftBackInv, ftDepositFill].contains typ
  | 7 => typ == ftLedger
  | _ => false

/-- The end-point whose incarnation a frame carries into a switch (03 R58): its source, whatever it sends, else its destination. -/
def concerned (f : Frame) : Option Nat :=
  if isEpId f.src then some f.src
  else if isEpId f.dest then some f.dest
  else none

/-- INCARNATION does not match the record of the end-point concerned. -/
def Switch.stale (w : Switch) (f : Frame) : Bool := (concerned f).any fun h => (w.epRec h).inc != f.inc

/-- A MGMT frame for this switch with a reserved subtype, which its receiver discards (23 R539). -/
def Switch.badSubtype (w : Switch) (f : Frame) : Bool :=
  f.typ == ftMgmt && f.dest == w.sys.homeId && (f.msub == 0 || decide (mSlotOpen < f.msub))

/-- A request fenced at the queue decision: its partition's, its agent's, or by the mask of an edge input (11 R313, 21 R514, 23 R552). -/
def Switch.fencedAt (w : Switch) (p : Nat) (f : Frame) : Bool :=
  isRequest f.typ && ((decide (1 ≤ f.partition) && (w.getPart f.partition).state == .fenced) || w.vault.fencedAgents.contains (f.src * 64 + f.agent) && decide (p < 64))

def Switch.masked (w : Switch) (p : Nat) (f : Frame) : Bool :=
  isEdge w.sys p && (f.cls == 1 || f.cls == 5)
    && !bit ((w.sched.active.map fun k => k.masks.get p 0).getD 0) f.partition

/-- Cells of the TC0 frames among buffered frames. -/
def tc0Cells (t : Tab (List Buffered)) : Nat := t.foldl (fun n q => q.2.foldl (fun n b => if b.f.cls = 0 then n + b.cells else n) n) 0

/-- Early drop in TC0 (13 R354), against the register SW_TC0_DROP: by the cells of its output's TC0 queue, and of every TC0 frame in the switch. -/
def Switch.dropsEarly (w : Switch) (key colour : Nat) (f : Frame) : Bool :=
  let r := w.host.tc0Drop.toNat
  let y := 16 * bits r 10 10
  let rd := min (16 * bits r 0 10) y
  let cap := 64 * max 1 (bits r 20 10)
  let here := tc0Cells (w.core.queue.filter fun q => q.1 == key)
  f.cls == 0 && !isDetector f
    && ((colour == red && decide (rd ≤ here)) || (colour == yellow && decide (y ≤ here)) || decide (cap ≤ tc0Cells w.core.buffered))

/-- A response of the end-point ends the wait of the request it answers (23 R542). -/
def State.answered (s : State) (p : Nat) (f : Frame) : State :=
  if !(isResponse f.typ) then s
  else match s.sw.core.awaiting.find? fun a => a.1 == p && a.2.tag == f.tag && a.2.src == f.dest with
    | some a => s.onCore fun c => { c with awaiting := c.awaiting.erase a }
    | none => s

/-- A port in service: ACTIVE, in a power state from which it wakes, or waking from one. -/
def Switch.inService (w : Switch) (p : Nat) : Bool := (w.getLink p).carries

/-- Output `out` takes the frame: the port is in service, and ACTIVE where it is to deliver SEG_INV to its end-point (02 R49). -/
def Switch.outTakes (w : Switch) (out : Nat) (f : Frame) : Bool :=
  if f.typ == ftSegInv && isEdge w.sys out then (w.getLink out).state == .active else w.inService out

/-- The queue decision for a frame that arrived on port p. It does not wait for the tail (13 R338, R339). -/
def State.queueDecision (s : State) (p : Nat) (b : Buffered) : State :=
  let f := b.f
  -- the credits of a TC0 frame return here, whether it is dropped or queued (13 R354)
  let s := if f.cls = 0 then s.returnCredit p b.vc (b.cells - b.paid) else s
  let w := s.sw
  if !typeAllowed f.cls f.typ || w.badSubtype f then (s.count (blkPort p) cBadType).freeCells b
  else if !f.sparseOk then (s.count (blkPort p) cBadSparse).answerIn b stBadAddress
  else
    let mine := f.dest == w.sys.homeId
    match (if mine then some 64 else w.route f.dest) with
    | none => (s.count (blkPort p) cNoRoute).answerIn b stBadAddress
    | some out =>
      if w.stale f then (s.count (blkPort p) cStale).freeCells b
      -- the Tally names no counter for the mask of R313: FENCED_REFUSED, as for other refusals with FENCED (DESIGN CHOICE, log 118)
      else if w.masked p f then (s.count (blkPart f.partition) 4).answerIn b stFenced
      else if w.fencedAt p f then (s.count (blkPart f.partition) 4).answerIn b stFenced
      else
        let s := if b.whole then s.answered p f else s
        -- R507: a frame for this switch is refused when its slot retires, whatever the wait before its Clearing unit
        let key := if mine then qKey (w.homeOut f) f.cls else qKey out (w.vcOf out f.cls (w.cameAfter p f.src))
        if w.dropsEarly key b.red f then (s.count (blkPort p) (cTc0Drop b.red)).freeCells b
        else if mine || w.outTakes out f then s.join key b
        else (s.noteDiscard out).discardIn b (w.discardStatus out f)

/-- A frame's header arrives on a port of the switch, whole where its tail is here too: its cells are placed (13 R352), it is policed at the head of its
virtual channel, then decided (13 R339, 11 R318). A red frame of another class than TC0 stays at the head, and what follows on its channel stays behind it. -/
def State.frameEnters (s : State) (p : Nat) (f : Frame) (whole : Bool) (mark : Nat) : State :=
  if (s.sw.getLink p).state ≠ .active then s
  else
    let s := (s.count (blkPort p) cFramesRx).work 0 p
    let vc := s.sw.vcIn p f
    let key := p * 16 + vc
    let (b, s) := s.placeFrame p vc f whole mark
    let b := { b with paid := if whole then 0 else (s.sw.getLink p).rx.paid.get mark 0 }
    let back (s : State) : State := if f.cls = 0 then s else s.returnCredit p vc (b.sched + b.shared - b.paid)
    let hold (s : State) : State := s.onCore fun c => { c with held := c.held.put key (c.held.get key [] ++ [b]) }
    if !(s.sw.core.held.get key []).isEmpty then back (hold s)
    else
      let (c, s) := s.markFrame p f
      if c = red ∧ f.cls ≠ 0 then back (hold s) else (back s).queueDecision p { b with red := c }

/-- A frame arrives whole. -/
def State.frameArrival (s : State) (p : Nat) (f : Frame) : State := s.frameEnters p f true 0

/-- The tail of a frame that port p had been taking in, and the last of its seal groups verified: the frame is whole where it stands, and an output that has
begun it sends the rest (13 R346, R347). A response built in its cells has no rest. -/
def State.tailArrives (s : State) (p mark : Nat) (f : Frame) : State :=
  let mine (b : Buffered) : Bool := b.src == p && !b.whole && b.mark == mark
  let done (b : Buffered) : Buffered := { b with f := if b.f.src = f.src then { b.f with data := f.data } else b.f, whole := true }
  let fill (t : Tab (List Buffered)) : Tab (List Buffered) := t.mapVals fun _ l => l.map fun b => if mine b then done b else b
  let here := s.sw.core.buffered.any fun e => e.2.any fun b => mine b && b.f.src == f.src
  let outs := s.sw.core.cut.filter fun e => mine e.2.b
  let s := if here then s.answered p f else s
  let s := s.onCore fun c => { c with queue := fill c.queue, inbox := fill c.inbox, held := fill c.held }
  let s := s.each outs fun s e =>
    let s := s.endCut e.1
    s.emit (.frame .sw e.1 (if e.2.f.src = f.src then { e.2.f with data := f.data } else e.2.f))
  s.onCore Core.unlock

/-! ### Buckets (11 R315 to R319) -/

/-- An ACTIVATION entry for an ARMED setting that takes effect (16 R432, 22 R526). -/
def State.activation (s : State) (ledger seq opcode : Nat) (d : Digest) : State :=
  s.ledgerAdd ledger (s.mkEntry 0x03 0 s.sw.sys.homeId (leBytes 8 seq ++ leBytes 2 opcode ++ leBytes 6 0 ++ digestBytes d))

def Bucket.full (b : Bucket) : Bucket := { b with tokens := b.burst * 256 }
def Policer.full (x : Policer) : Policer := { x with tc := x.cbs * 256, tp := x.pbs * 256 }

/-- Frames held red are marked again until one stays red. -/
def State.releaseRed (s : State) (key : Nat) : (fuel : Nat) → State
  | 0 => s
  | n + 1 => match s.sw.core.held.get key [] with
    | [] => s
    | b :: rest =>
      let (c, s) := s.markFrame (key / 16) b.f
      if c = red then s
      else
        let s := (s.onCore fun k => { k with held := if rest.isEmpty then k.held.del key else k.held.put key rest }).settleOwed key
        (s.queueDecision (key / 16) { b with red := c }).releaseRed key n

/-- A staged setting that falls due at an instant gives way to a package that activates at it and whose command was taken later (16 R426). -/
def Sched.yields (x : Sched) (point : Nat) (c : StagedBy) : Bool := x.activated.any fun a => a.1 == point && decide (c.order < a.2)

/-- A refill: staged settings take effect, every bucket gains its rate up to its burst, and held red frames are marked again. -/
def State.bucketRefill (s : State) : State :=
  let point := s.now .sw / (256 * tFlit) * (256 * tFlit)
  let due (c : StagedBy) (s : State) (g : Core → Core) (opcode : Nat) : State :=
    (if s.sw.sched.yields point c then s else s.onCore g).activation c.ledger c.seq opcode 0
  let sh := s.sw.core.shaperStaged
  let po := s.sw.core.policerStaged
  let s := s.onCore fun c => { c with
    shaper := (c.shaper.mapVals fun _ b => { b with tokens := min (b.tokens + b.rate) (b.burst * 256) })
    policer := (c.policer.mapVals fun _ x => { x with tc := min (x.tc + x.cir) (x.cbs * 256), tp := min (x.tp + x.pir) (x.pbs * 256) })
    shaperStaged := [], policerStaged := [] }
  let s := s.each sh fun s e => due e.2.2 s (fun c => { c with shaper := c.shaper.put e.1 e.2.1.full, shaperSet := c.shaperSet.put e.1 (point, e.2.2.order) }) 0x0701
  let s := s.each po fun s e => due e.2.2 s (fun c => { c with policer := c.policer.put e.1 e.2.1.full, policerSet := c.policerSet.put e.1 (point, e.2.2.order) }) 0x0702
  s.each s.sw.core.held fun s h => s.releaseRed h.1 h.2.length

/-! ### The matcher (13 R340 to R346) -/

/-- Priority of a queue of output o: classes in the order of R342, the after-dateline queue before the other. -/
def classOrder : List Nat := [2, 5, 1, 6, 4, 7, 3, 0]

def queueOrder (y : Sys) (o : Nat) (tc0First : Bool) : List Nat :=
  let cs := if tc0First then [2, 5, 1, 0, 6, 4, 7, 3] else classOrder
  if o ≥ 64 || isEdge y o then cs else cs.flatMap fun c => [2 * c + 1, 2 * c]

/-- The class of queue q of output o. -/
def queueClass (y : Sys) (o q : Nat) : Nat := if o ≥ 64 || isEdge y o then q else q / 2

/-- Cells of credit that a frame needs to leave (13 R351, R357): 10 where it enters a ring that has one channel left for its class. -/
def Switch.creditNeed (w : Switch) (o q : Nat) (b : Buffered) : Nat :=
  let c := b.f.cls
  if isEdge w.sys o || (b.src < 64 && !isEdge w.sys b.src && b.f.src != w.sys.homeId) then b.cells
  else if w.vcIsOut o (2 * c) || w.vcIsOut o (2 * c + 1) then (if w.vcIsOut o q then b.cells else 10) else b.cells

/-- A queue is eligible at an output (13 R340), its shapers apart. -/
def State.mayLeave (s : State) (o q : Nat) (b : Buffered) : Bool :=
  if o ≥ 64 then true
  else
    let w := s.sw
    (w.getLink o).state == .active && (w.getLink o).window && decide ((w.getLink o).tx.slots.length < 15) && w.awake 0 o
      -- R346: input at half width, output at full width
      && (b.whole || (w.getLink b.src).width == 0 || (w.getLink o).width != 0)
      && s.gateOpen .sw o b.f.cls (gateNeed b.f.slots)
      && decide (w.core.spent.get (o * 16 + q) 0 + w.creditNeed o q b ≤ 256)

def State.eligible (s : State) (o q : Nat) (b : Buffered) : Bool := s.mayLeave o q b && (o ≥ 64 || s.sw.shaped o b.f)

/-- TC0 comes first among the unscheduled classes: none was sent in the last 64 flit times (13 R342). -/
def State.tc0First (s : State) (o : Nat) : Bool := decide (s.sw.core.lastTc0.get o 0 + 64 < flitCount (s.now .sw))

/-- The queue that an output would grant among heads lying in the tiles given. -/
def State.grantQueue (s : State) (o : Nat) (tiles : List Nat) : Option (Nat × Buffered) :=
  ((queueOrder s.sw.sys o (s.tc0First o)).filterMap fun q => (s.sw.core.queue.get (qKey o q) []).head?.map fun b => (q, b)).find? fun x =>
    tiles.contains x.2.tile && s.eligible o x.1 x.2

/-- What an output asks for in a round: its locked tile, or the tile of the queue it grants; none: nothing. -/
inductive Ask where
  | locked (tile : Nat)
  | header (q : Nat) (b : Buffered)
  deriving DecidableEq

def Ask.tile : Ask → Nat
  | .locked t => t
  | .header _ b => b.tile

/-- The outputs of the matcher: 64 ports and 23 internal ones. -/
def outputs : List Nat := List.range 87

/-- One round: unmatched outputs grant among the tiles that can still accept; each tile accepts up to 8 in all, locked outputs first, then from its
pointer. -/
def State.matchRound (s : State) (done : List (Nat × Ask)) : List (Nat × Ask) :=
  let room (t : Nat) := 8 - (done.filter fun d => d.2.tile == t).length
  let tiles := (List.range 16).filter fun t => decide (0 < room t)
  let asks := (outputs.filter fun o => done.all fun d => d.1 != o).filterMap fun o =>
    match s.sw.core.lock.find o with
    | some x => if tiles.contains x.tile then some (o, Ask.locked x.tile) else none
    | none => (s.grantQueue o tiles).map fun x => (o, Ask.header x.1 x.2)
  let isLock (a : Ask) := match a with | .locked _ => true | .header _ _ => false
  tiles.foldl (fun acc t =>
    let mine := asks.filter fun a => a.2.tile == t
    let ptr := s.sw.core.acceptPtr.get t 0
    let rest := mine.filter fun a => !isLock a.2
    let order := mine.filter (fun a => isLock a.2) ++ rest.filter (fun a => decide (ptr ≤ a.1)) ++ rest.filter fun a => decide (a.1 < ptr)
    acc ++ order.take (room t)) done

/-- Discard an aged frame whose header has won (13 R344). -/
def State.discardAged (s : State) (o : Nat) (b : Buffered) : State := (if b.f.cls = 0 then s.count (blkPort o) cTc0Aged else s).answerIn b stAged

/-- Flits that the slots of a frame take (11 R295): one draw for each. -/
def flitsOf (f : Frame) : Nat := ceilDiv (2 + f.slots) 15

/-- A header wins an output: the frame leaves on a port, or goes to its internal output. To an end-point it carries the incarnation on record for it
(03 R58). Of a frame whose tail has not arrived the header alone leaves. The output is locked to the frame until its tail, or a void tail, has left
(13 R343, R346). -/
def State.headerWins (s : State) (o q : Nat) (b : Buffered) : State :=
  let key := qKey o q
  let s := s.onCore fun c => { c with queue := c.queue.put key ((c.queue.get key []).drop 1) }
  let lockFor (s : State) : State := s.onCore fun c =>
    ({ c with lock := c.lock.put o { left := flitsOf b.f - 1, tile := b.tile, queue := q }
              lastTc0 := if b.f.cls = 0 then c.lastTc0.put o (flitCount (s.now .sw)) else c.lastTc0 } : Core).unlock
  if o ≥ 64 then lockFor (s.onCore fun c => { c with inbox := c.inbox.put o (c.inbox.get o [] ++ [b]) })
  else if aged s.sw.sys.cfg (s.now .sw) b.f && !decide (b.src ≥ 64) then s.discardAged o b
  else
    let f := if b.src ≥ 64 then { b.f with age := ageStamp (s.now .sw) b.f.cls } else b.f
    let f := if isEdge s.sw.sys o then { f with inc := s.sw.incFor (s.sw.peer o) } else f
    let s := (if b.whole then s.freeCells b else s.onCore fun c => { c with cut := c.cut.put o { b := b, f := f } }).spendTokens o f
    let s := s.onCore fun c => { c with
      spent := c.spent.put (o * 16 + q) (c.spent.get (o * 16 + q) 0 + b.cells)
      awaiting := if isEdge s.sw.sys o && isMemReq f.typ then c.awaiting ++ [(o, { f with inc := b.f.inc })] else c.awaiting }
    let s := s.count (blkPort o) cFramesTx
    lockFor (s.emit (if b.whole then .frame .sw o f else .head .sw o f))

/-- One draw of a matched pair. -/
def State.draw (s : State) (m : Nat × Ask) : State :=
  match m.2 with
  | .header q b => s.headerWins m.1 q b
  | .locked _ => s.onCore fun c => ({ c with lock := c.lock.mapVals fun o x => if o = m.1 then { x with left := x.left - 1 } else x } : Core).unlock

/-- A head that only its shapers keep waiting counts for its partition (23 R538, DESIGN CHOICE, log 39: once for each flit time). -/
def State.countShaperWait (s : State) : State :=
  s.each ports64 fun s o => s.each (queueOrder s.sw.sys o false) fun s q =>
    match (s.sw.core.queue.get (qKey o q) []).head? with
    | some b => if s.mayLeave o q b && !s.sw.shaped o b.f then s.count (blkPart b.f.partition) 3 else s
    | none => s

/-- One flit time of the matcher: what waits for a port out of service is discarded (13 R345), then three rounds, the draws of what is matched, and
the pointers one past the positions chosen. Credits kept back and requests that waited for their source's credit go on (13 R353). -/
def State.matcherRound (s : State) : State :=
  let s := s.each (ports64.filter fun p => !s.sw.inService p && (queueKeys p).any fun k => !(s.sw.core.queue.get k []).isEmpty) fun s p => s.discardQueues p
  let s := s.countShaperWait
  let m := s.matchRound (s.matchRound (s.matchRound []))
  let s := s.each m fun s x => s.draw x
  let s := s.each m fun s x => s.onCore fun c => { c with grantPtr := c.grantPtr.put x.1 ((x.2.tile + 1) % 16), acceptPtr := c.acceptPtr.put x.2.tile ((x.1 + 1) % 87) }
  (s.each s.sw.core.owed fun s e => s.settleOwed e.1).flightsGo

/-! ### Queue samples (11 R320, 03 R78, 13 R344) -/

/-- One sample of an output queue. -/
def QueueRec.sample (r : QueueRec) (depth delay : Nat) (head : Option Nat) : QueueRec :=
  { lastDepth := depth, maxDepth := max r.maxDepth depth, maxDelay := max r.maxDelay delay, samples := r.samples + 1,
    sumDepth := r.sumDepth + depth, sumDelay := r.sumDelay + delay,
    byPart := match head with
      | some p =>
        let o := r.byPart.get p (0, 0, 0)
        r.byPart.put p (max o.1 delay, o.2.1 + 1, o.2.2 + delay)
      | none => r.byPart }

def State.sampleQueue (s : State) (o q : Nat) : State :=
  let l := s.sw.core.queue.get (qKey o q) []
  let depth := l.foldl (fun n b => n + b.cells) 0
  let delay := (l.head?.map fun b => min (2 ^ 20 - 1) ((s.now .sw - b.at_) / tFlit)).getD 0
  let r := (s.sw.tally.queue.get (qKey o q) {}).sample depth delay (l.head?.map fun b => b.f.partition)
  s.onSw fun w => { w with tally := { w.tally with queue := w.tally.queue.put (qKey o q) r } }

/-- The residence bound: 2,048 µs, for every class but TC5. -/
def overstayed (now at_ cls : Nat) : Bool := cls != 5 && decide (2048 * tUs ≤ now - at_)

/-- A frame past the residence bound is counted and recorded, and a request answered in its cells. -/
def State.residence (s : State) (b : Buffered) : State :=
  ((s.count 0 cResidence).record { kind := fResidence, partition := b.f.partition, status := if isRequest b.f.typ then stAged else 0xFF }).answerIn b stAged

/-- Every frame past the residence bound is discarded: in a queue, drawn and not yet acted on, held red at the head of its channel, or begun by an output,
which ends it with a void tail of a REASON that the spec does not state (a free value, log 5). -/
def State.discardStale (s : State) : State :=
  let now := s.now .sw
  let late (b : Buffered) := overstayed now b.at_ b.f.cls
  let c := s.sw.core
  let gone := (c.queue ++ c.inbox ++ c.held).flatMap fun e => e.2.filter late
  let outs := c.cut.filter fun e => late e.2.b
  let keep (t : Tab (List Buffered)) := t.mapVals fun _ l => l.filter fun b => !late b
  let s := s.onCore fun c => ({ c with queue := keep c.queue, inbox := keep c.inbox, held := (keep c.held).filter fun e => !e.2.isEmpty
                                       cut := c.cut.filter fun e => !late e.2.b } : Core).unlock
  let s := s.each gone fun s b => s.residence b
  s.each outs fun s e => (s.voidFree e.1).residence e.2.b

def State.queueSample (s : State) : State :=
  let s := s.each ports64 fun s o => s.each (List.range 16) fun s q => s.sampleQueue o q
  s.discardStale

/-! ### Gates and cycles (11 R294 to R309) -/

/-- Queues of a class at a port. -/
def classQueues (y : Sys) (p c : Nat) : List Nat := if isEdge y p then [c] else [2 * c, 2 * c + 1]

/-- Frames of scheduled classes still waiting when their open interval ends are slot misses (11 R295; DEDUCED, log 39: each waiting frame, once for
each end). -/
def State.slotMisses (s : State) (p before after : Nat) : State :=
  s.each [1, 2, 5] fun s c =>
    if bit before c && !bit after c then
      let n := (classQueues s.sw.sys p c).foldl (fun n q => n + (s.sw.core.queue.get (qKey p q) []).length) 0
      s.countN (blkPort p) (cSlotMiss c) n
    else s

/-- The mask of the entry that runs on a port. -/
def State.gateMask (s : State) (d : Dev) (p : Nat) : Nat := (((s.gateList d p).drop (s.getGate d p).entry).head?.map Prod.fst).getD 0

/-- The current entry of a port's list ends. -/
def State.gateEntryEnd (s : State) (d : Dev) (p : Nat) : State :=
  let before := s.gateMask d p
  let s := s.nextEntry d p
  match d with
  | .sw => s.slotMisses p before (s.gateMask d p)
  | .ep => s.epDrain

/-- A link partner that has advertised a book and a package runs the same as this device (11 R305). -/
def State.agrees (s : State) (d : Dev) (p : Nat) : Bool :=
  match (s.getClock d).advert.find p with
  | none => true
  | some a => a.book == s.bookShown d && a.package == (((s.getSched d).active.map (·.id)).getD 0)

/-- The last offset of the clock is within ±2 ns, in units of 2^-32 s. -/
def Clock.close (c : Clock) : Bool :=
  match c.thetas with
  | [] => true
  | t :: _ => decide (t.natAbs * 1000000000 ≤ 2 * 2 ^ 32)

/-- Scheduled gates reopen at a cycle boundary (11 R286, R288, R305, R309); those of a port below S3 stay closed (14 R372). -/
def State.reopen (s : State) (d : Dev) : State :=
  s.each (List.range (portCount d)) fun s p =>
    if (s.getGate d p).closed && s.agrees d p && (s.getClock d).close && !(s.getClock d).holdover && !(s.getClock d).restep && !(s.getLink d p).slowLink then
      s.onGate d p fun g => { g with closed := false }
    else s

/-- Every port of a device begins entry 0. before: the masks of the entries that end. -/
def State.restartGates (s : State) (d : Dev) (before : List Nat) (at_ : Nat) : State :=
  s.each (List.range (portCount d)) fun s p =>
    let s := s.onGate d p fun g => { g with entry := 0, began := at_ }
    match d with
    | .sw => s.slotMisses p (before.getD p 0) (s.gateMask d p)
    | .ep => s

/-- What a package brings, but for the buckets that a later-taken command set at the instant of its activation (16 R426). -/
def overlay {α : Type} (set : Tab (Nat × Nat)) (point order : Nat) (old new : Tab α) : Tab α :=
  (old.filter fun e => (set.find e.1).any fun x => x.1 == point && decide (order < x.2)).foldl (fun t e => t.put e.1 e.2) new

/-- Settings of shapers and policers that a package brings at an instant; those that change start full (11 R302). order: place of the command that
armed it in taking order. -/
def State.loadBuckets (s : State) (k : Package) (point order : Nat) : State :=
  s.onCore fun c =>
    let keep (n : Bucket) (o : Option Bucket) : Bucket := match o with
      | some o => if o.enable == n.enable && o.rate == n.rate && o.burst == n.burst && o.overhead == n.overhead then { n with tokens := o.tokens } else n.full
      | none => n.full
    let keepP (n : Policer) (o : Option Policer) : Policer := match o with
      | some o => if o.enable == n.enable && o.cir == n.cir && o.pir == n.pir && o.cbs == n.cbs && o.pbs == n.pbs && o.overhead == n.overhead
          then { n with tc := o.tc, tp := o.tp } else n.full
      | none => n.full
    { c with shaper := overlay c.shaperSet point order c.shaper (k.shapers.mapVals fun i n => keep n (c.shaper.find i))
             policer := overlay c.policerSet point order c.policer (k.policers.mapVals fun i n => keepP n (c.policer.find i)) }

/-- A pending change of book whose boundary is the one at which the armed package activates, or has passed, has taken effect; a later one keeps
its instant under the new package's numbering (DEDUCED, log 50). -/
def BookChange.carry (c : BookChange) (old : Option Package) (k : Package) : BookChange :=
  match old with
  | some a => { c with cycle := k.cycleFrom (a.instant c.cycle) }
  | none => c

/-- The armed package activates: banks and tables are exchanged in one step (11 R302). -/
def State.activate (s : State) (d : Dev) (k : Package) (cycle : Nat) : State :=
  let s := s.onSched d fun x => { x with
    active := some k, standby := x.active, armed := none, cycle := cycle, activated := some (k.instant cycle, x.armedBy.order)
    pending_ := x.pending_.map fun c => c.carry x.active k }
  match d with
  | .ep => s
  | .sw => ((s.loadBuckets k (k.instant cycle) s.sw.sched.armedBy.order).setEvent evSched).activation 0 s.sw.sched.armedBy.seq 0x0611 k.digest

/-- A change of book due at this boundary takes effect: the domain's current book is that of every entry that now begins (11 R302, R308, R309). -/
def State.bookDue (s : State) (d : Dev) (cycle : Nat) : State :=
  match (s.getSched d).pending_ with
  | some c => s.ifThen (decide (c.cycle ≤ cycle)) fun s => (s.onSched d fun y => { y with pending_ := none, late := false }).takeBook d c.book
  | none => s

/-- Cycle `cycle` begins: a pending book takes effect, an armed package activates, and entry 0 begins on every port. Slot misses are of the entry
that ran until now. -/
def State.cycleBoundary (s : State) (d : Dev) (cycle : Nat) : State :=
  let x := s.getSched d
  let before := (List.range (portCount d)).map fun p => s.gateMask d p
  let begin_ (s : State) (k : Package) (c : Nat) : State :=
    let s := (s.restartGates d before (k.instant c)).reopen d
    match d with
    | .sw => s.decideBook false
    | .ep => s
  let on (s : State) : State := match x.active with
    | some a => begin_ (s.onSched d fun y => { y with cycle := cycle }) a cycle
    | none => s
  let s := s.bookDue d cycle
  let s := match x.armedBoundary with
    | some (n, k, c) => if n = cycle then begin_ (s.activate d k c) k c else on s
    | none => on s
  match d with
  | .sw => s.revoteAll
  | .ep => s.epDrain

/-! ### The rows -/

/-- FRAME_ARRIVAL: a frame at a switch input (13 R339). -/
def execFrameArrival (port : Nat) (f : Frame) (s : State) : Host.Outcome State Fault Refusal := .next (s.frameArrival port f)

/-- QUEUE_SAMPLE: every output queue, and the residence bound (11 R320, 13 R344). -/
def execQueueSample (s : State) : Host.Outcome State Fault Refusal := .next s.queueSample

/-- BUCKET_REFILL (11 R315). -/
def execBucketRefill (s : State) : Host.Outcome State Fault Refusal := .next s.bucketRefill

/-- GATE_ENTRY_END (11 R294). -/
def execGateEntryEnd (d : Dev) (port : Nat) (s : State) : Host.Outcome State Fault Refusal := .next (s.gateEntryEnd d port)

/-- CYCLE_BOUNDARY (11 R294, R302, R308). -/
def execCycleBoundary (d : Dev) (cycle : Nat) (s : State) : Host.Outcome State Fault Refusal := .next (s.cycleBoundary d cycle)

end Sys2Proof.Machine
end

