-- ==== Sys2Proof/Machine/Escapement.lean ====
section
/-!
DEFINITION. Fabric time (11 R283 to R288, 15 R407 to R411), the arrival of a port at ACTIVE (14 R364, 23 R550), and the books (11 R305 to
R310).
-/

namespace Sys2Proof.Machine

/-! ### Fabric time (11 R285, R286) -/

/-- The hops by which a device reaches the time master; 0xFF: no path (14 R362). -/
def State.hops (s : State) (d : Dev) : Nat :=
  let c := s.getClock d
  if c.holdover then 0xFF
  else if d = Dev.sw ∧ s.sw.isMaster then 0
  else match c.source with
    | some p => min 0xFF ((c.advert.get p {}).hops + 1)
    | none => 0xFF

/-- The device's path leads to an acting standby (11 R286). -/
def State.viaStandby (s : State) (d : Dev) : Bool :=
  let c := s.getClock d
  match d with
  | .sw => c.acting || (!s.sw.isMaster && c.source.any fun p => (c.advert.get p {}).via)
  | .ep => c.source.any fun p => (c.advert.get p {}).via

/-- An offset of 2^-32 s units in units of fabric time, and 0.5 ns. -/
def thetaUnits (t : Int) : Int := t * (tSec : Int) / 2 ^ 32
def halfNs : Int := 425

/-- Fabric time moved by an offset. -/
def moveTime (now : Nat) (by_ : Int) : Nat := ((now : Int) + by_).toNat

/-- A signed 64-bit difference. -/
def signed64 (n : Int) : Int :=
  let m := n % 2 ^ 64
  if m ≥ 2 ^ 63 then m - 2 ^ 64 else m

/-- The offset that a probe gives (15 R408): the partner's time less its own. -/
def theta (t1 t2 d t4 : Nat) : Int :=
  (signed64 ((t2 : Int) - t1) - signed64 ((t4 : Int) - t2 - d)) / 2

/-- An offset measured at the frequency source corrects fabric time: a step without valid time, at most 0.5 ns otherwise (15 R408). -/
def State.takeTheta (s : State) (d : Dev) (th : Int) : State :=
  let via := s.viaStandby d
  let s := s.onClock d fun c => { c with viaTime := via }
  let c := s.getClock d
  if !c.valid || c.holdover || c.restep then
    (s.onClock d fun c => { c.stepTo (moveTime c.now (thetaUnits th)) with valid := true, holdover := false, restep := false, thetas := [] }).realign d
  else
    let l := (th :: c.thetas).take 8
    let mean := thetaUnits (l.foldl (· + ·) 0 / (l.length : Int))
    s.onClock d fun c => { c with thetas := l, now := moveTime c.now (max (-halfNs) (min halfNs mean)) }

/-! ### A port reaches ACTIVE -/

/-- CONFIG of the values that an end-point takes from its plane-0 switch (05 R126, 12 R332). -/
def State.configValues (s : State) (p : Nat) : State :=
  if s.sw.sys.plane ≠ 0 then s
  else
    let s := s.relayEp p mConfig (leBytes 1 ciHold ++ leBytes 2 s.sw.sys.cfg.tHold) none
    s.relayEp p mConfig (leBytes 1 ciCeil ++ leBytes 2 s.sw.sys.cfg.ceil) none

/-- The switch states the end-point's home ID and incarnation (14 R367, 23 R550). An end-point fenced by a verdict gets none. -/
def State.sendAdmit (s : State) (p : Nat) : State :=
  let h := s.sw.peer p
  let r := s.sw.epRec h
  if r.verdict then s
  else
    let s := s.onEpRec h fun r => { r with admitted := true, readmitting := false, misses := 0, acked := true, beat := [], suspects := [] }
    (s.mgmtOut .sw p mAdmit 0 (leBytes 2 h ++ leBytes 1 r.inc ++ leBytes 1 (b2n s.sw.sys.strongroom))).configValues p

/-- The settled step and lane map, kept for a fast resume (14 R368). -/
def Link.keep (l : Link) : Link :=
  { l with attempts := 0, fenceWhy := 0, fast := false, waking := false, probesOk := 0, partnerOk := 0, narrowed := l.width != 0
           stored := some { partner := (l.partner.map (·.serial)).getD 0
                            res := { step := l.step, table := l.eqTable, width := l.width, jewel := l.jewel, clockLane := l.clockLane, fom := l.fom, fail := l.fail,
                                     out := l.out, eq := l.eq } } }

/-- TIME ends: the port carries traffic, its credits at their start (13 R351); below S3 without scheduled classes (14 R372). -/
def State.portActive (s : State) (d : Dev) (p : Nat) : State :=
  let slow := (s.getLink d p).slowLink
  let s := if slow then s.closePort d p else s
  match d with
  | .sw =>
    let s := (s.onPort p fun l => { l.keep with state := .active }).onCore fun c => { c with spent := c.spent.filter fun e => e.1 / 16 != p }
    let s := if isEdge s.sw.sys p then s.sendAdmit p else s
    s.retime .sw
  | .ep =>
    let s := s.onLink .ep p fun l => { l.keep with state := .active }
    let s := s.onEp fun e => { e with spent := e.spent.filter (fun x => x.1 / 16 != p), agentFence := e.agentFence.mapVals fun _ l => l.filter (· != p) }
    (s.retime .ep).epDrain

/-! ### Probes (15 R407 to R411) -/

/-- The PROBE_INFO of a device. -/
def State.probeInfoOf (s : State) (d : Dev) : Ctrl :=
  .probeInfo (s.hops d) (s.bookShown d) (decide (d = Dev.sw) && s.sw.isMaster) ((s.getClock d).valid && s.hops d != 0xFF) (s.viaStandby d)
    (s.getSched d).lastChange (((s.getSched d).active.map (·.id)).getD 0)

/-- A port in TIME or ACTIVE exchanges probes. -/
def State.probing (s : State) (d : Dev) (p : Nat) : Bool := [PortState.time, .active].contains (s.getLink d p).state

/-- A port in TIME or ACTIVE sends PROBE_REQ with PROBE_INFO. -/
def State.probeTimer (s : State) (d : Dev) (p : Nat) : State :=
  if !(s.probing d p) then s
  else
    let id := (s.getClock d).nextProbe.get p 0
    let s := s.onClock d fun c => { c with probes := c.probes.put p (id, time64 c.now), nextProbe := c.nextProbe.put p ((id + 1) % 256) }
    (s.emit (.ctrl d p (.probeReq id))).emit (.ctrl d p (s.probeInfoOf d))

/-- TIME ends with eight good probes in a row in each direction (15 R409). -/
def State.timeEnds (s : State) (d : Dev) (p : Nat) : State :=
  let l := s.getLink d p
  if l.state = .time ∧ 8 ≤ l.probesOk ∧ 8 ≤ l.partnerOk then s.portActive d p else s

/-- PROBE_REQ is answered with PROBE_RSP and PROBE_INFO. In TIME it is a probe of the partner's direction: no frame tells its offset, which is good while
this side's own last one is (DEDUCED, log 121). -/
def State.probeReq (s : State) (d : Dev) (p id at_ : Nat) : State :=
  if !(s.probing d p) then s
  else
    let turn := (time64 (s.now d) + 2 ^ 64 - at_ % 2 ^ 64) % 2 ^ 48
    let s := (s.emit (.ctrl d p (.probeRsp id turn at_))).emit (.ctrl d p (s.probeInfoOf d))
    if (s.getLink d p).state = .time then
      (s.onLink d p fun l => { l with partnerOk := if 0 < l.probesOk then l.partnerOk + 1 else 0 }).timeEnds d p
    else s

/-- PROBE_RSP gives an offset: eight in a row within ±2 ns in each direction end TIME; at the frequency source it corrects fabric time. -/
def State.probeRsp (s : State) (d : Dev) (p id turn t2 t4 : Nat) : State :=
  match (s.getClock d).probes.find p with
  | none => s
  | some (i, t1) =>
    if i ≠ id then s
    else
      let s := s.onClock d fun c => { c with probes := c.probes.del p }
      let th := theta t1 t2 turn t4
      let near := decide (th.natAbs * 1000000000 ≤ 2 * 2 ^ 32)
      let s := if (s.getClock d).source = some p ∧ s.sourceOk d p then s.takeTheta d th else s
      if (s.getLink d p).state = .time then
        (s.onLink d p fun l => { l with probesOk := if near then l.probesOk + 1 else 0, partnerOk := if near then l.partnerOk else 0 }).timeEnds d p
      else s

/-- PROBE_INFO: the partner's path, package and book. A partner that runs another package or book closes the port's scheduled gates (11 R305), and
is recorded when it is first found to, whatever else holds them closed; an acting standby
steps down when it sees the named master's path (11 R286). -/
def State.probeInfo (s : State) (d : Dev) (p : Nat) (a : Advert) : State :=
  if !(s.probing d p) then s
  else
    let s := s.onClock d fun c => { c with advert := c.advert.put p a }
    let s := if d = Dev.sw ∧ a.hops ≠ 0xFF ∧ !a.via then
        s.onClock .sw fun c => { c with acting := false, lost := if c.master = s.sw.sys.homeId then c.lost else false }
      else s
    let s := s.retime d
    if s.agrees d p then s.onGate d p fun g => { g with mismatch := false }
    else
      let fresh := !(s.getGate d p).mismatch
      let s := s.onGate d p fun g => { g with closed := true, mismatch := true }
      match d with
      | .sw => if fresh then (s.record { kind := fPackageMismatch, domain := 1, index := p }).setLate .sw else s
      | .ep => if fresh then s.setLate .ep else s

/-- No probe from the direction of the master for 1 ms: the standby becomes master; without one, or when it is lost as well, holdover (11 R285). -/
def State.masterLost (s : State) : State :=
  let c := s.sw.clock
  if c.master = s.sw.sys.homeId ∧ !c.lost then s
  else if c.acting then s
  else
    let again := c.lost
    let s := s.onClock .sw fun c => { c with lost := true }
    if c.standby = s.sw.sys.homeId then
      -- it carries on from its own time, and its choice of book is the domain's
      ((s.onClock .sw fun c => { c with acting := true, viaTime := true, source := none, thetas := [] }).onSched .sw fun x =>
        { x with reports := x.reports.put s.sw.sys.homeId (x.slow, x.narrow) }).decideBook false
    else if c.standby = 0x3FF || again then s.enterHoldover .sw
    else s.retime .sw

/-- Fabric time less the whole second nearest to it. -/
def offSecond (now : Nat) : Int := let r := now % tSec; if r < tSec / 2 then r else (r : Int) - tSec

/-- A rising edge of PPS_IN steers the oscillator of a time master with PPS_IN enabled toward the edge falling on a whole second; every other switch
ignores it (11 R287, 25 R583). The spec bounds the steering by 0.1 ppm for each second and by ±20 ppm, and gives no law: an edge a second after
the last moves it by the whole 0.1 ppm (DESIGN CHOICE, log 92). A tick is a flit time of fabric time at any steering. -/
def State.ppsIn (s : State) : State :=
  if s.sw.isMaster && s.sw.clock.pps then s.onClock .sw fun c =>
    let off := offSecond c.now
    if c.ppsEdge.any fun e => decide ((c.now : Int) < e + tSec) then c
    else { c with ppsEdge := some c.now, steer := max (-200) (min 200 (c.steer + if 0 < off then -1 else if off < 0 then 1 else 0)) }
  else s

/-- Every switch raises PPS_OUT at a whole second of its fabric time; it falls 100 µs later (25 R582). -/
def State.wholeSecond (s : State) : State := (s.emit (.pin .ppsOut true)).emit (.pin .ppsOut false)

/-! ### Reports and BOOK_SET (11 R306 to R309) -/

/-- A MGMT frame arrives at a device on a port: out of the switch's inbox, or in at the end-point. -/
def State.mgmtAt (s : State) (d : Dev) (p : Nat) (f : Frame) (g : State → State) : State :=
  match d with
  | .sw => g (s.takeInbox (internalOut f) f)
  | .ep => s.epIn p f g

/-- A report of needs: relayed, and noted by a switch. -/
def State.bookReport (s : State) (d : Dev) (p : Nat) (data : List Byte) : State :=
  let s := s.flood d (some p) mBookReport data
  match d with
  | .sw => s.noteReport (field data 2 2) (field data 0 1 != 0) (field data 1 1 != 0)
  | .ep => s

def bookChangeOf (data : List Byte) : BookChange := { book := field data 0 1, cycle := field data 1 8, number := field data 9 4 }

/-- An acknowledgement ends the resending of that change on that hop. -/
def State.bookAck (s : State) (d : Dev) (p number : Nat) : State :=
  match (s.getSched d).unacked.find p with
  | some (c, _) => if c.number = number then s.onSched d fun x => { x with unacked := x.unacked.del p } else s
  | none => s

/-- 20 µs without an acknowledgement: sent again, up to 32 times (11 R308). -/
def State.bookResend (s : State) (d : Dev) (p : Nat) : State :=
  match (s.getSched d).unacked.find p with
  | none => s
  | some (c, n) => if n ≤ 32 then s.sendBookSet d p c (n + 1) else s.onSched d fun x => { x with unacked := x.unacked.del p }

/-! ### The rows -/

/-- BOOK_REPORT (11 R306, R307). -/
def execBookReport (d : Dev) (port : Nat) (f : Frame) (s : State) : Host.Outcome State Fault Refusal :=
  .next (s.mgmtAt d port f fun s => s.bookReport d port f.data)

/-- BOOK_SET (11 R308, R309). -/
def execBookSet (d : Dev) (port : Nat) (f : Frame) (s : State) : Host.Outcome State Fault Refusal :=
  .next (s.mgmtAt d port f fun s => s.bookSetArrives d port (bookChangeOf f.data))

/-- BOOK_ACK (11 R308). -/
def execBookAck (d : Dev) (port : Nat) (f : Frame) (s : State) : Host.Outcome State Fault Refusal :=
  .next (s.mgmtAt d port f fun s => s.bookAck d port (field f.data 0 4))

/-- BOOK_SET_RESEND (11 R308). -/
def execBookSetResend (d : Dev) (port : Nat) (s : State) : Host.Outcome State Fault Refusal := .next (s.bookResend d port)

/-- RETURN_HOLD_END: the condition has been absent for the return hold (11 R307). -/
def execReturnHoldEnd (s : State) : Host.Outcome State Fault Refusal := .next (s.decideBook true)

/-- SLOW_SET: P has passed P_ceil (11 R306). -/
def execSlowSet (s : State) : Host.Outcome State Fault Refusal := .next (if s.slowNow then s.setSlow true else s)

/-- SLOW_CLEAR: P has stayed at or below P_ceil less the margin for 10 ms (11 R306). -/
def execSlowClear (s : State) : Host.Outcome State Fault Refusal :=
  .next (if s.slowPace + s.sw.sched.margin ≤ s.sw.sys.cfg.ceil then s.setSlow false else s)

/-- PROBE_REQ (15 R407). -/
def execProbeReq (d : Dev) (port id at_ : Nat) (s : State) : Host.Outcome State Fault Refusal := .next (s.probeReq d port id at_)

/-- PROBE_RSP (15 R408, R409). -/
def execProbeRsp (dev : Dev) (port id d t2 t4 : Nat) (s : State) : Host.Outcome State Fault Refusal := .next (s.probeRsp dev port id d t2 t4)

/-- PROBE_INFO (15 R411; 11 R286, R305). -/
def execProbeInfo (d : Dev) (port hops book : Nat) (master valid viaStandby : Bool) (_change packageId : Nat) (s : State) : Host.Outcome State Fault Refusal :=
  .next (s.probeInfo d port { hops := hops, book := book, master := master, valid := valid, via := viaStandby, package := packageId })

/-- PROBE_TIMER: every 100 µs (15 R407). -/
def execProbeTimer (d : Dev) (port : Nat) (s : State) : Host.Outcome State Fault Refusal := .next (s.probeTimer d port)

/-- FREQUENCY_SOURCE_FAIL (01 R17). -/
def execFrequencySourceFail (d : Dev) (s : State) : Host.Outcome State Fault Refusal := .next (s.sourceFails d)

/-- TIME_MASTER_LOST (11 R285). -/
def execTimeMasterLost (s : State) : Host.Outcome State Fault Refusal := .next s.masterLost

/-- PPS_IN (11 R287). -/
def execPpsIn (s : State) : Host.Outcome State Fault Refusal := .next s.ppsIn

/-- WHOLE_SECOND (11 R287). -/
def execWholeSecond (s : State) : Host.Outcome State Fault Refusal := .next s.wholeSecond

end Sys2Proof.Machine
end

