-- ==== Sys2Proof/Machine/Flags.lean ====
section
/-!
DEFINITION. The status registers of both devices as software reads them (18 R455, R456; 24 R572).
-/

namespace Sys2Proof.Machine

/-! ### Status words -/

/-- STATE of PT_LINK_STATUS (14). -/
def PortState.code : PortState → Nat
  | .down => 0
  | .detect => 1
  | .identify => 2
  | .equalise => 3
  | .decide => 4
  | .map => 5
  | .secure => 6
  | .time => 7
  | .active => 8
  | .fenced => 9
  | .nap => 10
  | .rest => 11

/-- PT_LINK_STATUS of a port (14). freq: it is the device's frequency source. -/
def Link.statusWord (l : Link) (freq : Bool) : Nat :=
  l.state.code + l.step * 2 ^ 4 + l.width * 2 ^ 6 + l.jewel * 2 ^ 8 + l.clockLane * 2 ^ 12 + l.fom * 2 ^ 16 + b2n l.eqTable * 2 ^ 24
    + b2n freq * 2 ^ 25 + b2n l.slowLink * 2 ^ 26 + b2n l.test.isSome * 2 ^ 27 + b2n l.changed * 2 ^ 28

/-- PT_LINK_SEC of a port (15). -/
def Link.secWord (l : Link) : Nat :=
  let epoch (k : Option LinkKey) : Nat := b2n (k.any (·.epoch))
  let g (k : Option LinkKey) : Nat := (k.map (·.g)).getD 0
  epoch l.tx.key + epoch l.rx.key * 2 + b2n l.xchg.isSome * 2 ^ 2 + b2n (l.tx.key.isSome && l.rx.key.isSome) * 2 ^ 3
    + g l.tx.key * 2 ^ 4 + g l.rx.key * 2 ^ 8 + bits l.tx.counter 20 20 * 2 ^ 12

/-- TL_STATUS (16). -/
def Switch.tlStatus (w : Switch) : Nat :=
  w.teller.state + w.sys.runSlot * 2 ^ 2 + w.teller.restarts * 2 ^ 8 + b2n w.teller.restarted * 2 ^ 16

/-- ES_SCHED_STATUS, or EP_SCHED_STATUS in the same layout (11, 24). BOOK reads 3 while the default list runs. -/
def State.schedStatus (s : State) (d : Dev) : Nat :=
  let late := match d with | .sw => s.sw.host.late | .ep => s.ep.late
  let master := match d with | .sw => s.sw.isMaster | .ep => false
  s.bookShown d + b2n (s.getSched d).armed.isSome * 2 ^ 2 + b2n (s.getClock d).holdover * 2 ^ 3 + b2n late * 2 ^ 4 + b2n master * 2 ^ 5

/-- ES_PACKAGE_ID (11). -/
def Switch.packageId (w : Switch) : Nat := (w.sched.active.map (·.id)).getD 0

/-- EP_STATUS (24). -/
def State.epStatus (s : State) : Nat :=
  let live := (s.livePorts .ep).foldl (fun n p => n + 2 ^ p) 0
  s.ep.homeId + s.ep.inc.getD 0 * 2 ^ 10 + b2n s.ep.strongroom * 2 ^ 14 + b2n s.ep.verdict * 2 ^ 15 + live * 2 ^ 16
    + (if s.ep.strongroom then 0 else s.ep.p) * 2 ^ 24

/-! ### Register maps -/

/-- Mailboxes of a function. -/
def mailboxes (fn : Nat) : Nat := if fn = 0 then 16 else 4

/-! ### Request layouts (17) -/

/-- The request of a port command. -/
def portFields : List (Nat × Nat) := [(0x80, 1), (0x84, 4), (0x88, 8)]

/-- The request of a region command. -/
def regionFields : List (Nat × Nat) := [(0x80, 2), (0x84, 4), (0x88, 4), (0x8C, 1), (0x8E, 2)]

/-- The request of CKPT_SAVE and CKPT_RESTORE. -/
def ckptFields : List (Nat × Nat) := [(0x80, 1), (0x88, 8), (0x90, 8), (0x98, 8), (0xA0, 8)]

/-- Opcodes 0x0101 to 0x0703: the fields of each request, offset and size. -/
def layoutsLow : List (Nat × List (Nat × Nat)) :=
  [(0x0101, []), (0x0102, [(0x80, 1), (0x81, 1)]), (0x0201, [(0x80, 1), (0x81, 1), (0x82, 1), (0x83, 1)]), (0x0202, []),
   (0x0204, [(0x80, 4), (0x84, 4), (0x88, 4), (0x8C, 4)]), (0x0206, [(0x80, 2)]), (0x0301, [(0x80, 1), (0x81, 1), (0x82, 1)]),
   (0x0302, [(0x80, 1), (0x84, 4)]), (0x0303, [(0x80, 1), (0x82, 6)]), (0x0304, [(0x80, 1), (0x82, 2), (0x84, 2)]),
   (0x0401, [(0x80, 1), (0x88, 8)]), (0x0402, [(0x80, 2), (0x88, 8), (0x90, 4)]), (0x0503, portFields), (0x0504, portFields),
   (0x0505, portFields), (0x0510, portFields), (0x0511, portFields), (0x0512, portFields), (0x0520, portFields), (0x0521, portFields),
   (0x0601, [(0x80, 2), (0x82, 2)]), (0x0602, [(0x80, 6), (0x88, 4), (0x8C, 1)]), (0x0610, [(0x80, 8), (0x88, 8)]),
   (0x0611, [(0x80, 8), (0x88, 8)]), (0x0612, [(0x80, 8)]), (0x0613, [(0x80, 1), (0x84, 4), (0x88, 4)]),
   (0x0701, [(0x80, 1), (0x81, 1), (0x82, 1), (0x83, 1), (0x84, 4), (0x88, 4), (0x8C, 1)]),
   (0x0702, [(0x80, 1), (0x81, 1), (0x82, 1), (0x83, 1), (0x84, 4), (0x88, 4), (0x8C, 4), (0x90, 4)]),
   (0x0703, [(0x80, 1), (0x81, 1), (0x82, 1)])]

/-- Opcodes 0x0810 to 0x0A31: the fields of each request, offset and size. -/
def layoutsMid : List (Nat × List (Nat × Nat)) :=
  [(0x0810, regionFields), (0x0811, regionFields), (0x0812, regionFields), (0x0813, [(0x80, 2), (0x82, 1), (0x88, 8), (0x90, 4)]),
   (0x0820, [(0x80, 1), (0x81, 1)]), (0x0821, [(0x80, 2)]), (0x0822, [(0x80, 1), (0x82, 2)]),
   (0x0830, [(0x80, 2), (0x82, 2), (0x84, 1), (0x86, 2)]), (0x0831, [(0x80, 2)]), (0x0832, [(0x80, 2)]),
   (0x0901, [(0x80, 1), (0x81, 1), (0x82, 2), (0x84, 4), (0x88, 8), (0x90, 64)]), (0x0902, [(0x80, 1)]),
   (0x0903, [(0x80, 1), (0x82, 2), (0x84, 2)]), (0x0904, [(0x80, 1), (0x84, 4)]), (0x0910, [(0x80, 1), (0x81, 1), (0x82, 2)]),
   (0x0911, [(0x80, 1), (0x81, 1)]), (0x0912, [(0x80, 1), (0x84, 4)]), (0x0A01, []),
   (0x0A02, [(0x80, 1), (0x81, 1), (0x88, 1568), (0x6A8, 40)]), (0x0A03, [(0x80, 1), (0x84, 4)]), (0x0A10, [(0x80, 1), (0x88, 1793)]),
   (0x0A11, [(0x80, 4)]), (0x0A20, [(0x80, 32), (0xA0, 8), (0xA8, 8)]),
   (0x0A30, [(0x80, 1), (0x81, 1), (0x82, 1), (0x88, 8), (0x90, 8), (0x98, 4)]), (0x0A31, [(0x80, 1)])]

/-- Opcodes 0x0B01 to 0x0F02: the fields of each request, offset and size. -/
def layoutsHigh : List (Nat × List (Nat × Nat)) :=
  [(0x0B01, [(0x80, 1), (0x88, 8), (0x90, 8)]), (0x0B02, [(0x80, 1), (0x81, 1), (0x88, 8), (0x90, 4), (0x98, 8), (0xA0, 8)]),
   (0x0B03, [(0x80, 1)]), (0x0B10, ckptFields), (0x0B11, ckptFields), (0x0C01, [(0x80, 1), (0x81, 1), (0x82, 1)]),
   (0x0C02, [(0x80, 2), (0x82, 2), (0x84, 2), (0x86, 2)]), (0x0C03, [(0x80, 2)]), (0x0C04, []), (0x0D01, [(0x80, 2), (0x84, 4), (0x88, 4)]),
   (0x0D10, [(0x80, 8), (0x88, 4)]), (0x0D20, [(0x80, 1)]), (0x0E01, [(0x80, 1), (0x81, 1), (0x82, 2)]),
   (0x0E02, [(0x80, 1), (0x81, 1), (0x82, 2)]), (0x0E03, [(0x80, 1)]), (0x0E04, [(0x80, 2)]), (0x0F01, [(0x80, 1), (0x88, 8), (0x90, 8)]),
   (0x0F02, [(0x80, 1), (0x81, 1), (0x82, 1)])]

/-- The fields of a command's request (17 Command index): offset and size in ascending order; none where the index lists no such opcode. -/
def requestOf (op : Nat) : Option (List (Nat × Nat)) := ((layoutsLow ++ layoutsMid ++ layoutsHigh).find? (·.1 == op)).map (·.2)

/-- The request layout of an opcode names the byte at o; the bytes it does not name are reserved (17 R430). -/
def namedByte (op o : Nat) : Bool :=
  match requestOf op with
  | none => true
  | some l => l.any fun x => decide (x.1 ≤ o ∧ o < x.1 + x.2)

/-- The bits of a named byte that are not reserved: SHAPER_SET reserves FLAGS [7:1], RATE and BURST [31:24] and OVERHEAD [7:6] (11 R316), and
POLICER_SET has its rates, bursts and overhead in the same form (R319). -/
def namedBits (op o : Nat) : Byte :=
  if op = 0x0701 then
    (if o = 0x83 then 0x01 else if o = 0x87 ∨ o = 0x8B then 0x00 else if o = 0x8C then 0x3F else 0xFF)
  else if op = 0x0702 then
    (if o = 0x83 then 0x3F else if o = 0x87 ∨ o = 0x8B ∨ o = 0x8F ∨ o = 0x93 then 0x00 else 0xFF)
  else 0xFF

/-- One byte of a host mailbox (16 R413): reserved bytes, those of the request that its layout does not name, the reserved bits of the bytes it
names and those of CMD_HEADER read as zero (R6). -/
def Mailbox.byte (m : Mailbox) (o : Nat) : Byte :=
  if o < 4 then (leBytes 4 (b2n m.own + b2n m.irq * 2 + m.seq * 2 ^ 16)).getD o 0
  else if 0x40 ≤ o ∧ o < 0x48 then (leBytes 8 (m.header.toNat &&& 0xFFFF0001FFFF)).getD (o - 0x40) 0
  else if 0x80 ≤ o ∧ o < 0x800 then (if namedByte (bits m.header.toNat 0 16) o then
      m.payload.get o 0 &&& namedBits (bits m.header.toNat 0 16) o else 0)
  else if 0x800 ≤ o ∧ o < 0x808 then (leBytes 8 m.rspHeader.toNat).getD (o - 0x800) 0
  else if 0x808 ≤ o ∧ o < 0x810 then (leBytes 8 m.ledgerSeq).getD (o - 0x808) 0
  else if 0x880 ≤ o then m.rsp.getD (o - 0x880) 0
  else 0

/-- One byte of the MSI-X table of a function: its stored bytes, with the vector's mask in bit 0 of its control word. -/
def HostIf.msixByte (h : HostIf) (fn o : Nat) : Byte :=
  if o % 16 = 12 then (if h.unmasked.contains (fn * 2048 + o / 16) then 0 else 1)
  else if 12 < o % 16 then 0
  else h.msixTable.get (fn * 65536 + o) 0

/-- One byte of the pending bit array. -/
def HostIf.pendingByte (h : HostIf) (fn o : Nat) : Byte :=
  BitVec.ofNat 8 ((List.range 8).foldl (fun n i => n + b2n (h.msixPending.contains (fn * 2048 + 8 * o + i)) * 2 ^ i) 0)

/-- Byte o of a little-endian register. -/
def regByte (v o : Nat) : Byte := BitVec.ofNat 8 (v / 256 ^ o)

/-- One byte of BAR0 of a function (18 R455): zero at an offset that the maps do not name. -/
def State.barByte (s : State) (fn o : Nat) : Byte :=
  let h := s.sw.host
  if fn = 0 then
    if o < 0x10000 then (s.sw.teller.mbox.get (o / 0x1000) {}).byte (o % 0x1000)
    else if o < 0x10004 then regByte s.sw.tlStatus (o - 0x10000)
    else if 0x10008 ≤ o ∧ o < 0x1000C then regByte h.swEvent.toNat (o - 0x10008)
    else if 0x10010 ≤ o ∧ o < 0x10014 then regByte (s.schedStatus .sw) (o - 0x10010)
    else if 0x10018 ≤ o ∧ o < 0x10020 then regByte s.sw.packageId (o - 0x10018)
    else if 0x10020 ≤ o ∧ o < 0x10024 then regByte h.tc0Drop.toNat (o - 0x10020)
    else if 0x10100 ≤ o ∧ o < 0x10300 then regByte (h.aperture.get ((o - 0x10100) / 8) 0).toNat (o % 8)
    else if 0x20000 ≤ o ∧ o < 0x21000 then
      let p := (o - 0x20000) / 0x40
      let l := s.sw.getLink p
      let i := o % 0x40
      if i < 4 then regByte (l.statusWord (s.sw.clock.source == some p)) i
      else if i < 8 then regByte l.fail (i - 4)
      else if i < 12 then regByte l.secWord (i - 8)
      else 0
    else if 0x80000 ≤ o ∧ o < 0x88000 then h.msixByte 0 (o - 0x80000)
    else if 0x88000 ≤ o ∧ o < 0x88100 then h.pendingByte 0 (o - 0x88000)
    else 0
  else if o < 0x4000 then (s.sw.teller.mbox.get (fn * 16 + o / 0x1000) {}).byte (o % 0x1000)
  else if o < 0x4080 then regByte (h.aperture.get (fn * 64 + (o - 0x4000) / 8) 0).toNat (o % 8)
  else if 0x8000 ≤ o ∧ o < 0x8400 then h.msixByte fn (o - 0x8000)
  else if 0x9000 ≤ o ∧ o < 0x9008 then h.pendingByte fn (o - 0x9000)
  else 0

/-- One byte of the AKG-8's sideband register space (24 R572). -/
def State.sideByte (s : State) (o : Nat) : Byte :=
  let e := s.ep
  if o < 4 then regByte s.epStatus o
  else if o < 8 then regByte e.event.toNat (o - 4)
  else if o < 0xC then regByte e.cplTimeout.toNat (o - 8)
  else if 0x10 ≤ o ∧ o < 0x18 then regByte e.exposed.toNat (o - 0x10)
  else if 0x18 ≤ o ∧ o < 0x1C then regByte (s.schedStatus .ep) (o - 0x18)
  else if 0x20 ≤ o ∧ o < 0x28 then regByte e.inputUnacked (o - 0x20)
  else if 0x100 ≤ o ∧ o < 0x180 then
    let p := (o - 0x100) / 0x10
    let l := e.getLink p
    let i := o % 0x10
    if i < 4 then regByte (l.statusWord (e.clock.source == some p)) i
    else if i < 8 then regByte l.fail (i - 4)
    else if i < 12 then regByte l.secWord (i - 8)
    else 0
  else if 0x1000 ≤ o ∧ o < 0x1200 then regByte (e.bind.get ((o - 0x1000) / 8) 0).toNat (o % 8)
  else 0

/-- An access that BAR0, and the sideband, accept: 4 or 8 bytes, naturally aligned (18 R456, 24 R572). -/
def alignedAccess (o n : Nat) : Bool := (n == 4 || n == 8) && o % n == 0

/-- A read of n bytes at offset o of BAR0 of function fn, or of the sideband; none is Unsupported Request. An offset that no map names reads as zero
(18 R456). No row of the table reads a register (log 126). -/
def State.readReg (s : State) (d : Dev) (fn o n : Nat) : Option Nat :=
  if !alignedAccess o n then none
  else some (leVal ((List.range n).map fun i => match d with | .sw => s.barByte fn (o + i) | .ep => s.sideByte (o + i)))

end Sys2Proof.Machine
end

