-- ==== Sys2Proof/Machine/Registers.lean ====
section
/-!
DEFINITION. Writes of the registers that software reaches: BAR0 of the HOST functions and the sideband of the AKG-8 (18 R453 to
R457, 24 R572), and the meanings of the host and sideband rows.
-/

namespace Sys2Proof.Machine

/-! ### Parts of a register that an access writes -/

/-- Bytes of an access of n bytes of v at offset o, as they fall in a register of w bytes at b; the register's other bytes come from old. -/
def mergeReg (b w old o n v : Nat) : Nat :=
  leVal ((List.range w).map fun i => if o ≤ b + i ∧ b + i < o + n then regByte v (b + i - o) else regByte old i)

/-- The access reaches the register. -/
def reaches (b w o n : Nat) : Bool := decide (o < b + w ∧ b < o + n)

/-- The bits that the access writes as one in a register. -/
def onesIn (b w o n v : Nat) : Nat := mergeReg b w 0 o n v

/-! ### Write-one-to-clear -/

/-- SW_EVENT bits are cleared; FAULT clear lets ALERT_N rise until the next grave record (18 R457, 23 R537). -/
def State.clearSwEvent (s : State) (v : Nat) : State :=
  let s := s.onHost fun h => { h with swEvent := h.swEvent &&& ~~~(BitVec.ofNat 32 v) }
  let s := if bit v evFault then s.onSw fun w => { w with sys := { w.sys with alertRec := false } } else s
  s.refreshAlert

/-- EP_EVENT bits are cleared (24 R572). -/
def State.clearEpEvent (s : State) (v : Nat) : State := (s.onEp fun e => { e with event := e.event &&& ~~~(BitVec.ofNat 32 v) }).epAlert

/-- CHANGED of PT_LINK_STATUS is cleared. -/
def State.clearChanged (s : State) (d : Dev) (p v : Nat) : State := if bit v 28 then s.onLink d p fun l => { l with changed := false } else s

/-! ### Host mailboxes (16 R413 to R418) -/

def State.onTeller (s : State) (g : Teller → Teller) : State := s.onSw fun w => { w with teller := g w.teller }

/-- Key of a mailbox. -/
def mbKey (fn mb : Nat) : Nat := fn * 16 + mb

def Switch.mailbox (w : Switch) (fn mb : Nat) : Mailbox := w.teller.mbox.get (mbKey fn mb) {}

def State.onMailbox (s : State) (fn mb : Nat) (g : Mailbox → Mailbox) : State :=
  s.onTeller fun t => { t with mbox := t.mbox.upd (mbKey fn mb) {} g }

/-- A host write to a mailbox. CONTROL takes effect last; its bits [15:2] are read-only and stay 0 (R414). Bytes that the layouts reserve are kept as
written, so that the Teller refuses a command with one that is not zero (R6). -/
def State.mailboxHostWrite (s : State) (fn mb o n v : Nat) : State :=
  let m := s.sw.mailbox fn mb
  if m.own then s.count 0 cMailboxIgnored
  else
    let header := if reaches 0x40 8 o n then BitVec.ofNat 64 (mergeReg 0x40 8 m.header.toNat o n v) else m.header
    let payload := (List.range n).foldl (fun (t : Tab Byte) i =>
      if 4 ≤ o + i ∧ o + i < 0x800 ∧ !(0x40 ≤ o + i ∧ o + i < 0x48) then
        (if regByte v i = 0 then t.del (o + i) else t.put (o + i) (regByte v i)) else t) m.payload
    let m := { m with header := header, payload := payload }
    if reaches 0 4 o n then
      let c := mergeReg 0 4 0 o n v
      let s := s.onMailbox fn mb fun _ => { m with own := bit c 0, irq := bit c 1, seq := bits c 16 16 }
      if bit c 0 then s.onTeller fun t => { t with order := t.order ++ [(fn, mb)] } else s
    else s.onMailbox fn mb fun _ => m

/-! ### Apertures and vectors -/

/-- SW_HOST_AP of aperture a of a function. KEY_SLOT of PF0 stays 0 under Strongroom. -/
def State.writeAperture (s : State) (fn a b o n v : Nat) : State :=
  let old := s.sw.host.aperture.get (fn * 64 + a) 0
  let new := BitVec.ofNat 64 (mergeReg b 8 old.toNat o n v) &&& 0xFFFFFC000007F#64
  let new := if fn = 0 ∧ s.sw.sys.strongroom then new &&& ~~~0x7C#64 else new
  s.onHost fun h => { h with aperture := h.aperture.put (fn * 64 + a) new }

/-- One byte of the MSI-X table; a vector whose mask bit is cleared sends what is pending. -/
def State.writeMsix (s : State) (fn o : Nat) (v : Byte) : State :=
  let k := fn * 2048 + o / 16
  if o % 16 < 12 then s.onHost fun h => { h with msixTable := if v = 0 then h.msixTable.del (fn * 65536 + o) else h.msixTable.put (fn * 65536 + o) v }
  else if o % 16 ≠ 12 then s
  else if v.getLsbD 0 then s.onHost fun h => { h with unmasked := h.unmasked.filter (· != k) }
  else
    let s := s.onHost fun h => { h with unmasked := k :: h.unmasked.filter (· != k) }
    if s.sw.host.msixPending.contains k then s.msix fn (o / 16) else s

/-- The bytes of an access to the MSI-X table at base b. -/
def State.writeVectors (s : State) (fn b o n v : Nat) : State := s.each (List.range n) fun s i => s.writeMsix fn (o + i - b) (regByte v i)

/-! ### BAR0 -/

/-- A write of BAR0 of PF0 (18 R455). -/
def State.writePf (s : State) (o n v : Nat) : State :=
  if o < 0x10000 then s.mailboxHostWrite 0 (o / 0x1000) (o % 0x1000) n v
  else if 0x10100 ≤ o ∧ o < 0x10300 then s.writeAperture 0 ((o - 0x10100) / 8) (o - o % 8) o n v
  else if 0x20000 ≤ o ∧ o < 0x21000 then s.clearChanged .sw ((o - 0x20000) / 0x40) (onesIn (o - o % 0x40) 4 o n v)
  else if 0x80000 ≤ o ∧ o < 0x88000 then s.writeVectors 0 0x80000 o n v
  else
    let s := if bit (onesIn 0x10000 4 o n v) 16 then s.onTeller fun t => { t with restarted := false } else s
    let s := if reaches 0x10008 4 o n then s.clearSwEvent (onesIn 0x10008 4 o n v) else s
    let s := if bit (onesIn 0x10010 4 o n v) 4 then s.onHost fun h => { h with late := false } else s
    if reaches 0x10020 4 o n then
      s.onHost fun h => { h with tc0Drop := BitVec.ofNat 32 (mergeReg 0x10020 4 h.tc0Drop.toNat o n v) &&& 0x3FFFFFFF#32 }
    else s

/-- A write of BAR0 of VF fn. -/
def State.writeVf (s : State) (fn o n v : Nat) : State :=
  if o < 0x4000 then s.mailboxHostWrite fn (o / 0x1000) (o % 0x1000) n v
  else if o < 0x4080 then s.writeAperture fn ((o - 0x4000) / 8) (o - o % 8) o n v
  else if 0x8000 ≤ o ∧ o < 0x8400 then s.writeVectors fn 0x8000 o n v
  else s

/-- A host write to BAR0 of a function: one that the device does not accept completes with Unsupported Request (18 R456). -/
def State.barWrite (s : State) (fn o n v : Nat) : State :=
  if !s.sw.sys.hostLink then s
  else
    let s := s.work 5 0
    if !alignedAccess o n then s.emit (.unsupported fn o) else if fn = 0 then s.writePf o n v else s.writeVf fn o n v

/-- A write through the sideband of the AKG-8 (24 R572). A STATIC register ignores a write while its block runs. -/
def State.sideWrite (s : State) (o n v : Nat) : State :=
  if s.ep.off || !alignedAccess o n then s
  else if 0x1000 ≤ o ∧ o < 0x1200 then
    let a := (o - 0x1000) / 8
    s.bindAgent a (BitVec.ofNat 64 (mergeReg (o - o % 8) 8 (s.ep.bound a).toNat o n v))
  else if 0x100 ≤ o ∧ o < 0x180 then s.clearChanged .ep ((o - 0x100) / 0x10) (onesIn (o - o % 0x10) 4 o n v)
  else
    let s := if reaches 4 4 o n then s.clearEpEvent (onesIn 4 4 o n v) else s
    let t := mergeReg 8 4 s.ep.cplTimeout.toNat o n v % 2 ^ 14
    let s := if reaches 8 4 o n ∧ 10 ≤ t ∧ t ≤ 10000 then s.onEp fun e => { e with cplTimeout := BitVec.ofNat 32 t } else s
    let z := bits (mergeReg 0x10 8 s.ep.exposed.toNat o n v) 21 22
    let s := if reaches 0x10 8 o n ∧ z ≤ 2097152 ∧ (s.livePorts .ep).isEmpty then s.onEp fun e => { e with exposed := BitVec.ofNat 64 (z * 2 ^ 21) } else s
    if bit (onesIn 0x18 4 o n v) 4 then s.onEp fun e => { e with late := false } else s

/-! ### Resets of the functions -/

/-- A committed command whose function is reset runs on apart from its mailbox, under a number that no mailbox has; its response is discarded. -/
def State.detach (s : State) (fn mb : Nat) : State :=
  let used := (s.sw.teller.active.filter fun a => a.fn == fn).map (·.mb)
  let new := (((List.range 64).map (16 + ·)).find? fun m => !(used.contains m)).getD 80
  let hit (c : Nat × Nat) : Nat × Nat := if c = (fn, mb) then (fn, new) else c
  s.onSw fun w => { w with
    teller := { w.teller with active := w.teller.active.map fun a => if a.fn == fn && a.mb == mb then { a with mb := new, dropped := true } else a }
    xlat := { w.xlat with inval := w.xlat.inval.map fun x => { x with cmd := x.cmd.map hit } }
    mgmt := { w.mgmt with relay := w.mgmt.relay.mapVals fun _ r => { r with cmd := r.cmd.map hit } }
    mem := { w.mem with home := { w.mem.home with jobs := w.mem.home.jobs.map fun j => if j.fn == fn && j.mb == mb then { j with mb := new } else j } } }

/-- A function-level reset (18 R453). -/
def State.functionReset (s : State) (fn : Nat) : State :=
  let s := s.each ((s.sw.teller.active.filter fun a => a.fn == fn && decide (a.mb < 16)).map (·.mb)) fun s mb => s.detach fn mb
  let s := s.onTeller fun t => { t with
    order := t.order.filter fun c => c.1 != fn
    mbox := t.mbox.mapVals fun k m => if k / 16 = fn then { m with own := false, rspHeader := 0, ledgerSeq := 0, rsp := [], lastSeq := 0 } else m }
  s.onHost fun h => { h with
    aperture := h.aperture.mapVals fun k a => if k / 64 = fn then a &&& ~~~1#64 else a
    unmasked := h.unmasked.filter fun k => k / 2048 != fn
    ops := h.ops.map fun o => if o.fn = fn then { o with owed := false } else o }

/-- PERST_N: the HOST link goes down and every function is reset (25 R579). -/
def State.perst (s : State) : State :=
  (s.each (List.range 16) fun s fn => s.functionReset fn).onSw fun w => { w with sys := { w.sys with perstN := false, hostLink := false } }

/-- The HOST link trains once the ROM has run: the PCIe controller is out of reset (25 R579, 19 R476; DESIGN CHOICE, log 27). -/
def Switch.romDone (w : Switch) : Bool :=
  match w.sys.phase with
  | .starting _ n => decide (5 < n)
  | .running => true
  | .romRecovery => true
  | .tripHold => true
  | _ => false

def State.perstRelease (s : State) : State :=
  (s.onSw fun w => { w with sys := { w.sys with perstN := true } }).trainHost s.sw.romDone

/-! ### Mirror records (06 R162 to R169, 18 R463, R464) -/

/-- Store a line of the partner: as ciphertext and check bytes. -/
def State.storeMirror (s : State) (r : MirrorRec) : State :=
  let s := s.onMem fun m => { m with cache := m.cache.filter fun c => c.line != r.line }
  s.onHome fun h => h.storeCipher r.line r.data r.check

/-- Store the records of a region that are next in order, the earliest first. -/
def State.storeInOrder (s : State) (g : Nat) : (fuel : Nat) → State
  | 0 => s
  | n + 1 =>
    match s.sw.mem.pair.find g with
    | none => s
    | some p =>
      match p.early.find? fun r => r.seq == p.stored + 1 with
      | none => s
      | some r =>
        let last := decide (r.line = g * 0x800000 + 0x7FFFFF) && p.state == .resilvering
        let p := { p with stored := p.stored + 1, early := p.early.filter (· != r), state := if last then .paired else p.state }
        ((s.storeMirror r).onMem fun m => { m with pair := m.pair.put g p }).storeInOrder g n

/-- A LINE record arrives at BAR4. One for a line on a fenced channel is stored and acknowledged like any other (DESIGN CHOICE, log 110). -/
def State.mirrorArrives (s : State) (rid : Nat) (r : MirrorRec) : State :=
  match s.sw.mem.pair.find r.region with
  | none => s.count 0 cMirrorRefused
  | some p =>
    if p.partner ≠ rid then s.count 0 cMirrorRefused
    else if p.primary || r.line / 0x800000 != r.region then s
    else
      let early := if p.stored < r.seq then r :: p.early.filter (fun x => x.seq != r.seq) else p.early
      let s := (s.onMem fun m => { m with pair := m.pair.put r.region { p with early := early } }).storeInOrder r.region early.length
      let seq := ((s.sw.mem.pair.find r.region).map (·.stored)).getD 0
      s.emit (.mirror p.partner { kind := 2, region := r.region, source := s.sw.sys.homeId, seq := seq })

/-- An ACK record: every LINE up to its SEQ is stored. -/
def State.mirrorAcked (s : State) (rid : Nat) (r : MirrorRec) : State :=
  match s.sw.mem.pair.find r.region with
  | none => s.count 0 cMirrorRefused
  | some p =>
    if p.partner ≠ rid then s.count 0 cMirrorRefused
    else (s.onMem fun m => { m with pair := m.pair.put r.region { p with unacked := p.unacked.filter fun q => decide (r.seq < q) } }).releaseHeld r.region r.seq

/-- No acknowledgement of a LINE record within 100 µs: the region goes on alone (06 R166, R169). -/
def State.mirrorLate (s : State) (g seq : Nat) : State :=
  match s.sw.mem.pair.find g with
  | none => s
  | some p =>
    if !(p.unacked.contains seq) then s
    else
      let last := p.unacked.foldl max 0
      let s := s.releaseHeld g last
      let s := s.onMem fun m => { m with pair := m.pair.upd g p fun p => { p with state := .single, unacked := [] } }
      s.record { kind := fPartnerLost, domain := 8 }

/-- A channel of the group of a 1 GiB region is fenced. -/
def Switch.groupFenced (w : Switch) (g : Nat) : Bool := (List.range 4).any fun c => (w.chan (4 * (g * 0x40000000 / 0x3C00000000) + c)).fenced

/-- One copy of a resilver (06 R167). A fenced channel of the region's group stops it, one that reading the line has fenced among them (R169). A line that is LOST in
itself is copied as it is stored: a record has no field for the mark (DESIGN CHOICE, log 112). -/
def State.resilver (s : State) (g : Nat) : State :=
  match s.sw.mem.pair.find g with
  | none => s
  | some p =>
    let l := g * 0x800000 + p.cursor
    let s := s.ifThen (p.primary && p.state == .resilvering && !s.sw.groupFenced g) (·.lineRead l)
    if !p.primary || p.state != .resilvering || s.sw.groupFenced g then s
    else
      let s := (s.mirrorLine l).2
      s.onMem fun m => { m with pair := m.pair.upd g p fun p =>
        { p with cursor := p.cursor + 1, state := if p.cursor + 1 = 0x800000 then .paired else p.state } }

/-! ### Sideband (18 R466, R467) -/

/-- What a PLDM request is answered. Temperatures, currents and the input are readings of the part (free values, log 5). -/
def State.pldm (s : State) (item : PldmItem) : State :=
  if s.sw.teller.state ≠ 0 then s.emit .i3cNak
  else match item with
    | .temperature _ | .current _ | .input => let r := s.free; r.2.emit (.pldm item r.1)
    | .power =>
      let avg := s.sw.power.average
      s.emit (.pldm item (if s.sw.sys.strongroom then avg / 4 * 4 else avg))
    | .pace => s.emit (.pldm item (if s.sw.sys.strongroom then 0 else s.sw.power.p))
    | .domain k i => s.emit (.pldm item (s.sw.domain k i).state)
    | .events => s.emit (.pldm item (s.sw.tally.nextSeq - 1))

/-! ### Meanings of the host rows -/

/-- REGISTER_WRITE: a register without behaviour of its own, of BAR0 or of the sideband (18 R456, 24 R572). -/
def execRegisterWrite (d : Dev) (fn off size : Nat) (val : BitVec 64) (s : State) : Host.Outcome State Fault Refusal :=
  .next (match d with
    | .sw => s.barWrite fn off size val.toNat
    | .ep => s.sideWrite off size val.toNat)

/-- SW_EVENT_CLEAR (18 R457). -/
def execSwEventClear (val : BitVec 32) (s : State) : Host.Outcome State Fault Refusal :=
  .next (if s.sw.sys.hostLink then s.clearSwEvent val.toNat else s)

/-- EP_EVENT_CLEAR (24 R572). -/
def execEpEventClear (val : BitVec 32) (s : State) : Host.Outcome State Fault Refusal := .next (if s.ep.off then s else s.clearEpEvent val.toNat)

/-- HOST_WINDOW_READ (18 R458 to R462): work for PCIe. -/
def execHostWindowRead (fn ctag addr len : Nat) (s : State) : Host.Outcome State Fault Refusal :=
  .next (if s.sw.sys.hostLink then (s.work 5 0).hostAccess fn (some ctag) addr len [] else s)

/-- HOST_WINDOW_WRITE (18 R458 to R461). -/
def execHostWindowWrite (fn addr : Nat) (data : List Byte) (s : State) : Host.Outcome State Fault Refusal :=
  .next (if s.sw.sys.hostLink then (s.work 5 0).hostAccess fn none addr data.length data else s)

/-- MIRROR_LINE (18 R463, R464). -/
def execMirrorLine (rid : Nat) (r : MirrorRec) (s : State) : Host.Outcome State Fault Refusal :=
  .next (if s.sw.sys.hostLink then (s.work 5 0).mirrorArrives rid r else s)

/-- MIRROR_ACK (18 R464). -/
def execMirrorAck (rid : Nat) (r : MirrorRec) (s : State) : Host.Outcome State Fault Refusal :=
  .next (if s.sw.sys.hostLink then (s.work 5 0).mirrorAcked rid r else s)

/-- FUNCTION_LEVEL_RESET (18 R453). -/
def execFunctionLevelReset (fn : Nat) (s : State) : Host.Outcome State Fault Refusal :=
  .next (if s.sw.sys.hostLink then s.functionReset fn else s)

/-- PERST_N falls (25 R579). -/
def execPerstNAssert (s : State) : Host.Outcome State Fault Refusal := .next s.perst

/-- PERST_N rises (25 R579). -/
def execPerstNRelease (s : State) : Host.Outcome State Fault Refusal := .next s.perstRelease

/-- PLDM_REQUEST (18 R466, R467). -/
def execPldmRequest (item : PldmItem) (s : State) : Host.Outcome State Fault Refusal := .next (s.pldm item)

/-- MIRROR_ACK_TIMEOUT (06 R166). -/
def execMirrorAckTimeout (region seq : Nat) (s : State) : Host.Outcome State Fault Refusal := .next (s.mirrorLate region seq)

/-- RESILVER_COPY (06 R167). -/
def execResilverCopy (region : Nat) (s : State) : Host.Outcome State Fault Refusal := .next (s.resilver region)

end Sys2Proof.Machine
end

