-- ==== Sys2Proof/Machine/Retire.lean ====
section
/-!
DEFINITION. Retiring key slots and releasing what a partition held (21 R505 to R513), and the Teller-only restart (16 R428, R429; 01 R20).
-/

namespace Sys2Proof.Machine

/-! ### The retirement point (21 R505) -/

/-- Requests that the Clearing units hold: in progress, in a retry queue, or on an internal output list. -/
def Switch.heldRequests (w : Switch) : List Frame :=
  let busy := w.mem.unit.flatMap fun u => (u.2.busy.filter fun b => b.stage != .ack && b.stage != .free).map (·.f)
  let retry := w.mem.unit.flatMap fun u => u.2.retry.map (·.f)
  let unitKey (k : Nat) : Bool := decide (64 ≤ k ∧ k < 80)
  let listed := (w.core.queue.filter fun e => unitKey (e.1 / 16)).flatMap fun e => e.2.map (·.f)
  let drawn := (w.core.inbox.filter fun e => unitKey e.1).flatMap fun e => e.2.map (·.f)
  (busy ++ retry ++ listed ++ drawn).filter fun f => isMemReq f.typ

/-- Retire slot k: removal when PART_REMOVE names its partition. -/
def State.beginRetire (s : State) (k : Nat) (removal : Bool) : State :=
  let v := s.sw.getSlot k
  let counted := (s.sw.heldRequests.filter fun f => f.keySlot == k && inPool f.offset 1).map reqKey
  let lines := s.sw.dirLines fun e => e.keySlot == k
  let s := s.putSlot k { v with state := .retiring, counted := counted, lines := lines, refused := 0, fencedAgents := 0, timedOut := false }
  let s := s.each s.sw.edgesUp fun s p => s.relayEp p mSlotClose (leBytes 1 k ++ leBytes 1 v.partition ++ leBytes 1 (b2n removal)) none
  (s.cancelPartition v.partition).takeBackDue

/-! ### Release of a partition (21 R511) -/

/-- Drop what an engine holds of translations. -/
def State.dropEngineXlat (s : State) (e : Nat) : State := s.onXlat fun x => { x with l1 := x.l1.del e }

/-- Zero the scratch steps of an engine (09 R226). -/
def State.zeroScratch (s : State) (e : Nat) : State :=
  s.each (List.range 4) fun s i => if bit (s.sw.mem.mask.get e 0) i then s.onHome fun h => h.zeroStep (4 * e + i) else s

/-- An engine changes its owner; 0xFF: none. -/
def State.giveEngine (s : State) (e owner : Nat) : State :=
  let s := ((s.zeroScratch e).dropEngineXlat e).onEscrow fun x => { x with badWrite := x.badWrite.del e }
  s.onSw fun w => { w with sys := { w.sys with cfg := { w.sys.cfg with
    engineOwner := if owner = 0xFF then w.sys.cfg.engineOwner.del e else w.sys.cfg.engineOwner.put e owner } } }

/-- A 1 GiB pool range changes its owner. -/
def State.givePool (s : State) (g owner : Nat) : State :=
  s.onSw fun w => { w with sys := { w.sys with cfg := { w.sys.cfg with
    poolOwner := if owner = 0xFF then w.sys.cfg.poolOwner.del g else w.sys.cfg.poolOwner.put g owner } } }

/-- Sum of the collective quotas of all partitions but p (13 R335), MiB. -/
def Switch.otherQuotas (w : Switch) (p : Nat) : Nat :=
  (List.range 16).foldl (fun n i => if i = p then n else n + (w.getPart i).collQuota) 0

/-- Release what a partition held, once its slots are all ZEROED: it is NONE. -/
def State.releasePartition (s : State) (p : Nat) : State :=
  let engines := engines48.filter fun e => s.sw.engineOwner e == p
  let s := s.each engines fun s e => (s.stopEngine e).giveEngine e 0xFF
  let ranges := (List.range 1440).filter fun g => s.sw.poolOwner g == p
  let s := s.each ranges fun s g => s.givePool g 0xFF
  let free (i : Nat) (r : Region) : Region := if ranges.contains (i / 512) then { r with mode := mDirect, owner := 0x3FF, handover := false } else r
  let s := s.onHome fun h => { h with region := (h.region.mapVals free).filter fun r => r.2 != {} }
  let s := s.onEscrow fun e => { e with mbox := e.mbox.filter fun m => m.2.partition != p }
  let s := s.onSw fun w => { w with power := { w.power with dom := w.power.dom.mapVals fun _ d => { d with votes := d.votes.del p } } }
  let s := s.putPart p { collQuota := min 6 (96 - s.sw.otherQuotas p) }
  s.revoteAll

/-! ### The end of retirement (21 R509) -/

/-- Response of KEY_RETIRE and PART_REMOVE: agents fenced and frames refused, over some slots. -/
def Switch.retireRsp (w : Switch) (ks : List Nat) : List Byte :=
  let sum (g : KeySlot → Nat) : Nat := ks.foldl (fun n k => n + g (w.getSlot k)) 0
  leBytes 2 (sum (·.fencedAgents)) ++ leBytes 2 0 ++ leBytes 4 (sum (·.refused))

/-- What a command that waits for slots does when they are all ZEROED. -/
def State.retireCheck (s : State) : State :=
  s.each s.sw.teller.active fun s a =>
    if a.result.isSome ∨ ¬(a.data.all fun k => (s.sw.getSlot k).state == .zeroed) then s
    else if a.work = .retire then s.finishWork a.fn a.mb mbOk (s.sw.retireRsp a.data)
    else if a.work = .remove then
      match a.holds.findSome? fun o => match o with | .partition p => some p | _ => none with
      | some p => (s.releasePartition p).finishWork a.fn a.mb mbOk (s.sw.retireRsp a.data)
      | none => s
    else s

/-- Erase slot k: the pool cache drops its lines first; a Ledger entry follows. -/
def State.zeroise (s : State) (k : Nat) : State :=
  let s := s.onMem fun m => m.flushCache fun c => c.slot == k
  let v := s.sw.getSlot k
  let s := s.putSlot k { refused := v.refused, fencedAgents := v.fencedAgents }
  let s := s.ledgerAdd 0 (s.mkEntry 0x04 0 s.sw.sys.homeId (leBytes 1 k ++ leBytes 1 0 ++ leBytes 2 v.fencedAgents ++ leBytes 4 v.refused))
  s.retireCheck

/-- The count of slot k is zero, and the Ledger takes the entry of its erasure (21 R509, 22 R531). -/
def State.retireDone (s : State) (k : Nat) : State :=
  let v := s.sw.getSlot k
  if v.state = .retiring ∧ v.counted = [] ∧ v.lines = [] ∧ s.sw.takesKept 0 then s.zeroise k else s

/-- Take a counted request out of where a Clearing unit holds it. -/
def State.dropHeld (s : State) (f : Frame) : State :=
  let s := s.onMem fun m => { m with unit := m.unit.mapVals fun _ u =>
    { u with retry := u.retry.filter fun x => x.f != f, busy := u.busy.filter fun b => !(b.f == f && b.stage != .ack && b.stage != .free) } }
  s.onSw fun w => { w with core := { w.core with
    queue := w.core.queue.mapVals fun k l => if 64 ≤ k / 16 ∧ k / 16 < 80 then l.filter fun b => b.f != f else l
    inbox := w.core.inbox.mapVals fun k l => if 64 ≤ k ∧ k < 80 then l.filter fun b => b.f != f else l } }

/-- The action at TIMEOUT: counted requests complete with FENCED, their agents are fenced, entries that await an answer lose their holders. -/
def State.retireForce (s : State) (k : Nat) : State :=
  let v := s.sw.getSlot k
  let reqs := s.sw.heldRequests.filter fun f => v.counted.contains (reqKey f) && f.keySlot == k
  let agents := ((v.counted.map fun r => (r.1, r.2.1)).filter fun a => isEpId a.1).dedup
  let s := s.each reqs fun s f => (s.dropHeld f).homeRespond f stFenced [] 0
  let s := s.each agents fun s a => s.fenceAgent a.1 a.2
  let s := s.each v.lines fun s l => match s.sw.entry l with
    | none => s
    | some e => (s.each e.holders fun s h => (match s.sw.busy l with | some b => s.loseBusy h b | none => s).loseEntry h l).advance l
  let s := s.putSlot k { s.sw.getSlot k with counted := [], lines := [], fencedAgents := agents.length }
  s.retireDone k

/-- TIMEOUT of a retirement passes; one that falls during a Teller-only restart is acted on when that ends (21 R510). -/
def State.retireTimeout (s : State) (k : Nat) : State :=
  let v := s.sw.getSlot k
  if v.state ≠ .retiring then s
  else if s.sw.teller.state = 1 then s.putSlot k { v with timedOut := true }
  else s.retireForce k

/-! ### Teller-only restart -/

/-- A Teller-only restart begins. -/
def State.tellerRestart (s : State) : State :=
  if s.sw.teller.state ≠ 0 then s
  else s.onSw fun w => { w with teller := { w.teller with state := 1, restarts := min 255 (w.teller.restarts + 1) } }

/-- The image of a slot of flash. -/
def Sys.image (y : Sys) (slot : Nat) : Option Image := if slot = 0 then y.flash.slotA else y.flash.slotB

/-- A new image runs: a Ledger entry, and fuses advanced where BURN was set (19 R477, R478; 17 R432). -/
def State.imageRuns (s : State) (slot : Nat) (burn : Bool) : State :=
  match s.sw.sys.image slot with
  | none => s
  | some i =>
    let s := s.onSw fun w => { w with sys := { w.sys with runSlot := slot, fuseSteps := if burn then max w.sys.fuseSteps i.step else w.sys.fuseSteps } }
    s.ledgerAdd 0 (s.mkEntry 0x05 0 s.sw.sys.homeId (leBytes 1 slot ++ leBytes 1 s.sw.sys.fuseSteps ++ leBytes 6 0 ++ digestBytes i.digest))

/-- Commands that the end of a restart completes: DEV_RESET of the Teller and FW_ACTIVATE with MODE 0 (17 R435, R446). -/
def State.restartCommands (s : State) : State :=
  s.each s.sw.teller.active fun s a =>
    match a.work with
    | .reset => if a.holds.contains .teller then s.finishWork a.fn a.mb mbOk [] else s
    | .activate 0 burn slot => if a.data.contains 1 then (s.imageRuns slot (burn == 1)).finishWork a.fn a.mb mbOk [] else s
    | _ => s

/-- The Teller runs in this phase, the trip hold among them (16 R428, 20 R498). -/
def Phase.serves : Phase → Bool
  | .running => true
  | .tripHold => true
  | _ => false

/-- A Teller-only restart ends: a START entry for every chain, the seals, verdicts and timeouts that waited, and RESTARTED. -/
def State.tellerBack (s : State) : State :=
  if s.sw.teller.state ≠ 1 ∨ !s.sw.sys.phase.serves ∨ !s.sw.startsFit then s
  else
    let held := s.sw.teller.heldVerdicts
    let owed := s.sw.teller.owedVerdicts
    let s := s.onSw fun w => { w with
      teller := { w.teller with state := 0, restarted := true, heldVerdicts := [], owedVerdicts := [] }
      mgmt := { w.mgmt with rec_ := w.mgmt.rec_.mapVals fun _ r => { r with misses := 0 } } }
    let s := s.restartCommands
    let s := s.each (s.sw.ledger.map Prod.fst) fun s p => s.ledgerAdd p (s.mkEntry 0x01 0 s.sw.sys.homeId (startBody s.sw.sys 2))
    let s := s.each (s.sw.ledger.map Prod.fst) fun s p => if (s.sw.getLedger p).sealDue then s.ledgerSeal p else s
    let s := s.each held fun s f => s.applyVerdict (field f.data 0 2) (field f.data 2 1) (field f.data 4 1) none
    let s := s.each owed fun s v => s.giveVerdict v.1 v.2
    let s := s.each slots32 fun s k => if (s.sw.getSlot k).timedOut then s.retireForce k else s
    (s.regionGone).setEvent evTeller

/-- 500 ms have passed: the restart is tried again, and the third failure within 10 s halts the Teller. -/
def State.tellerFails (s : State) : State :=
  if s.sw.teller.state ≠ 1 ∨ !s.sw.sys.phase.serves then s
  else
    let now := s.now .sw
    let fails := now :: s.sw.teller.fails.filter fun t => decide (now < t + 10 * tSec)
    let halt := decide (3 ≤ fails.length)
    let s := s.onSw fun w => { w with teller := { w.teller with fails := fails, state := if halt then 2 else 1,
                                                                 restarts := if halt then w.teller.restarts else min 255 (w.teller.restarts + 1) } }
    if halt then (s.setEvent evTeller).refreshAlert else s

end Sys2Proof.Machine
end

