-- ==== Sys2Proof/Machine/Starts.lean ====
section
/-!
DEFINITION. Starts of the module and of the AKG-8 (19 R468 to R483; 24 R574; 25 R580, R583; 23 R556), and the meanings of their rows.
-/

namespace Sys2Proof.Machine

def State.onSys (s : State) (g : Sys → Sys) : State := s.onSw fun w => { w with sys := g w.sys }

/-! ### Work before a start (19 R480) -/

/-- Take the work of R480 up: no frame is admitted any more. -/
def State.preStart (s : State) (k : StartKind) (thenOff : Bool) : State :=
  let s := s.each ports64 fun s p => if (s.sw.getLink p).state = .down then s else s.leavePort p .down 0
  s.onSys fun y => { y with phase := .preStart k thenOff, hostLink := false }

/-- The pool cache and Ledger staging are written back. -/
def State.writeAllBack (s : State) : State :=
  let s := s.onMem fun m => m.flushCache fun _ => true
  s.each (s.sw.ledger.map Prod.fst) State.flushLedger

/-! ### Beginning a start (19 R479, R481, R483) -/

/-- What a cold start leaves: identity, fuses, flash, pins, and the record of pages to repair (06 R158; DEDUCED, log 28). -/
def Switch.coldStart (w : Switch) : Switch :=
  let y := w.sys
  { sys := { serial := y.serial, fused := y.fused, fuseSteps := y.fuseSteps, flash := y.flash, rstN := y.rstN, perstN := y.perstN,
             busMaster := y.busMaster, pwrbrk := y.pwrbrk, alert := y.alert, burn := y.burn, noCable := y.noCable, noPower := y.noPower,
             phase := .starting .cold 1 }
    vault := { kemGen := w.vault.kemGen }
    mem := { chan := w.mem.chan.mapVals fun _ c => { c with fenced := false, resetting := false, pageErrors := [] } } }

/-- A task table of engines that run nothing; fences stay. -/
def Engine.idle (e : Engine) : Engine := { fenced := e.fenced }

/-- What a warm start keeps (19 R483). The rotating pointers of the Clearing units, which the spec states for a cold start only (05 R125), return to 0
(DESIGN CHOICE, log 88). -/
def Switch.warmStart (w : Switch) : Switch :=
  let y := w.sys
  { w with
    sys := { y with phase := .starting .warm 4, hostLink := false, fallback := false, configDefault := false, alertRec := false, managerLost := false }
    teller := {}
    host := {}
    inputWait := []
    xlat := { nextRead := w.xlat.nextRead }
    core := { retiredCells := w.core.retiredCells }
    sched := {}
    clock := { now := w.clock.now }
    link := w.link.mapVals fun _ l => { stored := l.stored, steps := l.steps, corrected := l.corrected }
    mem := { w.mem with
      cache := [], drainOld := none, drainMask := none, order := []
      home := { w.mem.home with jobs := [] }
      unit := w.mem.unit.mapVals fun _ u => { dir := u.dir }
      chan := w.mem.chan.mapVals fun _ c => { c with resetting := false }
      pair := w.mem.pair.mapVals fun _ p => { p with unacked := [], held := [], early := [] } }
    escrow := { mbox := w.escrow.mbox.mapVals (fun _ m => { partition := m.partition }), engine := w.escrow.engine.mapVals fun _ e => e.idle }
    synd := w.synd.mapVals fun _ y => { y with closed := (y.epochs.map (·.number)).reverse ++ y.closed, epochs := [] }
    mgmt := { rec_ := w.mgmt.rec_.mapVals fun _ r => { inc := r.inc, verdict := r.verdict } }
    power := {} }

/-- The start sequence begins. A flash write that it interrupts leaves its area invalid (19 R472). -/
def State.beginStart (s : State) (k : StartKind) : State :=
  ((match k with
    | .cold => s.onSw Switch.coldStart
    | .warm => s.onSw Switch.warmStart).onSys fun y => { y with flash := { y.flash with writing := none } }).refreshAlert

/-! ### The steps (19 R481) -/

/-- The book the loader uses (19 R470). -/
def Flash.best (f : Flash) : Option Book :=
  match f.bookA, f.bookB with
  | some a, some b => if a.seq ≥ b.seq then some a else some b
  | some a, none => some a
  | none, b => b

/-- Step 4 of a cold start: the Vault. -/
def State.vaultStart (s : State) : State :=
  let a := s.free
  let b := a.2.free
  b.2.onSw fun w => { w with
    sys := { w.sys with bootId := b.1 % 2 ^ 64, assayCount := 0, strongroom := w.sys.fused, admitted := false }
    vault := { w.vault with slot := w.vault.slot.put 0 { state := .active, key := BitVec.ofNat 256 a.1 }, kemGen := w.vault.kemGen + 1 } }

/-- The ROM accepts an image (19 R476). -/
def Sys.accepts (y : Sys) (slot : Nat) : Bool := (y.image slot).any fun i => decide (y.fuseSteps ≤ i.step)

/-- Step 5: the ROM. The HOST link trains. -/
def State.romStart (s : State) (k : StartKind) : State :=
  let y := s.sw.sys
  let want := (y.flash.best.map (·.vals.runSlot)).getD 0
  let s := s.trainHost y.perstN
  if y.accepts want then s.onSys fun y => { y with runSlot := want, fallback := false, phase := .starting k 6 }
  else if y.accepts (1 - want) then
    (s.onSys fun y => { y with runSlot := 1 - want, fallback := true, burn := none, phase := .starting k 6 }).record { kind := fImageFallback, domain := 8 }
  else (s.onSys fun y => { y with burn := none, phase := .romRecovery }).refreshAlert

/-- Step 6: the config book and the calibration set. -/
def State.loadBook (s : State) : State :=
  let b := s.sw.sys.flash.best
  let v := (b.map (·.vals)).getD {}
  let s := s.onSys fun y => { y with cfg := v, loadedBook := b, configDefault := b.isNone, mode := v.mode, racks := v.racks, rack := v.rack, plane := v.plane }
  let s := if b.isNone then s.record { kind := fConfigDefault, domain := 8 } else s
  if s.sw.sys.flash.calValid then s else s.record { kind := fCalInvalid, domain := 8 }

/-- Step 7: the Teller boots with empty tables, and near-store steps are as the book has them. A cold start begins partition 0's chain (22 R525). -/
def State.tellerBoot (s : State) (k : StartKind) : State :=
  let drop := (List.range 192).filter fun t => s.sw.stepIsScratch t && !bit (s.sw.sys.cfg.stepMask.get (t / 4) 0) (t % 4)
  let s := s.each drop fun s t => s.onHome fun h => h.zeroStep t
  let s := s.onMem fun m => { m with mask := s.sw.sys.cfg.stepMask }
  match k with
  | .cold => s.ledgerBegin 0 3 none
  | .warm => s

/-- Step 9: post-package repair of the candidates of one channel (06 R158, R159). unrepaired: channel * 2^24 + page. PPR_DONE is
recorded once for a channel (DESIGN CHOICE, log 111). -/
def State.repair (s : State) (c : Nat) (unrepaired : List Nat) : State :=
  let ch := s.sw.chan c
  let stays (p : Nat) : Bool := unrepaired.contains (c * 2 ^ 24 + p)
  let done := ch.candidates.filter fun p => !stays p
  let ch := { ch with retired := ch.retired.filter (fun p => !done.contains p), candidates := [],
                      permanent := ch.permanent + (ch.candidates.filter stays).length }
  let s := s.onMem fun m => { m with chan := m.chan.put c ch }
  let s := if done.isEmpty then s else s.record { kind := fPprDone, domain := 4, index := c }
  if s.sw.sys.cfg.retireLimit.get c 8192 < ch.permanent then s.fenceChannel c else s

/-- The end of step 10: the link ports train, and the Teller takes commands (DESIGN CHOICE, log 29). A warm start ends with its Ledger entries and
the removals that it cut short (22 R526, 21 R500). -/
def State.startDone (s : State) (k : StartKind) : State :=
  let s := s.onSw fun w => { w with sys := { w.sys with phase := .running }, teller := { w.teller with state := 0 } }
  let s := match k with
    | .cold => s
    | .warm => s.each (s.sw.ledger.map Prod.fst) fun s p => s.ledgerAdd p (s.mkEntry 0x01 0 s.sw.sys.homeId (startBody s.sw.sys 1))
  let s := match s.sw.sys.burn with
    | some n => (s.onSys fun y => { y with burn := none, fuseSteps := max y.fuseSteps n }).imageRuns s.sw.sys.runSlot false
    | none => s
  let s := s.each (slots32.filter fun k => (s.sw.getSlot k).state == .retiring) fun s k =>
    (s.putSlot k { s.sw.getSlot k with counted := [] }).retireForce k
  let s := s.each tenants fun s p =>
    if (s.sw.getPart p).state = .closing ∧ slots32.all (fun k => (s.sw.getSlot k).partition != p || (s.sw.getSlot k).state == .zeroed) then s.releasePartition p else s
  s.each ports64 fun s p => s.retrain p

/-- A step signals ready and the next one begins. -/
def State.stepReady (s : State) (failed unrepaired : List Nat) : State :=
  match s.sw.sys.phase with
  | .starting k n =>
    let next (s : State) : State := s.onSys fun y => { y with phase := .starting k (n + 1) }
    match n with
    | 4 => next (match k with | .cold => s.vaultStart | .warm => s)
    | 5 => s.romStart k
    | 6 => next s.loadBook
    | 7 =>
      let s := s.tellerBoot k
      next (if s.sw.sys.pwrbrk then s.brakeNow else s)
    | 8 => next (s.each (failed.filter fun c => decide (c < 24)) fun s c => s.fenceChannel c)
    | 9 =>
      let s := s.each (List.range 24) fun s c => if (s.sw.chan c).fenced then s else s.repair c unrepaired
      match k with
      | .cold => next s
      | .warm => if s.sw.startsFit then s.startDone .warm else s
    | 10 => s.startDone k
    | _ => next s
  | _ => s

/-! ### RST_N and the input -/

/-- A start is refused by a trip or by a low input in progress (25 R583). -/
def Phase.deaf : Phase → Bool
  | .tripHold => true
  | .off => true
  | .preStart _ thenOff => thenOff
  | _ => false

/-- RST_N falls; WARM_SEL is sampled. -/
def State.rstFall (s : State) (warm : Bool) : State :=
  if s.sw.sys.phase.deaf then s
  else (s.onSys fun y => { y with rstN := false }).preStart (if warm then .warm else .cold) false

/-- RST_N rises: the start begins once the work of R480 has ended as well. -/
def State.rstRise (s : State) : State :=
  if s.sw.sys.rstN then s
  else
    let s := s.onSys fun y => { y with rstN := true }
    match s.sw.sys.phase with
    | .heldReset k => s.beginStart k
    | _ => s

/-- The work of R480 ends: the start begins, or RST_N is awaited, or the regulators turn off. -/
def State.preDone (s : State) : State :=
  match s.sw.sys.phase with
  | .preStart k off =>
    let s := s.writeAllBack
    let s := s.ifThen (k == .warm) State.selfRefresh
    if off then s.turnOff
    else if s.sw.sys.rstN then s.beginStart k
    else s.onSys fun y => { y with phase := .heldReset k }
  | _ => s

/-- The input falls below 40 V for 50 µs (23 R556). -/
def State.inputLow (s : State) : State :=
  if s.sw.sys.phase = .off then s
  else match s.sw.sys.phase with
    | .preStart _ true => s
    | _ => (s.record { kind := fInputLow, domain := 8 }).preStart .cold true

/-- The input rises above 60 V: recorded as INPUT_LOW, and the regulators turn off (25 R580). -/
def State.inputHigh (s : State) : State := if s.sw.sys.phase = .off then s else (s.record { kind := fInputLow, domain := 8 }).turnOff

/-! ### The AKG-8 (24 R574) -/

/-- The AKG-8 after a start. A warm start keeps its stored equalisation, and what a warm start of the module keeps: region table, Syndicate
membership, Strongroom (DEDUCED, log 30); every fence of its ports ends and every slot opens (21 R508, 23 R544). -/
def EndPoint.started (e : EndPoint) (warm : Bool) : EndPoint :=
  let clean : EndPoint := { serial := e.serial, kgs := e.kgs, ucie := e.ucie, clock := { now := e.clock.now }, thermTrip := false }
  if warm then
    { clean with strongroom := e.strongroom, exposed := e.exposed, cplTimeout := e.cplTimeout, tHold := e.tHold, ceil := e.ceil
                 debug := !(e.strongroom || e.kgs)
                 home := { region := e.home.region }
                 ranks := e.ranks
                 link := e.link.mapVals fun _ l => { stored := l.stored, steps := l.steps, corrected := l.corrected } }
  else { clean with debug := !e.kgs }

/-- EP_RST_N: the AKG-8 starts, and its ports enter DETECT. -/
def State.epStart (s : State) (warm : Bool) : State :=
  let s := (s.onEp fun e => { e.started (warm && !e.off) with alert := e.alert }).epAlert
  s.each (List.range 8) fun s p =>
    let s := s.onLink .ep p fun l => { l with state := .detect }
    if s.ep.ucie.isEmpty then s else s.emit (.tickClock .ep p)

/-! ### The rows -/

/-- POWER_UP: a cold start (19 R479). -/
def execPowerUp (s : State) : Host.Outcome State Fault Refusal := .next (if s.sw.sys.phase = .off then s.beginStart .cold else s)

/-- RST_N_FALL (19 R479, R480). -/
def execRstNFall (warmSel : Bool) (s : State) : Host.Outcome State Fault Refusal := .next (s.rstFall warmSel)

/-- RST_N_RISE (19 R480, R481). -/
def execRstNRise (s : State) : Host.Outcome State Fault Refusal := .next s.rstRise

/-- START_STEP_READY (19 R481). -/
def execStartStepReady (failed unrepaired : List Nat) (s : State) : Host.Outcome State Fault Refusal := .next (s.stepReady failed unrepaired)

/-- PRE_START_WORK_DONE (19 R480). -/
def execPreStartWorkDone (s : State) : Host.Outcome State Fault Refusal := .next s.preDone

/-- INPUT_LOW (23 R556). -/
def execInputLow (s : State) : Host.Outcome State Fault Refusal := .next s.inputLow

/-- INPUT_OVERVOLTAGE (25 R580). -/
def execInputOvervoltage (s : State) : Host.Outcome State Fault Refusal := .next s.inputHigh

/-- EP_RST_N (24 R574). -/
def execEpRstN (warm : Bool) (s : State) : Host.Outcome State Fault Refusal := .next (s.epStart warm)

end Sys2Proof.Machine
end

