-- ==== Sys2Proof/Machine/Teller.lean ====
section
/-!
DEFINITION. How the Teller takes a mailbox command: the checks of R420 in order, VERIFY, the commit point, the Ledger entry and the response
(16 R412 to R428; 17 R430 to R434; 22 R526, R531; 23 R554).
-/

namespace Sys2Proof.Machine

/-- A command as it stands in a mailbox. -/
structure Cmd where
  fn : Nat
  mb : Nat
  seq : Nat
  op : Nat
  verify : Bool
  body : List Byte

/-- The n bytes of the payload at mailbox offset o, as a number and as bytes. -/
def Cmd.num (c : Cmd) (o n : Nat) : Nat := field c.body (o - 0x80) n
def Cmd.bytes (c : Cmd) (o n : Nat) : List Byte := slice c.body (o - 0x80) n

/-- What a command's commit leaves: a response now, or work that holds objects. -/
inductive Done where
  | now (rsp : List Byte)
  | later (work : Work) (holds : List Obj) (data : List Nat)

/-- One command of the index (17 Command index): its opcode and layout, its checks in the order of R420, and its effect. -/
structure Form where
  opcode : Nat
  len : Nat
  /-- a VF may issue it -/
  vf : Bool := false
  /-- a VF names another partition's object -/
  foreign : Cmd → State → Bool := fun _ _ => false
  /-- offset of each field that may be out of range, and whether it is -/
  range : Cmd → State → List (Nat × Bool) := fun _ _ => []
  fenced : Cmd → State → Bool := fun _ _ => false
  /-- it needs a measured element or a block that is changing -/
  transition : Cmd → State → Bool := fun _ _ => false
  /-- the block of a STATIC setting runs -/
  running : Cmd → State → Bool := fun _ _ => false
  /-- the objects it names -/
  names : Cmd → State → List Obj := fun _ _ => []
  busy : Cmd → State → Bool := fun _ _ => false
  /-- the catalogue's own checks in order: whether it applies, its status and DETAIL -/
  own : Cmd → State → List (Bool × Nat × Nat) := fun _ _ => []
  /-- activation point for the Ledger entry -/
  point : Cmd → State → List Byte := fun _ _ => []
  /-- its Ledger entry is written when its work has found its status -/
  late : Bool := false
  /-- the status under VERIFY of a command that every check above lets through -/
  verify : Cmd → State → Nat := fun _ _ => mbOk
  commit : Cmd → State → Done × State
  /-- the work that begins once the command is on the list of those not complete -/
  start : Cmd → State → State := fun _ s => s

/-! ### Held objects (16 R421) -/

def rangesMeet (a n b m : Nat) : Bool := decide (a < b + m) && decide (b < a + n)

/-- Two names of objects that have an object in common. -/
def Obj.meets : Obj → Obj → Bool
  | .regions h a n, .regions k b m => h == k && rangesMeet a n b m
  | .pool a n, .pool b m => rangesMeet a n b m
  | .mailboxes a n, .mailboxes b m => rangesMeet a n b m
  | .engine e, .core k => e / 8 == k
  | .core k, .engine e => e / 8 == k
  | a, b => a == b

/-- Some command works on an object named; a partial reset is such work (19 R484). -/
def Switch.heldBy (w : Switch) (l : List Obj) : Bool :=
  w.teller.active.any fun a => a.holds.any fun o => l.any fun n => o.meets n

/-! ### Commands refused by what the module is doing -/

/-- Commands performed while the rack manager is lost (23 R554). -/
def managerLess : List Nat :=
  [0x0101, 0x0812, 0x0703, 0x0C04, 0x0D01, 0x0D10, 0x0D20, 0x0B02, 0x0B03, 0x0A20, 0x0E01, 0x0402, 0x0A03, 0x0302, 0x0912, 0x0612, 0x0B10]

/-- Commands that PF0 takes in the trip hold (20 R498). -/
def tripTaken : List Nat := [0x0101, 0x0C04, 0x0D10, 0x0B02]

/-- Reserved bytes among the fields of a layout, up to the end of an area: offset and size of each gap. -/
def gaps (end_ : Nat) : (at_ : Nat) → List (Nat × Nat) → List (Nat × Nat)
  | a, [] => if a < end_ then [(a, end_ - a)] else []
  | a, (o, n) :: t => (if a < o then [(a, o - a)] else []) ++ gaps end_ (o + n) t

/-- The reserved areas of a mailbox below the response (16 R413), those of the request that the command's layout leaves among them (17 R430). -/
def reservedAreas (op : Nat) : List (Nat × Nat) := (4, 60) :: (0x48, 56) :: gaps 0x800 0x80 ((requestOf op).getD [])

/-- Mailbox offset of the first offending field (16 R416, R420). header: the command header. -/
def Form.badField (k : Form) (c : Cmd) (s : State) (header : Nat) : Option Nat :=
  let m := s.sw.mailbox c.fn c.mb
  let head := [(0x42, decide (bits header 17 15 ≠ 0)), (0x46, decide (bits header 48 16 ≠ 0))]
  let res := (reservedAreas k.opcode).map fun g => (g.1, m.payload.any fun x => decide (g.1 ≤ x.1 ∧ x.1 < g.1 + g.2) && x.2 != 0)
  let bad := ((head ++ res ++ k.range c s).filter (·.2)).map (·.1)
  bad.foldl (fun m o => match m with | none => some o | some x => some (min x o)) none

/-- The first status that refuses a command (16 R420), with its DETAIL. -/
def Form.refusal (k : Form) (c : Cmd) (s : State) (header : Nat) : Option (Nat × Nat) :=
  let w := s.sw
  let part := (w.getPart c.fn).state
  let romOk := k.opcode == 0x0101 || k.opcode == 0x0F01 || (k.opcode == 0x0F02 && c.num 0x81 1 == 1)
  if w.sys.phase = .romRecovery ∧ !romOk then some (mbBadOpcode, 0)
  else if bits header 32 16 ≠ k.len then some (mbBadLength, 0x44)
  else if c.fn ≠ 0 ∧ (!k.vf || (part == .none && k.opcode != 0x0101) || part == .closing || k.foreign c s) then some (mbNotPermitted, 0)
  else match k.badField c s header with
  | some o => some (mbBadField, o)
  | none =>
    if (c.fn ≠ 0 ∧ part = .fenced) ∨ k.fenced c s then some (mbFenced, 0)
    else if k.transition c s then some (mbTransition, 0)
    else if (w.sys.phase = .tripHold ∧ !(c.fn == 0 && tripTaken.contains k.opcode)) ∨ (w.sys.managerLost ∧ !managerLess.contains k.opcode)
        ∨ k.running c s then some (mbConflict, 0)
    else if w.heldBy (k.names c s) ∨ k.busy c s then some (mbBusy, 0)
    else ((k.own c s).find? (·.1)).map (·.2)

/-! ### Ledger entry and response (16 R418, R424; 22 R526) -/

/-- The COMMAND entry, and its SEQ; 0 without a chain. forced: from what staging keeps (22 R525, R531). -/
def State.commandEntry (s : State) (c : Cmd) (status : Nat) (point : List Byte) (forced : Bool) : State × Nat :=
  let l := s.sw.getLedger c.fn
  if !l.started then (s, 0)
  else
    let body := leBytes 1 c.mb ++ leBytes 1 0 ++ leBytes 2 c.seq ++ leBytes 2 c.op ++ leBytes 2 status ++ padTo 16 point ++ digestBytes (Config.shake256 c.body)
    let e := s.mkEntry 0x02 (b2n c.verify) c.fn body
    (if forced then s.ledgerPut c.fn e else s.ledgerAdd c.fn e, l.nextSeq)

/-- OWN is cleared, and the completion interrupt sent where it was asked for (16 R418, R423). -/
def State.clearOwn (s : State) (fn mb : Nat) : State :=
  let irq := (s.sw.mailbox fn mb).irq
  let s := s.onMailbox fn mb fun m => { m with own := false }
  if irq then s.msix fn mb else s

/-- The response of a command. -/
def State.respond (s : State) (fn mb seq status detail ledgerSeq : Nat) (rsp : List Byte) : State :=
  (s.onMailbox fn mb fun m => { m with
    rspHeader := BitVec.ofNat 64 (status + seq % 2 ^ 16 * 2 ^ 16 + rsp.length * 2 ^ 32 + detail * 2 ^ 48)
    ledgerSeq := ledgerSeq, rsp := rsp, lastSeq := seq }).clearOwn fn mb

/-! ### Taking a command -/

/-- The Teller, or the ROM, takes the command of this mailbox now (16 R418, R421, R428; 19 R476). -/
def Switch.takes (w : Switch) (fn mb : Nat) : Bool :=
  (w.mailbox fn mb).own &&
  (if w.sys.phase = .romRecovery then fn == 0 && mb == 0 && w.teller.order.contains (0, 0)
   else w.teller.state == 0 && (w.sys.phase == .running || w.sys.phase == .tripHold) && w.teller.order.head? == some (fn, mb))

/-- The command in a mailbox, its payload cut to a length. -/
def Switch.cmdOf (w : Switch) (fn mb len : Nat) : Cmd :=
  let m := w.mailbox fn mb
  { fn := fn, mb := mb, seq := m.seq, op := bits m.header.toNat 0 16, verify := m.header.getLsbD 16,
    body := (List.range len).map fun i => m.payload.get (0x80 + i) 0 }

/-- The Ledger of a command's function has no room for its entry (22 R531). -/
def Switch.entryFull (w : Switch) (fn : Nat) : Bool :=
  let l := w.getLedger fn
  l.started && (!(l.room 128 false) || w.ledgerQueue.any fun q => q.1 == fn)

/-- A command is performed: its commit, its Ledger entry, and its response or the work that goes on. -/
def State.perform (s : State) (k : Form) (c : Cmd) (forced : Bool) : State :=
  let (d, t) := k.commit c s
  let point := k.point c s
  let done (rsp : List Byte) : State :=
    let (t, q) := t.commandEntry c mbOk point forced
    t.respond c.fn c.mb c.seq mbOk 0 q rsp
  match d with
  | .now rsp => done rsp
  | .later work holds data =>
    let (t, q) := if k.late || (forced && k.opcode == 0x0B02) then (t, 0) else t.commandEntry c mbOk point forced
    let a : Active := { fn := c.fn, mb := c.mb, box := c.mb, seq := c.seq, opcode := c.op + (if c.verify then 0x10000 else 0), payload := c.body,
                        holds := holds, work := work, ledgerSeq := q, data := data }
    k.start c (t.onTeller fun x => { x with active := x.active ++ [a] })

/-- The Teller takes the command of a mailbox: one already completed is not performed again (R419), a refused one changes nothing (R420), and one under
VERIFY changes nothing either (R415). A command whose status comes from what the host holds is performed under VERIFY as far as its checks go. -/
def State.takeCommand (s : State) (k : Form) (fn mb : Nat) : State :=
  let m := s.sw.mailbox fn mb
  if !(s.sw.takes fn mb) || bits m.header.toNat 0 16 != k.opcode then s
  else
    let s := s.onTeller fun t => { t with order := t.order.erase (fn, mb) }
    if m.seq = m.lastSeq then s.clearOwn fn mb
    else
      let c := s.sw.cmdOf fn mb k.len
      let excepted := fn == 0 && ((k.opcode == 0x0B02 && c.num 0x80 1 == 0) || (k.opcode == 0x0B01 && c.num 0x80 1 == 0))
      let full := s.sw.entryFull fn
      if full ∧ !excepted then s.respond fn mb m.seq mbBusy 0 0 []
      else match k.refusal c s m.header.toNat with
      | some (status, detail) =>
        -- the entry holds the digest of the payload that the header states, up to the whole area (R424)
        let sent := if status = mbBadLength then s.sw.cmdOf fn mb (min 1920 (bits m.header.toNat 32 16)) else c
        let (s, q) := s.commandEntry sent status [] full
        s.respond fn mb m.seq status detail q []
      | none =>
        if c.verify ∧ !k.late then
          let status := k.verify c s
          let (s, q) := s.commandEntry c status [] full
          s.respond fn mb m.seq status 0 q []
        else s.perform k c full

/-! ### The end of a command's work -/

/-- The field that names the host data of a command whose data breaks its form (DEDUCED, log 33). -/
def Cmd.hostField (c : Cmd) : Nat :=
  if c.op = 0x0F01 ∨ c.op = 0x0901 then 0x88
  else if c.op = 0x0B11 then 0x98
  -- SCHED_STAGE: a LENGTH out of its range (R299), else the package's address
  else if c.op = 0x0610 ∧ !(decide (0x100 + 96 + 1280 ≤ c.num 0x88 8) && decide (c.num 0x88 8 ≤ 0x10000000)) then 0x88
  else 0x80

/-- The command that an active command was taken as. -/
def Active.cmd (a : Active) : Cmd :=
  { fn := a.fn, mb := a.box, seq := a.seq, op := a.opcode % 0x10000, verify := decide (0x10000 ≤ a.opcode), body := a.payload }

/-- Take an active command off the list and write its response; a command whose Ledger entry waited for its status writes it now. -/
def State.completeActive (s : State) (a : Active) (status : Nat) (rsp : List Byte) : State :=
  let s := s.onTeller fun t => { t with active := t.active.filter fun x => !(x.fn == a.fn && x.mb == a.mb) }
  let c := a.cmd
  -- a LEDGER_READ taken while staging was full writes its entry afterwards, from what staging keeps (22 R531)
  let full := c.op == 0x0B02 && a.ledgerSeq == 0
  let (s, q) := if full || [0x0610, 0x0901, 0x0F01, 0x0B11].contains c.op then s.commandEntry c status [] full else (s, a.ledgerSeq)
  if a.dropped then s else s.respond a.fn a.mb a.seq status (if status = mbBadField then c.hostField else 0) q rsp

/-- Complete the command of a mailbox whose work has reached its end. -/
def State.completeCommand (s : State) (fn mb : Nat) : State :=
  match s.sw.activeOf fn mb with
  | none => s
  | some a => match a.result with
    | none => s
    | some (status, rsp) => s.completeActive a status rsp

end Sys2Proof.Machine
end

