-- ==== Sys2Proof/Machine/CatDevice.lean ====
section
/-!
DEFINITION. Mailbox commands of the device, its configuration and its firmware (17 Device and configuration, Firmware; 19 R469 to R478, R484; 03
R79; 05 R126).
-/

namespace Sys2Proof.Machine

/-! ### Host accesses of commands -/

/-- An access of len bytes at addr, cut into requests of at most n bytes: address, place in the access and size of each. -/
def cutAccess (n addr len : Nat) : List (Nat × Nat × Nat) := (List.range (ceilDiv len n)).map fun i => (addr + n * i, n * i, min n (len - n * i))

/-- The bytes a command reads from the host, asked for in requests of up to 4,096 bytes (18 R452). -/
def State.commandRead (s : State) (addr len : Nat) : State :=
  s.each (cutAccess s.sw.host.pf.maxRead addr len) fun s r => s.emit (.pcieRead r.1 r.2.2)

/-- The bytes a command writes to the host, in requests of the maximum payload (18 R452). -/
def State.commandWrite (s : State) (addr : Nat) (data : List Byte) : State :=
  s.each (cutAccess s.sw.host.pf.maxPayload addr data.length) fun s r => s.emit (.pcieWrite r.1 (slice data r.2.1 r.2.2))

/-- A command accesses the host. Without the HOST link, or with PF0's Bus Master Enable clear, the access fails at once, and the command ends as
fails says (18 R454). -/
def State.askHost (s : State) (fn mb : Nat) (ask : State → State) (fails : State → Active → State) : State :=
  if s.sw.hostReads then ask s
  else match s.sw.activeOf fn mb with
    | some a => (fails s a).completeCommand fn mb
    | none => s

/-! ### Flash writes (19 R471, R472) -/

/-- The two books' target and the SEQUENCE of the next commit; none where it would be 0xFFFFFFFF. -/
def Flash.nextBook (f : Flash) : Option (Nat × Nat) :=
  let a := (f.bookA.map (·.seq)).getD 0
  let b := (f.bookB.map (·.seq)).getD 0
  let n := max a b + 1
  if 0xFFFFFFFF ≤ n then none else some (if b < a then 1 else 0, n)

/-- Erase the area that a flash write names: until its last part it is not valid. -/
def Flash.begin_ (f : Flash) : FlashWrite → Flash
  | .book t b => { f with bookA := if t = 0 then none else f.bookA, bookB := if t = 0 then f.bookB else none, writing := some (.book t b) }
  | .image k i => { f with slotA := if k = 0 then none else f.slotA, slotB := if k = 0 then f.slotB else none, writing := some (.image k i) }
  | .cal l => { f with calValid := false, writing := some (.cal l) }

/-- The last part of the area is written. -/
def Flash.end_ (f : Flash) : Flash :=
  match f.writing with
  | none => f
  | some (.book t b) => { f with bookA := if t = 0 then some b else f.bookA, bookB := if t = 0 then f.bookB else some b, writing := none }
  | some (.image k i) => { f with slotA := if k = 0 then some i else f.slotA, slotB := if k = 0 then f.slotB else some i, writing := none }
  | some (.cal l) => { f with calValid := true, calLink := l, writing := none }

/-- The values of a book, one after another. -/
def Persist.values (v : Persist) : List Nat :=
  let tab (t : Tab Nat) : List Nat := t.length :: t.flatMap fun e => [e.1, e.2]
  [v.mode, v.racks, v.rack, v.plane, v.runSlot] ++ tab v.stepMask ++ tab v.engineOwner ++ tab v.poolOwner
    ++ [v.port.length] ++ (v.port.flatMap fun e => [e.1, e.2.maxStep, e.2.eqMode, e.2.g]) ++ [v.testHours, v.scrubHours] ++ tab v.retireLimit
    ++ [v.target, v.ceil, v.limit, v.idleHold, v.brake, v.ageReq, v.ageMgmt, v.homeBusy, v.engineCpl, v.tHold, v.misses]

/-- DIGEST of a book (19 R469): a free value of its contents (log 5). -/
def Book.digest (b : Book) : Digest := Config.bookDigest (b.seq :: b.vals.values)

def State.onFlash (s : State) (g : Flash → Flash) : State := s.onSys fun y => { y with flash := g y.flash }

/-- The present persistent values: in ROM recovery those of the best book. -/
def Sys.persist (y : Sys) : Persist := if y.phase = .romRecovery then (y.flash.best.map (·.vals)).getD {} else y.cfg

/-- Begin a commit of the present persistent values, changed by g. -/
def State.commitBook (s : State) (g : Persist → Persist) : State :=
  match s.sw.sys.flash.nextBook with
  | none => s
  | some (t, n) =>
    let v := g s.sw.sys.persist
    let s := s.onSys fun y => { y with cfg := g y.cfg }
    s.onFlash fun f => f.begin_ (.book t { seq := n, vals := v })

/-- A commit that would need SEQUENCE 0xFFFFFFFF. -/
def State.noSequence (s : State) : Bool × Nat × Nat := (s.sw.sys.flash.nextBook.isNone, mbNoResource, 0)

/-- A firmware activation is in progress: the books and images that it measures are changing (16 R420). -/
def Switch.activating (w : Switch) : Bool := w.teller.active.any fun a => match a.work with
  | .activate _ _ _ => true
  | _ => false

/-! ### DEV_INFO, DEV_RESET -/

/-- Response of DEV_INFO. -/
def Switch.devInfo (w : Switch) : List Byte :=
  let y := w.sys
  let version (i : Option Image) : Nat := (i.map (·.version)).getD 0
  leBytes 8 y.serial ++ leBytes 2 0x6424 ++ leBytes 1 0xB0 ++ leBytes 1 2 ++ leBytes 2 y.homeId ++ leBytes 1 y.mode ++ leBytes 1 y.racks
    ++ leBytes 1 (b2n y.strongroom + 2 * b2n y.fused + 4 * y.runSlot) ++ leBytes 1 y.fuseSteps ++ leBytes 2 0
    ++ leBytes 4 (version y.flash.slotA) ++ leBytes 4 (version y.flash.slotB)

def devInfoForm : Form where
  opcode := 0x0101
  len := 0
  vf := true
  commit _ s := (.now s.sw.devInfo, s)

/-- The object that DEV_RESET and FENCE_SET name by KIND and INDEX. -/
def kindObj (kind index : Nat) : List Obj :=
  if kind = 0 then [.port index] else if kind = 1 then [.engine index] else if kind = 2 then [.core index] else if kind = 3 then [.channel index] else []

/-- Reset an engine: its task fails with FENCED, translations go, a fence is cleared (19 R484). -/
def State.resetEngine (s : State) (e : Nat) : State :=
  let s := (s.stopEngine e).dropEngineXlat e
  s.putEngine e { s.sw.getEngine e with fenced := false, resetting := true }

/-- Engines of a core. -/
def coreEngines (k : Nat) : List Nat := (List.range 8).map (8 * k + ·)

/-- The commit of DEV_RESET. -/
def State.devReset (s : State) (kind index : Nat) : Done × State :=
  if kind = 0 then (.later .reset [.port index] [], s.retrain index)
  else if kind = 1 then (.later .reset [.engine index] [], (s.resetEngine index).escrowSettle)
  else if kind = 2 then (.later .reset [.core index] [], (s.each (coreEngines index) fun s e => s.resetEngine e).escrowSettle)
  else if kind = 3 then (.later .reset [.channel index] [], s.onMem fun m => { m with chan := m.chan.upd index {} fun c => { c with resetting := true } })
  else (.later .reset [.teller] [], s.tellerRestart)

def devResetForm : Form where
  opcode := 0x0102
  len := 8
  range c _ := [(0x80, decide (4 < c.num 0x80 1)), (0x81, decide ([64, 48, 6, 24, 1].getD (c.num 0x80 1) 256 ≤ c.num 0x81 1))]
  names c _ := kindObj (c.num 0x80 1) (c.num 0x81 1)
  own c s := [(c.num 0x80 1 == 3 && (s.sw.chan (c.num 0x81 1)).fenced, mbConflict, 0)]
  commit c s := s.devReset (c.num 0x80 1) (c.num 0x81 1)

/-- A reset still runs: the Teller restarts, or the port trains. -/
def Switch.resetting (w : Switch) (a : Active) : Bool :=
  a.holds.any fun o => match o with
    | .teller => true
    | .port p => let st := (w.getLink p).state; st != .active && st != .fenced && st != .down
    | _ => false

/-- A partial reset ends: the object works again. -/
def State.resetEnds (s : State) (a : Active) : State :=
  s.each a.holds fun s o => match o with
    | .engine e => s.putEngine e { s.sw.getEngine e with resetting := false }
    | .core k => s.each (coreEngines k) fun s e => s.putEngine e { s.sw.getEngine e with resetting := false }
    | .channel c => s.onMem fun m => { m with chan := m.chan.upd c {} fun x => { x with resetting := false } }
    | _ => s

/-! ### Configuration -/

/-- No package is active or armed: the default gate list runs. -/
def Switch.scheduleStopped (w : Switch) : Bool := w.sched.active.isNone && w.sched.armed.isNone

def cfgModeSetForm : Form where
  opcode := 0x0201
  len := 8
  range c _ :=
    let mode := c.num 0x80 1
    let racks := c.num 0x81 1
    [(0x80, decide (1 < mode)), (0x81, (mode == 0 && racks != 1) || (mode == 1 && (decide (racks < 2) || decide (8 < racks)))),
     (0x82, decide (7 < c.num 0x82 1 ∨ racks ≤ c.num 0x82 1)), (0x83, decide (7 < c.num 0x83 1))]
  running _ s := !s.sw.scheduleStopped
  names _ _ := [.flash]
  transition _ s := s.sw.activating
  own _ s := [s.noSequence]
  commit c s := (.later .flash [.flash] [],
    s.commitBook fun v => { v with mode := c.num 0x80 1, racks := c.num 0x81 1, rack := c.num 0x82 1, plane := c.num 0x83 1 })

def cfgBookCommitForm : Form where
  opcode := 0x0202
  len := 0
  names _ _ := [.flash]
  transition _ s := s.sw.activating
  own _ s := [s.noSequence]
  commit _ s := (.later .flash [.flash] [], s.commitBook id)

/-- Response of a command that wrote a book: only CFG_BOOK_COMMIT has one. -/
def Switch.bookRsp (w : Switch) (a : Active) : List Byte :=
  match w.sys.flash.writing with
  | some (.book t b) => if a.opcode % 0x10000 = 0x0202 then leBytes 1 t ++ leBytes 3 0 ++ leBytes 4 b.seq ++ digestBytes b.digest else []
  | _ => []

def cfgTimersForm : Form where
  opcode := 0x0204
  len := 16
  range c _ :=
    let out (o lo hi : Nat) : Nat × Bool := (o, c.num o 4 != 0 && (decide (c.num o 4 < lo) || decide (hi < c.num o 4)))
    [out 0x80 1 2000, out 0x84 100 6000, out 0x88 1 1000, out 0x8C 10 10000]
  commit c s :=
    let keep (o old : Nat) : Nat := if c.num o 4 = 0 then old else c.num o 4
    (.now [], s.onSys fun y => { y with cfg := { y.cfg with
      ageReq := keep 0x80 y.cfg.ageReq, ageMgmt := keep 0x84 y.cfg.ageMgmt / 2 * 2, homeBusy := keep 0x88 y.cfg.homeBusy, engineCpl := keep 0x8C y.cfg.engineCpl } })

/-- Pass a value to every end-point of the rack, from its plane-0 switch (05 R126, 12 R332). -/
def State.passValue (s : State) (item value : Nat) : State :=
  if s.sw.sys.plane ≠ 0 then s else s.each s.sw.edgesUp fun s p => s.relayEp p mConfig (leBytes 1 item ++ leBytes 2 value) none

def cfgCoherenceForm : Form where
  opcode := 0x0206
  len := 8
  range c _ := [(0x80, decide (2000 < c.num 0x80 2))]
  commit c s := (.now [], (s.onSys fun y => { y with cfg := { y.cfg with tHold := c.num 0x80 2 } }).passValue ciHold (c.num 0x80 2))

/-! ### Firmware (17 R446; 19 R475 to R478) -/

/-- A component record of a movement image agrees with its bytes; and its digest. -/
def imageComponent (l : List Byte) (o : Nat) : Bool × Digest :=
  let at_ := field l o 4
  let n := field l (o + 4) 4
  let d := BitVec.ofNat 512 (field l (o + 8) 64)
  (decide (at_ + n ≤ l.length) && Config.shake256 (slice l at_ n) == d, d)

/-- The check of an image read from the host: its status, and what the slot then holds. A signature and a STEP that R446 refuses come first. -/
def Sys.checkImage (y : Sys) (l : List Byte) : Nat × Option Image :=
  let d := Config.shake256 (l.take (l.length - 1280))
  let t := imageComponent l 0x10
  let e := imageComponent l 0x58
  let p := imageComponent l 0xA0
  let step := field l 6 1
  if l.length < 0x100 + 1280 ∨ Config.falconVerify Config.imageKey d (l.drop (l.length - 1280)) = false then (mbSignature, none)
  else if step < y.fuseSteps then (mbNotPermitted, none)
  else if field l 0 4 ≠ 0x4D49564D ∨ field l 4 2 ≠ 1 ∨ field l 0xC 4 ≠ l.length ∨ 64 < step then (mbBadField, none)
  else if !(t.1 && e.1 && p.1) then (mbDigest, none)
  else (mbOk, some { step := step, version := field l 8 4, digest := d, engine := e.2, phy := p.2 })

def fwStageForm : Form where
  opcode := 0x0F01
  len := 24
  range c _ := [(0x80, decide (1 < c.num 0x80 1)), (0x90, decide (0x1C00000 < c.num 0x90 8))]
  names _ _ := [.flash]
  transition _ s := s.sw.activating
  own c s := [(s.sw.sys.phase != .romRecovery && s.sw.sys.runSlot == c.num 0x80 1, mbConflict, 0)]
  late := true
  commit _ s := (.later (.hostRead 0) [.flash] [], s)
  start c s := s.askHost c.fn c.mb (·.commandRead (c.num 0x88 8) (c.num 0x90 8)) fun s a => s.finishWork a.fn a.mb mbTimeout []

/-- What FW_STAGE does with the bytes of the image: the slot is erased and written only once every check has passed. -/
def State.imageRead (s : State) (a : Active) (host : Option (List Byte)) : State :=
  match host with
  | none => s.finishWork a.fn a.mb mbTimeout []
  | some l =>
    match s.sw.sys.checkImage l with
    | (_, some i) =>
      if 0x10000 ≤ a.opcode then s.finishWork a.fn a.mb mbOk []
      else (s.onFlash fun f => f.begin_ (.image (field a.payload 0 1) i)).onActive a.fn a.mb fun x => { x with work := .flash }
    | (st, none) => s.finishWork a.fn a.mb st []

/-- Response of FW_STAGE. -/
def imageRsp (i : Image) : List Byte := leBytes 4 i.version ++ leBytes 4 i.step ++ digestBytes i.digest

/-- The named slot cannot run by MODE, or its STEP is behind the fuses (19 R477). -/
def Sys.activateConflict (y : Sys) (slot mode : Nat) : Bool :=
  let new := y.image slot
  let low := new.any fun i => decide (i.step < y.fuseSteps)
  let differs := match new, y.image y.runSlot with
    | some a, some b => a.engine != b.engine || a.phy != b.phy
    | _, _ => true
  low || (mode == 0 && differs)

def fwActivateForm : Form where
  opcode := 0x0F02
  len := 8
  range c _ := [(0x80, decide (1 < c.num 0x80 1)), (0x81, decide (1 < c.num 0x81 1)), (0x82, decide (1 < c.num 0x82 1))]
  names _ _ := [.flash]
  transition _ s := s.sw.activating
  own c s := [(s.sw.sys.activateConflict (c.num 0x80 1) (c.num 0x81 1), mbConflict, 0), s.noSequence]
  commit c s := (.later (.activate (c.num 0x81 1) (c.num 0x82 1) (c.num 0x80 1)) [.flash] [], s.commitBook fun v => { v with runSlot := c.num 0x80 1 })

/-- The book of FW_ACTIVATE is written: a restart into the new firmware, or OK and then a warm start. -/
def State.activated (s : State) (a : Active) (mode burn slot : Nat) : State :=
  if a.data.contains 1 then s
  else
    let s := s.onFlash Flash.end_
    if mode = 0 then (s.onActive a.fn a.mb fun x => { x with data := [1] }).tellerRestart
    else
      let step := ((s.sw.sys.image slot).map (·.step)).getD 0
      let s := (s.finishWork a.fn a.mb mbOk []).completeCommand a.fn a.mb
      (s.onSys fun y => { y with burn := some (if burn = 1 then step else 0) }).preStart .warm false

/-- COMMAND_COMPLETION of a command of this family. -/
def State.deviceWork (s : State) (a : Active) (host : Option (List Byte)) : State :=
  match a.work with
  | .reset => if s.sw.resetting a then s else (s.resetEnds a).finishWork a.fn a.mb mbOk []
  | .hostRead _ => s.imageRead a host
  | .flash =>
    let rsp := match s.sw.sys.flash.writing with
      | some (.image _ i) => imageRsp i
      | _ => s.sw.bookRsp a
    (s.onFlash Flash.end_).finishWork a.fn a.mb mbOk rsp
  | .activate mode burn slot => s.activated a mode burn slot
  | _ => s

/-! ### The rows -/

/-- DEV_INFO (17 R434 table). -/
def execDevInfo (fn mb : Nat) (s : State) : Host.Outcome State Fault Refusal := .next (s.takeCommand devInfoForm fn mb)

/-- DEV_RESET (17 R435; 19 R484). -/
def execDevReset (fn mb : Nat) (s : State) : Host.Outcome State Fault Refusal := .next (s.takeCommand devResetForm fn mb)

/-- CFG_MODE_SET (17 R436; 01 R9). -/
def execCfgModeSet (fn mb : Nat) (s : State) : Host.Outcome State Fault Refusal := .next (s.takeCommand cfgModeSetForm fn mb)

/-- CFG_BOOK_COMMIT (19 R471). -/
def execCfgBookCommit (fn mb : Nat) (s : State) : Host.Outcome State Fault Refusal := .next (s.takeCommand cfgBookCommitForm fn mb)

/-- CFG_TIMERS (03 R79). -/
def execCfgTimers (fn mb : Nat) (s : State) : Host.Outcome State Fault Refusal := .next (s.takeCommand cfgTimersForm fn mb)

/-- CFG_COHERENCE (05 R126). -/
def execCfgCoherence (fn mb : Nat) (s : State) : Host.Outcome State Fault Refusal := .next (s.takeCommand cfgCoherenceForm fn mb)

/-- FW_STAGE (17 R446; 19 R475). -/
def execFwStage (fn mb : Nat) (s : State) : Host.Outcome State Fault Refusal := .next (s.takeCommand fwStageForm fn mb)

/-- FW_ACTIVATE (17 R446; 19 R477). -/
def execFwActivate (fn mb : Nat) (s : State) : Host.Outcome State Fault Refusal := .next (s.takeCommand fwActivateForm fn mb)

end Sys2Proof.Machine
end

