-- ==== Sys2Proof/Machine/CatPartitions.lean ====
section
/-!
DEFINITION. Mailbox commands of partitions, segments and keys (17 R437, R438, R442; 21 R499 to R519; 02 R36, R47; 09 R225; 10 R279 to R282).
-/

namespace Sys2Proof.Machine

/-! ### Partitions -/

def isTenant (p : Nat) : Bool := decide (1 ≤ p ∧ p ≤ 15)

/-- PARTITION of a command that gives resources: a partition or 0xFF for none. -/
def partOrNone (p : Nat) : Bool := decide (p ≤ 15) || p == 0xFF

def Switch.partFenced (w : Switch) (p : Nat) : Bool := (w.getPart p).state == .fenced

/-- Objects named by a PARTITION of 0xFF: none. -/
def partObj (p : Nat) : List Obj := if p = 0xFF then [] else [.partition p]

def partAdmitForm : Form where
  opcode := 0x0301
  len := 8
  range c _ := [(0x80, !isTenant (c.num 0x80 1)), (0x81, c.num 0x81 1 != c.num 0x80 1), (0x82, decide (c.num 0x82 1 = 0 ∨ 31 < c.num 0x82 1))]
  fenced c s := s.sw.partFenced (c.num 0x80 1)
  running c s := (s.sw.getPart (c.num 0x80 1)).state != .none
  names c _ := [.partition (c.num 0x80 1), .slot (c.num 0x82 1)]
  own c s :=
    let k := s.sw.getSlot (c.num 0x82 1)
    [(k.state != .active || k.partition != c.num 0x80 1, mbBadField, 0x82), ((s.sw.getLedger (c.num 0x80 1)).region.isNone, mbConflict, 0)]
  commit c s :=
    let p := c.num 0x80 1
    let s := s.putPart p { s.sw.getPart p with state := .admitted, vfBound := true, keySlot := c.num 0x82 1 }
    (.now [], s.onSys fun y => { y with admitted := true })

/-- Key slots assigned to a partition. -/
def Switch.slotsOf (w : Switch) (p : Nat) : List Nat := slots32.filter fun k => w.slotOf k p

/-- A rewrap record names the slot (10 R280). -/
def Switch.rewrapNames (w : Switch) (k : Nat) : Bool := w.mem.rewrap.any fun r => r.2.fromSlot == k || r.2.toSlot == k

/-- TIMEOUT of KEY_RETIRE and PART_REMOVE is out of range. -/
def timeoutBad (n : Nat) : Bool := n != 0 && (decide (n < 1000) || decide (1000000 < n))

/-- The commit of PART_REMOVE (21 R511): CLOSING, the Syndicates go, the graphs end without a done record. -/
def State.partRemove (s : State) (p : Nat) : State :=
  let s := s.putPart p { s.sw.getPart p with state := .closing }
  let mine := s.sw.synd.filter fun y => y.2.partition == p
  let s := s.each mine fun s y => s.each y.2.epochs fun s e => s.abortFrom y.1 e.number stFenced
  let s := s.onSw fun w => { w with synd := w.synd.filter fun y => y.2.partition != p
                                    escrow := { w.escrow with coll := w.escrow.coll.filter fun q => !(mine.any fun y => y.1 == q.1) } }
  s.onEscrow fun e => { e with graph := e.graph.mapVals fun _ g => if g.partition = p then { g with noDone := true } else g }

def partRemoveForm : Form where
  opcode := 0x0302
  len := 8
  range c _ := [(0x80, !isTenant (c.num 0x80 1)), (0x84, timeoutBad (c.num 0x84 4))]
  running c s := (s.sw.slotsOf (c.num 0x80 1)).any s.sw.rewrapNames
  names c s := .partition (c.num 0x80 1) :: (s.sw.slotsOf (c.num 0x80 1)).map Obj.slot
  commit c s :=
    let p := c.num 0x80 1
    let ks := s.sw.slotsOf p
    (.later .remove (.partition p :: ks.map Obj.slot) ks, s.partRemove p)
  start c s :=
    let p := c.num 0x80 1
    let s := s.each ((s.sw.slotsOf p).filter fun k => (s.sw.getSlot k).state == .active) fun s k => s.beginRetire k true
    (s.cancelPartition p).retireCheck

/-- The engines of a mask whose owner would change. -/
def Switch.engineChanges (w : Switch) (c : Cmd) : List Nat :=
  engines48.filter fun e => bit (c.num 0x82 6) e && w.engineOwner e != c.num 0x80 1

/-- An engine is in use (09 R225). -/
def Switch.engineInUse (w : Switch) (e : Nat) : Bool :=
  (w.getEngine e).task.isSome || (w.escrow.graph.any fun g => g.2.tasks.any fun t => (TaskDesc.of t.desc).engine == e)
    || w.escrow.coll.any fun x => (x.2.2.2 == e || x.2.2.2 == 64 + e) && (((w.getSynd x.1).bind fun y => y.epoch x.2.1).any Epoch.isOpen)

def partEnginesSetForm : Form where
  opcode := 0x0303
  len := 8
  range c _ := [(0x80, !partOrNone (c.num 0x80 1))]
  fenced c s := (c.num 0x80 1 != 0xFF && s.sw.partFenced (c.num 0x80 1)) || engines48.any fun e => bit (c.num 0x82 6) e && (s.sw.getEngine e).fenced
  running c s := (s.sw.engineChanges c).any s.sw.engineInUse
  names c _ := partObj (c.num 0x80 1) ++ (engines48.filter (bit (c.num 0x82 6))).map Obj.engine
  commit c s := (.now [], ((s.each (s.sw.engineChanges c) fun s e => s.giveEngine e (c.num 0x80 1)).revoteAll).escrowSettle)

/-- A 1 GiB range is in use: a region not DIRECT or with HANDOVER, a rewrap record or a pairing (17 R438). -/
def Switch.rangeInUse (w : Switch) (g : Nat) : Bool :=
  (w.mem.home.region.any fun r => r.1 / 512 == g && (r.2.mode != mDirect || r.2.handover))
    || (w.mem.rewrap.any fun r => rangesMeet (g * 0x40000000) 0x40000000 r.2.start r.2.length)
    || (w.mem.pair.find g).isSome

def Cmd.ranges (c : Cmd) : List Nat := (List.range (c.num 0x84 2)).map (c.num 0x82 2 + ·)

def partPoolSetForm : Form where
  opcode := 0x0304
  len := 8
  range c _ := [(0x80, !partOrNone (c.num 0x80 1)), (0x82, decide (1439 < c.num 0x82 2)),
                (0x84, decide (c.num 0x84 2 = 0 ∨ 1440 < c.num 0x82 2 + c.num 0x84 2))]
  fenced c s := c.num 0x80 1 != 0xFF && s.sw.partFenced (c.num 0x80 1)
  running c s := c.ranges.any s.sw.rangeInUse
  names c s := partObj (c.num 0x80 1) ++ [.pool (c.num 0x82 2) (c.num 0x84 2), .regions s.sw.sys.homeId (512 * c.num 0x82 2) (512 * c.num 0x84 2)]
  commit c s := (.now [], (s.each c.ranges fun s g => s.givePool g (c.num 0x80 1)).revoteAll)

/-! ### Segments -/

def segTableSetForm : Form where
  opcode := 0x0401
  len := 16
  range c s := [(0x80, decide (s.sw.sys.racks ≤ c.num 0x80 1)), (0x88, decide (c.num 0x88 8 % 4096 ≠ 0))]
  commit c s := (.now [], s.onXlat fun x => { x with base := x.base.put (c.num 0x80 1) (c.num 0x88 8) })

/-- Invalidations that this switch runs by command. -/
def Switch.invalCommands (w : Switch) : Nat := (w.xlat.inval.filter fun x => x.cmd.isSome).length

/-- SEG_INVALIDATE (02 R47). A first unit past the CVA space, or a range that runs past its 2^35 units of 2 MiB, is a field out of its range (DESIGN
CHOICE, log 96: the spec gives the fields no range of their own). -/
def segInvalidateForm : Form where
  opcode := 0x0402
  len := 24
  range c _ := [(0x88, decide (2 ^ 35 ≤ c.num 0x88 8)), (0x90, decide (2 ^ 35 < c.num 0x88 8 + c.num 0x90 4))]
  running c s := decide (c.num 0x80 2 / 8192 ≠ s.sw.sys.rack ∨ 1 < s.sw.sys.plane)
  names c _ := [.context (c.num 0x80 2)]
  busy _ s := decide (8 ≤ s.sw.invalCommands)
  commit c s := (.later (.invalidation (s.sw.sys.homeId * 2 ^ 22 + (s.sw.xlat.count + 1) % 2 ^ 22)) [.context (c.num 0x80 2)] [], s)
  start c s := s.beginInval c.fn c.mb (c.num 0x80 2) (c.num 0x88 8) (c.num 0x90 4)

/-! ### Keys -/

def vaultKemReadForm : Form where
  opcode := 0x0A01
  len := 0
  commit _ s := (.now (padTo 1568 (Config.kemKey s.sw.vault.kemGen)), s)

/-- The key that a KEY_LOAD carries; none where the unwrap check fails. -/
def Switch.loadedKey (w : Switch) (c : Cmd) : Option Key :=
  Config.keyUnwrap (Config.shakeKey (Config.kemDecap w.vault.kemGen (c.bytes 0x88 1568))) (c.bytes 0x6A8 40)

def keyLoadForm : Form where
  opcode := 0x0A02
  len := 1616
  range c _ := [(0x80, decide (c.num 0x80 1 = 0 ∨ 31 < c.num 0x80 1)), (0x81, !isTenant (c.num 0x81 1))]
  fenced c s := s.sw.partFenced (c.num 0x81 1)
  running c s := (s.sw.getSlot (c.num 0x80 1)).state != .zeroed
  names c _ := [.slot (c.num 0x80 1), .partition (c.num 0x81 1)]
  own c s := [((s.sw.loadedKey c).isNone, mbDigest, 0)]
  commit c s :=
    let key := (s.sw.loadedKey c).getD 0
    let k := c.num 0x80 1
    let s := s.putSlot k { state := .active, partition := c.num 0x81 1, key := key }
    let s := s.onSw fun w => { w with vault := { w.vault with kemGen := w.vault.kemGen + 1 } }
    let s := s.each s.sw.edgesUp fun s p => s.relayEp p mSlotOpen (leBytes 1 k ++ leBytes 1 (c.num 0x81 1)) none
    (.now ((digestBytes (Config.shake256 (leBytes 32 key.toNat))).take 8), s)

/-- The slot is the only ACTIVE one of an admitted partition. -/
def Switch.lastSlot (w : Switch) (k : Nat) : Bool :=
  let v := w.getSlot k
  v.state == .active && (w.getPart v.partition).state == .admitted
    && slots32.all fun j => j == k || !((w.getSlot j).state == .active && (w.getSlot j).partition == v.partition)

def keyRetireForm : Form where
  opcode := 0x0A03
  len := 8
  range c _ := [(0x80, decide (c.num 0x80 1 = 0 ∨ 31 < c.num 0x80 1)), (0x84, timeoutBad (c.num 0x84 4))]
  running c s := s.sw.rewrapNames (c.num 0x80 1) || s.sw.lastSlot (c.num 0x80 1)
  names c _ := [.slot (c.num 0x80 1)]
  commit c s := (.later .retire [.slot (c.num 0x80 1)] [c.num 0x80 1], s)
  start c s :=
    let k := c.num 0x80 1
    match (s.sw.getSlot k).state with
    | .active => (s.beginRetire k false).retireCheck
    | .zeroed => (s.putSlot k {}).retireCheck
    | .retiring => s

def signerEnrolForm : Form where
  opcode := 0x0A10
  len := 1801
  range c _ := [(0x80, decide (c.num 0x80 1 ≠ 0))]
  running _ s := s.sw.sched.armed.isSome || (s.sw.sys.strongroom && s.sw.sys.admitted)
  names _ _ := [.bank]
  own _ s := [(decide (4 ≤ s.sw.vault.signers.length), mbNoResource, 0)]
  commit c s := (.now [], s.onSw fun w => { w with vault := { w.vault with signers := w.vault.signers ++ [c.bytes 0x88 1793] } })

/-- Strongroom begins: PF0 apertures keep only key slot 0 (21 R520). -/
def State.strongroomOn (s : State) : State :=
  let s := s.onSys fun y => { y with strongroom := true }
  s.onHost fun h => { h with aperture := h.aperture.mapVals fun k a => if k < 64 then a &&& ~~~(0x7C#64) else a }

def strongroomSetForm : Form where
  opcode := 0x0A11
  len := 8
  range c _ := [(0x80, decide (c.num 0x80 4 ≠ 0x4B434F4C))]
  running _ s := s.sw.sys.admitted
  commit _ s := (.now [], s.strongroomOn)

/-! ### Key service -/

/-- The range of a pool service lies in the partition's pool ranges. -/
def Switch.ownsPool (w : Switch) (p start length : Nat) : Bool :=
  decide (0 < length) && decide (start + length ≤ poolEnd)
    && (List.range ((start + length - 1) / 0x40000000 - start / 0x40000000 + 1)).all fun i => w.poolOwner (start / 0x40000000 + i) == p

/-- A range overlaps a rewrap record, or a partnered region in RESILVERING. -/
def Switch.rewrapBlocked (w : Switch) (start length : Nat) : Bool :=
  (w.mem.rewrap.any fun r => rangesMeet start length r.2.start r.2.length)
    || w.mem.pair.any fun p => p.2.state == .resilvering && rangesMeet start length (p.1 * 0x40000000) 0x40000000

/-- The lowest free rewrap record. -/
def Switch.freeRecord (w : Switch) : Option Nat := (List.range 8).find? fun n => (w.mem.rewrap.find n).isNone

/-- The 1 GiB ranges that [start, start + length) touches: the first and how many. -/
def poolSpan (start length : Nat) : Nat × Nat := (start / 0x40000000, (start + length - 1) / 0x40000000 + 1 - start / 0x40000000)

/-- Objects of a command that names a partition and a pool range. -/
def rangeObjs (s : State) (p start length : Nat) : List Obj :=
  [.partition p, .pool (poolSpan start length).1 (poolSpan start length).2,
   .regions s.sw.sys.homeId (start / 0x200000) ((start + length - 1) / 0x200000 + 1 - start / 0x200000)]

/-- The channels that hold a range of pool offsets: within a channel group, blocks of 4 KiB go round its four channels (06 R141). -/
def rangeChannels (start length : Nat) : List Nat :=
  (List.range 24).filter fun c =>
    let lo := max (start / 4096) (c / 4 * 0x3C00000)
    let hi := min ((start + length - 1) / 4096 + 1) ((c / 4 + 1) * 0x3C00000)
    (List.range 4).any fun i => decide (lo + i < hi) && channelOf ((lo + i) * 4096) == c

/-- A partial reset has a channel that holds part of a pool range. -/
def Switch.rangeResets (w : Switch) (start length : Nat) : Bool := (rangeChannels start length).any fun c => (w.chan c).resetting

/-- The objects that a KEY_REWRAP names. An overlap with a rewrap record or a RESILVERING region is CONFLICT (10 R280), no BUSY. -/
def rewrapObjs (c : Cmd) (s : State) : List Obj :=
  [.slot (c.num 0x81 1), .slot (c.num 0x82 1)]
    ++ if s.sw.rewrapBlocked (c.num 0x88 8) (c.num 0x90 8) then [.partition (c.num 0x80 1)] else rangeObjs s (c.num 0x80 1) (c.num 0x88 8) (c.num 0x90 8)

def keyRewrapForm : Form where
  opcode := 0x0A30
  len := 28
  range c _ := [(0x80, !isTenant (c.num 0x80 1)), (0x81, decide (31 < c.num 0x81 1)), (0x82, decide (31 < c.num 0x82 1)),
                (0x88, decide (c.num 0x88 8 % 0x200000 ≠ 0)), (0x90, decide (c.num 0x90 8 % 0x200000 ≠ 0)), (0x98, decide (64 < c.num 0x98 4))]
  fenced c s := s.sw.partFenced (c.num 0x80 1)
  transition c s := s.sw.rangeResets (c.num 0x88 8) (c.num 0x90 8)
  names := rewrapObjs
  own c s :=
    let p := c.num 0x80 1
    [(!s.sw.slotOf (c.num 0x81 1) p, mbBadField, 0x81), (!s.sw.slotOf (c.num 0x82 1) p || c.num 0x81 1 == c.num 0x82 1, mbBadField, 0x82),
     (!s.sw.ownsPool p (c.num 0x88 8) (c.num 0x90 8), mbBadField, 0x88), (s.sw.freeRecord.isNone, mbNoResource, 0),
     (s.sw.rewrapBlocked (c.num 0x88 8) (c.num 0x90 8), mbConflict, 0)]
  commit c s :=
    let n := s.sw.freeRecord.getD 0
    let r : Rewrap := { partition := c.num 0x80 1, fromSlot := c.num 0x81 1, toSlot := c.num 0x82 1, start := c.num 0x88 8, length := c.num 0x90 8,
                        rate := if c.num 0x98 4 = 0 then 16 else c.num 0x98 4, cursor := c.num 0x88 8 }
    (.later (.rewrap n) (.record n :: rewrapObjs c s) [], s.onMem fun m => { m with rewrap := m.rewrap.put n r })

def keyRewrapReleaseForm : Form where
  opcode := 0x0A31
  len := 8
  range c _ := [(0x80, decide (7 < c.num 0x80 1))]
  names c _ := [.record (c.num 0x80 1)]
  own c s := [((s.sw.mem.rewrap.find (c.num 0x80 1)).isNone, mbConflict, 0)]
  commit c s := (.now [], s.onMem fun m => { m with rewrap := m.rewrap.del (c.num 0x80 1) })

/-! ### The rows -/

/-- PART_ADMIT (17 R437; 21 R501). -/
def execPartAdmit (fn mb : Nat) (s : State) : Host.Outcome State Fault Refusal := .next (s.takeCommand partAdmitForm fn mb)

/-- PART_REMOVE (21 R511). -/
def execPartRemove (fn mb : Nat) (s : State) : Host.Outcome State Fault Refusal := .next (s.takeCommand partRemoveForm fn mb)

/-- PART_ENGINES_SET (09 R225, R226). -/
def execPartEnginesSet (fn mb : Nat) (s : State) : Host.Outcome State Fault Refusal := .next (s.takeCommand partEnginesSetForm fn mb)

/-- PART_POOL_SET (17 R438). -/
def execPartPoolSet (fn mb : Nat) (s : State) : Host.Outcome State Fault Refusal := .next (s.takeCommand partPoolSetForm fn mb)

/-- SEG_TABLE_SET (02 R36). -/
def execSegTableSet (fn mb : Nat) (s : State) : Host.Outcome State Fault Refusal := .next (s.takeCommand segTableSetForm fn mb)

/-- SEG_INVALIDATE (02 R47, R49). -/
def execSegInvalidate (fn mb : Nat) (s : State) : Host.Outcome State Fault Refusal := .next (s.takeCommand segInvalidateForm fn mb)

/-- VAULT_KEM_READ (17 Vault, keys and Assay). -/
def execVaultKemRead (fn mb : Nat) (s : State) : Host.Outcome State Fault Refusal := .next (s.takeCommand vaultKemReadForm fn mb)

/-- KEY_LOAD (17 R442; 21 R502, R508). -/
def execKeyLoad (fn mb : Nat) (s : State) : Host.Outcome State Fault Refusal := .next (s.takeCommand keyLoadForm fn mb)

/-- KEY_RETIRE (21 R505; 10 R280). -/
def execKeyRetire (fn mb : Nat) (s : State) : Host.Outcome State Fault Refusal := .next (s.takeCommand keyRetireForm fn mb)

/-- SIGNER_ENROL (21 R518). -/
def execSignerEnrol (fn mb : Nat) (s : State) : Host.Outcome State Fault Refusal := .next (s.takeCommand signerEnrolForm fn mb)

/-- STRONGROOM_SET (21 R519). -/
def execStrongroomSet (fn mb : Nat) (s : State) : Host.Outcome State Fault Refusal := .next (s.takeCommand strongroomSetForm fn mb)

/-- KEY_REWRAP (10 R279 to R281). -/
def execKeyRewrap (fn mb : Nat) (s : State) : Host.Outcome State Fault Refusal := .next (s.takeCommand keyRewrapForm fn mb)

/-- KEY_REWRAP_RELEASE (10 R282). -/
def execKeyRewrapRelease (fn mb : Nat) (s : State) : Host.Outcome State Fault Refusal := .next (s.takeCommand keyRewrapReleaseForm fn mb)

end Sys2Proof.Machine
end

