-- ==== Sys2Proof/Machine/CatCollectives.lean ====
section
/-!
DEFINITION. Mailbox commands of Syndicates and Escrow (08 R193 to R197; 13 R335; 09 R229, R235, R251; 17 Syndicates and Escrow).
-/

namespace Sys2Proof.Machine

/-! ### Forming a Syndicate -/

/-- A member entry of the list: end-point home ID in [9:0], agent in [15:10]. -/
def memberOf (v : Nat) : Nat := v % 1024 * 64 + v / 1024

/-- Bytes of one chunk with its scale bytes, at most, and of one chunk without (08 R203). -/
def chunkMost : Nat := 65536 + 4096
def chunkPlain : Nat := 65536

/-- The largest kept-operand size of one chunk at the switch (08 R212): the ranks' chunks of an ALL_GATHER, or the present children of the nodes whose
results a reduction sends on or delivers. -/
def Switch.keptMost (w : Switch) (id : Nat) (y : Synd) : Nat :=
  let place := ((w.sched.active.bind (·.coll)).bind fun t => t.find id).getD []
  let e : Epoch := { number := 0, cop := copAllReduce, rop := 0, fmt := 0, sat := false, unsigned := false, root := 0, place := place }
  let n := y.members.length
  let red := e.keptCount y w.sys.rack * chunkMost
  let own := if w.isRoot y then n else ((List.range n).filter fun r => y.rackOfRank r == w.sys.rack).length
  max red (own * chunkPlain)

/-- The switch computes for the Syndicate: a member of its rack, its root, or a node placed on it. -/
def Switch.computesFor (w : Switch) (id : Nat) (y : Synd) : Bool :=
  let place := ((w.sched.active.bind (·.coll)).bind fun t => t.find id).getD []
  w.isRoot y || ((List.range y.members.length).any fun r => y.rackOfRank r == w.sys.rack) || place.any fun p => p.2 == w.sys.rack

/-- The active package serves the Syndicate. -/
def Switch.servesSynd (w : Switch) (id : Nat) : Bool := (w.sched.active.bind (·.coll)).any fun t => (t.find id).isSome

def syndObjs (c : Cmd) : List Obj := [.synd (c.num 0x80 1)]

/-- CONFIG of the ranks that end-point h holds among a list of members. flags: 1 a member is lost, 2 the Syndicate is new. -/
def rankFrame (id partition nextEpoch flags h : Nat) (members : List Nat) : List Byte :=
  leBytes 1 ciRank ++ leBytes 1 id ++ leBytes 1 partition ++ leBytes 2 members.length ++ leBytes 2 nextEpoch ++ leBytes 1 (epRack (members.getD 0 0 / 64))
    ++ leBytes 1 flags ++ (members.zipIdx.filter fun m => m.1 / 64 == h).flatMap fun m => leBytes 1 (m.1 % 64) ++ leBytes 2 m.2

/-- Relay ranks to end-points of the rack, from its plane-0 switch (08 R194). -/
def State.relayRanks (s : State) (a : Active) (id partition nextEpoch flags : Nat) (members eps : List Nat) : State :=
  if s.sw.sys.plane ≠ 0 then s
  else s.each (eps.dedup.filter fun h => epRack h == s.sw.sys.rack) fun s h =>
    s.relayEp (epSlot h) mConfig (rankFrame id partition nextEpoch flags h members) (some (a.fn, a.mb))

/-- A command has relays that no CONFIRM has ended. -/
def Switch.relaysOf (w : Switch) (fn mb : Nat) : Bool := w.mgmt.relay.any fun r => r.2.cmd == some (fn, mb)

/-- The Syndicate that a command forms or changes, its members in the command's data. -/
def Active.syndOf (a : Active) (old : Option Synd) : Synd :=
  match old with
  | some y => { y with members := a.data, lost := y.lost.filter (· != field a.payload 2 2) }
  | none => { partition := field a.payload 1 1, members := a.data, settle := if field a.payload 4 4 = 0 then 500 else field a.payload 4 4 }

/-- The relays of SYND_CREATE or SYND_MEMBER_SET are confirmed: the Syndicate stands as the command says. -/
def State.syndFormed (s : State) (a : Active) : State :=
  let id := field a.payload 0 1
  let old := s.sw.getSynd id
  let y := a.syndOf old
  let rsp := if old.isSome then [] else leBytes 4 (s.sw.keptMost id y) ++ leBytes 4 0
  (s.putSynd id y).finishWork a.fn a.mb mbOk rsp

/-- What SYND_CREATE does with the member list: its own checks in order, then the relays. -/
def State.syndRead (s : State) (a : Active) (host : Option (List Byte)) : State :=
  match host with
  | none => s.finishWork a.fn a.mb mbTimeout []
  | some l =>
    let id := field a.payload 0 1
    let part := field a.payload 1 1
    let n := field a.payload 2 2
    let vals := (List.range n).map fun i => field l (2 * i) 2
    let a := { a with data := vals.map memberOf }
    let y := a.syndOf none
    let digest := BitVec.ofNat 512 (leVal (slice a.payload 0x10 64))
    if l.length ≠ 2 * n ∨ Config.shake256 l ≠ digest then s.finishWork a.fn a.mb mbDigest []
    else if !vals.Nodup || vals.any (fun v => !epInDomain s.sw.sys (v % 1024)) then s.finishWork a.fn a.mb mbBadField []
    else if (s.sw.computesFor id y && !(engines48.any fun e => s.sw.engineOwner e == part))
        || decide ((s.sw.getPart part).collQuota * 0x100000 < s.sw.keptMost id y) then s.finishWork a.fn a.mb mbNoResource []
    else if 0x10000 ≤ a.opcode then s.finishWork a.fn a.mb mbOk []
    else
      let s := s.onActive a.fn a.mb fun x => { x with work := .relay 0, data := a.data }
      let s := s.relayRanks a id part 0 2 a.data (a.data.map (· / 64))
      if s.sw.relaysOf a.fn a.mb then s else s.syndFormed a

def syndCreateForm : Form where
  opcode := 0x0901
  len := 80
  range c _ := [(0x81, decide (15 < c.num 0x81 1)), (0x82, decide (c.num 0x82 2 = 0 ∨ 1024 < c.num 0x82 2)),
                (0x84, c.num 0x84 4 != 0 && (decide (c.num 0x84 4 < 10) || decide (10000 < c.num 0x84 4))), (0x88, decide (c.num 0x88 8 % 4096 ≠ 0))]
  fenced c s := s.sw.partFenced (c.num 0x81 1)
  running c s := (s.sw.getSynd (c.num 0x80 1)).isSome
  names c _ := .partition (c.num 0x81 1) :: syndObjs c
  own c s := [(!s.sw.servesSynd (c.num 0x80 1), mbConflict, 0)]
  late := true
  commit c s := (.later (.hostRead 0) (.partition (c.num 0x81 1) :: syndObjs c) [], s)
  start c s := s.askHost c.fn c.mb (·.commandRead (c.num 0x88 8) (2 * c.num 0x82 2)) fun s a => s.syndRead a none

/-- An epoch of the Syndicate is open. -/
def syndRuns (c : Cmd) (s : State) : Bool := (s.sw.getSynd (c.num 0x80 1)).any fun y => y.epochs.any Epoch.isOpen

/-- SYND_DESTROY (08 R196). The end-points hear nothing of it, and keep the ranks of their agents (DESIGN CHOICE, log 115). -/
def syndDestroyForm : Form where
  opcode := 0x0902
  len := 8
  running := syndRuns
  names c _ := syndObjs c
  own c s := [((s.sw.getSynd (c.num 0x80 1)).isNone, mbConflict, 0)]
  commit c s := (.now [], s.onSw fun w => { w with synd := w.synd.del (c.num 0x80 1)
                                                   escrow := { w.escrow with coll := w.escrow.coll.filter fun q => q.1 != c.num 0x80 1 } })

/-- SYND_MEMBER_SET (08 R196): each member's end-point that is not lost is told, and waited for. That of the member that leaves is told without being
waited for, since it may be the one that is lost. While another member is lost the Syndicate goes on refusing calls (R222). -/
def State.relayMember (s : State) (a : Active) (y : Synd) (id rank : Nat) : State :=
  let others := y.lost.filter (· != rank)
  let flags := b2n (!others.isEmpty)
  let eps := (a.data.zipIdx.filter fun m => !others.contains m.2).map fun m => m.1 / 64
  let old := y.members.getD rank 0 / 64
  let s := if s.sw.sys.plane = 0 ∧ epRack old = s.sw.sys.rack ∧ !eps.contains old ∧ (s.sw.getLink (epSlot old)).state ≠ .fenced then
      s.relayEp (epSlot old) mConfig (rankFrame id y.partition y.nextEpoch flags old a.data) none
    else s
  s.relayRanks a id y.partition y.nextEpoch flags a.data eps

def syndMemberSetForm : Form where
  opcode := 0x0903
  len := 8
  range c s := [(0x82, (s.sw.getSynd (c.num 0x80 1)).any fun y => decide (y.members.length ≤ c.num 0x82 2)),
                (0x84, !epInDomain s.sw.sys (c.num 0x84 2 % 1024))]
  running := syndRuns
  names c _ := syndObjs c
  own c s :=
    match s.sw.getSynd (c.num 0x80 1) with
    | none => [(true, mbConflict, 0)]
    | some y => [(y.members.contains (memberOf (c.num 0x84 2)), mbBadField, 0x84)]
  commit c s :=
    let members := ((s.sw.getSynd (c.num 0x80 1)).map (·.members)).getD []
    (.later (.relay 0) (syndObjs c) (members.set (c.num 0x82 2) (memberOf (c.num 0x84 2))), s)
  start c s :=
    match s.sw.activeOf c.fn c.mb, s.sw.getSynd (c.num 0x80 1) with
    | some a, some y =>
      let s := s.relayMember a y (c.num 0x80 1) (c.num 0x82 2)
      if s.sw.relaysOf c.fn c.mb then s else s.syndFormed a
    | _, _ => s

def syndQuotaSetForm : Form where
  opcode := 0x0904
  len := 8
  range c _ := [(0x80, decide (15 < c.num 0x80 1)), (0x84, decide (c.num 0x84 4 < 1 ∨ 96 < c.num 0x84 4))]
  fenced c s := s.sw.partFenced (c.num 0x80 1)
  names c _ := [.partition (c.num 0x80 1)]
  own c s := [(decide (96 < s.sw.otherQuotas (c.num 0x80 1) + c.num 0x84 4), mbNoResource, 0)]
  commit c s := (.now [], s.putPart (c.num 0x80 1) { s.sw.getPart (c.num 0x80 1) with collQuota := c.num 0x84 4 })

/-! ### Escrow -/

/-- The fabric mailboxes that ESCROW_MAILBOX_SET names. -/
def Cmd.mailboxes (c : Cmd) : List Nat := (List.range (c.num 0x82 2)).map (c.num 0x80 1 + ·)

def escrowMailboxSetForm : Form where
  opcode := 0x0910
  len := 8
  range c _ := [(0x81, !partOrNone (c.num 0x81 1)), (0x82, decide (c.num 0x82 2 = 0 ∨ 256 < c.num 0x80 1 + c.num 0x82 2))]
  fenced c s := c.num 0x81 1 != 0xFF && s.sw.partFenced (c.num 0x81 1)
  running c s := c.mailboxes.any fun m => (s.sw.getMbox m).filling
  names c _ := .mailboxes (c.num 0x80 1) (c.num 0x82 2) :: partObj (c.num 0x81 1)
  commit c s := (.now [], s.each c.mailboxes fun s m => s.putMbox m { s.sw.getMbox m with partition := c.num 0x81 1 })

def escrowQuotaSetForm : Form where
  opcode := 0x0911
  len := 8
  range c _ := [(0x80, decide (15 < c.num 0x80 1)), (0x81, decide (c.num 0x81 1 < 1 ∨ 64 < c.num 0x81 1))]
  fenced c s := s.sw.partFenced (c.num 0x80 1)
  names c _ := [.partition (c.num 0x80 1)]
  commit c s := (.now [], (s.putPart (c.num 0x80 1) { s.sw.getPart (c.num 0x80 1) with graphQuota := c.num 0x81 1 }).escrowSettle)

/-- Cancel the unstarted tasks of a graph; its done record then reports FENCED when no task has failed (09 R251). -/
def State.cancelGraph (s : State) (slot : Nat) : State :=
  match s.sw.getGraph slot with
  | none => s
  | some g => (s.cancelGraphFor slot g .fenced).escrowSettle

def escrowCancelForm : Form where
  opcode := 0x0912
  len := 8
  vf := true
  foreign c s := (s.sw.getGraph (c.num 0x80 1)).any fun g => g.partition != c.fn
  range c _ := [(0x80, decide (63 < c.num 0x80 1))]
  own c s := [(!((s.sw.getGraph (c.num 0x80 1)).any fun g => g.tag == c.num 0x84 4), mbConflict, 0)]
  commit c s := (.now [], s.cancelGraph (c.num 0x80 1))

/-! ### The rows -/

/-- SYND_CREATE (08 R194, R195). -/
def execSyndCreate (fn mb : Nat) (s : State) : Host.Outcome State Fault Refusal := .next (s.takeCommand syndCreateForm fn mb)

/-- SYND_DESTROY (08 R196). -/
def execSyndDestroy (fn mb : Nat) (s : State) : Host.Outcome State Fault Refusal := .next (s.takeCommand syndDestroyForm fn mb)

/-- SYND_MEMBER_SET (08 R196). -/
def execSyndMemberSet (fn mb : Nat) (s : State) : Host.Outcome State Fault Refusal := .next (s.takeCommand syndMemberSetForm fn mb)

/-- SYND_QUOTA_SET (08 R197; 13 R335). -/
def execSyndQuotaSet (fn mb : Nat) (s : State) : Host.Outcome State Fault Refusal := .next (s.takeCommand syndQuotaSetForm fn mb)

/-- ESCROW_MAILBOX_SET (09 R229). -/
def execEscrowMailboxSet (fn mb : Nat) (s : State) : Host.Outcome State Fault Refusal := .next (s.takeCommand escrowMailboxSetForm fn mb)

/-- ESCROW_QUOTA_SET (09 R235). -/
def execEscrowQuotaSet (fn mb : Nat) (s : State) : Host.Outcome State Fault Refusal := .next (s.takeCommand escrowQuotaSetForm fn mb)

/-- ESCROW_CANCEL (09 R251). -/
def execEscrowCancel (fn mb : Nat) (s : State) : Host.Outcome State Fault Refusal := .next (s.takeCommand escrowCancelForm fn mb)

end Sys2Proof.Machine
end

