-- ==== Sys2Proof/Machine/CatLedger.lean ====
section
/-!
DEFINITION. Mailbox commands of the Assay, the Ledger and checkpoints (17 Vault, keys and Assay, Ledger; 22 R521 to R533; 10 R275 to R278).
-/

namespace Sys2Proof.Machine

/-! ### The Assay report (22 R521 to R523) -/

/-- A partition of the report, as its record of 32 bytes. Partition 0 shows slot 0 and every unowned engine; the states are those of tenants. -/
def Switch.assayRecord (w : Switch) (p : Nat) : List Byte :=
  let bitsOf (l : List Nat) : Nat := l.foldl (fun m i => m + 2 ^ i) 0
  let st := match (w.getPart p).state with | .none => 0 | .admitted => 1 | .fenced => 2 | .closing => 3
  let slots := slots32.filter fun k => w.slotOf k p
  let engines := engines48.filter fun e => w.engineOwner e == p || (p == 0 && w.engineOwner e == 0xFF)
  leBytes 1 st ++ leBytes 1 (if (w.getPart p).vfBound then p else 0) ++ leBytes 2 0 ++ leBytes 4 (bitsOf slots)
    ++ leBytes 4 (bitsOf (slots.filter fun k => (w.getSlot k).state == .retiring)) ++ leBytes 6 (bitsOf engines)
    ++ leBytes 2 ((List.range 1440).filter fun g => w.poolOwner g == p).length ++ leBytes 4 0 ++ leBytes 8 ((w.getLedger p).nextSeq - 1)

/-- SCHED_STAGE works on the standby bank. -/
def Switch.staging (w : Switch) : Bool := w.teller.active.any fun a => a.opcode % 0x10000 == 0x0610

/-- Transition flags (22 R522). -/
def Switch.transition (w : Switch) : Nat :=
  let f := match w.sys.flash.writing with
    | some (.image _ _) => 1
    | some (.book _ _) => 4
    | some (.cal _) => 8
    | none => 0
  f + 2 * b2n w.staging + 16 * b2n w.sys.fallback

/-- The report before its signature, for a function and a nonce. -/
def State.assayBody (s : State) (fn : Nat) (nonce : List Byte) : List Byte :=
  let w := s.sw
  let y := w.sys
  let digest (d : Option Digest) : List Byte := digestBytes (d.getD 0)
  let other := (y.image (1 - y.runSlot)).filter fun i => decide (y.fuseSteps ≤ i.step)
  let flags := w.transition
  let state := b2n y.strongroom + 2 * b2n y.fused + 4 * b2n (!y.strongroom) + 8 * b2n (!y.strongroom) + 16 * b2n w.sched.armed.isSome
  let record (p : Nat) : List Byte := if fn = 0 ∨ p = 0 ∨ p = fn then w.assayRecord p else leBytes 32 0
  leBytes 4 0x59415341 ++ leBytes 2 1 ++ leBytes 2 y.homeId ++ leBytes 8 y.serial ++ leBytes 2 0x6424 ++ leBytes 1 0xB0 ++ leBytes 1 2
    ++ leBytes 1 y.mode ++ leBytes 1 state ++ leBytes 1 y.fuseSteps ++ leBytes 1 (y.runSlot + 2 * b2n other.isSome) ++ leBytes 1 flags ++ leBytes 7 0
    ++ leBytes 8 y.bootId ++ leBytes 8 y.assayCount ++ timeBytes (s.now .sw) ++ padTo 32 nonce ++ leBytes 32 0
    ++ digestBytes (Config.shake256 Config.identityKey) ++ digestBytes Config.romDigest ++ digest ((y.image y.runSlot).map (·.digest))
    ++ digest (if bit flags 0 then none else other.map (·.digest)) ++ digest (w.sched.active.map (·.digest))
    ++ digest (if bit flags 1 then none else w.sched.standby.map (·.digest)) ++ digest (y.loadedBook.map Book.digest)
    ++ leBytes 4 ((y.loadedBook.map (·.seq)).getD 0) ++ leBytes 4 (if bit flags 2 then 0 else (y.flash.best.map (·.seq)).getD 0) ++ leBytes 8 0
    ++ (List.range 16).flatMap record ++ leBytes 16 0 ++ padTo 3176 Config.certificate

def assayBytes : Nat := 5576

/-- Sign a report and write it to the host; the command's data is COUNTER. -/
def State.assaySign (s : State) (a : Active) : State :=
  let s := s.onSys fun y => { y with assayCount := y.assayCount + 1 }
  let body := s.assayBody a.fn (slice a.payload 0 32)
  let report := body ++ padTo 1280 (Config.falconSign (Config.shake256 body))
  (s.onActive a.fn a.mb fun x => { x with data := [s.sw.sys.assayCount] }).askHost a.fn a.mb (·.commandWrite (field a.payload 0x20 8) report)
    fun s a => s.finishWork a.fn a.mb mbTimeout []

/-- A measured element changes: a firmware activation or a partial reset is in progress (17 R443). -/
def Switch.changing (w : Switch) : Bool := w.activating || w.teller.active.any fun a => a.work == .reset

def assayRequestForm : Form where
  opcode := 0x0A20
  len := 48
  vf := true
  range c _ := [(0xA0, decide (c.num 0xA0 8 % 4096 ≠ 0))]
  own c _ := [(decide (c.num 0xA8 8 < assayBytes), mbNoResource, 0)]
  commit _ s := (.later .assay [] [], s)
  start c s := match s.sw.activeOf c.fn c.mb with
    | some a => if s.sw.changing then s else s.assaySign a
    | none => s

/-- COMMAND_COMPLETION of ASSAY_REQUEST: the wait has ended, or the report is written. -/
def State.assayWork (s : State) (a : Active) (host : Option (List Byte)) : State :=
  match a.data with
  | [] => if s.sw.changing then s else s.assaySign a
  | n :: _ => match host with
    | none => s.finishWork a.fn a.mb mbTimeout []
    | some _ => s.finishWork a.fn a.mb mbOk (leBytes 4 assayBytes ++ leBytes 4 0 ++ leBytes 8 n)

/-! ### The Ledger (22 R524, R525, R531) -/

/-- Partition 0's region moves, and its new shares are too small for what the old ones hold (22 R525). -/
def Ledger.movesBadly (l : Ledger) (length : Nat) : Bool :=
  let new : Ledger := { region := some (0, length) }
  l.region.isSome && (decide (new.chainShare < min (l.nextSeq - 1) l.chainShare) || decide (new.unitShare < min (l.nextUnit - 1) l.unitShare))

def ledgerRegionSetForm : Form where
  opcode := 0x0B01
  len := 24
  range c s :=
    let start := c.num 0x88 8
    let n := c.num 0x90 8
    let span := poolSpan start n
    let bad := decide (n % 0x200000 ≠ 0 ∨ n < 0x4000000 ∨ poolEnd < start + n)
    [(0x80, decide (15 < c.num 0x80 1)), (0x88, decide (start % 0x200000 ≠ 0)), (0x90, bad),
     (0x88, !bad && (List.range span.2).any fun i => isTenant (s.sw.poolOwner (span.1 + i)))]
  fenced c s := s.sw.partFenced (c.num 0x80 1)
  running c s := if c.num 0x80 1 = 0 then s.sw.sys.admitted else (s.sw.getPart (c.num 0x80 1)).state != .none
  transition c s := s.sw.rangeResets (c.num 0x88 8) (c.num 0x90 8)
  names c s := rangeObjs s (c.num 0x80 1) (c.num 0x88 8) (c.num 0x90 8)
  own c s := [(c.num 0x80 1 == 0 && (s.sw.getLedger 0).movesBadly (c.num 0x90 8), mbNoResource, 0)]
  commit c s :=
    let p := c.num 0x80 1
    let region := (c.num 0x88 8, c.num 0x90 8)
    (.now [], if p = 0 then s.putLedger 0 { s.sw.getLedger 0 with region := some region } else s.ledgerBegin p 0 (some region))

/-- Latest and oldest number that a stream keeps: what its share has not yet had to give up (22 R531). Without a region all is in staging. -/
def Ledger.latest (l : Ledger) (stream : Nat) : Nat := (if stream = 0 then l.nextSeq else l.nextUnit) - 1
def Ledger.oldest (l : Ledger) (stream : Nat) : Nat :=
  let share := if stream = 0 then l.chainShare else l.unitShare
  let mark := if stream = 0 then l.mark else l.unitMark
  if l.region.isNone then 1 else max 1 (min (mark + 1) (l.latest stream + 1 - share))

/-- Items first to first + n - 1 of a stream. -/
def Ledger.items (l : Ledger) (stream first n : Nat) : List Byte :=
  let take (k : Nat) : Bool := decide (first ≤ k ∧ k < first + n)
  if stream = 0 then (l.entries.filter fun e => take e.seq).flatMap entryBytes
  else (l.units.filter fun u => take u.1).flatMap fun u => padTo 128 u.2

def ledgerReadForm : Form where
  opcode := 0x0B02
  len := 40
  vf := true
  foreign c _ := c.num 0x80 1 != c.fn
  range c _ := [(0x80, decide (15 < c.num 0x80 1)), (0x81, decide (1 < c.num 0x81 1)), (0x90, c.num 0x90 4 == 0),
                (0x98, decide (c.num 0x98 8 % 4096 ≠ 0))]
  names c _ := [.partition (c.num 0x80 1)]
  own c s :=
    let l := s.sw.getLedger (c.num 0x80 1)
    let first := c.num 0x88 8
    [(decide (l.latest (c.num 0x81 1) < first ∨ first < l.oldest (c.num 0x81 1)), mbBadField, 0x88)]
  commit c s :=
    let l := s.sw.getLedger (c.num 0x80 1)
    let first := c.num 0x88 8
    let last := l.latest (c.num 0x81 1)
    let n := min (min (c.num 0x90 4) (c.num 0xA0 8 / 128)) (last + 1 - first)
    (.later .ledgerRead [.partition (c.num 0x80 1)] [n, last],
     s.ifThen s.sw.hostReads (·.commandWrite (c.num 0x98 8) (l.items (c.num 0x81 1) first n)))
  start c s := s.askHost c.fn c.mb id fun s a => s.finishWork a.fn a.mb mbTimeout []

/-- COMMAND_COMPLETION of LEDGER_READ: the entries are written, and a read by PF0 moves the export mark. -/
def State.ledgerWork (s : State) (a : Active) (host : Option (List Byte)) : State :=
  match host, a.data with
  | some _, [n, last] =>
    let p := field a.payload 0 1
    let upto := field a.payload 8 8 + n - 1
    let l := s.sw.getLedger p
    let s := if a.fn ≠ 0 ∨ n = 0 then s
      else if field a.payload 1 1 = 0 then s.putLedger p { l with mark := max l.mark upto } else s.putLedger p { l with unitMark := max l.unitMark upto }
    (s.noteHigh p).finishWork a.fn a.mb mbOk (leBytes 4 n ++ leBytes 4 0 ++ leBytes 8 last)
  | _, _ => s.finishWork a.fn a.mb mbTimeout []

/-- A seal that finds no room is made when room returns, and the command waits for it (22 R531). -/
def ledgerSealNowForm : Form where
  opcode := 0x0B03
  len := 8
  vf := true
  foreign c _ := c.num 0x80 1 != c.fn
  range c _ := [(0x80, decide (15 < c.num 0x80 1))]
  names c _ := [.partition (c.num 0x80 1)]
  own c s := [(!(s.sw.getLedger (c.num 0x80 1)).started, mbConflict, 0)]
  commit c s :=
    let p := c.num 0x80 1
    let s := s.ledgerSeal p
    if (s.sw.getLedger p).sealDue then (.later .flushed [.partition p] [], s) else (.now (leBytes 8 (s.sw.getLedger p).lastSeal), s)

/-- COMMAND_COMPLETION of LEDGER_SEAL_NOW. -/
def State.sealWork (s : State) (a : Active) : State :=
  let l := s.sw.getLedger (field a.payload 0 1)
  if l.sealDue then s else s.finishWork a.fn a.mb mbOk (leBytes 8 l.lastSeal)

/-! ### Checkpoints (10 R275 to R278; 22 R532, R533) -/


/-- Bytes of an image of a range. -/
def imageBytes (length : Nat) : Nat := 4096 + length / 128 * 136 + 1344

/-- Request of a checkpoint command: partition, start, length, host address and bytes there. -/
structure CkptReq where
  part : Nat
  start : Nat
  length : Nat
  addr : Nat
  room : Nat

def ckptReq (l : List Byte) : CkptReq := { part := field l 0 1, start := field l 8 8, length := field l 0x10 8, addr := field l 0x18 8, room := field l 0x20 8 }

def CkptReq.lines (r : CkptReq) : List Nat := (List.range (r.length / 128)).map (r.start / 128 + ·)

def ckptRange (c : Cmd) (_ : State) : List (Nat × Bool) :=
  [(0x80, !isTenant (c.num 0x80 1)), (0x88, decide (c.num 0x88 8 % 4096 ≠ 0)), (0x90, decide (c.num 0x90 8 % 4096 ≠ 0)),
   (0x98, decide (c.num 0x98 8 % 4096 ≠ 0))]

def ckptObjs (c : Cmd) (s : State) : List Obj := rangeObjs s (c.num 0x80 1) (c.num 0x88 8) (c.num 0x90 8)

/-- The checks that both commands make first (10 R276). -/
def ckptOwn (c : Cmd) (s : State) : List (Bool × Nat × Nat) :=
  let r := ckptReq c.body
  [(!s.sw.ownsPool r.part r.start r.length, mbBadField, 0x88), (decide (r.room < imageBytes r.length), mbNoResource, 0)]

/-- Directory entries of lines of a range that satisfy p. -/
def Switch.rangeEntries (w : Switch) (r : CkptReq) (p : DirEntry → Bool) : List Nat :=
  w.dirLines fun e => decide (r.start / 128 ≤ e.line ∧ e.line < (r.start + r.length) / 128) && p e

/-- An entry whose holder may have a newer line than memory. -/
def DirEntry.owned (e : DirEntry) : Bool := e.state != .s

/-- The checkpoint header (22 R532). t: the time of its CHECKPOINT entry. -/
def Sys.ckptHeader (y : Sys) (r : CkptReq) (seq t : Nat) : List Byte :=
  leBytes 4 0x54504B43 ++ leBytes 2 2 ++ leBytes 2 0x6424 ++ leBytes 8 y.serial ++ leBytes 1 r.part ++ leBytes 1 0 ++ leBytes 2 y.homeId ++ leBytes 4 0
    ++ leBytes 8 r.start ++ leBytes 8 r.length ++ leBytes 8 seq ++ timeBytes t ++ leBytes 8 y.bootId ++ List.replicate 184 0
    ++ padTo 3176 Config.certificate ++ List.replicate 664 0

/-- A line of a range is Busy. -/
def Switch.rangeBusy (w : Switch) (r : CkptReq) : Bool :=
  w.mem.unit.any fun u => u.2.busy.any fun b => decide (r.start / 128 ≤ b.line ∧ b.line < (r.start + r.length) / 128)

/-- Take the copies of owned lines back, or read the range and write the image: the CHECKPOINT entry's SEQ and time stand in the command's data. -/
def State.ckptTry (s : State) (a : Active) : State :=
  let r := ckptReq a.payload
  let owned := s.sw.rangeEntries r DirEntry.owned
  if !owned.isEmpty then s.each owned State.backInvLine
  else if s.sw.rangeBusy r then s
  else
    let s := s.each r.lines fun s l => (s.settleLine l).lineRead l
    let h := s.sw.mem.home
    let body := s.sw.sys.ckptHeader r (a.data.getD 0 0) (a.data.getD 1 0) ++ r.lines.flatMap fun l => h.cipher l ++ leBytes 8 (h.check l).toNat
    let d := Config.shake256 body
    let image := body ++ digestBytes d ++ padTo 1280 (Config.falconSign d)
    (s.onActive a.fn a.mb fun x => { x with data := [a.data.getD 0 0, a.data.getD 1 0, d.toNat] }).askHost a.fn a.mb (·.commandWrite r.addr image)
      fun s a => s.finishWork a.fn a.mb mbTimeout []

/-- A line of a range is LOST, or on a fenced channel (10 R276). -/
def Switch.saveLost (w : Switch) (r : CkptReq) : Bool := r.lines.any w.lineLost

/-- A line of a range lies on a channel that a partial reset has (16 R420, 19 R484). -/
def ckptTransition (c : Cmd) (s : State) : Bool := s.sw.rangeResets (c.num 0x88 8) (c.num 0x90 8)

def ckptFenced (c : Cmd) (s : State) : Bool := s.sw.partFenced (c.num 0x80 1)

def ckptSaveForm : Form where
  opcode := 0x0B10
  len := 40
  vf := true
  foreign c _ := c.num 0x80 1 != c.fn
  range := ckptRange
  fenced := ckptFenced
  transition := ckptTransition
  names := ckptObjs
  busy c s := (s.sw.getLedger (c.num 0x80 1)).started && !((s.sw.getLedger (c.num 0x80 1)).room 256 false)
  own := ckptOwn
  verify c s := if s.sw.saveLost (ckptReq c.body) then mbFenced else mbOk
  commit c s :=
    let r := ckptReq c.body
    let l := s.sw.getLedger r.part
    let e := s.mkEntry 0x09 0 s.sw.sys.homeId (leBytes 8 r.start ++ leBytes 8 r.length ++ leBytes 8 l.nextUnit)
    (.later .ckpt (ckptObjs c s) [if l.started then l.nextSeq else 0, e.time], s.ledgerAdd r.part e)
  start c s := match s.sw.activeOf c.fn c.mb with
    | some a => s.ckptTry a
    | none => s

/-- COMMAND_COMPLETION of CKPT_SAVE. -/
def State.saveWork (s : State) (a : Active) (host : Option (List Byte)) : State :=
  let r := ckptReq a.payload
  match a.data with
  | [seq, _, d] => match host with
    | none => s.finishWork a.fn a.mb mbTimeout []
    | some _ =>
      if s.sw.saveLost r then s.finishWork a.fn a.mb mbFenced []
      else s.finishWork a.fn a.mb mbOk (leBytes 8 (imageBytes r.length) ++ leBytes 8 seq ++ leBytes 64 d)
  | _ => s.ckptTry a

def ckptRestoreForm : Form where
  opcode := 0x0B11
  len := 40
  vf := true
  foreign c _ := c.num 0x80 1 != c.fn
  range := ckptRange
  fenced := ckptFenced
  transition := ckptTransition
  names := ckptObjs
  own := ckptOwn
  late := true
  commit c s := (.later (.hostRead 0) (ckptObjs c s) [], s)
  start c s :=
    let r := ckptReq c.body
    s.askHost c.fn c.mb (·.commandRead r.addr r.room) fun s a => s.finishWork a.fn a.mb mbTimeout []

/-- The writer's certificate verifies to the Opfort root and names a part that writes checkpoints (22 R517, R533). -/
def ckptCertOk (c : List Byte) : Bool :=
  (field c 6 2 == 0x6424 || field c 6 2 == 0x3208) && slice c 0x728 64 == digestBytes (Config.shake256 Config.rootKey)
    && Config.falconVerify Config.rootKey (Config.shake256 (slice c 0 0x768)) (slice c 0x768 1280)

/-- The status of an image read for a restore: its check over the length it records, and its recorded range (10 R276, 22 R533). -/
def CkptReq.imageStatus (r : CkptReq) (l : List Byte) : Nat :=
  let n := imageBytes (field l 0x20 8)
  let body := l.take (n - 1344)
  let d := Config.shake256 body
  let cert := slice l 0x100 3176
  if l.length < n ∨ slice l (n - 1344) 64 ≠ digestBytes d ∨ field l 0 4 ≠ 0x54504B43 ∨ field l 4 2 ≠ 2 then mbDigest
  else if !(ckptCertOk cert && Config.falconVerify (slice cert 0x20 1793) d (slice l (n - 1280) 1280)) then mbSignature
  else if field l 0x18 8 ≠ r.start ∨ field l 0x20 8 ≠ r.length then mbBadField
  else mbOk

/-- A line of the range is LOST in itself or on a fenced channel; the LOST of a region is cleared by the restore (10 R276, R278; DEDUCED, log 90). -/
def Switch.rangeLost (w : Switch) (r : CkptReq) : Bool :=
  r.lines.any fun l => (w.mem.home.lines.get l {}).lost || (w.chan (channelOf (l * 128))).fenced

/-- Write each line of an accepted image, once no end-point holds a copy of one and none is Busy; LOST is cleared (10 R278). -/
def State.restoreTry (s : State) (a : Active) : State :=
  let r := ckptReq a.payload
  let held := s.sw.rangeEntries r fun _ => true
  if !held.isEmpty then s.each held State.backInvLine
  else if s.sw.rangeBusy r then s
  else if s.sw.rangeLost r then s.finishWork a.fn a.mb mbFenced []
  else
    let img := a.data.map fun n => BitVec.ofNat 8 n
    let s := s.each r.lines.zipIdx fun s l =>
      let o := 4096 + 136 * l.2
      s.onMem fun m => { m with cache := m.cache.filter fun c => c.line != l.1
                                home := m.home.storeCipher l.1 (slice img o 128) (BitVec.ofNat 64 (field img (o + 128) 8)) }
    let regions := (r.lines.map (· / 0x4000)).dedup.filter fun i => (s.sw.mem.home.region.get i {}).lost
    let s := s.each regions fun s i => s.putRegion i { s.sw.mem.home.region.get i {} with lost := false, owner := 0x3FF }
    (s.mirrorLines r.lines).2.finishWork a.fn a.mb mbOk []

/-- COMMAND_COMPLETION of CKPT_RESTORE. -/
def State.restoreWork (s : State) (a : Active) (host : Option (List Byte)) : State :=
  match a.work with
  | .ckpt => s.restoreTry a
  | _ => match host with
    | none => s.finishWork a.fn a.mb mbTimeout []
    | some l =>
      let r := ckptReq a.payload
      let st := r.imageStatus l
      if st ≠ mbOk then s.finishWork a.fn a.mb st []
      else if 0x10000 ≤ a.opcode then s.finishWork a.fn a.mb (if s.sw.rangeLost r then mbFenced else mbOk) []
      else
        let s := s.onActive a.fn a.mb fun x => { x with work := .ckpt, data := l.map (·.toNat) }
        match s.sw.activeOf a.fn a.mb with
        | some a => s.restoreTry a
        | none => s

/-! ### The rows -/

/-- ASSAY_REQUEST (17 R443; 22 R521 to R523). -/
def execAssayRequest (fn mb : Nat) (s : State) : Host.Outcome State Fault Refusal := .next (s.takeCommand assayRequestForm fn mb)

/-- LEDGER_REGION_SET (17 Ledger; 22 R524, R525). -/
def execLedgerRegionSet (fn mb : Nat) (s : State) : Host.Outcome State Fault Refusal := .next (s.takeCommand ledgerRegionSetForm fn mb)

/-- LEDGER_READ (17 Ledger; 22 R531). -/
def execLedgerRead (fn mb : Nat) (s : State) : Host.Outcome State Fault Refusal := .next (s.takeCommand ledgerReadForm fn mb)

/-- LEDGER_SEAL_NOW (17 Ledger; 22 R527). -/
def execLedgerSealNow (fn mb : Nat) (s : State) : Host.Outcome State Fault Refusal := .next (s.takeCommand ledgerSealNowForm fn mb)

/-- CKPT_SAVE (10 R275 to R277; 22 R532). -/
def execCkptSave (fn mb : Nat) (s : State) : Host.Outcome State Fault Refusal := .next (s.takeCommand ckptSaveForm fn mb)

/-- CKPT_RESTORE (10 R275, R276, R278; 22 R533). -/
def execCkptRestore (fn mb : Nat) (s : State) : Host.Outcome State Fault Refusal := .next (s.takeCommand ckptRestoreForm fn mb)

end Sys2Proof.Machine
end

