-- ==== Sys2Proof/Machine/CatPool.lean ====
section
/-!
DEFINITION. Mailbox commands of the pool (17 Pool, R441; 05 R116 to R121, R140; 06 R149, R154, R156, R159, R160, R163, R168).
-/

namespace Sys2Proof.Machine

/-! ### Regions -/

/-- The layout that REGION_SET, REGION_HANDOVER and REGION_READ share. -/

def Cmd.home (c : Cmd) : Nat := c.num 0x80 2
def Cmd.first (c : Cmd) : Nat := c.num 0x84 4
def Cmd.count (c : Cmd) : Nat := c.num 0x88 4
def Cmd.owner (c : Cmd) : Nat := c.num 0x8E 2

/-- An end-point home that this switch relays to: it is the plane-0 switch of the end-point's rack (05 R116). -/
def Switch.relaysTo (w : Switch) (h : Nat) : Bool := w.sys.plane == 0 && isEpId h && epRack h == w.sys.rack

/-- HOME is neither this switch nor an end-point that it relays to (DEDUCED, log 37). -/
def Switch.homeBad (w : Switch) (h : Nat) : Bool := h != w.sys.homeId && !w.relaysTo h

/-- Regions of the window of a home: the pool of a switch, or the largest exposed window. -/
def Switch.homeRegions (w : Switch) (h : Nat) : Nat := if h = w.sys.homeId then 737280 else 2 ^ 21

/-- HOME, FIRST and COUNT out of range. -/
def regionRange (most : Nat) (c : Cmd) (s : State) : List (Nat × Bool) :=
  [(0x80, s.sw.homeBad c.home), (0x84, decide (s.sw.homeRegions c.home ≤ c.first)),
   (0x88, decide (c.count = 0 ∨ most < c.count ∨ s.sw.homeRegions c.home < c.first + c.count))]

/-- An owner that is neither none nor an end-point of the domain. -/
def Switch.ownerBad (w : Switch) (o : Nat) : Bool := o != 0x3FF && !epInDomain w.sys o

/-- HOME or OWNER is a fenced end-point. -/
def regionFenced (c : Cmd) (s : State) : Bool := (s.sw.epRec c.home).verdict || (s.sw.epRec c.owner).verdict

def regionObjs (c : Cmd) : List Obj := [.regions c.home c.first c.count]

/-- The regions that a command names. -/
def Cmd.regions (c : Cmd) : List Nat := (List.range c.count).map (c.first + ·)

/-- A CONFIG frame with a command's own layout after the item code (23 R539). -/
def State.relayCommand (s : State) (c : Cmd) (item : Nat) : State :=
  s.relayEp (epSlot c.home) mConfig (leBytes 1 item ++ c.body) (some (c.fn, c.mb))

def regionSetForm : Form where
  opcode := 0x0810
  len := 16
  range c s :=
    let mode := c.num 0x8C 1
    let own := c.home == s.sw.sys.homeId
    let paired := own && s.sw.mem.pair.any fun p => rangesMeet (512 * p.1) 512 c.first c.count
    regionRange 65536 c s ++ [(0x8C, decide (3 < mode) || (mode == mCoherent && (!own || paired))),
                              (0x8E, s.sw.ownerBad c.owner || (mode != mOwned && c.owner != 0x3FF))]
  fenced := regionFenced
  running c s := c.home == s.sw.sys.homeId && s.sw.mem.home.region.any fun r => decide (c.first ≤ r.1 ∧ r.1 < c.first + c.count) && r.2.handover
  names c _ := regionObjs c
  commit c s := (.later (if c.home = s.sw.sys.homeId then .regionChange else .relay 0) (regionObjs c) [], s)
  start c s :=
    if c.home = s.sw.sys.homeId then (s.each c.regions fun s i => s.beginRegion i c.fn c.mb (c.num 0x8C 1) c.owner false).regionCheck
    else s.relayCommand c ciRegionSet

def regionHandoverForm : Form where
  opcode := 0x0811
  len := 16
  range c s :=
    let own := c.home == s.sw.sys.homeId
    let range := regionRange 512 c s
    let free := own && !(range.any (·.2)) && c.regions.any fun i => (s.sw.mem.home.region.get i {}).mode != mOwned
    range ++ [(0x84, free), (0x8C, c.num 0x8C 1 != 0), (0x8E, s.sw.ownerBad c.owner)]
  fenced := regionFenced
  names c _ := regionObjs c
  commit c s := (.later (if c.home = s.sw.sys.homeId then .handover else .relay 0) (regionObjs c) [], s)
  start c s :=
    if c.home = s.sw.sys.homeId then (s.each c.regions fun s i => s.beginRegion i c.fn c.mb mOwned c.owner true).regionCheck
    else s.relayCommand c ciHandover

/-- Ask an end-point home for the next entries of a REGION_READ, at most 120 in one frame; the command's data are the bytes read so far. -/
def State.regionReadNext (s : State) (a : Active) : State :=
  let h := field a.payload 0 2
  let got := a.data.length / 2
  let n := min 120 (field a.payload 8 4 - got)
  s.relayEp (epSlot h) mConfig (leBytes 1 ciRegionRead ++ leBytes 2 h ++ leBytes 2 0 ++ leBytes 4 (field a.payload 4 4 + got) ++ leBytes 4 n ++ leBytes 4 0)
    (some (a.fn, a.mb))

def regionReadForm : Form where
  opcode := 0x0812
  len := 16
  range c s := regionRange 960 c s ++ [(0x8C, c.num 0x8C 1 != 0), (0x8E, c.owner != 0)]
  names c _ := regionObjs c
  commit c s :=
    if c.home = s.sw.sys.homeId then (.now (c.regions.flatMap fun i => leBytes 2 (s.sw.mem.home.region.get i {}).bits), s)
    else (.later (.relay 0) (regionObjs c) [], s)
  start c s := match s.sw.activeOf c.fn c.mb with
    | some a => s.regionReadNext a
    | none => s

/-! ### LOST lines and regions -/

/-- A line of [first, first + count) lies on a fenced channel. -/
def Switch.onFencedChannel (w : Switch) (first count : Nat) : Bool := (rangeChannels (first * 128) (count * 128)).any fun c => (w.chan c).fenced

/-- Clear LOST on one line: it holds zero stored bytes (05 R140). -/
def State.clearLine (s : State) (l : Nat) : State :=
  s.onMem fun m => { m with cache := m.cache.filter fun c => c.line != l
                            home := { m.home with mem := Memory.writeN m.home.mem (l * 128) (List.replicate 128 0), lines := m.home.lines.del l } }

/-- Clear LOST on the LOST lines among a range, and on the LOST regions among a range (05 R140). -/
def State.clearLines (s : State) (first count : Nat) : State :=
  s.each ((s.sw.mem.home.lines.filter fun e => decide (first ≤ e.1 ∧ e.1 < first + count) && e.2.lost).map Prod.fst) State.clearLine

def State.clearRegions (s : State) (first count : Nat) : State :=
  s.each ((s.sw.mem.home.region.filter fun e => decide (first ≤ e.1 ∧ e.1 < first + count) && e.2.lost).map Prod.fst) fun s i =>
    s.putRegion i { s.sw.mem.home.region.get i {} with lost := false, owner := 0x3FF }

def regionLostClearForm : Form where
  opcode := 0x0813
  len := 24
  range c s :=
    let all := s.sw.homeRegions c.home * (if c.num 0x82 1 = 0 then 0x4000 else 1)
    [(0x80, s.sw.homeBad c.home), (0x82, decide (1 < c.num 0x82 1)), (0x88, decide (all ≤ c.num 0x88 8)),
     (0x90, decide (c.num 0x90 4 = 0 ∨ all < c.num 0x88 8 + c.num 0x90 4))]
  fenced c s := (s.sw.epRec c.home).verdict
  transition c s := c.home == s.sw.sys.homeId && c.num 0x82 1 == 0 && s.sw.rangeResets (c.num 0x88 8 * 128) (c.num 0x90 4 * 128)
  running c s := c.home == s.sw.sys.homeId && c.num 0x82 1 == 0 && s.sw.onFencedChannel (c.num 0x88 8) (c.num 0x90 4)
  names c _ :=
    let unit := if c.num 0x82 1 = 0 then 0x4000 else 1
    let first := c.num 0x88 8 / unit
    [.regions c.home first ((c.num 0x88 8 + c.num 0x90 4 - 1) / unit + 1 - first)]
  commit c s :=
    if c.home ≠ s.sw.sys.homeId then (.later (.relay 0) [.regions c.home 0 (2 ^ 21)] [], s)
    else (.now [], if c.num 0x82 1 = 0 then s.clearLines (c.num 0x88 8) (c.num 0x90 4) else s.clearRegions (c.num 0x88 8) (c.num 0x90 4))
  start c s := s.relayCommand c ciLostClear

/-! ### Near store, scrub and retirement -/

def nearStoreSetForm : Form where
  opcode := 0x0820
  len := 8
  range c _ := [(0x80, decide (47 < c.num 0x80 1)), (0x81, decide (15 < c.num 0x81 1))]
  fenced c s := (s.sw.getEngine (c.num 0x80 1)).fenced
  running c s := s.sw.engineOwner (c.num 0x80 1) != 0xFF || (s.sw.getEngine (c.num 0x80 1)).task.isSome
  names c _ := [.engine (c.num 0x80 1), .nearStore]
  commit c s :=
    let e := c.num 0x80 1
    let m := c.num 0x81 1
    let s := s.onSys fun y => { y with cfg := { y.cfg with stepMask := y.cfg.stepMask.put e m } }
    if s.sw.mem.mask.get e 0 = m then (.now [], s)
    else (.later .drain [.engine e, .nearStore] [], s.onMem fun x => { x with drainOld := some s.sw.cacheSteps, drainMask := some (e, m) })

def scrubSetForm : Form where
  opcode := 0x0821
  len := 8
  range c _ := [(0x80, decide (c.num 0x80 2 < 1 ∨ 168 < c.num 0x80 2))]
  commit c s := (.now [], s.onSys fun y => { y with cfg := { y.cfg with scrubHours := c.num 0x80 2 } })

/-- A lowered limit acts at the next start (17 R441). -/
def retireLimitSetForm : Form where
  opcode := 0x0822
  len := 8
  range c _ := [(0x80, decide (23 < c.num 0x80 1) && c.num 0x80 1 != 0xFF), (0x82, decide (c.num 0x82 2 < 1 ∨ 32768 < c.num 0x82 2))]
  fenced c s := (s.sw.chan (c.num 0x80 1)).fenced
  names c _ := if c.num 0x80 1 = 0xFF then (List.range 24).map Obj.channel else [.channel (c.num 0x80 1)]
  commit c s :=
    let chans := if c.num 0x80 1 = 0xFF then List.range 24 else [c.num 0x80 1]
    (.now [], s.onSys fun y => { y with cfg := { y.cfg with retireLimit := chans.foldl (fun t n => t.put n (c.num 0x82 2)) y.cfg.retireLimit } })

/-! ### Partnered regions -/

def pairObjs (c : Cmd) (s : State) : List Obj :=
  [.pool (c.num 0x80 2) 1, .regions s.sw.sys.homeId (512 * c.num 0x80 2) 512]

def Switch.pairOf (w : Switch) (c : Cmd) : Option Pair := w.mem.pair.find (c.num 0x80 2)

/-- End a pairing, or what there was of one: the responses that it holds are sent. -/
def State.endPair (s : State) (g : Nat) : State :=
  match s.sw.mem.pair.find g with
  | none => s
  | some p => (s.releaseHeld g ((p.held.map (·.1)).foldl max 0)).onMem fun m => { m with pair := m.pair.del g }

def partnerSetForm : Form where
  opcode := 0x0830
  len := 8
  range c s :=
    let g := c.num 0x80 2
    let p := c.num 0x82 2
    [(0x80, decide (1439 < g) || s.sw.mem.home.region.any fun r => r.1 / 512 == g && r.2.mode == mCoherent),
     (0x82, decide (p / 8 ≠ s.sw.sys.rack ∨ p % 8 = s.sw.sys.plane)), (0x84, decide (1 < c.num 0x84 1)), (0x86, decide (64 < c.num 0x86 2))]
  names := pairObjs
  commit c s :=
    let p : Pair := { partner := c.num 0x82 2, primary := c.num 0x84 1 == 0, rate := if c.num 0x86 2 = 0 then 16 else c.num 0x86 2 }
    (.now [], (s.endPair (c.num 0x80 2)).onMem fun m => { m with pair := m.pair.put (c.num 0x80 2) p })

/-- REGION of PARTNER_PROMOTE and PARTNER_BREAK. -/
def pairRange (c : Cmd) (_ : State) : List (Nat × Bool) := [(0x80, decide (1439 < c.num 0x80 2))]

def partnerPromoteForm : Form where
  opcode := 0x0831
  len := 8
  range := pairRange
  names := pairObjs
  own c s := [(!((s.sw.pairOf c).any fun p => !p.primary && p.state == .paired), mbConflict, 0)]
  commit c s :=
    let up (g : Nat) (p : Pair) : Pair := if g = c.num 0x80 2 then { p with primary := true, state := .single, unacked := [], early := [] } else p
    (.now [], s.onMem fun m => { m with pair := m.pair.mapVals up })

def partnerBreakForm : Form where
  opcode := 0x0832
  len := 8
  range := pairRange
  names := pairObjs
  own c s := [((s.sw.pairOf c).isNone, mbConflict, 0)]
  commit c s :=
    let g := c.num 0x80 2
    let secondary := (s.sw.pairOf c).any fun p => !p.primary
    let s := s.endPair g
    let mine := if secondary then (List.range 512).map (512 * g + ·) else []
    (.now [], s.each mine fun s i => s.onRegion i fun r => { r with lost := true })

/-! ### The rows -/

/-- REGION_SET (05 R116, R117). -/
def execRegionSet (fn mb : Nat) (s : State) : Host.Outcome State Fault Refusal := .next (s.takeCommand regionSetForm fn mb)

/-- REGION_HANDOVER (05 R120, R121). -/
def execRegionHandover (fn mb : Nat) (s : State) : Host.Outcome State Fault Refusal := .next (s.takeCommand regionHandoverForm fn mb)

/-- REGION_READ (05 R110; 17 Pool). -/
def execRegionRead (fn mb : Nat) (s : State) : Host.Outcome State Fault Refusal := .next (s.takeCommand regionReadForm fn mb)

/-- REGION_LOST_CLEAR (05 R140; 06 R160). -/
def execRegionLostClear (fn mb : Nat) (s : State) : Host.Outcome State Fault Refusal := .next (s.takeCommand regionLostClearForm fn mb)

/-- NEAR_STORE_SET (06 R149, R154). -/
def execNearStoreSet (fn mb : Nat) (s : State) : Host.Outcome State Fault Refusal := .next (s.takeCommand nearStoreSetForm fn mb)

/-- SCRUB_SET (06 R156). -/
def execScrubSet (fn mb : Nat) (s : State) : Host.Outcome State Fault Refusal := .next (s.takeCommand scrubSetForm fn mb)

/-- RETIRE_LIMIT_SET (06 R159; 17 R441). -/
def execRetireLimitSet (fn mb : Nat) (s : State) : Host.Outcome State Fault Refusal := .next (s.takeCommand retireLimitSetForm fn mb)

/-- PARTNER_SET (06 R163). -/
def execPartnerSet (fn mb : Nat) (s : State) : Host.Outcome State Fault Refusal := .next (s.takeCommand partnerSetForm fn mb)

/-- PARTNER_PROMOTE (06 R168). -/
def execPartnerPromote (fn mb : Nat) (s : State) : Host.Outcome State Fault Refusal := .next (s.takeCommand partnerPromoteForm fn mb)

/-- PARTNER_BREAK (06 R168). -/
def execPartnerBreak (fn mb : Nat) (s : State) : Host.Outcome State Fault Refusal := .next (s.takeCommand partnerBreakForm fn mb)

end Sys2Proof.Machine
end

