-- ==== Sys2Proof/Machine/Slots.lean ====
section
/-!
DEFINITION. What a port gives its link layer to send: frames, void tails and control slots become slots that wait for flits (15 R383 to R387).
-/

namespace Sys2Proof.Machine

/-- Slot kinds (15 R383). A waiting second header slot is kept apart from the BODY slots that a void tail drops. -/
def kHead : Nat := 1
def kBody : Nat := 2
def kCtrl : Nat := 3
def kHeader2 : Nat := 6

/-- The 16 bytes of a control slot (15 R384). -/
def ctrlBytes : Ctrl → List Byte
  | .void reason => padTo 16 (leBytes 1 1 ++ leBytes 1 reason)
  | .credit entries => padTo 16 (leBytes 2 2 ++ entries.flatMap fun e => leBytes 2 (e.1 * 2 ^ 12 + e.2))
  | .probeReq id => padTo 16 (leBytes 1 3 ++ leBytes 1 id)
  | .probeRsp id d t2 => leBytes 1 4 ++ leBytes 1 id ++ leBytes 6 d ++ leBytes 8 t2
  | .probeInfo hops book master valid via change package =>
    leBytes 1 5 ++ leBytes 1 hops ++ leBytes 1 book ++ leBytes 1 (b2n master + b2n valid * 2 + b2n via * 4) ++ leBytes 4 change ++ leBytes 8 package
  | .reserved typ => padTo 16 (leBytes 1 typ)

/-- HEAD and second header slot of a frame (15 R383). -/
def headerSlots (f : Frame) : List (Nat × List Byte) := [(kHead, slice f.headerBytes 0 16), (kHeader2, slice f.headerBytes 16 16)]

/-- The present payload slots of a frame. -/
def payloadSlots (f : Frame) : List (Nat × List Byte) := f.presentSlots.map fun b => (kBody, b)

/-- The slots that stay when the frame given last is ended by a void tail: those of its payload that have not been sent go (15 R385). -/
def dropTail (l : List (Nat × List Byte)) : List (Nat × List Byte) := (l.reverse.dropWhile fun x => x.1 == kBody).reverse

/-- The transmitter takes a frame whole. -/
def Tx.giveFrame (t : Tx) (f : Frame) : Tx :=
  if t.cutHead then { t with slots := t.slots ++ payloadSlots f, cutHead := false } else { t with slots := t.slots ++ headerSlots f ++ payloadSlots f }

/-- The transmitter takes a header whose tail has not arrived (13 R346). -/
def Tx.giveHead (t : Tx) (f : Frame) : Tx := { t with slots := t.slots ++ headerSlots f, cutHead := true }

/-- The transmitter ends the frame given last with a void tail. -/
def Tx.giveVoid (t : Tx) (reason : Nat) : Tx := { t with slots := dropTail t.slots ++ [(kCtrl, ctrlBytes (.void reason))], cutHead := false }

def Tx.giveCtrl (t : Tx) (c : Ctrl) : Tx := { t with ctrls := t.ctrls ++ [c] }

/-- Keys are in use in the transmit direction: frames and control slots cross the port (15 R399). -/
def Link.sends (l : Link) : Bool := l.tx.key.isSome

/-- One thing that has left a port goes to its transmitter. A port without keys loses it. -/
def State.give (s : State) (d : Dev) (p : Nat) (g : Tx → Tx) : State := if (s.getLink d p).sends then s.onLink d p fun l => { l with tx := g l.tx } else s

/-- One entry of out. -/
def State.loadOut (s : State) (o : Out) : State :=
  match o with
  | .frame d p f => s.give d p fun t => t.giveFrame f
  | .head d p f => s.give d p fun t => t.giveHead f
  | .voidTail d p r => s.give d p fun t => t.giveVoid r
  | .ctrl d p c => s.give d p fun t => t.giveCtrl c
  | _ => s

/-- Everything that has left a port since the last time becomes slots of its transmitter. -/
def State.loadSlots (s : State) : State := { s.each (s.out.drop s.loaded) State.loadOut with loaded := s.out.length }

end Sys2Proof.Machine
end

