-- ==== Sys2Proof/Machine/LinkKeys.lean ====
section
/-!
DEFINITION. The end of a port's service other than by a command (14 R364, 13 R345), and the exchange and renewal of link keys
(15 R401 to R405).
-/

namespace Sys2Proof.Machine

/-- Something happens at a port of a device: an end-point that is off takes part in nothing. -/
def State.linkEv (s : State) (d : Dev) (g : State → State) : State :=
  match d with
  | .sw => g s
  | .ep => s.epEv g

/-! ### A port fails -/

/-- A port is fenced by its own hardware, for a cause other than link loss, with a fault record (14 R364, R366, R367; 15 R402). -/
def State.portFault (s : State) (d : Dev) (p kind : Nat) : State :=
  match d with
  | .sw => (((s.recordPort kind p).fencePort p 2).regionGone).invalPoll
  | .ep => (s.epRaise kind).epFencePort p 2

/-- A port goes down and trains again from DETECT: no link loss (13 R345, 23 R541). -/
def State.portDown (s : State) (d : Dev) (p : Nat) : State :=
  match d with
  | .sw => s.retrain p
  | .ep => (((s.onLink .ep p fun l => { l.fresh with state := .detect }).onEp fun e =>
      { e with spent := e.spent.filter fun c => c.1 / 16 != p }).emit (.tickClock .ep p)).lostSource .ep p

/-- A training attempt fails: DETECT follows after 100 ms, and the eighth failure in a row fences the port (14 R364). The wait is spent in DOWN
(DESIGN CHOICE, log 31). -/
def State.trainFail (s : State) (d : Dev) (p : Nat) : State :=
  let n := (s.getLink d p).attempts + 1
  let wait (l : Link) : Link := { l.fresh with state := .down, attempts := n, retry := true, waking := l.waking }
  if n ≥ 8 then s.portFault d p fTrainFailed
  else match d with
    | .sw => s.onPort p wait
    | .ep => s.onLink .ep p wait

/-- A port in a training state after DETECT. -/
def PortState.inTraining : PortState → Bool
  | .identify | .equalise | .decide | .map | .secure | .time => true
  | _ => false

/-! ### Messages of the exchange (15 R401) -/

/-- This side begins exchanges: the switch on an edge port, the east trunk on a trunk link. -/
def State.initiates (s : State) (d : Dev) (p : Nat) : Bool :=
  match d with
  | .sw => isEdge s.sw.sys p || decide (p < 56)
  | .ep => false

def keyHeader (num len : Nat) : List Byte := leBytes 1 num ++ leBytes 3 0 ++ leBytes 4 len

/-- G, nonce, key or ciphertext, and certificate. The spec gives G no width: one byte (log 9). -/
def keyBody (m : KeyMsg) : List Byte := leBytes 1 m.g ++ leBytes 32 m.nonce.toNat ++ m.kem ++ m.cert

def sigLength : Nat := 1280

/-- INIT, and RESP up to its signature. -/
def initBytes (m : KeyMsg) : List Byte := keyHeader 1 (8 + (keyBody m).length) ++ keyBody m
def respSigned (m : KeyMsg) : List Byte := keyHeader 2 (8 + (keyBody m).length + sigLength) ++ keyBody m

/-- RESP whole, FIN and REKEY_REQ. -/
def respBytes (m : KeyMsg) : List Byte := respSigned m ++ padTo sigLength m.sig
def finBytes (sig : List Byte) : List Byte := keyHeader 3 (8 + sigLength) ++ padTo sigLength sig
def rekeyReqBytes : List Byte := keyHeader 0 8

/-- TH: the digest of INIT and RESP whole. -/
def transcript (init resp : KeyMsg) : Digest := Config.shake256 (initBytes init ++ respBytes resp)

/-- A message in the slots of KEYX flits, 240 bytes each, the last padded with zeros. fin: it is a FIN, whose last flit is marked. -/
def keyPieces (msg : List Byte) (fin : Bool) : List (List Byte × Bool) :=
  let n := ceilDiv msg.length 240
  (List.range n).map fun i => (slice msg (240 * i) 240, fin && i + 1 == n)

/-- A message waits to be sent in KEYX flits. -/
def State.sendKeyMsg (s : State) (d : Dev) (p : Nat) (msg : List Byte) (fin : Bool) : State :=
  s.onLink d p fun l => { l with tx := { l.tx with keyx := l.tx.keyx ++ keyPieces msg fin } }

/-- G of this side's transmit direction: as configured at training (15 R400); a rekey keeps it. An AKG-8's is the default. -/
def State.txG (s : State) (d : Dev) (p : Nat) : Nat :=
  match (s.getLink d p).tx.key, d with
  | some k, _ => k.g
  | none, .sw => (s.sw.sys.cfg.port.get p {}).g
  | none, .ep => 4

/-- A message of this side's own with this KEM key or ciphertext: its nonce is a free value (log 5). -/
def State.ownKeyMsg (s : State) (d : Dev) (p : Nat) (kem : List Byte) : KeyMsg × State :=
  let (n, s) := s.free
  ({ g := s.txG d p, nonce := BitVec.ofNat 256 n, kem := padTo 1568 kem, cert := Config.certificate }, s)

/-- The initiator begins an exchange with INIT. Its decapsulation key is a free value (log 5). -/
def State.beginExchange (s : State) (d : Dev) (p : Nat) : State :=
  let (k, s) := s.free
  let dk := leBytes 64 k
  let (m, s) := s.ownKeyMsg d p (Config.linkKemKey dk)
  (s.onLink d p fun l => { l with xchg := some { stage := 1, mine := m, dk := dk }, tx := { l.tx with retry := false } }).sendKeyMsg d p (initBytes m) false

/-- A rekey starts, by INIT or by REKEY_REQ (15 R405). -/
def State.startRekey (s : State) (d : Dev) (p : Nat) : State :=
  let l := s.getLink d p
  if l.state ≠ .active ∨ l.xchg.isSome then s
  else if s.initiates d p then s.beginExchange d p
  else (s.onLink d p fun l => { l with tx := { l.tx with retry := false } }).sendKeyMsg d p rekeyReqBytes false

/-! ### Checks (15 R402, 21 R517) -/

/-- The certificate verifies to the Opfort root and is the partner's of the identity record. -/
def certOk (r : Identity) (c : List Byte) : Bool :=
  decide (c.length = 3176)
    && (slice c 0x728 64 == digestBytes (Config.shake256 Config.rootKey))
    && Config.falconVerify Config.rootKey (Config.shake256 (slice c 0 0x768)) (slice c 0x768 1280)
    && decide (field c 0x10 8 % 2 ^ 32 = r.serial) && decide (field c 6 2 = r.part)

/-- The identity public key of a certificate. -/
def certKey (c : List Byte) : List Byte := slice c 0x20 1793

/-! ### Keys (15 R403, R404) -/

/-- The two directions' keys of an exchange with shared secret ss: the initiator's, the responder's. -/
def linkKeys (ss : List Byte) (init resp : KeyMsg) (epoch : Bool) : LinkKey × LinkKey :=
  let m := Config.shakeBytes 72 (ss ++ digestBytes (transcript init resp))
  let key (off g : Nat) : LinkKey := { key := BitVec.ofNat 256 (field m off 32), salt := BitVec.ofNat 32 (field m (off + 32) 4), epoch := epoch, g := g }
  (key 0 init.g, key 36 resp.g)

/-- The responder's keys are installed with FIN: the first exchange ends SECURE, a later one leaves the other epoch waiting. What the Vault held of the
exchange is erased. -/
def Link.install (l : Link) (tx rx : LinkKey) : Link :=
  if l.state = .secure then
    { l with state := .time, xchg := none, probesOk := 0, partnerOk := 0, tx := { l.tx with key := some tx, counter := 0 }, rx := { l.rx with key := some rx, counter := 0 } }
  else { l with xchg := none, tx := { l.tx with newKey := some tx }, rx := { l.rx with newKey := some rx } }

/-- FIN is acknowledged: the initiator's exchange ends, and the first of a training ends SECURE with epoch 0 in force (15 R404). -/
def Link.finAcked (l : Link) : Link :=
  if l.state = .secure then
    { l with state := .time, xchg := none, probesOk := 0, partnerOk := 0, tx := { l.tx with key := l.tx.newKey, newKey := none, fin := none, counter := 0 }
             rx := { l.rx with key := l.rx.key.or l.rx.newKey, newKey := none } }
  else { l with xchg := none, tx := { l.tx with fin := none } }

/-- EPOCH of the exchange that now ends. -/
def Link.nextEpoch (l : Link) : Bool := match l.tx.key with | some k => l.state != .secure && !k.epoch | none => false

/-- Install keys; a switch port's change of state is an event. -/
def State.installKeys (s : State) (d : Dev) (p : Nat) (tx rx : LinkKey) : State :=
  match d with
  | .sw => s.onPort p fun l => l.install tx rx
  | .ep => s.onLink .ep p fun l => l.install tx rx

/-- INIT at the responder: RESP carries the ciphertext that a free value gives under the initiator's key (log 5). -/
def State.initArrives (s : State) (d : Dev) (p : Nat) (m : KeyMsg) : State :=
  let l := s.getLink d p
  if s.initiates d p || !([PortState.secure, .active].contains l.state) then s
  else if !certOk (l.partner.getD {}) m.cert then s.portFault d p fLinkAuth
  else
    let (coin, s) := s.free
    let (ct, ss) := Config.linkEncap m.kem (leBytes 32 coin)
    let (r, s) := s.ownKeyMsg d p ct
    let r := { r with sig := Config.falconSign (Config.shake256 (initBytes m ++ respSigned r)) }
    (s.onLink d p fun l => { l with xchg := some { stage := 2, partner := m, mine := r, ss := padTo 32 ss } }).sendKeyMsg d p (respBytes r) false

/-- RESP at the initiator: both directions' keys wait for FIN to be acknowledged, and the Vault erases the decapsulation key. -/
def State.respArrives (s : State) (d : Dev) (p : Nat) (m : KeyMsg) : State :=
  let l := s.getLink d p
  match l.xchg with
  | none => s
  | some x =>
    if x.stage ≠ 1 ∨ !(s.initiates d p) then s
    else if !(certOk (l.partner.getD {}) m.cert && Config.falconVerify (certKey m.cert) (Config.shake256 (initBytes x.mine ++ respSigned m)) m.sig) then
      s.portFault d p fLinkAuth
    else
      let (tx, rx) := linkKeys (padTo 32 (Config.linkDecap x.dk m.kem)) x.mine m l.nextEpoch
      (s.onLink d p fun l => { l with xchg := some { x with stage := 3, partner := m, dk := [] }
                                      tx := { l.tx with newKey := some tx }, rx := { l.rx with newKey := some rx } }).sendKeyMsg d p
        (finBytes (Config.falconSign (transcript x.mine m))) true

/-- FIN at the responder. -/
def State.finArrives (s : State) (d : Dev) (p : Nat) (m : KeyMsg) : State :=
  let l := s.getLink d p
  match l.xchg with
  | none => s
  | some x =>
    if x.stage ≠ 2 then s
    else if !Config.falconVerify (certKey x.partner.cert) (transcript x.partner x.mine) m.sig then s.portFault d p fLinkAuth
    else
      let (rx, tx) := linkKeys x.ss x.partner x.mine l.nextEpoch
      s.installKeys d p tx rx

/-- An exchange is not finished within 20 ms: SECURE fails, or the rekey is to be tried again (15 R402, R405). -/
def State.exchangeLate (s : State) (d : Dev) (p : Nat) : State :=
  let l := s.getLink d p
  if l.state = .secure then s.trainFail d p
  else if l.xchg.isNone then s
  else s.onLink d p fun l => { l with xchg := none, tx := { l.tx with newKey := none, fin := none, retry := true }, rx := { l.rx with newKey := none } }

/-! ### The rows -/

/-- INIT (15 R401, R402). -/
def execInit (d : Dev) (port : Nat) (m : KeyMsg) (s : State) : Host.Outcome State Fault Refusal := .next (s.linkEv d fun s => s.initArrives d port m)

/-- RESP (15 R401 to R403). -/
def execResp (d : Dev) (port : Nat) (m : KeyMsg) (s : State) : Host.Outcome State Fault Refusal := .next (s.linkEv d fun s => s.respArrives d port m)

/-- FIN (15 R402 to R404). -/
def execFin (d : Dev) (port : Nat) (m : KeyMsg) (s : State) : Host.Outcome State Fault Refusal := .next (s.linkEv d fun s => s.finArrives d port m)

/-- REKEY_REQ: the initiator begins an exchange (15 R401). -/
def execRekeyReq (d : Dev) (port : Nat) (s : State) : Host.Outcome State Fault Refusal := .next (s.linkEv d fun s => if s.initiates d port then s.startRekey d port else s)

/-- KEY_EXCHANGE_TIMEOUT (15 R402). -/
def execKeyExchangeTimeout (d : Dev) (port : Nat) (s : State) : Host.Outcome State Fault Refusal := .next (s.linkEv d fun s => s.exchangeLate d port)

/-- REKEY_COUNT: a transmit counter has reached 2^39 (15 R405). -/
def execRekeyCount (d : Dev) (port : Nat) (s : State) : Host.Outcome State Fault Refusal :=
  .next (s.linkEv d fun s => if 2 ^ 39 ≤ (s.getLink d port).tx.counter then s.startRekey d port else s)

/-- KEY_COUNTER_EXHAUSTED: a transmit counter has reached 2^40 under one key (15 R405). -/
def execKeyCounterExhausted (d : Dev) (port : Nat) (s : State) : Host.Outcome State Fault Refusal :=
  .next (s.linkEv d fun s => if 2 ^ 40 ≤ (s.getLink d port).tx.counter then s.portDown d port else s)

/-- REKEY_RETRY: 10 ms after a failed rekey (15 R405). -/
def execRekeyRetry (d : Dev) (port : Nat) (s : State) : Host.Outcome State Fault Refusal :=
  .next (s.linkEv d fun s => if (s.getLink d port).tx.retry then s.startRekey d port else s)

end Sys2Proof.Machine
end

