-- ==== Sys2Proof/Machine/Training.lean ====
section
/-!
DEFINITION. Bring-up of a port: detection, identity, equalisation and the lane map (14 R364 to R372); lane failure, sparing and
tests (14 R373 to R378); Chime, link loss and cables (14 R379, 23 R541 to R544, 25 R577).
-/

namespace Sys2Proof.Machine

/-! ### Lane maps (14 R373, R374). Lanes: D0 to D7 are 0 to 7, J is 8, T is 9. -/

def Link.lanes (l : Link) : LaneMap := { width := l.width, jewel := l.jewel, clock := l.clockLane, fail := l.fail }
def Link.putLanes (l : Link) (m : LaneMap) : Link := { l with width := m.width, jewel := m.jewel, clockLane := m.clock, fail := m.fail }

/-- A data lane works, if need be by the Jewel lane that spares it. -/
def LaneMap.works (m : LaneMap) (i : Nat) : Bool := !bit m.fail i || m.jewel == i

/-- The four lanes of group g work. -/
def LaneMap.whole (m : LaneMap) (g : Nat) : Bool := (List.range 4).all fun i => m.works (4 * g + i)

/-- The lane carries the clock: T is clock lane 8, J clock lane 9; a data lane that J spares has its signal on J. -/
def LaneMap.clocks (m : LaneMap) (lane : Nat) : Bool :=
  if lane = 9 then m.clock == 8 else if lane = 8 then m.clock == 9 || (decide (m.clock < 8) && m.jewel == m.clock) else m.clock == lane

/-- The lane is in use. -/
def LaneMap.inUse (m : LaneMap) (lane : Nat) : Bool :=
  if lane = 8 then decide (m.jewel < 9)
  else if lane = 9 then m.clock == 8
  else (m.jewel != lane && (m.width == 0 || m.width == lane / 4 + 1)) || m.clock == lane

/-- Half width on a whole group, the one in use if there is one; a lost clock goes to the lowest working lane of the other group,
which may be one that the Jewel lane spares. none: fenced. -/
def LaneMap.narrow (m : LaneMap) (lostClock : Bool) : Option LaneMap :=
  let group := if m.width = 0 then (if m.whole 0 then some 0 else if m.whole 1 then some 1 else none)
    else if m.whole (m.width - 1) then some (m.width - 1) else none
  group.bind fun g =>
    if !lostClock then some { m with width := g + 1 }
    else (((List.range 4).map (4 * (1 - g) + ·)).find? m.works).map fun c => { m with width := g + 1, clock := c }

/-- One more lane fails (14 R374). none: the port is fenced. -/
def LaneMap.failLane (m : LaneMap) (lane : Nat) : Option LaneMap :=
  let n := { m with fail := m.fail ||| 2 ^ lane }
  if lane = 8 then
    if m.jewel < 9 then { n with jewel := 15 }.narrow (m.clocks 8) else some { n with jewel := 15 }
  else if !m.inUse lane then some n
  else if m.jewel = 9 then some { n with jewel := if lane = 9 then 8 else lane, clock := if m.clocks lane then 9 else m.clock }
  else n.narrow (m.clocks lane)

/-- The lane map of a set of failed lanes at DECIDE: J first, then D0 to D7 and T, each by R374. -/
def laneMapOf (failed : List Nat) : Option LaneMap :=
  ((failed.filter (· == 8)) ++ failed.filter (· != 8)).foldl (fun m i => m.bind fun m => m.failLane i) (some {})

/-- Both directions run at half width together, each on its own group (14 R375). none: no width results. -/
def pairMaps (a b : LaneMap) : Option (LaneMap × LaneMap) :=
  let half (m o : LaneMap) : Option LaneMap := if m.width = 0 ∧ o.width ≠ 0 then m.narrow false else some m
  (half a b).bind fun x => (half b a).map fun y => (x, y)

/-- The lowest figure of the lanes in use. -/
def LaneMap.lowest (m : LaneMap) (figures : List Nat) : Nat :=
  ((List.range 10).filter m.inUse).foldl (fun n i => min n (figures.getD i 0)) 255

/-! ### Identity (14 R365 to R368) -/

/-- The 32 bytes of an identity record, CHECK last (14 R365). -/
def identityBytes (r : Identity) : List Byte :=
  let b := leBytes 2 r.part ++ leBytes 1 r.stepping ++ leBytes 1 r.role ++ leBytes 1 r.mode ++ leBytes 1 r.port ++ leBytes 2 (r.homeId % 1024) ++ leBytes 1 r.maxStep
    ++ leBytes 1 (b2n r.warm + b2n r.table * 2) ++ leBytes 1 r.racks ++ leBytes 1 0 ++ leBytes 4 r.serial ++ leBytes 8 r.storedPartner ++ leBytes 4 0
  b ++ leBytes 4 (crc32c b).toNat

/-- The identity record of 32 bytes; none: its CHECK does not verify. -/
def identityOfBytes (l : List Byte) : Option Identity :=
  if l.length ≠ 32 ∨ (crc32c (slice l 0 0x1C)).toNat ≠ field l 0x1C 4 then none
  else some { part := field l 0 2, stepping := field l 2 1, role := field l 3 1, mode := field l 4 1, port := field l 5 1, homeId := field l 6 2 % 1024,
              maxStep := field l 8 1, warm := bit (field l 9 1) 0, table := bit (field l 9 1) 1, racks := field l 0x0A 1, serial := field l 0x0C 4,
              storedPartner := field l 0x10 8 }

/-- The record that the data lanes of a port deliver: four identical copies whose CHECK verifies (14 R365). -/
def recordOf (copies : List (List Byte)) : Option Identity :=
  (copies.find? fun c => decide (4 ≤ copies.countP (· == c)) && (identityOfBytes c).isSome).bind identityOfBytes

/-- The record a port sends. -/
def State.identityOf (s : State) (d : Dev) (p : Nat) : Identity :=
  let l := s.getLink d p
  let old := (l.stored.map (·.partner)).getD 0
  match d with
  | .sw =>
    let y := s.sw.sys
    { part := 0x6424, stepping := 0xB0, role := if isEdge y p then 0 else if p < 56 then 1 else 2, mode := y.mode, port := p, homeId := y.homeId,
      maxStep := (y.cfg.port.get p {}).maxStep, warm := l.stored.isSome, table := y.flash.calValid && y.flash.calLink.any fun e => e.1 / 4 == p,
      racks := if y.mode = 0 then 1 else y.racks, serial := y.serial % 2 ^ 32, storedPartner := old }
  | .ep =>
    { part := 0x0008, stepping := 0xB0, role := 3, port := p, homeId := s.ep.homeId, maxStep := 3, warm := l.stored.isSome, table := s.ep.cal.any fun e => e.1 / 4 == p,
      serial := s.ep.serial % 2 ^ 32, storedPartner := old }

/-- A part that a port may connect to (14 R366, 00 R3). -/
def knownPart (n : Nat) : Bool := n == 0x6424 || n == 0x0008 || (decide (0x8000 ≤ n) && decide (n ≤ 0x80FF))

/-- The fault with which a port fences its partner, in the order of R366; an AKG-8 checks the plane (R367). -/
def State.identityFault (s : State) (d : Dev) (p : Nat) (r : Identity) : Option Nat :=
  match d with
  | .sw =>
    let y := s.sw.sys
    let isSw := r.part == 0x6424
    if !knownPart r.part then some fPartnerPart
    else if isEdge y p == isSw then some fWiring
    else if !isEdge y p && (r.mode != y.mode || r.racks != y.racks || r.homeId != s.sw.peer p) then some fWiring
    else none
  | .ep => if isSwitchId r.homeId ∧ r.homeId % 8 = p then none else some fWiring

/-- Both records carry WARM and each names the other. -/
def fastPair (mine theirs : Identity) : Bool :=
  mine.warm && theirs.warm && mine.storedPartner == theirs.serial && theirs.storedPartner == mine.serial

/-- Change a link of either device; a switch port's change of state is an event. -/
def State.setLink (s : State) (d : Dev) (p : Nat) (g : Link → Link) : State :=
  match d with
  | .sw => s.onPort p g
  | .ep => s.onLink .ep p g

/-- The port locks to its partner's Tick lane (14 R364). An AKG-8 port fenced for another cause than link loss leaves its fence (23 R544), and its
training begins afresh. -/
def State.clockLock (s : State) (d : Dev) (p : Nat) : State :=
  let l := s.getLink d p
  let listens := l.state == .detect || (d == .ep && l.state == .fenced && l.fenceWhy != 1)
  if !listens || (d == .ep && s.ep.ucie.isEmpty) then s
  else (s.setLink d p fun l => { l with state := .identify, attempts := if l.state = .fenced then 0 else l.attempts }).emit (.identity d p (identityBytes (s.identityOf d p)))

/-- The ladder begins at S0. -/
def Link.climb (l : Link) : Link :=
  { l with state := .equalise, step := 0, width := 0, jewel := 9, clockLane := 8, fail := 0, out := {}, fom := 0, eqTable := false, allTable := true, slowLink := false
           steps := [], adaptive := false, fast := false }

/-- The port settles at the step of a result (14 R371): its lanes of both directions and its equalisation. Below S3 it is a slow link (14 R372). -/
def Link.settle (l : Link) (r : StepRes) : Link :=
  { l with state := .map, step := r.step, width := r.width, jewel := r.jewel, clockLane := r.clockLane, fail := r.fail, fom := r.fom, out := r.out, eq := r.eq
           eqTable := l.allTable, slowLink := decide (r.step < 3) }

/-- The stored step, lane map and equalisation are taken (14 R368). -/
def Link.resume (l : Link) (r : StepRes) : Link := { l.settle r with fast := true, eqTable := r.table }

/-- A port has settled: below S3 the gates of the scheduled classes close and a switch records LINK_SLOW (14 R372). -/
def State.settled (s : State) (d : Dev) (p : Nat) : State :=
  if !(s.getLink d p).slowLink then s
  else match d with
    | .sw => (s.closePort .sw p).recordPort fLinkSlow p
    | .ep => s.closePort .ep p

/-- An identity record taken in IDENTIFY. -/
def State.identityTaken (s : State) (d : Dev) (p : Nat) (r : Identity) : State :=
  let l := s.getLink d p
  if l.state ≠ .identify then s
  else match s.identityFault d p r with
    | some k => s.portFault d p k
    | none =>
      match l.stored, fastPair (s.identityOf d p) r with
      | some st, true => (s.setLink d p fun l => { l with partner := some r }.resume st.res).settled d p
      | _, _ => s.setLink d p fun l => { l with partner := some r }.climb

/-! ### Equalisation and DECIDE (14 R369 to R371) -/

/-- The target step: the least of both MAX_STEPs. -/
def State.targetStep (s : State) (d : Dev) (p : Nat) : Nat :=
  min (s.identityOf d p).maxStep (((s.getLink d p).partner.map (·.maxStep)).getD 3)

/-- This side's link equalisation entry of a port and step (14 R369). -/
def State.eqEntry (s : State) (d : Dev) (p step : Nat) : Option EqSet :=
  match d with
  | .sw => if s.sw.sys.flash.calValid then s.sw.sys.flash.calLink.find (p * 4 + step) else none
  | .ep => s.ep.cal.find (p * 4 + step)

/-- No width results at the step: the one before it stands, and at S0 the port is fenced. -/
def State.stepFails (s : State) (d : Dev) (p : Nat) : State :=
  match (s.getLink d p).steps.head? with
  | some r => (s.setLink d p fun l => l.settle r).settled d p
  | none => s.portFault d p fTrainFailed

/-- Both directions' lanes at DECIDE: those with a figure below 64 have failed. -/
def decideMaps (r : LaneReport) : Option (LaneMap × LaneMap) :=
  let low (figures : List Nat) := (List.range 10).filter fun i => decide (figures.getD i 0 < 64)
  (laneMapOf (low r.figures)).bind fun a => (laneMapOf (low r.partner)).bind fun b => pairMaps a b

/-- DECIDE at the current step, which ran in table mode or adaptive mode with the equalisation eq (14 R371). -/
def State.decideStep (s : State) (d : Dev) (p : Nat) (table : Bool) (eq : EqSet) (q : LaneReport) : State :=
  let k := (s.getLink d p).step
  let s := s.setLink d p fun l => { l with allTable := l.allTable && table }
  match decideMaps q with
  | none => s.stepFails d p
  | some (m, o) =>
    let r : StepRes := { step := k, table := table, width := m.width, jewel := m.jewel, clockLane := m.clock, fom := m.lowest q.figures, fail := m.fail, out := o, eq := eq }
    let up := decide (96 ≤ min r.fom (o.lowest q.partner)) && decide (k < s.targetStep d p)
    let s := s.setLink d p fun l =>
      let l := { l with steps := r :: l.steps, adaptive := false }
      if up then { l with step := k + 1 } else l.settle r
    if up then s else s.settled d p

/-- Equalisation at a step ends: the mode it ran in (14 R369), then DECIDE. In AUTO mode table mode that leaves a lane of either direction below 96 gives way to
adaptive mode. -/
def State.equalised (s : State) (d : Dev) (p : Nat) (r : LaneReport) : State :=
  let l := s.getLink d p
  if l.state ≠ .equalise then s
  else
    let mode := match d with | .sw => (s.sw.sys.cfg.port.get p {}).eqMode | .ep => 0
    let own := s.eqEntry d p l.step
    let entry := r.table && own.isSome
    let table := if mode = 0 then entry && !l.adaptive else mode == 1
    if mode = 1 ∧ !entry then s.stepFails d p
    else if mode = 0 ∧ table ∧ (List.range 10).any (fun i => decide (min (r.figures.getD i 0) (r.partner.getD i 0) < 96)) then s.setLink d p fun l => { l with adaptive := true }
    else s.decideStep d p table (if table then own.getD {} else r.eq) r

/-- MAP is agreed: SECURE begins with the initiator's INIT; a fast resume with a lane in use of either direction below 64 climbs the ladder instead (14
R368). -/
def State.mapped (s : State) (d : Dev) (p : Nat) (figures partner : List Nat) : State :=
  let l := s.getLink d p
  if l.state ≠ .map then s
  else if l.fast && decide (min (l.lanes.lowest figures) (l.out.lowest partner) < 64) then s.setLink d p Link.climb
  else
    let s := s.loadSlots
    let s := s.setLink d p fun l => { l with state := .secure, fom := if l.fast then l.lanes.lowest figures else l.fom, rx := {}, tx := {}, xchg := none }
    if s.initiates d p then s.beginExchange d p else s

/-- A training state passes its bound, or the partner's clock is lost before ACTIVE (14 R364). -/
def State.trainingFails (s : State) (d : Dev) (p : Nat) : State :=
  if (s.getLink d p).state.inTraining then s.trainFail d p else s

/-- 100 ms after a failure: a new attempt. -/
def State.trainAgain (s : State) (d : Dev) (p : Nat) : State :=
  let l := s.getLink d p
  if !l.retry || (d == .sw && s.sw.sys.noCable.contains p) then s
  else (s.setLink d p fun l => { l with state := .detect, retry := false }).emit (.tickClock d p)

/-! ### Lanes in service (14 R373 to R375) -/

/-- Record a lane's failure. -/
def State.recordLane (s : State) (d : Dev) (p lane : Nat) : State :=
  match d with
  | .sw => s.record { kind := fLaneFailed, domain := 1, index := p, detail := leBytes 1 lane }
  | .ep => s.epRaise fLaneFailed

/-- No lane map is left: the port is fenced (14 R374 rule 4). -/
def State.lanesGone (s : State) (d : Dev) (p : Nat) : State :=
  match d with
  | .sw => ((s.fencePort p 2).regionGone).invalPoll
  | .ep => s.epFencePort p 2

/-- The data lanes lie in both groups. -/
def bothGroups (lanes : List Nat) : Bool := lanes.any (fun i => decide (i < 4)) && lanes.any fun i => decide (4 ≤ i) && decide (i < 8)

/-- The lanes of both directions after failures in one of them, found in one check. none: the port is fenced (14 R374, R375). -/
def Link.failLanes (l : Link) (lanes : List Nat) (out : Bool) : Option (LaneMap × LaneMap) :=
  if bothGroups lanes then none
  else
    let m := lanes.foldl (fun m i => m.bind fun m => m.failLane i) (some (if out then l.out else l.lanes))
    m.bind fun m => if out then pairMaps l.lanes m else pairMaps m l.out

/-- A lane map differs from another in more than the failed lanes and a Jewel lane lost while idle: the port must change its lanes. -/
def LaneMap.moves (a b : LaneMap) : Bool := a.width != b.width || a.clock != b.clock || (a.jewel != b.jewel && b.jewel != 15)

/-- Lanes in use, or the idle Jewel lane, fail in a direction of an ACTIVE port, found in one check. A failure during a change waits for its end; a test that
runs ends. Each side records the failures of its receive direction; those of the other it learns from its partner. -/
def State.laneFails (s : State) (d : Dev) (p : Nat) (lanes : List Nat) (cause : LaneFault) (out : Bool) : State :=
  let l := s.getLink d p
  if l.state ≠ .active then s
  else if l.changing.isSome then s.setLink d p fun l => { l with later := l.later ++ [(lanes, cause, out)] }
  else
    let l := l.endTest
    let m := if out then l.out else l.lanes
    let hit := lanes.filter fun i => decide (i < 10) && !bit m.fail i && (m.inUse i || i == 8)
    if hit.isEmpty then s
    else
      let s := if out then s else s.each hit fun s i => s.recordLane d p i
      match l.failLanes hit out with
      | none => s.lanesGone d p
      | some (a, b) =>
        if l.lanes.moves a || l.out.moves b then
          s.setLink d p fun _ => { l with fail := a.fail, out := { l.out with fail := b.fail }, changing := some (a, b) }
        else s.setLink d p fun _ => { l.putLanes a with out := b }

/-- The new lane maps are in force: flits not acknowledged are replayed, and failures that waited are taken. -/
def State.laneChanged (s : State) (d : Dev) (p : Nat) : State :=
  let l := s.getLink d p
  match l.changing with
  | none => s
  | some (a, b) =>
    let s := s.setLink d p fun l =>
      ({ l.putLanes { a with fail := l.fail } with out := { b with fail := l.out.fail }, changing := none, changed := true, later := []
                                                   tx := { l.tx with resend := l.tx.replay.map Prod.fst } } : Link).keep
    s.each l.later fun s x => s.laneFails d p x.1 x.2.1 x.2.2

/-! ### Bit-error tests (14 R376 to R378) -/

/-- A test may run: ACTIVE at S3 with the Jewel lane of both directions idle. -/
def Link.testable (l : Link) : Bool := l.state == .active && l.step == 3 && l.jewel == 9 && l.out.jewel == 9 && l.changing.isNone && l.test.isNone

/-- The Jewel lane takes over a lane under test in both directions; for T it carries the clock. -/
def Link.testLane (l : Link) (install : Bool) (lane : Nat) : Link :=
  let clock := if lane = 9 then 9 else 8
  { l with test := some { install := install, lane := lane }, jewel := 10, clockLane := clock, out := { l.out with jewel := 10, clock := clock } }

/-- A test of a port begins on D0, on both directions at once. -/
def State.beginTest (s : State) (d : Dev) (p : Nat) (install : Bool) : State :=
  if (s.getLink d p).testable then s.setLink d p fun l => l.testLane install 0 else s

/-- Bit errors a lane may show: ⌊bits × 10^-12⌋ over 10 s, or 100 s of an installation test. -/
def allowedErrors (install : Bool) : Nat := if install then 21 else 2

/-- The lanes of a direction after the test of one: one that fails stays on the Jewel lane (14 R374 rule 1, R377). -/
def LaneMap.tested (m : LaneMap) (lane : Nat) (good : Bool) : LaneMap :=
  if good then { m with jewel := 9, clock := 8 }
  else { m with jewel := if lane = 9 then 8 else lane, clock := if lane = 9 then 9 else 8, fail := m.fail ||| 2 ^ lane }

/-- A lane's test time ends in both directions, with the bit errors of each: a switch gives its own result to the Tally; the next lane, D0 to D7 and then T,
or the end. -/
def State.laneTestEnd (s : State) (d : Dev) (p lane errors partner : Nat) : State :=
  match (s.getLink d p).test with
  | none => s
  | some t =>
    if t.lane ≠ lane ∨ (s.getLink d p).state ≠ .active then s
    else
      let ok (n : Nat) := decide (n ≤ allowedErrors t.install)
      let s := match d with
        | .sw => s.onSw fun w =>
          { w with tally := { w.tally with laneTest := w.tally.laneTest.put (p * 16 + lane) { install := t.install, errors := errors } } }
        | .ep => s
      if ok errors && ok partner then
        s.setLink d p fun l => if lane = 9 then l.endTest else l.testLane t.install (if lane = 7 then 9 else lane + 1)
      else
        (if ok errors then s else s.recordLane d p lane).setLink d p fun l =>
          ({ ({ l with test := none } : Link).putLanes (l.lanes.tested lane (ok errors)) with out := l.out.tested lane (ok partner), changed := true } : Link).keep

/-! ### Link loss and cables (23 R541 to R543, 25 R577) -/

/-- Link loss at a switch port. -/
def State.linkLoss (s : State) (p : Nat) : State :=
  (((s.recordPort fLinkLost p).fencePort p 1).regionGone).invalPoll

/-- CBL_PRESENT_N of a port changes. -/
def State.cable (s : State) (p : Nat) (present : Bool) : State :=
  let others := s.sw.sys.noCable.filter (· != p)
  let s := s.onSw fun w => { w with sys := { w.sys with noCable := if present then others else p :: others } }
  if present then (if (s.sw.getLink p).state = .down ∧ s.sw.sys.phase = .running then s.retrain p else s)
  else if (s.sw.getLink p).state = .down then s
  else s.linkLoss p

/-- A connector draws too much: its CBL_3V3 is removed. -/
def State.overcurrent (s : State) (p : Nat) : State :=
  if s.sw.sys.noPower.contains p then s
  else (s.onSw fun w => { w with sys := { w.sys with noPower := p :: w.sys.noPower } }).emit (.pin (.cbl3v3 p) false)

/-! ### The rows -/

/-- PARTNER_CLOCK_LOCK (14 R360, R364). -/
def execPartnerClockLock (d : Dev) (port : Nat) (s : State) : Host.Outcome State Fault Refusal := .next (s.linkEv d fun s => s.clockLock d port)

/-- IDENTITY_RECORD: the copies that the data lanes deliver (14 R365 to R368). -/
def execIdentityRecord (d : Dev) (port : Nat) (copies : List (List Byte)) (s : State) : Host.Outcome State Fault Refusal :=
  .next (s.linkEv d fun s => match recordOf copies with
    | some r => s.identityTaken d port r
    | none => s)

/-- EQUALISE_DONE (14 R369 to R372). -/
def execEqualiseDone (d : Dev) (port : Nat) (r : LaneReport) (s : State) : Host.Outcome State Fault Refusal := .next (s.linkEv d fun s => s.equalised d port r)

/-- LANE_MAP_DONE (14 R364, R368). -/
def execLaneMapDone (d : Dev) (port : Nat) (figures : LaneFigures) (s : State) : Host.Outcome State Fault Refusal :=
  .next (s.linkEv d fun s => s.mapped d port figures.own figures.partner)

/-- TRAINING_TIMEOUT (14 R364). -/
def execTrainingTimeout (d : Dev) (port : Nat) (s : State) : Host.Outcome State Fault Refusal := .next (s.linkEv d fun s => s.trainingFails d port)

/-- TRAINING_RETRY (14 R364). -/
def execTrainingRetry (d : Dev) (port : Nat) (s : State) : Host.Outcome State Fault Refusal := .next (s.linkEv d fun s => s.trainAgain d port)

/-- LOCK_LOSS_BEFORE_ACTIVE (14 R364). -/
def execLockLossBeforeActive (d : Dev) (port : Nat) (s : State) : Host.Outcome State Fault Refusal :=
  .next (s.linkEv d fun s => if (s.getLink d port).state.inTraining then s.trainFail d port else s)

/-- LANE_FAILED: the lanes that one check finds failed, in the receive direction or, by the partner's word, the transmit direction (14 R373 to R375). -/
def execLaneFailed (d : Dev) (port : Nat) (l : FailedLanes) (cause : LaneFault) (s : State) : Host.Outcome State Fault Refusal :=
  .next (s.linkEv d fun s => s.laneFails d port l.lanes cause l.out)

/-- LANE_CHANGE_DONE (14 R375). -/
def execLaneChangeDone (d : Dev) (port : Nat) (s : State) : Host.Outcome State Fault Refusal := .next (s.linkEv d fun s => s.laneChanged d port)

/-- PERIODIC_TEST_DUE (14 R377, R378); a period of 0 runs none. An AKG-8 tests when its switch does. -/
def execPeriodicTestDue (p : DevPort) (s : State) : Host.Outcome State Fault Refusal :=
  .next (s.linkEv p.dev fun s => if p.dev = .sw ∧ s.sw.sys.cfg.testHours = 0 then s else s.beginTest p.dev p.port false)

/-- LANE_TEST_END (14 R377). -/
def execLaneTestEnd (p : DevPort) (lane : Nat) (e : LaneErrors) (s : State) : Host.Outcome State Fault Refusal :=
  .next (s.linkEv p.dev fun s => s.laneTestEnd p.dev p.port lane e.own e.partner)

/-- CHIME: two bursts wake the port (14 R379, 20 R492). -/
def execChime (d : Dev) (port : Nat) (s : State) : Host.Outcome State Fault Refusal :=
  .next (match d with
    | .sw => s.work 0 port
    | .ep => s.epEv fun s => s.epWake port)

/-- LINK_LOSS at an ACTIVE port (23 R541, R542). -/
def execLinkLoss (port : Nat) (s : State) : Host.Outcome State Fault Refusal := .next (if (s.sw.getLink port).state = .active then s.linkLoss port else s)

/-- An end-point port loses its link: fenced, with what was sent on it ended (23 R543). -/
def execEndpointLinkLoss (port : Nat) (s : State) : Host.Outcome State Fault Refusal :=
  .next (s.epEv fun s => if s.ep.portLive port then s.epFencePort port 1 else s)

/-- CABLE_PRESENCE_CHANGE (25 R577). -/
def execCablePresenceChange (port : Nat) (present : Bool) (s : State) : Host.Outcome State Fault Refusal := .next (s.cable port present)

/-- CABLE_OVERCURRENT (25 R577). -/
def execCableOvercurrent (port : Nat) (s : State) : Host.Outcome State Fault Refusal := .next (s.overcurrent port)

end Sys2Proof.Machine
end

