-- ==== Sys2Proof/Machine/CatPorts.lean ====
section
/-!
DEFINITION. Mailbox commands of ports and links (17 R439; 14 R369, R378, R591; 15 R400, R405; 19 R473).
-/

namespace Sys2Proof.Machine

/-- The layout that the port commands share. -/

def Cmd.port (c : Cmd) : Nat := c.num 0x80 1
def Cmd.arg (c : Cmd) : Nat := c.num 0x84 4

/-- The ports of the mask PORTS. -/
def Cmd.ports (c : Cmd) : List Nat := ports64.filter (bit (c.num 0x88 8))

/-- Range of a command that names PORT and an ARG of at most hi and at least lo. -/
def portRange (lo hi : Nat) (c : Cmd) (_ : State) : List (Nat × Bool) :=
  [(0x80, decide (63 < c.port)), (0x84, decide (c.arg < lo ∨ hi < c.arg)), (0x88, decide (c.num 0x88 8 ≠ 0))]

/-- Range of a command that names PORTS alone. -/
def portsRange (c : Cmd) (_ : State) : List (Nat × Bool) := [(0x80, decide (c.port ≠ 0)), (0x84, decide (c.arg ≠ 0))]

/-- The block of a STATIC port command runs: the port is neither DOWN nor fenced. -/
def portRuns (c : Cmd) (s : State) : Bool :=
  let st := (s.sw.getLink c.port).state
  st != .down && st != .fenced

def portFenced (c : Cmd) (s : State) : Bool := (s.sw.getLink c.port).state == .fenced

/-- Change the persistent values of a port. -/
def State.onPortCfg (s : State) (p : Nat) (g : PortCfg → PortCfg) : State :=
  s.onSys fun y => { y with cfg := { y.cfg with port := y.cfg.port.upd p {} g } }

/-- A STATIC port command: its opcode, the range of ARG, and the value it sets, used at the next training. -/
def staticPortForm (op lo hi : Nat) (g : Nat → PortCfg → PortCfg) : Form where
  opcode := op
  len := 16
  range := portRange lo hi
  running := portRuns
  names c _ := [.port c.port]
  commit c s := (.now [], s.onPortCfg c.port (g c.arg))

def portSpeedSetForm : Form := staticPortForm 0x0503 0 3 fun a v => { v with maxStep := a }
def portEqSetForm : Form := staticPortForm 0x0504 0 2 fun a v => { v with eqMode := a }
def linkSealSetForm : Form := staticPortForm 0x0520 1 8 fun a v => { v with g := a }

/-- The steps that a CAL_EQ_STORE mask names. -/
def stepsOf (m : Nat) : List Nat := (List.range 4).filter (bit m)

/-- The port's last training at a step left adaptive results. -/
def Link.adaptiveAt (l : Link) (step : Nat) : Bool := (l.steps.find? fun r => r.step == step).any fun r => !r.table

def calEqStoreForm : Form where
  opcode := 0x0505
  len := 16
  range := portRange 0 15
  fenced := portFenced
  names c _ := [.port c.port, .flash]
  transition _ s := s.sw.activating
  own c s := [(!s.sw.sys.flash.calValid || (stepsOf c.arg).any (fun n => !(s.sw.getLink c.port).adaptiveAt n), mbConflict, 0)]
  commit c s :=
    let links := (stepsOf c.arg).foldl (fun t n => t.put (c.port * 4 + n) (((s.sw.getLink c.port).steps.find? fun r => r.step == n).map (·.eq) |>.getD {})) s.sw.sys.flash.calLink
    (.later .flash [.port c.port, .flash] [], s.onFlash fun f => f.begin_ (.cal links))

def portLaneTestForm : Form where
  opcode := 0x0510
  len := 16
  range := portsRange
  fenced c s := c.ports.any fun p => (s.sw.getLink p).state == .fenced
  names c _ := c.ports.map Obj.port
  own c s := [(!(c.ports.all fun p => (s.sw.getLink p).testable), mbConflict, 0)]
  commit c s := (.now [], s.each c.ports fun s p => s.beginTest .sw p true)

def portTestPolicySetForm : Form where
  opcode := 0x0511
  len := 16
  range c _ := [(0x80, decide (c.port ≠ 0)), (0x84, decide (720 < c.arg)), (0x88, decide (c.num 0x88 8 ≠ 0))]
  commit c s := (.now [], s.onSys fun y => { y with cfg := { y.cfg with testHours := c.arg } })

/-- Width that a port runs at, or is changing to: 0 full, g + 1 half on group g. -/
def Link.widthToBe (l : Link) : Nat := match l.changing with
  | some (a, _) => a.width
  | none => l.width

/-- The two directions' maps once the port runs at half width on this group; none where a direction has no whole group to run on. -/
def Link.halfMaps (l : Link) (g : Nat) : Option (LaneMap × LaneMap) :=
  let l := l.endTest
  pairMaps { l.lanes with width := g + 1 } l.out

/-- PORT_NARROW on this group is refused: not ACTIVE, the group not whole or not the one in use, or a sparing change under way. -/
def Link.narrowRefused (l : Link) (g : Nat) : Bool :=
  l.state != .active
    || (if l.widthToBe = 0 then l.changing.isSome || !l.lanes.whole g || (l.halfMaps g).isNone else l.widthToBe != g + 1)

/-- Narrow for maintenance; a test that runs ends (14 R591, R375). -/
def Link.narrowTo (l : Link) (g : Nat) : Link :=
  if l.widthToBe ≠ 0 then l
  else match l.halfMaps g with
    | some m => { l.endTest with changing := some m }
    | none => l

def portNarrowForm : Form where
  opcode := 0x0512
  len := 16
  range := portRange 0 1
  fenced := portFenced
  names c _ := [.port c.port]
  own c s := [((s.sw.getLink c.port).narrowRefused c.arg, mbConflict, 0)]
  commit c s := (.now [], s.onPort c.port fun l => l.narrowTo c.arg)

def linkRekeyForm : Form where
  opcode := 0x0521
  len := 16
  range := portsRange
  fenced c s := c.ports.any fun p => (s.sw.getLink p).state == .fenced
  names c _ := c.ports.map Obj.port
  own c s := [(c.ports.any fun p => (s.sw.getLink p).state == .active && (s.sw.getLink p).xchg.isSome, mbConflict, 0)]
  commit c s := (.now [], s.each c.ports fun s p => s.startRekey .sw p)

/-! ### The rows -/

/-- PORT_SPEED_SET (14 table Port training commands). -/
def execPortSpeedSet (fn mb : Nat) (s : State) : Host.Outcome State Fault Refusal := .next (s.takeCommand portSpeedSetForm fn mb)

/-- PORT_EQ_SET (14 R369). -/
def execPortEqSet (fn mb : Nat) (s : State) : Host.Outcome State Fault Refusal := .next (s.takeCommand portEqSetForm fn mb)

/-- CAL_EQ_STORE (14 R369; 19 R473). -/
def execCalEqStore (fn mb : Nat) (s : State) : Host.Outcome State Fault Refusal := .next (s.takeCommand calEqStoreForm fn mb)

/-- PORT_LANE_TEST (17 R439; 14 R378). -/
def execPortLaneTest (fn mb : Nat) (s : State) : Host.Outcome State Fault Refusal := .next (s.takeCommand portLaneTestForm fn mb)

/-- PORT_TEST_POLICY_SET (14 R378). -/
def execPortTestPolicySet (fn mb : Nat) (s : State) : Host.Outcome State Fault Refusal := .next (s.takeCommand portTestPolicySetForm fn mb)

/-- PORT_NARROW (14 R591). -/
def execPortNarrow (fn mb : Nat) (s : State) : Host.Outcome State Fault Refusal := .next (s.takeCommand portNarrowForm fn mb)

/-- LINK_SEAL_SET (15 R400). -/
def execLinkSealSet (fn mb : Nat) (s : State) : Host.Outcome State Fault Refusal := .next (s.takeCommand linkSealSetForm fn mb)

/-- LINK_REKEY (15 R405). -/
def execLinkRekey (fn mb : Nat) (s : State) : Host.Outcome State Fault Refusal := .next (s.takeCommand linkRekeyForm fn mb)

end Sys2Proof.Machine
end

