-- ==== Sys2Proof/Machine/CatPower.lean ====
section
/-!
DEFINITION. Mailbox commands of power, the Tally, and faults and fences (17 Power, R444, Tally, Faults and fences, R445; 20 R485 to R497; 21 R514, R520;
23 R534 to R538, R545, R550; 11 R320, R321).
-/

namespace Sys2Proof.Machine

/-! ### Power -/

/-- The object that a power domain is. -/
def domainObj (kind index : Nat) : List Obj :=
  if kind = 0 then [.port index] else if kind = 1 then [.engine index] else if kind = 2 then [.channel index] else []

/-- A fenced port, engine or channel; kinds of POWER_VOTE. -/
def Switch.domainFenced (w : Switch) (kind index : Nat) : Bool :=
  (kind == 0 && (w.getLink index).state == .fenced) || (kind == 1 && (w.getEngine index).fenced) || (kind == 2 && (w.chan index).fenced)

/-- A VF votes for domains that its partition uses: engines and bank groups of its own, and edge ports (20 R488; log 26). -/
def Switch.mayVote (w : Switch) (fn kind index : Nat) : Bool :=
  if kind = 0 then isEdge w.sys index
  else if kind = 1 then w.engineOwner index == fn
  else if kind = 3 then (List.range 8).any fun i => w.engineOwner (8 * index + i) == fn
  else false

def powerVoteForm : Form where
  opcode := 0x0C01
  len := 8
  vf := true
  foreign c s := decide (c.num 0x81 1 < domainCount (c.num 0x80 1)) && !s.sw.mayVote c.fn (c.num 0x80 1) (c.num 0x81 1)
  range c _ := [(0x80, decide (5 < c.num 0x80 1)), (0x81, decide (c.num 0x80 1 ≤ 5 ∧ domainCount (c.num 0x80 1) ≤ c.num 0x81 1)),
                (0x82, decide (3 < c.num 0x82 1))]
  fenced c s := s.sw.domainFenced (c.num 0x80 1) (c.num 0x81 1)
  names c _ := domainObj (c.num 0x80 1) (c.num 0x81 1)
  commit c s :=
    (.now [], (s.onDomain (c.num 0x80 1) (c.num 0x81 1) fun d => { d with votes := d.votes.put c.fn (c.num 0x82 1) }).revote (c.num 0x80 1) (c.num 0x81 1))

def paceSetForm : Form where
  opcode := 0x0C02
  len := 8
  range c _ :=
    let out (o lo hi : Nat) : Bool := decide (c.num o 2 < lo) || decide (hi < c.num o 2)
    [(0x80, out 0x80 100 160 || decide (c.num 0x82 2 < c.num 0x80 2)), (0x82, out 0x82 100 160), (0x84, out 0x84 200 640),
     (0x86, c.num 0x86 2 != 0 && out 0x86 10 10000)]
  own c s :=
    let armed := if s.sw.sched.armed.isSome then s.sw.sched.standby.toList else []
    [((s.sw.sched.active.toList ++ armed).any fun k => decide (k.mainPace < c.num 0x82 2), mbConflict, 0)]
  commit c s :=
    let s := s.onSys fun y => { y with cfg := { y.cfg with
      target := c.num 0x80 2, ceil := c.num 0x82 2, limit := c.num 0x84 2, idleHold := if c.num 0x86 2 = 0 then 100 else c.num 0x86 2 } }
    -- P may stand above the new ceiling (11 R306)
    (.now [], (s.ifThen s.slowNow (·.setSlow true)).passValue ciCeil (c.num 0x82 2))

def brakeSetForm : Form where
  opcode := 0x0C03
  len := 8
  range c _ := [(0x80, decide (c.num 0x80 2 < 120 ∨ 640 < c.num 0x80 2))]
  commit c s := (.now [], s.onSys fun y => { y with cfg := { y.cfg with brake := c.num 0x80 2 } })

/-- The response of POWER_READ. Under Strongroom a VF reads no P, and the power in steps of 4 W. -/
def Switch.powerRsp (w : Switch) (fn : Nat) : List Byte :=
  let x := w.power
  let hide := w.sys.strongroom && fn != 0
  let watts := if hide then x.average / 4 * 4 else x.average
  leBytes 2 (if hide then 0 else x.p) ++ leBytes 2 (if hide then 0 else x.pMax) ++ leBytes 2 watts ++ leBytes 1 (b2n w.sys.pwrbrk)

/-- P_MAX starts again with a read that returned it. -/
def powerReadForm : Form where
  opcode := 0x0C04
  len := 0
  vf := true
  commit c s := (.now (s.sw.powerRsp c.fn), if s.sw.sys.strongroom && c.fn != 0 then s else s.onPower fun x => { x with pMax := x.p })

/-! ### Tally -/

/-- Number of counters of a block (23 R538). -/
def blockSize (b : Nat) : Option Nat :=
  let i := b % 256
  if b = 0 then some 7
  else if b / 256 = 1 ∧ i < 64 then some 47
  else if b / 256 = 2 ∧ i < 24 then some 5
  else if b / 256 = 3 ∧ i < 16 then some 5
  else if b / 256 = 4 ∧ i < 48 then some 3
  else none

/-- A counter as a function reads it: under Strongroom a VF reads those of others coarsened (21 R520). SPARES_FREE counts the spare pages left. -/
def State.counterRead (s : State) (fn b i : Nat) : Nat :=
  let spares := b / 256 == 2 && i == 3
  let coarse := s.sw.sys.strongroom && fn != 0 && b != blkPart fn
  let now := if spares then 32768 - (s.sw.chan (b % 256)).retired.length
    else if coarse then (s.sw.tally.atMs (s.now .sw / tMs)).get (b * 64 + i) 0
    else s.sw.tally.counter.get (b * 64 + i) 0
  if coarse then now / 1024 * 1024 else now

/-- The object that a block of counters belongs to. -/
def blockObj (b : Nat) : List Obj :=
  let i := b % 256
  if b / 256 = 1 then [.port i] else if b / 256 = 2 then [.channel i] else if b / 256 = 3 then [.partition i] else if b / 256 = 4 then [.engine i] else []

def tallyReadForm : Form where
  opcode := 0x0D01
  len := 16
  vf := true
  range c _ :=
    let size := blockSize (c.num 0x80 2)
    let n := size.getD 0
    [(0x80, size.isNone), (0x84, size.isSome && decide (n ≤ c.num 0x84 4)),
     (0x88, decide (c.num 0x88 4 = 0 ∨ 240 < c.num 0x88 4) || (size.isSome && decide (n < c.num 0x84 4 + c.num 0x88 4)))]
  names c _ := blockObj (c.num 0x80 2)
  commit c s := (.now ((List.range (c.num 0x88 4)).flatMap fun i => leBytes 8 (s.counterRead c.fn (c.num 0x80 2) (c.num 0x84 4 + i))), s)

/-- A fault record as 64 bytes (23 R535). -/
def FaultRec.bytes (r : FaultRec) : List Byte :=
  leBytes 8 r.seq ++ timeBytes r.time ++ leBytes 2 r.kind ++ leBytes 1 r.severity ++ leBytes 1 r.domain ++ leBytes 2 r.index ++ leBytes 1 r.partition
    ++ leBytes 1 r.status ++ leBytes 4 r.count ++ leBytes 4 0 ++ padTo 24 r.detail

/-- The records that a function may read, from a SEQ on, oldest first. -/
def Tally.readable (t : Tally) (fn first : Nat) : List FaultRec :=
  (t.faults.filter fun r => decide (first ≤ r.seq) && (fn == 0 || r.partition == fn)).reverse

def faultLogReadForm : Form where
  opcode := 0x0D10
  len := 16
  vf := true
  range c _ := [(0x88, decide (c.num 0x88 4 = 0 ∨ 30 < c.num 0x88 4))]
  commit c s := (.now (((s.sw.tally.readable c.fn (c.num 0x80 8)).take (c.num 0x88 4)).flatMap FaultRec.bytes), s)

/-- A queue record as a function reads it (11 R321, 21 R520). -/
def QueueRec.bytes (q : QueueRec) (fn : Nat) (strongroom : Bool) : List Byte :=
  let own := q.byPart.get fn (0, 0, 0)
  if fn ≠ 0 then leBytes 8 0 ++ leBytes 4 own.1 ++ leBytes 4 own.2.1 ++ leBytes 8 0 ++ leBytes 8 own.2.2
  else leBytes 4 q.lastDepth ++ leBytes 4 q.maxDepth ++ leBytes 4 (if strongroom then own.1 else q.maxDelay) ++ leBytes 4 q.samples
    ++ leBytes 8 q.sumDepth ++ leBytes 8 (if strongroom then own.2.2 else q.sumDelay)

/-- A read by PF0 starts a record again; one by a VF its partition's share (DEDUCED, log 38). -/
def QueueRec.restart (q : QueueRec) (fn : Nat) : QueueRec := if fn = 0 then { byPart := q.byPart.filter fun e => e.1 != 0 } else { q with byPart := q.byPart.del fn }

def tallyQueueReadForm : Form where
  opcode := 0x0D20
  len := 8
  vf := true
  range c _ := [(0x80, decide (63 < c.num 0x80 1))]
  names c _ := [.port (c.num 0x80 1)]
  commit c s :=
    let keys := queueKeys (c.num 0x80 1)
    let q := s.sw.tally.queue
    (.now (keys.flatMap fun k => (q.get k {}).bytes c.fn s.sw.sys.strongroom),
     s.onSw fun w => { w with tally := { w.tally with queue := keys.foldl (fun t k => t.upd k {} fun r => r.restart c.fn) w.tally.queue } })

/-! ### Fences -/

/-- KIND, AGENT and INDEX of FENCE_SET and FENCE_CLEAR. -/
def Cmd.kind (c : Cmd) : Nat := c.num 0x80 1
def Cmd.agent (c : Cmd) : Nat := c.num 0x81 1
def Cmd.index (c : Cmd) : Nat := c.num 0x82 2

def fenceRange (c : Cmd) (s : State) : List (Nat × Bool) :=
  let bad := if c.kind < 4 then decide ([64, 48, 6, 24].getD c.kind 0 ≤ c.index)
    else if c.kind = 4 then !isTenant c.index else if c.kind ≤ 6 then !epInDomain s.sw.sys c.index else false
  [(0x80, decide (6 < c.kind)), (0x81, decide (63 < c.agent)), (0x82, bad)]

/-- The objects that a fence command names. -/
def fenceObjs (c : Cmd) : List Obj :=
  if c.kind < 4 then kindObj c.kind c.index else if c.kind = 4 then [.partition c.index] else [.endpoint c.index]

/-- Fence a partition that is served (21 R514): its engines, and the tasks that have not started. -/
def State.fencePartition (s : State) (p : Nat) : State :=
  if (s.sw.getPart p).state ≠ .admitted then s
  else
    let s := s.putPart p { s.sw.getPart p with state := .fenced }
    ((s.cancelUnstarted p).fenceEngines (engines48.filter fun e => s.sw.engineOwner e == p)).escrowSettle

/-- An engine's fence ends, with that of its power domain. -/
def State.unfenceEngine (s : State) (e : Nat) : State :=
  (s.putEngine e { s.sw.getEngine e with fenced := false }).onDomain 1 e fun d => { d with fenced := false }

/-- FENCE_SET (17 R445). -/
def State.fenceSet (s : State) (kind agent index : Nat) : State :=
  if kind = 0 then (s.fencePort index 3).regionGone.invalPoll
  else if kind = 1 then s.fenceEngine index
  else if kind = 2 then s.fenceEngines (coreEngines index)
  else if kind = 3 then s.fenceChannel index
  else if kind = 4 then s.fencePartition index
  else if kind = 5 then s.fenceAgent index agent
  else (s.giveVerdict index vCommand).regionGone

/-- FENCE_CLEAR of an engine, a core, a partition or an agent. -/
def State.fenceClear (s : State) (kind agent index : Nat) : State :=
  if kind = 1 then (s.unfenceEngine index).escrowSettle
  else if kind = 2 then (s.each (coreEngines index) fun s e => s.unfenceEngine e).escrowSettle
  else if kind = 4 then
    if (s.sw.getPart index).state ≠ .fenced then s
    else
      let s := s.putPart index { s.sw.getPart index with state := .admitted }
      (s.each (engines48.filter fun e => s.sw.engineOwner e == index) fun s e => s.unfenceEngine e).escrowSettle
  else if kind = 5 then s.clearAgent index agent
  else s

def fenceSetForm : Form where
  opcode := 0x0E01
  len := 8
  range := fenceRange
  names c _ := fenceObjs c
  commit c s := (.now [], s.fenceSet c.kind c.agent c.index)

def fenceClearForm : Form where
  opcode := 0x0E02
  len := 8
  range := fenceRange
  running c _ := c.kind == 0 || c.kind == 3 || c.kind == 6
  names c _ := fenceObjs c
  commit c s := (.now [], s.fenceClear c.kind c.agent c.index)

def fdSetForm : Form where
  opcode := 0x0E03
  len := 8
  range c _ := [(0x80, decide (c.num 0x80 1 < 4 ∨ 64 < c.num 0x80 1))]
  commit c s := (.now [], s.onSys fun y => { y with cfg := { y.cfg with misses := c.num 0x80 1 } })

/-! ### Re-admission (23 R550) -/

/-- A switch clears its fence of an end-point and trains its own port to it again. What it has seen of earlier incarnations is forgotten. -/
def State.readmitHere (s : State) (h inc : Nat) : State :=
  let old (x : Nat × List Byte) : Bool := (x.1 == mVerdict || x.1 == mSuspect || x.1 == mReadmit) && field x.2 0 2 == h
  let s := s.putSeen .sw ((mReadmit, leBytes 2 h ++ leBytes 1 inc) :: (s.seenBy .sw).filter fun x => !old x)
  let s := s.onEpRec h fun r => { r with inc := inc, verdict := false, readmitting := true, misses := 0, suspects := [], beat := [], acked := true }
  if isEpId h ∧ epRack h = s.sw.sys.rack then s.retrain (epSlot h) else s

/-- Send a READMIT out of every port that carries frames but one; SRC and TAG are those of the switch that took the command. -/
def State.sendReadmit (s : State) (d : Dev) (f : Frame) (came : Option Nat) : State :=
  s.each ((s.portsUp d).filter fun p => came != some p) fun s p => match d with
    | .sw => s.swSendPort outEscrow p { f with dest := s.sw.peer p, inc := s.sw.incFor (s.sw.peer p) }
    | .ep => s.epSend p { f with dest := s.ep.peer p }

/-- The switches of the domain but this one. -/
def Switch.otherSwitches (w : Switch) : List Nat := (List.range (8 * w.sys.racks)).filter (· != w.sys.homeId)

/-- The relay of READMIT; its port 64 stands for every port that carries frames. -/
def State.beginReadmit (s : State) (c : Cmd) (h : Nat) : State :=
  let inc := (s.sw.epRec h).inc
  let id := s.sw.mgmt.nextRelay
  let f := mgmtFrame 0 s.sw.sys.homeId 0 mReadmit (id % 4096) (leBytes 2 h ++ leBytes 1 inc)
  let s := s.readmitHere h inc
  let s := s.onSw fun w => { w with mgmt := { w.mgmt with nextRelay := id + 1, relay := w.mgmt.relay.put id { port := 64, f := f, cmd := some (c.fn, c.mb) } } }
  s.sendReadmit .sw f none

def epReadmitForm : Form where
  opcode := 0x0E04
  len := 8
  range c s := [(0x80, !(s.sw.relaysTo (c.num 0x80 2) && epInDomain s.sw.sys (c.num 0x80 2)))]
  running c s := !(s.sw.epRec (c.num 0x80 2)).verdict
  names c _ := [.endpoint (c.num 0x80 2)]
  commit c s := (.later (.relay 0) [.endpoint (c.num 0x80 2)] s.sw.otherSwitches, s)
  start c s := s.beginReadmit c (c.num 0x80 2)

/-! ### The rows -/

/-- POWER_VOTE (20 R488). -/
def execPowerVote (fn mb : Nat) (s : State) : Host.Outcome State Fault Refusal := .next (s.takeCommand powerVoteForm fn mb)

/-- PACE_SET (17 R444; 20 R493). -/
def execPaceSet (fn mb : Nat) (s : State) : Host.Outcome State Fault Refusal := .next (s.takeCommand paceSetForm fn mb)

/-- BRAKE_SET (17 Power; 20 R495). -/
def execBrakeSet (fn mb : Nat) (s : State) : Host.Outcome State Fault Refusal := .next (s.takeCommand brakeSetForm fn mb)

/-- POWER_READ (17 R444; 21 R520). -/
def execPowerRead (fn mb : Nat) (s : State) : Host.Outcome State Fault Refusal := .next (s.takeCommand powerReadForm fn mb)

/-- TALLY_READ (23 R538; 21 R520). -/
def execTallyRead (fn mb : Nat) (s : State) : Host.Outcome State Fault Refusal := .next (s.takeCommand tallyReadForm fn mb)

/-- FAULT_LOG_READ (23 R535; 17 Tally). -/
def execFaultLogRead (fn mb : Nat) (s : State) : Host.Outcome State Fault Refusal := .next (s.takeCommand faultLogReadForm fn mb)

/-- TALLY_QUEUE_READ (11 R320, R321). -/
def execTallyQueueRead (fn mb : Nat) (s : State) : Host.Outcome State Fault Refusal := .next (s.takeCommand tallyQueueReadForm fn mb)

/-- FENCE_SET (17 R445; 23 R534). -/
def execFenceSet (fn mb : Nat) (s : State) : Host.Outcome State Fault Refusal := .next (s.takeCommand fenceSetForm fn mb)

/-- FENCE_CLEAR (17 R445; 23 R534). -/
def execFenceClear (fn mb : Nat) (s : State) : Host.Outcome State Fault Refusal := .next (s.takeCommand fenceClearForm fn mb)

/-- FD_SET (23 R545). -/
def execFdSet (fn mb : Nat) (s : State) : Host.Outcome State Fault Refusal := .next (s.takeCommand fdSetForm fn mb)

/-- EP_READMIT (23 R550). -/
def execEpReadmit (fn mb : Nat) (s : State) : Host.Outcome State Fault Refusal := .next (s.takeCommand epReadmitForm fn mb)

end Sys2Proof.Machine
end

