-- ==== Sys2Proof/Machine/Packages.lean ====
section
/-!
DEFINITION. Schedule packages as the host lays them out, and what a switch checks of them (11 R289 to R296, R299; 17 R447 to R450; 13 R590).
-/

namespace Sys2Proof.Machine

/-- An entry of the section table. -/
structure Section where
  kind : Nat
  book : Nat
  home : Nat
  offset : Nat
  length : Nat
  digest : Digest
  reserved : Bool
  deriving DecidableEq, Repr

/-- Entry i of the section table of a package whose header and table are l. -/
def sectionAt (l : List Byte) (i : Nat) : Section :=
  let o := 0x100 + 96 * i
  { kind := field l o 1, book := field l (o + 1) 1, home := field l (o + 2) 2, offset := field l (o + 8) 8, length := field l (o + 16) 8,
    digest := BitVec.ofNat 512 (field l (o + 32) 64), reserved := field l (o + 4) 4 != 0 || field l (o + 24) 8 != 0 }

def sectionCount (l : List Byte) : Nat := field l 0x20 4

def sectionsOf (l : List Byte) : List Section := (List.range (sectionCount l)).map (sectionAt l)

def kGate : Nat := 1
def kRoute : Nat := 2
def kReserve : Nat := 3
def kShaper : Nat := 4
def kPolicer : Nat := 5
def kCollective : Nat := 6
def kEpGate : Nat := 7

/-- The header keeps R289. n: bytes of the package. -/
def headerOk (y : Sys) (l : List Byte) (n : Nat) : Bool :=
  let between (lo v hi : Nat) : Bool := decide (lo ≤ v ∧ v ≤ hi)
  field l 0 4 == 0x45535546 && field l 4 2 == 1 && decide (field l 6 1 ≤ 1) && field l 7 1 == y.racks && field l 8 8 != 0
    && between 1024 (field l 0x10 4) 16777216 && between 100 (field l 0x14 2) 160 && field l 0x16 2 == 160 && field l 0x1E 2 == 0
    && between 1 (sectionCount l) 65535 && field l 0x24 12 == 0 && field l 0x70 144 == 0
    && between (0x100 + 96 * sectionCount l + 1280) n 0x10000000

/-- A section-table entry keeps R289. -/
def Section.ok (x : Section) (y : Sys) (n : Nat) : Bool :=
  decide (1 ≤ x.kind ∧ x.kind ≤ 7) && !x.reserved && decide (x.offset + x.length + 1280 ≤ n)
    && (if x.kind = kGate ∨ x.kind = kEpGate then decide (x.book ≤ 2) else x.book == 0xFF)
    && (if x.kind = kCollective then x.home == 0x3FF else if x.kind = kEpGate then epInDomain y x.home else swInDomain y x.home)

/-- Sections of a kind, a book and a home. -/
def countSections (t : List Section) (kind book home : Nat) : Nat := (t.filter fun x => x.kind == kind && x.book == book && x.home == home).length

/-- The package holds what R291 asks for. eps: the end-points of the domain. -/
def tableComplete (y : Sys) (t : List Section) (eps : List Nat) : Bool :=
  ((List.range (8 * y.racks)).all fun h =>
    (List.range 3).all (fun b => countSections t kGate b h == 1) && countSections t kReserve 0xFF h == 1
      && [kRoute, kShaper, kPolicer].all fun k => decide (countSections t k 0xFF h ≤ 1))
    && (eps.all fun h => (List.range 3).all fun b => countSections t kEpGate b h == 1)
    && decide (countSections t kCollective 0xFF 0x3FF ≤ 1)

/-- The sections that a switch reads, in table order (11 R299). -/
def ownSections (y : Sys) (t : List Section) (eps : List Nat) : List Section :=
  t.filter fun x => x.kind == kCollective || (if x.kind = kEpGate then eps.contains x.home else x.home == y.homeId)

/-! ### Gate lists -/

/-- The gate lists of a GATE or EP_GATE section with n ports; none: malformed. -/
def parseGates (l : List Byte) (n : Nat) : Option (List (List (Nat × Nat))) :=
  let counts := (List.range n).map fun p => field l (4 * p) 4
  let total := counts.foldl (· + ·) 0
  if l.length ≠ 4 * n + 4 * total then none
  else
    let starts := counts.foldl (fun (acc : List Nat × Nat) c => (acc.1 ++ [acc.2], acc.2 + c)) ([], 0)
    some ((counts.zip starts.1).map fun x => (List.range x.1).map fun i =>
      let o := 4 * n + 4 * (x.2 + i)
      (field l (o + 3) 1, field l o 3))

/-- The longest time for which a class stays closed, counting across the end of the cycle. -/
def longestClosed (cls : Nat) (l : List (Nat × Nat)) : Nat :=
  ((l ++ l).foldl (fun (acc : Nat × Nat) e => if bit e.1 cls then (0, acc.2) else (acc.1 + e.2, max acc.2 (acc.1 + e.2))) (0, 0)).2

/-- A gate list keeps R292, R293 and R296. -/
def gatesOk (cycle : Nat) (l : List (Nat × Nat)) : Bool :=
  (l.all fun e => decide (1 ≤ e.2)) && (l.map (·.2)).foldl (· + ·) 0 == cycle
    && [0, 3, 4, 6, 7].all fun c => (l.any fun e => bit e.1 c) && decide (longestClosed c l ≤ 8192)

/-! ### The other sections -/

/-- A ROUTE section: destination to port; none: malformed (17 R447). -/
def parseRoute (y : Sys) (l : List Byte) : Option (Tab Nat) :=
  let entry (d : Nat) : Nat := field l (2 * d) 2
  let valid (d : Nat) : Bool := bit (entry d) 6
  let port (d : Nat) : Nat := entry d % 64
  let bad (d : Nat) : Bool :=
    decide (128 ≤ entry d) || (valid d && (d == y.homeId || (isSwitchId d && d % 8 != y.plane)
      || (isEpId d && epRack d == y.rack && port d != epSlot d)
      || ((isEpId d || isSwitchId d) && rackOf d != y.rack && isEdge y (port d))))
  if l.length ≠ 2048 ∨ (List.range 1024).any bad then none
  else some (((List.range 1024).filter valid).map fun d => (d, port d))

/-- A RESERVE section: tiles and partition masks; none: malformed (17 R448). -/
def parseReserve (l : List Byte) : Option (Tab Nat × Tab Nat) :=
  let tile (i : Nat) : Nat := field l i 1
  if l.length ≠ 384 ∨ ((List.range 201).any fun i => decide (15 < tile i)) ∨ (slice l 0xC9 55).any (· != 0) then none
  else some ((List.range 201).map fun i => (i, tile i), (List.range 64).map fun p => (p, field l (0x100 + 2 * p) 2))

/-- RATE and BURST are in range (11 R316). -/
def rateOk (r : Nat) : Bool := decide (1 ≤ r ∧ r ≤ 0xFFFFFF)
def burstOk (b : Nat) : Bool := decide (512 ≤ b ∧ b ≤ 16777215)

/-- INDEX of a shaper, KIND 0 or 1. -/
def shaperIndexOk (kind index : Nat) : Bool := if kind = 0 then shapedClass index else decide (index ≤ 15)

def shaperKey (port kind index : Nat) : Nat := if kind = 0 then classShaper port index else partShaper port index

/-- The fields of a SHAPER_SET request: offset in the request and whether it is out of range. -/
def shaperBad (l : List Byte) : List (Nat × Bool) :=
  let n (o w : Nat) : Nat := field l o w
  [(0x80, decide (63 < n 0 1)), (0x81, decide (1 < n 1 1)), (0x82, !shaperIndexOk (n 1 1) (n 2 1)), (0x83, decide (1 < n 3 1)),
   (0x84, !rateOk (n 4 4)), (0x88, !burstOk (n 8 4)), (0x8C, decide (63 < n 12 1))]

/-- The bucket that a SHAPER_SET request sets. -/
def shaperOf (l : List Byte) : Nat × Bucket :=
  (shaperKey (field l 0 1) (field l 1 1) (field l 2 1),
   { enable := bit (field l 3 1) 0, rate := field l 4 4, burst := field l 8 4, overhead := field l 12 1 })

/-- The fields of a POLICER_SET request. -/
def policerBad (l : List Byte) : List (Nat × Bool) :=
  let n (o w : Nat) : Nat := field l o w
  [(0x80, decide (63 < n 0 1)), (0x81, !shapedClass (n 1 1)), (0x82, decide (1 < n 2 1)), (0x83, decide (63 < n 3 1)),
   (0x84, !rateOk (n 4 4)), (0x88, !rateOk (n 8 4) || decide (n 8 4 < n 4 4)), (0x8C, !burstOk (n 12 4)),
   (0x90, !burstOk (n 16 4) || decide (n 16 4 < n 12 4))]

/-- The policer that a POLICER_SET request sets. -/
def policerOf (l : List Byte) : Nat × Policer :=
  (policerKey (field l 0 1) (field l 1 1),
   { enable := bit (field l 2 1) 0, overhead := field l 3 1, cir := field l 4 4, pir := field l 8 4, cbs := field l 12 4, pbs := field l 16 4 })

/-- Records of 24 bytes that use n of them: their keys and values; none: malformed (17 R449). -/
def parseRecords {α : Type} (l : List Byte) (n : Nat) (bad : List Byte → List (Nat × Bool)) (of : List Byte → Nat × α) : Option (Tab α) :=
  let recs := (List.range (l.length / 24)).map fun i => slice l (24 * i) 24
  let vals := recs.map of
  if l.length % 24 ≠ 0 ∨ (recs.any fun r => (bad r).any (·.2) || (r.drop n).any (· != 0)) ∨ !(vals.map Prod.fst).Nodup then none
  else some (vals.foldl (fun t e => t.put e.1 e.2) [])

/-- One placement of a COLLECTIVE section: level * 1024 + node, and rack. -/
def placementOf (v : Nat) : Nat × Nat := (bits v 0 4 * 1024 + bits v 4 10, bits v 14 3)

/-- A placement is malformed: a reserved bit, a level or rack out of range, or a node local to one rack (17 R450). -/
def placementBad (w : Switch) (synd v : Nat) : Bool :=
  let level := bits v 0 4
  decide (level = 0 ∨ 10 < level ∨ w.sys.racks ≤ bits v 14 3 ∨ bits v 17 15 ≠ 0) || w.sys.mode == 0
    || (match w.getSynd synd with
      | none => false
      | some y =>
        let racks := ((List.range (2 ^ level)).map (bits v 4 10 * 2 ^ level + ·) |>.filter fun r => decide (r < y.members.length)).map
          fun r => rackOf ((y.members.getD r 0) / 64)
        racks.all fun r => some r == racks.head?)

/-- The Syndicates of a COLLECTIVE section, from byte o on; none: malformed. -/
def parseSynds (w : Switch) (l : List Byte) : (n : Nat) → (o : Nat) → Option (Tab (Tab Nat))
  | 0, o => if o = l.length then some [] else none
  | n + 1, o =>
    let count := field l (o + 2) 2
    let vals := (List.range count).map fun i => field l (o + 4 + 4 * i) 4
    if l.length < o + 4 + 4 * count ∨ field l (o + 1) 1 ≠ 0 ∨ vals.any (placementBad w (field l o 1)) then none
    else (parseSynds w l n (o + 4 + 4 * count)).map fun t => t.put (field l o 1) ((vals.map placementOf).foldl (fun t e => t.put e.1 e.2) [])

/-- A COLLECTIVE section (17 R450). -/
def parseCollective (w : Switch) (l : List Byte) : Option (Tab (Tab Nat)) :=
  if field l 2 2 ≠ 0 then none else parseSynds w l (field l 0 2) 4

/-! ### The package -/

/-- A section of the package and its bytes go into the package. none: malformed. -/
def Package.take (k : Package) (w : Switch) (x : Section) (l : List Byte) : Option Package :=
  if x.kind = kGate then
    (parseGates l 64).bind fun g =>
      if g.all (gatesOk k.cycleFlits) then some { k with gates := g.zipIdx.foldl (fun t e => t.put (x.book * 64 + e.2) e.1) k.gates } else none
  else if x.kind = kEpGate then
    (parseGates l 8).bind fun g => if g.all (gatesOk k.cycleFlits) then some k else none
  else if x.kind = kRoute then (parseRoute w.sys l).map fun r => { k with routes := some r }
  else if x.kind = kReserve then (parseReserve l).map fun r => { k with tiles := r.1, masks := r.2 }
  else if x.kind = kShaper then (parseRecords l 13 shaperBad shaperOf).map fun t => { k with shapers := t }
  else if x.kind = kPolicer then (parseRecords l 20 policerBad policerOf).map fun t => { k with policers := t }
  else (parseCollective w l).map fun t => { k with coll := some t }

/-- Cut the bytes read for a list of sections. -/
def cutSections : List Section → List Byte → List (Section × List Byte)
  | [], _ => []
  | x :: t, l => (x, l.take x.length) :: cutSections t (l.drop x.length)

/-- A port of the sections read needs more than one bank holds, or the COLLECTIVE section more than its share (11 R292, 13 R590). No well-formed
ROUTE, RESERVE, SHAPER or POLICER section is larger than its share: the first two have one length, the others one record for each key. -/
def overBank (parts : List (Section × List Byte)) : Bool :=
  let gate (home n p : Nat) : Nat :=
    (parts.filter fun x => x.1.home == home && (x.1.kind == kGate || x.1.kind == kEpGate)).foldl
      (fun m x => m + (if p < n then field x.2 (4 * p) 4 else 0)) 0
  (parts.any fun x => x.1.kind == kGate && (List.range 64).any fun p => decide (8192 < gate x.1.home 64 p))
    || (parts.any fun x => x.1.kind == kEpGate && (List.range 8).any fun p => decide (8192 < gate x.1.home 8 p))
    || parts.any fun x => x.1.kind == kCollective && decide (0x80000 < x.1.length)

/-- The package of header and table l whose sections are parts. -/
def buildPackage (w : Switch) (l : List Byte) (parts : List (Section × List Byte)) : Option Package :=
  parts.foldl (fun k x => k.bind fun k => k.take w x.1 x.2)
    (some { id := field l 8 8, mode := field l 6 1, cycleFlits := field l 0x10 4, mainPace := field l 0x14 2, base := field l 0x18 6,
            digest := Config.shake256 l })

end Sys2Proof.Machine
end

