-- ==== Sys2Proof/Machine/CatSchedules.lean ====
section
/-!
DEFINITION. Mailbox commands of time, schedules and shaping (17 Schedules and shaping; 11 R285, R287, R299 to R304, R307, R316 to R319).
-/

namespace Sys2Proof.Machine

/-- A schedule package is active or armed: the Escapement runs. -/
def escapementRuns (_ : Cmd) (s : State) : Bool := !s.sw.scheduleStopped

/-! ### Time -/

/-- The time master and standby are named: the switch chooses its source again, and a master keeps fabric time (DEDUCED, log 35) and chooses the
book from the reports that it holds (11 R307). -/
def State.nameMasters (s : State) (master standby : Nat) : State :=
  let s := s.onClock .sw fun c => { c with master := master, standby := standby, lost := false, acting := false }
  let s := s.ifThen s.sw.isMaster fun s => s.onClock .sw fun c => { c with valid := true }
  (s.retime .sw).decideBook false

def timeMasterSetForm : Form where
  opcode := 0x0601
  len := 8
  range c s :=
    let st := c.num 0x82 2
    [(0x80, !swInDomain s.sw.sys (c.num 0x80 2)), (0x82, (st != 0x3FF && !swInDomain s.sw.sys st) || st == c.num 0x80 2)]
  running := escapementRuns
  commit c s := (.now [], s.nameMasters (c.num 0x80 2) (c.num 0x82 2))

def timeSetForm : Form where
  opcode := 0x0602
  len := 16
  range c _ := [(0x8C, decide (1 < c.num 0x8C 1))]
  running := escapementRuns
  own _ s := [(!s.sw.isMaster, mbConflict, 0)]
  commit c s := (.now [], s.onClock .sw fun k => { k.stepTo (ofSecFrac (c.num 0x80 6) (c.num 0x88 4)) with valid := true, pps := bit (c.num 0x8C 1) 0 })

/-! ### Staging (11 R299) -/

/-- The end-points of the domain (03 R63). -/
def domainEps (y : Sys) : List Nat := (List.range 1024).filter (epInDomain y)

/-- End-points whose gate lists this switch loads: those of its edge ports (11 R299). -/
def Switch.edgeEps (w : Switch) : List Nat := (ports64.filter (isEdge w.sys)).map w.peer

def bytesOf (l : List Nat) : List Byte := l.map fun n => BitVec.ofNat 8 n
def natsOf (l : List Byte) : List Nat := l.map BitVec.toNat

/-- SCHED_STAGE ends: any status but OK and CONFLICT leaves the standby bank with no package; under VERIFY it stays as it was. -/
def State.stageEnds (s : State) (a : Active) (status : Nat) (rsp : List Byte) : State :=
  let s := s.onSched .sw fun x =>
    if 0x10000 ≤ a.opcode ∨ status = mbConflict then { x with staging := none }
    else { x with staging := none, standby := if status = mbOk then x.staging else none }
  s.finishWork a.fn a.mb status rsp

def schedStageForm : Form where
  opcode := 0x0610
  len := 16
  running _ s := s.sw.sched.armed.isSome
  names _ _ := [.bank]
  late := true
  commit _ s := (.later (.hostRead 0) [.bank] [], s)
  start c s := s.askHost c.fn c.mb (·.commandRead (c.num 0x80 8) 0x100) fun s a => s.stageEnds a mbTimeout []

/-- The frames of CONFIG that load one gate list of an end-point port: 56 entries at most in each. -/
def stageFrames (k : Package) (book : Nat) (g : List (Nat × Nat)) : List (List Byte) :=
  (List.range (ceilDiv g.length 56)).map fun i =>
    leBytes 1 ciStage ++ leBytes 8 k.id ++ leBytes 4 k.cycleFlits ++ leBytes 8 k.base ++ leBytes 1 k.mainPace ++ leBytes 1 book
      ++ leBytes 2 g.length ++ leBytes 2 (56 * i) ++ ((g.drop (56 * i)).take 56).flatMap fun e => leBytes 3 e.2 ++ leBytes 1 e.1

/-- Relay to each end-point the lists of its port to this switch (11 R298). A port that carries no frames has no end-point to take or confirm them:
none is sent there (DEDUCED, log 120). -/
def State.relayLists (s : State) (a : Active) (k : Package) (parts : List (Section × List Byte)) : State :=
  s.each (parts.filter fun x => x.1.kind == kEpGate && s.sw.edgesUp.contains (epSlot x.1.home)) fun s x =>
    let g := ((parseGates x.2 8).getD []).getD s.sw.sys.plane []
    s.each (stageFrames k x.1.book g) fun s f => s.relayEp (epSlot x.1.home) mConfig f (some (a.fn, a.mb))

/-- Response of SCHED_STAGE. -/
def stageRsp (k : Package) : List Byte := leBytes 8 k.id ++ leBytes 8 0 ++ digestBytes k.digest

/-- The header, table and signature have been read: the signature verifies under an enrolled key (11 R299). -/
def State.tableSigned (s : State) (l sig : List Byte) : Bool :=
  (s.sw.vault.signers.find? fun k => leVal (slice l 0x30 64) == (Config.shake256 k).toNat).any fun k => Config.falconVerify k (Config.shake256 l) sig

/-- The header and table keep R289 and R291. -/
def Switch.tableKeeps (w : Switch) (l : List Byte) (n : Nat) : Bool :=
  headerOk w.sys l n && ((sectionsOf l).all fun x => x.ok w.sys n) && tableComplete w.sys (sectionsOf l) (domainEps w.sys)

/-- Bytes of the section table that lie before the signature. -/
def tableBytes (count n : Nat) : Nat := min (96 * count) (n - 0x100 - 1280)

/-- The sections that the switch reads: its own and its end-points', where they lie within the package. -/
def Switch.readSections (w : Switch) (l : List Byte) (n : Nat) : List Section :=
  (ownSections w.sys (sectionsOf l) w.edgeEps).filter fun x => decide (x.offset + x.length + 1280 ≤ n)

/-- What SCHED_STAGE does with the bytes of each read: the header; the table and the signature; the sections that concern this switch. The
statuses come in the order of R299's table; a length too short for header, table and signature leaves no signature to check. -/
def State.stageRead (s : State) (a : Active) (stage : Nat) (host : Option (List Byte)) : State :=
  let addr := field a.payload 0 8
  let n := field a.payload 8 8
  match host with
  | none => s.stageEnds a mbTimeout []
  | some l =>
    if stage = 0 then
      let count := sectionCount l
      if field l 6 1 ≠ s.sw.sys.mode then s.stageEnds a mbConflict []
      else if n < 0x100 + 96 + 1280 then s.stageEnds a mbBadField []
      else
        (s.onActive a.fn a.mb fun x => { x with work := .hostRead 1, data := natsOf (padTo 0x100 l) }).askHost a.fn a.mb
          (fun s => (s.commandRead (addr + 0x100) (tableBytes count n)).commandRead (addr + n - 1280) 1280) fun s a => s.stageEnds a mbTimeout []
    else if stage = 1 then
      let h := bytesOf a.data
      let m := tableBytes (sectionCount h) n
      let l' := h ++ l.take m
      if !s.tableSigned l' (l.drop m) then s.stageEnds a mbSignature []
      else
        (s.onActive a.fn a.mb fun x => { x with work := .hostRead 2, data := natsOf l' }).askHost a.fn a.mb
          (fun s => s.each (s.sw.readSections l' n) fun s x => s.commandRead (addr + x.offset) x.length) fun s a => s.stageEnds a mbTimeout []
    else
      let h := bytesOf a.data
      let parts := cutSections (s.sw.readSections h n) l
      if parts.any fun x => Config.shake256 x.2 != x.1.digest then s.stageEnds a mbDigest []
      else if !s.sw.tableKeeps h n then s.stageEnds a mbBadField []
      else match buildPackage s.sw h parts with
        | none => s.stageEnds a mbBadField []
        | some k =>
          if overBank parts then s.stageEnds a mbNoResource []
          else
            let s := s.onSched .sw fun x => { x with staging := some k }
            if 0x10000 ≤ a.opcode then s.stageEnds a mbOk []
            else
              let t := s.relayLists a k parts
              if t.sw.mgmt.relay.any fun r => r.2.cmd == some (a.fn, a.mb) then t.onActive a.fn a.mb fun x => { x with work := .relay 0, data := [] }
              else t.stageEnds a mbOk (stageRsp k)

/-- Every relay of SCHED_STAGE is confirmed: the package stands in the standby bank. -/
def State.stageConfirmed (s : State) (a : Active) : State :=
  s.stageEnds a mbOk ((s.sw.sched.staging.map stageRsp).getD [])

/-- A command of a function stages settings: its Ledger, the SEQ that its entry gets, and its place in taking order. -/
def State.stages (s : State) (fn : Nat) : StagedBy × State :=
  ({ ledger := fn, seq := (s.sw.getLedger fn).nextSeq, order := s.sw.core.stagings + 1 }, s.onCore fun k => { k with stagings := k.stagings + 1 })

/-! ### Arming (11 R300 to R304) -/

/-- Tell every end-point of the switch to arm or disarm. -/
def State.tellEps (s : State) (data : List Byte) : State := s.each s.sw.edgesUp fun s p => s.relayEp p mConfig data none

/-- A staged route differs from the running one of a destination whose port is in service (11 R303). -/
def Switch.routeMoves (w : Switch) (k : Package) : Bool :=
  (List.range 1024).any fun d =>
    let new := match k.routes with
      | some t => t.find d
      | none => defaultRoute w.sys d
    match w.route d, new with
    | some a, some b => a != b && (w.getLink a).state != .fenced && (w.getLink a).state != .down
    | _, _ => false

/-- The package stops serving a Syndicate with an open epoch (11 R304). -/
def Switch.dropsEpoch (w : Switch) (k : Package) : Bool :=
  w.synd.any fun y => y.2.epochs.any Epoch.isOpen && !(k.coll.any fun t => (t.find y.1).isSome)

def schedArmForm : Form where
  opcode := 0x0611
  len := 16
  names _ _ := [.bank]
  own c s :=
    match s.sw.sched.standby with
    | none => [(true, mbConflict, 0)]
    | some k =>
      let t := k.instant (c.num 0x88 8)
      let boundary := match s.sw.sched.active with
        | none => true
        | some a => decide (a.base * tSec ≤ t) && (t - a.base * tSec) % (a.cycleFlits * tFlit) == 0
      [(k.id != c.num 0x80 8, mbConflict, 0), (decide (k.mainPace < s.sw.sys.cfg.ceil), mbConflict, 0),
       (s.sw.routeMoves k || s.sw.dropsEpoch k, mbConflict, 0), (decide (t < s.now .sw + tMs), mbBadField, 0x88), (!boundary, mbBadField, 0x88)]
  point c _ := leBytes 8 (c.num 0x88 8)
  commit c s :=
    let (b, s) := s.stages 0
    let s := s.onSched .sw fun x => { x with armed := some (c.num 0x88 8), armedBy := b }
    (.now [], (s.setEvent evSched).tellEps (leBytes 1 ciArm ++ leBytes 8 (c.num 0x80 8) ++ leBytes 8 (c.num 0x88 8)))

def schedDisarmForm : Form where
  opcode := 0x0612
  len := 8
  names _ _ := [.bank]
  own c s := [(!(s.sw.sched.standby.any fun k => k.id == c.num 0x80 8 && s.sw.sched.armed.any fun n => decide (s.now .sw < k.instant n)), mbConflict, 0)]
  commit _ s := (.now [], ((s.onSched .sw fun x => { x with armed := none }).setEvent evSched).tellEps (leBytes 1 ciDisarm))

def bookPolicySetForm : Form where
  opcode := 0x0613
  len := 12
  range c _ := [(0x80, decide (c.num 0x80 1 < 1 ∨ 20 < c.num 0x80 1)), (0x84, decide (c.num 0x84 4 < 10 ∨ 10000 < c.num 0x84 4)),
                (0x88, decide (c.num 0x88 4 < 500 ∨ 20000 < c.num 0x88 4))]
  commit c s := (.now [], s.onSched .sw fun x => { x with margin := c.num 0x80 1, returnHold := c.num 0x84 4, lead := c.num 0x88 4 })

/-! ### Shapers and policers (11 R314 to R319) -/

/-- The instant of the next refill (11 R315). -/
def nextRefill (now : Nat) : Nat := (now / (256 * tFlit) + 1) * (256 * tFlit)

/-- A port named by a bucket is fenced. -/
def bucketFenced (c : Cmd) (s : State) : Bool := (s.sw.getLink (c.num 0x80 1)).state == .fenced

/-- The objects of a shaper: its port, and a partition shaper's partition. -/
def shaperObjs (c : Cmd) : List Obj := .port (c.num 0x80 1) :: if c.num 0x81 1 = 1 then [.partition (c.num 0x82 1)] else []

def shaperSetForm : Form where
  opcode := 0x0701
  len := 13
  vf := true
  foreign c _ := c.num 0x81 1 != 1 || c.num 0x82 1 != c.fn
  range c _ := shaperBad c.body
  fenced c s := bucketFenced c s || (c.num 0x81 1 == 1 && s.sw.partFenced (c.num 0x82 1))
  names c _ := shaperObjs c
  point _ s := timeBytes (nextRefill (s.now .sw))
  commit c s :=
    let e := shaperOf c.body
    let (b, s) := s.stages c.fn
    (.now [], s.onCore fun k => { k with shaperStaged := k.shaperStaged.put e.1 (e.2, b) })

def policerSetForm : Form where
  opcode := 0x0702
  len := 20
  range c _ := policerBad c.body
  fenced := bucketFenced
  names c _ := [.port (c.num 0x80 1)]
  point _ s := timeBytes (nextRefill (s.now .sw))
  commit c s :=
    let e := policerOf c.body
    let (b, s) := s.stages 0
    (.now [], s.onCore fun k => { k with policerStaged := k.policerStaged.put e.1 (e.2, b) })

/-- The 24 bytes of a SHAPER record. -/
def shaperRecord (port kind index : Nat) (b : Bucket) : List Byte :=
  padTo 24 (leBytes 1 port ++ leBytes 1 kind ++ leBytes 1 index ++ leBytes 1 (b2n b.enable) ++ leBytes 4 b.rate ++ leBytes 4 b.burst ++ leBytes 1 b.overhead)

/-- The 24 bytes of a POLICER record. -/
def policerRecord (port cls : Nat) (x : Policer) : List Byte :=
  padTo 24 (leBytes 1 port ++ leBytes 1 cls ++ leBytes 1 (b2n x.enable) ++ leBytes 1 x.overhead ++ leBytes 4 x.cir ++ leBytes 4 x.pir ++ leBytes 4 x.cbs
    ++ leBytes 4 x.pbs)

/-- Response of SHAPER_READ: FLAGS, the active record and the staged one. -/
def Switch.shaperRead (w : Switch) (port kind index : Nat) : List Byte :=
  let (staged, active, next) : Bool × List Byte × List Byte :=
    if kind = 2 then
      let st := w.core.policerStaged.find (policerKey port index)
      (st.isSome, policerRecord port index (w.core.policer.get (policerKey port index) {}), (st.map fun x => policerRecord port index x.1).getD [])
    else
      let st := w.core.shaperStaged.find (shaperKey port kind index)
      (st.isSome, shaperRecord port kind index (w.core.shaper.get (shaperKey port kind index) {}), (st.map fun x => shaperRecord port kind index x.1).getD [])
  leBytes 1 (b2n staged) ++ leBytes 7 0 ++ active ++ padTo 24 next

def shaperReadForm : Form where
  opcode := 0x0703
  len := 8
  vf := true
  foreign c _ := c.num 0x81 1 != 1 || c.num 0x82 1 != c.fn
  range c _ := [(0x80, decide (63 < c.num 0x80 1)), (0x81, decide (2 < c.num 0x81 1)),
                (0x82, if c.num 0x81 1 = 1 then decide (15 < c.num 0x82 1) else !shapedClass (c.num 0x82 1))]
  names c _ := shaperObjs c
  commit c s := (.now (s.sw.shaperRead (c.num 0x80 1) (c.num 0x81 1) (c.num 0x82 1)), s)

/-! ### The rows -/

/-- TIME_MASTER_SET (11 R285). -/
def execTimeMasterSet (fn mb : Nat) (s : State) : Host.Outcome State Fault Refusal := .next (s.takeCommand timeMasterSetForm fn mb)

/-- TIME_SET (11 R287). -/
def execTimeSet (fn mb : Nat) (s : State) : Host.Outcome State Fault Refusal := .next (s.takeCommand timeSetForm fn mb)

/-- SCHED_STAGE (11 R299). -/
def execSchedStage (fn mb : Nat) (s : State) : Host.Outcome State Fault Refusal := .next (s.takeCommand schedStageForm fn mb)

/-- SCHED_ARM (11 R301, R303, R304). -/
def execSchedArm (fn mb : Nat) (s : State) : Host.Outcome State Fault Refusal := .next (s.takeCommand schedArmForm fn mb)

/-- SCHED_DISARM (17 R440; 11 R302). -/
def execSchedDisarm (fn mb : Nat) (s : State) : Host.Outcome State Fault Refusal := .next (s.takeCommand schedDisarmForm fn mb)

/-- BOOK_POLICY_SET (11 R307, R308). -/
def execBookPolicySet (fn mb : Nat) (s : State) : Host.Outcome State Fault Refusal := .next (s.takeCommand bookPolicySetForm fn mb)

/-- SHAPER_SET (11 R316). -/
def execShaperSet (fn mb : Nat) (s : State) : Host.Outcome State Fault Refusal := .next (s.takeCommand shaperSetForm fn mb)

/-- POLICER_SET (11 R317; 17 Schedules and shaping). -/
def execPolicerSet (fn mb : Nat) (s : State) : Host.Outcome State Fault Refusal := .next (s.takeCommand policerSetForm fn mb)

/-- SHAPER_READ (16 R426). -/
def execShaperRead (fn mb : Nat) (s : State) : Host.Outcome State Fault Refusal := .next (s.takeCommand shaperReadForm fn mb)

end Sys2Proof.Machine
end

