-- ==== Sys2Proof/Machine/Collectives.lean ====
section
/-!
DEFINITION. The meanings of the collective frames at switches and members, and of the settlement limit (08 R202 to R222).
-/

namespace Sys2Proof.Machine

/-- COLL_DATA: a contribution or a partial result at a computing switch (08 R204, R205, R213). -/
def execCollData (_port : Nat) (f : Frame) (s : State) : Host.Outcome State Fault Refusal := .next (s.collData { f with typ := ftCollData })

/-- COLL_RESULT: at a member (08 R210, R211), or at another rack's switch, which sends it on to its members (08 R209). -/
def execCollResult (port : Nat) (f : Frame) (s : State) : Host.Outcome State Fault Refusal :=
  .next (if isSwitchId f.dest then s.collFromRoot { f with typ := ftCollResult }
    else s.epIn port f fun s => s.epCollResult f)

/-- COLL_CONFIRM of a member at the root switch (08 R211, R213, R214). -/
def execCollConfirm (_port : Nat) (f : Frame) (s : State) : Host.Outcome State Fault Refusal := .next (s.collConfirm { f with typ := ftCollConfirm })

/-- COLL_CONFIRM with which the root settles a chunk: at a computing switch (08 R215) or a member (24 R571). -/
def execCollConfirmSettled (d : Dev) (port : Nat) (f : Frame) (s : State) : Host.Outcome State Fault Refusal :=
  .next (match d with
    | .sw => s.collFromRoot { f with typ := ftCollConfirm }
    | .ep => s.epIn port f fun s => s.epSettled f)

/-- COLL_RECALL at a member: the delivery is withdrawn (08 R216). -/
def execCollRecall (port : Nat) (f : Frame) (s : State) : Host.Outcome State Fault Refusal := .next (s.epIn port f fun s => s.epCollRecall f)

/-- COLL_RECALL at a computing switch: its nodes are computed again and sent again (08 R215). -/
def execCollRecallSwitch (_port : Nat) (f : Frame) (s : State) : Host.Outcome State Fault Refusal :=
  .next (s.collFromRoot { f with typ := ftCollRecall })

/-- COLL_ABORT (08 R205, R220). -/
def execCollAbort (d : Dev) (port : Nat) (f : Frame) (s : State) : Host.Outcome State Fault Refusal :=
  .next (match d with
    | .sw => s.collAbortSw { f with typ := ftCollAbort }
    | .ep => s.epIn port f fun s => s.epCollAbort port { f with typ := ftCollAbort })

/-- The settlement limit of a chunk passes (08 R213). -/
def execSettlementLimit (synd epoch chunk : Nat) (s : State) : Host.Outcome State Fault Refusal := .next (s.settlementLimit synd epoch chunk)

end Sys2Proof.Machine
end

