-- ==== Sys2Proof/Machine/Relays.lean ====
section
/-!
DEFINITION. The resend rule of MGMT frames (05 R116), and READMIT (23 R550): the meanings of CONFIRM, RESEND_TIMER and READMIT.
-/

namespace Sys2Proof.Machine

def State.dropRelay (s : State) (id : Nat) : State := s.onSw fun w => { w with mgmt := { w.mgmt with relay := w.mgmt.relay.del id } }

/-- Remove every relay of a command. -/
def State.dropRelays (s : State) (fn mb : Nat) : State :=
  s.onSw fun w => { w with mgmt := { w.mgmt with relay := w.mgmt.relay.filter fun r => r.2.cmd != some (fn, mb) } }

/-- A command that waits ends with a status: SCHED_STAGE settles the standby bank. -/
def State.endsWith (s : State) (a : Active) (status : Nat) : State :=
  let s := s.dropRelays a.fn a.mb
  if a.opcode % 0x10000 = 0x0610 then s.stageEnds a status [] else s.finishWork a.fn a.mb status []

/-- A relay of a command is confirmed. extra: what follows the tag in the CONFIRM, for CONFIG about regions (DESIGN CHOICE, log 20). -/
def State.relayed (s : State) (a : Active) (extra : List Byte) : State :=
  let op := a.opcode % 0x10000
  if op = 0x0812 then
    let want := field a.payload 8 4
    let got := (a.data ++ extra.map (·.toNat)).take (2 * want)
    let s := s.onActive a.fn a.mb fun x => { x with data := got }
    if extra.isEmpty ∨ got.length = 2 * want then s.finishWork a.fn a.mb mbOk (bytesOf got) else s.regionReadNext { a with data := got }
  else if op = 0x0810 ∨ op = 0x0811 ∨ op = 0x0813 then s.finishWork a.fn a.mb (field extra 0 1) []
  else if s.sw.relaysOf a.fn a.mb then s
  else if op = 0x0901 ∨ op = 0x0903 then s.syndFormed a
  else if op = 0x0610 then s.stageConfirmed a
  else s.finishWork a.fn a.mb mbOk []

/-- A CONFIRM for this switch. -/
def State.confirmed (s : State) (f : Frame) : State :=
  let tag := field f.data 0 2
  match s.sw.mgmt.relay.find? fun r => r.2.f.tag == tag && (r.2.port == 64 || r.2.f.dest == f.src) with
  | none => s
  | some (id, r) =>
    match r.cmd.bind fun c => s.sw.activeOf c.1 c.2 with
    | none => s.dropRelay id
    | some a =>
      if r.port = 64 then
        let left := a.data.filter (· != f.src)
        let s := s.onActive a.fn a.mb fun x => { x with data := left }
        if left.isEmpty then (s.dropRelay id).finishWork a.fn a.mb mbOk [] else s
      else (s.dropRelay id).relayed a (f.data.drop 2)

/-- 100 µs after a send: the frame goes again, and after eight resends the relay is unconfirmed. -/
def State.resendRelay (s : State) (id : Nat) : State :=
  match s.sw.mgmt.relay.find id with
  | none => s
  | some r =>
    if r.sends ≤ 8 then
      let s := s.onSw fun w => { w with mgmt := { w.mgmt with relay := w.mgmt.relay.put id { r with sends := r.sends + 1 } } }
      if r.port = 64 then s.sendReadmit .sw r.f none else s.swSendPort outEscrow r.port r.f
    else
      let s := s.dropRelay id
      match r.cmd.bind fun c => s.sw.activeOf c.1 c.2 with
      | some a => s.endsWith a mbTimeout
      | none => s

/-- READMIT at a switch: the first copy takes effect and is relayed; every copy is confirmed to the switch that took the command, by the port on which
it came. -/
def State.readmitSwitch (s : State) (port : Nat) (f : Frame) : State :=
  if f.src = s.sw.sys.homeId then s
  else
    let h := field f.data 0 2
    let inc := field f.data 2 1
    let first := !((s.seenBy .sw).contains (mReadmit, leBytes 2 h ++ leBytes 1 inc))
    let s := if first then (s.readmitHere h inc).sendReadmit .sw f (some port) else s
    s.swSendPort outEscrow port (mgmtFrame f.src s.sw.sys.homeId (s.sw.incFor (s.sw.peer port)) mConfirm 0 (leBytes 2 f.tag))

/-- READMIT at an AKG-8: the first copy is sent on, and the end-point that it names is fenced no more. -/
def State.readmitEp (s : State) (port : Nat) (f : Frame) : State :=
  if (s.seenBy .ep).contains (mReadmit, f.data) then s
  else
    let h := field f.data 0 2
    let old (x : Nat × List Byte) : Bool := (x.1 == mVerdict || x.1 == mSuspect || x.1 == mReadmit) && field x.2 0 2 == h
    let s := s.onEp fun e => { e with peerInc := e.peerInc.put h (field f.data 2 1 % 16), peerLost := e.peerLost.filter (· != h) }
    (s.putSeen .ep ((mReadmit, f.data) :: (s.seenBy .ep).filter fun x => !old x)).sendReadmit .ep f (some port)

/-- CONFIRM at an AKG-8 for a switch of another plane is sent on. -/
def State.confirmEp (s : State) (f : Frame) : State := if f.dest = s.ep.homeId then s else s.epSend (f.dest % 8) f

/-! ### The rows -/

/-- READMIT (23 R550). -/
def execReadmit (d : Dev) (port : Nat) (f : Frame) (s : State) : Host.Outcome State Fault Refusal :=
  .next (s.mgmtAt d port f fun s => match d with
    | .sw => s.readmitSwitch port f
    | .ep => s.readmitEp port f)

/-- CONFIRM (05 R116; 23 R539). -/
def execConfirm (d : Dev) (port : Nat) (f : Frame) (s : State) : Host.Outcome State Fault Refusal :=
  .next (s.mgmtAt d port f fun s => match d with
    | .sw => s.confirmed f
    | .ep => s.confirmEp f)

/-- RESEND_TIMER (05 R116). -/
def execResendTimer (id : Nat) (s : State) : Host.Outcome State Fault Refusal := .next (s.resendRelay id)

end Sys2Proof.Machine
end

