-- ==== Sys2Proof/Machine/Completion.lean ====
section
/-!
DEFINITION. The end of mailbox commands: COMMAND_COMPLETION, COMMAND_TIMEOUT and UNLISTED_OPCODE (16 R418 to R424; 17 R434).
-/

namespace Sys2Proof.Machine

/-- What the end of a wait lets a command do, with what a host access brought: the next stage of its work, or its result. -/
def State.commandWork (s : State) (a : Active) (host : Option (List Byte)) : State :=
  let op := a.opcode % 0x10000
  if op = 0x0610 then
    match a.work with
    | .hostRead stage => s.stageRead a stage host
    | _ => s
  else if op = 0x0901 then
    match a.work with
    | .hostRead _ => s.syndRead a host
    | _ => s
  else if op = 0x0A20 then s.assayWork a host
  else if op = 0x0B02 then s.ledgerWork a host
  else if op = 0x0B03 then s.sealWork a
  else if op = 0x0B10 then s.saveWork a host
  else if op = 0x0B11 then s.restoreWork a host
  else s.deviceWork a host

/-- The Teller works, or in ROM recovery the ROM. -/
def Switch.tellerWorks (w : Switch) : Bool := w.teller.state == 0 || w.sys.phase == .romRecovery

/-- COMMAND_COMPLETION: a command whose work is done is completed; one that waits goes on. -/
def State.completion (s : State) (fn mb : Nat) (host : Option (List Byte)) : State :=
  if !s.sw.tellerWorks then s
  else
    let s := s.retireCheck
    match s.sw.activeOf fn mb with
    | none => s
    | some a => (if a.result.isSome then s else s.commandWork a host).completeCommand fn mb

/-- The status of work that passes its bound: ASSAY_REQUEST may still wait for a transition to end (17 R443). -/
def Active.lateStatus (a : Active) : Nat := if a.opcode % 0x10000 = 0x0A20 ∧ a.data = [] then mbTransition else mbTimeout

/-- COMMAND_TIMEOUT: the Teller completes work that has passed its bound. -/
def State.commandLate (s : State) (fn mb : Nat) : State :=
  if !s.sw.tellerWorks then s
  else match s.sw.activeOf fn mb with
    | none => s
    | some a => if a.result.isSome then s else (s.endsWith a a.lateStatus).completeCommand fn mb

/-- The opcodes of the command index (17). -/
def commandIndex : List Nat := (layoutsLow ++ layoutsMid ++ layoutsHigh).map (·.1)

/-- A command whose opcode the index does not list is taken and refused (17 R434). -/
def State.takeUnlisted (s : State) (fn mb : Nat) : State :=
  let m := s.sw.mailbox fn mb
  if !(s.sw.takes fn mb) || commandIndex.contains (bits m.header.toNat 0 16) then s
  else
    let s := s.onTeller fun t => { t with order := t.order.erase (fn, mb) }
    if m.seq = m.lastSeq then s.clearOwn fn mb
    else if s.sw.entryFull fn then s.respond fn mb m.seq mbBusy 0 0 []
    else
      let (s, q) := s.commandEntry (s.sw.cmdOf fn mb (min 1920 (bits m.header.toNat 32 16))) mbBadOpcode [] false
      s.respond fn mb m.seq mbBadOpcode 0 q []

/-! ### The rows -/

/-- COMMAND_COMPLETION (16 R418, R421). -/
def execCommandCompletion (fn mb : Nat) (host : Option (List Byte)) (s : State) : Host.Outcome State Fault Refusal := .next (s.completion fn mb host)

/-- UNLISTED_OPCODE (17 R434). -/
def execUnlistedOpcode (fn mb : Nat) (s : State) : Host.Outcome State Fault Refusal := .next (s.takeUnlisted fn mb)

/-- COMMAND_TIMEOUT (16 R422). -/
def execCommandTimeout (fn mb : Nat) (s : State) : Host.Outcome State Fault Refusal := .next (s.commandLate fn mb)

end Sys2Proof.Machine
end

