-- ==== Sys2Proof/Machine/Graphs.lean ====
section
/-!
DEFINITION. The meanings of the rows of Escrow: fabric mailboxes (09 R228 to R236) and the ends and waits of tasks and graphs (09 R245 to
R250).
-/

namespace Sys2Proof.Machine

/-- The mailbox of an offset in the window, and the offset within it. -/
def mailboxOf (off : Nat) : Nat × Nat := ((off - mailboxBase) / 0x10000, (off - mailboxBase) % 0x10000)

/-- A request to a mailbox that Escrow does not serve (09 R229; 03 R59): out of one block, unassigned, or of another partition. -/
def Switch.mailboxRefuses (w : Switch) (f : Frame) : Bool :=
  let x := w.getMbox (mailboxOf f.offset).1
  !inMailboxWindow f.offset || decide (256 < f.offset % 256 + f.length) || f.length == 0 || x.partition == 0xFF || x.partition != f.partition

/-- Areas that a write may reach: HEADER, EDGES and TASKS. -/
def mailboxWritable (o n : Nat) : Bool :=
  decide (o + n ≤ 0x40) || (decide (0x400 ≤ o) && decide (o + n ≤ 0xC00)) || (decide (0x1000 ≤ o) && decide (o + n ≤ 0x5000))

/-- A GO submits the image: refused, admitted, or waiting for a slot (09 R234 to R236). -/
def State.submit (s : State) (pos m : Nat) (f : Frame) : State :=
  let x := s.sw.getMbox m
  let (res, t, g) := if (x.bytes 0 1) = [1#8] then s.sw.checkGraph m x else (1, 0, (s.sw.checkGraph m x).2.2)
  if res ≠ 0 then (s.emptyMbox m res t g.tag).escrowRespond f stBadAddress []
  else match s.sw.freeGraphSlot x.partition with
    | some slot => (s.takeSlot slot g f).escrowSettle
    | none => s.onEscrow fun e => { e with queue := e.queue ++ [{ mailbox := m, pos := pos, f := f, graph := g }] }

/-- A write to a fabric mailbox. -/
def State.mailboxWrite (s : State) (pos : Nat) (f : Frame) : State :=
  let s := s.takeInbox outEscrow f
  let (m, o) := mailboxOf f.offset
  if aged s.sw.sys.cfg (s.now .sw) f then s.escrowRespond f stAged []
  else if s.sw.mailboxRefuses f || f.typ != ftWrite || !mailboxWritable o f.length then s.escrowRespond f stBadAddress []
  else
    let x := s.sw.getMbox m
    let image := (padTo f.length f.data).zipIdx.foldl (fun t b => t.put (o + b.2) b.1) x.image
    let s := s.putMbox m { x with filling := true, image := image }
    if o = 0 ∧ image.get 0 0 ≠ 0 then s.submit pos m f else s.escrowRespond f stOk []

/-- The status record of a mailbox. -/
def FabMbox.status (x : FabMbox) : List Byte :=
  leBytes 1 (b2n x.filling) ++ leBytes 1 x.result ++ leBytes 1 x.task ++ leBytes 1 x.slot ++ leBytes 4 x.tag ++ leBytes 56 0

/-- A read of a fabric mailbox: STATUS alone. -/
def State.mailboxRead (s : State) (f : Frame) : State :=
  let s := s.takeInbox outEscrow f
  let (m, o) := mailboxOf f.offset
  if aged s.sw.sys.cfg (s.now .sw) f then s.escrowRespond f stAged []
  else if s.sw.mailboxRefuses f || !decide (0x40 ≤ o ∧ o + f.length ≤ 0x80) then s.escrowRespond f stBadAddress []
  else s.escrowRespond f stOk (slice (s.sw.getMbox m).status (o - 0x40) f.length)

/-- A task's requests and release fence are complete (09 R247): done, run again, or failed. -/
def State.taskComplete (s : State) (slot t : Nat) : State :=
  match s.sw.getTask slot t with
  | none => s
  | some x => match x.ended with
    | some st => if x.state = .running then (s.settleTask slot t st false).escrowSettle else s
    | none => s

/-- The age limit has passed after a TIMEOUT: the task is ready again (09 R248). -/
def State.retryWaitEnd (s : State) (slot t : Nat) : State :=
  match s.sw.getTask slot t with
  | none => s
  | some x =>
    if x.state ≠ .retryWait then s
    else
      let n := s.sw.escrow.readyCount
      ((s.onTask slot t fun y => { y with state := .ready, readyAt := n }).onEscrow fun e => { e with readyCount := n + 1 }).escrowSettle

/-- DEADLINE passes: every unstarted task is cancelled (09 R249). -/
def State.deadline (s : State) (slot : Nat) : State :=
  match s.sw.getGraph slot with
  | none => s
  | some g =>
    if g.deadline = 0 then s
    else (s.cancelGraphFor slot g .deadline).escrowSettle

/-- Fabric time reaches the instant of a WAIT_TIME task (09 R239). -/
def State.waitTimeReached (s : State) (slot t : Nat) : State :=
  match s.sw.getTask slot t with
  | none => s
  | some x =>
    if x.state = .running ∧ (TaskDesc.of x.desc).kind = 0x0E then (s.settleTask slot t stOk false).escrowSettle else s

/-- A waiting graph has found no slot within the home busy limit (09 R235). -/
def State.admissionExpiry (s : State) (m : Nat) : State :=
  match s.sw.escrow.queue.find? fun x => x.mailbox == m with
  | none => s
  | some x =>
    let s := s.onEscrow fun e => { e with queue := e.queue.erase x }
    (s.emptyMbox m 8 0 x.graph.tag).escrowRespond x.f stBusyTimeout []

/-! ### The rows -/

/-- FABRIC_MAILBOX_WRITE (09 R230). -/
def execFabricMailboxWrite (pos : Nat) (f : Frame) (s : State) : Host.Outcome State Fault Refusal := .next (s.mailboxWrite pos f)

/-- FABRIC_MAILBOX_READ (09 R231). -/
def execFabricMailboxRead (_pos : Nat) (f : Frame) (s : State) : Host.Outcome State Fault Refusal := .next (s.mailboxRead f)

/-- TASK_COMPLETE (09 R247). -/
def execTaskComplete (slot task : Nat) (s : State) : Host.Outcome State Fault Refusal := .next (s.taskComplete slot task)

/-- RETRY_WAIT_END (09 R248). -/
def execRetryWaitEnd (slot task : Nat) (s : State) : Host.Outcome State Fault Refusal := .next (s.retryWaitEnd slot task)

/-- DEADLINE (09 R249). -/
def execDeadline (slot : Nat) (s : State) : Host.Outcome State Fault Refusal := .next (s.deadline slot)

/-- WAIT_TIME_REACHED (09 R239). -/
def execWaitTimeReached (slot task : Nat) (s : State) : Host.Outcome State Fault Refusal := .next (s.waitTimeReached slot task)

/-- ADMISSION_WAIT_EXPIRY (09 R235). -/
def execAdmissionWaitExpiry (mailbox : Nat) (s : State) : Host.Outcome State Fault Refusal := .next (s.admissionExpiry mailbox)

end Sys2Proof.Machine
end

