-- ==== Sys2Proof/Machine/Management.lean ====
section
/-!
DEFINITION. The meanings of the failure detector's rows and of the MGMT frames to an end-point (23 R539 to R552; 21 R508, R513).
-/

namespace Sys2Proof.Machine

/-- A MGMT frame at the switch leaves its inbox. -/
def State.mgmtIn (s : State) (f : Frame) (g : State → State) : State := g (s.takeInbox (internalOut f) f)

/-- HEARTBEAT at an end-point: answered on its port (23 R545). -/
def execHeartbeat (port : Nat) (f : Frame) (s : State) : Host.Outcome State Fault Refusal := .next (s.epIn port f fun s => s.epHeartbeat port f)

/-- HEARTBEAT_ACK at a switch: the count of misses becomes 0 (23 R545). -/
def execHeartbeatAck (_port : Nat) (f : Frame) (s : State) : Host.Outcome State Fault Refusal := .next (s.mgmtIn f fun s => s.heartbeatAck f.src f.data)

/-- A whole 100 µs of fabric time (23 R545). -/
def execHeartbeatInstant (s : State) : Host.Outcome State Fault Refusal := .next s.heartbeatInstant

/-- SUSPECT: relayed, and held at a switch (23 R546). -/
def State.suspectAt (s : State) (d : Dev) (port : Nat) (f : Frame) : State :=
  match d with
  | .sw => s.mgmtIn f fun s => (s.flood .sw (some port) mSuspect f.data).suspectSwitch (field f.data 0 2) (field f.data 2 1) (field f.data 3 2)
  | .ep => s.epIn port f fun s => s.flood .ep (some port) mSuspect f.data

def execSuspect (d : Dev) (port : Nat) (f : Frame) (s : State) : Host.Outcome State Fault Refusal := .next (s.suspectAt d port f)

/-- A held SUSPECT is no longer valid (23 R546). -/
def execSuspectExpiry (endpoint sender : Nat) (s : State) : Host.Outcome State Fault Refusal :=
  .next (if (s.sw.epRec endpoint).suspects.contains sender then s.onEpRec endpoint fun r => { r with suspects := r.suspects.filter (· != sender) } else s)

/-- VERDICT (23 R547 to R549). -/
def execVerdict (d : Dev) (port : Nat) (f : Frame) (s : State) : Host.Outcome State Fault Refusal :=
  .next (match d with
    | .sw => s.mgmtIn f fun s => (s.verdictSwitch port f).regionGone
    | .ep => s.epIn port f fun s => s.epVerdict port f)

/-- FENCE_NOTICE at an end-point (23 R552). -/
def execFenceNotice (port : Nat) (f : Frame) (s : State) : Host.Outcome State Fault Refusal := .next (s.epIn port f fun s => s.fenceNotice port f)

/-- ADMIT at an end-point (14 R367, 23 R550, R551). -/
def execAdmitFrame (port : Nat) (f : Frame) (s : State) : Host.Outcome State Fault Refusal :=
  .next (s.epIn port { f with typ := ftMgmt, opx := opxAt mAdmit 36 } fun s => s.epAdmit port f)

/-- CONFIG at an end-point (23 R539). -/
def execConfig (port : Nat) (f : Frame) (s : State) : Host.Outcome State Fault Refusal := .next (s.epIn port f fun s => s.epConfig port f)

/-- SLOT_CLOSE at an end-point (21 R508, R513). -/
def execSlotClose (port : Nat) (f : Frame) (s : State) : Host.Outcome State Fault Refusal := .next (s.epIn port f fun s => s.slotClose port f)

/-- SLOT_OPEN at an end-point (21 R508). -/
def execSlotOpen (port : Nat) (f : Frame) (s : State) : Host.Outcome State Fault Refusal := .next (s.epIn port f fun s => s.slotOpen port f)

/-- 100 ms after an end-point fenced a port for link loss the port enters DETECT (23 R544). -/
def execEndpointPortRedetect (port : Nat) (s : State) : Host.Outcome State Fault Refusal :=
  .next (s.epEv fun s => if (s.ep.getLink port).fenceWhy = 1 then s.epRedetect port else s)

end Sys2Proof.Machine
end

