-- ==== Sys2Proof/Machine/Pace.lean ====
section
/-!
DEFINITION. The meanings of the rows of power, pace and heat (20 R485 to R498, 24 R574, R575).
-/

namespace Sys2Proof.Machine

/-- POWER_REQ: a partner asks for a low-power state of the shared port (20 R487). -/
def State.powerReq (s : State) (d : Dev) (p st : Nat) : State :=
  match d with
  | .sw => s.powerReqSw p st
  | .ep => s.powerReqEp p st

def execPowerReq (d : Dev) (port : Nat) (f : Frame) (s : State) : Host.Outcome State Fault Refusal :=
  .next (s.mgmtAt d port f fun s => s.powerReq d port (field f.data 0 1))

/-- POWER_ACK: the partner agrees, and both ends enter the state (20 R487). -/
def State.powerAck (s : State) (d : Dev) (p a : Nat) : State :=
  match d with
  | .sw => s.powerAckSw p a
  | .ep => if (s.ep.getLink p).asked.isSome then (s.onLink .ep p fun l => { l with asked := none }).epPower p (min a (s.epWish p)) else s

def execPowerAck (d : Dev) (port : Nat) (f : Frame) (s : State) : Host.Outcome State Fault Refusal :=
  .next (s.mgmtAt d port f fun s => s.powerAck d port (field f.data 0 1))

/-- IDLE_HOLD_END (20 R489). -/
def execIdleHoldEnd (kind index : Nat) (s : State) : Host.Outcome State Fault Refusal :=
  .next (if index < domainCount kind then s.idleHold kind index else s)

/-- POWER_ENTRY_DONE (20 R491). -/
def execPowerEntryDone (kind index : Nat) (s : State) : Host.Outcome State Fault Refusal := .next (s.entryDone kind index)

/-- WAKE_STAGE_READY (20 R492). -/
def execWakeStageReady (kind index : Nat) (s : State) : Host.Outcome State Fault Refusal := .next (s.stageReady kind index)

/-- WAKE_STAGE_TIMEOUT (20 R492). -/
def execWakeStageTimeout (kind index : Nat) (s : State) : Host.Outcome State Fault Refusal := .next (s.stageLate kind index)

/-- WAKE_N (20 R492, 25 R582). -/
def execWakeN (s : State) : Host.Outcome State Fault Refusal := .next s.wakeAll

/-- BALANCE_SAMPLE: P is the largest of the 32 readings (01 R18, 20 R493). -/
def State.balanceAt (s : State) (d : Dev) (readings : List Nat) : State :=
  match d with
  | .sw => s.balance readings
  | .ep => s.onEp fun e => { e with p := readings.foldl max 0 }

def execBalanceSample (d : Dev) (readings : List Nat) (s : State) : Host.Outcome State Fault Refusal := .next (s.balanceAt d readings)

/-- REGULATOR_TICK (20 R493, R494). -/
def State.regulateAt (s : State) (d : Dev) (watts : Nat) : State :=
  match d with
  | .sw => s.regulate watts
  | .ep => s.epRegulate watts

def execRegulatorTick (d : Dev) (watts : Nat) (s : State) : Host.Outcome State Fault Refusal := .next (s.regulateAt d watts)

/-- PWRBRK_N falls (20 R495). -/
def execPwrbrkNAssert (s : State) : Host.Outcome State Fault Refusal := .next s.brake

/-- PWRBRK_N rises (20 R495). -/
def execPwrbrkNDeassert (s : State) : Host.Outcome State Fault Refusal := .next s.unbrake

/-- THROTTLE: a junction reads 95 °C or more (20 R497). -/
def execThrottle (degrees : Nat) (s : State) : Host.Outcome State Fault Refusal := .next (s.throttleAt degrees)

/-- THROTTLE_END: every junction below 93 °C for 100 ms (20 R497). -/
def execThrottleEnd (s : State) : Host.Outcome State Fault Refusal := .next (s.onPower fun x => { x with throttle := 0 })

/-- THERMAL_TRIP: 110 °C on a junction (20 R498). -/
def execThermalTrip (s : State) : Host.Outcome State Fault Refusal := .next s.trip

/-- TRIP_HOLD_END: 60 s, or 115 °C (20 R498). -/
def execTripHoldEnd (s : State) : Host.Outcome State Fault Refusal := .next (if s.sw.sys.phase = .tripHold then s.turnOff else s)

/-- ENDPOINT_THERMAL: from 95 °C a lower power limit and THERMAL; at 110 °C the trip (24 R575). -/
def State.endpointThermal (s : State) (degrees : Nat) : State :=
  if degrees < 95 then s.onEp fun e => { e with powerLimit := 46 }
  else
    let s := (s.onEp fun e => { e with powerLimit := 46 - 2 * (degrees - 94) }).epEvent eeThermal
    if degrees ≥ 110 ∧ !s.ep.thermTrip then (s.onEp fun e => { e with thermTrip := true, off := true }).emit (.pin .epThermTripN false) else s

def execEndpointThermal (degrees : Nat) (s : State) : Host.Outcome State Fault Refusal := .next (s.endpointThermal degrees)

end Sys2Proof.Machine
end

