-- ==== Sys2Proof/Machine/Records.lean ====
section
/-!
DEFINITION. The meanings of the Ledger's rows (22 R524 to R531): copies of logged writes to end-point homes, staging, and seals.
-/

namespace Sys2Proof.Machine

/-- INPUT_ACK to an end-point (22 R529, R530). -/
def State.sendInputAck (s : State) (f : Frame) (status : Nat) : State :=
  s.swSend outEscrow { dest := f.src, src := s.sw.sys.homeId, partition := f.partition, cls := 7, typ := ftLedger, tag := f.tag, keySlot := f.keySlot,
                       inc := s.sw.incFor f.src, offset := f.offset, status := status, opx := opxAt 2 36 }

/-- Take an INPUT_COPY into staging, or say that there is no room. -/
def State.takeCopy (s : State) (f : Frame) : Option State :=
  let l := s.sw.getLedger f.partition
  if l.started && !l.room (inputBytes f.length) false then none
  else some ((s.logInput f f.src (f.extBits 9 0) (f.extBits 15 10) (padTo f.length f.data)).sendInputAck f stOk)

/-- INPUT_COPY at the switch: taken, or waiting for room (22 R529). -/
def State.inputCopy (s : State) (p : Nat) (f : Frame) : State :=
  let s := s.takeInbox (internalOut f) f
  match s.takeCopy f with
  | some s => s
  | none => (s.onSw fun w => { w with inputWait := w.inputWait ++ [(p, f)] }).noteFull f.partition

/-- 50 µs without room: HOME_BUSY_TIMEOUT, and no entry is taken. -/
def State.copyWaitEnd (s : State) (src tag : Nat) : State :=
  match s.sw.inputWait.find? fun x => x.2.src == src && x.2.tag == tag with
  | none => s
  | some x => (s.onSw fun w => { w with inputWait := w.inputWait.erase x }).sendInputAck x.2 stBusyTimeout

/-- INPUT_COPYs of a partition that now find room. -/
def State.takeCopies (s : State) (p : Nat) : State :=
  s.each (s.sw.inputWait.filter fun x => x.2.partition == p) fun s x =>
    match s.takeCopy x.2 with
    | some t => t.onSw fun w => { w with inputWait := w.inputWait.erase x }
    | none => s

/-- Chunks whose settlement waited for room settle (22 R531). -/
def State.settleWaiting (s : State) (p : Nat) : State :=
  s.each (s.sw.synd.filter fun y => y.2.partition == p) fun s y =>
    s.each y.2.epochs fun s e => s.each e.chunks fun s c =>
      match s.sw.getSynd y.1 with
      | none => s
      | some y' => match y'.epoch e.number with
        | none => s
        | some e' => match (e'.chunks.get c.1 {}).state with
          | .delivered a => if (e'.chunks.get c.1 {}).allConfirmed y' then s.settleChunk y.1 y' e' c.1 a else s
          | _ => s

/-- What waited for room in a partition's staging goes on, in the order of the model: queued entries, an owed seal, retirements, copies, settlements. -/
def State.roomCame (s : State) (p : Nat) : State :=
  let s := s.takeQueuedEntries p 2048
  let s := if (s.sw.getLedger p).sealDue then s.ledgerSeal p else s
  let s := s.each slots32 fun s k => s.retireDone k
  let s := if (s.sw.getLedger p).room 128 false then s.putLedger p { s.sw.getLedger p with fullNoted := false } else s
  (s.takeCopies p).settleWaiting p

/-- Bytes of a partition's staging have been written to its region. -/
def State.stagingRoom (s : State) (p bytes : Nat) : State :=
  let l := s.sw.getLedger p
  if !l.started ∨ l.region.isNone then s
  else (s.putLedger p { l with staged := max (min l.staged l.mustStage) (l.staged - bytes) }).roomCame p

/-- 100 ms of fabric time in which an entry was added (22 R527). -/
def State.sealTimer (s : State) (p : Nat) : State :=
  if (s.sw.getLedger p).dirty then s.ledgerSeal p else s

/-! ### The rows -/

/-- INPUT_COPY (22 R529). -/
def execInputCopy (port : Nat) (f : Frame) (s : State) : Host.Outcome State Fault Refusal := .next (s.inputCopy port f)

/-- INPUT_COPY_WAIT_END (22 R529). -/
def execInputCopyWaitEnd (src tag : Nat) (s : State) : Host.Outcome State Fault Refusal := .next (s.copyWaitEnd src tag)

/-- STAGING_ROOM (22 R531). -/
def execStagingRoom (partition bytes : Nat) (s : State) : Host.Outcome State Fault Refusal := .next (s.stagingRoom partition bytes)

/-- LEDGER_SEAL_TIMER (22 R527). -/
def execLedgerSealTimer (partition : Nat) (s : State) : Host.Outcome State Fault Refusal := .next (s.sealTimer partition)

end Sys2Proof.Machine
end

