-- ==== Sys2Proof/Machine/Requests.lean ====
section
/-!
DEFINITION. The meanings of memory requests at a home (03 R59 to R77; 04 R96 to R109; 05 R114, R124 to R135; 06; 24 R560), of what the accelerator
asks of the AKG-8 (24 R559 to R571), and of the Clearing units' own events.
-/

namespace Sys2Proof.Machine

/-- A memory request at the home of a device. -/
def State.atHome (s : State) (d : Dev) (pos : Nat) (f : Frame) : State :=
  match d with
  | .sw => s.homeRequest pos f
  | .ep => s.epIn pos f fun s => s.epHomeRequest pos f

/-- READ: the line's bytes, with the CACHE value of its region's mode (05 R114, R130). -/
def execRead (d : Dev) (pos : Nat) (f : Frame) (s : State) : Host.Outcome State Fault Refusal := .next (s.atHome d pos { f with typ := ftRead })

/-- READ_VOL: performed at the point of coherence, with CACHE NONE (04 R98). -/
def execReadVol (d : Dev) (pos : Nat) (f : Frame) (s : State) : Host.Outcome State Fault Refusal := .next (s.atHome d pos { f with typ := ftReadVol })

/-- READ_SHARED: a copy to read (05 R130); served as READ outside COHERENT regions. -/
def execReadShared (d : Dev) (pos : Nat) (f : Frame) (s : State) : Host.Outcome State Fault Refusal := .next (s.atHome d pos { f with typ := ftReadShared })

/-- READ_OWN: a copy to write (05 R130). -/
def execReadOwn (d : Dev) (pos : Nat) (f : Frame) (s : State) : Host.Outcome State Fault Refusal := .next (s.atHome d pos { f with typ := ftReadOwn })

/-- CLAIM: the right to write a copy that is held (05 R130). -/
def execClaim (d : Dev) (pos : Nat) (f : Frame) (s : State) : Host.Outcome State Fault Refusal := .next (s.atHome d pos { f with typ := ftClaim })

/-- WRITE: the bytes are stored (03 R59, 05 R130). -/
def execWrite (d : Dev) (pos : Nat) (f : Frame) (s : State) : Host.Outcome State Fault Refusal := .next (s.atHome d pos { f with typ := ftWrite })

/-- WRITE_LOG: stored, and entered in the input log (22 R528, R529). -/
def execWriteLog (d : Dev) (pos : Nat) (f : Frame) (s : State) : Host.Outcome State Fault Refusal := .next (s.atHome d pos { f with typ := ftWriteLog })

/-- DEPOSIT: a whole line stored, and filled into the cache of the end-point that EXT names (03 R63, 05 R135). -/
def execDeposit (d : Dev) (pos : Nat) (f : Frame) (s : State) : Host.Outcome State Fault Refusal := .next (s.atHome d pos { f with typ := ftDeposit })

/-- ATOMIC: one operation at the home (03 R66 to R68, 04 R104). -/
def execAtomic (d : Dev) (pos : Nat) (f : Frame) (s : State) : Host.Outcome State Fault Refusal := .next (s.atHome d pos { f with typ := ftAtomic })

/-- One line operation of a Clearing unit (04 R108, R109; 05 R125). -/
def execLineOperation (unit : Nat) (s : State) : Host.Outcome State Fault Refusal := .next (s.lineOperation (unit % 16))

/-- The request at place idx of a unit's retry queue has waited for the home busy limit (03 R75): it completes unperformed. -/
def State.homeBusyTimeout (s : State) (unit idx : Nat) : State :=
  match (s.sw.unit unit).retry[idx]? with
  | none => s
  | some x => (s.unqueue unit x).homeRespond x.f stBusyTimeout [] 0

def execHomeBusyTimeout (unit idx : Nat) (s : State) : Host.Outcome State Fault Refusal := .next (s.homeBusyTimeout (unit % 16) idx)

/-! ### The accelerator (24 R559) -/

/-- REQ: an accelerator's access (24 R565). -/
def execReq (r : Req) (s : State) : Host.Outcome State Fault Refusal := .next (s.epEv fun s => s.epReq r .accel)

/-- FENCE: an acquire or release fence of an agent (24 R569, 04 R90 to R93). -/
def execFence (agent utag : Nat) (kind : FenceKind) (scope : Scope) (s : State) : Host.Outcome State Fault Refusal :=
  .next (s.epEv fun s => s.epFence agent utag kind scope)

/-- CALL: a collective call (24 R570). -/
def execCall (agent utag : Nat) (c : CallRec) (s : State) : Host.Outcome State Fault Refusal := .next (s.epEv fun s => s.epCall agent utag c)

/-- MEM_CPL: the accelerator has performed a line of a request to its memory (24 R560). -/
def execMemCpl (utag : Nat) (data : List Byte) (s : State) : Host.Outcome State Fault Refusal := .next (s.epEv fun s => s.memDone utag data)

/-- A UCIe module fails training: it is left out, and with none left every fabric port is held in DETECT (24 R558). -/
def State.ucieFail (s : State) (module : Nat) : State :=
  let s := s.onEp fun e => { e with ucie := e.ucie.filter (· != module) }
  if !s.ep.ucie.isEmpty then s
  else (s.each (List.range 8) fun s p => s.onLink .ep p fun l => { l.fresh with state := .detect, fenceWhy := 0 }).epUnreachable

def execUcieModuleFail (module : Nat) (s : State) : Host.Outcome State Fault Refusal := .next (s.ucieFail module)

/-- EP_AGENT_BIND of an agent is written through the sideband (24 R562, R563). -/
def execEpAgentBindWrite (agent : Nat) (val : BitVec 64) (s : State) : Host.Outcome State Fault Refusal := .next (s.epEv fun s => s.bindAgent agent val)

end Sys2Proof.Machine
end

