-- ==== Sys2Proof/Machine/Translation.lean ====
section
/-!
DEFINITION. The meanings of translation misses and their answers, of invalidations, and of completion timeouts (02 R41 to R56; 03 R80, R81).
-/

namespace Sys2Proof.Machine

/-- Answer an end-point's miss. -/
def State.answerMiss (s : State) (f : Frame) (status : Nat) (data : List Byte) : State :=
  s.swSend outEscrow (f.response s.sw.sys.homeId status data)

/-- Room for one more waiting miss (02 R43). -/
def Switch.missRoom (w : Switch) (ctx : Nat) : Bool :=
  decide ((w.xlat.reads.map fun r => r.waiters.length).foldl (· + ·) 0 < 8192)
    && ((w.xlat.reads.any fun r => r.ctx == ctx) || decide (w.xlat.reads.length < 256))

/-- TRANSLATE_REQ at the serving switch (02 R36, R42, R43): without room it stays in the cell buffer. A fault of a context without a table base has
no host read to merge under, and joins only the newest record of its kind (20 R536; DESIGN CHOICE, log 100). -/
def State.translateReq (s : State) (port : Nat) (f : Frame) : State :=
  let ctx := f.opxBits 51 36
  match s.sw.tableAddr ctx with
  | none => ((s.takeInbox (internalOut f) f).xlatFault fNoSegment ctx 0xFF f.partition none).answerMiss f stSegFault []
  | some a =>
    if s.sw.readFails ctx then ((s.takeInbox (internalOut f) f).readFault ctx f.partition).answerMiss f stTimeout []
    else if s.sw.missRoom ctx then (s.takeInbox (internalOut f) f).startRead ctx a (.endpoint port f) else s

def execTranslateReq (port : Nat) (f : Frame) (s : State) : Host.Outcome State Fault Refusal := .next (s.translateReq port { f with typ := ftTranslateReq })

/-- TRANSLATE_RSP at the end-point: installed in both levels, and what waited for it goes on (02 R41). -/
def execTranslateRsp (port : Nat) (f : Frame) (s : State) : Host.Outcome State Fault Refusal := .next (s.epIn port f fun s => s.epTranslated port f)

/-- What waits at the switch for a translation of a CVA ends with a status: frames taken back, the engine's task, a done record. -/
def State.missFailed (s : State) (n cva status : Nat) : State :=
  let mine (x : Flight) : Bool := !x.sent && x.cva == cva && x.who == n
  let s := (s.each (s.sw.escrow.held.filter mine) fun s x => s.endHeld x status).flightsGo
  let waits := match (s.sw.getEngine n).task with
    | some (slot, t) => (s.sw.getTask slot t).any fun x => x.xwait == some cva
    | none => false
  s.ifThen (decide (256 ≤ n) || waits) fun s => s.missEnds n status

/-- What waits at the switch for a translation goes on with it. -/
def State.missServed (s : State) (n ctx seg cva : Nat) (d : Desc) : State :=
  let s := s.hold n { ctx := ctx, seg := seg, desc := d }
  let s := s.retranslate fun x => x.ctx == ctx && x.who == n && d.covers x.cva
  if n < 256 then
    match (s.sw.getEngine n).task with
    | some (slot, t) => if (s.sw.getTask slot t).any fun x => x.xwait == some cva then s.resumeTask slot t else s
    | none => s
  else match s.sw.getGraph (n - 256) with
    | some g => if g.ending && !s.sw.doneUnderWay (n - 256) then (s.writeDone (n - 256) g).escrowSettle else s
    | none => s

/-- Serve one waiter from a context entry (02 R32, R33, R42). An engine of a switch without a live edge port gets SEG_FAULT and nothing is installed
(02 R46). -/
def State.serveWaiter (s : State) (r : TableRead) (data : List Byte) (m : Miss) : State :=
  match m with
  | .endpoint _ f =>
    let cva := f.ext.toNat % 2 ^ 56
    match s.sw.serveMiss s.exposedSize data r.ctx f.partition cva with
    | .ok _ d => s.answerMiss f stOk d.bytes
    | .bad k seg => (s.xlatFault k r.ctx seg f.partition (some r.id)).answerMiss f stSegFault []
  | .engine n partition cva =>
    if s.sw.noEdge then (s.xlatFault fUnreachable r.ctx 0xFF partition (some r.id)).missFailed n cva stSegFault
    else match s.sw.serveMiss s.exposedSize data r.ctx partition cva with
    | .ok seg d => s.missServed n r.ctx seg cva d
    | .bad k seg => (s.xlatFault k r.ctx seg partition (some r.id)).missFailed n cva stSegFault

/-- A host read has ended and its waiters are answered: faults of accesses they held are faults of that read (02 R45). What found the limits of R43
reached tries again. -/
def State.answerRead (s : State) (r : TableRead) (answer : State → Miss → State) : State :=
  let s := s.onXlat fun x => { x with reads := x.reads.filter fun q => q.ctx != r.ctx, serving := some r.id }
  let s := (s.each r.waiters answer).onXlat fun x => { x with serving := none }
  (s.retranslate s.sw.unasked).escrowSettle

/-- A host read fails or is 50 µs late: every waiter's access completes with TIMEOUT (02 R44). -/
def State.tableReadFailed (s : State) (ctx : Nat) : State :=
  match s.sw.xlat.reads.find? fun r => r.ctx == ctx with
  | none => s
  | some r => s.answerRead r fun s m => match m with
    | .endpoint _ f => (s.xlatFault fTableRead ctx 0xFF f.partition (some r.id)).answerMiss f stTimeout []
    | .engine n partition cva => (s.xlatFault fTableRead ctx 0xFF partition (some r.id)).missFailed n cva stTimeout

/-- A host read of a context's entry completes: every waiter is answered, or a stale read is issued again (02 R42, R49). -/
def State.tableRead (s : State) (ctx : Nat) (data : List Byte) : State :=
  match s.sw.xlat.reads.find? fun r => r.ctx == ctx with
  | none => s
  | some r =>
    if r.stale && !s.sw.hostReads then s.tableReadFailed ctx
    else if r.stale then
      match s.sw.tableAddr ctx with
      | some a => (s.onXlat fun x => { x with reads := x.reads.map fun q => if q.ctx == ctx then { q with stale := false, id := x.nextRead } else q
                                              nextRead := x.nextRead + 1 }).emit (.pcieRead a 1024)
      | none => s
    else s.answerRead r fun s m => s.serveWaiter r (padTo 1024 data) m

def execTableReadComplete (ctx : Nat) (data : List Byte) (s : State) : Host.Outcome State Fault Refusal := .next (s.tableRead ctx data)

def execTableReadTimeout (ctx : Nat) (s : State) : Host.Outcome State Fault Refusal := .next (s.tableReadFailed ctx)

/-- SEG_INV at a holder: an end-point (02 R51) or another switch (02 R52). -/
def execSegInv (d : Dev) (port : Nat) (f : Frame) (s : State) : Host.Outcome State Fault Refusal :=
  .next (match d with
    | .sw => s.segInvSwitch port f
    | .ep => s.epIn port f fun s => s.epSegInv port f)

/-- SEG_INV_ACK at the translation switch, or at an end-point that relayed. -/
def execSegInvAck (d : Dev) (port : Nat) (f : Frame) (s : State) : Host.Outcome State Fault Refusal :=
  .next (match d with
    | .sw => s.segInvAckSwitch f
    | .ep => s.epIn port f fun s => s.epSegInvAck port f)

/-- Engines that still drain 500 µs after an invalidation are fenced (02 R49, R52). -/
def execEngineDrainTimeout (number : Nat) (s : State) : Host.Outcome State Fault Refusal := .next (s.drainTimeout number)

/-- Relayed switches that have not acknowledged in 900 µs are silent (02 R51, R53). -/
def execRelayAckTimeout (number : Nat) (s : State) : Host.Outcome State Fault Refusal := .next (s.epEv fun s => s.relayAckTimeout number)

/-- End-points that have not acknowledged 1 ms after SEG_INV are fenced at every switch (02 R54). -/
def State.invalTimeout (s : State) (number : Nat) : State :=
  match s.sw.xlat.inval.find? fun x => x.number == number with
  | none => s
  | some x =>
    let s := s.onInval number fun z => { z with fencedEps := z.fencedEps + x.await.length }
    (s.each x.await fun s h => (s.giveVerdict h vInvalidation).invalGone h).regionGone

def execInvalidationTimeout (number : Nat) (s : State) : Host.Outcome State Fault Refusal := .next (s.invalTimeout number)

/-- A request has had no response when its completion timeout ends (03 R80, R81; 04 R106). -/
def execCompletionTimeout (d : Dev) (port : Nat) (r : Timed) (s : State) : Host.Outcome State Fault Refusal :=
  .next (match d with
    | .sw => s.switchTimeout port r
    | .ep => s.epEv fun s => s.epTimeout port r)

/-- A tag that a TIMEOUT freed may be issued again 16 ms later (03 R81). -/
def execTagQuarantineEnd (d : Dev) (port tag : Nat) (s : State) : Host.Outcome State Fault Refusal :=
  .next (match d with
    | .sw => (s.onEscrow fun e => { e with quarantine := e.quarantine.filter (· != port * 4096 + tag) }).flightsGo
    | .ep => s.epEv fun s => s.onEp fun e => { e with quarantine := e.quarantine.filter (· != port * 4096 + tag) })

end Sys2Proof.Machine
end

