-- ==== Sys2Proof/Machine/LinkLayer.lean ====
section
/-!
DEFINITION. The link layer (15 R381 to R399): flits, acknowledgement and replay, seal groups, control slots, and frames out of their slots.
-/

namespace Sys2Proof.Machine

/-- The state after an outcome. -/
def State.after (s : State) (o : Host.Outcome State Fault Refusal) : State :=
  match o with
  | .next t => t
  | _ => s

/-! ### A frame reassembled at the end-point does what its row does -/

/-- A MGMT frame at the end-point, by its subtype (23 R539). -/
def epMgmtRow (p : Nat) (f : Frame) (s : State) : State :=
  let m := f.msub
  s.after (
    if m = mHeartbeat then execHeartbeat p f s
    else if m = mSuspect then execSuspect .ep p f s
    else if m = mVerdict then execVerdict .ep p f s
    else if m = mFenceNotice then execFenceNotice p f s
    else if m = mAdmit then execAdmitFrame p f s
    else if m = mReadmit then execReadmit .ep p f s
    else if m = mConfig then execConfig p f s
    else if m = mConfirm then execConfirm .ep p f s
    else if m = mBookReport then execBookReport .ep p f s
    else if m = mBookSet then execBookSet .ep p f s
    else if m = mBookAck then execBookAck .ep p f s
    else if m = mPowerReq then execPowerReq .ep p f s
    else if m = mPowerAck then execPowerAck .ep p f s
    else if m = mSlotClose then execSlotClose p f s
    else if m = mSlotOpen then execSlotOpen p f s
    else .next s)

/-- A frame at the end-point, by its type. -/
def epRow (p : Nat) (f : Frame) (s : State) : State :=
  let t := f.typ
  if t = ftMgmt then epMgmtRow p f s
  else s.after (
    if t = ftRead then execRead .ep p f s
    else if t = ftReadVol then execReadVol .ep p f s
    else if t = ftReadShared then execReadShared .ep p f s
    else if t = ftReadOwn then execReadOwn .ep p f s
    else if t = ftClaim then execClaim .ep p f s
    else if t = ftWrite then execWrite .ep p f s
    else if t = ftWriteLog then execWriteLog .ep p f s
    else if t = ftDeposit then execDeposit .ep p f s
    else if t = ftAtomic then execAtomic .ep p f s
    else if t = ftReadRsp then execReadRsp .ep p f s
    else if t = ftWriteRsp then execWriteRsp .ep p f s
    else if t = ftAtomicRsp then execAtomicRsp .ep p f s
    else if t = ftSnoop then execSnoop p f s
    else if t = ftSnoopRsp then execSnoopRsp .ep p f s
    else if t = ftFwdData then execFwdData .ep p f s
    else if t = ftCohAck then execCohAck .ep p f s
    else if t = ftBackInv then execBackInv p f s
    else if t = ftDepositFill then execDepositFill p f s
    else if t = ftTranslateRsp then execTranslateRsp p f s
    else if t = ftSegInv then execSegInv .ep p f s
    else if t = ftSegInvAck then execSegInvAck .ep p f s
    else if t = ftCollResult then execCollResult p f s
    else if t = ftCollConfirm then execCollConfirmSettled .ep p f s
    else if t = ftCollRecall then execCollRecall p f s
    else if t = ftCollAbort then execCollAbort .ep p f s
    else if t = ftLedger then execInputAck p f s
    else .next s)

/-! ### Acknowledgement and replay (15 R389 to R392) -/

/-- a comes before b, mod 4,096. -/
def seqBefore (a b : Nat) : Bool := decide (0 < (b + 4096 - a) % 4096) && decide ((b + 4096 - a) % 4096 ≤ 2048)

/-- The last flit that may be acknowledged (15 R390): what comes before the open group and before the HEAD of the open frame. -/
def Rx.ackSeq (r : Rx) : Nat :=
  let a := match r.group.head? with | some g => g.seq | none => r.expect
  let b := match r.open_ with | some o => if seqBefore (o.1 / 16) a then o.1 / 16 else a | none => a
  (b + 4095) % 4096

/-- ACK covers sequenced flits up to a: a FIN among them ends the initiator's exchange, and the last flit of the old epoch its key (15 R404). -/
def Link.takeAck (l : Link) (a : Nat) : Link :=
  if !(l.tx.replay.any fun x => x.1 == a) then l
  else
    let rest := (l.tx.replay.dropWhile fun x => x.1 != a).drop 1
    let waits (q : Nat) : Bool := rest.any fun x => x.1 == q
    let m := { l with tx := { l.tx with replay := rest, resend := l.tx.resend.filter waits, oldKey := l.tx.oldKey.filter fun k => waits k.2 } }
    if l.tx.fin.any fun f => !waits f then m.finAcked else m

/-- A NAK: every flit from the restart flit on is sent again. -/
def State.replayFrom (s : State) (d : Dev) (p restart : Nat) : State :=
  s.onLink d p fun l => { l with tx := { l.tx with resend := (l.tx.replay.map Prod.fst).dropWhile (· != restart) } }

/-- Count one event of a port. -/
def State.countPort (s : State) (d : Dev) (p i : Nat) : State :=
  match d with
  | .sw => s.count (blkPort p) i
  | .ep => s.onEp fun e => { e with counter := e.counter.upd (p * 64 + i) 0 (· + 1) }

/-- Ask for the restart flit, for the n-th time now: a NAK flit is to be sent. -/
def State.sendNak (s : State) (d : Dev) (p restart n : Nat) : State :=
  (s.onLink d p fun l => { l with rx := { l.rx with nak := some (restart, n), expect := restart }
                                  tx := { l.tx with nak := some restart } }).countPort d p cReplay

/-- A failed flit: the receiver asks for it, once keys are installed (15 R391, R399). -/
def State.flitFailed (s : State) (d : Dev) (p : Nat) : State :=
  let r := (s.getLink d p).rx
  if r.nak.isSome || r.key.isNone then s else s.sendNak d p r.expect 1

/-- A NAK for a restart flit that may have been asked for before: after 16 in a row the port goes down (15 R392). -/
def State.nakRestart (s : State) (d : Dev) (p restart : Nat) : State :=
  match (s.getLink d p).rx.before with
  | some (r, n) => if r ≠ restart then s.sendNak d p restart 1 else if n ≥ 16 then s.portDown d p else s.sendNak d p restart (n + 1)
  | none => s.sendNak d p restart 1

/-- 64 flit times later the NAK is repeated; after 16 the port goes down (15 R392). -/
def State.nakAgain (s : State) (d : Dev) (p : Nat) : State :=
  match (s.getLink d p).rx.nak with
  | none => s
  | some (r, n) => if n ≥ 16 then s.portDown d p else s.sendNak d p r (n + 1)

/-! ### Frames in the switch core (13 R346 to R350) -/

/-- Change the receive side of a link. -/
def State.onRx (s : State) (d : Dev) (p : Nat) (g : Rx → Rx) : State := s.onLink d p fun l => { l with rx := g l.rx }

/-- The header of a frame whose HEAD stood at a mark is complete: the switch core takes it before its seal group has verified (13 R346). -/
def State.enterHeader (s : State) (p mark : Nat) (header : List Byte) : State :=
  if (s.getLink .sw p).state ≠ .active then s
  else
    let f := Frame.ofHeader header
    (s.frameEnters p f false mark).onRx .sw p fun r => { r with entered := r.entered.put mark f.cells, paid := r.paid.del mark }

/-- One slot of a flit whose group has not verified: only headers are taken from it. -/
def State.earlySlot (s : State) (p mark kind : Nat) (b : List Byte) : State :=
  if kind = kHead then s.onRx .sw p fun r => { r with early := some (mark, b) }
  else if kind = kBody then
    match (s.getLink .sw p).rx.early with
    | some (m, h) => (s.onRx .sw p fun r => { r with early := none }).enterHeader p m (h ++ b)
    | none => s
  else s

/-- A replayed flit that had verified: where it holds the HEAD of the open frame, and a failed group took that frame from the core, the frame arrives anew
(13 R350). -/
def State.headAgain (s : State) (p seq : Nat) : State :=
  let r := (s.getLink .sw p).rx
  match r.open_ with
  | some (m, h :: t) =>
    if m / 16 ≠ seq ∨ (r.entered.find m).isSome then s
    else match t with
      | [] => s.onRx .sw p fun r => { r with early := some (m, h) }
      | b :: _ => s.enterHeader p m (h ++ b)
  | _ => s

/-! ### Control slots (15 R384 to R387, R393) -/

/-- A void tail (13 R349, 15 R385): the open frame is discarded, and the cells it held return their credits; where its header has already left on an
output, that output ends it with REASON 3 (15 R386). -/
def State.voided (s : State) (d : Dev) (p : Nat) : State :=
  let r := (s.getLink d p).rx
  let s := match r.open_ with
    | none => s
    | some (m, l) =>
      let s := s.onRx d p fun r => { r with open_ := none, early := none, entered := r.entered.del m, paid := r.paid.del m }
      let f := Frame.ofHeader (padTo 32 l.flatten)
      match d with
      | .sw => if (r.entered.find m).isSome then s.voidFrames p (fun b => b.mark == m) 3 else s.returnCredit p (s.sw.vcIn p f) f.cells
      | .ep => s.emit (.ctrl .ep p (.credit [(f.cls, f.cells)]))
  s.countPort d p cVoidRx

/-- Credits come back: cells by virtual channel (13 R351). -/
def State.creditBack (s : State) (d : Dev) (p : Nat) (entries : List (Nat × Nat)) : State :=
  let give (t : Tab Nat) : Tab Nat := entries.foldl (fun t e => t.put (p * 16 + e.1 % 16) (t.get (p * 16 + e.1 % 16) 0 - e.2)) t
  match d with
  | .sw => s.onCore fun c => { c with spent := give c.spent }
  | .ep => s.onEp fun e => { e with spent := give e.spent }

/-- One CTRL slot of a verified group. again: its flit's SEQ had been received before; at_: when its flit arrived (15 R407). -/
def State.ctrlSlot (s : State) (d : Dev) (p : Nat) (again : Bool) (at_ : Nat) (b : List Byte) : State :=
  let t := field b 0 1
  if t = 1 then s.voided d p
  else if t = 2 then
    s.creditBack d p (((List.range 7).map fun i => field b (2 + 2 * i) 2).filterMap fun e => if e = 0 then none else some (e / 2 ^ 12, e % 2 ^ 12))
  else if t = 3 then (if again then s else s.probeReq d p (field b 1 1) (time64 at_))
  else if t = 4 then (if again then s else s.probeRsp d p (field b 1 1) (field b 2 6) (field b 8 8) (time64 at_))
  else if t = 5 then
    s.probeInfo d p { hops := field b 1 1, book := field b 2 1 % 4, master := bit (field b 3 1) 0, valid := bit (field b 3 1) 1, via := bit (field b 3 1) 2,
                      package := field b 8 8 }
  else s.countPort d p cCtrlReserved

/-! ### Slots and frames (15 R383) -/

/-- A slot of a verified group: its place, SEQ * 16 + slot, its kind and bytes, and of its flit whether the SEQ was received before and when it arrived. -/
structure TakenSlot where
  mark : Nat
  kind : Nat
  data : List Byte
  again : Bool
  at_ : Nat
  deriving DecidableEq, Repr

/-- A frame whose slots are all here. -/
def wholeFrame (l : List (List Byte)) : Option Frame :=
  if l.length < 2 then none
  else
    let f := Frame.ofHeader ((l.take 2).flatten)
    if l.length < 2 + popCount f.sparse then none else some { f with data := expandSlots f.sparse f.length (l.drop 2) }

/-- The slots of the open frame so far. A whole one is in the switch core already, and its tail completes it there (13 R347); at the end-point it acts. -/
def State.frameSlot (s : State) (d : Dev) (p mark : Nat) (l : List (List Byte)) : State :=
  match wholeFrame l with
  | none => s.onRx d p fun r => { r with open_ := some (mark, l) }
  | some f =>
    let known := ((s.getLink d p).rx.entered.find mark).isSome
    let s := s.onRx d p fun r => { r with open_ := none, entered := r.entered.del mark }
    match d with
    | .sw => if known then s.tailArrives p mark f else s.frameArrival p f
    | .ep => epRow p f s

/-- A HEAD begins a frame. One that is open then is lost (DESIGN CHOICE, log 32); the REASON of the void tail that ends it on an output is not stated
(a free value, log 5). -/
def State.headSlot (s : State) (d : Dev) (p mark : Nat) (b : List Byte) : State :=
  let r := (s.getLink d p).rx
  match r.open_ with
  | some (m, _) =>
    if (r.entered.find m).isSome then
      let (n, s) := s.free
      ((s.onRx d p fun r => { r with entered := r.entered.del m }).voidFrames p (fun x => x.mark == m) (n % 4)).frameSlot d p mark [b]
    else s.frameSlot d p mark [b]
  | none => s.frameSlot d p mark [b]

/-- One slot in order. -/
def State.slotTaken (s : State) (d : Dev) (p : Nat) (x : TakenSlot) : State :=
  if x.kind = kHead then s.headSlot d p x.mark x.data
  else if x.kind = kBody then
    match (s.getLink d p).rx.open_ with
    | none => s.countPort d p cBodyOrphan
    | some (m, l) => s.frameSlot d p m (l ++ [x.data])
  else if x.kind = kCtrl then s.ctrlSlot d p x.again x.at_ x.data
  else s

/-! ### Seal groups (15 R395 to R397) -/

/-- Kinds of a flit's slots. -/
def kindsOf (head : List Byte) : List Nat := (List.range 15).map fun i => bits (leVal head) (30 + 2 * i) 2

/-- AES-256-GCM under a direction's key: the IV of the group whose first flit has this counter, and the bytes from offset off in it, encrypted or decrypted. -/
def LinkKey.iv (k : LinkKey) (counter : Nat) : BitVec 96 := BitVec.ofNat 96 (k.salt.toNat * 2 ^ 64 + counter)
def LinkKey.crypt (k : LinkKey) (counter off : Nat) (l : List Byte) : List Byte :=
  l.zipIdx.map fun x => x.1 ^^^ Config.gcmStream k.key (k.iv counter) (off + x.2)

/-- The slots of a group, but for that of the tag, which is the last. -/
def groupSlots (g : List GroupFlit) (plain : List Byte) : List TakenSlot :=
  let all := g.flatMap fun x => (kindsOf x.head).zipIdx.map fun k => (x, k)
  ((all.take (15 * g.length - 1)).zipIdx).map fun e =>
    { mark := e.1.1.seq * 16 + e.1.2.2, kind := e.1.2.1, data := slice plain (16 * e.2) 16, again := e.1.1.again, at_ := e.1.1.at_ }

/-- The open frame has a slot in the group. -/
def Rx.openHit (r : Rx) : Bool := r.open_.isSome && ((r.group.flatMap fun x => kindsOf x.head).find? fun k => k == kHead || k == kBody) == some kBody

/-- The flit from which a failed group is replayed: the HEAD of the earliest frame with a slot in it, or its first flit. -/
def Rx.restart (r : Rx) : Nat :=
  let first := (r.group.head?.map (·.seq)).getD r.expect
  match r.open_ with
  | some o => if r.openHit then o.1 / 16 else first
  | none => first

/-- Frames with a slot in the group that the switch core has taken. -/
def Rx.hit (r : Rx) : Tab Nat := r.entered.filter fun e => (r.group.any fun g => g.seq == e.1 / 16) || (r.openHit && r.open_.any fun o => o.1 == e.1)

/-- A group fails: its frames are lost from the switch core, and it is asked for again (13 R348, R350; 15 R391, R397). -/
def State.groupFailed (s : State) (d : Dev) (p : Nat) : State :=
  let r := (s.getLink d p).rx
  let hit := r.hit
  let paid := hit.foldl (fun t e => Tab.put t e.1 (e.2 - s.sw.owesAt p e.1)) r.paid
  let s := (s.countPort d p cSealFail).onRx d p fun r =>
    { r with group := [], early := none, entered := r.entered.filter fun e => !hit.contains e, paid := paid }
  let s := match d with
    | .sw => s.takeBack p (hit.map Prod.fst)
    | .ep => s
  s.nakRestart d p r.restart

/-- A group is complete: it verifies and its slots are taken, or it is asked for again. -/
def State.groupDone (s : State) (d : Dev) (p : Nat) (k : LinkKey) : State :=
  let r := (s.getLink d p).rx
  let body := r.group.flatMap (·.slots)
  let n := body.length - 16
  if (Config.gcmTag k.key (k.iv r.counter) (r.group.flatMap (·.head)) (body.take n)).toNat ≠ leVal (body.drop n) then s.groupFailed d p
  else
    let acks := r.group.map fun x => bits (leVal x.head) 12 12
    let slots := groupSlots r.group (k.crypt r.counter 0 (body.take n))
    let s := s.setLink d p fun l =>
      acks.foldl Link.takeAck { l with rx := { l.rx with group := [], before := none, counter := l.rx.counter + r.group.length, verified := l.rx.expect
                                                         got := l.rx.got.filter fun q => !seqBefore q l.rx.expect } }
    s.each slots fun s x => if (s.getLink d p).rx.key = some k then s.slotTaken d p x else s

/-! ### A flit arrives -/

/-- The receiver's key for a DATA flit: the first of a new epoch changes it (15 R404). -/
def Rx.epochOf (r : Rx) (epoch : Bool) : Rx :=
  if r.newKey.any (fun k => k.epoch == epoch) && r.key.all (fun k => k.epoch != epoch) then
    { r with key := r.newKey, newKey := none, counter := 0, group := [] }
  else r

/-- A DATA flit in order joins the open group; a switch takes the headers that it brings. What was verified before is not taken again (13 R350). -/
def State.dataFlit (s : State) (d : Dev) (p seq : Nat) (again : Bool) (b : List Byte) : State :=
  let h := field b 0 8
  let l := s.getLink d p
  let r := { l.rx with expect := (seq + 1) % 4096 }
  if seqBefore seq l.rx.verified then
    let s := s.onRx d p fun _ => r
    match d with
    | .sw => s.headAgain p seq
    | .ep => s
  else
    let r := r.epochOf (bit h 28)
    match r.key with
    | none => s
    | some k =>
      let i := r.group.length
      let r := { r with group := r.group ++ [{ seq := seq, head := slice b 0 8, slots := slice b 8 240, again := again, at_ := s.now d }] }
      let s := s.onRx d p fun _ => r
      let plain := k.crypt r.counter (240 * i) (slice b 8 240)
      let s := match d with
        | .sw => s.each (kindsOf (slice b 0 8)).zipIdx fun s e => s.earlySlot p (seq * 16 + e.2) e.1 (slice plain (16 * e.2) 16)
        | .ep => s
      if bit h 29 || decide (k.g ≤ i + 1) then s.groupDone d p k else s

/-- A key exchange message of its bytes (15 R401). -/
def keyMsgOf (b : List Byte) : KeyMsg :=
  { g := field b 8 1, nonce := BitVec.ofNat 256 (field b 9 32), kem := slice b 41 1568, cert := slice b 1609 3176, sig := slice b 4785 1280 }

/-- A whole key exchange message does what its row does; another number is ignored (log 32). -/
def State.keyMsgArrives (s : State) (d : Dev) (p : Nat) (b : List Byte) : State :=
  let num := field b 0 1
  if num = 0 then (if s.initiates d p then s.startRekey d p else s)
  else if num = 1 then s.initArrives d p (keyMsgOf b)
  else if num = 2 then s.respArrives d p (keyMsgOf b)
  else if num = 3 then s.finArrives d p { sig := slice b 8 sigLength }
  else s

/-- A KEYX flit in order: its ACK acts, and its slots join the message that is arriving (15 R382, R390, R401). One whose length no message has is dropped
(log 32). -/
def State.keyxFlit (s : State) (d : Dev) (p seq ack : Nat) (b : List Byte) : State :=
  let s := s.setLink d p fun l => ({ l with rx := { l.rx with expect := (seq + 1) % 4096
                                                              verified := if l.rx.group.isEmpty then (seq + 1) % 4096 else l.rx.verified
                                                              got := if l.rx.group.isEmpty then l.rx.got.filter (fun q => !seqBefore q ((seq + 1) % 4096)) else l.rx.got
                                                              keyx := l.rx.keyx ++ slice b 8 240 } } : Link).takeAck ack
  let m := (s.getLink d p).rx.keyx
  let n := field m 4 4
  if n < 8 ∨ 6065 < n then s.onRx d p fun r => { r with keyx := [] }
  else if m.length < n then s
  else (s.onRx d p fun r => { r with keyx := [] }).keyMsgArrives d p (m.take n)

/-- The direction's key for an EPOCH bit: the waiting one's where only it has that epoch (15 R404). -/
def Rx.keyFor (r : Rx) (epoch : Bool) : Option LinkKey :=
  if r.newKey.any (fun k => k.epoch == epoch) && r.key.all (fun k => k.epoch != epoch) then r.newKey else r.key

/-- The GMAC of a NULL or NAK flit over its header and slot 0 (15 R398). -/
def LinkKey.controlTag (k : LinkKey) (count : Nat) (aad : List Byte) : BitVec 128 := Config.gcmTag k.key (k.iv (count % 2 ^ 63 + 2 ^ 63)) aad []

/-- A NULL or NAK flit carries a tag once keys are installed, and a rising count (15 R398). -/
def Rx.controlOk (r : Rx) (b : List Byte) : Bool :=
  match r.keyFor (bit (field b 0 8) 28) with
  | none => true
  | some k => decide (r.ctrlCount < field b 8 8) && (k.controlTag (field b 8 8) (slice b 0 24)).toNat == field b (8 + 16 * 14) 16

/-- A sequenced flit: taken in order; after a NAK only the restart flit; a gap is a failed flit (15 R389, R391). Its SEQ counts as received whatever
becomes of it (15 R393). -/
def State.sequenced (s : State) (d : Dev) (p seq : Nat) (g : State → Bool → State) : State :=
  let r := (s.getLink d p).rx
  let again := r.got.contains seq
  let s := if again then s else s.onRx d p fun r => { r with got := r.got ++ [seq] }
  if seq = r.expect then g (s.onRx d p fun r => { r with nak := none, before := r.nak.or r.before }) again
  else if r.nak.isSome || seqBefore seq r.expect then s
  else s.flitFailed d p

/-- The data lane that carries byte k of a flit (14 R359). width as in Link: 0 full, 1 half on lane group 0, 2 half on lane group 1. -/
def laneOf (width k : Nat) : Nat := if width = 0 then k / 2 % 8 else 4 * (width - 1) + k / 2 % 4

/-- A corrected FEC symbol, bytes 2j and 2j + 1, counts for its lane (14 R359, 15 R388). -/
def Link.countSymbol (l : Link) (j : Nat) : Link := { l with corrected := l.corrected.upd (laneOf l.width (2 * j)) 0 (· + 1) }

/-- A flit is a codeword: its parity is that of its bytes 0 to 251 (15 R388). -/
def isCodeword (b : List Byte) : Bool := (Config.fecParity (b.take 252)).toNat == field b 252 4

/-- Forward error correction (15 R388): the bytes, or the codeword that differs from them in one symbol, and that symbol. -/
def fecCorrect (b : List Byte) : List Byte × Option Nat :=
  if isCodeword b then (b, none)
  else
    let near := (List.range 128).flatMap fun j => (List.range 65536).map fun x => (j, withSymbol b j x)
    match near.find? fun c => isCodeword c.2 with
    | some c => (c.2, some c.1)
    | none => (b, none)

/-- A flit: corrected, checked, and taken by its type (15 R382, R388). -/
def State.flitReceive (s : State) (d : Dev) (p : Nat) (bytes : List Byte) : State :=
  if !([PortState.secure, .time, .active].contains (s.getLink d p).state) then s
  else
    let (b, fixed) := fecCorrect bytes
    let s := match fixed with
      | none => s
      | some j => (s.countPort d p cCorrected).onLink d p fun l => l.countSymbol j
    let h := field b 0 8
    let ty := bits h 24 4
    if (crc32c (slice b 0 248)).toNat ≠ field b 248 4 ∨ ty = 0 ∨ 4 < ty then s.flitFailed d p
    else if ty = 1 then s.sequenced d p (bits h 0 12) fun s again => s.dataFlit d p (bits h 0 12) again b
    else if ty = 2 then s.sequenced d p (bits h 0 12) fun s _ => s.keyxFlit d p (bits h 0 12) (bits h 12 12) b
    else if !(s.getLink d p).rx.controlOk b then s
    else
      let keyed := (s.getLink d p).rx.key.isSome
      let s := s.setLink d p fun l => ({ l with rx := { l.rx with ctrlCount := if keyed then field b 8 8 else l.rx.ctrlCount } } : Link).takeAck (bits h 12 12)
      if ty = 4 then s.replayFrom d p (bits h 0 12) else s

/-! ### The rows -/

/-- FLIT_RECEIVE (15 R381 to R399). -/
def execFlitReceive (d : Dev) (port : Nat) (bytes : List Byte) (s : State) : Host.Outcome State Fault Refusal :=
  .next (s.linkEv d fun s => s.flitReceive d port bytes)

/-- NAK: the transmitter sends again from the restart flit (15 R391). -/
def execNak (d : Dev) (port restart : Nat) (s : State) : Host.Outcome State Fault Refusal := .next (s.linkEv d fun s => s.replayFrom d port restart)

/-- NAK_REPEAT: 64 flit times without the restart flit (15 R392). -/
def execNakRepeat (d : Dev) (port : Nat) (s : State) : Host.Outcome State Fault Refusal := .next (s.linkEv d fun s => s.nakAgain d port)

/-- VOID: a void tail (13 R349, 15 R385, R386). -/
def execVoid (d : Dev) (port _reason : Nat) (s : State) : Host.Outcome State Fault Refusal := .next (s.linkEv d fun s => s.voided d port)

/-- CREDIT (15 R387). -/
def execCredit (d : Dev) (port : Nat) (entries : List (Nat × Nat)) (s : State) : Host.Outcome State Fault Refusal :=
  .next (s.linkEv d fun s => s.creditBack d port entries)

end Sys2Proof.Machine
end

