-- ==== Sys2Proof/Machine/Maintenance.lean ====
section
/-!
DEFINITION. The meanings of the rows of scrub, pool cache, rewrap, retirement and SRAM errors (06 R148, R154 to R160; 10 R281; 21 R509,
R510; 23 R553), and of the Teller's and the rack manager's own rows (16 R412, R428, R429; 23 R554).
-/

namespace Sys2Proof.Machine

/-! ### Scrub (06 R156 to R159) -/

/-- Bytes of a channel. -/
def channelBytes : Nat := 0x3C00000000 / 4

/-- The scrubber reads a line. A line that it corrects is written back, and one read counts one error at most: the one that the stored line holds, or
the one that the row reports. The last line of a channel ends a scrub period. -/
def State.scrub (s : State) (l faulty : Nat) : State :=
  let c := channelOf (l * 128)
  if !inPool (l * 128) 128 || (s.sw.chan c).fenced || (s.sw.chan c).resetting then s
  else
    let m := s.sw.mem.home.lines.get l {}
    let s := match faulty with
      | 0 => s.lineRead l
      | 1 => if m.bad || m.check.isSome then s.lineRead l else s.eccCorrected l
      | 2 => (s.onLine l fun m => { m with bad := true }).eccSeen l
      | _ => s.fenceChannel c
    if deviceOf (l * 128) + 128 = channelBytes then
      (s.count (blkChan c) 4).onMem fun m => { m with chan := m.chan.upd c {} fun x => { x with pageErrors := [] } }
    else s

/-! ### NEAR_STORE_SET's drain (06 R150, R154) -/

/-- Steps of a mask. -/
def maskSteps (m : Nat) : List Nat := (List.range 4).filter (bit m)

/-- No line remains: the new numbering takes effect, a step that changes is empty or zero, and the command completes. -/
def State.drained (s : State) : State :=
  match s.sw.mem.drainMask with
  | none => s
  | some (e, m) =>
    let old := s.sw.mem.mask.get e 0
    let s := s.onMem fun x => { x.flushCache (fun _ => true) with mask := x.mask.put e m, drainOld := none, drainMask := none }
    let s := s.each ((List.range 4).filter fun i => bit old i != bit m i) fun s i => s.onHome fun h => h.zeroStep (4 * e + i)
    s.each s.sw.teller.active fun s a => if a.work = .drain then s.finishWork a.fn a.mb mbOk [] else s

/-! ### Rewrap (10 R281) -/

/-- A rewrap converts its next line, those of a LOST region too, whose contents stand; past the end the command completes. A Busy line waits. -/
def State.rewrapStep (s : State) (n : Nat) : State :=
  match s.sw.mem.rewrap.find n with
  | none => s
  | some r =>
    let l := r.cursor / 128
    if r.done || (s.sw.busy l).isSome then s
    else
      let key := (s.sw.getSlot r.toSlot).key
      let (bad, s) :=
        if (s.sw.mem.home.lines.get l {}).lost || (s.sw.chan (channelOf (l * 128))).fenced then (false, s)
        else match s.fetchLine l r.fromSlot with
          | (some d, s) => (false, s.writeLine l r.toSlot d)
          | (none, s) => (true, (s.eccSeen l).onMem fun m => let m := m.drop l; { m with home := m.home.dramWrite l key (Memory.readN m.home.mem (l * 128) 128) true })
      let cur := r.cursor + 128
      let fin := decide (r.start + r.length ≤ cur)
      let r := { r with cursor := cur, uncorrected := r.uncorrected + b2n bad, done := fin }
      let s := s.onMem fun m => { m with rewrap := m.rewrap.put n r }
      let s := (s.mirrorLines [l]).2
      if !fin then s
      else s.each s.sw.teller.active fun s a =>
        if a.work = .rewrap n then s.finishWork a.fn a.mb mbOk (leBytes 1 n ++ leBytes 3 0 ++ leBytes 4 r.uncorrected) else s

/-! ### SRAM errors (06 R148, 23 R553, 13 R357) -/

/-- A fault of a domain. -/
def State.sramFault (s : State) (domain index : Nat) : State := s.record { kind := fSram, domain := domain, index := index }

/-- A cell of the frame that output p sends from queue q, or of the frame at the head of that queue: the frame is lost, and the cell retired. One that was
leaving ends in a void tail. -/
def State.cellLost (s : State) (p q : Nat) : State :=
  let s := s.sramFault 1 p
  let retire (t : Nat) (s : State) : State := s.onSw fun w => { w with core := { w.core with retiredCells := w.core.retiredCells.upd t 0 (· + 1) } }
  match (s.sw.core.lock.find p).filter fun x => x.queue == q with
  | some x =>
    let s := retire x.tile (s.voidOut p 2)
    if p < 64 then s
    else match (s.sw.core.inbox.get p []).getLast? with
      | some b => (s.onSw fun w => { w with core := { w.core with inbox := w.core.inbox.put p (w.core.inbox.get p []).dropLast } }).freeCells b
      | none => s
  | none =>
    match s.sw.core.queue.get (qKey p q) [] with
    | [] => s
    | b :: rest => retire b.tile ((s.onSw fun w => { w with core := { w.core with queue := w.core.queue.put (qKey p q) rest } }).freeCells b)

/-- A directory entry: its line is LOST. -/
def State.entryLost (s : State) (u l : Nat) : State :=
  let s := s.sramFault 8 0
  if unitOfLine l ≠ u ∨ (s.sw.entry l).isNone then s
  else match s.sw.busy l with
    | none => s.loseLine l
    | some b =>
      let s := (s.endBusy l).loseLine l
      match b.stage with
      | .again | .grant _ => s.homeRespond b.f stFenced [] 0
      | .fill _ => s.homeRespond b.f stOk [] 0
      | _ => s.uncount b.f

/-- A trunk virtual channel goes out of service: its frames are discarded and counted, and one that the port sends from it ends in a void tail. -/
def State.vcFenced (s : State) (p vc : Nat) : State :=
  if s.sw.core.vcOut.contains (p * 16 + vc) then s
  else
    let s := (s.onSw fun w => { w with core := { w.core with vcOut := (p * 16 + vc) :: w.core.vcOut } }).recordPort fVcFenced p
    let s := if (s.sw.core.lock.find p).any fun x => x.queue == vc then s.voidFree p else s
    let r := s.cutQueued (qKey p vc) fun _ => true
    r.2.each r.1 fun s b => (s.noteDiscard p).discardIn b (s.sw.discardStatus p b.f)

/-- The smallest domain that holds the item is fenced. -/
def State.sramError (s : State) : SramItem → State
  | .cell p q => s.cellLost p q
  | .directory u l => (s.entryLost u l).regionCheck
  | .portTable p => ((s.sramFault 1 p).fencePort p 2).regionGone.invalPoll
  | .poolCache l =>
    let s := s.sramFault 4 (channelOf (l * 128))
    s.onMem fun m =>
      let m : Mem := { m with cache := m.cache.map fun (c : CacheLine) => if c.line = l then { c with bad := true, dirty := true } else c }
      m.drop l
  | .scratch off => (s.sramFault 2 (scratchStep off / 4)).onHome fun h => { h with badWords := off / 8 :: h.badWords.filter (· != off / 8) }
  | .trunkVc p vc => s.vcFenced p vc
  | .engineTile e => (s.sramFault 2 e).fenceEngine e
  | .teller => (s.sramFault 8 0).tellerRestart

/-! ### The rows -/

/-- SCRUB (06 R156). -/
def execScrub (line faulty : Nat) (s : State) : Host.Outcome State Fault Refusal := .next (s.scrub line faulty)

/-- POOL_CACHE_DRAIN_DONE (06 R154). -/
def execPoolCacheDrainDone (s : State) : Host.Outcome State Fault Refusal := .next s.drained

/-- REWRAP_STEP (10 R281). -/
def execRewrapStep (record : Nat) (s : State) : Host.Outcome State Fault Refusal := .next (s.rewrapStep record)

/-- RETIREMENT_COUNT_ZERO (21 R509). -/
def execRetirementCountZero (slot : Nat) (s : State) : Host.Outcome State Fault Refusal := .next (s.retireDone slot)

/-- RETIREMENT_TIMEOUT (21 R509, R510). -/
def execRetirementTimeout (slot : Nat) (s : State) : Host.Outcome State Fault Refusal := .next (s.retireTimeout slot)

/-- SRAM_UNCORRECTED (23 R553). -/
def execSramUncorrected (item : SramItem) (s : State) : Host.Outcome State Fault Refusal := .next (s.sramError item)

/-- The Teller's lockstep pair disagrees, or its watchdog expires: recorded, and a Teller-only restart (16 R412). -/
def State.tellerFault (s : State) (kind : Nat) : State := if s.sw.teller.state = 0 then (s.record { kind := kind, domain := 8 }).tellerRestart else s

/-- TELLER_LOCKSTEP (16 R412). -/
def execTellerLockstep (s : State) : Host.Outcome State Fault Refusal := .next (s.tellerFault fTellerLockstep)

/-- TELLER_WATCHDOG (16 R412). -/
def execTellerWatchdog (s : State) : Host.Outcome State Fault Refusal := .next (s.tellerFault fTellerWatchdog)

/-- TELLER_RESTART_END (16 R428). -/
def execTellerRestartEnd (s : State) : Host.Outcome State Fault Refusal := .next s.tellerBack

/-- TELLER_RESTART_TIMEOUT (16 R428, R429). -/
def execTellerRestartTimeout (s : State) : Host.Outcome State Fault Refusal := .next s.tellerFails

/-- A message from the rack manager: it is back, which is recorded as a note (23 R554). -/
def State.managerBack (s : State) : State :=
  if s.sw.sys.managerLost then
    (s.onSw fun w => { w with sys := { w.sys with managerLost := false } }).record { kind := fManagerLost, domain := 8, severity := some 0 }
  else s

/-- MANAGER_MESSAGE (23 R554). -/
def execManagerMessage (s : State) : Host.Outcome State Fault Refusal := .next s.managerBack

/-- MANAGER_LOST: 5 s without a message (23 R554). -/
def State.managerGone (s : State) : State :=
  if s.sw.sys.managerLost then s
  else (s.onSw fun w => { w with sys := { w.sys with managerLost := true } }).record { kind := fManagerLost, domain := 8 }

def execManagerLost (s : State) : Host.Outcome State Fault Refusal := .next s.managerGone

end Sys2Proof.Machine
end

