-- ==== Sys2Proof/Machine/Transmit.lean ====
section
/-!
DEFINITION. The transmitter of a port (15 R381 to R399): the flits that it makes of waiting slots, control slots, key exchange messages and requests for
replay, one in each of its flit times; and the row that lets a flit time pass.
-/

namespace Sys2Proof.Machine

/-- A flit of its header and slots: the check field over both, and the parity over all of it (15 R381, R388). -/
def flitOf (head slots : List Byte) : List Byte :=
  let b := head ++ slots
  let c := b ++ leBytes 4 (crc32c b).toNat
  c ++ leBytes 4 (Config.fecParity c).toNat

/-- A flit header (15 R381). -/
def flitHead (seq ack ftype : Nat) (epoch tag : Bool) (kinds : Nat) : List Byte :=
  leBytes 8 (seq + ack * 2 ^ 12 + ftype * 2 ^ 24 + b2n epoch * 2 ^ 28 + b2n tag * 2 ^ 29 + kinds * 2 ^ 30)

/-- KINDS of slots in order (15 R381). -/
def kindsWord (kinds : List Nat) : Nat := kinds.foldr (fun k n => k % 4 + 4 * n) 0

/-- EPOCH that the flits of a transmitter carry. -/
def Tx.epoch (t : Tx) : Bool := t.key.any (·.epoch)

/-- A flit leaves. -/
def State.sendBytes (s : State) (d : Dev) (p : Nat) (b : List Byte) (g : Tx → Tx) : State :=
  (s.onLink d p fun l => { l with tx := g l.tx }).emit (.flit d p b)

/-- A sequenced flit leaves and stays in the replay buffer (15 R389). -/
def State.sendSequenced (s : State) (d : Dev) (p : Nat) (b : List Byte) (g : Tx → Tx) : State :=
  s.sendBytes d p b fun t => { g t with seq := (t.seq + 1) % 4096, replay := t.replay ++ [(t.seq, b)] }

/-- A NULL or NAK flit: with keys, a control count and its tag (15 R398). -/
def State.sendControl (s : State) (d : Dev) (p seq ftype : Nat) (g : Tx → Tx) : State :=
  let l := s.getLink d p
  let head := flitHead seq l.rx.ackSeq ftype l.tx.epoch false 0
  match l.tx.key with
  | none => s.sendBytes d p (flitOf head (List.replicate 240 0)) g
  | some k =>
    let n := l.tx.ctrlCount + 1
    let slot := leBytes 8 n ++ List.replicate 8 0
    s.sendBytes d p (flitOf head (slot ++ List.replicate 208 0 ++ leBytes 16 (k.controlTag n (head ++ slot)).toNat)) fun t => { g t with ctrlCount := n }

def State.sendNull (s : State) (d : Dev) (p : Nat) : State := s.sendControl d p 0 3 id

/-- A KEYX flit: every slot is BODY, in clear (15 R382, R383). The last of a FIN is remembered (15 R404). -/
def State.sendKeyx (s : State) (d : Dev) (p : Nat) (slots : List Byte) (fin : Bool) : State :=
  let l := s.getLink d p
  s.sendSequenced d p (flitOf (flitHead l.tx.seq l.rx.ackSeq 2 l.tx.epoch false (kindsWord (List.replicate 15 2))) (padTo 240 slots)) fun t =>
    { t with keyx := t.keyx.drop 1, fin := if fin then some t.seq else t.fin }

/-- A new epoch begins at a group boundary once no FIN waits to be sent or acknowledged (15 R404). -/
def Tx.turnEpoch (t : Tx) : Tx :=
  if t.heads.isEmpty ∧ t.newKey.isSome ∧ t.fin = none ∧ t.keyx.all (fun x => !x.2) then
    { t with key := t.newKey, newKey := none, counter := 0, oldKey := t.key.map fun k => (k, (t.seq + 4095) % 4096) }
  else t

/-- The control slots that fit a flit: a PROBE_INFO stays with the probe before it (15 R407). -/
def takeCtrls (room : Nat) (l : List Ctrl) : List Ctrl :=
  let t := l.take room
  match t.getLast? with
  | some (.probeReq _) | some (.probeRsp ..) => if room < l.length then t.dropLast else t
  | _ => t

/-- The time stamps of a probe are those of the flit that it leaves in: t1 of a request, and D of a response (15 R407). -/
def stampProbe (now : Nat) : Ctrl → Ctrl
  | .probeRsp id _ t2 => .probeRsp id ((now + 2 ^ 64 - t2 % 2 ^ 64) % 2 ^ 48) t2
  | c => c

/-- A request for a probe leaves: its t1. -/
def State.noteProbe (s : State) (d : Dev) (p : Nat) (c : Ctrl) : State :=
  match c with
  | .probeReq id => s.onClock d fun k => { k with probes := k.probes.put p (id, time64 k.now) }
  | _ => s

/-- A DATA flit: control slots first, then the slots of frames in order, then idle slots; the last flit of a group ends with its tag (15 R383, R389, R395,
R396). -/
def State.sendData (s : State) (d : Dev) (p : Nat) (k : LinkKey) : State :=
  let l := s.getLink d p
  let i := l.tx.heads.length
  let last := decide (k.g ≤ i + 1)
  let room := if last then 14 else 15
  let cs := takeCtrls room l.tx.ctrls
  let fs := l.tx.slots.take (room - cs.length)
  let slots := cs.map (fun c => (kCtrl, ctrlBytes (stampProbe (time64 (s.now d)) c))) ++ fs
  let plain := padTo (16 * room) (slots.flatMap fun x => padTo 16 x.2)
  let counter := l.tx.counter - i
  let head := flitHead l.tx.seq l.rx.ackSeq 1 k.epoch last (kindsWord (slots.map Prod.fst))
  let ct := k.crypt counter (240 * i) plain
  let tag := if last then leBytes 16 (Config.gcmTag k.key (k.iv counter) (l.tx.heads.flatten ++ head) (l.tx.sealed ++ ct)).toNat else []
  (s.each cs fun s c => s.noteProbe d p c).sendSequenced d p (flitOf head (ct ++ tag)) fun t =>
    { t with ctrls := t.ctrls.drop cs.length, slots := t.slots.drop fs.length, counter := t.counter + 1
             heads := if last then [] else t.heads ++ [head], sealed := if last then [] else t.sealed ++ ct }

/-- The port's power domain stands in STILL: it sends NULL flits while it has nothing else to send (20 R486). -/
def State.still (s : State) (d : Dev) (p : Nat) : Bool :=
  match d with
  | .sw => (s.sw.domain 0 p).state == pwStill
  | .ep => (s.ep.getLink p).power == pwStill

/-- The transmitter has nothing to send and no group open. -/
def Tx.idle (t : Tx) : Bool := t.slots.isEmpty && t.ctrls.isEmpty && t.heads.isEmpty

/-- A port sends one flit: a NAK that is due; what is to be replayed; and with the window open a key exchange message, or a DATA flit once it has keys;
otherwise a NULL flit. During a lane change it sends none (14 R375). -/
def State.transmit (s : State) (d : Dev) (p : Nat) : State :=
  let l := s.getLink d p
  if !([PortState.secure, .time, .active].contains l.state) || l.changing.isSome then s
  else match l.tx.nak, l.tx.resend with
    | some q, _ => s.sendControl d p q 4 fun t => { t with nak := none }
    | none, q :: rest => s.sendBytes d p (((l.tx.replay.find? fun x => x.1 == q).map Prod.snd).getD []) fun t => { t with resend := rest }
    | none, [] =>
      if 512 ≤ l.tx.replay.length then s.sendNull d p
      else match l.tx.keyx with
        | (b, fin) :: _ => s.sendKeyx d p b fin
        | [] =>
          let t := l.tx.turnEpoch
          match t.key with
          | none => s.sendNull d p
          | some k =>
            if (s.still d p && t.idle) || decide (2 ^ 40 ≤ t.counter) then s.sendNull d p
            else (s.onLink d p fun l => { l with tx := t }).sendData d p k

/-- Flit times of a port at S3 and full width that one of its own takes (14 table Speed ladder, R375). -/
def Link.flitTimes (l : Link) : Nat := 2 ^ (3 - l.step) * if l.out.width = 0 then 1 else 2

/-- What has left the ports becomes slots, and each port whose flit time it is sends a flit. -/
def State.flitsGo (s : State) : State :=
  let s := s.loadSlots
  let go (s : State) (d : Dev) (p : Nat) : State := if flitCount (s.now .sw) % (s.getLink d p).flitTimes = 0 then s.transmit d p else s
  let s := s.each (List.range 64) fun s p => go s .sw p
  if s.ep.off then s else s.each (List.range 8) fun s p => go s .ep p

/-- MATCHER_ROUND: one flit time of the matcher (13 R341), and of the ports. -/
def execMatcherRound (s : State) : Host.Outcome State Fault Refusal := .next s.matcherRound.flitsGo

end Sys2Proof.Machine
end

