-- ==== Sys2Proof/Machine/Dispatch.lean ====
section
/-!
DEFINITION. The meaning of every command: one arm per constructor of Instr.
-/

namespace Sys2Proof.Machine

/-- A command's effect on everything but the queue. -/
def exec (i : Instr) (s : State) : Host.Outcome State Fault Refusal :=
  match i with
  | .devInfo fn mb => Sys2Proof.Machine.execDevInfo fn mb s
  | .devReset fn mb => Sys2Proof.Machine.execDevReset fn mb s
  | .cfgModeSet fn mb => Sys2Proof.Machine.execCfgModeSet fn mb s
  | .cfgBookCommit fn mb => Sys2Proof.Machine.execCfgBookCommit fn mb s
  | .cfgTimers fn mb => Sys2Proof.Machine.execCfgTimers fn mb s
  | .cfgCoherence fn mb => Sys2Proof.Machine.execCfgCoherence fn mb s
  | .partAdmit fn mb => Sys2Proof.Machine.execPartAdmit fn mb s
  | .partRemove fn mb => Sys2Proof.Machine.execPartRemove fn mb s
  | .partEnginesSet fn mb => Sys2Proof.Machine.execPartEnginesSet fn mb s
  | .partPoolSet fn mb => Sys2Proof.Machine.execPartPoolSet fn mb s
  | .segTableSet fn mb => Sys2Proof.Machine.execSegTableSet fn mb s
  | .segInvalidate fn mb => Sys2Proof.Machine.execSegInvalidate fn mb s
  | .portSpeedSet fn mb => Sys2Proof.Machine.execPortSpeedSet fn mb s
  | .portEqSet fn mb => Sys2Proof.Machine.execPortEqSet fn mb s
  | .calEqStore fn mb => Sys2Proof.Machine.execCalEqStore fn mb s
  | .portLaneTest fn mb => Sys2Proof.Machine.execPortLaneTest fn mb s
  | .portTestPolicySet fn mb => Sys2Proof.Machine.execPortTestPolicySet fn mb s
  | .portNarrow fn mb => Sys2Proof.Machine.execPortNarrow fn mb s
  | .linkSealSet fn mb => Sys2Proof.Machine.execLinkSealSet fn mb s
  | .linkRekey fn mb => Sys2Proof.Machine.execLinkRekey fn mb s
  | .timeMasterSet fn mb => Sys2Proof.Machine.execTimeMasterSet fn mb s
  | .timeSet fn mb => Sys2Proof.Machine.execTimeSet fn mb s
  | .schedStage fn mb => Sys2Proof.Machine.execSchedStage fn mb s
  | .schedArm fn mb => Sys2Proof.Machine.execSchedArm fn mb s
  | .schedDisarm fn mb => Sys2Proof.Machine.execSchedDisarm fn mb s
  | .bookPolicySet fn mb => Sys2Proof.Machine.execBookPolicySet fn mb s
  | .shaperSet fn mb => Sys2Proof.Machine.execShaperSet fn mb s
  | .policerSet fn mb => Sys2Proof.Machine.execPolicerSet fn mb s
  | .shaperRead fn mb => Sys2Proof.Machine.execShaperRead fn mb s
  | .regionSet fn mb => Sys2Proof.Machine.execRegionSet fn mb s
  | .regionHandover fn mb => Sys2Proof.Machine.execRegionHandover fn mb s
  | .regionRead fn mb => Sys2Proof.Machine.execRegionRead fn mb s
  | .regionLostClear fn mb => Sys2Proof.Machine.execRegionLostClear fn mb s
  | .nearStoreSet fn mb => Sys2Proof.Machine.execNearStoreSet fn mb s
  | .scrubSet fn mb => Sys2Proof.Machine.execScrubSet fn mb s
  | .retireLimitSet fn mb => Sys2Proof.Machine.execRetireLimitSet fn mb s
  | .partnerSet fn mb => Sys2Proof.Machine.execPartnerSet fn mb s
  | .partnerPromote fn mb => Sys2Proof.Machine.execPartnerPromote fn mb s
  | .partnerBreak fn mb => Sys2Proof.Machine.execPartnerBreak fn mb s
  | .syndCreate fn mb => Sys2Proof.Machine.execSyndCreate fn mb s
  | .syndDestroy fn mb => Sys2Proof.Machine.execSyndDestroy fn mb s
  | .syndMemberSet fn mb => Sys2Proof.Machine.execSyndMemberSet fn mb s
  | .syndQuotaSet fn mb => Sys2Proof.Machine.execSyndQuotaSet fn mb s
  | .escrowMailboxSet fn mb => Sys2Proof.Machine.execEscrowMailboxSet fn mb s
  | .escrowQuotaSet fn mb => Sys2Proof.Machine.execEscrowQuotaSet fn mb s
  | .escrowCancel fn mb => Sys2Proof.Machine.execEscrowCancel fn mb s
  | .vaultKemRead fn mb => Sys2Proof.Machine.execVaultKemRead fn mb s
  | .keyLoad fn mb => Sys2Proof.Machine.execKeyLoad fn mb s
  | .keyRetire fn mb => Sys2Proof.Machine.execKeyRetire fn mb s
  | .signerEnrol fn mb => Sys2Proof.Machine.execSignerEnrol fn mb s
  | .strongroomSet fn mb => Sys2Proof.Machine.execStrongroomSet fn mb s
  | .assayRequest fn mb => Sys2Proof.Machine.execAssayRequest fn mb s
  | .keyRewrap fn mb => Sys2Proof.Machine.execKeyRewrap fn mb s
  | .keyRewrapRelease fn mb => Sys2Proof.Machine.execKeyRewrapRelease fn mb s
  | .ledgerRegionSet fn mb => Sys2Proof.Machine.execLedgerRegionSet fn mb s
  | .ledgerRead fn mb => Sys2Proof.Machine.execLedgerRead fn mb s
  | .ledgerSealNow fn mb => Sys2Proof.Machine.execLedgerSealNow fn mb s
  | .ckptSave fn mb => Sys2Proof.Machine.execCkptSave fn mb s
  | .ckptRestore fn mb => Sys2Proof.Machine.execCkptRestore fn mb s
  | .powerVote fn mb => Sys2Proof.Machine.execPowerVote fn mb s
  | .paceSet fn mb => Sys2Proof.Machine.execPaceSet fn mb s
  | .brakeSet fn mb => Sys2Proof.Machine.execBrakeSet fn mb s
  | .powerRead fn mb => Sys2Proof.Machine.execPowerRead fn mb s
  | .tallyRead fn mb => Sys2Proof.Machine.execTallyRead fn mb s
  | .faultLogRead fn mb => Sys2Proof.Machine.execFaultLogRead fn mb s
  | .tallyQueueRead fn mb => Sys2Proof.Machine.execTallyQueueRead fn mb s
  | .fenceSet fn mb => Sys2Proof.Machine.execFenceSet fn mb s
  | .fenceClear fn mb => Sys2Proof.Machine.execFenceClear fn mb s
  | .fdSet fn mb => Sys2Proof.Machine.execFdSet fn mb s
  | .epReadmit fn mb => Sys2Proof.Machine.execEpReadmit fn mb s
  | .fwStage fn mb => Sys2Proof.Machine.execFwStage fn mb s
  | .fwActivate fn mb => Sys2Proof.Machine.execFwActivate fn mb s
  | .commandCompletion fn mb host => Sys2Proof.Machine.execCommandCompletion fn mb host s
  | .registerWrite dev fn off size val => Sys2Proof.Machine.execRegisterWrite dev fn off size val s
  | .swEventClear val => Sys2Proof.Machine.execSwEventClear val s
  | .epEventClear val => Sys2Proof.Machine.execEpEventClear val s
  | .epAgentBindWrite agent val => Sys2Proof.Machine.execEpAgentBindWrite agent val s
  | .hostWindowRead fn ctag addr len => Sys2Proof.Machine.execHostWindowRead fn ctag addr len s
  | .hostWindowWrite fn addr data => Sys2Proof.Machine.execHostWindowWrite fn addr data s
  | .mirrorLine rid r => Sys2Proof.Machine.execMirrorLine rid r s
  | .mirrorAck rid r => Sys2Proof.Machine.execMirrorAck rid r s
  | .functionLevelReset fn => Sys2Proof.Machine.execFunctionLevelReset fn s
  | .perstNAssert => Sys2Proof.Machine.execPerstNAssert s
  | .perstNRelease => Sys2Proof.Machine.execPerstNRelease s
  | .pldmRequest item => Sys2Proof.Machine.execPldmRequest item s
  | .frameArrival port f => Sys2Proof.Machine.execFrameArrival port f s
  | .matcherRound => Sys2Proof.Machine.execMatcherRound s
  | .queueSample => Sys2Proof.Machine.execQueueSample s
  | .bucketRefill => Sys2Proof.Machine.execBucketRefill s
  | .gateEntryEnd dev port => Sys2Proof.Machine.execGateEntryEnd dev port s
  | .cycleBoundary dev cycle => Sys2Proof.Machine.execCycleBoundary dev cycle s
  | .lineOperation unit => Sys2Proof.Machine.execLineOperation unit s
  | .homeBusyTimeout unit idx => Sys2Proof.Machine.execHomeBusyTimeout unit idx s
  | .read dev pos f => Sys2Proof.Machine.execRead dev pos f s
  | .readVol dev pos f => Sys2Proof.Machine.execReadVol dev pos f s
  | .readShared dev pos f => Sys2Proof.Machine.execReadShared dev pos f s
  | .readOwn dev pos f => Sys2Proof.Machine.execReadOwn dev pos f s
  | .claim dev pos f => Sys2Proof.Machine.execClaim dev pos f s
  | .write dev pos f => Sys2Proof.Machine.execWrite dev pos f s
  | .writeLog dev pos f => Sys2Proof.Machine.execWriteLog dev pos f s
  | .deposit dev pos f => Sys2Proof.Machine.execDeposit dev pos f s
  | .atomic dev pos f => Sys2Proof.Machine.execAtomic dev pos f s
  | .fabricMailboxWrite pos f => Sys2Proof.Machine.execFabricMailboxWrite pos f s
  | .fabricMailboxRead pos f => Sys2Proof.Machine.execFabricMailboxRead pos f s
  | .readRsp dev port f => Sys2Proof.Machine.execReadRsp dev port f s
  | .writeRsp dev port f => Sys2Proof.Machine.execWriteRsp dev port f s
  | .atomicRsp dev port f => Sys2Proof.Machine.execAtomicRsp dev port f s
  | .snoop port f => Sys2Proof.Machine.execSnoop port f s
  | .snoopRsp dev port f => Sys2Proof.Machine.execSnoopRsp dev port f s
  | .fwdData dev port f => Sys2Proof.Machine.execFwdData dev port f s
  | .writeback port f => Sys2Proof.Machine.execWriteback port f s
  | .cohAck dev port f => Sys2Proof.Machine.execCohAck dev port f s
  | .backInv port f => Sys2Proof.Machine.execBackInv port f s
  | .depositFill port f => Sys2Proof.Machine.execDepositFill port f s
  | .translateReq port f => Sys2Proof.Machine.execTranslateReq port f s
  | .translateRsp port f => Sys2Proof.Machine.execTranslateRsp port f s
  | .tableReadComplete ctx data => Sys2Proof.Machine.execTableReadComplete ctx data s
  | .tableReadTimeout ctx => Sys2Proof.Machine.execTableReadTimeout ctx s
  | .segInv dev port f => Sys2Proof.Machine.execSegInv dev port f s
  | .segInvAck dev port f => Sys2Proof.Machine.execSegInvAck dev port f s
  | .engineDrainTimeout number => Sys2Proof.Machine.execEngineDrainTimeout number s
  | .relayAckTimeout number => Sys2Proof.Machine.execRelayAckTimeout number s
  | .invalidationTimeout number => Sys2Proof.Machine.execInvalidationTimeout number s
  | .completionTimeout dev port tag => Sys2Proof.Machine.execCompletionTimeout dev port tag s
  | .tagQuarantineEnd dev port tag => Sys2Proof.Machine.execTagQuarantineEnd dev port tag s
  | .holdEnd fga => Sys2Proof.Machine.execHoldEnd fga s
  | .coherenceAnswerTimeout dev line endpoint => Sys2Proof.Machine.execCoherenceAnswerTimeout dev line endpoint s
  | .handoverTimeout dev region => Sys2Proof.Machine.execHandoverTimeout dev region s
  | .collData port f => Sys2Proof.Machine.execCollData port f s
  | .collResult port f => Sys2Proof.Machine.execCollResult port f s
  | .collConfirm port f => Sys2Proof.Machine.execCollConfirm port f s
  | .collConfirmSettled dev port f => Sys2Proof.Machine.execCollConfirmSettled dev port f s
  | .collRecall port f => Sys2Proof.Machine.execCollRecall port f s
  | .collRecallSwitch port f => Sys2Proof.Machine.execCollRecallSwitch port f s
  | .collAbort dev port f => Sys2Proof.Machine.execCollAbort dev port f s
  | .settlementLimit synd epoch chunk => Sys2Proof.Machine.execSettlementLimit synd epoch chunk s
  | .req r => Sys2Proof.Machine.execReq r s
  | .fence agent utag kind scope => Sys2Proof.Machine.execFence agent utag kind scope s
  | .call agent utag c => Sys2Proof.Machine.execCall agent utag c s
  | .memCpl utag data => Sys2Proof.Machine.execMemCpl utag data s
  | .ucieModuleFail module => Sys2Proof.Machine.execUcieModuleFail module s
  | .taskComplete slot task => Sys2Proof.Machine.execTaskComplete slot task s
  | .retryWaitEnd slot task => Sys2Proof.Machine.execRetryWaitEnd slot task s
  | .deadline slot => Sys2Proof.Machine.execDeadline slot s
  | .waitTimeReached slot task => Sys2Proof.Machine.execWaitTimeReached slot task s
  | .admissionWaitExpiry mailbox => Sys2Proof.Machine.execAdmissionWaitExpiry mailbox s
  | .heartbeat port f => Sys2Proof.Machine.execHeartbeat port f s
  | .heartbeatAck port f => Sys2Proof.Machine.execHeartbeatAck port f s
  | .heartbeatInstant => Sys2Proof.Machine.execHeartbeatInstant s
  | .suspect dev port f => Sys2Proof.Machine.execSuspect dev port f s
  | .suspectExpiry endpoint sender => Sys2Proof.Machine.execSuspectExpiry endpoint sender s
  | .verdict dev port f => Sys2Proof.Machine.execVerdict dev port f s
  | .fenceNotice port f => Sys2Proof.Machine.execFenceNotice port f s
  | .admitFrame port f => Sys2Proof.Machine.execAdmitFrame port f s
  | .readmit dev port f => Sys2Proof.Machine.execReadmit dev port f s
  | .config port f => Sys2Proof.Machine.execConfig port f s
  | .confirm dev port f => Sys2Proof.Machine.execConfirm dev port f s
  | .resendTimer id => Sys2Proof.Machine.execResendTimer id s
  | .bookReport dev port f => Sys2Proof.Machine.execBookReport dev port f s
  | .bookSet dev port f => Sys2Proof.Machine.execBookSet dev port f s
  | .bookAck dev port f => Sys2Proof.Machine.execBookAck dev port f s
  | .bookSetResend dev port => Sys2Proof.Machine.execBookSetResend dev port s
  | .returnHoldEnd => Sys2Proof.Machine.execReturnHoldEnd s
  | .slowSet => Sys2Proof.Machine.execSlowSet s
  | .slowClear => Sys2Proof.Machine.execSlowClear s
  | .powerReq dev port f => Sys2Proof.Machine.execPowerReq dev port f s
  | .powerAck dev port f => Sys2Proof.Machine.execPowerAck dev port f s
  | .slotClose port f => Sys2Proof.Machine.execSlotClose port f s
  | .slotOpen port f => Sys2Proof.Machine.execSlotOpen port f s
  | .inputCopy port f => Sys2Proof.Machine.execInputCopy port f s
  | .inputAck port f => Sys2Proof.Machine.execInputAck port f s
  | .inputAckTimeout port tag => Sys2Proof.Machine.execInputAckTimeout port tag s
  | .inputCopyWaitEnd src tag => Sys2Proof.Machine.execInputCopyWaitEnd src tag s
  | .stagingRoom partition bytes => Sys2Proof.Machine.execStagingRoom partition bytes s
  | .ledgerSealTimer partition => Sys2Proof.Machine.execLedgerSealTimer partition s
  | .flitReceive dev port bytes => Sys2Proof.Machine.execFlitReceive dev port bytes s
  | .nak dev port restart => Sys2Proof.Machine.execNak dev port restart s
  | .nakRepeat dev port => Sys2Proof.Machine.execNakRepeat dev port s
  | .void dev port reason => Sys2Proof.Machine.execVoid dev port reason s
  | .credit dev port entries => Sys2Proof.Machine.execCredit dev port entries s
  | .probeReq dev port id at_ => Sys2Proof.Machine.execProbeReq dev port id at_ s
  | .probeRsp dev port id d t2 t4 => Sys2Proof.Machine.execProbeRsp dev port id d t2 t4 s
  | .probeInfo dev port hops book master valid viaStandby change packageId => Sys2Proof.Machine.execProbeInfo dev port hops book master valid viaStandby change packageId s
  | .probeTimer dev port => Sys2Proof.Machine.execProbeTimer dev port s
  | .init dev port m => Sys2Proof.Machine.execInit dev port m s
  | .resp dev port m => Sys2Proof.Machine.execResp dev port m s
  | .fin dev port m => Sys2Proof.Machine.execFin dev port m s
  | .rekeyReq dev port => Sys2Proof.Machine.execRekeyReq dev port s
  | .keyExchangeTimeout dev port => Sys2Proof.Machine.execKeyExchangeTimeout dev port s
  | .rekeyCount dev port => Sys2Proof.Machine.execRekeyCount dev port s
  | .keyCounterExhausted dev port => Sys2Proof.Machine.execKeyCounterExhausted dev port s
  | .rekeyRetry dev port => Sys2Proof.Machine.execRekeyRetry dev port s
  | .partnerClockLock dev port => Sys2Proof.Machine.execPartnerClockLock dev port s
  | .identityRecord dev port copies => Sys2Proof.Machine.execIdentityRecord dev port copies s
  | .equaliseDone dev port r => Sys2Proof.Machine.execEqualiseDone dev port r s
  | .laneMapDone dev port figures => Sys2Proof.Machine.execLaneMapDone dev port figures s
  | .trainingTimeout dev port => Sys2Proof.Machine.execTrainingTimeout dev port s
  | .laneFailed dev port lane cause => Sys2Proof.Machine.execLaneFailed dev port lane cause s
  | .laneChangeDone dev port => Sys2Proof.Machine.execLaneChangeDone dev port s
  | .periodicTestDue port => Sys2Proof.Machine.execPeriodicTestDue port s
  | .laneTestEnd port lane errors => Sys2Proof.Machine.execLaneTestEnd port lane errors s
  | .chime dev port => Sys2Proof.Machine.execChime dev port s
  | .linkLoss port => Sys2Proof.Machine.execLinkLoss port s
  | .endpointLinkLoss port => Sys2Proof.Machine.execEndpointLinkLoss port s
  | .endpointPortRedetect port => Sys2Proof.Machine.execEndpointPortRedetect port s
  | .cablePresenceChange port present => Sys2Proof.Machine.execCablePresenceChange port present s
  | .cableOvercurrent port => Sys2Proof.Machine.execCableOvercurrent port s
  | .frequencySourceFail dev => Sys2Proof.Machine.execFrequencySourceFail dev s
  | .timeMasterLost => Sys2Proof.Machine.execTimeMasterLost s
  | .ppsIn => Sys2Proof.Machine.execPpsIn s
  | .wholeSecond => Sys2Proof.Machine.execWholeSecond s
  | .scrub line faulty => Sys2Proof.Machine.execScrub line faulty s
  | .poolCacheDrainDone => Sys2Proof.Machine.execPoolCacheDrainDone s
  | .resilverCopy region => Sys2Proof.Machine.execResilverCopy region s
  | .mirrorAckTimeout region seq => Sys2Proof.Machine.execMirrorAckTimeout region seq s
  | .rewrapStep record => Sys2Proof.Machine.execRewrapStep record s
  | .retirementCountZero slot => Sys2Proof.Machine.execRetirementCountZero slot s
  | .retirementTimeout slot => Sys2Proof.Machine.execRetirementTimeout slot s
  | .sramUncorrected item => Sys2Proof.Machine.execSramUncorrected item s
  | .idleHoldEnd kind index => Sys2Proof.Machine.execIdleHoldEnd kind index s
  | .powerEntryDone kind index => Sys2Proof.Machine.execPowerEntryDone kind index s
  | .wakeStageReady kind index => Sys2Proof.Machine.execWakeStageReady kind index s
  | .wakeStageTimeout kind index => Sys2Proof.Machine.execWakeStageTimeout kind index s
  | .wakeN => Sys2Proof.Machine.execWakeN s
  | .balanceSample dev readings => Sys2Proof.Machine.execBalanceSample dev readings s
  | .regulatorTick dev watts => Sys2Proof.Machine.execRegulatorTick dev watts s
  | .pwrbrkNAssert => Sys2Proof.Machine.execPwrbrkNAssert s
  | .pwrbrkNDeassert => Sys2Proof.Machine.execPwrbrkNDeassert s
  | .throttle degrees => Sys2Proof.Machine.execThrottle degrees s
  | .throttleEnd => Sys2Proof.Machine.execThrottleEnd s
  | .thermalTrip => Sys2Proof.Machine.execThermalTrip s
  | .tripHoldEnd => Sys2Proof.Machine.execTripHoldEnd s
  | .inputLow => Sys2Proof.Machine.execInputLow s
  | .inputOvervoltage => Sys2Proof.Machine.execInputOvervoltage s
  | .endpointThermal degrees => Sys2Proof.Machine.execEndpointThermal degrees s
  | .powerUp => Sys2Proof.Machine.execPowerUp s
  | .rstNFall warmSel => Sys2Proof.Machine.execRstNFall warmSel s
  | .rstNRise => Sys2Proof.Machine.execRstNRise s
  | .startStepReady failed unrepaired => Sys2Proof.Machine.execStartStepReady failed unrepaired s
  | .epRstN warm => Sys2Proof.Machine.execEpRstN warm s
  | .tellerLockstep => Sys2Proof.Machine.execTellerLockstep s
  | .tellerWatchdog => Sys2Proof.Machine.execTellerWatchdog s
  | .tellerRestartEnd => Sys2Proof.Machine.execTellerRestartEnd s
  | .tellerRestartTimeout => Sys2Proof.Machine.execTellerRestartTimeout s
  | .managerMessage => Sys2Proof.Machine.execManagerMessage s
  | .managerLost => Sys2Proof.Machine.execManagerLost s
  | .trainingRetry dev port => Sys2Proof.Machine.execTrainingRetry dev port s
  | .lockLossBeforeActive dev port => Sys2Proof.Machine.execLockLossBeforeActive dev port s
  | .preStartWorkDone => Sys2Proof.Machine.execPreStartWorkDone s
  | .unlistedOpcode fn mb => Sys2Proof.Machine.execUnlistedOpcode fn mb s
  | .commandTimeout fn mb => Sys2Proof.Machine.execCommandTimeout fn mb s

end Sys2Proof.Machine
end

