-- ==== Sys2Proof/Safety.lean ====
section
/-!
DEFINITION. What counts as a safe run of the block, in the terms that claims use: runs over steps, the invariant of its plain data, what a command
that is taken leaves, and what reporting and sending leave unchanged.
-/

namespace Sys2Proof.Machine

/-- s leads to t by some number of steps, each of which answers next. -/
inductive Reaches : State → State → Prop where
  | refl (s : State) : Reaches s s
  | step {s t u : State} (h : Machine.step s = .next t) (r : Reaches t u) : Reaches s u

/-- A command that the block completes: exec answers a next state. -/
def Completes (i : Instr) (s : State) : Prop := ∃ t, exec i s = .next t

/-- exec answers a next state of which P holds. -/
def After (i : Instr) (s : State) (P : State → Prop) : Prop := ∃ t, exec i s = .next t ∧ P t

/-- The memories of both homes are in canonical form. -/
def MemoryOk (s : State) : Prop := Memory.wf s.sw.mem.home.mem = true ∧ Memory.wf s.ep.home.mem = true

/-- Every byte of both homes reads in t as it reads in s. -/
def SameMemory (s t : State) : Prop :=
  ∀ a, Memory.read t.sw.mem.home.mem a = Memory.read s.sw.mem.home.mem a ∧ Memory.read t.ep.home.mem a = Memory.read s.ep.home.mem a

/-! ### Frames: t is s except in the parts named, and what s has sent stays sent -/

/-- Reporting: the Tally's records, events and their vectors, ALERT_N, the Ledger and what is sent to the outside. -/
def ReportFrame (s t : State) : Prop :=
  t = { s with
    sw := { s.sw with
      tally := { s.sw.tally with faults := t.sw.tally.faults, nextSeq := t.sw.tally.nextSeq }
      host := { s.sw.host with swEvent := t.sw.host.swEvent, msixPending := t.sw.host.msixPending, lastVec4 := t.sw.host.lastVec4 }
      sys := { s.sw.sys with alertRec := t.sw.sys.alertRec, alert := t.sw.sys.alert }
      ledger := t.sw.ledger
      ledgerQueue := t.sw.ledgerQueue }
    out := t.out } ∧ s.out <+: t.out

/-- Taking and answering a command: reporting, the mailboxes, the order of their CONTROL writes and the list of active commands. -/
def AnswerFrame (s t : State) : Prop :=
  t = { s with
    sw := { s.sw with
      teller := { s.sw.teller with order := t.sw.teller.order, mbox := t.sw.teller.mbox, active := t.sw.teller.active }
      tally := { s.sw.tally with faults := t.sw.tally.faults, nextSeq := t.sw.tally.nextSeq }
      host := { s.sw.host with swEvent := t.sw.host.swEvent, msixPending := t.sw.host.msixPending, lastVec4 := t.sw.host.lastVec4 }
      sys := { s.sw.sys with alertRec := t.sw.sys.alertRec, alert := t.sw.sys.alert }
      ledger := t.sw.ledger
      ledgerQueue := t.sw.ledgerQueue }
    out := t.out } ∧ s.out <+: t.out

/-- Taking and answering a command, and sending frames: the queues that frames join, relays under the resend rule, the wake of power domains,
counters. -/
def ToldFrame (s t : State) : Prop :=
  t = { s with
    sw := { s.sw with
      teller := { s.sw.teller with order := t.sw.teller.order, mbox := t.sw.teller.mbox, active := t.sw.teller.active }
      tally := { t.sw.tally with queue := s.sw.tally.queue }
      host := { s.sw.host with swEvent := t.sw.host.swEvent, msixPending := t.sw.host.msixPending, lastVec4 := t.sw.host.lastVec4 }
      sys := { s.sw.sys with alertRec := t.sw.sys.alertRec, alert := t.sw.sys.alert }
      ledger := t.sw.ledger
      ledgerQueue := t.sw.ledgerQueue
      core := { s.sw.core with queue := t.sw.core.queue, used := t.sw.core.used, waiting := t.sw.core.waiting }
      power := { s.sw.power with dom := t.sw.power.dom }
      mgmt := { s.sw.mgmt with relay := t.sw.mgmt.relay, nextRelay := t.sw.mgmt.nextRelay } }
    out := t.out } ∧ s.out <+: t.out

/-- Taking, freeing and queueing frames at the switch: its core, the wake of power domains, counters, and what is sent to the outside. -/
def SentFrame (s t : State) : Prop :=
  t = { s with
    sw := { s.sw with
      core := t.sw.core
      power := { s.sw.power with dom := t.sw.power.dom }
      tally := t.sw.tally }
    out := t.out } ∧ s.out <+: t.out

/-! ### Requests at a Clearing unit (04 R108, 05 R124) -/

/-- The request has woken its memory and left the inbox of its Clearing unit. -/
def State.atUnit (s : State) (pos : Nat) (f : Frame) : State :=
  (((s.workMemory f.offset).noteArrival f).noteStep pos f true).takeInbox (64 + unitOf f.offset) f

/-- The home neither refuses the request nor holds it: no region change, no Busy line, no earlier request to its lines. -/
abbrev Open (f : Frame) (s : State) : Prop :=
  (s.workMemory f.offset).sw.regionHeld f.offset = false ∧ (s.workMemory f.offset).sw.refusal f = none
    ∧ (s.workMemory f.offset).sw.mustWait f = false ∧ (s.workMemory f.offset).sw.waitsBehind f = false

/-! ### Frames that reach the AKG-8 (03 R58, 13 R351) -/

/-- The AKG-8 takes a frame on this port: the port is ACTIVE, the device is on, and the frame's INCARNATION is the one it holds. -/
abbrev EpTakes (p : Nat) (f : Frame) (s : State) : Prop := s.ep.portLive p = true ∧ s.ep.off = false ∧ s.ep.accepts f = true

/-- The credits of a frame that the AKG-8 has taken are on their way back. -/
def State.credited (s : State) (p : Nat) (f : Frame) : State := s.emit (.ctrl .ep p (.credit [(f.cls, f.cells)]))

/-- A frame for the switch itself has left the inbox of its internal output. -/
def State.taken (s : State) (f : Frame) : State := s.takeInbox (internalOut f) f

/-- What a row of the links leaves at a device, where u is its own effect: an AKG-8 that is off takes part in nothing, and one that is on then sends
what can leave. -/
def State.ranAt (s : State) (d : Dev) (u : State) : State :=
  match d with
  | .sw => u
  | .ep => if s.ep.off then s else u.pump

/-! ### Mailbox commands (16 R413 to R424) -/

/-- The rows of the command catalogue (17): the form of each, and its command from function fn's mailbox mb. -/
def mailboxRows : List (Form × (Nat → Nat → Instr)) :=
  [(devInfoForm, .devInfo), (devResetForm, .devReset), (cfgModeSetForm, .cfgModeSet), (cfgBookCommitForm, .cfgBookCommit),
   (cfgTimersForm, .cfgTimers), (cfgCoherenceForm, .cfgCoherence), (partAdmitForm, .partAdmit), (partRemoveForm, .partRemove),
   (partEnginesSetForm, .partEnginesSet), (partPoolSetForm, .partPoolSet), (segTableSetForm, .segTableSet), (segInvalidateForm, .segInvalidate)] ++
  [(portSpeedSetForm, .portSpeedSet), (portEqSetForm, .portEqSet), (calEqStoreForm, .calEqStore), (portLaneTestForm, .portLaneTest),
   (portTestPolicySetForm, .portTestPolicySet), (portNarrowForm, .portNarrow), (linkSealSetForm, .linkSealSet), (linkRekeyForm, .linkRekey),
   (timeMasterSetForm, .timeMasterSet), (timeSetForm, .timeSet), (schedStageForm, .schedStage), (schedArmForm, .schedArm)] ++
  [(schedDisarmForm, .schedDisarm), (bookPolicySetForm, .bookPolicySet), (shaperSetForm, .shaperSet), (policerSetForm, .policerSet),
   (shaperReadForm, .shaperRead), (regionSetForm, .regionSet), (regionHandoverForm, .regionHandover), (regionReadForm, .regionRead),
   (regionLostClearForm, .regionLostClear), (nearStoreSetForm, .nearStoreSet), (scrubSetForm, .scrubSet), (retireLimitSetForm, .retireLimitSet)] ++
  [(partnerSetForm, .partnerSet), (partnerPromoteForm, .partnerPromote), (partnerBreakForm, .partnerBreak), (syndCreateForm, .syndCreate),
   (syndDestroyForm, .syndDestroy), (syndMemberSetForm, .syndMemberSet), (syndQuotaSetForm, .syndQuotaSet),
   (escrowMailboxSetForm, .escrowMailboxSet), (escrowQuotaSetForm, .escrowQuotaSet), (escrowCancelForm, .escrowCancel),
   (vaultKemReadForm, .vaultKemRead), (keyLoadForm, .keyLoad)] ++
  [(keyRetireForm, .keyRetire), (signerEnrolForm, .signerEnrol), (strongroomSetForm, .strongroomSet), (assayRequestForm, .assayRequest),
   (keyRewrapForm, .keyRewrap), (keyRewrapReleaseForm, .keyRewrapRelease), (ledgerRegionSetForm, .ledgerRegionSet),
   (ledgerReadForm, .ledgerRead), (ledgerSealNowForm, .ledgerSealNow), (ckptSaveForm, .ckptSave), (ckptRestoreForm, .ckptRestore),
   (powerVoteForm, .powerVote)] ++
  [(paceSetForm, .paceSet), (brakeSetForm, .brakeSet), (powerReadForm, .powerRead), (tallyReadForm, .tallyRead),
   (faultLogReadForm, .faultLogRead), (tallyQueueReadForm, .tallyQueueRead), (fenceSetForm, .fenceSet), (fenceClearForm, .fenceClear),
   (fdSetForm, .fdSet), (epReadmitForm, .epReadmit), (fwStageForm, .fwStage), (fwActivateForm, .fwActivate)]

/-- The Teller has taken the CONTROL write of this mailbox from the order of those that wait. -/
def State.dequeued (s : State) (fn mb : Nat) : State := s.onTeller fun t => { t with order := t.order.erase (fn, mb) }

/-- A command of form k stands in a mailbox, the Teller takes it now, its SEQ is new, VERIFY is clear, its Ledger has room for its entry, and none of
the checks of R420 refuses it. -/
abbrev Accepted (k : Form) (fn mb : Nat) (s : State) : Prop :=
  s.sw.takes fn mb = true ∧ bits (s.sw.mailbox fn mb).header.toNat 0 16 = k.opcode ∧ (s.sw.mailbox fn mb).seq ≠ (s.sw.mailbox fn mb).lastSeq
    ∧ (s.sw.mailbox fn mb).header.getLsbD 16 = false ∧ s.sw.entryFull fn = false
    ∧ k.refusal (s.sw.cmdOf fn mb k.len) (s.dequeued fn mb) (s.sw.mailbox fn mb).header.toNat = none

/-- The response of a command with this status, DETAIL and payload stands in its mailbox in t, OWN is clear, and every other mailbox is as it was in
s. -/
def Answered (fn mb status detail : Nat) (rsp : List Byte) (s t : State) : Prop :=
  t.sw.mailbox fn mb = { s.sw.mailbox fn mb with
      own := false
      rspHeader := BitVec.ofNat 64 (status + (s.sw.mailbox fn mb).seq % 2 ^ 16 * 2 ^ 16 + rsp.length * 2 ^ 32 + detail * 2 ^ 48)
      ledgerSeq := (t.sw.mailbox fn mb).ledgerSeq
      rsp := rsp
      lastSeq := (s.sw.mailbox fn mb).seq }
    ∧ (∀ f m, mbKey f m ≠ mbKey fn mb → t.sw.mailbox f m = s.sw.mailbox f m)
    ∧ t.sw.teller.order = s.sw.teller.order.erase (fn, mb)

/-- A command has passed its commit point and works on: its mailbox still has OWN, and it stands last in the list of active commands with this work, the
objects it holds and this data. -/
def Working (fn mb : Nat) (work : Work) (holds : List Obj) (data : List Nat) (s t : State) : Prop :=
  (∀ f m, t.sw.mailbox f m = s.sw.mailbox f m)
    ∧ t.sw.teller.order = s.sw.teller.order.erase (fn, mb)
    ∧ ∃ a : Active, t.sw.teller.active = s.sw.teller.active ++ [a] ∧ a.fn = fn ∧ a.mb = mb ∧ a.box = mb ∧ a.seq = (s.sw.mailbox fn mb).seq ∧ a.work = work
        ∧ a.holds = holds ∧ a.data = data ∧ a.result = none

/-- A command i that first reads len bytes at addr of the host, holding these objects: it asks for them in requests of PF0's largest read and works on,
changing nothing else; where the host cannot be read and the mailbox has no other command active, it ends with TIMEOUT at once (18 R452, R454). -/
def HostAsked (fn mb : Nat) (i : Instr) (holds : List Obj) (addr len : Nat) (s : State) : Prop :=
  (s.sw.hostReads = true → After i s fun t => Working fn mb (.hostRead 0) holds [] s t ∧ AnswerFrame s t
    ∧ ∀ k < ceilDiv len s.sw.host.pf.maxRead,
        Out.pcieRead (addr + s.sw.host.pf.maxRead * k) (min s.sw.host.pf.maxRead (len - s.sw.host.pf.maxRead * k)) ∈ t.out)
  ∧ (s.sw.hostReads = false → s.sw.activeOf fn mb = none → After i s fun t => Answered fn mb mbTimeout 0 [] s t ∧ t.sw.mem = s.sw.mem ∧ t.ep = s.ep)

/-- A command with this work and these objects stands in the list of active commands. -/
def Listed (fn mb : Nat) (work : Work) (holds : List Obj) (t : State) : Prop :=
  ∃ a ∈ t.sw.teller.active, a.fn = fn ∧ a.mb = mb ∧ a.work = work ∧ a.holds = holds

end Sys2Proof.Machine
end

