-- ==== Sys2Proof/Certificates/Slice0/Obligations.lean ====
section
/-!
DEFINITION. The statements for the provers. Each is a proposition about exec, step or a shared operation of the model; OBLIGATIONS.json names for each
the rules of spec/ that it rests on.
-/

open Sys2Proof Sys2Proof.Machine

/-- For every command c, every rest of the queue and every state s, a step of s with c in front of the rest is exec of c at s with that rest. -/
def Obligations.StepRunsFront : Prop :=
  ∀ (c : Instr) (rest : List Instr) (s : State), step { s with pending := c :: rest } = exec c { s with pending := rest }

/-- The model's choice of log 2: a step on an empty queue answers the state in which both devices' fabric times are one S3 flit time later, and nothing
else differs. -/
def Obligations.EmptyQueueTick : Prop :=
  ∀ s : State, s.pending = [] →
    step s = .next { s with
      sw := { s.sw with clock := { s.sw.clock with now := s.sw.clock.now + 1024 } }
      ep := { s.ep with clock := { s.ep.clock with now := s.ep.clock.now + 1024 } } }

/-- An accepted DEV_INFO answers its 32-byte record and changes nothing else; CFG_MODE_SET and CFG_BOOK_COMMIT begin the write of the next book and work
on; CFG_TIMERS sets each named timer (0 keeps it) and CFG_COHERENCE the hold time, which the plane-0 switch relays to each edge port that carries frames. -/
def Obligations.DeviceCommandsComplete : Prop :=
  ∀ (fn mb : Nat) (s : State),
    (Accepted devInfoForm fn mb s →
      After (.devInfo fn mb) s fun t => AnswerFrame s t ∧ Answered fn mb mbOk 0
        (leBytes 8 s.sw.sys.serial ++ leBytes 2 0x6424 ++ leBytes 1 0xB0 ++ leBytes 1 2 ++ leBytes 2 s.sw.sys.homeId ++ leBytes 1 s.sw.sys.mode
          ++ leBytes 1 s.sw.sys.racks ++ leBytes 1 (b2n s.sw.sys.strongroom + 2 * b2n s.sw.sys.fused + 4 * s.sw.sys.runSlot)
          ++ leBytes 1 s.sw.sys.fuseSteps ++ leBytes 2 0 ++ leBytes 4 ((s.sw.sys.flash.slotA.map (·.version)).getD 0)
          ++ leBytes 4 ((s.sw.sys.flash.slotB.map (·.version)).getD 0)) s t)
    ∧ (Accepted cfgModeSetForm fn mb s → ∀ target n, s.sw.sys.flash.nextBook = some (target, n) →
      let c := s.sw.cmdOf fn mb 8
      let set := fun v : Persist => { v with mode := c.num 0x80 1, racks := c.num 0x81 1, rack := c.num 0x82 1, plane := c.num 0x83 1 }
      After (.cfgModeSet fn mb) s fun t => Working fn mb .flash [.flash] [] s t
        ∧ AnswerFrame (s.onSys fun y => { y with cfg := set y.cfg, flash := y.flash.begin_ (.book target { seq := n, vals := set y.persist }) }) t)
    ∧ (Accepted cfgBookCommitForm fn mb s → ∀ target n, s.sw.sys.flash.nextBook = some (target, n) →
      After (.cfgBookCommit fn mb) s fun t => Working fn mb .flash [.flash] [] s t
        ∧ AnswerFrame (s.onSys fun y => { y with flash := y.flash.begin_ (.book target { seq := n, vals := y.persist }) }) t)
    ∧ (Accepted cfgTimersForm fn mb s →
      let c := s.sw.cmdOf fn mb 16
      let keep := fun o old : Nat => if c.num o 4 = 0 then old else c.num o 4
      After (.cfgTimers fn mb) s fun t => Answered fn mb mbOk 0 [] s t
        ∧ AnswerFrame (s.onSys fun y => { y with cfg := { y.cfg with
            ageReq := keep 0x80 y.cfg.ageReq, ageMgmt := keep 0x84 y.cfg.ageMgmt / 2 * 2, homeBusy := keep 0x88 y.cfg.homeBusy
            engineCpl := keep 0x8C y.cfg.engineCpl } }) t)
    ∧ (Accepted cfgCoherenceForm fn mb s →
      After (.cfgCoherence fn mb) s fun t => Answered fn mb mbOk 0 [] s t
        ∧ ToldFrame (s.onSys fun y => { y with cfg := { y.cfg with tHold := (s.sw.cmdOf fn mb 8).num 0x80 2 } }) t
        ∧ t.sw.mgmt.nextRelay = s.sw.mgmt.nextRelay + if s.sw.sys.plane = 0 then s.sw.edgesUp.length else 0)

/-- An accepted DEV_RESET takes the named port, engine, core, channel or Teller into its reset; FW_STAGE asks the host for the image in requests of the
largest read and works on, or ends with TIMEOUT at once where the host cannot be read; FW_ACTIVATE begins the write of the next book with the new run
slot. -/
def Obligations.ResetAndFirmwareCommandsComplete : Prop :=
  ∀ (fn mb : Nat) (s : State),
    (Accepted devResetForm fn mb s →
      let kind := (s.sw.cmdOf fn mb 8).num 0x80 1
      let index := (s.sw.cmdOf fn mb 8).num 0x81 1
      (kind = 0 → After (.devReset fn mb) s fun t => Working fn mb .reset [.port index] [] s t ∧ t.sw.mem = s.sw.mem
        ∧ (t.sw.getLink index).state = if s.sw.sys.noCable.contains index || s.sw.sys.configDefault then .down else .detect)
      ∧ (kind = 1 → After (.devReset fn mb) s fun t => Working fn mb .reset [.engine index] [] s t ∧ t.sw.mem = s.sw.mem
        ∧ (t.sw.getEngine index).resetting = true ∧ (t.sw.getEngine index).fenced = false)
      ∧ (kind = 2 → After (.devReset fn mb) s fun t => Working fn mb .reset [.core index] [] s t ∧ t.sw.mem = s.sw.mem
        ∧ ∀ e, e / 8 = index → (t.sw.getEngine e).resetting = true ∧ (t.sw.getEngine e).fenced = false)
      ∧ (kind = 3 → After (.devReset fn mb) s fun t => Working fn mb .reset [.channel index] [] s t
        ∧ AnswerFrame (s.onMem fun m => { m with chan := m.chan.upd index {} fun c => { c with resetting := true } }) t)
      ∧ (kind = 4 → After (.devReset fn mb) s fun t => Working fn mb .reset [.teller] [] s t
        ∧ AnswerFrame (s.onTeller fun x => { x with state := 1, restarts := min 255 (x.restarts + 1) }) t))
    ∧ (Accepted fwStageForm fn mb s →
      let c := s.sw.cmdOf fn mb 24
      HostAsked fn mb (.fwStage fn mb) [.flash] (c.num 0x88 8) (c.num 0x90 8) s)
    ∧ (Accepted fwActivateForm fn mb s → ∀ target n, s.sw.sys.flash.nextBook = some (target, n) →
      let c := s.sw.cmdOf fn mb 8
      let set := fun v : Persist => { v with runSlot := c.num 0x80 1 }
      After (.fwActivate fn mb) s fun t => Working fn mb (.activate (c.num 0x81 1) (c.num 0x82 1) (c.num 0x80 1)) [.flash] [] s t
        ∧ AnswerFrame (s.onSys fun y => { y with cfg := set y.cfg, flash := y.flash.begin_ (.book target { seq := n, vals := set y.persist }) }) t)

/-- An accepted PART_ADMIT admits the partition with its key slot; PART_REMOVE begins the removal: no slot of the partition stays ACTIVE and no
Syndicate of it stays; PART_ENGINES_SET gives each engine of the mask its owner, PART_POOL_SET each 1 GiB range. -/
def Obligations.PartitionCommandsComplete : Prop :=
  ∀ (fn mb : Nat) (s : State),
    (Accepted partAdmitForm fn mb s →
      let p := (s.sw.cmdOf fn mb 8).num 0x80 1
      After (.partAdmit fn mb) s fun t => Answered fn mb mbOk 0 [] s t
        ∧ AnswerFrame ((s.putPart p { s.sw.getPart p with state := .admitted, vfBound := true, keySlot := (s.sw.cmdOf fn mb 8).num 0x82 1 }).onSys
            fun y => { y with admitted := true }) t)
    ∧ (Accepted partRemoveForm fn mb s →
      let p := (s.sw.cmdOf fn mb 8).num 0x80 1
      After (.partRemove fn mb) s fun t => Listed fn mb .remove (.partition p :: (s.sw.slotsOf p).map Obj.slot) t
        ∧ ((t.sw.getPart p).state = .closing ∨ (t.sw.getPart p).state = .none)
        ∧ (∀ k ∈ s.sw.slotsOf p, (t.sw.getSlot k).state ≠ .active) ∧ ∀ y ∈ t.sw.synd, y.2.partition ≠ p)
    ∧ (Accepted partEnginesSetForm fn mb s →
      let c := s.sw.cmdOf fn mb 8
      After (.partEnginesSet fn mb) s fun t => Answered fn mb mbOk 0 [] s t
        ∧ (∀ e < 48, bit (c.num 0x82 6) e = true → t.sw.engineOwner e = c.num 0x80 1) ∧ t.sw.sys.cfg.poolOwner = s.sw.sys.cfg.poolOwner)
    ∧ (Accepted partPoolSetForm fn mb s →
      let c := s.sw.cmdOf fn mb 8
      After (.partPoolSet fn mb) s fun t => Answered fn mb mbOk 0 [] s t ∧ t.sw.mem = s.sw.mem
        ∧ ∀ g, c.num 0x82 2 ≤ g → g < c.num 0x82 2 + c.num 0x84 2 → t.sw.poolOwner g = c.num 0x80 1)

/-- An accepted SEG_TABLE_SET sets the base of the context table of its rack and nothing else; SEG_INVALIDATE takes the next invalidation number and
works on, and neither level of this switch then holds a translation of its context whose segments overlap the range. -/
def Obligations.SegmentCommandsComplete : Prop :=
  ∀ (fn mb : Nat) (s : State),
    (Accepted segTableSetForm fn mb s →
      After (.segTableSet fn mb) s fun t => Answered fn mb mbOk 0 [] s t
        ∧ AnswerFrame (s.onXlat fun x => { x with base := x.base.put ((s.sw.cmdOf fn mb 16).num 0x80 1) ((s.sw.cmdOf fn mb 16).num 0x88 8) }) t)
    ∧ (Accepted segInvalidateForm fn mb s →
      let c := s.sw.cmdOf fn mb 24
      let count := (s.sw.xlat.count + 1) % 2 ^ 22
      After (.segInvalidate fn mb) s fun t => Listed fn mb (.invalidation (s.sw.sys.homeId * 2 ^ 22 + count)) [.context (c.num 0x80 2)] t
        ∧ t.sw.xlat.count = count ∧ t.sw.mem.home = s.sw.mem.home
        ∧ (∀ h ∈ t.sw.xlat.l2, h.ctx = c.num 0x80 2 → h.desc.overlaps (c.num 0x88 8) (c.num 0x90 4) = false)
        ∧ ∀ l ∈ t.sw.xlat.l1, ∀ h ∈ l.2, h.ctx = c.num 0x80 2 → h.desc.overlaps (c.num 0x88 8) (c.num 0x90 4) = false)

/-- An accepted PORT_SPEED_SET, PORT_EQ_SET, LINK_SEAL_SET or PORT_TEST_POLICY_SET sets its persistent value and nothing else; CAL_EQ_STORE begins to
write the link entries of the steps named; PORT_LANE_TEST begins the test of D0 on each port, with Jewel taking part; PORT_NARROW begins the change
to the group named; LINK_REKEY begins an exchange on each ACTIVE port of which this side is the initiator. -/
def Obligations.PortCommandsComplete : Prop :=
  ∀ (fn mb : Nat) (s : State),
    let c := s.sw.cmdOf fn mb 16
    let cfg := fun g : PortCfg → PortCfg => s.onSys fun y => { y with cfg := { y.cfg with port := y.cfg.port.upd c.port {} g } }
    (Accepted portSpeedSetForm fn mb s →
      After (.portSpeedSet fn mb) s fun t => Answered fn mb mbOk 0 [] s t ∧ AnswerFrame (cfg fun v => { v with maxStep := c.arg }) t)
    ∧ (Accepted portEqSetForm fn mb s →
      After (.portEqSet fn mb) s fun t => Answered fn mb mbOk 0 [] s t ∧ AnswerFrame (cfg fun v => { v with eqMode := c.arg }) t)
    ∧ (Accepted linkSealSetForm fn mb s →
      After (.linkSealSet fn mb) s fun t => Answered fn mb mbOk 0 [] s t ∧ AnswerFrame (cfg fun v => { v with g := c.arg }) t)
    ∧ (Accepted portTestPolicySetForm fn mb s →
      After (.portTestPolicySet fn mb) s fun t => Answered fn mb mbOk 0 [] s t
        ∧ AnswerFrame (s.onSys fun y => { y with cfg := { y.cfg with testHours := c.arg } }) t)
    ∧ (Accepted calEqStoreForm fn mb s →
      After (.calEqStore fn mb) s fun t => Working fn mb .flash [.port c.port, .flash] [] s t ∧ ∃ links : Tab EqSet,
        AnswerFrame (s.onSys fun y => { y with flash := { y.flash with calValid := false, writing := some (.cal links) } }) t
        ∧ ∀ n < 4, bit c.arg n = true →
            links.find (c.port * 4 + n) = some ((((s.sw.getLink c.port).steps.find? fun r => r.step == n).map (·.eq)).getD {}))
    ∧ (Accepted portLaneTestForm fn mb s →
      After (.portLaneTest fn mb) s fun t => Answered fn mb mbOk 0 [] s t ∧ t.sw.mem = s.sw.mem
        ∧ ∀ p ∈ c.ports, (t.sw.getLink p).test = some { install := true, lane := 0 } ∧ (t.sw.getLink p).jewel = 10 ∧ (t.sw.getLink p).state = .active)
    ∧ (Accepted portNarrowForm fn mb s →
      After (.portNarrow fn mb) s fun t => Answered fn mb mbOk 0 [] s t ∧ t.sw.mem = s.sw.mem
        ∧ (t.sw.getLink c.port).widthToBe = c.arg + 1 ∧ ∀ p ≠ c.port, t.sw.getLink p = s.sw.getLink p)
    ∧ (Accepted linkRekeyForm fn mb s →
      After (.linkRekey fn mb) s fun t => Answered fn mb mbOk 0 [] s t ∧ t.sw.mem = s.sw.mem
        ∧ ∀ p ∈ c.ports, (s.sw.getLink p).state = .active → (isEdge s.sw.sys p = true ∨ p < 56) → (t.sw.getLink p).xchg.isSome = true)

/-- An accepted TIME_MASTER_SET names master and standby; TIME_SET sets fabric time on the master; SCHED_STAGE asks the host for the header, or
ends with TIMEOUT at once and an empty standby bank where the host cannot be read; SCHED_ARM arms the cycle named and tells the end-point of each edge
port that carries frames, SCHED_DISARM disarms; BOOK_POLICY_SET sets margin, hold and lead. -/
def Obligations.TimeAndScheduleCommandsComplete : Prop :=
  ∀ (fn mb : Nat) (s : State),
    (Accepted timeMasterSetForm fn mb s →
      let c := s.sw.cmdOf fn mb 8
      After (.timeMasterSet fn mb) s fun t => Answered fn mb mbOk 0 [] s t ∧ t.sw.clock.master = c.num 0x80 2 ∧ t.sw.clock.standby = c.num 0x82 2
        ∧ t.sw.clock.lost = false ∧ t.sw.clock.now = s.sw.clock.now ∧ t.sw.mem = s.sw.mem ∧ t.ep = s.ep)
    ∧ (Accepted timeSetForm fn mb s →
      let c := s.sw.cmdOf fn mb 16
      After (.timeSet fn mb) s fun t => Answered fn mb mbOk 0 [] s t
        ∧ t.sw.clock = { s.sw.clock with
            now := ofSecFrac (c.num 0x80 6) (c.num 0x88 4), valid := true, pps := bit (c.num 0x8C 1) 0
            ppsEdge := s.sw.clock.ppsEdge.map fun e => e + ofSecFrac (c.num 0x80 6) (c.num 0x88 4) - s.sw.clock.now }
        ∧ AnswerFrame (s.onSw fun w => { w with clock := t.sw.clock }) t)
    ∧ (Accepted schedStageForm fn mb s →
      HostAsked fn mb (.schedStage fn mb) [.bank] ((s.sw.cmdOf fn mb 16).num 0x80 8) 0x100 s
      ∧ (s.sw.hostReads = false → s.sw.activeOf fn mb = none → After (.schedStage fn mb) s fun t => t.sw.sched.standby = none ∧ t.sw.sched.staging = none))
    ∧ (Accepted schedArmForm fn mb s →
      After (.schedArm fn mb) s fun t => Answered fn mb mbOk 0 [] s t
        ∧ ToldFrame (s.onSw fun w => { w with
            core := { w.core with stagings := w.core.stagings + 1 }
            sched := { w.sched with armed := some ((s.sw.cmdOf fn mb 16).num 0x88 8)
                                    armedBy := { ledger := 0, seq := (s.sw.getLedger 0).nextSeq, order := w.core.stagings + 1 } } }) t
        ∧ t.sw.mgmt.nextRelay = s.sw.mgmt.nextRelay + s.sw.edgesUp.length)
    ∧ (Accepted schedDisarmForm fn mb s →
      After (.schedDisarm fn mb) s fun t => Answered fn mb mbOk 0 [] s t
        ∧ ToldFrame (s.onSw fun w => { w with sched := { w.sched with armed := none } }) t
        ∧ t.sw.mgmt.nextRelay = s.sw.mgmt.nextRelay + s.sw.edgesUp.length)
    ∧ (Accepted bookPolicySetForm fn mb s →
      let c := s.sw.cmdOf fn mb 12
      After (.bookPolicySet fn mb) s fun t => Answered fn mb mbOk 0 [] s t
        ∧ AnswerFrame (s.onSw fun w => { w with sched := { w.sched with margin := c.num 0x80 1, returnHold := c.num 0x84 4, lead := c.num 0x88 4 } }) t)

/-- An accepted SHAPER_SET or POLICER_SET stages the bucket or policer that it describes, with the function and the entry that set it and its place among
the commands that stage, and changes nothing else; SHAPER_READ answers the FLAGS byte with STAGED, the active and the staged record, and changes nothing. -/
def Obligations.ShapingCommandsComplete : Prop :=
  ∀ (fn mb : Nat) (s : State),
    (Accepted shaperSetForm fn mb s →
      let c := s.sw.cmdOf fn mb 13
      let key := shaperKey (c.num 0x80 1) (c.num 0x81 1) (c.num 0x82 1)
      let b : Bucket := { enable := bit (c.num 0x83 1) 0, rate := c.num 0x84 4, burst := c.num 0x88 4, overhead := c.num 0x8C 1 }
      After (.shaperSet fn mb) s fun t => Answered fn mb mbOk 0 [] s t
        ∧ AnswerFrame (s.onCore fun k => { k with
            stagings := k.stagings + 1
            shaperStaged := k.shaperStaged.put key (b, { ledger := fn, seq := (s.sw.getLedger fn).nextSeq, order := k.stagings + 1 }) }) t)
    ∧ (Accepted policerSetForm fn mb s →
      let c := s.sw.cmdOf fn mb 20
      let key := policerKey (c.num 0x80 1) (c.num 0x81 1)
      let b : Policer := { enable := bit (c.num 0x82 1) 0, overhead := c.num 0x83 1, cir := c.num 0x84 4, pir := c.num 0x88 4, cbs := c.num 0x8C 4, pbs := c.num 0x90 4 }
      After (.policerSet fn mb) s fun t => Answered fn mb mbOk 0 [] s t
        ∧ AnswerFrame (s.onCore fun k => { k with
            stagings := k.stagings + 1
            policerStaged := k.policerStaged.put key (b, { ledger := 0, seq := (s.sw.getLedger 0).nextSeq, order := k.stagings + 1 }) }) t)
    ∧ (Accepted shaperReadForm fn mb s →
      let c := s.sw.cmdOf fn mb 8
      let port := c.num 0x80 1
      let kind := c.num 0x81 1
      let index := c.num 0x82 1
      let staged := s.sw.core.shaperStaged.find (shaperKey port kind index)
      let policer := s.sw.core.policerStaged.find (policerKey port index)
      (kind ≠ 2 → After (.shaperRead fn mb) s fun t => AnswerFrame s t ∧ Answered fn mb mbOk 0
        (leBytes 1 (b2n staged.isSome) ++ leBytes 7 0 ++ shaperRecord port kind index (s.sw.core.shaper.get (shaperKey port kind index) {})
          ++ padTo 24 ((staged.map fun x => shaperRecord port kind index x.1).getD [])) s t)
      ∧ (kind = 2 → After (.shaperRead fn mb) s fun t => AnswerFrame s t ∧ Answered fn mb mbOk 0
        (leBytes 1 (b2n policer.isSome) ++ leBytes 7 0 ++ policerRecord port index (s.sw.core.policer.get (policerKey port index) {})
          ++ padTo 24 ((policer.map fun x => policerRecord port index x.1).getD [])) s t))

/-- For regions of this switch, with no region change under way: an accepted REGION_SET leaves each region with its new mode and owner or with the
change under way, a REGION_HANDOVER with its new owner or under HANDOVER; REGION_READ answers the entries; REGION_LOST_CLEAR makes each LOST line of
its range read as zeros with LOST clear and leaves every other byte, and gives each LOST region back with no owner. For an end-point home each
relays one CONFIG frame and works on. -/
def Obligations.RegionCommandsComplete : Prop :=
  ∀ (fn mb : Nat) (s : State),
    (Accepted regionSetForm fn mb s →
      let c := s.sw.cmdOf fn mb 16
      (c.home = s.sw.sys.homeId → s.sw.mem.home.jobs = [] → After (.regionSet fn mb) s fun t => Listed fn mb .regionChange [.regions c.home c.first c.count] t
        ∧ ∀ i, c.first ≤ i → i < c.first + c.count →
            (∃ j ∈ t.sw.mem.home.jobs, j.region = i ∧ j.mode = c.num 0x8C 1 ∧ j.newOwner = c.owner)
            ∨ ((t.sw.mem.home.region.get i {}).mode = c.num 0x8C 1 ∧ (t.sw.mem.home.region.get i {}).owner = c.owner))
      ∧ (c.home ≠ s.sw.sys.homeId → After (.regionSet fn mb) s fun t => Working fn mb (.relay 0) [.regions c.home c.first c.count] [] s t
        ∧ ToldFrame s t ∧ t.sw.mgmt.nextRelay = s.sw.mgmt.nextRelay + 1))
    ∧ (Accepted regionHandoverForm fn mb s →
      let c := s.sw.cmdOf fn mb 16
      (c.home = s.sw.sys.homeId → s.sw.mem.home.jobs = [] → After (.regionHandover fn mb) s fun t => Listed fn mb .handover [.regions c.home c.first c.count] t
        ∧ ∀ i, c.first ≤ i → i < c.first + c.count →
            ((∃ j ∈ t.sw.mem.home.jobs, j.region = i ∧ j.handover = true ∧ j.newOwner = c.owner) ∧ (t.sw.mem.home.region.get i {}).handover = true)
            ∨ ((t.sw.mem.home.region.get i {}).handover = false ∧ (t.sw.mem.home.region.get i {}).owner = c.owner))
      ∧ (c.home ≠ s.sw.sys.homeId → After (.regionHandover fn mb) s fun t => Working fn mb (.relay 0) [.regions c.home c.first c.count] [] s t
        ∧ ToldFrame s t ∧ t.sw.mgmt.nextRelay = s.sw.mgmt.nextRelay + 1))
    ∧ (Accepted regionReadForm fn mb s →
      let c := s.sw.cmdOf fn mb 16
      (c.home = s.sw.sys.homeId → After (.regionRead fn mb) s fun t => AnswerFrame s t ∧ Answered fn mb mbOk 0
        ((List.range c.count).flatMap fun i => leBytes 2 (s.sw.mem.home.region.get (c.first + i) {}).bits) s t)
      ∧ (c.home ≠ s.sw.sys.homeId → After (.regionRead fn mb) s fun t => Working fn mb (.relay 0) [.regions c.home c.first c.count] [] s t
        ∧ ToldFrame s t ∧ t.sw.mgmt.nextRelay = s.sw.mgmt.nextRelay + 1))
    ∧ (Accepted regionLostClearForm fn mb s →
      let c := s.sw.cmdOf fn mb 24
      let first := c.num 0x88 8
      let count := c.num 0x90 4
      let hit := fun l => first ≤ l ∧ l < first + count ∧ ∃ m, (l, m) ∈ s.sw.mem.home.lines ∧ m.lost = true
      (c.home = s.sw.sys.homeId → c.num 0x82 1 = 0 → After (.regionLostClear fn mb) s fun t => Answered fn mb mbOk 0 [] s t
        ∧ (∀ l, hit l → t.sw.mem.home.lines.find l = none ∧ ∀ a, a / 128 = l → Memory.read t.sw.mem.home.mem a = 0)
        ∧ ∀ a, ¬hit (a / 128) → Memory.read t.sw.mem.home.mem a = Memory.read s.sw.mem.home.mem a)
      ∧ (c.home = s.sw.sys.homeId → c.num 0x82 1 ≠ 0 → After (.regionLostClear fn mb) s fun t => Answered fn mb mbOk 0 [] s t
        ∧ SameMemory s t ∧ ∀ i, first ≤ i → i < first + count → (s.sw.mem.home.region.get i {}).lost = true →
            (t.sw.mem.home.region.get i {}).lost = false ∧ (t.sw.mem.home.region.get i {}).owner = 0x3FF)
      ∧ (c.home ≠ s.sw.sys.homeId → After (.regionLostClear fn mb) s fun t => Working fn mb (.relay 0) [.regions c.home 0 (2 ^ 21)] [] s t
        ∧ ToldFrame s t ∧ t.sw.mgmt.nextRelay = s.sw.mgmt.nextRelay + 1))

/-- An accepted NEAR_STORE_SET sets the mask and, where it changes, begins the drain; SCRUB_SET and RETIRE_LIMIT_SET set their persistent values;
PARTNER_SET begins a pairing that resilvers, PARTNER_PROMOTE makes a paired secondary a primary without a partner, PARTNER_BREAK ends a pairing and
leaves the regions of a secondary LOST. -/
def Obligations.PoolSettingCommandsComplete : Prop :=
  ∀ (fn mb : Nat) (s : State),
    let c := s.sw.cmdOf fn mb 8
    let e := c.num 0x80 1
    let g := c.num 0x80 2
    (Accepted nearStoreSetForm fn mb s →
      let set := s.onSys fun y => { y with cfg := { y.cfg with stepMask := y.cfg.stepMask.put e (c.num 0x81 1) } }
      (s.sw.mem.mask.get e 0 = c.num 0x81 1 → After (.nearStoreSet fn mb) s fun t => Answered fn mb mbOk 0 [] s t ∧ AnswerFrame set t)
      ∧ (s.sw.mem.mask.get e 0 ≠ c.num 0x81 1 → After (.nearStoreSet fn mb) s fun t => Working fn mb .drain [.engine e, .nearStore] [] s t
        ∧ AnswerFrame (set.onMem fun x => { x with drainOld := some s.sw.cacheSteps, drainMask := some (e, c.num 0x81 1) }) t))
    ∧ (Accepted scrubSetForm fn mb s → After (.scrubSet fn mb) s fun t => Answered fn mb mbOk 0 [] s t
        ∧ AnswerFrame (s.onSys fun y => { y with cfg := { y.cfg with scrubHours := g } }) t)
    ∧ (Accepted retireLimitSetForm fn mb s → After (.retireLimitSet fn mb) s fun t => Answered fn mb mbOk 0 [] s t
        ∧ AnswerFrame (s.onSys fun y => { y with cfg := { y.cfg with retireLimit := t.sw.sys.cfg.retireLimit } }) t
        ∧ ∀ ch < 24, t.sw.sys.cfg.retireLimit.find ch = if e = 0xFF ∨ e = ch then some (c.num 0x82 2) else s.sw.sys.cfg.retireLimit.find ch)
    ∧ (Accepted partnerSetForm fn mb s → After (.partnerSet fn mb) s fun t => Answered fn mb mbOk 0 [] s t ∧ t.sw.mem.home = s.sw.mem.home
        ∧ t.sw.mem.pair.find g = some { partner := c.num 0x82 2, primary := c.num 0x84 1 == 0, rate := if c.num 0x86 2 = 0 then 16 else c.num 0x86 2 })
    ∧ (Accepted partnerPromoteForm fn mb s → After (.partnerPromote fn mb) s fun t => Answered fn mb mbOk 0 [] s t
        ∧ (∃ p, t.sw.mem.pair.find g = some p ∧ p.primary = true ∧ p.state = .single)
        ∧ (∀ k ≠ g, t.sw.mem.pair.find k = s.sw.mem.pair.find k) ∧ AnswerFrame (s.onMem fun m => { m with pair := t.sw.mem.pair }) t)
    ∧ (Accepted partnerBreakForm fn mb s → After (.partnerBreak fn mb) s fun t => Answered fn mb mbOk 0 [] s t ∧ SameMemory s t
        ∧ t.sw.mem.pair.find g = none
        ∧ ((s.sw.mem.pair.find g).any (fun p => !p.primary) = true → ∀ i < 512, (t.sw.mem.home.region.get (512 * g + i) {}).lost = true))

/-- An accepted SYND_CREATE asks the host for its member list and works on, or ends with TIMEOUT at once where the host cannot be read; SYND_DESTROY forgets the Syndicate; SYND_MEMBER_SET puts the member at its
rank once its relays are confirmed, at once without any; SYND_QUOTA_SET sets the collective quota. -/
def Obligations.SyndicateCommandsComplete : Prop :=
  ∀ (fn mb : Nat) (s : State),
    let c := s.sw.cmdOf fn mb 8
    let id := c.num 0x80 1
    (Accepted syndCreateForm fn mb s →
      let c := s.sw.cmdOf fn mb 80
      HostAsked fn mb (.syndCreate fn mb) [.partition (c.num 0x81 1), .synd (c.num 0x80 1)] (c.num 0x88 8) (2 * c.num 0x82 2) s)
    ∧ (Accepted syndDestroyForm fn mb s → After (.syndDestroy fn mb) s fun t => Answered fn mb mbOk 0 [] s t
        ∧ t.sw.getSynd id = none ∧ AnswerFrame (s.onSw fun w => { w with
            synd := w.synd.del id, escrow := { w.escrow with coll := w.escrow.coll.filter fun q => q.1 != id } }) t)
    ∧ (Accepted syndMemberSetForm fn mb s → s.sw.activeOf fn mb = none → ∀ y, s.sw.getSynd id = some y →
      After (.syndMemberSet fn mb) s fun t => Listed fn mb (.relay 0) [.synd id] t ∧ t.sw.mem = s.sw.mem
        ∧ (t.sw.getSynd id).map (·.members) =
            if t.sw.relaysOf fn mb then some y.members else some (y.members.set (c.num 0x82 2) (c.num 0x84 2 % 1024 * 64 + c.num 0x84 2 / 1024)))
    ∧ (Accepted syndQuotaSetForm fn mb s → After (.syndQuotaSet fn mb) s fun t => Answered fn mb mbOk 0 [] s t
        ∧ AnswerFrame (s.putPart id { s.sw.getPart id with collQuota := c.num 0x84 4 }) t)

/-- An accepted ESCROW_MAILBOX_SET gives each fabric mailbox named its partition; ESCROW_QUOTA_SET sets the graph quota; ESCROW_CANCEL leaves no task of
the graph that has not started, with no submission waiting for its slot. -/
def Obligations.EscrowCommandsComplete : Prop :=
  ∀ (fn mb : Nat) (s : State),
    let c := s.sw.cmdOf fn mb 8
    (Accepted escrowMailboxSetForm fn mb s → After (.escrowMailboxSet fn mb) s fun t => Answered fn mb mbOk 0 [] s t
        ∧ AnswerFrame (s.onEscrow fun e => { e with mbox := t.sw.escrow.mbox }) t
        ∧ ∀ m, t.sw.getMbox m =
            if c.num 0x80 1 ≤ m ∧ m < c.num 0x80 1 + c.num 0x82 2 then { s.sw.getMbox m with partition := c.num 0x81 1 } else s.sw.getMbox m)
    ∧ (Accepted escrowQuotaSetForm fn mb s → After (.escrowQuotaSet fn mb) s fun t => Answered fn mb mbOk 0 [] s t ∧ t.sw.mem = s.sw.mem
        ∧ t.sw.getPart (c.num 0x80 1) = { s.sw.getPart (c.num 0x80 1) with graphQuota := c.num 0x81 1 })
    ∧ (Accepted escrowCancelForm fn mb s → s.sw.escrow.queue = [] → After (.escrowCancel fn mb) s fun t => Answered fn mb mbOk 0 [] s t
        ∧ t.sw.mem = s.sw.mem ∧ ∀ g, t.sw.getGraph (c.num 0x80 1) = some g → g.cancel ≠ .none ∧ ∀ x ∈ g.tasks, x.state.unstarted = false)

/-- An accepted VAULT_KEM_READ answers the encapsulation key of the present generation; KEY_LOAD, past every other check, makes the slot ACTIVE with the
key that its bytes unwrap to, ends that generation and tells each end-point, and is answered DIGEST_MISMATCH where they unwrap to none; KEY_RETIRE
leaves the slot not ACTIVE; SIGNER_ENROL adds a signer; STRONGROOM_SET sets Strongroom and clears the key slot of every PF0 aperture; KEY_REWRAP
takes the lowest free record and holds its partition, slots and range; KEY_REWRAP_RELEASE frees one. -/
def Obligations.KeyCommandsComplete : Prop :=
  ∀ (fn mb : Nat) (s : State),
    let c := s.sw.cmdOf fn mb 8
    (Accepted vaultKemReadForm fn mb s →
      After (.vaultKemRead fn mb) s fun t => AnswerFrame s t ∧ Answered fn mb mbOk 0 (padTo 1568 (Config.kemKey s.sw.vault.kemGen)) s t)
    ∧ (Accepted { keyLoadForm with own := fun _ _ => [] } fn mb s →
      let c := s.sw.cmdOf fn mb 1616
      After (.keyLoad fn mb) s fun t => match s.sw.loadedKey c with
        | some key => Answered fn mb mbOk 0 ((digestBytes (Config.shake256 (leBytes 32 key.toNat))).take 8) s t
          ∧ ToldFrame ((s.putSlot (c.num 0x80 1) { state := .active, partition := c.num 0x81 1, key := key }).onSw
              fun w => { w with vault := { w.vault with kemGen := w.vault.kemGen + 1 } }) t
          ∧ t.sw.mgmt.nextRelay = s.sw.mgmt.nextRelay + s.sw.edgesUp.length
        | none => Answered fn mb mbDigest 0 [] s t ∧ AnswerFrame s t)
    ∧ (Accepted keyRetireForm fn mb s →
      After (.keyRetire fn mb) s fun t => Listed fn mb .retire [.slot (c.num 0x80 1)] t ∧ (t.sw.getSlot (c.num 0x80 1)).state ≠ .active)
    ∧ (Accepted signerEnrolForm fn mb s → After (.signerEnrol fn mb) s fun t => Answered fn mb mbOk 0 [] s t
        ∧ AnswerFrame (s.onSw fun w => { w with vault := { w.vault with signers := w.vault.signers ++ [(s.sw.cmdOf fn mb 1801).bytes 0x88 1793] } }) t)
    ∧ (Accepted strongroomSetForm fn mb s → After (.strongroomSet fn mb) s fun t => Answered fn mb mbOk 0 [] s t
        ∧ AnswerFrame ((s.onSys fun y => { y with strongroom := true }).onHost fun h => { h with aperture := t.sw.host.aperture }) t
        ∧ ∀ k, t.sw.host.aperture.find k = (s.sw.host.aperture.find k).map fun a => if k < 64 then a &&& ~~~(0x7C#64) else a)
    ∧ (Accepted keyRewrapForm fn mb s → ∀ n, s.sw.freeRecord = some n →
      let c := s.sw.cmdOf fn mb 28
      let r : Rewrap := { partition := c.num 0x80 1, fromSlot := c.num 0x81 1, toSlot := c.num 0x82 1, start := c.num 0x88 8, length := c.num 0x90 8,
                          rate := if c.num 0x98 4 = 0 then 16 else c.num 0x98 4, cursor := c.num 0x88 8 }
      After (.keyRewrap fn mb) s fun t =>
        Working fn mb (.rewrap n) (.record n :: .slot (c.num 0x81 1) :: .slot (c.num 0x82 1) :: rangeObjs s (c.num 0x80 1) (c.num 0x88 8) (c.num 0x90 8)) [] s t
        ∧ AnswerFrame (s.onMem fun m => { m with rewrap := m.rewrap.put n r }) t)
    ∧ (Accepted keyRewrapReleaseForm fn mb s → After (.keyRewrapRelease fn mb) s fun t => Answered fn mb mbOk 0 [] s t
        ∧ AnswerFrame (s.onMem fun m => { m with rewrap := m.rewrap.del (c.num 0x80 1) }) t)

/-- An accepted ASSAY_REQUEST composes its report unless a measured element changes, and ends with TIMEOUT at once where the host cannot be written; LEDGER_REGION_SET sets the region, and begins the chain of a
tenant; LEDGER_READ names how many items it writes, writes them in requests of the maximum payload and works on; LEDGER_SEAL_NOW seals and answers the SEQ of the seal where staging has room;
CKPT_SAVE and CKPT_RESTORE hold their range and work on. -/
def Obligations.LedgerAndCheckpointCommandsComplete : Prop :=
  ∀ (fn mb : Nat) (s : State),
    (Accepted assayRequestForm fn mb s → s.sw.activeOf fn mb = none →
      (s.sw.changing = true → After (.assayRequest fn mb) s fun t => Working fn mb .assay [] [] s t ∧ AnswerFrame s t)
      ∧ (s.sw.changing = false → After (.assayRequest fn mb) s fun t =>
        (if s.sw.hostReads then Listed fn mb .assay [] t else Answered fn mb mbTimeout 0 [] s t)
        ∧ AnswerFrame (s.onSys fun y => { y with assayCount := y.assayCount + 1 }) t))
    ∧ (Accepted ledgerRegionSetForm fn mb s →
      let c := s.sw.cmdOf fn mb 24
      After (.ledgerRegionSet fn mb) s fun t => Answered fn mb mbOk 0 [] s t ∧ AnswerFrame s t
        ∧ (t.sw.getLedger (c.num 0x80 1)).region = some (c.num 0x88 8, c.num 0x90 8)
        ∧ (c.num 0x80 1 ≠ 0 → (t.sw.getLedger (c.num 0x80 1)).started = true))
    ∧ (Accepted ledgerReadForm fn mb s →
      let c := s.sw.cmdOf fn mb 40
      let last := (s.sw.getLedger (c.num 0x80 1)).latest (c.num 0x81 1)
      let n := min (min (c.num 0x90 4) (c.num 0xA0 8 / 128)) (last + 1 - c.num 0x88 8)
      let items := (s.sw.getLedger (c.num 0x80 1)).items (c.num 0x81 1) (c.num 0x88 8) n
      let most := s.sw.host.pf.maxPayload
      (s.sw.hostReads = true → After (.ledgerRead fn mb) s fun t =>
        Working fn mb .ledgerRead [.partition (c.num 0x80 1)] [n, last] s t ∧ AnswerFrame s t
          ∧ ∀ k < ceilDiv items.length most, Out.pcieWrite (c.num 0x98 8 + most * k) (slice items (most * k) (min most (items.length - most * k))) ∈ t.out)
      ∧ (s.sw.hostReads = false → s.sw.activeOf fn mb = none → After (.ledgerRead fn mb) s fun t => Answered fn mb mbTimeout 0 [] s t ∧ AnswerFrame s t))
    ∧ (Accepted ledgerSealNowForm fn mb s →
      let p := (s.sw.cmdOf fn mb 8).num 0x80 1
      let now := (s.sw.getLedger p).room (15 * 128) true && (s.sw.ledgerQueue.all fun q => q.1 != p)
      (now = true → After (.ledgerSealNow fn mb) s fun t => AnswerFrame s t ∧ Answered fn mb mbOk 0 (leBytes 8 (s.sw.getLedger p).nextSeq) s t)
      ∧ (now = false → After (.ledgerSealNow fn mb) s fun t => AnswerFrame s t ∧ Working fn mb .flushed [.partition p] [] s t))
    ∧ (Accepted ckptSaveForm fn mb s → s.sw.activeOf fn mb = none →
      After (.ckptSave fn mb) s fun t => t.sw.vault = s.sw.vault ∧ t.sw.sys.cfg = s.sw.sys.cfg
        ∧ (Listed fn mb .ckpt (ckptObjs (s.sw.cmdOf fn mb 40) s) t ∨ s.sw.hostReads = false ∧ Answered fn mb mbTimeout 0 [] s t))
    ∧ (Accepted ckptRestoreForm fn mb s →
      let r := ckptReq (s.sw.cmdOf fn mb 40).body
      HostAsked fn mb (.ckptRestore fn mb) (ckptObjs (s.sw.cmdOf fn mb 40) s) r.addr r.room s)

/-- An accepted POWER_VOTE sets the vote of its function for the domain; PACE_SET sets target, ceiling, limit and idle hold, reports SLOW
where P stands above the new ceiling, and the plane-0 switch relays the ceiling; BRAKE_SET sets the brake limit; POWER_READ answers P, P_MAX, the average power and PWRBRK and starts P_MAX again, except to a VF
under Strongroom. -/
def Obligations.PowerCommandsComplete : Prop :=
  ∀ (fn mb : Nat) (s : State),
    let c := s.sw.cmdOf fn mb 8
    (Accepted powerVoteForm fn mb s → After (.powerVote fn mb) s fun t => Answered fn mb mbOk 0 [] s t ∧ t.sw.mem = s.sw.mem
        ∧ (t.sw.domain (c.num 0x80 1) (c.num 0x81 1)).votes = (s.sw.domain (c.num 0x80 1) (c.num 0x81 1)).votes.put fn (c.num 0x82 1))
    ∧ (Accepted paceSetForm fn mb s →
      let u := s.onSys fun y => { y with cfg := { y.cfg with target := c.num 0x80 2, ceil := c.num 0x82 2, limit := c.num 0x84 2
                                                             idleHold := if c.num 0x86 2 = 0 then 100 else c.num 0x86 2 } }
      After (.paceSet fn mb) s fun t => Answered fn mb mbOk 0 [] s t ∧ ToldFrame (if u.slowNow then u.setSlow true else u) t
        ∧ t.sw.mgmt.nextRelay = s.sw.mgmt.nextRelay + if s.sw.sys.plane = 0 then s.sw.edgesUp.length else 0)
    ∧ (Accepted brakeSetForm fn mb s → After (.brakeSet fn mb) s fun t => Answered fn mb mbOk 0 [] s t
        ∧ AnswerFrame (s.onSys fun y => { y with cfg := { y.cfg with brake := c.num 0x80 2 } }) t)
    ∧ (Accepted powerReadForm fn mb s →
      let hide := s.sw.sys.strongroom && fn != 0
      After (.powerRead fn mb) s fun t => Answered fn mb mbOk 0
        (leBytes 2 (if hide then 0 else s.sw.power.p) ++ leBytes 2 (if hide then 0 else s.sw.power.pMax)
          ++ leBytes 2 (if hide then s.sw.power.average / 4 * 4 else s.sw.power.average) ++ leBytes 1 (b2n s.sw.sys.pwrbrk)) s t
        ∧ AnswerFrame (if hide then s else s.onPower fun x => { x with pMax := x.p }) t)

/-- An accepted TALLY_READ answers the counters asked for; FAULT_LOG_READ the readable records from a SEQ on, oldest first; TALLY_QUEUE_READ the queue
records of the port, which it starts again; the first two change nothing. -/
def Obligations.TallyCommandsComplete : Prop :=
  ∀ (fn mb : Nat) (s : State),
    (Accepted tallyReadForm fn mb s →
      let c := s.sw.cmdOf fn mb 16
      After (.tallyRead fn mb) s fun t => AnswerFrame s t ∧ Answered fn mb mbOk 0
        ((List.range (c.num 0x88 4)).flatMap fun i => leBytes 8 (s.counterRead fn (c.num 0x80 2) (c.num 0x84 4 + i))) s t)
    ∧ (Accepted faultLogReadForm fn mb s →
      let c := s.sw.cmdOf fn mb 16
      After (.faultLogRead fn mb) s fun t => AnswerFrame s t ∧ Answered fn mb mbOk 0
        ((((s.sw.tally.faults.filter fun r => decide (c.num 0x80 8 ≤ r.seq) && (fn == 0 || r.partition == fn)).reverse).take (c.num 0x88 4)).flatMap
          FaultRec.bytes) s t)
    ∧ (Accepted tallyQueueReadForm fn mb s →
      let keys := queueKeys ((s.sw.cmdOf fn mb 8).num 0x80 1)
      After (.tallyQueueRead fn mb) s fun t => Answered fn mb mbOk 0
        (keys.flatMap fun k => (s.sw.tally.queue.get k {}).bytes fn s.sw.sys.strongroom) s t
        ∧ AnswerFrame (s.onSw fun w => { w with tally := { w.tally with queue := keys.foldl (fun q k => q.upd k {} fun r => r.restart fn) w.tally.queue } }) t)

/-- An accepted FENCE_SET fences the port, engine, core, channel, served partition, agent or end-point that it names; FENCE_CLEAR ends the fence of an
engine, core, partition or agent; FD_SET sets the number of misses; EP_READMIT clears the verdict of the end-point and works on until the other
switches have confirmed. -/
def Obligations.FenceCommandsComplete : Prop :=
  ∀ (fn mb : Nat) (s : State),
    let c := s.sw.cmdOf fn mb 8
    (Accepted fenceSetForm fn mb s → After (.fenceSet fn mb) s fun t => Answered fn mb mbOk 0 [] s t
        ∧ (c.kind = 0 → (t.sw.getLink c.index).state = .fenced)
        ∧ (c.kind = 1 → (t.sw.getEngine c.index).fenced = true)
        ∧ (c.kind = 2 → ∀ e, e / 8 = c.index → (t.sw.getEngine e).fenced = true)
        ∧ (c.kind = 3 → (t.sw.chan c.index).fenced = true)
        ∧ (c.kind = 4 → (s.sw.getPart c.index).state = .admitted → (t.sw.getPart c.index).state = .fenced)
        ∧ (c.kind = 5 → c.index * 64 + c.agent ∈ t.sw.vault.fencedAgents)
        ∧ (c.kind = 6 → (t.sw.epRec c.index).verdict = true))
    ∧ (Accepted fenceClearForm fn mb s → After (.fenceClear fn mb) s fun t => Answered fn mb mbOk 0 [] s t ∧ t.sw.mem = s.sw.mem
        ∧ (c.kind = 1 → (t.sw.getEngine c.index).fenced = false)
        ∧ (c.kind = 2 → ∀ e, e / 8 = c.index → (t.sw.getEngine e).fenced = false)
        ∧ (c.kind = 4 → (s.sw.getPart c.index).state = .fenced → (t.sw.getPart c.index).state = .admitted)
        ∧ (c.kind = 5 → c.index * 64 + c.agent ∉ t.sw.vault.fencedAgents))
    ∧ (Accepted fdSetForm fn mb s → After (.fdSet fn mb) s fun t => Answered fn mb mbOk 0 [] s t
        ∧ AnswerFrame (s.onSys fun y => { y with cfg := { y.cfg with misses := c.num 0x80 1 } }) t)
    ∧ (Accepted epReadmitForm fn mb s → After (.epReadmit fn mb) s fun t =>
        Working fn mb (.relay 0) [.endpoint (c.num 0x80 2)] s.sw.otherSwitches s t ∧ t.sw.mem = s.sw.mem
        ∧ (t.sw.epRec (c.num 0x80 2)).verdict = false ∧ (t.sw.epRec (c.num 0x80 2)).inc = (s.sw.epRec (c.num 0x80 2)).inc)

/-- COMMAND_COMPLETION of a command whose work has its status writes that status and response, clears OWN and forgets the command; COMMAND_TIMEOUT ends
work that has none with the status of its kind; a command whose opcode the index does not list is answered BAD_OPCODE and changes nothing else. -/
def Obligations.CommandsEnd : Prop :=
  ∀ (fn mb : Nat) (s : State),
    (∀ (a : Active) (status : Nat) (rsp : List Byte) (host : Option (List Byte)), s.sw.tellerWorks = true → s.sw.activeOf fn mb = some a →
      a.result = some (status, rsp) → a.dropped = false →
      After (.commandCompletion fn mb host) s fun t => t.sw.activeOf fn mb = none ∧ (t.sw.mailbox fn mb).own = false ∧ (t.sw.mailbox fn mb).rsp = rsp
        ∧ (t.sw.mailbox fn mb).lastSeq = a.seq
        ∧ (t.sw.mailbox fn mb).rspHeader = BitVec.ofNat 64 (status + a.seq % 2 ^ 16 * 2 ^ 16 + rsp.length * 2 ^ 32
            + (if status = mbBadField then a.cmd.hostField else 0) * 2 ^ 48))
    ∧ (∀ a : Active, s.sw.tellerWorks = true → s.sw.activeOf fn mb = some a → a.result = none → a.dropped = false →
      After (.commandTimeout fn mb) s fun t => t.sw.activeOf fn mb = none ∧ (t.sw.mailbox fn mb).own = false ∧ (t.sw.mailbox fn mb).lastSeq = a.seq
        ∧ (t.sw.mailbox fn mb).rsp = [] ∧ t.sw.mem = s.sw.mem
        ∧ (t.sw.mailbox fn mb).rspHeader = BitVec.ofNat 64 ((if a.opcode % 0x10000 = 0x0A20 ∧ a.data = [] then mbTransition else mbTimeout)
            + a.seq % 2 ^ 16 * 2 ^ 16))
    ∧ (s.sw.takes fn mb = true → commandIndex.contains (bits (s.sw.mailbox fn mb).header.toNat 0 16) = false →
      (s.sw.mailbox fn mb).seq ≠ (s.sw.mailbox fn mb).lastSeq → s.sw.entryFull fn = false →
      After (.unlistedOpcode fn mb) s fun t => Answered fn mb mbBadOpcode 0 [] s t ∧ AnswerFrame s t)

/-- A host write is work for the PCIe domain. A 4-byte write of CONTROL of a mailbox whose OWN is clear submits its command in arrival order, one of a mailbox whose OWN is set is ignored and
counted, an unaligned access is answered Unsupported Request; SW_TC0_DROP and EP_CPL_TIMEOUT take the bits named; ones written to SW_EVENT and
EP_EVENT clear those bits; a binding of an agent that runs nothing is written and drops its first-level translations, any other raises BIND_REFUSED. -/
def Obligations.RegisterWritesComplete : Prop :=
  ∀ s : State,
    (s.sw.sys.hostLink = true →
      (∀ fn mb (v : BitVec 64), (if fn = 0 then mb < 16 else mb < 4) →
        ((s.sw.mailbox fn mb).own = false → exec (.registerWrite .sw fn (mb * 0x1000) 4 v) s = .next ((s.work 5 0).onTeller fun t => { t with
          mbox := t.mbox.put (fn * 16 + mb) { s.sw.mailbox fn mb with own := v.getLsbD 0, irq := v.getLsbD 1, seq := v.toNat / 2 ^ 16 % 2 ^ 16 }
          order := if v.getLsbD 0 then t.order ++ [(fn, mb)] else t.order }))
        ∧ ((s.sw.mailbox fn mb).own = true → exec (.registerWrite .sw fn (mb * 0x1000) 4 v) s = .next ((s.work 5 0).count 0 1)))
      ∧ (∀ fn off size (v : BitVec 64), ¬((size = 4 ∨ size = 8) ∧ off % size = 0) →
          exec (.registerWrite .sw fn off size v) s = .next ((s.work 5 0).emit (.unsupported fn off)))
      ∧ (∀ v : BitVec 64, exec (.registerWrite .sw 0 0x10020 4 v) s = .next ((s.work 5 0).onHost fun h => { h with tc0Drop := v.setWidth 32 &&& 0x3FFFFFFF#32 }))
      ∧ ∀ v : BitVec 32, After (.swEventClear v) s fun t => ReportFrame s t ∧ t.sw.host.swEvent = s.sw.host.swEvent &&& ~~~v
          ∧ t.sw.sys.alertRec = (s.sw.sys.alertRec && !v.getLsbD 0) ∧ t.sw.tally = s.sw.tally ∧ t.sw.sys.alert = t.sw.alertWanted)
    ∧ (s.ep.off = false →
      (∀ v : BitVec 64, 10 ≤ v.toNat % 2 ^ 14 → v.toNat % 2 ^ 14 ≤ 10000 →
          exec (.registerWrite .ep 0 8 4 v) s = .next (s.onEp fun e => { e with cplTimeout := BitVec.ofNat 32 (v.toNat % 2 ^ 14) }))
      ∧ (∀ v : BitVec 32, After (.epEventClear v) s fun t => t.sw = s.sw ∧ t.ep.event = s.ep.event &&& ~~~v
          ∧ t.ep = { s.ep with event := t.ep.event, alert := t.ep.event != 0 } ∧ s.out <+: t.out)
      ∧ ∀ agent (v : BitVec 64),
          (s.ep.agentRuns agent = false → exec (.epAgentBindWrite agent v) s = .next
            (s.onEp fun e => { e with bind := e.bind.put agent (v &&& 0xFFFFFFF#64), l1 := e.l1.del agent }).pump)
          ∧ (s.ep.agentRuns agent = true → exec (.epAgentBindWrite agent v) s = .next (s.epEvent 0).pump))

/-- A host access that its aperture or its partition forbids completes with Completer Abort (read) or is dropped and counted (write); any other joins
the accesses in progress and starts in order. A function-level reset clears the OWN and response of its mailboxes and disables its apertures,
PERST_N does so for every function and takes the HOST link down, until its release trains it again, to some generation and width, and both leave memory, the fabric and every other function alone. A PLDM request is
answered from the power, event and domain state, or not acknowledged while the Teller does not run. -/
def Obligations.HostWindowAndResetsComplete : Prop :=
  ∀ s : State,
    (s.sw.sys.hostLink = true → ∀ fn addr,
      let ap := s.sw.host.aperture.get (fn * 64 + addr / 2 ^ 30) 0
      let rd := fun ctag len => ({ id := s.sw.host.nextOp, fn := fn, ctag := some ctag, addr := addr, len := len, aperture := ap } : HostOp)
      let wr := fun data : List Byte => ({ id := s.sw.host.nextOp, fn := fn, addr := addr, len := data.length, data := data, aperture := ap } : HostOp)
      let join := fun o : HostOp => (s.work 5 0).onHost fun h => { h with ops := h.ops ++ [o], nextOp := h.nextOp + 1 }
      (∀ ctag len, (ap.getLsbD 0 = false → exec (.hostWindowRead fn ctag addr len) s = .next ((s.work 5 0).emit (.pcieCpl fn ctag none)))
        ∧ (s.sw.hostRefuses (rd ctag len) = false → exec (.hostWindowRead fn ctag addr len) s = .next (join (rd ctag len)).startOps))
      ∧ ∀ data, ((ap.getLsbD 0 = false ∨ ap.getLsbD 1 = false) → exec (.hostWindowWrite fn addr data) s = .next ((s.work 5 0).count 0 2))
        ∧ (s.sw.hostRefuses (wr data) = false → exec (.hostWindowWrite fn addr data) s = .next (join (wr data)).startOps))
    ∧ (s.sw.sys.hostLink = true → ∀ fn, After (.functionLevelReset fn) s fun t =>
      (∀ mb < 16, t.sw.mailbox fn mb = { s.sw.mailbox fn mb with own := false, rspHeader := 0, ledgerSeq := 0, rsp := [], lastSeq := 0 })
        ∧ (∀ f ≠ fn, ∀ mb < 16, t.sw.mailbox f mb = s.sw.mailbox f mb)
        ∧ (∀ a < 64, t.sw.host.aperture.get (fn * 64 + a) 0 = s.sw.host.aperture.get (fn * 64 + a) 0 &&& ~~~1#64)
        ∧ t.sw.teller.order = s.sw.teller.order.filter (fun c => c.1 != fn)
        ∧ SameMemory s t ∧ t.sw.core = s.sw.core ∧ t.sw.link = s.sw.link ∧ t.sw.ledger = s.sw.ledger ∧ t.sw.sys = s.sw.sys ∧ t.ep = s.ep ∧ t.out = s.out)
    ∧ After .perstNAssert s (fun t => t.sw.sys = { s.sw.sys with perstN := false, hostLink := false }
        ∧ (∀ fn < 16, ∀ mb < 16, (t.sw.mailbox fn mb).own = false) ∧ t.sw.teller.order = s.sw.teller.order.filter (fun c => 16 ≤ c.1)
        ∧ SameMemory s t ∧ t.sw.core = s.sw.core ∧ t.sw.link = s.sw.link ∧ t.sw.ledger = s.sw.ledger ∧ t.ep = s.ep ∧ t.out = s.out)
    ∧ (let up := match s.sw.sys.phase with | .starting _ n => decide (5 < n) | .running => true | .romRecovery => true | .tripHold => true | _ => false
      After .perstNRelease s fun t =>
        t = { s with
          sw := { s.sw with sys := { s.sw.sys with perstN := true, hostLink := up, hostGen := t.sw.sys.hostGen, hostWidth := t.sw.sys.hostWidth } }
          fresh := t.fresh }
        ∧ (up = true → 1 ≤ t.sw.sys.hostGen ∧ t.sw.sys.hostGen ≤ 7 ∧ t.sw.sys.hostWidth ∈ [16, 8, 4, 2, 1])
        ∧ (up = false → t.sw.sys.hostGen = s.sw.sys.hostGen ∧ t.sw.sys.hostWidth = s.sw.sys.hostWidth))
    ∧ (s.sw.teller.state ≠ 0 → ∀ item, exec (.pldmRequest item) s = .next (s.emit .i3cNak))
    ∧ (s.sw.teller.state = 0 →
      exec (.pldmRequest .events) s = .next (s.emit (.pldm .events (s.sw.tally.nextSeq - 1)))
      ∧ exec (.pldmRequest .pace) s = .next (s.emit (.pldm .pace (if s.sw.sys.strongroom then 0 else s.sw.power.p)))
      ∧ exec (.pldmRequest .power) s = .next (s.emit (.pldm .power (if s.sw.sys.strongroom then s.sw.power.average / 4 * 4 else s.sw.power.average)))
      ∧ (∀ k i, exec (.pldmRequest (.domain k i)) s = .next (s.emit (.pldm (.domain k i) (s.sw.domain k i).state)))
      ∧ ∀ n, exec (.pldmRequest (.temperature n)) s
          = .next { s with fresh := s.fresh + 1, out := s.out ++ [.pldm (.temperature n) (Config.freeBits s.fresh)] })

/-- At the secondary a LINE that is next in order is stored as ciphertext and check bytes and acknowledged; a record of another sender is discarded and
counted. At the primary an ACK settles every LINE up to its SEQ, a LINE not acknowledged in time leaves the region SINGLE with a PARTNER_LOST
record, and one resilver copy sends the next line, where reading it finds no error. -/
def Obligations.MirrorCommandsComplete : Prop :=
  ∀ (s : State) (p : Pair),
    (∀ rid (r : MirrorRec), s.sw.sys.hostLink = true → s.sw.mem.pair.find r.region = some p →
      (p.partner ≠ rid → exec (.mirrorLine rid r) s = .next ((s.work 5 0).count 0 3) ∧ exec (.mirrorAck rid r) s = .next ((s.work 5 0).count 0 3))
      ∧ (p.partner = rid → p.primary = false → r.line / 0x800000 = r.region → p.early = [] → r.seq = p.stored + 1 →
          After (.mirrorLine rid r) s fun t => t.sw.mem.home = s.sw.mem.home.storeCipher r.line r.data r.check
            ∧ t.sw.mem.pair.find r.region = some { p with
                stored := r.seq, state := if r.line = r.region * 0x800000 + 0x7FFFFF ∧ p.state = .resilvering then .paired else p.state }
            ∧ (∀ g ≠ r.region, t.sw.mem.pair.find g = s.sw.mem.pair.find g) ∧ t.ep = s.ep
            ∧ t.out = s.out ++ [.mirror rid { kind := 2, region := r.region, source := s.sw.sys.homeId, seq := r.seq }])
      ∧ (p.partner = rid → After (.mirrorAck rid r) s fun t =>
          t.sw.mem.pair.find r.region = some { p with
            unacked := p.unacked.filter fun q => decide (r.seq < q), held := p.held.filter fun h => decide (r.seq < h.1) }
          ∧ t.sw.mem.home = s.sw.mem.home ∧ (∀ g ≠ r.region, t.sw.mem.pair.find g = s.sw.mem.pair.find g) ∧ t.ep = s.ep))
    ∧ ∀ g, s.sw.mem.pair.find g = some p →
      (∀ seq, seq ∈ p.unacked → After (.mirrorAckTimeout g seq) s fun t =>
        t.sw.mem.pair.find g = some { p with state := .single, unacked := [], held := p.held.filter fun h => decide (p.unacked.foldl max 0 < h.1) }
        ∧ t.sw.mem.home = s.sw.mem.home ∧ t.ep = s.ep ∧ ∃ r ∈ t.sw.tally.faults, r.kind = 0x35)
      ∧ (p.primary = true → p.state = .resilvering → p.cursor < 0x800000 → (∀ c < 4, (s.sw.chan (4 * (g * 0x40000000 / 0x3C00000000) + c)).fenced = false) →
        let l := g * 0x800000 + p.cursor
        s.lineRead l = s → After (.resilverCopy g) s fun t =>
          t.sw.mem.pair.find g = some { p with nextSeq := p.nextSeq + 1, unacked := p.unacked ++ [p.nextSeq], cursor := p.cursor + 1
                                               state := if p.cursor + 1 = 0x800000 then .paired else .resilvering }
          ∧ t.out = s.out ++ [.mirror p.partner { kind := 1, region := g, source := s.sw.sys.homeId, seq := p.nextSeq, line := l
                                                  check := t.sw.mem.home.check l, data := t.sw.mem.home.cipher l }]
          ∧ t.ep = s.ep)

/-- A frame that no rule of the queue decision discards joins the internal queue of its unit or the queue of its output port, in the cells it was placed
in, its credits returned as placed; one of a forbidden type is counted and dropped; a red frame of another class than TC0 stays, placed, at the head of
its channel, which is owed its credits. A round moves a whole frame that alone waits to its internal output, or out of its port. A sample adds depth and
delay to the record of every queue. A refill adds each rate up to the burst and puts staged settings in force with full buckets, but for one that an
armed package, taken later and active since the same point, has set. -/
def Obligations.ArrivalMatcherSampleRefillComplete : Prop :=
  ∀ s : State,
    (∀ p f colour u, (s.sw.getLink p).state = .active →
      let s1 := (s.count (0x100 + p) 45).work 0 p
      let vc := s1.sw.vcIn p f
      let placed := s1.placeFrame p vc f true 0
      let b := { placed.1 with red := colour }
      placed.2.sw.core.held.get (p * 16 + vc) [] = [] → placed.2.markFrame p f = (colour, u) →
      (colour = 2 → f.cls ≠ 0 → exec (.frameArrival p f) s
        = .next ((u.onCore fun k => { k with held := k.held.put (p * 16 + vc) [placed.1] }).returnCredit p vc (b.sched + b.shared)))
      ∧ (colour ≠ 2 ∨ f.cls = 0 →
        let v := u.returnCredit p vc (if f.cls = 0 then b.cells else b.sched + b.shared)
        (typeAllowed f.cls f.typ = false → exec (.frameArrival p f) s = .next ((v.count (0x100 + p) 5).freeCells b))
        ∧ (typeAllowed f.cls f.typ = true → v.sw.badSubtype f = false → f.sparseOk = true → v.sw.stale f = false → v.sw.masked p f = false →
          v.sw.fencedAt p f = false →
          (f.dest = s.sw.sys.homeId → v.sw.dropsEarly (qKey (v.sw.homeOut f) f.cls) colour f = false →
            exec (.frameArrival p f) s = .next ((v.answered p f).join (qKey (v.sw.homeOut f) f.cls) b))
          ∧ ∀ out, f.dest ≠ s.sw.sys.homeId → v.sw.route f.dest = some out →
            let key := qKey out (v.sw.vcOf out f.cls (v.sw.cameAfter p f.src))
            v.sw.dropsEarly key colour f = false → v.sw.outTakes out f = true →
            exec (.frameArrival p f) s = .next ((v.answered p f).join key b))))
    ∧ (∀ o q b, s.sw.core.queue = [(o * 16 + q, [b])] → s.sw.core.lock = [] → s.sw.core.waiting = [] → b.tile < 16 → b.whole = true →
      s.sw.escrow.held = [] → s.sw.xlat.inval = [] → (∀ e, (s.sw.getEngine e).task = none) →
      (64 ≤ o → o < 87 → q < 8 → After .matcherRound s fun t => t.sw.core.queue.get (o * 16 + q) [] = []
        ∧ t.sw.core.inbox.get o [] = s.sw.core.inbox.get o [] ++ [b] ∧ (∀ k ≠ o, t.sw.core.inbox.get k [] = s.sw.core.inbox.get k [])
        ∧ t.sw.core.grantPtr.get o 0 = (b.tile + 1) % 16 ∧ t.sw.core.acceptPtr.get b.tile 0 = (o + 1) % 87 ∧ t.sw.mem = s.sw.mem ∧ t.sw.escrow = s.sw.escrow)
      ∧ (o < 64 → q ∈ queueOrder s.sw.sys o false → s.eligible o q b = true → aged s.sw.sys.cfg s.sw.clock.now b.f = false ∨ 64 ≤ b.src →
        After .matcherRound s fun t => t.sw.core.queue.get (o * 16 + q) [] = []
          ∧ (let f := if 64 ≤ b.src then { b.f with age := ageStamp s.sw.clock.now b.f.cls } else b.f
             Out.frame .sw o (if isEdge s.sw.sys o then { f with inc := s.sw.incFor (s.sw.peer o) } else f) ∈ t.out)
          ∧ t.sw.core.spent.get (o * 16 + q) 0 = s.sw.core.spent.get (o * 16 + q) 0 + b.cells ∧ t.sw.mem = s.sw.mem ∧ t.sw.escrow = s.sw.escrow))
    ∧ ((∀ e ∈ s.sw.core.queue ++ s.sw.core.inbox ++ s.sw.core.held, ∀ b ∈ e.2, overstayed s.sw.clock.now b.at_ b.f.cls = false) →
      (∀ e ∈ s.sw.core.held, e.2 ≠ []) → (∀ e ∈ s.sw.core.cut, overstayed s.sw.clock.now e.2.b.at_ e.2.b.f.cls = false) → s.sw.core.unlock = s.sw.core →
      After .queueSample s fun t => t = { s with sw := { s.sw with tally := { s.sw.tally with queue := t.sw.tally.queue } } }
        ∧ ∀ o < 64, ∀ q < 16,
          let l := s.sw.core.queue.get (o * 16 + q) []
          t.sw.tally.queue.get (o * 16 + q) {} = (s.sw.tally.queue.get (o * 16 + q) {}).sample (l.foldl (fun n b => n + b.cells) 0)
            ((l.head?.map fun b => min (2 ^ 20 - 1) ((s.sw.clock.now - b.at_) / 1024)).getD 0) (l.head?.map fun b => b.f.partition))
    ∧ (s.sw.core.held = [] →
      (s.sw.core.shaperStaged = [] → s.sw.core.policerStaged = [] → exec .bucketRefill s = .next (s.onCore fun c => { c with
        shaper := c.shaper.mapVals fun _ b => { b with tokens := min (b.tokens + b.rate) (b.burst * 256) }
        policer := c.policer.mapVals fun _ x => { x with tc := min (x.tc + x.cir) (x.cbs * 256), tp := min (x.tp + x.pir) (x.pbs * 256) } }))
      ∧ ∀ k b c, s.sw.core.shaperStaged = [(k, b, c)] → s.sw.core.policerStaged = [] →
        After .bucketRefill s fun t => t.sw.core.shaper.find k
            = (if s.sw.sched.yields (s.sw.clock.now / 0x40000 * 0x40000) c then (s.sw.core.shaper.find k).map fun x => { x with tokens := min (x.tokens + x.rate) (x.burst * 256) }
               else some { b with tokens := b.burst * 256 }) ∧ t.sw.core.shaperStaged = []
          ∧ t.sw.core.queue = s.sw.core.queue ∧ t.sw.mem = s.sw.mem ∧ t.ep = s.ep)

/-- At the end of an entry the port begins the next entry of its list, after the last the first. At a cycle boundary every port of the device begins
entry 0; a pending book takes effect; an armed package becomes active and the one before it stands by. -/
def Obligations.GatesAndCyclesComplete : Prop :=
  ∀ (s : State) (d : Dev),
    (∀ p, After (.gateEntryEnd d p) s fun t =>
      let g := s.getGate d p
      let l := s.gateList d p
      t.getGate d p = { g with entry := if g.entry + 1 < l.length then g.entry + 1 else 0
                               began := g.began + ((((l.drop g.entry).head?).map Prod.snd).getD 0) * 1024 }
        ∧ (∀ q, q ≠ p → t.getGate d q = s.getGate d q) ∧ t.getSched d = s.getSched d ∧ SameMemory s t)
    ∧ (∀ a cycle, (s.getSched d).active = some a → (s.getSched d).armed = none →
      After (.cycleBoundary d cycle) s fun t => (t.getSched d).cycle = cycle ∧ (t.getSched d).active = some a
        ∧ (∀ p < portCount d, (t.getGate d p).entry = 0 ∧ (t.getGate d p).began = a.instant cycle) ∧ SameMemory s t
        ∧ (t.getSched d).book = match (s.getSched d).pending_ with | some c => if c.cycle ≤ cycle then c.book else (s.getSched d).book | none => (s.getSched d).book)
    ∧ ∀ k n cycle, (s.getSched d).armedBoundary = some (cycle, k, n) →
      After (.cycleBoundary d cycle) s fun t => (t.getSched d).active = some k ∧ (t.getSched d).standby = (s.getSched d).active ∧ (t.getSched d).armed = none
        ∧ (t.getSched d).cycle = n ∧ (∀ p < portCount d, (t.getGate d p).entry = 0 ∧ (t.getGate d p).began = k.instant n) ∧ SameMemory s t

/-- A read that nothing refuses and no Busy line holds is answered with the bytes of its range, or with ECC where they cannot be read; READ carries the
CACHE value of its region, READ_VOL NONE. In a COHERENT region READ_SHARED and READ_OWN of a line that no end-point holds are granted E, a CLAIM of
a line that the requester alone holds S is granted E, and a CLAIM by an end-point that does not hold the line is answered without a grant; outside
COHERENT regions they are served as a READ, recorded as MODE_MISMATCH. -/
def Obligations.SwitchHomeReadsComplete : Prop :=
  ∀ (s : State) (pos : Nat) (f : Frame), Open f s →
    let u := s.atUnit pos f
    let coh := decide (u.sw.modeAt f.offset = 1)
    let read := fun (v : State) (cache : Nat) => match v.readRange f with
      | (none, w) => w.homeRespond f 6 [] 0
      | (some d, w) => w.homeRespond f 0 d cache
    let mine : DirEntry := { line := f.offset / 128, state := .em, owner := f.src, keySlot := f.keySlot }
    let busy : Busy := { line := f.offset / 128, stage := .ack, pos := pos, f := f, next := some mine }
    let mismatch := u.record { kind := 0x11, index := 0, partition := f.partition }
    (f.typ = 1 → coh = false ∨ u.sw.takeBack f = none → exec (.read .sw pos f) s = .next (read u (if coh then 0 else u.sw.readCache f)))
    ∧ (f.typ = 2 → coh = false ∨ u.sw.takeBack f = none → exec (.readVol .sw pos f) s = .next (read u 0))
    ∧ (f.typ = 3 →
      (coh = false → exec (.readShared .sw pos f) s = .next (read mismatch (mismatch.sw.readCache f)))
      ∧ (coh = true → u.sw.epFenced f.src = false → u.sw.entry (f.offset / 128) = none → u.sw.hasWay (f.offset / 128) = true → ∀ d w, u.readRange f = (some d, w) →
          exec (.readShared .sw pos f) s = .next ((w.putBusy busy).homeRespond f 0 d 2)))
    ∧ (f.typ = 4 →
      (coh = false → exec (.readOwn .sw pos f) s = .next (read mismatch (mismatch.sw.readCache f)))
      ∧ (coh = true → u.sw.epFenced f.src = false → u.sw.entry (f.offset / 128) = none → u.sw.hasWay (f.offset / 128) = true → ∀ d w, u.readRange f = (some d, w) →
          exec (.readOwn .sw pos f) s = .next ((w.putBusy busy).homeRespond f 0 d 2)))
    ∧ (f.typ = 5 →
      (coh = false → exec (.claim .sw pos f) s = .next (mismatch.homeRespond f 0 [] 0))
      ∧ (coh = true → u.sw.epFenced f.src = false →
          (u.sw.entry (f.offset / 128) = none → exec (.claim .sw pos f) s = .next (u.homeRespond f 0 [] 0))
          ∧ ∀ e, u.sw.entry (f.offset / 128) = some e → e.state = .s → e.sharers = [f.src] →
            exec (.claim .sw pos f) s = .next ((u.putBusy { busy with next := some { mine with keySlot := e.keySlot } }).homeRespond f 0 [] 2)))

/-- A store that nothing refuses, whose lines no end-point holds as COHERENT copies and whose partly written lines can be read, stores its bytes and is
answered OK once a mirrored line is acknowledged; WRITE_LOG also enters the input log, a DEPOSIT of a DIRECT region fills no cache, and an ATOMIC
stores the result of its operation on the old value and returns that value where it asks for it. A store whose lines are held asks the holders
first. -/
def Obligations.SwitchHomeStoresComplete : Prop :=
  ∀ (s : State) (pos : Nat) (f : Frame), Open f s →
    let u := s.atUnit pos f
    let lines := if inPool f.offset 1 then f.lines else []
    (∀ e targets, u.sw.modeAt f.offset = 1 → u.sw.takeBack f = some (e, targets) →
      let asked := u.ask pos f e targets { line := e.line, stage := .again }
      (f.typ = 8 → exec (.write .sw pos f) s = .next asked) ∧ (f.typ = 9 → exec (.writeLog .sw pos f) s = .next asked)
      ∧ (f.typ = 10 → exec (.deposit .sw pos f) s = .next asked) ∧ (f.typ = 16 → exec (.atomic .sw pos f) s = .next asked))
    ∧ (u.sw.modeAt f.offset ≠ 1 ∨ u.sw.takeBack f = none →
      (∀ v, u.partsReadable f = (true, v) →
        let w := v.writeRange f (padTo f.length f.data)
        (f.typ = 8 → exec (.write .sw pos f) s = .next (w.homeFinish f pos [] lines))
        ∧ (f.typ = 9 → exec (.writeLog .sw pos f) s
            = .next ((w.logInput f s.sw.sys.homeId f.src f.agent (padTo f.length f.data)).homeFinish f pos [] lines)))
      ∧ (f.typ = 10 → u.sw.modeAt f.offset = 3 →
          exec (.deposit .sw pos f) s = .next ((u.writeRange f (padTo 128 f.data)).homeFinish f pos [] (if inPool f.offset 1 then [f.offset / 128] else [])))
      ∧ ∀ old v, f.typ = 16 → aopOf f.opx ≤ 8 →
          let g := { f with length := if aopOf f.opx = 8 then f.length / 2 else f.length }
          u.readRange g = (some old, v) →
          exec (.atomic .sw pos f) s = .next ((v.writeRange g (atomicApply f.opx f.ext s.sw.clock.now old (padTo f.length f.data)).1).homeFinish f pos
            (if atomicReturns f.opx then old else []) lines))

/-- A memory request that arrives at an end-point home on a live port returns its credits and joins the requests of that home in order, under the type
of its row. -/
def Obligations.EndPointHomeRequestsComplete : Prop :=
  ∀ (s : State) (p : Nat) (f : Frame) (i : Nat → Instr),
    (i 1 = .read .ep p f ∧ i 2 = .readVol .ep p f ∧ i 3 = .readShared .ep p f ∧ i 4 = .readOwn .ep p f ∧ i 5 = .claim .ep p f ∧ i 8 = .write .ep p f
      ∧ i 9 = .writeLog .ep p f ∧ i 10 = .deposit .ep p f ∧ i 16 = .atomic .ep p f) →
    s.ep.portLive p = true → s.ep.off = false → s.ep.accepts f = true → s.ep.verdict = false → f.typ ∈ [1, 2, 3, 4, 5, 8, 9, 10, 16] →
    exec (i f.typ) s = .next ({ s with
      out := s.out ++ [.ctrl .ep p (.credit [(f.cls, f.cells)])]
      ep := { s.ep with homeReqs := s.ep.homeReqs ++ [{ port := p, f := f, utag := 65536 }] } } : State).pump

/-- A line operation begins the request that is next at its unit, has an entry freed for each that still waits for one, and counts a step; a request
that has waited for the home busy limit completes with HOME_BUSY_TIMEOUT unperformed. A write to a fabric mailbox of the partition enters its image
and is answered OK, a read returns the STATUS record, and an access that no mailbox serves completes with BAD_ADDRESS. -/
def Obligations.UnitAndMailboxEventsComplete : Prop :=
  ∀ s : State,
    (∀ unit < 16,
      (s.sw.nextWaiting unit = none → exec (.lineOperation unit) s = .next ((s.evictWaiting unit).onUnit unit fun t => { t with step := t.step + 1, begun := [] }))
      ∧ (∀ a, s.sw.nextWaiting unit = some (a, false) → s.sw.mergeRun unit a = [] →
          exec (.lineOperation unit) s = .next ((((s.unqueue unit a).serve a.pos a.f).evictWaiting unit).onUnit unit fun t =>
            { t with step := t.step + 1, begun := [] }))
      ∧ ∀ idx x, (s.sw.unit unit).retry[idx]? = some x → exec (.homeBusyTimeout unit idx) s = .next ((s.unqueue unit x).homeRespond x.f 7 [] 0))
    ∧ ∀ pos f, aged s.sw.sys.cfg s.sw.clock.now f = false →
      let u := s.takeInbox 86 f
      let m := (f.offset - 0x3FF00000000) / 0x10000
      let o := (f.offset - 0x3FF00000000) % 0x10000
      let x := s.sw.getMbox m
      let answer := fun (v : State) st d => v.swSend 86 (f.response s.sw.sys.homeId st d)
      (s.sw.mailboxRefuses f = true → exec (.fabricMailboxWrite pos f) s = .next (answer u 5 []) ∧ exec (.fabricMailboxRead pos f) s = .next (answer u 5 []))
      ∧ (s.sw.mailboxRefuses f = false →
        (f.typ = 8 → 0 < o → (o + f.length ≤ 0x40 ∨ 0x400 ≤ o ∧ o + f.length ≤ 0xC00 ∨ 0x1000 ≤ o ∧ o + f.length ≤ 0x5000) →
          ∃ image : Tab Byte, exec (.fabricMailboxWrite pos f) s = .next (answer (u.putMbox m { x with filling := true, image := image }) 0 [])
            ∧ ∀ a, image.get a 0 = if o ≤ a ∧ a < o + f.length then (f.data[a - o]?).getD 0 else x.image.get a 0)
        ∧ (0x40 ≤ o → o + f.length ≤ 0x80 →
          exec (.fabricMailboxRead pos f) s = .next (answer u 0 (slice (leBytes 1 (b2n x.filling) ++ leBytes 1 x.result ++ leBytes 1 x.task ++ leBytes 1 x.slot
            ++ leBytes 4 x.tag ++ leBytes 56 0) (o - 0x40) f.length))))

/-- A response completes the request of its port and tag, at the switch with its status and data, at the AKG-8 after what it brings is installed as
CACHE allows; a late one is counted (switch) or dropped. A timeout completes the request with TIMEOUT, withdraws its frame if that has not left, and
keeps its tag out of use until the quarantine ends; a request held in its core stage, and an engine's task or an agent's request that waits for a
translation, has no tag and ends with TIMEOUT there. -/
def Obligations.ResponsesComplete : Prop :=
  ∀ (s : State) (p tag : Nat) (f : Frame),
    let row := fun d => if f.typ = 0x20 then Instr.readRsp d p f else if f.typ = 0x21 then Instr.writeRsp d p f
      else if f.typ = 0x22 then Instr.atomicRsp d p f else Instr.fwdData d p f
    (f.typ ∈ [0x20, 0x21, 0x22] → ∀ x : Option Flight, s.sw.escrow.flight.find? (fun y => y.port == p && y.tag == f.tag) = x →
      exec (row .sw) s = .next (match x with
        | some x => (s.taken f).completeFlight x f.status (if f.status = 0 then f.data else [])
        | none => (s.taken f).count 0 0))
    ∧ (f.typ ∈ [0x20, 0x21, 0x22, 0x2A] → EpTakes p f s →
      (s.ep.flightAt p f.tag = none → exec (row .ep) s = .next (s.credited p f).pump)
      ∧ ∀ x order i, s.ep.flightAt p f.tag = some x →
        let u := ((s.credited p f).fillFrom x f).dropEpFlight p f.tag
        (x.kind = .grant order i → exec (row .ep) s = .next (u.granted x order i f.status).pump)
        ∧ ∀ q y, x.kind = .req order i → u.ep.piece order i = some (q, y) → exec (row .ep) s = .next (u.endPiece order i f.status
            (if f.status ≠ 0 then [] else if x.f.typ = 0x10 then padTo f.length f.data
             else if x.f.length = f.length ∧ isMemReq x.f.typ = true then slice (padTo f.length f.data) (y.off - x.f.offset) y.len else [])).pump)
    ∧ (∀ x, s.sw.escrow.flight.find? (fun y => y.port == p && y.tag == tag) = some x →
      exec (.completionTimeout .sw p (.flight tag)) s = .next (((s.withdrawFlight x).onEscrow fun e =>
        { e with quarantine := (p * 4096 + tag) :: e.quarantine }).completeFlight x 9 []))
    ∧ (∀ order x, s.sw.escrow.held.find? (fun y => y.order == order) = some x →
      exec (.completionTimeout .sw p (.held order)) s
        = .next ((s.onEscrow fun e => { e with held := e.held.filter fun y => y.order != x.order }).endFlight x 9 []).flightsGo)
    ∧ (∀ n slot t x, n < 256 → (s.sw.getEngine n).task = some (slot, t) → s.sw.getTask slot t = some x → x.xwait.isSome = true → x.state = .running →
      x.result = none → exec (.completionTimeout .sw p (.miss n)) s = .next (s.endTask slot t 9))
    ∧ (∀ order q, s.ep.off = false → s.ep.reqs.find? (fun q => q.order == order) = some q → q.checked = false →
      exec (.completionTimeout .ep p (.held order)) s = .next (s.endReq q 9 []).pump)
    ∧ (∀ x, s.ep.off = false → s.ep.flightAt p tag = some x →
      exec (.completionTimeout .ep p (.flight tag)) s = .next (((if x.sent then s.dropEpFlight p tag else s.withdraw x).onEp fun e =>
        { e with quarantine := (p * 4096 + tag) :: e.quarantine }).epAbandon x 9).pump)
    ∧ exec (.tagQuarantineEnd .sw p tag) s = .next (s.onEscrow fun e => { e with quarantine := e.quarantine.filter (· != p * 4096 + tag) }).flightsGo
    ∧ (s.ep.off = false → exec (.tagQuarantineEnd .ep p tag) s
        = .next (s.onEp fun e => { e with quarantine := e.quarantine.filter (· != p * 4096 + tag) }).pump)

/-- A holder's answer is taken off the list that its Busy line awaits and its copy off the directory entry, and the line goes on when all are in; the
data of a holder that is awaited, or of the owner that writes back, is stored before anyone is answered; a COH_ACK that does not decline leaves the
entry that the grant named, and one for a deposit's fill answers the depositor. REGION_DONE ends the wait for the old owner. An end-point whose
answer is late has a verdict unless the Teller restarts, and a region whose old owner is late is LOST. -/
def Obligations.SwitchCoherenceFramesComplete : Prop :=
  ∀ (s : State) (p : Nat) (f : Frame),
    let u := s.taken f
    let l := f.offset / 128
    (f.opxBits 38 36 = 6 → exec (.snoopRsp .sw p f) s = .next (u.onHome fun h => { h with
        jobs := h.jobs.map fun j => if j.region == f.offset / 0x200000 && j.awaitOwner == some f.src then { j with awaitOwner := none } else j }).regionCheck)
    ∧ (∀ b, f.opxBits 38 36 ≠ 6 → u.sw.busy l = some b →
      (b.stage = .again → b.await.find? (fun a => a.1 == f.src) = some (f.src, 2) → exec (.snoopRsp .sw p f) s
        = .next (((u.dropHolder l f.src).putBusy { b with await := b.await.filter fun a => a.1 != f.src }).advance l).regionCheck))
    ∧ (∀ b, u.sw.busy l = some b →
      (b.await.any (fun a => a.1 == f.src) = true → (u.sw.chan (channelOf (l * 128))).fenced = false → exec (.fwdData .sw p f) s
        = .next (u.writeLine l (u.sw.slotAt (l * 128) (((u.sw.entry l).map (·.keySlot)).getD f.keySlot)) f.data).regionCheck)
      ∧ (b.stage = .ack → b.f.src = f.src → exec (.cohAck .sw p f) s = .next (if f.opxBits 36 36 = 1 then u.endBusy l else match b.next with
          | some e => (u.endBusy l).putEntry e
          | none => u.endBusy l).regionCheck)
      ∧ (b.stage = .fill f.src → f.opxBits 36 36 = 1 → exec (.cohAck .sw p f) s = .next ((u.endBusy l).homeAfterMirror b.f b.pos).regionCheck)
      ∧ ∀ h, b.stage = .again → b.await.any (fun a => a.1 == h) = true → s.sw.teller.state ≠ 1 →
          After (.coherenceAnswerTimeout .sw l h) s fun t => (t.sw.epRec h).verdict = true)
    ∧ (u.sw.entry l = none → exec (.writeback p f) s = .next (u.count 0 4).regionCheck)
    ∧ (∀ e, u.sw.entry l = some e → e.state ≠ .s → e.owner = f.src → u.sw.busy l = none → (u.sw.chan (channelOf (l * 128))).fenced = false →
      exec (.writeback p f) s = .next ((u.writeLine l (u.sw.slotAt (l * 128) e.keySlot) f.data).dropHolder l f.src).regionCheck)
    ∧ ∀ region j h, s.sw.mem.home.jobs.find? (fun j => j.region == region && j.awaitOwner.isSome) = some j → j.awaitOwner = some h →
      After (.handoverTimeout .sw region) s fun t => (s.sw.teller.state ≠ 1 → (t.sw.epRec h).verdict = true)
        ∧ (t.sw.mem.home.region.get region {}).lost = true

/-- At an AKG-8 that takes the frame: a SNOOP or line BACK_INV for a line under the hold of a fill is held; for a line that it does not hold COHERENT it
is answered with what the write-back record says; a BACK_INV of a held line drops it, a dirty one by a WRITEBACK; a SNOOP of KIND INVALIDATE, or of any
KIND for a line held S, drops it, SHARE_FWD and OWN_FWD send the line to the requester, FETCH_SHARE and FETCH_INV to the home, and the two SHARE kinds
keep it; a region BACK_INV flushes the region. A DEPOSIT_FILL that may be installed is, in the state of its CACHE value, and is acknowledged, but is
discarded again where the die's own store to the line is out; any other is declined. The end of a hold clears it and answers what it held, in order. COH_ACK answers the depositor, and its timeout first fences the end-point
named; REGION_DONE ends the wait of a region, and its timeout fences the old owner and leaves the region LOST. -/
def Obligations.EndPointCoherenceFramesComplete : Prop :=
  ∀ (s : State) (p : Nat) (f : Frame),
    let u := s.credited p f
    let fga := f.src * 2 ^ 42 + f.offset / 128 * 128
    (EpTakes p f s →
      (((s.ep.anyWay fga).any fun w => w.hold) = true →
        let held := u.onEp fun e => { e with snoops := e.snoops ++ [{ port := p, fga := fga, f := f }] }
        (f.typ = 0x28 → exec (.snoop p f) s = .next held.pump)
        ∧ (f.typ = 0x2D → f.opxBits 36 36 = 0 → exec (.backInv p f) s = .next held.pump))
      ∧ (((s.ep.anyWay fga).any fun w => w.hold || w.state.coherent) = false →
        let gone := if s.ep.wbRecord.contains fga then 5 else 0
        (f.typ = 0x28 → exec (.snoop p f) s = .next (u.snoopRsp p f fga gone).pump)
        ∧ (f.typ = 0x2D → f.opxBits 36 36 = 0 → exec (.backInv p f) s = .next (u.snoopRsp p f fga gone).pump))
      ∧ (∀ w, s.ep.anyWay fga = some w → w.hold = false → w.state.coherent = true →
        let kind := f.opxBits 38 36
        let fwd := fun cache => (({ u.ep.cohFrame 0x2A (f.extBits 9 0) fga f.partition f.keySlot (f.extBits 21 10) with
          agent := f.extBits 27 22 } : Frame).withData w.data).withCache cache
        let back := u.epSend p ((u.ep.cohFrame 0x2A f.src fga f.partition f.keySlot f.tag).withData w.data)
        (f.typ = 0x28 →
          (kind = 2 ∨ w.state = .s → exec (.snoop p f) s = .next ((u.dropWay fga false).snoopRsp p f fga 1).pump)
          ∧ (w.state ≠ .s →
            (kind = 0 → exec (.snoop p f) s = .next (((u.epSend p (fwd 1)).onWay fga fun x => { x with state := if x.state.dirty then .o else .s }).snoopRsp
                p f fga (if w.state.dirty then 3 else 2)).pump)
            ∧ (kind = 1 → exec (.snoop p f) s
                = .next (((u.epSend p (fwd (if w.state.dirty then 3 else 2))).dropWay fga false).snoopRsp p f fga 4).pump)
            ∧ (kind = 3 → exec (.snoop p f) s = .next ((back.onWay fga fun x => { x with state := .s }).snoopRsp p f fga 2).pump)
            ∧ (3 < kind → exec (.snoop p f) s = .next ((back.dropWay fga false).snoopRsp p f fga 4).pump)))
        ∧ (f.typ = 0x2D → f.opxBits 36 36 = 0 → exec (.backInv p f) s
            = .next (if w.state.dirty then u.dropWay fga true else (u.dropWay fga false).snoopRsp p f fga 1).pump))
      ∧ (f.opxBits 36 36 = 1 → exec (.backInv p f) s = .next (u.epRegionInv p f).pump)
      ∧ (let ack := fun (v : State) n => v.epSend p { v.ep.cohFrame 0x2C f.src fga f.partition f.keySlot f.tag with opx := opxAt n 36 }
         (fillState f.cache = none → exec (.depositFill p f) s = .next (ack u 1).pump)
         ∧ ∀ c, fillState f.cache = some c →
           (s.ep.takesFill fga f.partition c.coherent = false → exec (.depositFill p f) s = .next (ack u 1).pump)
           ∧ (s.ep.takesFill fga f.partition c.coherent = true →
             let v := (u.freeForFill fga).install
               { fga := fga, partition := f.partition, keySlot := f.keySlot, state := c, gen := s.ep.gen.get f.partition 0, data := padTo 128 f.data }
             exec (.depositFill p f) s = .next (ack (if v.ep.storeOut fga then v.discardLines fun w => w.fga == fga else v) 0).pump))
      ∧ (∀ x, s.ep.homeReqs.find? (fun x => x.stage == 3 && x.f.ext.toNat == f.src && x.f.offset / 128 == f.offset / 128) = some x →
          exec (.cohAck .ep p f) s = .next (u.homeEnd x 0 [] 0).pump)
      ∧ (f.opxBits 38 36 = 6 →
          let done := fun j : RegionJob => if j.region == f.offset / 0x200000 && j.awaitOwner == some f.src then { j with awaitOwner := none } else j
          exec (.snoopRsp .ep p f) s = .next (u.onEpHome fun h => { h with jobs := h.jobs.map done }).epRegionCheck.pump))
    ∧ (s.ep.off = false →
      (∀ a, let held := s.ep.snoops.filter fun h => h.fga == a / 128 * 128
        exec (.holdEnd a) s = .next (State.each ((s.onWay (a / 128 * 128) fun w => { w with hold := false }).onEp fun e =>
          { e with snoops := e.snoops.filter fun h => h.fga != a / 128 * 128 }) held fun s h => s.answerSnoop h.port h.f).pump)
      ∧ (∀ line h, (s.ep.homeReqs.any fun x => x.stage == 3 && x.f.ext.toNat == h && x.f.offset / 128 == line) = true →
          exec (.coherenceAnswerTimeout .ep line h) s = .next ((s.epFencePeer h).fillAcked h line).pump)
      ∧ ∀ region j h, s.ep.home.jobs.find? (fun j => j.region == region && j.awaitOwner.isSome) = some j → j.awaitOwner = some h →
          exec (.handoverTimeout .ep region) s = .next ((s.epFencePeer h).epRegionLost region).pump)

/-- A miss for a rack without a table base is a NO_SEGMENT fault answered SEG_FAULT, any other starts the host read of its context entry; the entry
answers an end-point that alone waits for it with the one descriptor that covers its address, or records the fault that the entry has and answers
SEG_FAULT; a read made stale by an invalidation is issued again, and a read that fails, at once where the host cannot be read, answers TIMEOUT and
records TABLE_READ. The answer at the AKG-8 is held in both levels and what waited for it goes on. -/
def Obligations.TranslationRowsComplete : Prop :=
  ∀ (s : State) (p : Nat) (f : Frame),
    let u := s.taken f
    let ctx := f.opxBits 51 36
    (f.typ = 0x30 →
      (s.sw.tableAddr ctx = none →
        let o : Occurrence := { kind := 1, partition := f.partition, status := 0xA, detail := leBytes 2 ctx ++ leBytes 1 0xFF }
        exec (.translateReq p f) s = .next ((u.record o).answerMiss f 0xA []))
      ∧ (∀ a, s.sw.tableAddr ctx = some a → s.sw.missRoom ctx = true → s.sw.xlat.reads.find? (fun r => r.ctx == ctx) = none → s.sw.hostReads = true →
        exec (.translateReq p f) s = .next ((u.onXlat fun x => { x with
          reads := x.reads ++ [{ ctx := ctx, id := x.nextRead, waiters := [.endpoint p f] }], nextRead := x.nextRead + 1 }).emit (.pcieRead a 1024)))
      ∧ (∀ a, s.sw.tableAddr ctx = some a → s.sw.xlat.reads.find? (fun r => r.ctx == ctx) = none → s.sw.hostReads = false →
        let o : Occurrence := { kind := 5, partition := f.partition, status := 9, detail := leBytes 2 ctx ++ leBytes 1 0xFF, group := some u.sw.xlat.nextRead }
        exec (.translateReq p f) s = .next (((u.record o).onXlat fun x => { x with nextRead := x.nextRead + 1 }).answerMiss f 9 [])))
    ∧ (∀ x who cva, EpTakes p f s → s.ep.flightAt p f.tag = some x → x.kind = .translate who cva →
      let v := (s.credited p f).dropEpFlight p f.tag
      exec (.translateRsp p f) s = .next ((if f.status = 0 then v.epHold x.agent x.ctx (decodeDesc f.data) else v).xlatDone who cva f.status).pump)
    ∧ ∀ ctx r, s.sw.xlat.reads.find? (fun r => r.ctx == ctx) = some r →
      let gone := s.onXlat fun x => { x with reads := x.reads.filter fun q => q.ctx != r.ctx, serving := some r.id }
      let goOn := fun v : State =>
        let v := v.onXlat fun x => { x with serving := none }
        (v.retranslate v.sw.unasked).escrowSettle
      (∀ data, r.stale = true → s.sw.hostReads = false → exec (.tableReadComplete ctx data) s = exec (.tableReadTimeout ctx) s)
      ∧ (∀ data a, r.stale = true → s.sw.hostReads = true → s.sw.tableAddr ctx = some a → exec (.tableReadComplete ctx data) s = .next ((s.onXlat fun x => { x with
        reads := x.reads.map fun q => if q.ctx == ctx then { q with stale := false, id := x.nextRead } else q, nextRead := x.nextRead + 1 }).emit (.pcieRead a 1024)))
      ∧ ∀ port g, r.waiters = [.endpoint port g] →
        (∀ data, r.stale = false → match s.sw.serveMiss s.exposedSize (padTo 1024 data) r.ctx g.partition (g.ext.toNat % 2 ^ 56) with
          | .ok _ d => exec (.tableReadComplete ctx data) s = .next (goOn (gone.answerMiss g 0 d.bytes))
          | .bad kind seg =>
            let o : Occurrence := { kind := kind, partition := g.partition, status := if kind = 5 then 9 else 0xA, detail := leBytes 2 r.ctx ++ leBytes 1 seg
                                    group := some r.id }
            exec (.tableReadComplete ctx data) s = .next (goOn ((gone.record o).answerMiss g 0xA [])))
        ∧ (let o : Occurrence := { kind := 5, partition := g.partition, status := 9, detail := leBytes 2 ctx ++ leBytes 1 0xFF, group := some r.id }
           exec (.tableReadTimeout ctx) s = .next (goOn ((gone.record o).answerMiss g 9 [])))

/-- A switch notes a SEG_INV of a number it has not seen, after it has dropped and taken back what its ranges cover, and adds another copy of a known
number to those it will acknowledge; with no engine request left of the dropped translations it acknowledges at once. The AKG-8 drops the overlapping
translations of the context and notes the copy with the ports on which it relays. An acknowledgement ends the wait for its end-point and adds its
counts, at the AKG-8 the wait for its port. Engines that drain too long are fenced, relayed switches that stay silent are listed and their ports fenced,
and end-points that stay silent have a verdict unless the Teller restarts. -/
def Obligations.InvalidationRowsComplete : Prop :=
  ∀ (s : State) (p : Nat) (f : Frame),
    let ctx := f.opxBits 51 36
    let first := field f.data 0 8
    let count := field f.data 8 4
    let number := field f.data 12 4
    let x : Inval := { number := number, ctx := ctx, first := first, count := count }
    let hit := fun h : Held => h.ctx == ctx && h.desc.overlaps first count
    ((s.sw.xlat.inval.any fun x => x.number == number) = false →
      let d := (s.taken f).dropXlat ctx first count
      exec (.segInv .sw p f) s = .next (d.2.onXlat fun y => { y with inval := y.inval ++ [{ x with draining := d.1, askers := [(p, f)] }] }).invalPoll)
    ∧ ((s.sw.xlat.inval.any fun x => x.number == number) = true →
      exec (.segInv .sw p f) s = .next ((s.taken f).onInval number fun x => { x with askers := x.askers ++ [(p, f)] }).invalPoll)
    ∧ (s.sw.escrow.flight = [] → s.sw.escrow.held = [] → s.sw.xlat.inval = [] → (∀ e, (s.sw.getEngine e).task = none) →
      let held := (s.taken f).onXlat fun y => { y with
        l1 := y.l1.mapVals fun _ l => l.filter fun h => !hit h
        l2 := y.l2.filter fun h => !hit h
        reads := y.reads.map fun r => if r.ctx == ctx then { r with stale := true } else r
        inval := [{ x with askers := [(p, f)] }] }
      exec (.segInv .sw p f) s = .next ((held.ackInval number 0 f).onXlat fun y => { y with inval := [{ x with answered := true }] }))
    ∧ (let silent := ((List.range 8).filter fun q => bit (field f.data 6 1) q).map fun q => rackOf f.src * 8 + q
       exec (.segInvAck .sw p f) s = .next ((s.taken f).onInval (field f.data 0 4) fun z => if z.await.contains f.src then
         { z with await := z.await.filter (· != f.src), fencedEngines := z.fencedEngines + field f.data 4 2
                  silent := z.silent ++ silent.filter fun h => !z.silent.contains h } else z).invalPoll)
    ∧ (EpTakes p f s →
      (let v := (s.credited p f).epSegInv p f
       exec (.segInv .ep p f) s = .next v.pump
       ∧ ((s.ep.invals.any fun x => x.number == number && x.port == p && !x.dead) = false →
         (∀ h ∈ v.ep.l2, h.ctx = ctx → h.desc.v = true → h.desc.overlaps first count = false)
         ∧ (∀ l ∈ v.ep.l1, ∀ h ∈ l.2, h.ctx = ctx → h.desc.v = true → h.desc.overlaps first count = false)
         ∧ ∃ x, v.ep.invals = s.ep.invals ++ [x] ∧ x.number = number ∧ x.port = p ∧ x.f = f
             ∧ x.await = (List.range 8).filter fun q => s.ep.portLive q && s.ep.peer q != f.src))
      ∧ (let take := fun x : EpInval =>
           if x.number = field f.data 0 4 ∧ x.await.contains p then { x with await := x.await.filter (· != p), engines := x.engines + field f.data 4 2 } else x
         exec (.segInvAck .ep p f) s = .next ((s.credited p f).onEp fun e => { e with invals := e.invals.map take }).pump))
    ∧ (∀ n x, s.sw.xlat.inval.find? (fun x => x.number == n) = some x →
      (After (.engineDrainTimeout n) s fun t =>
        ∀ g ∈ s.sw.escrow.flight, g.engine < 48 → x.draining.contains (g.port * 4096 + g.tag) = true → (t.sw.getEngine g.engine).fenced = true)
      ∧ (s.sw.teller.state ≠ 1 → After (.invalidationTimeout n) s fun t => ∀ h ∈ x.await, (t.sw.epRec h).verdict = true))
    ∧ ∀ n, s.ep.off = false →
      let quiet := fun x : EpInval => if x.number = n then { x with await := [], silent := x.await.foldl (fun m q => m + 2 ^ q) 0 } else x
      exec (.relayAckTimeout n) s = .next (State.each (s.onEp fun e => { e with invals := e.invals.map quiet })
        ((s.ep.invals.filter fun x => x.number == n).flatMap (·.await)) fun s q => s.epFencePort q 1).pump

/-- At a switch, a collective frame of no Syndicate, and a COLL_DATA, COLL_CONFIRM or COLL_ABORT of a wrong source or for a closed epoch, is discarded
and counted; a COLL_DATA waits while the quota is full, aborts the epoch where a member is lost or the call disagrees, is ignored for a node that is
covered, and else adds its bytes to the chunk's part, and what can be computed is; a COLL_RESULT goes on to the members of this rack; a confirm that
agrees with the delivery is noted and settles the chunk when it is the last, one that does not recalls the attempt and after three recalls aborts; the
root's settling confirm frees the operands, its recall has this switch compute again, its abort closes the epoch, and each goes on to the members of
this rack; a chunk that passes the settlement limit aborts the epoch where an input is missing, and is settled or recalled where it is delivered. -/
def Obligations.CollectiveSwitchRowsComplete : Prop :=
  ∀ (s : State) (p : Nat) (f : Frame),
    let u := s.takeInbox (s.sw.inboxOf f) f
    let i := cSynd f
    let n := cEpoch f
    let k := cPos f / 65536
    let discarded := u.count 0 5
    (s.sw.getSynd i = none →
      (f.typ = 0x38 → exec (.collData p f) s = .next discarded) ∧ (f.typ = 0x39 → isSwitchId f.dest = true → exec (.collResult p f) s = .next discarded)
      ∧ (f.typ = 0x3A → exec (.collConfirm p f) s = .next discarded ∧ exec (.collConfirmSettled .sw p f) s = .next discarded)
      ∧ (f.typ = 0x3B → exec (.collRecallSwitch p f) s = .next discarded) ∧ (f.typ = 0x3C → exec (.collAbort .sw p f) s = .next discarded))
    ∧ (∀ (e : Epoch) chunk level, let c := e.chunks.get chunk {}
      let part := ({ rank := cRank f, level := level } : Part1).add f chunk
      (c.parts.find? fun q : Part1 => q.level == level && q.rank == cRank f) = none → e.take f chunk level =
        { e with chunks := e.chunks.put chunk { c with parts := (c.parts.filter fun q : Part1 => !(q.level == level && q.rank == cRank f)) ++ [part] }
                 endChunk := if cEnd f then some chunk else e.endChunk }.withLength chunk part)
    ∧ ∀ y, s.sw.getSynd i = some y →
      (f.typ = 0x38 →
        let chunk := chunkOf (cFmt f) (cPos f) (cScale f)
        let e := (y.epoch n).getD (s.newEpoch i f)
        let v := if (y.epoch n).isSome then u else { u.each (y.closedBy n) fun s m => s.closeEpoch i m with fresh := u.fresh + 1 }
        let c := e.chunks.get chunk {}
        let level := if isEpId f.src then 0 else e.levelOf y c (f.src / 8) s.sw.sys.rack (cRank f)
        let e' := e.take f chunk level
        (s.sw.collSourceOk y f = false ∨ y.closed.contains n = true ∨ e.aborted.isSome = true → exec (.collData p f) s = .next discarded)
        ∧ (s.sw.collSourceOk y f = true → y.closed.contains n = false → e.aborted = none →
          (s.sw.quotaFull y e chunk f = true → exec (.collData p f) s = .next s)
          ∧ (s.sw.quotaFull y e chunk f = false →
            (y.lost ≠ [] → exec (.collData p f) s = .next ((v.putEpoch i e).abortFrom i e.number stMemberLost))
            ∧ (y.lost = [] → e.agrees f chunk = false → exec (.collData p f) s = .next ((v.putEpoch i e).abortFrom i e.number stBadAddress))
            ∧ (y.lost = [] → e.agrees f chunk = true →
              (c.state ≠ .open_ ∨ c.covered level (cRank f) = true → exec (.collData p f) s = .next v)
              ∧ (c.state = .open_ → c.covered level (cRank f) = false → exec (.collData p f) s = .next
                  (if (e'.chunks.get chunk {}).lengthsAgree e' then (v.putEpoch i e').computeChunk i e'.number chunk
                   else (v.putEpoch i e').abortFrom i e'.number stBadAddress))))))
      ∧ (f.typ = 0x39 → isSwitchId f.dest = true → exec (.collResult p f) s = .next (u.forwardColl y f))
      ∧ (f.typ = 0x3C →
        (s.sw.isRoot y = true → (s.sw.collSourceOk y f = false ∨ y.closed.contains n = true → exec (.collAbort .sw p f) s = .next discarded)
          ∧ (s.sw.collSourceOk y f = true → y.closed.contains n = false → (y.epoch n).isSome = true →
            exec (.collAbort .sw p f) s = .next (u.abortEpoch i n f.status))
          ∧ (s.sw.collSourceOk y f = true → y.closed.contains n = false → y.epoch n = none →
            exec (.collAbort .sw p f) s = .next (State.abortEpoch { u.putEpoch i (u.newEpoch i f) with fresh := u.fresh + 1 } i n f.status)))
        ∧ (s.sw.isRoot y = false → isEpId f.src = true → s.sw.collSourceOk y f = false ∨ y.closed.contains n = true →
            exec (.collAbort .sw p f) s = .next discarded)
        ∧ (s.sw.isRoot y = false → isEpId f.src = false ∨ s.sw.collSourceOk y f = true ∧ y.closed.contains n = false →
            (∀ e, y.epoch n = some e → exec (.collAbort .sw p f) s = .next ((u.closeEpoch i e.number).forwardColl y f))
            ∧ (y.epoch n = none → exec (.collAbort .sw p f) s = .next ((if y.closed.contains n then u else u.closeEpoch i n).forwardColl y f))))
      ∧ (y.epoch n = none →
        (f.typ = 0x3A → exec (.collConfirm p f) s = .next discarded ∧ exec (.collConfirmSettled .sw p f) s = .next (u.forwardColl y f))
        ∧ (f.typ = 0x3B → exec (.collRecallSwitch p f) s = .next (u.forwardColl y f)))
      ∧ ∀ e, y.epoch n = some e →
        let put := fun (k : Nat) (c : Chunk) => { e with chunks := e.chunks.put k c }
        let ck := e.chunks.get k {}
        (f.typ = 0x3A →
          (s.sw.collSourceOk y f = false ∨ s.sw.isRoot y = false → exec (.collConfirm p f) s = .next discarded)
          ∧ (s.sw.collSourceOk y f = true → s.sw.isRoot y = true →
            ((∀ a, ck.state ≠ .delivered a) → exec (.collConfirm p f) s = .next u)
            ∧ ∀ a, ck.state = .delivered a →
              let agrees := ck.checks.find (cRank f) = some (cCheck f)
              let c' := { ck with confirms := cRank f :: ck.confirms.filter (· != cRank f) }
              (cAttempt f ≠ a ∨ ck.owed = true → exec (.collConfirm p f) s = .next u)
              ∧ (cAttempt f = a → ck.owed = false →
                (agrees → exec (.collConfirm p f) s = .next
                  (if c'.allConfirmed y then (u.putEpoch i (put k c')).settleChunk i y (put k c') k a else u.putEpoch i (put k c')))
                ∧ (¬agrees → a < 3 → exec (.collConfirm p f) s = .next (u.recallChunk i y e k a))
                ∧ (¬agrees → 3 ≤ a → exec (.collConfirm p f) s = .next (u.abortEpoch i e.number stEcc)))))
        ∧ (f.typ = 0x3A →
          let e' := put k { ck with state := .settled, parts := [] }
          exec (.collConfirmSettled .sw p f) s = .next ((if e'.finished then (u.putEpoch i e').closeEpoch i e'.number else u.putEpoch i e').forwardColl y f))
        ∧ (f.typ = 0x3B → exec (.collRecallSwitch p f) s = .next ((if ck.state = .open_ then
            (u.putEpoch i (put k { ck with
              attempt := cAttempt f + 1, sent := [], computed := e.recomputed y ck s.sw.sys.rack })).computeChunk i e.number k else u).forwardColl y f))
        ∧ ∀ j c, e.chunks.find j = some c →
          (s.sw.isRoot y = false → exec (.settlementLimit i n j) s = .next s)
          ∧ (s.sw.isRoot y = true →
            (c.state = .open_ → exec (.settlementLimit i n j) s = .next (s.abortEpoch i n stTimeout))
            ∧ (∀ a, c.state = .delivered a → exec (.settlementLimit i n j) s = .next
                (if c.allConfirmed y && s.sw.settleRoom y.partition then s.settleChunk i y e j a
                 else if a < 3 then s.recallChunk i y e j a else s.abortEpoch i n stTimeout))
            ∧ (c.state = .settled ∨ c.state = .aborted → exec (.settlementLimit i n j) s = .next s))

/-- Bytes of a result take their place in their chunk and are written to the receive buffer, and the frame with LAST is answered with a confirm of the
check over them; the settling confirm of a chunk settles it, and the last of them sends the call to its report; a recall of the current attempt
withdraws an unsettled chunk's delivery; an abort withdraws what is not settled, whose bytes it leaves open, ends the epoch with its status and tells
the root switches of the other planes, and one for a lost member marks the Syndicate; one of an epoch that the agent has not called yet is kept for
that call, once, and tells them too. -/
def Obligations.CollectiveMemberRowsComplete : Prop :=
  (∀ (s : State) (p : Nat) (f : Frame) (r : Rank), EpTakes p f s → s.ep.callIn f.agent (cSynd f) (cEpoch f) = none → f.typ = 0x3C → f.status ≠ 8 →
    s.ep.rankOf (cSynd f) f.agent = some r → (cEpoch f + 4096 - r.nextEpoch) % 4096 < 2048 →
    (s.ep.aborted.any fun q => q.1 == cSynd f && q.2.1 == f.agent && q.2.2.1 == cEpoch f) = false →
    let v := (s.credited p f).onEp fun e => { e with aborted := e.aborted ++ [(cSynd f, f.agent, cEpoch f, f.status)] }
    exec (.collAbort .ep p f) s = .next (v.each ((List.range 8).filter (· != p)) fun s q => s.sendOnPlane q { f with
      dest := r.rootRack * 8 + q, src := s.ep.homeId, inc := 0, opx := collOpx (cSynd f) r.rank (cCop f) (cRop f) (cSat f) (cUns f) 0 }).pump)
  ∧ ∀ (s : State) (p : Nat) (f : Frame) (x : EpCall), EpTakes p f s → s.ep.callIn f.agent (cSynd f) (cEpoch f) = some x → x.stage = 2 →
    let u := s.credited p f
    let k := cPos f / 65536
    (isSwitchId f.dest = false →
      let pos := cPos f
      let j := if f.length = 0 then k else x.chunkAt pos (cScale f)
      let d := padTo f.length f.data
      let a := cAttempt f
      let v := u.onChunk x j fun c => if c.attempt = a then c else { attempt := a, settled := c.settled }
      let v := if f.length = 0 then v else (v.onChunk x j fun c =>
          if cScale f then { c with rxScale := placePart pos d c.rxScale } else { c with rx := placePart pos d c.rx }).epReq
        { agent := x.agent, op := .write, cva := (if cScale f then x.c.recvScale else x.c.recv) + pos, length := f.length, data := d }
        (.collRecv x.c.synd x.epoch j a (cLast f))
      (cLast f = false → exec (.collResult p f) s = .next v.pump)
      ∧ ∀ y, cLast f = true → v.ep.callIn f.agent (cSynd f) (cEpoch f) = some y →
        let chk := (y.part j).check
        let w := v.onChunk x j fun c => { c with whole := chk == cCheck f }
        exec (.collResult p f) s = .next (w.sendOnPlane j (w.collFrame x f.src 0x3A a chk (j * 65536) false true (j + 1 == x.chunks) [])).pump)
    ∧ ((x.part k).settled = false →
      let v := (u.onChunk x k fun c => { c with settled := true, rx := [], rxScale := [] }).chunkNote x k (cAttempt f) .settled
      ∀ y, v.ep.memberCall f = some y → exec (.collConfirmSettled .ep p f) s = .next (if (List.range y.chunks).all fun j => (y.part j).settled then
        v.onCall y fun c => { c with stage := 3, status := 0 } else v).pump)
    ∧ ((x.part k).settled = true → exec (.collConfirmSettled .ep p f) s = .next u.pump)
    ∧ (exec (.collRecall p f) s = .next (if (x.part k).attempt = cAttempt f then u.withdrawChunk x k else u).pump)
    ∧ (f.typ = 0x3C →
      let its := fun g : Frame => g.cls == 5 && g.agent == x.agent && cSynd g == x.c.synd && cEpoch g == x.epoch
      let keep := fun q : EpReq => match q.for_ with
        | .collSend synd epoch _ _ _ => q.pieces.any (·.started) || !(q.r.agent == x.agent && synd == x.c.synd && epoch == x.epoch)
        | _ => true
      let lose := fun r : Rank => if f.status = 8 ∧ r.synd = cSynd f ∧ r.agent = f.agent then { r with lost := true } else r
      let v := u.onEp fun e => { e with
        ranks := e.ranks.map lose
        outq := e.outq.map fun q => (q.1, q.2.filter fun g => !its g)
        reqs := e.reqs.filter keep
        fences := e.fences.filter fun g => !(g.agent == x.agent && g.utag == x.utag + 65536) }
      let v := (v.each x.chunk fun s c => (s.ifThen (!c.2.settled) fun s => s.forgetChunk x c.2).withdrawChunk x c.1).onCall x fun c =>
        { c with stage := 3, status := f.status }
      exec (.collAbort .ep p f) s = .next (match v.ep.rankOf x.c.synd x.agent with
        | none => v
        | some r => v.each ((List.range 8).filter (· != p)) fun s q => s.sendOnPlane q { f with
            dest := r.rootRack * 8 + q, src := s.ep.homeId, inc := 0, opx := collOpx (cSynd f) r.rank (cCop f) (cRop f) (cSat f) (cUns f) 0 }).pump)

/-- A REQ of a bound agent joins the requests in order, one of a refused agent completes with FENCED and one of an unbound agent with SEG_FAULT; a FENCE
covers the requests before it; a CALL joins the calls. The accelerator's answer asks for the next line of its request or ends it; INPUT_ACK lets a
logged write go to memory, ends one that has aged meanwhile with AGED, or ends it with its status, and its timeout ends it with FENCED and counts it. A
module that fails is left out, and with none left every port is in DETECT and no translation stays. -/
def Obligations.AcceleratorRowsComplete : Prop :=
  ∀ s : State, s.ep.off = false →
    (∀ r : Req,
      let q : EpReq := { r := r, order := s.ep.orderCount, pieces := reqPieces r }
      let u := s.onEp fun e => { e with orderCount := e.orderCount + 1, reqs := e.reqs ++ [q] }
      (s.ep.agentRefused r.agent = true → exec (.req r) s = .next (u.endReq q 4 []).pump)
      ∧ (s.ep.agentRefused r.agent = false → bindV (s.ep.bound r.agent) = false → exec (.req r) s = .next (u.endReq q 0xA []).pump)
      ∧ (s.ep.agentRefused r.agent = false → bindV (s.ep.bound r.agent) = true → exec (.req r) s = .next u.pump))
    ∧ (∀ a utag kind scope, exec (.fence a utag kind scope) s = .next (s.onEp fun e => { e with
        fences := e.fences ++ [{ agent := a, utag := utag, kind := kind, scope := scope, before := e.orderCount }] }).pump)
    ∧ (∀ a utag c, exec (.call a utag c) s = .next (s.onEp fun e => { e with calls := e.calls ++ [{ agent := a, utag := utag, c := c }] }).pump)
    ∧ (∀ utag data x, s.ep.homeReqs.find? (fun x => x.stage == 2 && x.utag == utag) = some x →
      let y := { x with acc := x.acc ++ padTo (partOf x.f x.line).2 data, line := x.line + 1 }
      let u := s.onEp fun e => { e with homeReqs := e.homeReqs.map fun z => if z = x then y else z }
      exec (.memCpl utag data) s = .next (if y.line < x.f.lines.length then u.askMemory y else u.homePerformed y).pump)
    ∧ (∀ p f x, EpTakes p f s → s.ep.homeReqs.find? (fun x => x.stage == 1 && x.ctag == f.tag && x.port == p) = some x →
      let c := s.credited p f
      exec (.inputAck p f) s = .next (if f.status ≠ 0 then c.homeEnd x f.status [] 0 else if aged epCfg s.ep.clock.now x.f then c.homeEnd x stAged [] 0
        else c.askMemory x).pump)
    ∧ (∀ p tag x, s.ep.homeReqs.find? (fun x => x.stage == 1 && x.ctag == tag && x.port == p) = some x →
      exec (.inputAckTimeout p tag) s
        = .next ((s.homeEnd x 4 [] 0).onEp fun e => { e with inputUnacked := min (2 ^ 64 - 1) (e.inputUnacked + 1) }).pump)
    ∧ ∀ m, (s.ep.ucie.filter (· != m) ≠ [] → exec (.ucieModuleFail m) s = .next (s.onEp fun e => { e with ucie := e.ucie.filter (· != m) }))
      ∧ (s.ep.ucie.filter (· != m) = [] → After (.ucieModuleFail m) s fun t => t.sw = s.sw ∧ t.ep = { s.ep with ucie := [], link := t.ep.link, l1 := [], l2 := [] }
          ∧ t.out = s.out ∧ ∀ p < 8, (t.ep.getLink p).state = .detect)

/-- A task that ends OK is done, frees its engine and makes ready what waited for it; a task whose retry wait ends is ready again; a deadline cancels
the unstarted tasks, and is the graph's status where it cancels one; a WAIT_TIME task is done at its instant; a graph that found no slot in time
leaves its mailbox with BUSY and its GO completes with HOME_BUSY_TIMEOUT. -/
def Obligations.TaskRowsComplete : Prop :=
  ∀ (s : State) (slot t : Nat),
    (∀ g x, s.sw.getGraph slot = some g → s.sw.getTask slot t = some x →
      let free := if x.engine < 48 ∧ (s.sw.getEngine x.engine).task = some (slot, t) then s.putEngine x.engine { s.sw.getEngine x.engine with task := none } else s
      let done := ((free.onTask slot t fun y => { y with state := .done, result := none, ended := none }).readyUp slot).escrowSettle
      (x.ended = some 0 → x.state = .running → exec (.taskComplete slot t) s = .next done)
      ∧ (x.state = .running → (TaskDesc.of x.desc).kind = 0x0E → exec (.waitTimeReached slot t) s = .next done)
      ∧ (x.state = .retryWait → exec (.retryWaitEnd slot t) s = .next (((s.onTask slot t fun y => { y with
            state := .ready, readyAt := s.sw.escrow.readyCount }).onEscrow fun e => { e with readyCount := s.sw.escrow.readyCount + 1 }).escrowSettle))
      ∧ (g.deadline ≠ 0 → exec (.deadline slot) s
          = .next ((s.putGraph slot { g with closed := true, cancel := if (g.tasks.any fun t => t.state.unstarted && t.runs == 0) ∧ g.cancel = .none
              then .deadline else g.cancel }).cancelTasks slot fun _ => true).escrowSettle))
    ∧ ∀ m x, s.sw.escrow.queue.find? (fun x => x.mailbox == m) = some x →
      exec (.admissionWaitExpiry m) s = .next ((((s.onEscrow fun e => { e with queue := e.queue.erase x }).putMbox m { s.sw.getMbox m with
        filling := false, image := [], result := 8, task := 0, tag := x.graph.tag })).swSend 86 (x.f.response s.sw.sys.homeId 7 []))

/-- A HEARTBEAT is answered on its port with the live-port map; an answer sets the misses of its end-point to 0; at each instant an admitted end-point
that has answered gets the next beat; a SUSPECT is relayed and held for its incarnation, until it expires; a VERDICT moves the incarnation on and
marks the end-point, during a Teller-only restart it is held, and the end-point that it names ends what it does. -/
def Obligations.DetectorRowsComplete : Prop :=
  ∀ (s : State) (p : Nat) (f : Frame),
    let u := s.taken f
    let c := s.credited p f
    let h := field f.data 0 2
    let inc := field f.data 2 1
    (EpTakes p f s →
      exec (.heartbeat p f) s = .next (c.mgmtOut .ep p 2 0 (padTo 10 f.data ++ leBytes 1 ((s.livePorts .ep).foldl (fun m q => m + 2 ^ q) 0))).pump
      ∧ exec (.suspect .ep p f) s = .next (c.flood .ep (some p) 3 f.data).pump
      ∧ (h = s.ep.homeId → s.ep.verdict = false → s.ep.inc = some inc → exec (.verdict .ep p f) s = .next (c.flood .ep (some p) 4 f.data).selfVerdict.pump)
      ∧ (h ≠ s.ep.homeId → exec (.verdict .ep p f) s = .next (((c.flood .ep (some p) 4 f.data).onEp fun e => { e with
          peerInc := e.peerInc.put h (field f.data 3 1 % 16) }).epPeerLost h).pump))
    ∧ exec (.heartbeatAck p f) s = .next (u.onEpRec f.src fun r => { r with misses := 0, acked := r.acked || padTo 10 f.data == r.beat })
    ∧ (s.sw.teller.state = 0 → (∀ q < 64, isEdge s.sw.sys q = true → (s.sw.epRec (s.sw.peer q)).admitted = true →
        (s.sw.getLink q).state = .active ∧ (s.sw.epRec (s.sw.peer q)).acked = true ∧ (s.sw.epRec (s.sw.peer q)).verdict = false
          ∧ (s.sw.epRec (s.sw.peer q)).readmitting = false) →
      After .heartbeatInstant s fun t => SameMemory s t ∧ ∀ q < 64, isEdge s.sw.sys q = true →
        t.sw.epRec (s.sw.peer q) = let r := s.sw.epRec (s.sw.peer q)
          if r.admitted then { r with acked := false, beat := instantBytes s.sw.clock.now } else r)
    ∧ (let v := u.flood .sw (some p) 3 f.data
       let w := v.onEpRec h fun r => { r with suspects := field f.data 3 2 :: r.suspects.filter (· != field f.data 3 2) }
       ((v.sw.epRec h).inc = inc → w.sw.judges h = false → exec (.suspect .sw p f) s = .next w)
       ∧ ((v.sw.epRec h).inc ≠ inc → exec (.suspect .sw p f) s = .next v))
    ∧ (∀ e x, x ∈ (s.sw.epRec e).suspects →
      exec (.suspectExpiry e x) s = .next (s.onEpRec e fun r => { r with suspects := r.suspects.filter (· != x) }))
    ∧ (s.sw.teller.state = 1 → exec (.verdict .sw p f) s
        = .next (u.onTeller fun x => { x with heldVerdicts := x.heldVerdicts ++ [f] }).regionGone)
    ∧ (s.sw.teller.state ≠ 1 → (s.sw.epRec h).inc = inc →
      After (.verdict .sw p f) s fun t => (t.sw.epRec h).verdict = true ∧ (t.sw.epRec h).inc = (inc + 1) % 16)

/-- An agent fence is kept for its port until its clear; ADMIT gives the home ID, incarnation and Strongroom, a home ID other than the one held fences
the port; a CONFIG of the hold time, the ceiling or a disarm is made and confirmed; SLOT_CLOSE closes the slot, and the partition on a removal,
SLOT_OPEN of every live plane opens it; the first READMIT and a CONFIRM for another plane go on; a port fenced for link loss goes back to DETECT. -/
def Obligations.EndPointManagementRowsComplete : Prop :=
  ∀ (s : State) (p : Nat) (f : Frame),
    let c := s.credited p f
    let a := field f.data 1 1
    let h := field f.data 0 2
    (s.ep.portLive p = true → s.ep.off = false →
      (s.ep.homeId = 0x3FF ∨ s.ep.homeId = h → After (.admitFrame p f) s fun t => t.ep.homeId = h ∧ t.ep.inc = some (field f.data 2 1 % 16)
        ∧ t.ep.strongroom = bit (field f.data 3 1) 0 ∧ t.ep.verdict = false ∧ t.ep.home = s.ep.home ∧ t.ep.closed = s.ep.closed)
      ∧ (s.ep.homeId ≠ 0x3FF → s.ep.homeId ≠ h → exec (.admitFrame p f) s = .next ((c.epRaise fWiring).epFencePort p 2).pump))
    ∧ (EpTakes p f s →
      (field f.data 0 1 = 5 →
        let rest := (s.ep.agentFence.get a []).filter (· != p)
        (field f.data 3 1 = 0 → exec (.fenceNotice p f) s = .next (((c.onEp fun e => { e with agentFence := e.agentFence.put a (p :: rest) }).loseRanks (some a)).epEvent 3).pump)
        ∧ (field f.data 3 1 ≠ 0 → exec (.fenceNotice p f) s = .next (c.onEp fun e => { e with agentFence := e.agentFence.put a rest }).pump))
      ∧ (field f.data 0 1 = 5 →
        exec (.config p f) s = .next ((c.onEp fun e => { e with tHold := field (f.data.drop 1) 0 2 }).sendConfirm .ep p f.tag).pump)
      ∧ (field f.data 0 1 = 6 →
        exec (.config p f) s = .next ((c.onEp fun e => { e with ceil := field (f.data.drop 1) 0 1 }).sendConfirm .ep p f.tag).pump)
      ∧ (field f.data 0 1 = 10 →
        exec (.config p f) s = .next ((c.onEp fun e => { e with sched := { e.sched with armed := none } }).sendConfirm .ep p f.tag).pump)
      ∧ (After (.slotClose p f) s fun t => let k := field f.data 0 1
          t.ep.closed = k :: s.ep.closed.filter (· != k) ∧ t.ep.opens = s.ep.opens.del k ∧ t.ep.home = s.ep.home ∧ t.ep.bind = s.ep.bind
          ∧ t.ep.removed = if bit (field f.data 2 1) 0 then a :: s.ep.removed.filter (· != a) else s.ep.removed)
      ∧ (exec (.slotOpen p f) s = .next ((c.onEp fun e => { e with
          opens := e.opens.put (field f.data 0 1) (p :: (e.opens.get (field f.data 0 1) []).filter (· != p))
          removed := e.removed.filter (· != a) }).slotsCheck.sendConfirm .ep p f.tag).pump)
      ∧ ((7, f.data) ∉ s.ep.seen →
        let old := fun x : Nat × List Byte => (x.1 == 4 || x.1 == 3 || x.1 == 7) && field x.2 0 2 == h
        exec (.readmit .ep p f) s = .next ((c.onEp fun e => { e with
          seen := (7, f.data) :: e.seen.filter fun x => !old x, peerInc := e.peerInc.put h (field f.data 2 1 % 16), peerLost := e.peerLost.filter (· != h) }).sendReadmit .ep f (some p)).pump)
      ∧ (f.dest ≠ s.ep.homeId → exec (.confirm .ep p f) s = .next (c.epSend (f.dest % 8) f).pump))
    ∧ (s.ep.off = false → (s.ep.getLink p).fenceWhy = 1 → (s.ep.getLink p).state = .fenced →
      exec (.endpointPortRedetect p) s = .next (s.onLink .ep p fun l => { l with state := .detect, attempts := 0 }).pump)

/-- A READMIT of another switch takes effect and is sent on when it is new, and every copy is confirmed; a CONFIRM ends the relay of its tag, and the
command that waits for it goes on; a relay that is not confirmed is sent again up to eight times, then given up. -/
def Obligations.RelayRowsComplete : Prop :=
  ∀ (s : State) (p : Nat) (f : Frame),
    let u := s.taken f
    (f.src ≠ s.sw.sys.homeId →
      let h := field f.data 0 2
      let inc := field f.data 2 1
      let confirm := fun v : State => v.swSendPort 86 p (mgmtFrame f.src v.sw.sys.homeId (v.sw.incFor (v.sw.peer p)) 9 0 (leBytes 2 f.tag))
      ((7, leBytes 2 h ++ leBytes 1 inc) ∈ s.sw.mgmt.seen → exec (.readmit .sw p f) s = .next (confirm u))
      ∧ ((7, leBytes 2 h ++ leBytes 1 inc) ∉ s.sw.mgmt.seen → exec (.readmit .sw p f) s = .next (confirm ((u.readmitHere h inc).sendReadmit .sw f (some p)))))
    ∧ (∀ id r, s.sw.mgmt.relay.find? (fun r => r.2.f.tag == field f.data 0 2 && (r.2.port == 64 || r.2.f.dest == f.src)) = some (id, r) →
      let drop := u.onSw fun w => { w with mgmt := { w.mgmt with relay := w.mgmt.relay.del id } }
      (r.cmd = none → exec (.confirm .sw p f) s = .next drop)
      ∧ ∀ fn mb a, r.cmd = some (fn, mb) → s.sw.activeOf fn mb = some a → r.port ≠ 64 → exec (.confirm .sw p f) s = .next (drop.relayed a (f.data.drop 2)))
    ∧ ∀ id r, s.sw.mgmt.relay.find id = some r →
      (r.sends ≤ 8 → r.port ≠ 64 → exec (.resendTimer id) s
        = .next ((s.onSw fun w => { w with mgmt := { w.mgmt with relay := w.mgmt.relay.put id { r with sends := r.sends + 1 } } }).swSendPort 86 r.port r.f))
      ∧ (8 < r.sends → r.cmd = none → exec (.resendTimer id) s = .next (s.onSw fun w => { w with mgmt := { w.mgmt with relay := w.mgmt.relay.del id } }))

/-- A report of needs is relayed and noted by a switch; a BOOK_SET is acknowledged, and when it is new it is noted, relayed and taken: at once where no
package runs; an acknowledgement ends the resending of its change on that hop, which otherwise is sent again up to 32 times; when the return hold
ends the master changes to the book that the reports ask for; SLOW follows P, the switch's and its own end-points', against P_ceil. -/
def Obligations.BookRowsComplete : Prop :=
  ∀ (s : State) (d : Dev) (p : Nat) (f : Frame),
    let at_ := match d with | .sw => s.taken f | .ep => s.credited p f
    let end_ := fun v : State => match d with | .sw => v | .ep => v.pump
    let c : BookChange := { book := field f.data 0 1, cycle := field f.data 1 8, number := field f.data 9 4 }
    ((d = .ep → EpTakes p f s) →
      (exec (.bookReport d p f) s = .next (end_ (match d with
        | .sw => (at_.flood d (some p) 0xA f.data).noteReport (field f.data 2 2) (field f.data 0 1 != 0) (field f.data 1 1 != 0)
        | .ep => at_.flood d (some p) 0xA f.data)))
      ∧ (let ack := at_.mgmtOut d p 0xC 0 (leBytes 4 c.number)
         (c.number ∈ (s.getSched d).seen → exec (.bookSet d p f) s = .next (end_ ack))
         ∧ (c.number ∉ (s.getSched d).seen →
           let v := ack.onSched d fun x => { x with seen := c.number :: x.seen, lastChange := c.number, changeCount := c.number }
           exec (.bookSet d p f) s = .next (end_ ((v.each ((v.portsUp d).filter (· != p)) fun s q => s.sendBookSet d q c 1).takeChange d c))))
      ∧ ∀ k n, (s.getSched d).unacked.find p = some (k, n) → k.number = field f.data 0 4 →
          exec (.bookAck d p f) s = .next (end_ (at_.onSched d fun x => { x with unacked := x.unacked.del p })))
    ∧ (∀ k n, (s.getSched d).unacked.find p = some (k, n) → exec (.bookSetResend d p) s
        = .next (if n ≤ 32 then s.sendBookSet d p k (n + 1) else s.onSched d fun x => { x with unacked := x.unacked.del p }))
    ∧ (s.sw.isMaster = true → s.sw.sched.pending_ = none → s.sw.sched.wanted ≠ s.sw.sched.target →
      exec .returnHoldEnd s = .next (s.changeBook s.sw.sched.wanted))
    ∧ (s.slowNow = true → s.sw.sched.slow = false → exec .slowSet s = .next (s.onSched .sw fun x => { x with slow := true }).reportNeeds)
    ∧ (s.slowPace + s.sw.sched.margin ≤ s.sw.sys.cfg.ceil → s.sw.sched.slow = true →
      exec .slowClear s = .next (s.onSched .sw fun x => { x with slow := false }).reportNeeds)

/-- A partner's request for a low-power state is answered with the state both allow and entered; the acknowledgement of a request of its own enters
the state agreed; after the idle hold a domain enters the state its votes allow, and an active port asks its partner for NAP or REST; an entry that is
done leaves the domain in its state, without what REST loses, unless work has come: then its exit begins; each stage that is ready begins the next,
the fourth leaves the domain in RUN, a port in ACTIVE or, after REST, in DETECT, an engine going on with its task; a stage that is late fences what
the domain powers; WAKE_N is work for every domain in NAP or REST. -/
def Obligations.PowerDomainRowsComplete : Prop :=
  ∀ (s : State) (k i : Nat),
    let d := s.sw.domain k i
    (∀ p f, let v := (s.taken f).onLink .sw p fun l => { l with partnerVote := field f.data 0 1 }
      let w := v.mgmtOut .sw p 0xE 0 (leBytes 1 (v.allowed 0 p))
      exec (.powerReq .sw p f) s = .next (if (s.sw.getLink p).state = .active then (w.enter 0 p (v.allowed 0 p)).revote 0 p else w))
    ∧ (∀ p f, EpTakes p f s → let a := min (field f.data 0 1) ((s.credited p f).epWish p)
      let v := (s.credited p f).mgmtOut .ep p 0xE 0 (leBytes 1 a)
      exec (.powerReq .ep p f) s = .next ((v.drainQueue p 0 (v.ep.outq.get (p * 8) []).length).epPower p a).pump)
    ∧ (∀ p f, (s.sw.getLink p).asked.isSome = true → (s.sw.getLink p).state = .active →
      let v := (s.taken f).onLink .sw p fun l => { l with asked := none, partnerVote := field f.data 0 1 }
      exec (.powerAck .sw p f) s = .next (v.enter 0 p (min (field f.data 0 1) (v.wish 0 p))))
    ∧ (∀ p f, EpTakes p f s → (s.ep.getLink p).asked.isSome = true →
      let v := (s.credited p f).onLink .ep p fun l => { l with asked := none }
      exec (.powerAck .ep p f) s = .next (v.epPower p (min (field f.data 0 1) (v.epWish p))).pump)
    ∧ (∀ p f, (s.sw.getLink p).asked = none ∨ (s.sw.getLink p).state ≠ .active → exec (.powerAck .sw p f) s = .next (s.taken f))
    ∧ (∀ p f, EpTakes p f s → (s.ep.getLink p).asked = none → exec (.powerAck .ep p f) s = .next (s.credited p f).pump)
    ∧ (i < 64 → (s.sw.getLink i).state = .active → let v := s.enter 0 i (min 1 (s.allowed 0 i))
      exec (.idleHoldEnd 0 i) s = .next (if 2 ≤ v.wish 0 i then v.askPower .sw i (v.wish 0 i) else v))
    ∧ (0 < k → i < domainCount k → d.fenced = false → d.entering = none → d.exiting = none → d.state < s.allowed k i →
      exec (.idleHoldEnd k i) s = .next (s.onDomain k i fun d => if s.allowed k i = 1 then { d with state := 1 } else { d with entering := some (s.allowed k i) }))
    ∧ (∀ st, d.entering = some st →
      let v := s.onDomain k i fun d => { d with state := st, entering := none }
      let w := match k, st with
        | 0, 2 => v.onPort i fun l => { l.endTest with state := .nap, power := 2 }
        | 0, _ => (v.onPort i fun l => { l.fresh with state := .rest, power := st, partner := l.partner }).onSw fun x =>
            { x with core := { x.core with spent := x.core.spent.filter fun e => e.1 / 16 != i } }
        | 1, 3 => v.onXlat fun x => { x with l1 := x.l1.del i }
        | 2, 3 => v.loseChannel i
        | 3, 3 => v.loseBank i
        | _, _ => v
      let stays := d.wake = false ∧ (k = 0 → ∀ q ∈ queueKeys i, w.sw.core.queue.get q [] = []) ∧ 2 ≤ w.allowed k i
      (stays → exec (.powerEntryDone k i) s = .next w) ∧ (¬stays → exec (.powerEntryDone k i) s = .next (w.beginExit k i)))
    ∧ (∀ n, d.exiting = some n → n < 4 → exec (.wakeStageReady k i) s = .next (s.onDomain k i fun d => { d with exiting := some (n + 1) }))
    ∧ (d.exiting = some 4 → let v := s.onDomain k i fun d => { d with state := 0, exiting := none }
      (2 ≤ k → exec (.wakeStageReady k i) s = .next v)
      ∧ (k = 1 → exec (.wakeStageReady k i) s = .next (match (s.sw.getEngine i).task with
          | some (slot, t) => (v.resumeTask slot t).escrowSettle
          | none => v.escrowSettle))
      ∧ (k = 0 → exec (.wakeStageReady k i) s = .next (match (s.sw.getLink i).state with
          | .nap => v.onPort i fun l => { l with state := .active, power := 0 }
          | .rest => (v.onPort i fun l => { l with state := .detect, power := 0, fast := l.stored.isSome, waking := true }).emit (.tickClock .sw i)
          | _ => v)))
    ∧ (d.exiting.isSome = true →
      (k = 0 → After (.wakeStageTimeout k i) s fun t => (t.sw.getLink i).state = .fenced)
      ∧ (k = 1 → After (.wakeStageTimeout k i) s fun t => (t.sw.getEngine i).fenced = true)
      ∧ (k = 2 → After (.wakeStageTimeout k i) s fun t => (t.sw.chan i).fenced = true)
      ∧ (3 ≤ k → exec (.wakeStageTimeout k i) s = .next ((s.onDomain k i fun d => { d with exiting := none, fenced := true }).record
          { kind := 0x80, domain := [1, 2, 4, 3, 8, 8].getD k 8, index := if k ≤ 3 then i else 0 })))
    ∧ exec .wakeN s = .next (if s.sw.sys.rstN then s.each (s.sw.power.dom.filter fun d => decide (2 ≤ d.2.state) || d.2.entering.isSome) fun s d =>
        s.work (d.1 / 64) (d.1 % 64) else s)

/-- An INPUT_COPY that finds room enters the input log of its partition and is acknowledged OK, another waits, and a wait that ends is acknowledged with
HOME_BUSY_TIMEOUT; bytes written out of staging make room (here with nothing that waits for it); the timer makes a seal of one SEAL and 14 SIGNATURE entries where entries were added. -/
def Obligations.LedgerRowsComplete : Prop :=
  ∀ (s : State) (p : Nat) (f : Frame),
    let u := s.taken f
    let l := u.sw.getLedger f.partition
    let ack := fun (v : State) (g : Frame) status => v.swSend 86 { dest := g.src, src := v.sw.sys.homeId, partition := g.partition, cls := 7, typ := 0x3E, tag := g.tag
                                                                   keySlot := g.keySlot, inc := v.sw.incFor g.src, offset := g.offset, status := status, opx := opxAt 2 36 }
    ((l.started = false ∨ l.room (256 + 128 * ceilDiv f.length 128) false = true) →
      exec (.inputCopy p f) s = .next (ack (u.logInput f f.src (f.extBits 9 0) (f.extBits 15 10) (padTo f.length f.data)) f 0))
    ∧ (l.started = true → l.room (256 + 128 * ceilDiv f.length 128) false = false →
      exec (.inputCopy p f) s = .next ((u.onSw fun w => { w with inputWait := w.inputWait ++ [(p, f)] }).noteFull f.partition))
    ∧ (∀ src tag x, s.sw.inputWait.find? (fun x => x.2.src == src && x.2.tag == tag) = some x →
      exec (.inputCopyWaitEnd src tag) s = .next (ack (s.onSw fun w => { w with inputWait := w.inputWait.erase x }) x.2 7))
    ∧ (∀ bytes, let m := s.sw.getLedger p
      m.started = true → m.region.isSome = true → m.sealDue = false → (∀ k < 32, (s.sw.getSlot k).state ≠ .retiring) → s.sw.ledgerQueue = [] → s.sw.inputWait = [] → s.sw.synd = [] →
      After (.stagingRoom p bytes) s fun t => t = { s with sw := { s.sw with ledger := t.sw.ledger } } ∧ (∀ q ≠ p, t.sw.getLedger q = s.sw.getLedger q)
        ∧ t.sw.getLedger p = { m with staged := max (min m.staged m.mustStage) (m.staged - bytes), fullNoted := (t.sw.getLedger p).fullNoted })
    ∧ (let m := s.sw.getLedger p
       m.started = true → m.dirty = true → m.room 1920 true = true → s.sw.teller.state ≠ 1 → s.sw.ledgerQueue = [] →
       After (.ledgerSealTimer p) s fun t => ReportFrame s t ∧ (t.sw.getLedger p).seals = m.seals + 1 ∧ (t.sw.getLedger p).nextSeq = m.nextSeq + 15
         ∧ (t.sw.getLedger p).dirty = false ∧ (t.sw.getLedger p).entries.length = m.entries.length + 15 ∧ ∀ q ≠ p, t.sw.getLedger q = s.sw.getLedger q)

/-- A balance sample makes P the largest reading; the regulator at or above LIMIT lowers the voltage by 5 mV while P is below P_ceil, and between its
bounds changes nothing; PWRBRK_N lowers the voltage in one step, not before step 7 of a start, and lets it be at its release; a junction from 95 °C on throttles, 110 °C trips:
THERMTRIP_N, every engine in REST, and off when the hold ends. The AKG-8 does the same for itself. -/
def Obligations.PaceAndHeatRowsComplete : Prop :=
  ∀ (s : State) (n : Nat) (l : List Nat),
    let pw := s.sw.power
    let ticked := { pw with watts := n, samples := (n :: pw.samples).take 1000, lowTicks := 0 }
    (l.foldl max 0 ≤ 160 → l.foldl max 0 ≤ s.sw.sys.cfg.ceil → exec (.balanceSample .sw l) s
      = .next (s.onPower fun x => { x with p := l.foldl max 0, pMax := max x.pMax (l.foldl max 0), balance := l, paceOver := false }))
    ∧ exec (.balanceSample .ep l) s = .next (s.onEp fun e => { e with p := l.foldl max 0 })
    ∧ (s.sw.limit ≤ n → s.sw.sys.pwrbrk = false → pw.p < s.sw.sys.cfg.ceil → After (.regulatorTick .sw n) s fun t =>
      t = { s with sw := { s.sw with power := { ticked with mV := max 600 (min 900 (pw.mV - 5)) } }, out := t.out } ∧ s.out <+: t.out)
    ∧ (n < s.sw.limit → s.sw.limit ≤ n + 20 → s.sw.sys.pwrbrk = false → pw.p ≤ s.sw.sys.cfg.target + 1 → s.sw.sys.cfg.target ≤ pw.p + 1 →
      exec (.regulatorTick .sw n) s = .next (s.onPower fun _ => ticked))
    ∧ (s.ep.powerLimit ≤ n → s.ep.p < s.ep.ceil → After (.regulatorTick .ep n) s fun t =>
      t = { s with ep := { s.ep with mV := max 600 (min 900 (s.ep.mV - 5)) }, out := t.out } ∧ s.out <+: t.out)
    ∧ (∀ k m, m < 7 → s.sw.sys.pwrbrk = false → s.sw.sys.phase = .starting k m → exec .pwrbrkNAssert s = .next (s.onSys fun y => { y with pwrbrk := true }))
    ∧ (s.sw.sys.pwrbrk = false → s.sw.sys.phase.brakes = true →
      (pw.watts ≤ s.sw.sys.cfg.brake → exec .pwrbrkNAssert s = .next ((s.onSys fun y => { y with pwrbrk := true }).setEvent 4))
      ∧ (600 ≤ pw.mV → pw.mV ≤ 900 → After .pwrbrkNAssert s fun t => t.sw.sys = { s.sw.sys with pwrbrk := true }
          ∧ t.sw.power = { pw with mV := t.sw.power.mV } ∧ 600 ≤ t.sw.power.mV ∧ t.sw.power.mV ≤ pw.mV ∧ t.ep = s.ep))
    ∧ exec .pwrbrkNDeassert s = .next (s.onSys fun y => { y with pwrbrk := false })
    ∧ (95 ≤ n →
      (pw.throttle = 0 → exec (.throttle n) s = .next (((s.onPower fun x => { x with throttle := n - 94 }).record { kind := 0x82, domain := 8 }).setEvent 4))
      ∧ (pw.throttle ≠ 0 → exec (.throttle n) s = .next (s.onPower fun x => { x with throttle := n - 94 })))
    ∧ exec .throttleEnd s = .next (s.onPower fun x => { x with throttle := 0 })
    ∧ (s.sw.sys.phase = .running → After .thermalTrip s fun t => t.sw.sys.phase = .tripHold ∧ t.sw.sys.thermTrip = true
      ∧ Out.pin .thermTripN false ∈ t.out ∧ (∀ e < 48, (t.sw.domain 1 e).state = 3) ∧ (∀ c < 24, (t.sw.domain 2 c).state = 2) ∧ t.ep = s.ep)
    ∧ (s.sw.sys.phase = .tripHold → After .tripHoldEnd s fun t => t.sw.sys.phase = .off ∧ t.sw.sys.hostLink = false ∧ t.sw.sys.thermTrip = false
      ∧ SameMemory s t ∧ t.ep = s.ep)
    ∧ (n < 95 → exec (.endpointThermal n) s = .next (s.onEp fun e => { e with powerLimit := 46 }))
    ∧ (95 ≤ n → n < 110 → exec (.endpointThermal n) s = .next ((s.onEp fun e => { e with powerLimit := 46 - 2 * (n - 94) }).epEvent 4))
    ∧ (110 ≤ n → s.ep.thermTrip = false → After (.endpointThermal n) s fun t => t.ep.off = true ∧ t.ep.thermTrip = true ∧ t.sw = s.sw
      ∧ t.ep.home = s.ep.home ∧ Out.pin .epThermTripN false ∈ t.out)

/-- At a port in service with keys and one flit to a group: a flit whose check fails is asked for by a NAK; a NULL flit that authenticates acknowledges,
and a NAK flit asks for the flits from its restart flit on as well; a KEYX flit in order acknowledges, and its slots join the message that arrives,
which acts when it is whole; a DATA flit in order of empty slots moves the counter and acknowledges if its group verifies, and is asked for again if
it does not. A NAK sends the flits from the restart flit on again; the repeat counts to 16, then the port goes down; a void tail discards the open
frame and returns its credits, or, where its header has left through the switch, ends it there with REASON 3; CREDIT returns cells. -/
def Obligations.LinkLayerRowsComplete : Prop :=
  ∀ (s : State) (d : Dev) (p n : Nat) (bytes : List Byte) (es : List (Nat × Nat)),
    let l := s.getLink d p
    let r := l.rx
    let put := fun (m : Link) => s.putLink d p m
    exec (.nak d p n) s = .next (s.ranAt d (put { l with tx := { l.tx with resend := (l.tx.replay.map Prod.fst).dropWhile (· != n) } }))
    ∧ (r.nak = none → exec (.nakRepeat d p) s = .next (s.ranAt d s))
    ∧ (∀ q k, r.nak = some (q, k) → k < 16 → exec (.nakRepeat d p) s = .next (s.ranAt d ((put { l with
          rx := { r with nak := some (q, k + 1), expect := q }, tx := { l.tx with nak := some q } }).countPort d p cReplay)))
    ∧ (∀ q k, r.nak = some (q, k) → 16 ≤ k → ∃ u, exec (.nakRepeat d p) s = .next (s.ranAt d u) ∧ (u.getLink d p).rx = {} ∧ (u.getLink d p).tx = {}
          ∧ ((u.getLink d p).state = .detect ∨ (u.getLink d p).state = .down) ∧ SameMemory s u)
    ∧ (r.open_ = none → exec (.void d p n) s = .next (s.ranAt d (s.countPort d p cVoidRx)))
    ∧ (∀ m ls, r.open_ = some (m, ls) →
          let closed : Link := { l with rx := { r with open_ := none, early := none, entered := r.entered.del m, paid := r.paid.del m } }
          let f := Frame.ofHeader (padTo 32 ls.flatten)
          (d = .ep → exec (.void d p n) s = .next (s.ranAt d (((put closed).emit (.ctrl .ep p (.credit [(f.cls, f.cells)]))).countPort d p cVoidRx)))
          ∧ (d = .sw → r.entered.find m = none →
              exec (.void d p n) s = .next (s.ranAt d (((put closed).returnCredit p ((put closed).sw.vcIn p f) f.cells).countPort d p cVoidRx)))
          ∧ (d = .sw → (r.entered.find m).isSome = true → After (.void d p n) s fun t => t.getLink d p = closed ∧ SameMemory s t
              ∧ (∀ x ∈ s.sw.core.cut, x.1 < 64 → x.2.b.src = p → x.2.b.whole = false → x.2.b.mark = m → Out.voidTail .sw x.1 3 ∈ t.out)
              ∧ ∀ x ∈ t.sw.core.queue ++ t.sw.core.inbox ++ t.sw.core.held, ∀ b ∈ x.2, (b.src == p && !b.whole && b.mark == m) = false))
    ∧ (∃ u, exec (.credit d p es) s = .next (s.ranAt d u)
          ∧ u = { s with sw := { s.sw with core := { s.sw.core with spent := u.sw.core.spent } }, ep := { s.ep with spent := u.ep.spent } }
          ∧ (∀ v < 16, let cells := ((es.filter fun e => e.1 % 16 == v).map (·.2)).sum
              (d = .sw → u.sw.core.spent.get (p * 16 + v) 0 = s.sw.core.spent.get (p * 16 + v) 0 - cells ∧ u.ep = s.ep)
              ∧ (d = .ep → u.ep.spent.get (p * 16 + v) 0 = s.ep.spent.get (p * 16 + v) 0 - cells ∧ u.sw = s.sw))
          ∧ ∀ k, k / 16 ≠ p → u.sw.core.spent.get k 0 = s.sw.core.spent.get k 0 ∧ u.ep.spent.get k 0 = s.ep.spent.get k 0)
    ∧ (l.state ≠ .secure → l.state ≠ .time → l.state ≠ .active → exec (.flitReceive d p bytes) s = .next (s.ranAt d s))
    ∧ (l.state = .active → ∀ k, r.key = some k → k.g = 1 → r.newKey = none → r.nak = none → r.before = none → r.group = [] → r.open_ = none → r.early = none →
        r.entered = [] → r.expect < 4096 → r.verified = r.expect →
        let b := (fecCorrect bytes).1
        let h := field b 0 8
        let sound := (crc32c (slice b 0 248)).toNat = field b 248 4
        let l := match (fecCorrect bytes).2 with
          | some j => l.countSymbol j
          | none => l
        let next := (r.expect + 1) % 4096
        let got := if r.got.contains r.expect then r.got else r.got ++ [r.expect]
        let kept := got.filter fun q => !seqBefore q next
        let body := (slice b 8 240).take 224
        let verifies := (Config.gcmTag k.key (k.iv r.counter) (slice b 0 8) body).toNat = leVal ((slice b 8 240).drop 224)
        let msg := r.keyx ++ slice b 8 240
        let size := field msg 4 4
        ∃ u, exec (.flitReceive d p bytes) s = .next (s.ranAt d u)
          ∧ (¬ sound ∨ bits h 24 4 = 0 ∨ 4 < bits h 24 4 → u.getLink d p = { l with rx := { r with nak := some (r.expect, 1) }, tx := { l.tx with nak := some r.expect } })
          ∧ (sound → bits h 24 4 = 1 → bits h 0 12 = r.expect → kindsOf (slice b 0 8) = List.replicate 15 0 → verifies →
              u.getLink d p = Link.takeAck { l with rx := { r with expect := next, verified := next, got := kept, counter := r.counter + 1 } } (bits h 12 12)
              ∧ SameMemory s u)
          ∧ (sound → bits h 24 4 = 1 → bits h 0 12 = r.expect → kindsOf (slice b 0 8) = List.replicate 15 0 → ¬ verifies →
              u.getLink d p = { l with rx := { r with nak := some (r.expect, 1), got := got }, tx := { l.tx with nak := some r.expect } } ∧ SameMemory s u)
          ∧ (sound → bits h 24 4 = 2 → bits h 0 12 = r.expect →
              let taken := fun rest : List Byte => Link.takeAck { l with rx := { r with expect := next, verified := next, got := kept, keyx := rest } } (bits h 12 12)
              (8 ≤ size → size ≤ 6065 → msg.length < size → u.getLink d p = taken msg ∧ SameMemory s u)
              ∧ (size < 8 ∨ 6065 < size → u.getLink d p = taken [] ∧ SameMemory s u)
              ∧ (8 ≤ size → size ≤ 6065 → size ≤ msg.length → ∃ v, v.getLink d p = taken [] ∧ SameMemory s v ∧ u = v.keyMsgArrives d p (msg.take size)))
          ∧ (sound → bits h 24 4 = 3 → r.controlOk b = true →
              u.getLink d p = Link.takeAck { l with rx := { r with ctrlCount := field b 8 8 } } (bits h 12 12) ∧ SameMemory s u)
          ∧ (sound → bits h 24 4 = 4 → r.controlOk b = true →
              let m := Link.takeAck { l with rx := { r with ctrlCount := field b 8 8 } } (bits h 12 12)
              u.getLink d p = { m with tx := { m.tx with resend := (m.tx.replay.map Prod.fst).dropWhile (· != bits h 0 12) } } ∧ SameMemory s u)
          ∧ (sound → bits h 24 4 = 3 ∨ bits h 24 4 = 4 → r.controlOk b = false → u.getLink d p = l ∧ u.out = s.out))

/-- A PROBE_REQ is answered, the timer sends one, a PROBE_RSP to the probe in flight counts towards the eight of this direction that end TIME once the
partner's eight are good too, and corrects fabric time at the frequency source, by at most 0.5 ns a probe once time is valid; PROBE_INFO is noted, and
another package or book closes the port's gates; a failed frequency source is left; a standby that loses the master acts, and without a standby the
switch enters holdover; PPS_IN steers only a master with it enabled, once a second and towards the whole second; each whole second raises and lowers
PPS_OUT. That the partner's count goes by its PROBE_REQs is the model's choice (log 121). -/
def Obligations.TimeRowsComplete : Prop :=
  ∀ (s : State) (d : Dev) (p id at_ turn t2 t4 hops book change package : Nat) (master valid via : Bool),
    let c := s.getClock d
    let w := s.sw.clock
    let l := s.getLink d p
    let th := theta ((c.probes.find p).getD (0, 0)).2 t2 turn t4
    (s.probing d p = false → exec (.probeReq d p id at_) s = .next s ∧ exec (.probeTimer d p) s = .next s
      ∧ exec (.probeInfo d p hops book master valid via change package) s = .next s)
    ∧ (s.probing d p = true →
      (let v : State := { s with
          out := s.out ++ [.ctrl d p (.probeRsp id ((time64 (s.now d) + 2 ^ 64 - at_ % 2 ^ 64) % 2 ^ 48) at_), .ctrl d p (s.probeInfoOf d)] };
        (l.state = .active → exec (.probeReq d p id at_) s = .next v)
        ∧ (l.state = .time → l.probesOk < 8 ∨ l.partnerOk < 7 → exec (.probeReq d p id at_) s
            = .next (v.onLink d p fun l => { l with partnerOk := if 0 < l.probesOk then l.partnerOk + 1 else 0 }))
        ∧ (l.state = .time → 8 ≤ l.probesOk → 7 ≤ l.partnerOk → After (.probeReq d p id at_) s fun t => (t.getLink d p).state = .active ∧ SameMemory s t))
      ∧ (After (.probeTimer d p) s fun t => (t.getClock d).probes.find p = some (c.nextProbe.get p 0, time64 c.now)
          ∧ (t.getClock d).nextProbe.get p 0 = (c.nextProbe.get p 0 + 1) % 256
          ∧ t.out = s.out ++ [.ctrl d p (.probeReq (c.nextProbe.get p 0)), .ctrl d p (s.probeInfoOf d)] ∧ SameMemory s t)
      ∧ After (.probeInfo d p hops book master valid via change package) s fun t => SameMemory s t
          ∧ (t.getClock d).advert.find p = some { hops := hops, book := book, master := master, valid := valid, via := via, package := package }
          ∧ (book ≠ t.bookShown d ∨ package ≠ ((t.getSched d).active.map (·.id)).getD 0 → (t.getGate d p).closed = true))
    ∧ (c.probes.find p = none ∨ (∃ i t1, c.probes.find p = some (i, t1) ∧ i ≠ id) → exec (.probeRsp d p id turn t2 t4) s = .next s)
    ∧ ((∃ t1, c.probes.find p = some (id, t1)) → l.state = .time →
      let near := th.natAbs * 1000000000 ≤ 2 * 2 ^ 32
      (¬ near → After (.probeRsp d p id turn t2 t4) s fun t => (t.getLink d p) = { l with probesOk := 0, partnerOk := 0 }
          ∧ (c.source ≠ some p → (t.getClock d).now = c.now))
      ∧ (near → l.probesOk < 7 ∨ l.partnerOk < 8 → After (.probeRsp d p id turn t2 t4) s fun t =>
          (t.getLink d p) = { l with probesOk := l.probesOk + 1 } ∧ (c.source ≠ some p → (t.getClock d).now = c.now))
      ∧ (near → 7 ≤ l.probesOk → 8 ≤ l.partnerOk → After (.probeRsp d p id turn t2 t4) s fun t => (t.getLink d p).state = .active ∧ SameMemory s t))
    ∧ ((∃ t1, c.probes.find p = some (id, t1)) → l.state = .active → c.source = some p → (c.advert.get p {}).hops ≠ 0xFF →
      (c.valid = false ∨ c.holdover = true ∨ c.restep = true → After (.probeRsp d p id turn t2 t4) s fun t =>
        (t.getClock d).now = moveTime c.now (thetaUnits th) ∧ (t.getClock d).valid = true ∧ (t.getClock d).holdover = false)
      ∧ (c.valid = true → c.holdover = false → c.restep = false → After (.probeRsp d p id turn t2 t4) s fun t =>
        c.now ≤ (t.getClock d).now + 425 ∧ (t.getClock d).now ≤ c.now + 425 ∧ (t.getClock d).thetas = (th :: c.thetas).take 8))
    ∧ (c.source = none → exec (.frequencySourceFail d) s = .next s)
    ∧ (∀ q, c.source = some q → After (.frequencySourceFail d) s fun t => (t.getClock d).source ≠ some q ∧ (t.getClock d).advert.find q = none
        ∧ (t.getClock d).now = c.now ∧ SameMemory s t)
    ∧ ((w.master = s.sw.sys.homeId ∧ w.lost = false) ∨ w.acting = true → exec .timeMasterLost s = .next s)
    ∧ (w.master ≠ s.sw.sys.homeId → w.acting = false → w.standby = s.sw.sys.homeId → After .timeMasterLost s fun t =>
        t.sw.clock = { w with lost := true, acting := true, viaTime := true, source := none, thetas := [] } ∧ SameMemory s t)
    ∧ (w.master ≠ s.sw.sys.homeId → w.acting = false → w.standby = 0x3FF → s.sw.sys.homeId ≠ 0x3FF → After .timeMasterLost s fun t =>
        t.sw.clock.lost = true ∧ t.sw.clock.holdover = true ∧ t.sw.clock.source = none ∧ SameMemory s t)
    ∧ ((s.sw.isMaster && w.pps) = false → exec .ppsIn s = .next s)
    ∧ ((s.sw.isMaster && w.pps) = true → -200 ≤ w.steer → w.steer ≤ 200 →
      (∀ e, w.ppsEdge = some e → (w.now : Int) < e + tSec → exec .ppsIn s = .next s)
      ∧ ((∀ e, w.ppsEdge = some e → e + tSec ≤ (w.now : Int)) → exec .ppsIn s = .next { s with sw := { s.sw with clock := { w with
          ppsEdge := some w.now
          steer := max (-200) (min 200 (if 0 < offSecond w.now then w.steer - 1 else if offSecond w.now < 0 then w.steer + 1 else w.steer)) } } }))
    ∧ exec .wholeSecond s = .next { s with out := s.out ++ [.pin .ppsOut true, .pin .ppsOut false] }

/-- An INIT whose certificate verifies is answered with RESP; a RESP with a signature that verifies, with FIN, and both directions' keys wait for its
acknowledgement, which in the first exchange installs them; a FIN that verifies installs the responder's keys; one that does not verify fences the
port. REKEY_REQ, a counter at 2^39 and the retry begin a rekey, by INIT at the initiator and REKEY_REQ at the responder; at 2^40 the port goes down; a
late exchange fails SECURE or is to be retried. -/
def Obligations.KeyRowsComplete : Prop :=
  ∀ (s : State) (d : Dev) (p : Nat) (m : KeyMsg),
    let l := s.getLink d p
    let partner := l.partner.getD {}
    let rekeys := fun (u : State) =>
      (s.initiates d p = true → ∃ x, (u.getLink d p).xchg = some x ∧ x.stage = 1 ∧ x.mine.g = s.txG d p ∧ x.mine.cert = Config.certificate
        ∧ (u.getLink d p).tx = { l.tx with retry := false, keyx := l.tx.keyx ++ keyPieces (initBytes x.mine) false })
      ∧ (s.initiates d p = false → (u.getLink d p).xchg = none ∧ (u.getLink d p).tx = { l.tx with retry := false, keyx := l.tx.keyx ++ keyPieces rekeyReqBytes false })
    (∃ u, exec (.init d p m) s = .next (s.ranAt d u)
      ∧ (s.initiates d p = true ∨ (l.state ≠ .secure ∧ l.state ≠ .active) → u = s)
      ∧ (s.initiates d p = false → l.state = .secure ∨ l.state = .active →
        (certOk partner m.cert = false → (u.getLink d p).state = .fenced ∧ (u.getLink d p).fenceWhy = 2)
        ∧ (certOk partner m.cert = true → ∃ x, (u.getLink d p).xchg = some x ∧ x.stage = 2 ∧ x.partner = m ∧ x.mine.g = s.txG d p ∧ x.mine.kem.length = 1568
              ∧ x.mine.cert = Config.certificate ∧ x.mine.sig = Config.falconSign (Config.shake256 (initBytes m ++ respSigned x.mine)) ∧ x.ss.length = 32
              ∧ (u.getLink d p).tx = { l.tx with keyx := l.tx.keyx ++ keyPieces (respBytes x.mine) false })))
    ∧ (l.xchg = none → exec (.resp d p m) s = .next (s.ranAt d s) ∧ exec (.fin d p m) s = .next (s.ranAt d s))
    ∧ (∀ x, l.xchg = some x → x.stage = 1 → s.initiates d p = true →
      let good := certOk partner m.cert && Config.falconVerify (certKey m.cert) (Config.shake256 (initBytes x.mine ++ respSigned m)) m.sig
      let keys := linkKeys (padTo 32 (Config.linkDecap x.dk m.kem)) x.mine m l.nextEpoch
      ∃ u, exec (.resp d p m) s = .next (s.ranAt d u)
        ∧ (good = false → l.state ≠ .fenced → (u.getLink d p).state = .fenced)
        ∧ (good = true → u.getLink d p = { l with
            xchg := some { x with stage := 3, partner := m, dk := [] }, rx := { l.rx with newKey := some keys.2 }
            tx := { l.tx with newKey := some keys.1, keyx := l.tx.keyx ++ keyPieces (finBytes (Config.falconSign (transcript x.mine m))) true } }))
    ∧ (∀ a f, l.tx.fin = some f → (l.tx.replay.any fun x => x.1 == a) = true → (((l.tx.replay.dropWhile fun x => x.1 != a).drop 1).any fun x => x.1 == f) = false →
      let t := l.takeAck a
      t.tx.fin = none ∧ t.xchg = none
      ∧ (l.state = .secure → t.state = .time ∧ t.tx.key = l.tx.newKey ∧ t.tx.newKey = none ∧ t.tx.counter = 0 ∧ t.rx.key = l.rx.key.or l.rx.newKey)
      ∧ (l.state ≠ .secure → t.state = l.state ∧ t.tx.key = l.tx.key ∧ t.tx.newKey = l.tx.newKey))
    ∧ (∀ x, l.xchg = some x → x.stage = 2 →
      let good := Config.falconVerify (certKey x.partner.cert) (transcript x.partner x.mine) m.sig
      let keys := linkKeys x.ss x.partner x.mine l.nextEpoch
      ∃ u, exec (.fin d p m) s = .next (s.ranAt d u)
        ∧ (good = false → l.state ≠ .fenced → (u.getLink d p).state = .fenced)
        ∧ (good = true → l.state = .secure → (u.getLink d p).state = .time ∧ (u.getLink d p).rx.key = some keys.1 ∧ (u.getLink d p).tx.key = some keys.2)
        ∧ (good = true → l.state ≠ .secure → u.getLink d p = { l with
            xchg := none, rx := { l.rx with newKey := some keys.1 }, tx := { l.tx with newKey := some keys.2 } }))
    ∧ (l.state ≠ .active ∨ l.xchg.isSome = true → exec (.rekeyReq d p) s = .next (s.ranAt d s) ∧ exec (.rekeyCount d p) s = .next (s.ranAt d s)
        ∧ exec (.rekeyRetry d p) s = .next (s.ranAt d s))
    ∧ (l.state = .active → l.xchg = none →
      (s.initiates d p = false → exec (.rekeyReq d p) s = .next (s.ranAt d s))
      ∧ (s.initiates d p = true → ∃ u, exec (.rekeyReq d p) s = .next (s.ranAt d u) ∧ rekeys u)
      ∧ (2 ^ 39 ≤ l.tx.counter → ∃ u, exec (.rekeyCount d p) s = .next (s.ranAt d u) ∧ rekeys u)
      ∧ (l.tx.counter < 2 ^ 39 → exec (.rekeyCount d p) s = .next (s.ranAt d s))
      ∧ (l.tx.retry = true → ∃ u, exec (.rekeyRetry d p) s = .next (s.ranAt d u) ∧ rekeys u)
      ∧ (l.tx.retry = false → exec (.rekeyRetry d p) s = .next (s.ranAt d s)))
    ∧ (l.state = .secure → ∃ u, exec (.keyExchangeTimeout d p) s = .next (s.ranAt d u)
        ∧ (l.attempts < 7 → (u.getLink d p).state = .down ∧ (u.getLink d p).attempts = l.attempts + 1 ∧ (u.getLink d p).retry = true)
        ∧ (7 ≤ l.attempts → (u.getLink d p).state = .fenced ∧ (u.getLink d p).fenceWhy = 2))
    ∧ (l.state ≠ .secure → exec (.keyExchangeTimeout d p) s = .next (s.ranAt d (if l.xchg.isNone then s else
        s.putLink d p { l with xchg := none, tx := { l.tx with newKey := none, fin := none, retry := true }, rx := { l.rx with newKey := none } })))
    ∧ (l.tx.counter < 2 ^ 40 → exec (.keyCounterExhausted d p) s = .next (s.ranAt d s))
    ∧ (2 ^ 40 ≤ l.tx.counter → ∃ u, exec (.keyCounterExhausted d p) s = .next (s.ranAt d u) ∧ (u.getLink d p).tx = {} ∧ (u.getLink d p).rx = {}
        ∧ ((u.getLink d p).state = .detect ∨ (u.getLink d p).state = .down) ∧ SameMemory s u)

/-- A port in DETECT locks to its partner and sends its identity record, as does an AKG-8 port fenced for another cause than link loss, whose attempts
begin afresh; four identical copies of a record whose CHECK verifies are taken: one that fits starts the ladder at S0 or resumes, another fences the
port; a step with every figure of both directions at 96 or more climbs, or settles at the target; no working width falls back or fences; the lane map
ends in SECURE; a failed attempt waits in DOWN, the eighth in a row fences, and the wait ends in DETECT. Lanes that fail in service in one check change
the maps of both directions or fence the port; the bit-error tests take lanes in turn, and a switch gives each lane's result to the Tally. -/
def Obligations.TrainingRowsComplete : Prop :=
  ∀ (s : State) (d : Dev) (p lane n m : Nat) (copies : List (List Byte)) (q : LaneReport) (lanes figures partner : List Nat) (cause : LaneFault) (out : Bool),
    let l := s.getLink d p
    let all := fun (f : Nat → Prop) => ∀ i < 10, f (q.figures.getD i 0) ∧ f (q.partner.getD i 0)
    let fails := fun (u : State) => (u.getLink d p).state = if l.attempts < 7 then .down else .fenced
    (l.state = .detect → (d = .ep → s.ep.ucie ≠ []) → ∃ u, exec (.partnerClockLock d p) s = .next (s.ranAt d u)
      ∧ u.getLink d p = { l with state := .identify } ∧ Out.identity d p (identityBytes (s.identityOf d p)) ∈ u.out)
    ∧ (l.state = .fenced → l.fenceWhy ≠ 1 → d = .ep → s.ep.ucie ≠ [] → ∃ u, exec (.partnerClockLock d p) s = .next (s.ranAt d u)
      ∧ u.getLink d p = { l with state := .identify, attempts := 0 } ∧ Out.identity d p (identityBytes (s.identityOf d p)) ∈ u.out)
    ∧ (l.state ≠ .detect → l.state ≠ .fenced ∨ d = .sw ∨ l.fenceWhy = 1 → exec (.partnerClockLock d p) s = .next (s.ranAt d s))
    ∧ (l.state ≠ .identify ∨ recordOf copies = none → exec (.identityRecord d p copies) s = .next (s.ranAt d s))
    ∧ (l.state = .identify → ∀ r, recordOf copies = some r → ∃ u, exec (.identityRecord d p copies) s = .next (s.ranAt d u)
        ∧ ((s.identityFault d p r).isSome = true → (u.getLink d p).state = .fenced ∧ (u.getLink d p).fenceWhy = 2)
        ∧ (s.identityFault d p r = none → fastPair (s.identityOf d p) r = false → u.getLink d p = Link.climb { l with partner := some r })
        ∧ (s.identityFault d p r = none → fastPair (s.identityOf d p) r = true → ∀ st, l.stored = some st →
            u.getLink d p = Link.resume { l with partner := some r } st.res))
    ∧ (l.state ≠ .equalise → exec (.equaliseDone d p q) s = .next (s.ranAt d s))
    ∧ (l.state = .equalise → l.adaptive = true → (d = .sw → (s.sw.sys.cfg.port.get p {}).eqMode ≠ 1) → ∃ u, exec (.equaliseDone d p q) s = .next (s.ranAt d u)
        ∧ (all (96 ≤ ·) → l.step < s.targetStep d p → (u.getLink d p).state = .equalise ∧ (u.getLink d p).step = l.step + 1
            ∧ (u.getLink d p).adaptive = false)
        ∧ (all (96 ≤ ·) → s.targetStep d p ≤ l.step → (u.getLink d p).state = .map ∧ (u.getLink d p).step = l.step ∧ (u.getLink d p).width = 0
            ∧ 96 ≤ (u.getLink d p).fom ∧ (u.getLink d p).fail = 0 ∧ (u.getLink d p).eq = q.eq ∧ (u.getLink d p).eqTable = false
            ∧ (u.getLink d p).slowLink = decide (l.step < 3))
        ∧ (all (· < 64) → ∀ x rest, l.steps = x :: rest → (u.getLink d p).state = .map ∧ (u.getLink d p).step = x.step ∧ (u.getLink d p).width = x.width)
        ∧ (all (· < 64) → l.steps = [] → (u.getLink d p).state = .fenced ∧ (u.getLink d p).fenceWhy = 2))
    ∧ (l.state ≠ .map → exec (.laneMapDone d p ⟨figures, partner⟩) s = .next (s.ranAt d s))
    ∧ (l.state = .map → ∃ u, exec (.laneMapDone d p ⟨figures, partner⟩) s = .next (s.ranAt d u)
        ∧ (l.fast = true → l.lanes.lowest figures < 64 ∨ l.out.lowest partner < 64 → u.getLink d p = l.climb)
        ∧ (l.fast = false ∨ (64 ≤ l.lanes.lowest figures ∧ 64 ≤ l.out.lowest partner) → (u.getLink d p).state = .secure ∧ (u.getLink d p).rx = {}
            ∧ (u.getLink d p).xchg.map (·.stage) = if s.initiates d p then some 1 else none))
    ∧ (l.state.inTraining = false → exec (.trainingTimeout d p) s = .next (s.ranAt d s) ∧ exec (.lockLossBeforeActive d p) s = .next (s.ranAt d s))
    ∧ (l.state.inTraining = true → (∃ u, exec (.trainingTimeout d p) s = .next (s.ranAt d u) ∧ fails u)
        ∧ ∃ u, exec (.lockLossBeforeActive d p) s = .next (s.ranAt d u) ∧ fails u)
    ∧ (l.retry = false ∨ (d = .sw ∧ s.sw.sys.noCable.contains p = true) → exec (.trainingRetry d p) s = .next (s.ranAt d s))
    ∧ (l.retry = true → (d = .sw → s.sw.sys.noCable.contains p = false) → ∃ u, exec (.trainingRetry d p) s = .next (s.ranAt d u)
        ∧ u.getLink d p = { l with state := .detect, retry := false } ∧ Out.tickClock d p ∈ u.out)
    ∧ (l.state ≠ .active → exec (.laneFailed d p ⟨lanes, out⟩ cause) s = .next (s.ranAt d s))
    ∧ (l.state = .active →
        let e := l.endTest
        let hit := lanes.filter fun i => decide (i < 10) && !bit (if out then e.out else e.lanes).fail i && ((if out then e.out else e.lanes).inUse i || i == 8)
        ∃ u, exec (.laneFailed d p ⟨lanes, out⟩ cause) s = .next (s.ranAt d u)
        ∧ (l.changing.isSome = true → u.getLink d p = { l with later := l.later ++ [(lanes, cause, out)] })
        ∧ (l.changing = none → hit = [] → u = s)
        ∧ (l.changing = none → hit ≠ [] → e.failLanes hit out = none → (u.getLink d p).state = .fenced ∧ (u.getLink d p).fenceWhy = 2)
        ∧ (l.changing = none → hit ≠ [] → ∀ a b, e.failLanes hit out = some (a, b) →
            ((e.lanes.moves a || e.out.moves b) = true → u.getLink d p = { e with fail := a.fail, out := { e.out with fail := b.fail }, changing := some (a, b) })
            ∧ ((e.lanes.moves a || e.out.moves b) = false → u.getLink d p = { e.putLanes a with out := b })))
    ∧ (l.changing = none → exec (.laneChangeDone d p) s = .next (s.ranAt d s))
    ∧ (∀ a b, l.changing = some (a, b) → l.later = [] → ∃ u, exec (.laneChangeDone d p) s = .next (s.ranAt d u)
        ∧ u.getLink d p = ({ l.putLanes { a with fail := l.fail } with
            out := { b with fail := l.out.fail }, changing := none, changed := true, later := [], tx := { l.tx with resend := l.tx.replay.map Prod.fst } } : Link).keep)
    ∧ (d = .sw ∧ s.sw.sys.cfg.testHours = 0 ∨ l.testable = false → exec (.periodicTestDue ⟨d, p⟩) s = .next (s.ranAt d s))
    ∧ ((d = .sw → s.sw.sys.cfg.testHours ≠ 0) → l.testable = true → ∃ u, exec (.periodicTestDue ⟨d, p⟩) s = .next (s.ranAt d u) ∧ u.getLink d p = l.testLane false 0)
    ∧ (l.test = none → exec (.laneTestEnd ⟨d, p⟩ lane ⟨n, m⟩) s = .next (s.ranAt d s))
    ∧ (∀ x, l.test = some x → x.lane = lane → l.state = .active → ∃ u, exec (.laneTestEnd ⟨d, p⟩ lane ⟨n, m⟩) s = .next (s.ranAt d u)
        ∧ (d = .sw → u.sw.tally.laneTest.find (p * 16 + lane) = some { install := x.install, errors := n })
        ∧ (n ≤ allowedErrors x.install → m ≤ allowedErrors x.install →
            u.getLink d p = if lane = 9 then l.endTest else l.testLane x.install (if lane = 7 then 9 else lane + 1))
        ∧ (allowedErrors x.install < n → (u.getLink d p).test = none ∧ (u.getLink d p).jewel = (if lane = 9 then 8 else lane)
            ∧ (u.getLink d p).fail = l.fail ||| 2 ^ lane)
        ∧ (allowedErrors x.install < m → (u.getLink d p).test = none ∧ (u.getLink d p).out.jewel = (if lane = 9 then 8 else lane)
            ∧ (u.getLink d p).out.fail = l.out.fail ||| 2 ^ lane))

/-- Chime wakes a port out of NAP or REST; the loss of an ACTIVE port fences it, at the switch and at the AKG-8; a cable that leaves fences its port,
one that comes lets a port in DOWN train again; an overcurrent removes the connector's 3.3 V. -/
def Obligations.LossAndCableRowsComplete : Prop :=
  ∀ (s : State) (p : Nat),
    exec (.chime .sw p) s = .next (s.work 0 p)
    ∧ (s.sw.power.dom.find p = some { state := 1 } → exec (.chime .sw p) s = .next (s.onPower fun w => { w with dom := w.dom.put p { state := 0 } }))
    ∧ (∃ u, exec (.chime .ep p) s = .next (s.ranAt .ep u)
        ∧ ((s.ep.getLink p).state = .nap → u.ep.getLink p = { s.ep.getLink p with state := .active, power := 0 })
        ∧ ((s.ep.getLink p).state = .rest → u.ep.getLink p = { s.ep.getLink p with state := .detect, power := 0, waking := true } ∧ Out.tickClock .ep p ∈ u.out)
        ∧ ((s.ep.getLink p).state ≠ .nap → (s.ep.getLink p).state ≠ .rest → u = s))
    ∧ ((s.sw.getLink p).state ≠ .active → exec (.linkLoss p) s = .next s)
    ∧ ((s.sw.getLink p).state = .active → After (.linkLoss p) s fun t => (t.sw.getLink p).state = .fenced ∧ (t.sw.getLink p).fenceWhy = 1
        ∧ ∀ k ≠ p, t.sw.getLink k = s.sw.getLink k)
    ∧ (∃ u, exec (.endpointLinkLoss p) s = .next (s.ranAt .ep u)
        ∧ (s.ep.portLive p = false → u = s)
        ∧ (s.ep.portLive p = true → (u.ep.getLink p).state = .fenced ∧ (u.ep.getLink p).fenceWhy = 1 ∧ (∀ x ∈ u.ep.flight, x.port ≠ p)
            ∧ (∀ k ≠ p, u.ep.getLink k = s.ep.getLink k) ∧ u.sw = s.sw))
    ∧ (After (.cablePresenceChange p true) s fun t => t.sw.sys.noCable.contains p = false
        ∧ ((s.sw.getLink p).state = .down → s.sw.sys.phase = .running → s.sw.sys.configDefault = false → (t.sw.getLink p).state = .detect)
        ∧ ((s.sw.getLink p).state ≠ .down → t.sw.link = s.sw.link))
    ∧ (After (.cablePresenceChange p false) s fun t => t.sw.sys.noCable.contains p = true
        ∧ ((s.sw.getLink p).state = .down → t.sw.link = s.sw.link)
        ∧ ((s.sw.getLink p).state ≠ .down → (t.sw.getLink p).state = .fenced ∧ (t.sw.getLink p).fenceWhy = 1))
    ∧ exec (.cableOvercurrent p) s = .next (if s.sw.sys.noPower.contains p then s
        else (s.onSys fun y => { y with noPower := p :: y.noPower }).emit (.pin (.cbl3v3 p) false))

/-- A scrub read corrects a line whose check bytes allow it, counts a corrected line once, records one it cannot correct, fences the channel of a worse
fault, and forgets a channel's page errors at its last line; the drain puts the new mask in force; a rewrap converts one line a step; a slot whose
count is zero, or whose TIMEOUT passes, is ZEROED, once the Ledger has room for the entry of it; an SRAM error fences the smallest domain that holds the item. -/
def Obligations.PoolRowsComplete : Prop :=
  ∀ (s : State) (l k n : Nat),
    let c := channelOf (l * 128)
    let scrubs := inPool (l * 128) 128 = true ∧ (s.sw.chan c).fenced = false ∧ (s.sw.chan c).resetting = false
    let m := s.sw.mem.home.lines.get l {}
    let clean := m.bad = false ∧ m.check = none
    (¬ scrubs → exec (.scrub l n) s = .next s)
    ∧ (∀ d, scrubs → deviceOf (l * 128) + 128 ≠ channelBytes → (∀ x ∈ s.sw.mem.cache, x.line ≠ l) → m.bad = false → m.fixed = some d →
      ∀ k < 2, exec (.scrub l k) s = .next ((s.onLine l fun m => { m with stored := d, check := none }).eccCorrected l))
    ∧ (scrubs → deviceOf (l * 128) + 128 ≠ channelBytes → (∀ x ∈ s.sw.mem.cache, x.line ≠ l) → m.uncorrectable = true →
      ∀ k < 2, exec (.scrub l k) s = .next (s.eccSeen l))
    ∧ (scrubs → deviceOf (l * 128) + 128 ≠ channelBytes → clean →
      exec (.scrub l 0) s = .next s
      ∧ ((s.sw.chan c).pageErrors.get (pageOf (l * 128)) 0 < 3 → After (.scrub l 1) s fun t =>
          (t.sw.chan c).pageErrors.get (pageOf (l * 128)) 0 = (s.sw.chan c).pageErrors.get (pageOf (l * 128)) 0 + 1
          ∧ t = { s with sw := { s.sw with tally := t.sw.tally, mem := { s.sw.mem with chan := t.sw.mem.chan } } } ∧ ∀ j ≠ c, t.sw.chan j = s.sw.chan j)
      ∧ (After (.scrub l 2) s fun t => (t.sw.mem.home.lines.get l {}).bad = true ∧ t.sw.mem.home.mem = s.sw.mem.home.mem)
      ∧ After (.scrub l 3) s fun t => (t.sw.chan c).fenced = true ∧ SameMemory s t)
    ∧ (scrubs → deviceOf (l * 128) + 128 = channelBytes → After (.scrub l n) s fun t => (t.sw.chan c).pageErrors = [])
    ∧ (s.sw.mem.drainMask = none → exec .poolCacheDrainDone s = .next s)
    ∧ (∀ e m, s.sw.mem.drainMask = some (e, m) → After .poolCacheDrainDone s fun t => t.sw.mem.mask.get e 0 = m ∧ t.sw.mem.drainMask = none
        ∧ t.sw.mem.drainOld = none ∧ t.sw.mem.cache = [] ∧ (∀ a ∈ t.sw.teller.active, a.work = .drain → a.result.isSome = true)
        ∧ ∀ j ≠ e, t.sw.mem.mask.get j 0 = s.sw.mem.mask.get j 0)
    ∧ (s.sw.mem.rewrap.find n = none → exec (.rewrapStep n) s = .next s)
    ∧ (∀ r, s.sw.mem.rewrap.find n = some r → r.done = true ∨ (s.sw.busy (r.cursor / 128)).isSome = true → exec (.rewrapStep n) s = .next s)
    ∧ (∀ r, s.sw.mem.rewrap.find n = some r → r.done = false → s.sw.busy (r.cursor / 128) = none → After (.rewrapStep n) s fun t =>
        ∃ bad, (bad = 0 ∨ bad = 1) ∧ t.sw.mem.rewrap.find n = some { r with
          cursor := r.cursor + 128, uncorrected := r.uncorrected + bad, done := decide (r.start + r.length ≤ r.cursor + 128) })
    ∧ ((s.sw.getSlot k).state ≠ .retiring → exec (.retirementCountZero k) s = .next s ∧ exec (.retirementTimeout k) s = .next s)
    ∧ ((s.sw.getSlot k).state = .retiring →
      ((s.sw.getSlot k).counted ≠ [] ∨ (s.sw.getSlot k).lines ≠ [] → exec (.retirementCountZero k) s = .next s)
      ∧ (s.sw.takesKept 0 = false → exec (.retirementCountZero k) s = .next s)
      ∧ ((s.sw.getSlot k).counted = [] → (s.sw.getSlot k).lines = [] → s.sw.takesKept 0 = true → After (.retirementCountZero k) s fun t =>
          (t.sw.getSlot k).state = .zeroed ∧ (t.sw.getSlot k).key = 0 ∧ (∀ x ∈ t.sw.mem.cache, x.slot ≠ k))
      ∧ (s.sw.teller.state = 1 → After (.retirementTimeout k) s fun t => (t.sw.getSlot k) = { s.sw.getSlot k with timedOut := true } ∧ t.sw.mem = s.sw.mem)
      ∧ (s.sw.teller.state ≠ 1 → After (.retirementTimeout k) s fun t =>
          ((t.sw.getSlot k).state = .zeroed ∧ (t.sw.getSlot k).key = 0)
          ∨ ((t.sw.getSlot k).state = .retiring ∧ (t.sw.getSlot k).counted = [] ∧ (t.sw.getSlot k).lines = [] ∧ t.sw.takesKept 0 = false)))
    ∧ (∀ b rest, s.sw.core.lock.find k = none → s.sw.core.waiting = [] → s.sw.core.queue.get (qKey k n) [] = b :: rest → After (.sramUncorrected (.cell k n)) s fun t =>
        t.sw.core.queue.get (qKey k n) [] = rest ∧ t.sw.core.retiredCells.get b.tile 0 = s.sw.core.retiredCells.get b.tile 0 + 1 ∧ t.sw.mem = s.sw.mem)
    ∧ (unitOfLine l = k → (s.sw.entry l).isSome = true → s.sw.busy l = none → After (.sramUncorrected (.directory k l)) s fun t =>
        (t.sw.mem.home.lines.get l {}).lost = true)
    ∧ (After (.sramUncorrected (.portTable k)) s fun t => (t.sw.getLink k).state = .fenced ∧ (t.sw.getLink k).fenceWhy = 2 ∧ ∀ j ≠ k, t.sw.getLink j = s.sw.getLink j)
    ∧ (After (.sramUncorrected (.poolCache l)) s fun t => (∀ x ∈ t.sw.mem.cache, x.line ≠ l)
        ∧ ((∃ x ∈ s.sw.mem.cache, x.line = l) → (t.sw.mem.home.lines.get l {}).bad = true) ∧ t.ep = s.ep)
    ∧ (After (.sramUncorrected (.scratch n)) s fun t => n / 8 ∈ t.sw.mem.home.badWords ∧ SameMemory s t ∧ t.ep = s.ep)
    ∧ (After (.sramUncorrected (.trunkVc k n)) s fun t => k * 16 + n ∈ t.sw.core.vcOut ∧ SameMemory s t)
    ∧ (After (.sramUncorrected (.engineTile k)) s fun t => (t.sw.getEngine k).fenced = true ∧ SameMemory s t)
    ∧ (After (.sramUncorrected .teller) s fun t => SameMemory s t
        ∧ t.sw.teller = if s.sw.teller.state = 0 then { s.sw.teller with state := 1, restarts := min 255 (s.sw.teller.restarts + 1) } else s.sw.teller)

/-- POWER_UP out of off begins a cold start, which leaves memory, keys and tables empty; RST_N takes frames off every port and holds the start until it
rises and the work before it is done; each step's ready signal begins the next: the Vault, the ROM, the book, the Teller, channels, repair, the
SRAM self-test of a cold start, and service; a low input ends in off after that work, a high one at once; EP_RST_N starts the AKG-8 with its ports in DETECT. -/
def Obligations.StartRowsComplete : Prop :=
  ∀ (s : State) (warm : Bool) (failed bad : List Nat),
    let y := s.sw.sys
    let down := fun (t : State) => ∀ p < 64, (t.sw.getLink p).state = .down
    (y.phase ≠ .off → exec .powerUp s = .next s)
    ∧ (y.phase = .off → After .powerUp s fun t => t.sw.sys.phase = .starting .cold 1 ∧ t.sw.sys.flash = { y.flash with writing := none } ∧ t.sw.sys.serial = y.serial
        ∧ t.sw.sys.fuseSteps = y.fuseSteps ∧ t.sw.mem.home = {} ∧ t.sw.mem.cache = [] ∧ t.sw.vault.slot = [] ∧ t.sw.vault.part = [] ∧ t.sw.ledger = []
        ∧ t.sw.tally.faults = [] ∧ t.sw.link = [] ∧ t.sw.teller = {} ∧ t.ep = s.ep)
    ∧ (y.phase.deaf = true → exec (.rstNFall warm) s = .next s)
    ∧ (y.phase.deaf = false → After (.rstNFall warm) s fun t => t.sw.sys.phase = .preStart (if warm then .warm else .cold) false ∧ t.sw.sys.rstN = false
        ∧ t.sw.sys.hostLink = false ∧ down t ∧ SameMemory s t)
    ∧ (y.rstN = true → exec .rstNRise s = .next s)
    ∧ (y.rstN = false → (∀ k, y.phase ≠ .heldReset k) → exec .rstNRise s = .next (s.onSys fun z => { z with rstN := true }))
    ∧ (y.rstN = false → y.phase = .heldReset .cold → After .rstNRise s fun t => t.sw.sys.phase = .starting .cold 1 ∧ t.sw.sys.rstN = true ∧ t.sw.mem.home = {} ∧ t.ep = s.ep)
    ∧ (y.rstN = false → y.phase = .heldReset .warm → After .rstNRise s fun t => t.sw.sys.phase = .starting .warm 4 ∧ t.sw.sys.rstN = true
        ∧ t.sw.mem.home.mem = s.sw.mem.home.mem ∧ t.sw.vault = s.sw.vault ∧ t.sw.ledger = s.sw.ledger ∧ t.sw.tally = s.sw.tally ∧ t.ep = s.ep)
    ∧ ((∀ k, ∀ off, y.phase ≠ .preStart k off) → exec .preStartWorkDone s = .next s)
    ∧ (∀ k, y.phase = .preStart k true → After .preStartWorkDone s fun t => t.sw.sys.phase = .off ∧ t.sw.sys.hostLink = false ∧ t.sw.mem.cache = [])
    ∧ (∀ k, y.phase = .preStart k false → y.rstN = false → After .preStartWorkDone s fun t => t.sw.sys.phase = .heldReset k ∧ t.sw.mem.cache = [])
    ∧ (y.phase = .preStart .cold false → y.rstN = true → After .preStartWorkDone s fun t => t.sw.sys.phase = .starting .cold 1 ∧ t.sw.mem.home = {})
    ∧ (y.phase = .preStart .warm false → y.rstN = true → After .preStartWorkDone s fun t => t.sw.sys.phase = .starting .warm 4 ∧ t.sw.mem.cache = []
        ∧ t.sw.vault = s.sw.vault)
    ∧ ((∀ k, ∀ n, y.phase ≠ .starting k n) → exec (.startStepReady failed bad) s = .next s)
    ∧ (∀ k n, y.phase = .starting k n →
      (n < 4 → exec (.startStepReady failed bad) s = .next (s.onSys fun z => { z with phase := .starting k (n + 1) }))
      ∧ (n = 4 → k = .cold → After (.startStepReady failed bad) s fun t => t.sw.sys.phase = .starting .cold 5 ∧ t.sw.sys.assayCount = 0
          ∧ t.sw.sys.strongroom = y.fused ∧ (t.sw.getSlot 0).state = .active ∧ t.sw.vault.kemGen = s.sw.vault.kemGen + 1)
      ∧ (n = 5 → y.accepts ((y.flash.best.map (·.vals.runSlot)).getD 0) = true → exec (.startStepReady failed bad) s = .next ((s.trainHost y.perstN).onSys fun z =>
          { z with runSlot := (y.flash.best.map (·.vals.runSlot)).getD 0, fallback := false, phase := .starting k 6 }))
      ∧ (n = 5 → y.accepts 0 = false → y.accepts 1 = false → (y.flash.best.map (·.vals.runSlot)).getD 0 < 2 → After (.startStepReady failed bad) s fun t =>
          t.sw.sys.phase = .romRecovery ∧ t.sw.sys.alert = true)
      ∧ (n = 6 → ∀ b, y.flash.best = some b → y.flash.calValid = true → exec (.startStepReady failed bad) s = .next (s.onSys fun z =>
          { z with cfg := b.vals, loadedBook := some b, configDefault := false, mode := b.vals.mode, racks := b.vals.racks, rack := b.vals.rack
                   plane := b.vals.plane, phase := .starting k 7 }))
      ∧ (n = 7 → After (.startStepReady failed bad) s fun t => t.sw.sys.phase = .starting k 8 ∧ t.sw.mem.mask = y.cfg.stepMask
          ∧ (k = .cold → (t.sw.getLedger 0).started = true))
      ∧ (n = 8 → After (.startStepReady failed bad) s fun t => t.sw.sys.phase = .starting k 9 ∧ ∀ c ∈ failed, c < 24 → (t.sw.chan c).fenced = true)
      ∧ (n = 9 → k = .warm → After (.startStepReady failed bad) s fun t =>
          (t.sw.sys.phase = .running ∧ t.sw.teller.state = 0
            ∧ ∀ p < 64, (t.sw.getLink p).state = if y.noCable.contains p || y.configDefault then .down else .detect)
          ∨ (s.sw.ledger ≠ [] ∧ t.sw.sys.phase = .starting .warm 9 ∧ t.sw.startsFit = false))
      ∧ (n = 9 → k = .cold → After (.startStepReady failed bad) s fun t => t.sw.sys.phase = .starting k 10
          ∧ ∀ c < 24, (s.sw.chan c).fenced = false → (t.sw.chan c).candidates = [])
      ∧ (n = 10 → After (.startStepReady failed bad) s fun t => t.sw.sys.phase = .running ∧ t.sw.teller.state = 0
          ∧ ∀ p < 64, (t.sw.getLink p).state = if y.noCable.contains p || y.configDefault then .down else .detect))
    ∧ (y.phase = .off ∨ (∃ k, y.phase = .preStart k true) → exec .inputLow s = .next s)
    ∧ (y.phase ≠ .off → (∀ k, y.phase ≠ .preStart k true) → After .inputLow s fun t => t.sw.sys.phase = .preStart .cold true ∧ t.sw.sys.hostLink = false ∧ down t
        ∧ (∃ r ∈ t.sw.tally.faults, r.kind = fInputLow) ∧ SameMemory s t)
    ∧ (y.phase = .off → exec .inputOvervoltage s = .next s)
    ∧ (y.phase ≠ .off → After .inputOvervoltage s fun t => t.sw.sys.phase = .off ∧ t.sw.sys.hostLink = false ∧ (∃ r ∈ t.sw.tally.faults, r.kind = fInputLow)
        ∧ SameMemory s t)
    ∧ (After (.epRstN warm) s fun t => t.sw = s.sw ∧ t.ep.off = false ∧ t.ep.verdict = false ∧ t.ep.serial = s.ep.serial ∧ t.ep.clock.now = s.ep.clock.now
        ∧ (∀ p < 8, (t.ep.getLink p).state = .detect) ∧ t.ep.reqs = [] ∧ t.ep.flight = [] ∧ t.ep.cache = [] ∧ t.ep.home.mem = []
        ∧ (warm = true → s.ep.off = false → t.ep.ranks = s.ep.ranks ∧ t.ep.strongroom = s.ep.strongroom)
        ∧ (warm = false ∨ s.ep.off = true → t.ep.ranks = [] ∧ t.ep.home = {}))

/-- A lockstep error or a watchdog is recorded and restarts the Teller; the end of the restart, for whose START entries there is room, sets
RESTARTED and the TELLER event; one not over after
500 ms is tried again, the third such failure within 10 s halts it; the loss of the rack manager is recorded, and so is its return. -/
def Obligations.TellerAndManagerRowsComplete : Prop :=
  ∀ s : State,
    let te := s.sw.teller
    let frame := fun (t : State) => t = { s with
      sw := { s.sw with
        teller := t.sw.teller
        tally := { s.sw.tally with faults := t.sw.tally.faults, nextSeq := t.sw.tally.nextSeq }
        host := { s.sw.host with swEvent := t.sw.host.swEvent, msixPending := t.sw.host.msixPending, lastVec4 := t.sw.host.lastVec4 }
        sys := { s.sw.sys with alertRec := t.sw.sys.alertRec, alert := t.sw.sys.alert, managerLost := t.sw.sys.managerLost } }
      out := t.out }
    (te.state ≠ 0 → exec .tellerLockstep s = .next s ∧ exec .tellerWatchdog s = .next s)
    ∧ (te.state = 0 → (After .tellerLockstep s fun t => frame t ∧ t.sw.teller = { te with state := 1, restarts := min 255 (te.restarts + 1) }
          ∧ t.sw.sys.managerLost = s.sw.sys.managerLost ∧ ∃ r ∈ t.sw.tally.faults, r.kind = fTellerLockstep)
        ∧ After .tellerWatchdog s fun t => frame t ∧ t.sw.teller = { te with state := 1, restarts := min 255 (te.restarts + 1) }
          ∧ t.sw.sys.managerLost = s.sw.sys.managerLost ∧ ∃ r ∈ t.sw.tally.faults, r.kind = fTellerWatchdog)
    ∧ (te.state ≠ 1 ∨ s.sw.sys.phase.serves = false → exec .tellerRestartEnd s = .next s ∧ exec .tellerRestartTimeout s = .next s)
    ∧ (s.sw.startsFit = false → exec .tellerRestartEnd s = .next s)
    ∧ (te.state = 1 → s.sw.sys.phase.serves = true →
      (s.sw.startsFit = true → After .tellerRestartEnd s fun t => t.sw.teller = { te with state := 0, restarted := true, heldVerdicts := [], owedVerdicts := [], active := t.sw.teller.active }
          ∧ t.sw.host.swEvent.getLsbD evTeller = true ∧ t.sw.sys.phase = s.sw.sys.phase)
      ∧ (let fails := s.now .sw :: te.fails.filter fun x => decide (s.now .sw < x + 10 * tSec)
         (fails.length < 3 → exec .tellerRestartTimeout s
            = .next (s.onTeller fun x => { x with fails := fails, state := 1, restarts := min 255 (te.restarts + 1) }))
         ∧ (3 ≤ fails.length → After .tellerRestartTimeout s fun t => frame t ∧ t.sw.teller = { te with fails := fails, state := 2 }
            ∧ t.sw.host.swEvent.getLsbD evTeller = true ∧ t.sw.sys.alert = true)))
    ∧ (s.sw.sys.managerLost = false → exec .managerMessage s = .next s)
    ∧ (s.sw.sys.managerLost = true → After .managerMessage s fun t => frame t ∧ t.sw.sys.managerLost = false ∧ t.sw.teller = te
        ∧ ∃ r ∈ t.sw.tally.faults, r.kind = fManagerLost)
    ∧ (s.sw.sys.managerLost = true → exec .managerLost s = .next s)
    ∧ (s.sw.sys.managerLost = false → After .managerLost s fun t => frame t ∧ t.sw.sys.managerLost = true ∧ t.sw.teller = te
        ∧ ∃ r ∈ t.sw.tally.faults, r.kind = fManagerLost)

/-- Right after reset nothing is queued and nothing has been sent; both memories are in canonical form; every region is DIRECT, not LOST, without a
handover and without an owner; every mailbox is free, with SEQ and the last SEQ 0 and no interrupt asked for; every key slot is ZEROED; no Tally
record stands; every port has G 4; and the AKG-8's completion timeout is 0xC8. -/
def Obligations.ResetState : Prop :=
  ∀ s : State, s = State.reset →
    s.pending = [] ∧ s.out = [] ∧ MemoryOk s
    ∧ (∀ r, s.sw.mem.home.region.get r {} = { mode := mDirect, lost := false, handover := false, owner := 0x3FF })
    ∧ (∀ fn mb, (s.sw.mailbox fn mb).own = false ∧ (s.sw.mailbox fn mb).irq = false ∧ (s.sw.mailbox fn mb).seq = 0 ∧ (s.sw.mailbox fn mb).lastSeq = 0)
    ∧ (∀ k, (s.sw.getSlot k).state = .zeroed) ∧ s.sw.tally.faults = [] ∧ (∀ p, (s.sw.sys.cfg.port.get p {}).g = 4)
    ∧ s.ep.cplTimeout = 0xC8

/-- From every state in which the memories of both homes are in canonical form (addresses strictly rising, no entry that reads as an unlisted byte
does), a step answers a state in which they are. -/
def Obligations.StepKeepsMemoryForm : Prop :=
  ∀ s t : State, MemoryOk s → step s = .next t → MemoryOk t

/-- A frame header of 32 bytes, read back, gives every field of the frame at every value that the header admits, and a segment descriptor of 32 bytes
gives every field of the descriptor, with no reserved bit set; each field stands at its bits. -/
def Obligations.HeaderAndDescriptorRoundTrip : Prop :=
  (∀ f : Frame, f.dest < 2 ^ 10 → f.src < 2 ^ 10 → f.agent < 2 ^ 6 → f.partition < 2 ^ 4 → f.cls < 2 ^ 3 → f.typ < 2 ^ 6 → f.tag < 2 ^ 12 →
      f.keySlot < 2 ^ 5 → f.inc < 2 ^ 4 → f.offset < 2 ^ 42 → f.age < 2 ^ 12 → f.length < 2 ^ 9 → f.sparse < 2 ^ 16 → f.status < 2 ^ 4 →
      f.headerBytes.length = 32
      ∧ Frame.ofHeader f.headerBytes = { f with data := [] }
      ∧ (∀ rest, Frame.ofHeader (f.headerBytes ++ rest) = { f with data := [] })
      ∧ bits (field f.headerBytes 0 8) 61 3 = 0 ∧ bits (field f.headerBytes 8 8) 54 10 = 0 ∧ bits (field f.headerBytes 16 8) 9 7 = 0
      ∧ bits (field f.headerBytes 0 8) 52 5 = f.keySlot ∧ bits (field f.headerBytes 8 8) 42 12 = f.age ∧ bits (field f.headerBytes 16 8) 32 4 = f.status)
    ∧ ∀ d : Desc, d.mode < 2 ^ 2 → d.keySlot < 2 ^ 5 → d.partition < 2 ^ 4 → d.cvaBase % 2 ^ 21 = 0 → d.cvaBase < 2 ^ 56 → d.fgaBase % 2 ^ 21 = 0 →
      d.fgaBase < 2 ^ 52 → d.length < 2 ^ 35 → d.context < 2 ^ 16 → d.reserved = false →
      d.bytes.length = 32 ∧ decodeDesc d.bytes = d ∧ field d.bytes 0 8 / 2 ^ 21 * 2 ^ 21 = d.cvaBase ∧ field d.bytes 8 8 = d.fgaBase
      ∧ bits (field d.bytes 0 8) 8 5 = d.keySlot ∧ bits (field d.bytes 0 8) 13 4 = d.partition ∧ field d.bytes 24 8 = d.context

/-- Whatever command runs, the commands that wait stay as they are, and what the block has sent before stays sent, in order. -/
def Obligations.CommandsKeepTheQueue : Prop :=
  ∀ (i : Instr) (s t : State), exec i s = .next t → t.pending = s.pending ∧ s.out <+: t.out

/-- For every row of the command catalogue: a command that the Teller takes and that a check of R420 refuses, or that asks only for VERIFY and that no
check refuses, is answered with its status, and leaves everything but its mailbox, the order of CONTROL writes, its Ledger entry and reports as it
was; an opcode that no row lists is answered with BAD_OPCODE. -/
def Obligations.RefusedCommandChangesNothing : Prop :=
  ∀ (fn mb : Nat) (s : State), s.sw.takes fn mb = true → (s.sw.mailbox fn mb).seq ≠ (s.sw.mailbox fn mb).lastSeq → s.sw.entryFull fn = false →
    let answered := fun (status detail : Nat) (t : State) => Answered fn mb status detail [] s t ∧ AnswerFrame s t ∧ t.sw.teller.active = s.sw.teller.active
      ∧ ((s.sw.mailbox fn mb).irq = true → s.sw.host.unmasked.contains (fn * 2048 + mb) = true → Out.msix fn mb ∈ t.out)
    (∀ p ∈ mailboxRows, bits (s.sw.mailbox fn mb).header.toNat 0 16 = p.1.opcode →
      (∀ status detail, p.1.refusal (s.sw.cmdOf fn mb p.1.len) (s.dequeued fn mb) (s.sw.mailbox fn mb).header.toNat = some (status, detail) →
        After (p.2 fn mb) s (answered status detail))
      ∧ (p.1.refusal (s.sw.cmdOf fn mb p.1.len) (s.dequeued fn mb) (s.sw.mailbox fn mb).header.toNat = none →
          (s.sw.mailbox fn mb).header.getLsbD 16 = true → p.1.late = false → After (p.2 fn mb) s (answered mbOk 0)))
    ∧ (commandIndex.contains (bits (s.sw.mailbox fn mb).header.toNat 0 16) = false → After (.unlistedOpcode fn mb) s (answered mbBadOpcode 0))

/-- For every row of the command catalogue and for an opcode of none: if SEQ equals the SEQ of the command last completed in the mailbox, the Teller
clears OWN, sends the interrupt that was asked for, and changes neither the response area nor anything else; a cold or warm start and a
function-level reset take the last SEQ of each mailbox as 0x0000. -/
def Obligations.RepeatedSeqNotPerformed : Prop :=
  (∀ (fn mb : Nat) (s : State) (i : Instr), s.sw.takes fn mb = true → (s.sw.mailbox fn mb).seq = (s.sw.mailbox fn mb).lastSeq →
      (∃ p ∈ mailboxRows, i = p.2 fn mb ∧ bits (s.sw.mailbox fn mb).header.toNat 0 16 = p.1.opcode)
        ∨ (i = .unlistedOpcode fn mb ∧ commandIndex.contains (bits (s.sw.mailbox fn mb).header.toNat 0 16) = false) →
      After i s fun t => t.sw.mailbox fn mb = { s.sw.mailbox fn mb with own := false }
        ∧ (∀ f m, mbKey f m ≠ mbKey fn mb → t.sw.mailbox f m = s.sw.mailbox f m)
        ∧ t = { s with
          sw := { s.sw with
            teller := { s.sw.teller with order := s.sw.teller.order.erase (fn, mb), mbox := t.sw.teller.mbox }
            host := { s.sw.host with msixPending := t.sw.host.msixPending } }
          out := t.out }
        ∧ s.out <+: t.out
        ∧ ((s.sw.mailbox fn mb).irq = true → s.sw.host.unmasked.contains (fn * 2048 + mb) = true → t.out = s.out ++ [.msix fn mb]))
    ∧ (∀ (fn mb : Nat) (s : State), mb < 16 → s.sw.sys.hostLink = true → After (.functionLevelReset fn) s fun t =>
        (t.sw.mailbox fn mb).lastSeq = 0 ∧ ∀ f ≠ fn, ∀ m < 16, (t.sw.mailbox f m) = (s.sw.mailbox f m))
    ∧ (∀ (fn mb : Nat) (s : State), s.sw.sys.phase = .off → After .powerUp s fun t => (t.sw.mailbox fn mb).lastSeq = 0)
    ∧ ∀ (fn mb : Nat) (k : StartKind) (s : State), s.sw.sys.rstN = false → s.sw.sys.phase = .heldReset k → After .rstNRise s fun t =>
        (t.sw.mailbox fn mb).lastSeq = 0

/-- With no package active every port of either device runs the one entry 0xD9FF_FFFF, which opens TC0, TC3, TC4, TC6 and TC7 and closes TC1, TC2 and
TC5; no package survives a cold or a warm start of the module or a start of the AKG-8; a Teller-only restart keeps the active package, the armed
package and, where it acts on no held or owed verdict and no retirement, the current book. -/
def Obligations.DefaultGateList : Prop :=
  (∀ (s : State) (d : Dev) (p : Nat), (s.getSched d).active = none → s.gateList d p = [(0xD9FFFFFF / 2 ^ 24, 0xD9FFFFFF % 2 ^ 24)])
    ∧ (∀ c < 8, bit (0xD9FFFFFF / 2 ^ 24) c = (c == 0 || c == 3 || c == 4 || c == 6 || c == 7))
    ∧ (∀ s : State, s.sw.sys.phase = .off → After .powerUp s fun t => t.sw.sched.active = none ∧ t.sw.sched.standby = none ∧ t.sw.sched.staging = none)
    ∧ (∀ (s : State) (k : StartKind), s.sw.sys.rstN = false → s.sw.sys.phase = .heldReset k → After .rstNRise s fun t =>
        t.sw.sched.active = none ∧ t.sw.sched.standby = none ∧ t.sw.sched.staging = none)
    ∧ (∀ (s : State) (warm : Bool), After (.epRstN warm) s fun t => t.ep.sched.active = none ∧ t.ep.sched.standby = none)
    ∧ (∀ s : State, s.sw.teller.state = 0 → After .tellerLockstep s fun t => t.sw.sched = s.sw.sched)
    ∧ ∀ s : State, s.sw.teller.state = 1 → s.sw.sys.phase = .running → s.sw.startsFit = true → After .tellerRestartEnd s fun t =>
        t.sw.sched.active = s.sw.sched.active ∧ t.sw.sched.standby = s.sw.sched.standby ∧ t.sw.sched.armed = s.sw.sched.armed
        ∧ (s.sw.teller.heldVerdicts = [] → s.sw.teller.owedVerdicts = [] → (∀ k < 32, (s.sw.getSlot k).timedOut = false) → t.sw.sched.book = s.sw.sched.book)

/-- A WRITE that nothing refuses or holds, to near-store scratch whose words are sound, completes: each byte written reads back, every other byte of
both homes reads as before, and the rest of the memory system (but the order of stores that wait), the ports, the Vault's keys and the AKG-8 are as
they were. -/
def Obligations.ScratchWriteFrame : Prop :=
  ∀ (s : State) (pos : Nat) (f : Frame), Open f s → f.typ = 8 → inScratch f.offset f.length = true → s.sw.mem.home.badWords = [] →
    After (.write .sw pos f) s fun t =>
      (∀ i < f.length, Memory.read t.sw.mem.home.mem (f.offset + i) = f.data.getD i 0)
      ∧ (∀ a, a < f.offset ∨ f.offset + f.length ≤ a → Memory.read t.sw.mem.home.mem a = Memory.read s.sw.mem.home.mem a)
      ∧ t.sw.mem = { s.sw.mem with home := { s.sw.mem.home with mem := t.sw.mem.home.mem }, order := t.sw.mem.order }
      ∧ t.ep = s.ep ∧ t.sw.sys = s.sw.sys ∧ t.sw.link = s.sw.link ∧ t.sw.clock = s.sw.clock ∧ (∀ k, (t.sw.getSlot k).key = (s.sw.getSlot k).key)
end

