-- ==== Sys2Proof/Laws/Bytes.lean ====
section
/-!
SUPPORT. Laws of byte strings: numbers laid out little-endian and read back, and parts of strings that are joined.
-/

namespace Sys2Proof.Machine

open Sys2Proof

@[simp] theorem leBytes_length (w n : Nat) : (leBytes w n).length = w := by
  induction w generalizing n with
  | zero => rfl
  | succ w ih => simp [leBytes, ih]

/-- A number laid out in w bytes reads back as itself where it fits, else its low bytes do. -/
theorem leVal_leBytes (w n : Nat) : leVal (leBytes w n) = n % 256 ^ w := by
  induction w generalizing n with
  | zero => simp [leBytes, leVal, Nat.mod_one]
  | succ w ih =>
    simp only [leBytes, leVal, ih, BitVec.toNat_ofNat]
    rw [show 256 ^ (w + 1) = 256 * 256 ^ w from Nat.pow_succ', Nat.mod_mul]

theorem leVal_append (l m : List Byte) : leVal (l ++ m) = leVal l + 256 ^ l.length * leVal m := by
  induction l with
  | nil => simp [leVal]
  | cons b t ih =>
    simp only [List.cons_append, leVal, ih, List.length_cons, Nat.pow_succ']
    ring

theorem leVal_lt (l : List Byte) : leVal l < 256 ^ l.length := by
  induction l with
  | nil => simp [leVal]
  | cons b t ih =>
    have := b.isLt
    simp only [leVal, List.length_cons, Nat.pow_succ']
    omega

theorem slice_length (l : List Byte) (off n : Nat) : (slice l off n).length = n := by
  simp only [slice, List.length_append, List.length_replicate, List.length_take, List.length_drop]
  omega

/-- The first part of a joined string. -/
theorem slice_append_left (l m : List Byte) : slice (l ++ m) 0 l.length = l := by
  simp [slice]

/-- The last part of a joined string. -/
theorem slice_append_right (l m : List Byte) : slice (l ++ m) l.length m.length = m := by
  simp [slice]

/-- A part that lies within the first of two joined strings. -/
theorem slice_within (l m : List Byte) (off n : Nat) (h : off + n ≤ l.length) : slice (l ++ m) off n = slice l off n := by
  have : ((l ++ m).drop off).take n = (l.drop off).take n := by
    rw [List.drop_append_of_le_length (by omega), List.take_append_of_le_length (by simp; omega)]
  simp [slice, this]

theorem field_within (l m : List Byte) (off n : Nat) (h : off + n ≤ l.length) : field (l ++ m) off n = field l off n := by
  rw [field, slice_within l m off n h, field]

/-- A field of n bytes right after l. -/
theorem field_append_right (l : List Byte) (n v : Nat) : field (l ++ leBytes n v) l.length n = v % 256 ^ n := by
  rw [field]
  conv_lhs => rw [← leBytes_length n v]
  rw [leBytes_length, show slice (l ++ leBytes n v) l.length n = leBytes n v by simpa using slice_append_right l (leBytes n v), leVal_leBytes]

end Sys2Proof.Machine
end

