-- ==== Sys2Proof/Laws/Flits.lean ====
section
/-!
SUPPORT. Laws of flits: what a receiver reads from a flit that a transmitter made and that no error has touched.
-/

namespace Sys2Proof.Machine

open Sys2Proof

/-- Nothing is corrected in 252 bytes with their own parity. -/
theorem fecCorrect_codeword (c : List Byte) (h : c.length = 252) :
    fecCorrect (c ++ leBytes 4 (Config.fecParity c).toNat) = (c ++ leBytes 4 (Config.fecParity c).toNat, none) := by
  have word : isCodeword (c ++ leBytes 4 (Config.fecParity c).toNat) = true := by
    rw [isCodeword, ← h, List.take_left, field_append_right]
    simpa using (Nat.mod_eq_of_lt (Config.fecParity c).isLt).symm
  rw [fecCorrect, if_pos word]

/-- Any part of a flit's header and slots. -/
theorem flitOf_slice (head slots : List Byte) (off n : Nat) (h : off + n ≤ (head ++ slots).length) : slice (flitOf head slots) off n = slice (head ++ slots) off n := by
  have len : (head ++ slots).length ≤ ((head ++ slots) ++ leBytes 4 (crc32c (head ++ slots)).toNat).length := by simp
  rw [flitOf, slice_within _ _ _ _ (by omega), slice_within _ _ _ _ h]

/-- The parity holds, so that nothing is corrected; the check field holds; and header and slots are those that the flit was made of. -/
theorem flitOf_received (head slots : List Byte) (h : head.length = 8) (n : slots.length = 240) :
    let b := flitOf head slots
    fecCorrect b = (b, none) ∧ (crc32c (slice b 0 248)).toNat = field b 248 4 ∧ slice b 0 248 = head ++ slots ∧ slice b 0 8 = head ∧ slice b 8 240 = slots := by
  have hb : (head ++ slots).length = 248 := by simp [h, n]
  obtain ⟨k, hk⟩ : ∃ k, crc32c (head ++ slots) = k := ⟨_, rfl⟩
  have hc : ((head ++ slots) ++ leBytes 4 k.toNat).length = 252 := by rw [List.length_append, hb, leBytes_length]
  have check : field ((head ++ slots) ++ leBytes 4 k.toNat) 248 4 = k.toNat := by
    rw [← hb, field_append_right]
    exact Nat.mod_eq_of_lt k.isLt
  have body : slice ((head ++ slots) ++ leBytes 4 k.toNat) 0 248 = head ++ slots := by rw [← hb, slice_append_left]
  simp only [flitOf, hk]
  generalize hd : (head ++ slots) ++ leBytes 4 k.toNat = c at *
  refine ⟨fecCorrect_codeword c hc, ?_, ?_, ?_, ?_⟩
  · rw [slice_within _ _ _ _ (by omega), field_within _ _ _ _ (by omega), body, check, hk]
  · rw [slice_within _ _ _ _ (by omega), body]
  · rw [slice_within _ _ _ _ (by omega), ← hd, slice_within _ _ _ _ (by omega), ← h, slice_append_left]
  · rw [slice_within _ _ _ _ (by omega), ← hd, slice_within _ _ _ _ (by omega), ← h, ← n, slice_append_right]

end Sys2Proof.Machine
end

