-- ==== Sys2Proof/Laws/Tab.lean ====
section
/-!
SUPPORT. Sorted tables: what a table finds after put, del and upd.
-/

namespace Sys2Proof.Tab

@[simp] theorem find_put_self {α : Type} (t : Tab α) (k : Nat) (a : α) : find (put t k a) k = some a := by
  induction t with
  | nil => simp [put, find]
  | cons p t ih =>
    obtain ⟨j, b⟩ := p
    unfold put
    split
    · simp [find]
    · split
      · simp [find]
      · rename_i h2
        simpa only [find, if_neg h2] using ih

theorem find_put_ne {α : Type} (t : Tab α) (k j : Nat) (a : α) (h : j ≠ k) : find (put t k a) j = find t j := by
  induction t with
  | nil => simp [put, find, Ne.symm h]
  | cons p t ih =>
    obtain ⟨i, b⟩ := p
    unfold put
    split
    · simp only [find, if_neg (Ne.symm h)]
    · split
      · rename_i h2
        subst h2
        simp only [find, if_neg (Ne.symm h)]
      · simp only [find, ih]

@[simp] theorem find_del_self {α : Type} (t : Tab α) (k : Nat) : find (del t k) k = none := by
  induction t with
  | nil => rfl
  | cons p t ih =>
    obtain ⟨j, b⟩ := p
    unfold del at *
    rw [List.filter_cons]
    split
    · rename_i h
      have hj : j ≠ k := by simpa using h
      simpa only [find, if_neg hj] using ih
    · exact ih

theorem find_del_ne {α : Type} (t : Tab α) (k j : Nat) (h : j ≠ k) : find (del t k) j = find t j := by
  induction t with
  | nil => rfl
  | cons p t ih =>
    obtain ⟨i, b⟩ := p
    unfold del at *
    rw [List.filter_cons]
    split
    · simp only [find, ih]
    · rename_i hi
      have hi : i = k := by simpa using hi
      rw [ih, hi]
      simp only [find, if_neg (Ne.symm h)]

/-- A table mapped over has the mapped entry. -/
theorem find_mapVals {α : Type} (t : Tab α) (f : Nat → α → α) (k : Nat) : find (mapVals t f) k = (find t k).map (f k) := by
  induction t with
  | nil => rfl
  | cons p t ih =>
    obtain ⟨i, b⟩ := p
    unfold mapVals at *
    simp only [List.map_cons, find]
    split
    · rename_i h
      subst h
      rfl
    · exact ih

@[simp] theorem get_put_self {α : Type} (t : Tab α) (k : Nat) (a d : α) : get (put t k a) k d = a := by simp [get]

theorem get_put_ne {α : Type} (t : Tab α) (k j : Nat) (a d : α) (h : j ≠ k) : get (put t k a) j d = get t j d := by simp [get, find_put_ne t k j a h]

@[simp] theorem get_upd_self {α : Type} (t : Tab α) (k : Nat) (d : α) (g : α → α) : get (upd t k d g) k d = g (get t k d) := by simp [upd]

theorem get_upd_ne {α : Type} (t : Tab α) (k j : Nat) (d : α) (g : α → α) (h : j ≠ k) : get (upd t k d g) j d = get t j d := by
  simp [upd, get_put_ne t k j _ d h]

@[simp] theorem get_del_self {α : Type} (t : Tab α) (k : Nat) (d : α) : get (del t k) k d = d := by simp [get]

theorem get_del_ne {α : Type} (t : Tab α) (k j : Nat) (d : α) (h : j ≠ k) : get (del t k) j d = get t j d := by simp [get, find_del_ne t k j h]

end Sys2Proof.Tab
end

