-- ==== Sys2Proof/Laws/Memory.lean ====
section
/-!
SUPPORT. Memory of a home: every operation keeps the canonical form, a read after a write gives the byte written, and other bytes stay.
-/

namespace Sys2Proof.Machine

/-- Every address listed is above a bound. -/
def Memory.above (m : List Host.Cell) (a : Nat) : Prop := ∀ c ∈ m, a < c.1

theorem Memory.wf_nil : Memory.wf [] = true := rfl

theorem Memory.wf_cons {a : Nat} {b : Byte} {t : List Host.Cell} :
    Memory.wf ((a, b) :: t) = true ↔ b ≠ 0 ∧ Memory.above t a ∧ Memory.wf t = true := by
  induction t generalizing a b with
  | nil => simp [Memory.wf, Memory.above]
  | cons c t ih =>
    obtain ⟨a', b'⟩ := c
    simp only [Memory.wf, Bool.and_eq_true, bne_iff_ne, decide_eq_true_eq, ih]
    constructor
    · rintro ⟨⟨h0, h1⟩, h2, h3, h4⟩
      refine ⟨h0, ?_, h2, h3, h4⟩
      intro c hc
      rcases List.mem_cons.mp hc with rfl | hc
      · exact h1
      · have := h3 c hc
        omega
    · rintro ⟨h0, h1, h2⟩
      exact ⟨⟨h0, h1 _ List.mem_cons_self⟩, h2⟩

theorem Memory.above_put {m : List Host.Cell} {a k : Nat} {b : Byte} (h : Memory.above m a) (hk : a < k) : Memory.above (Tab.put m k b) a := by
  induction m with
  | nil => simpa [Tab.put, Memory.above] using hk
  | cons c t ih =>
    obtain ⟨j, x⟩ := c
    have hj : a < j := h (j, x) List.mem_cons_self
    have ht : Memory.above t a := fun c hc => h c (List.mem_cons_of_mem _ hc)
    unfold Tab.put
    split
    · intro c hc
      rcases List.mem_cons.mp hc with rfl | hc
      · exact hk
      · exact h c hc
    · split
      · intro c hc
        rcases List.mem_cons.mp hc with rfl | hc
        · exact hk
        · exact ht c hc
      · intro c hc
        rcases List.mem_cons.mp hc with rfl | hc
        · exact hj
        · exact ih ht c hc

theorem Memory.wf_put {m : List Host.Cell} {k : Nat} {b : Byte} (h : Memory.wf m = true) (hb : b ≠ 0) : Memory.wf (Tab.put m k b) = true := by
  induction m with
  | nil => simpa [Tab.put, Memory.wf] using hb
  | cons c t ih =>
    obtain ⟨j, x⟩ := c
    have hc := Memory.wf_cons.mp h
    unfold Tab.put
    split
    · rename_i hk
      refine Memory.wf_cons.mpr ⟨hb, ?_, h⟩
      intro c hm
      rcases List.mem_cons.mp hm with rfl | hm
      · exact hk
      · have := hc.2.1 c hm
        omega
    · split
      · rename_i h1 h2
        subst h2
        exact Memory.wf_cons.mpr ⟨hb, hc.2.1, hc.2.2⟩
      · exact Memory.wf_cons.mpr ⟨hc.1, Memory.above_put hc.2.1 (by omega), ih hc.2.2⟩

theorem Memory.above_filter {m : List Host.Cell} {a : Nat} (p : Host.Cell → Bool) (h : Memory.above m a) : Memory.above (m.filter p) a :=
  fun c hc => h c (List.mem_of_mem_filter hc)

/-- Dropping cells keeps the canonical form. -/
theorem Memory.wf_filter {m : List Host.Cell} (p : Host.Cell → Bool) (h : Memory.wf m = true) : Memory.wf (m.filter p) = true := by
  induction m with
  | nil => rfl
  | cons c t ih =>
    obtain ⟨j, x⟩ := c
    have hc := Memory.wf_cons.mp h
    rw [List.filter_cons]
    split
    · exact Memory.wf_cons.mpr ⟨hc.1, Memory.above_filter p hc.2.1, ih hc.2.2⟩
    · exact ih hc.2.2

theorem Memory.wf_del {m : List Host.Cell} {k : Nat} (h : Memory.wf m = true) : Memory.wf (Tab.del m k) = true := Memory.wf_filter _ h

/-- Writing a byte keeps the canonical form. -/
theorem Memory.wf_write {m : List Host.Cell} (a : Nat) (b : Byte) (h : Memory.wf m = true) : Memory.wf (Memory.write m a b) = true := by
  unfold Memory.write
  split
  · exact Memory.wf_del h
  · rename_i hb
    exact Memory.wf_put h hb

/-- Writing bytes keeps the canonical form. -/
theorem Memory.wf_writeN {m : List Host.Cell} (a : Nat) (l : List Byte) (h : Memory.wf m = true) : Memory.wf (Memory.writeN m a l) = true := by
  induction l generalizing m a with
  | nil => exact h
  | cons b t ih => exact ih (a + 1) (Memory.wf_write a b h)

/-- A read after a write to the same address gives the byte written. -/
theorem Memory.read_write_self {m : List Host.Cell} (a : Nat) (b : Byte) : Memory.read (Memory.write m a b) a = b := by
  unfold Memory.write Memory.read Tab.get
  split
  · rename_i hb
    rw [Tab.find_del_self]
    exact hb.symm
  · simp

/-- A write leaves every other address alone. -/
theorem Memory.read_write_ne (m : List Host.Cell) {a k : Nat} (b : Byte) (hk : k ≠ a) :
    Memory.read (Memory.write m a b) k = Memory.read m k := by
  unfold Memory.write Memory.read Tab.get
  split
  · rw [Tab.find_del_ne m a k hk]
  · rw [Tab.find_put_ne m a k b hk]

/-- Writing bytes leaves every address outside their range alone. -/
theorem Memory.read_writeN_outside (m : List Host.Cell) {a k : Nat} (l : List Byte) (hk : k < a ∨ a + l.length ≤ k) :
    Memory.read (Memory.writeN m a l) k = Memory.read m k := by
  induction l generalizing m a with
  | nil => rfl
  | cons b t ih =>
    simp only [List.length_cons] at hk
    have h1 : k ≠ a := by omega
    simp only [Memory.writeN]
    rw [ih _ (by omega), Memory.read_write_ne m b h1]

/-- Bytes written read back. -/
theorem Memory.readN_writeN (m : List Host.Cell) (a : Nat) (l : List Byte) :
    Memory.readN (Memory.writeN m a l) a l.length = l := by
  induction l generalizing m a with
  | nil => rfl
  | cons b t ih =>
    simp only [List.length_cons, Memory.readN, Memory.writeN]
    rw [Memory.read_writeN_outside _ t (Or.inl (by omega)), Memory.read_write_self a b, ih]

/-- Both homes are in canonical form after reset. -/
theorem State.reset_wf : Memory.wf State.reset.sw.mem.home.mem = true ∧ Memory.wf State.reset.ep.home.mem = true := ⟨rfl, rfl⟩

end Sys2Proof.Machine
end

