-- ==== Sys2Proof/Laws/Pool.lean ====
section
/-!
SUPPORT. The cipher of a pool line: what is encrypted under a key decrypts to itself (06 R144), so a line copied as ciphertext keeps its contents.
-/

namespace Sys2Proof.Machine

open Sys2Proof

theorem leBytes_leVal (l : List Byte) : leBytes l.length (leVal l) = l := by
  induction l with
  | nil => rfl
  | cons b t ih =>
    have hb := b.isLt
    simp only [List.length_cons, leBytes, leVal]
    rw [show (b.toNat + 256 * leVal t) / 256 = leVal t by omega, ih]
    congr 1
    apply BitVec.eq_of_toNat_eq
    simp only [BitVec.toNat_ofNat]
    omega

/-- The j-th of equally long parts that are joined. -/
theorem slice_flatMap (n : Nat) (h : Nat → List Byte) (hh : ∀ j, (h j).length = 16) (j : Nat) (hj : j < n) :
    slice ((List.range n).flatMap h) (16 * j) 16 = h j := by
  induction n with
  | zero => omega
  | succ n ih =>
    have hlen : ((List.range n).flatMap h).length = 16 * n := by
      simp [List.length_flatMap, hh, Nat.mul_comm]
    rw [List.range_succ, List.flatMap_append]
    simp only [List.flatMap_cons, List.flatMap_nil, List.append_nil]
    rcases Nat.lt_or_ge j n with hlt | hge
    · rw [← ih hlt]
      simp only [slice]
      rw [List.drop_append_of_le_length (by omega), List.take_append_of_le_length (by simp [hlen]; omega)]
    · have : j = n := by omega
      subst this
      rw [← hlen, ← hh j]
      exact slice_append_right _ _

/-- A string of n blocks is its blocks joined. -/
theorem flatMap_slice (n : Nat) : ∀ d : List Byte, d.length = 16 * n → (List.range n).flatMap (fun j => slice d (16 * j) 16) = d := by
  induction n with
  | zero => intro d h; simpa using (List.length_eq_zero_iff.mp (by simpa using h)).symm
  | succ n ih =>
    intro d h
    have ht : (d.drop (16 * n)).length = 16 := by simp [h]; omega
    have hs : ∀ j < n, slice d (16 * j) 16 = slice (d.take (16 * n)) (16 * j) 16 := by
      intro j hj
      have e : (d.take (16 * n)).drop (16 * j) = (d.drop (16 * j)).take (16 * n - 16 * j) := List.drop_take
      simp only [slice, e, List.take_take]
      rw [show min 16 (16 * n - 16 * j) = 16 by omega]
    rw [List.range_succ, List.flatMap_append]
    have e1 : (List.range n).flatMap (fun j => slice d (16 * j) 16) = (List.range n).flatMap fun j => slice (d.take (16 * n)) (16 * j) 16 := by
      apply List.flatMap_congr
      intro j hj
      exact hs j (List.mem_range.mp hj)
    rw [e1, ih _ (by simp [h])]
    simp only [List.flatMap_cons, List.flatMap_nil, List.append_nil]
    have e2 : slice d (16 * n) 16 = d.drop (16 * n) := by
      simp [slice, ht]
    rw [e2, List.take_append_drop]

theorem xtsLine_length (g : Nat → Equiv.Perm (BitVec 128)) (d : List Byte) : (xtsLine g d).length = 128 := by
  simp [xtsLine, List.length_flatMap]

/-- Blocks permuted and permuted back. -/
theorem xtsLine_symm (g : Nat → Equiv.Perm (BitVec 128)) (d : List Byte) (hd : d.length = 128) : xtsLine (fun j => (g j).symm) (xtsLine g d) = d := by
  conv_rhs => rw [← flatMap_slice 8 d hd]
  unfold xtsLine
  apply List.flatMap_congr
  intro j hj
  have hj := List.mem_range.mp hj
  rw [field, slice_flatMap 8 _ (fun _ => leBytes_length _ _) j hj, leVal_leBytes]
  have hx : ((g j) (BitVec.ofNat 128 (field d (16 * j) 16))).toNat % 256 ^ 16 = ((g j) (BitVec.ofNat 128 (field d (16 * j) 16))).toNat :=
    Nat.mod_eq_of_lt (by simpa using ((g j) (BitVec.ofNat 128 (field d (16 * j) 16))).isLt)
  rw [hx, BitVec.ofNat_toNat, BitVec.setWidth_eq, Equiv.symm_apply_apply]
  have hf : field d (16 * j) 16 < 2 ^ 128 := by
    have := leVal_lt (slice d (16 * j) 16)
    rw [slice_length] at this
    simpa [field] using this
  rw [BitVec.toNat_ofNat, Nat.mod_eq_of_lt hf, field]
  conv_lhs => rw [← slice_length d (16 * j) 16]
  rw [slice_length]
  simpa [slice_length] using leBytes_leVal (slice d (16 * j) 16)

/-- A line encrypted under a key and decrypted under it (06 R144). -/
theorem decrypt_encrypt (k : Key) (l : Nat) (d : List Byte) (hd : d.length = 128) : decrypt k l (encrypt k l d) = d := xtsLine_symm _ _ hd

end Sys2Proof.Machine
end

