-- ==== Sys2Proof/Laws/State.lean ====
section
/-!
SUPPORT. Every update of State, field by field: what it sets and what it leaves.
-/

namespace Sys2Proof.Machine

/-! ### The roots -/

@[simp] theorem State.onSw_sw (s : State) (g : Switch → Switch) : (s.onSw g).sw = g s.sw := rfl
@[simp] theorem State.onSw_ep (s : State) (g : Switch → Switch) : (s.onSw g).ep = s.ep := rfl
@[simp] theorem State.onSw_out (s : State) (g : Switch → Switch) : (s.onSw g).out = s.out := rfl
@[simp] theorem State.onSw_fresh (s : State) (g : Switch → Switch) : (s.onSw g).fresh = s.fresh := rfl
@[simp] theorem State.onSw_pending (s : State) (g : Switch → Switch) : (s.onSw g).pending = s.pending := rfl
@[simp] theorem State.onSw_loaded (s : State) (g : Switch → Switch) : (s.onSw g).loaded = s.loaded := rfl

@[simp] theorem State.onEp_sw (s : State) (g : EndPoint → EndPoint) : (s.onEp g).sw = s.sw := rfl
@[simp] theorem State.onEp_ep (s : State) (g : EndPoint → EndPoint) : (s.onEp g).ep = g s.ep := rfl
@[simp] theorem State.onEp_out (s : State) (g : EndPoint → EndPoint) : (s.onEp g).out = s.out := rfl
@[simp] theorem State.onEp_fresh (s : State) (g : EndPoint → EndPoint) : (s.onEp g).fresh = s.fresh := rfl
@[simp] theorem State.onEp_pending (s : State) (g : EndPoint → EndPoint) : (s.onEp g).pending = s.pending := rfl
@[simp] theorem State.onEp_loaded (s : State) (g : EndPoint → EndPoint) : (s.onEp g).loaded = s.loaded := rfl

@[simp] theorem State.emit_sw (s : State) (x : Out) : (s.emit x).sw = s.sw := rfl
@[simp] theorem State.emit_ep (s : State) (x : Out) : (s.emit x).ep = s.ep := rfl
@[simp] theorem State.emit_out (s : State) (x : Out) : (s.emit x).out = s.out ++ [x] := rfl
@[simp] theorem State.emit_fresh (s : State) (x : Out) : (s.emit x).fresh = s.fresh := rfl
@[simp] theorem State.emit_pending (s : State) (x : Out) : (s.emit x).pending = s.pending := rfl
@[simp] theorem State.emit_loaded (s : State) (x : Out) : (s.emit x).loaded = s.loaded := rfl

@[simp] theorem State.free_snd_sw (s : State)  : (s.free.2).sw = s.sw := rfl
@[simp] theorem State.free_snd_ep (s : State)  : (s.free.2).ep = s.ep := rfl
@[simp] theorem State.free_snd_out (s : State)  : (s.free.2).out = s.out := rfl
@[simp] theorem State.free_snd_fresh (s : State)  : (s.free.2).fresh = s.fresh + 1 := rfl
@[simp] theorem State.free_snd_pending (s : State)  : (s.free.2).pending = s.pending := rfl
@[simp] theorem State.free_snd_loaded (s : State)  : (s.free.2).loaded = s.loaded := rfl

/-! ### One part of the switch -/

@[simp] theorem State.onSys_sw (s : State) (g : Sys → Sys) : (s.onSys g).sw = { s.sw with sys := g s.sw.sys } := rfl
@[simp] theorem State.onSys_ep (s : State) (g : Sys → Sys) : (s.onSys g).ep = s.ep := rfl
@[simp] theorem State.onSys_out (s : State) (g : Sys → Sys) : (s.onSys g).out = s.out := rfl
@[simp] theorem State.onSys_fresh (s : State) (g : Sys → Sys) : (s.onSys g).fresh = s.fresh := rfl
@[simp] theorem State.onSys_pending (s : State) (g : Sys → Sys) : (s.onSys g).pending = s.pending := rfl
@[simp] theorem State.onSys_loaded (s : State) (g : Sys → Sys) : (s.onSys g).loaded = s.loaded := rfl

@[simp] theorem State.onTeller_sw (s : State) (g : Teller → Teller) : (s.onTeller g).sw = { s.sw with teller := g s.sw.teller } := rfl
@[simp] theorem State.onTeller_ep (s : State) (g : Teller → Teller) : (s.onTeller g).ep = s.ep := rfl
@[simp] theorem State.onTeller_out (s : State) (g : Teller → Teller) : (s.onTeller g).out = s.out := rfl
@[simp] theorem State.onTeller_fresh (s : State) (g : Teller → Teller) : (s.onTeller g).fresh = s.fresh := rfl
@[simp] theorem State.onTeller_pending (s : State) (g : Teller → Teller) : (s.onTeller g).pending = s.pending := rfl
@[simp] theorem State.onTeller_loaded (s : State) (g : Teller → Teller) : (s.onTeller g).loaded = s.loaded := rfl

@[simp] theorem State.onHost_sw (s : State) (g : HostIf → HostIf) : (s.onHost g).sw = { s.sw with host := g s.sw.host } := rfl
@[simp] theorem State.onHost_ep (s : State) (g : HostIf → HostIf) : (s.onHost g).ep = s.ep := rfl
@[simp] theorem State.onHost_out (s : State) (g : HostIf → HostIf) : (s.onHost g).out = s.out := rfl
@[simp] theorem State.onHost_fresh (s : State) (g : HostIf → HostIf) : (s.onHost g).fresh = s.fresh := rfl
@[simp] theorem State.onHost_pending (s : State) (g : HostIf → HostIf) : (s.onHost g).pending = s.pending := rfl
@[simp] theorem State.onHost_loaded (s : State) (g : HostIf → HostIf) : (s.onHost g).loaded = s.loaded := rfl

@[simp] theorem State.onMem_sw (s : State) (g : Mem → Mem) : (s.onMem g).sw = { s.sw with mem := g s.sw.mem } := rfl
@[simp] theorem State.onMem_ep (s : State) (g : Mem → Mem) : (s.onMem g).ep = s.ep := rfl
@[simp] theorem State.onMem_out (s : State) (g : Mem → Mem) : (s.onMem g).out = s.out := rfl
@[simp] theorem State.onMem_fresh (s : State) (g : Mem → Mem) : (s.onMem g).fresh = s.fresh := rfl
@[simp] theorem State.onMem_pending (s : State) (g : Mem → Mem) : (s.onMem g).pending = s.pending := rfl
@[simp] theorem State.onMem_loaded (s : State) (g : Mem → Mem) : (s.onMem g).loaded = s.loaded := rfl

@[simp] theorem State.onXlat_sw (s : State) (g : Xlat → Xlat) : (s.onXlat g).sw = { s.sw with xlat := g s.sw.xlat } := rfl
@[simp] theorem State.onXlat_ep (s : State) (g : Xlat → Xlat) : (s.onXlat g).ep = s.ep := rfl
@[simp] theorem State.onXlat_out (s : State) (g : Xlat → Xlat) : (s.onXlat g).out = s.out := rfl
@[simp] theorem State.onXlat_fresh (s : State) (g : Xlat → Xlat) : (s.onXlat g).fresh = s.fresh := rfl
@[simp] theorem State.onXlat_pending (s : State) (g : Xlat → Xlat) : (s.onXlat g).pending = s.pending := rfl
@[simp] theorem State.onXlat_loaded (s : State) (g : Xlat → Xlat) : (s.onXlat g).loaded = s.loaded := rfl

@[simp] theorem State.onCore_sw (s : State) (g : Core → Core) : (s.onCore g).sw = { s.sw with core := g s.sw.core } := rfl
@[simp] theorem State.onCore_ep (s : State) (g : Core → Core) : (s.onCore g).ep = s.ep := rfl
@[simp] theorem State.onCore_out (s : State) (g : Core → Core) : (s.onCore g).out = s.out := rfl
@[simp] theorem State.onCore_fresh (s : State) (g : Core → Core) : (s.onCore g).fresh = s.fresh := rfl
@[simp] theorem State.onCore_pending (s : State) (g : Core → Core) : (s.onCore g).pending = s.pending := rfl
@[simp] theorem State.onCore_loaded (s : State) (g : Core → Core) : (s.onCore g).loaded = s.loaded := rfl

@[simp] theorem State.onEscrow_sw (s : State) (g : Escrow → Escrow) : (s.onEscrow g).sw = { s.sw with escrow := g s.sw.escrow } := rfl
@[simp] theorem State.onEscrow_ep (s : State) (g : Escrow → Escrow) : (s.onEscrow g).ep = s.ep := rfl
@[simp] theorem State.onEscrow_out (s : State) (g : Escrow → Escrow) : (s.onEscrow g).out = s.out := rfl
@[simp] theorem State.onEscrow_fresh (s : State) (g : Escrow → Escrow) : (s.onEscrow g).fresh = s.fresh := rfl
@[simp] theorem State.onEscrow_pending (s : State) (g : Escrow → Escrow) : (s.onEscrow g).pending = s.pending := rfl
@[simp] theorem State.onEscrow_loaded (s : State) (g : Escrow → Escrow) : (s.onEscrow g).loaded = s.loaded := rfl

@[simp] theorem State.onPower_sw (s : State) (g : Power → Power) : (s.onPower g).sw = { s.sw with power := g s.sw.power } := rfl
@[simp] theorem State.onPower_ep (s : State) (g : Power → Power) : (s.onPower g).ep = s.ep := rfl
@[simp] theorem State.onPower_out (s : State) (g : Power → Power) : (s.onPower g).out = s.out := rfl
@[simp] theorem State.onPower_fresh (s : State) (g : Power → Power) : (s.onPower g).fresh = s.fresh := rfl
@[simp] theorem State.onPower_pending (s : State) (g : Power → Power) : (s.onPower g).pending = s.pending := rfl
@[simp] theorem State.onPower_loaded (s : State) (g : Power → Power) : (s.onPower g).loaded = s.loaded := rfl

@[simp] theorem State.onHome_sw (s : State) (g : Home → Home) : (s.onHome g).sw = { s.sw with mem := { s.sw.mem with home := g s.sw.mem.home } } := rfl
@[simp] theorem State.onHome_ep (s : State) (g : Home → Home) : (s.onHome g).ep = s.ep := rfl
@[simp] theorem State.onHome_out (s : State) (g : Home → Home) : (s.onHome g).out = s.out := rfl
@[simp] theorem State.onHome_fresh (s : State) (g : Home → Home) : (s.onHome g).fresh = s.fresh := rfl
@[simp] theorem State.onHome_pending (s : State) (g : Home → Home) : (s.onHome g).pending = s.pending := rfl
@[simp] theorem State.onHome_loaded (s : State) (g : Home → Home) : (s.onHome g).loaded = s.loaded := rfl

@[simp] theorem State.putLedger_sw (s : State) (p : Nat) (l : Ledger) : (s.putLedger p l).sw = { s.sw with ledger := s.sw.ledger.put p l } := rfl
@[simp] theorem State.putLedger_ep (s : State) (p : Nat) (l : Ledger) : (s.putLedger p l).ep = s.ep := rfl
@[simp] theorem State.putLedger_out (s : State) (p : Nat) (l : Ledger) : (s.putLedger p l).out = s.out := rfl
@[simp] theorem State.putLedger_fresh (s : State) (p : Nat) (l : Ledger) : (s.putLedger p l).fresh = s.fresh := rfl
@[simp] theorem State.putLedger_pending (s : State) (p : Nat) (l : Ledger) : (s.putLedger p l).pending = s.pending := rfl
@[simp] theorem State.putLedger_loaded (s : State) (p : Nat) (l : Ledger) : (s.putLedger p l).loaded = s.loaded := rfl

@[simp] theorem State.putSynd_sw (s : State) (i : Nat) (y : Synd) : (s.putSynd i y).sw = { s.sw with synd := s.sw.synd.put i y } := rfl
@[simp] theorem State.putSynd_ep (s : State) (i : Nat) (y : Synd) : (s.putSynd i y).ep = s.ep := rfl
@[simp] theorem State.putSynd_out (s : State) (i : Nat) (y : Synd) : (s.putSynd i y).out = s.out := rfl
@[simp] theorem State.putSynd_fresh (s : State) (i : Nat) (y : Synd) : (s.putSynd i y).fresh = s.fresh := rfl
@[simp] theorem State.putSynd_pending (s : State) (i : Nat) (y : Synd) : (s.putSynd i y).pending = s.pending := rfl
@[simp] theorem State.putSynd_loaded (s : State) (i : Nat) (y : Synd) : (s.putSynd i y).loaded = s.loaded := rfl

@[simp] theorem State.putSlot_sw (s : State) (k : Nat) (v : KeySlot) : (s.putSlot k v).sw = { s.sw with vault := { s.sw.vault with slot := s.sw.vault.slot.put k v } } := rfl
@[simp] theorem State.putSlot_ep (s : State) (k : Nat) (v : KeySlot) : (s.putSlot k v).ep = s.ep := rfl
@[simp] theorem State.putSlot_out (s : State) (k : Nat) (v : KeySlot) : (s.putSlot k v).out = s.out := rfl
@[simp] theorem State.putSlot_fresh (s : State) (k : Nat) (v : KeySlot) : (s.putSlot k v).fresh = s.fresh := rfl
@[simp] theorem State.putSlot_pending (s : State) (k : Nat) (v : KeySlot) : (s.putSlot k v).pending = s.pending := rfl
@[simp] theorem State.putSlot_loaded (s : State) (k : Nat) (v : KeySlot) : (s.putSlot k v).loaded = s.loaded := rfl

@[simp] theorem State.putPart_sw (s : State) (p : Nat) (v : Part) : (s.putPart p v).sw = { s.sw with vault := { s.sw.vault with part := s.sw.vault.part.put p v } } := rfl
@[simp] theorem State.putPart_ep (s : State) (p : Nat) (v : Part) : (s.putPart p v).ep = s.ep := rfl
@[simp] theorem State.putPart_out (s : State) (p : Nat) (v : Part) : (s.putPart p v).out = s.out := rfl
@[simp] theorem State.putPart_fresh (s : State) (p : Nat) (v : Part) : (s.putPart p v).fresh = s.fresh := rfl
@[simp] theorem State.putPart_pending (s : State) (p : Nat) (v : Part) : (s.putPart p v).pending = s.pending := rfl
@[simp] theorem State.putPart_loaded (s : State) (p : Nat) (v : Part) : (s.putPart p v).loaded = s.loaded := rfl

@[simp] theorem State.putEngine_sw (s : State) (e : Nat) (v : Engine) : (s.putEngine e v).sw = { s.sw with escrow := { s.sw.escrow with engine := s.sw.escrow.engine.put e v } } := rfl
@[simp] theorem State.putEngine_ep (s : State) (e : Nat) (v : Engine) : (s.putEngine e v).ep = s.ep := rfl
@[simp] theorem State.putEngine_out (s : State) (e : Nat) (v : Engine) : (s.putEngine e v).out = s.out := rfl
@[simp] theorem State.putEngine_fresh (s : State) (e : Nat) (v : Engine) : (s.putEngine e v).fresh = s.fresh := rfl
@[simp] theorem State.putEngine_pending (s : State) (e : Nat) (v : Engine) : (s.putEngine e v).pending = s.pending := rfl
@[simp] theorem State.putEngine_loaded (s : State) (e : Nat) (v : Engine) : (s.putEngine e v).loaded = s.loaded := rfl

@[simp] theorem State.onMailbox_sw (s : State) (fn mb : Nat) (g : Mailbox → Mailbox) : (s.onMailbox fn mb g).sw = { s.sw with teller := { s.sw.teller with mbox := s.sw.teller.mbox.upd (mbKey fn mb) {} g } } := rfl
@[simp] theorem State.onMailbox_ep (s : State) (fn mb : Nat) (g : Mailbox → Mailbox) : (s.onMailbox fn mb g).ep = s.ep := rfl
@[simp] theorem State.onMailbox_out (s : State) (fn mb : Nat) (g : Mailbox → Mailbox) : (s.onMailbox fn mb g).out = s.out := rfl
@[simp] theorem State.onMailbox_fresh (s : State) (fn mb : Nat) (g : Mailbox → Mailbox) : (s.onMailbox fn mb g).fresh = s.fresh := rfl
@[simp] theorem State.onMailbox_pending (s : State) (fn mb : Nat) (g : Mailbox → Mailbox) : (s.onMailbox fn mb g).pending = s.pending := rfl
@[simp] theorem State.onMailbox_loaded (s : State) (fn mb : Nat) (g : Mailbox → Mailbox) : (s.onMailbox fn mb g).loaded = s.loaded := rfl

@[simp] theorem State.onRegion_sw (s : State) (i : Nat) (g : Region → Region) : (s.onRegion i g).sw = { s.sw with mem := { s.sw.mem with home := { s.sw.mem.home with region := s.sw.mem.home.region.upd i {} g } } } := rfl
@[simp] theorem State.onRegion_ep (s : State) (i : Nat) (g : Region → Region) : (s.onRegion i g).ep = s.ep := rfl
@[simp] theorem State.onRegion_out (s : State) (i : Nat) (g : Region → Region) : (s.onRegion i g).out = s.out := rfl
@[simp] theorem State.onRegion_fresh (s : State) (i : Nat) (g : Region → Region) : (s.onRegion i g).fresh = s.fresh := rfl
@[simp] theorem State.onRegion_pending (s : State) (i : Nat) (g : Region → Region) : (s.onRegion i g).pending = s.pending := rfl
@[simp] theorem State.onRegion_loaded (s : State) (i : Nat) (g : Region → Region) : (s.onRegion i g).loaded = s.loaded := rfl

@[simp] theorem State.onDomain_sw (s : State) (kind index : Nat) (g : Domain → Domain) : (s.onDomain kind index g).sw = { s.sw with power := { s.sw.power with dom := s.sw.power.dom.put (kind * 64 + index) (g (s.sw.domain kind index)) } } := rfl
@[simp] theorem State.onDomain_ep (s : State) (kind index : Nat) (g : Domain → Domain) : (s.onDomain kind index g).ep = s.ep := rfl
@[simp] theorem State.onDomain_out (s : State) (kind index : Nat) (g : Domain → Domain) : (s.onDomain kind index g).out = s.out := rfl
@[simp] theorem State.onDomain_fresh (s : State) (kind index : Nat) (g : Domain → Domain) : (s.onDomain kind index g).fresh = s.fresh := rfl
@[simp] theorem State.onDomain_pending (s : State) (kind index : Nat) (g : Domain → Domain) : (s.onDomain kind index g).pending = s.pending := rfl
@[simp] theorem State.onDomain_loaded (s : State) (kind index : Nat) (g : Domain → Domain) : (s.onDomain kind index g).loaded = s.loaded := rfl

@[simp] theorem State.dequeued_sw (s : State) (fn mb : Nat) : (s.dequeued fn mb).sw = { s.sw with teller := { s.sw.teller with order := s.sw.teller.order.erase (fn, mb) } } := rfl
@[simp] theorem State.dequeued_ep (s : State) (fn mb : Nat) : (s.dequeued fn mb).ep = s.ep := rfl
@[simp] theorem State.dequeued_out (s : State) (fn mb : Nat) : (s.dequeued fn mb).out = s.out := rfl
@[simp] theorem State.dequeued_fresh (s : State) (fn mb : Nat) : (s.dequeued fn mb).fresh = s.fresh := rfl
@[simp] theorem State.dequeued_pending (s : State) (fn mb : Nat) : (s.dequeued fn mb).pending = s.pending := rfl
@[simp] theorem State.dequeued_loaded (s : State) (fn mb : Nat) : (s.dequeued fn mb).loaded = s.loaded := rfl

@[simp] theorem State.tick_sw (s : State)  : (s.tick).sw = { s.sw with clock := { s.sw.clock with now := s.sw.clock.now + tFlit } } := rfl
@[simp] theorem State.tick_ep (s : State)  : (s.tick).ep = { s.ep with clock := { s.ep.clock with now := s.ep.clock.now + tFlit } } := rfl
@[simp] theorem State.tick_out (s : State)  : (s.tick).out = s.out := rfl
@[simp] theorem State.tick_fresh (s : State)  : (s.tick).fresh = s.fresh := rfl
@[simp] theorem State.tick_pending (s : State)  : (s.tick).pending = s.pending := rfl
@[simp] theorem State.tick_loaded (s : State)  : (s.tick).loaded = s.loaded := rfl

/-! ### One part of a device -/

@[simp] theorem State.onSched_atSw_sw (s : State) (g : Sched → Sched) : (s.onSched .sw g).sw = { s.sw with sched := g s.sw.sched } := rfl
@[simp] theorem State.onSched_atSw_ep (s : State) (g : Sched → Sched) : (s.onSched .sw g).ep = s.ep := rfl
@[simp] theorem State.onSched_atSw_out (s : State) (g : Sched → Sched) : (s.onSched .sw g).out = s.out := rfl
@[simp] theorem State.onSched_atSw_fresh (s : State) (g : Sched → Sched) : (s.onSched .sw g).fresh = s.fresh := rfl
@[simp] theorem State.onSched_atSw_pending (s : State) (g : Sched → Sched) : (s.onSched .sw g).pending = s.pending := rfl
@[simp] theorem State.onSched_atSw_loaded (s : State) (g : Sched → Sched) : (s.onSched .sw g).loaded = s.loaded := rfl

@[simp] theorem State.onSched_atEp_sw (s : State) (g : Sched → Sched) : (s.onSched .ep g).sw = s.sw := rfl
@[simp] theorem State.onSched_atEp_ep (s : State) (g : Sched → Sched) : (s.onSched .ep g).ep = { s.ep with sched := g s.ep.sched } := rfl
@[simp] theorem State.onSched_atEp_out (s : State) (g : Sched → Sched) : (s.onSched .ep g).out = s.out := rfl
@[simp] theorem State.onSched_atEp_fresh (s : State) (g : Sched → Sched) : (s.onSched .ep g).fresh = s.fresh := rfl
@[simp] theorem State.onSched_atEp_pending (s : State) (g : Sched → Sched) : (s.onSched .ep g).pending = s.pending := rfl
@[simp] theorem State.onSched_atEp_loaded (s : State) (g : Sched → Sched) : (s.onSched .ep g).loaded = s.loaded := rfl

@[simp] theorem State.onClock_atSw_sw (s : State) (g : Clock → Clock) : (s.onClock .sw g).sw = { s.sw with clock := g s.sw.clock } := rfl
@[simp] theorem State.onClock_atSw_ep (s : State) (g : Clock → Clock) : (s.onClock .sw g).ep = s.ep := rfl
@[simp] theorem State.onClock_atSw_out (s : State) (g : Clock → Clock) : (s.onClock .sw g).out = s.out := rfl
@[simp] theorem State.onClock_atSw_fresh (s : State) (g : Clock → Clock) : (s.onClock .sw g).fresh = s.fresh := rfl
@[simp] theorem State.onClock_atSw_pending (s : State) (g : Clock → Clock) : (s.onClock .sw g).pending = s.pending := rfl
@[simp] theorem State.onClock_atSw_loaded (s : State) (g : Clock → Clock) : (s.onClock .sw g).loaded = s.loaded := rfl

@[simp] theorem State.onClock_atEp_sw (s : State) (g : Clock → Clock) : (s.onClock .ep g).sw = s.sw := rfl
@[simp] theorem State.onClock_atEp_ep (s : State) (g : Clock → Clock) : (s.onClock .ep g).ep = { s.ep with clock := g s.ep.clock } := rfl
@[simp] theorem State.onClock_atEp_out (s : State) (g : Clock → Clock) : (s.onClock .ep g).out = s.out := rfl
@[simp] theorem State.onClock_atEp_fresh (s : State) (g : Clock → Clock) : (s.onClock .ep g).fresh = s.fresh := rfl
@[simp] theorem State.onClock_atEp_pending (s : State) (g : Clock → Clock) : (s.onClock .ep g).pending = s.pending := rfl
@[simp] theorem State.onClock_atEp_loaded (s : State) (g : Clock → Clock) : (s.onClock .ep g).loaded = s.loaded := rfl

@[simp] theorem State.putLink_atSw_sw (s : State) (p : Nat) (l : Link) : (s.putLink .sw p l).sw = { s.sw with link := s.sw.link.put p l } := rfl
@[simp] theorem State.putLink_atSw_ep (s : State) (p : Nat) (l : Link) : (s.putLink .sw p l).ep = s.ep := rfl
@[simp] theorem State.putLink_atSw_out (s : State) (p : Nat) (l : Link) : (s.putLink .sw p l).out = s.out := rfl
@[simp] theorem State.putLink_atSw_fresh (s : State) (p : Nat) (l : Link) : (s.putLink .sw p l).fresh = s.fresh := rfl
@[simp] theorem State.putLink_atSw_pending (s : State) (p : Nat) (l : Link) : (s.putLink .sw p l).pending = s.pending := rfl
@[simp] theorem State.putLink_atSw_loaded (s : State) (p : Nat) (l : Link) : (s.putLink .sw p l).loaded = s.loaded := rfl

@[simp] theorem State.putLink_atEp_sw (s : State) (p : Nat) (l : Link) : (s.putLink .ep p l).sw = s.sw := rfl
@[simp] theorem State.putLink_atEp_ep (s : State) (p : Nat) (l : Link) : (s.putLink .ep p l).ep = { s.ep with link := s.ep.link.put p l } := rfl
@[simp] theorem State.putLink_atEp_out (s : State) (p : Nat) (l : Link) : (s.putLink .ep p l).out = s.out := rfl
@[simp] theorem State.putLink_atEp_fresh (s : State) (p : Nat) (l : Link) : (s.putLink .ep p l).fresh = s.fresh := rfl
@[simp] theorem State.putLink_atEp_pending (s : State) (p : Nat) (l : Link) : (s.putLink .ep p l).pending = s.pending := rfl
@[simp] theorem State.putLink_atEp_loaded (s : State) (p : Nat) (l : Link) : (s.putLink .ep p l).loaded = s.loaded := rfl

end Sys2Proof.Machine
end

