-- ==== Sys2Proof/Laws/Report.lean ====
section
/-!
SUPPORT. Reporting and answering: what counters, records, events, Ledger entries and responses leave unchanged.
-/

namespace Sys2Proof.Machine

theorem ReportFrame.refl (s : State) : ReportFrame s s := ⟨rfl, List.prefix_refl _⟩

theorem ReportFrame.trans {s t u : State} (h : ReportFrame s t) (k : ReportFrame t u) : ReportFrame s u := by
  obtain ⟨h, ho⟩ := h
  obtain ⟨k, ko⟩ := k
  refine ⟨?_, ho.trans ko⟩
  rw [k, h]

theorem AnswerFrame.refl (s : State) : AnswerFrame s s := ⟨rfl, List.prefix_refl _⟩

theorem AnswerFrame.trans {s t u : State} (h : AnswerFrame s t) (k : AnswerFrame t u) : AnswerFrame s u := by
  obtain ⟨h, ho⟩ := h
  obtain ⟨k, ko⟩ := k
  refine ⟨?_, ho.trans ko⟩
  rw [k, h]

theorem ToldFrame.refl (s : State) : ToldFrame s s := ⟨rfl, List.prefix_refl _⟩

theorem ToldFrame.trans {s t u : State} (h : ToldFrame s t) (k : ToldFrame t u) : ToldFrame s u := by
  obtain ⟨h, ho⟩ := h
  obtain ⟨k, ko⟩ := k
  refine ⟨?_, ho.trans ko⟩
  rw [k, h]

theorem ReportFrame.answer {s t : State} (h : ReportFrame s t) : AnswerFrame s t := by
  obtain ⟨h, ho⟩ := h
  refine ⟨?_, ho⟩
  rw [h]

theorem AnswerFrame.told {s t : State} (h : AnswerFrame s t) : ToldFrame s t := by
  obtain ⟨h, ho⟩ := h
  refine ⟨?_, ho⟩
  rw [h]

/-- A change of the parts that reporting names, which sends nothing. -/
theorem ReportFrame.quiet {s t : State} (h : t = { s with
    sw := { s.sw with
      tally := { s.sw.tally with faults := t.sw.tally.faults, nextSeq := t.sw.tally.nextSeq }
      host := { s.sw.host with swEvent := t.sw.host.swEvent, msixPending := t.sw.host.msixPending, lastVec4 := t.sw.host.lastVec4 }
      sys := { s.sw.sys with alertRec := t.sw.sys.alertRec, alert := t.sw.sys.alert }
      ledger := t.sw.ledger
      ledgerQueue := t.sw.ledgerQueue } }) : ReportFrame s t := by
  have ho : t.out = s.out := by rw [h]
  exact ⟨h.trans (by rw [ho]), by rw [ho]⟩

theorem ReportFrame.of_ite {s t u : State} {c : Prop} [Decidable c] (ht : ReportFrame s t) (hu : ReportFrame s u) : ReportFrame s (if c then t else u) := by
  split <;> assumption

theorem State.emit_report (s : State) (o : Out) : ReportFrame s (s.emit o) := ⟨rfl, List.prefix_append _ _⟩

theorem State.msix_report (s : State) (fn vec : Nat) : ReportFrame s (s.msix fn vec) := by
  unfold State.msix
  exact .of_ite (ReportFrame.trans (.quiet rfl) (State.emit_report _ _)) (.of_ite (.refl _) (.quiet rfl))

theorem State.setEvent_report (s : State) (b : Nat) : ReportFrame s (s.setEvent b) := by
  unfold State.setEvent
  exact .of_ite (.refl _) (ReportFrame.trans (.quiet rfl) (State.msix_report _ _ _))

theorem State.refreshAlert_report (s : State) : ReportFrame s s.refreshAlert := by
  unfold State.refreshAlert
  exact .of_ite (.refl _) (ReportFrame.trans (.quiet rfl) (State.emit_report _ _))

/-- A record changes the Tally's records, the events and their vectors, and ALERT_N. -/
theorem State.record_report (s : State) (o : Occurrence) : ReportFrame s (s.record o) := by
  unfold State.record
  dsimp only
  split
  · exact .quiet rfl
  · refine ReportFrame.trans ?_ (.of_ite (State.msix_report _ _ _) (.refl _))
    exact (ReportFrame.trans (.quiet rfl) (State.setEvent_report _ _)).trans (State.refreshAlert_report _)

theorem State.putLedger_report (s : State) (p : Nat) (l : Ledger) : ReportFrame s (s.putLedger p l) := .quiet rfl

theorem State.noteFull_report (s : State) (p : Nat) : ReportFrame s (s.noteFull p) := by
  unfold State.noteFull
  exact .of_ite (.refl _) ((State.putLedger_report _ _ _).trans (State.record_report _ _))

theorem State.noteHigh_report (s : State) (p : Nat) : ReportFrame s (s.noteHigh p) := by
  unfold State.noteHigh
  exact .of_ite ((State.putLedger_report _ _ _).trans (State.record_report _ _)) (State.putLedger_report _ _ _)

theorem State.ledgerSeal_report (s : State) (p : Nat) : ReportFrame s (s.ledgerSeal p) := by
  unfold State.ledgerSeal
  exact .of_ite (.refl _) (.of_ite (State.putLedger_report _ _ _) ((State.putLedger_report _ _ _).trans (State.noteHigh_report _ _)))

theorem State.ledgerPut_report (s : State) (p : Nat) (e : Entry) : ReportFrame s (s.ledgerPut p e) := by
  unfold State.ledgerPut
  exact .of_ite (((State.putLedger_report _ _ _).trans (State.noteHigh_report _ _)).trans (State.ledgerSeal_report _ _))
    ((State.putLedger_report _ _ _).trans (State.noteHigh_report _ _))

/-- The Ledger takes an entry: reporting only. -/
theorem State.ledgerAdd_report (s : State) (p : Nat) (e : Entry) : ReportFrame s (s.ledgerAdd p e) := by
  unfold State.ledgerAdd
  refine .of_ite (.refl _) (.of_ite (State.ledgerPut_report _ _ _) (.of_ite ?_ (State.noteFull_report _ _)))
  have h : ReportFrame s ((s.onSw fun w => { w with ledgerQueue := w.ledgerQueue ++ [(p, e)] }).noteFull p) :=
    ReportFrame.trans (.quiet rfl) (State.noteFull_report _ _)
  exact .of_ite (h.trans (State.record_report _ _)) h

theorem State.commandEntry_report (s : State) (c : Cmd) (status : Nat) (point : List Byte) (forced : Bool) :
    ReportFrame s (s.commandEntry c status point forced).1 := by
  unfold State.commandEntry
  dsimp only
  split
  · exact .refl _
  · exact .of_ite (State.ledgerPut_report _ _ _) (State.ledgerAdd_report _ _ _)

/-- What reporting leaves, field by field. -/
theorem ReportFrame.fields {s t : State} (h : ReportFrame s t) :
    t.sw.teller = s.sw.teller ∧ t.sw.inputWait = s.sw.inputWait ∧ t.sw.vault = s.sw.vault ∧ t.sw.mem = s.sw.mem ∧ t.sw.xlat = s.sw.xlat
      ∧ t.sw.core = s.sw.core ∧ t.sw.sched = s.sw.sched ∧ t.sw.clock = s.sw.clock ∧ t.sw.link = s.sw.link ∧ t.sw.escrow = s.sw.escrow
      ∧ t.sw.synd = s.sw.synd ∧ t.sw.mgmt = s.sw.mgmt ∧ t.sw.power = s.sw.power ∧ t.ep = s.ep ∧ t.pending = s.pending ∧ t.fresh = s.fresh := by
  rw [h.1]
  simp

/-- Reporting leaves the mailboxes. -/
theorem ReportFrame.mailbox {s t : State} (h : ReportFrame s t) (f m : Nat) : t.sw.mailbox f m = s.sw.mailbox f m := by
  simp [Switch.mailbox, h.fields.1]

end Sys2Proof.Machine
end

