-- ==== Sys2Proof/Laws/Sends.lean ====
section
/-!
SUPPORT. Frames at the switch: what waking a domain, freeing cells, taking a frame and queueing a frame leave unchanged.
-/

namespace Sys2Proof.Machine

theorem SentFrame.refl (s : State) : SentFrame s s := ⟨rfl, List.prefix_refl _⟩

theorem SentFrame.trans {s t u : State} (h : SentFrame s t) (k : SentFrame t u) : SentFrame s u := by
  obtain ⟨h, ho⟩ := h
  obtain ⟨k, ko⟩ := k
  refine ⟨?_, ho.trans ko⟩
  rw [k, h]

/-- What a reader of the rest of the state may use. -/
theorem SentFrame.fields {s t : State} (h : SentFrame s t) :
    t.sw.sys = s.sw.sys ∧ t.sw.clock = s.sw.clock ∧ t.sw.link = s.sw.link ∧ t.sw.mem = s.sw.mem ∧ t.sw.vault = s.sw.vault ∧ t.sw.teller = s.sw.teller
      ∧ t.sw.escrow = s.sw.escrow ∧ t.sw.mgmt = s.sw.mgmt ∧ t.sw.sched = s.sw.sched ∧ t.sw.ledger = s.sw.ledger ∧ t.sw.xlat = s.sw.xlat
      ∧ t.sw.synd = s.sw.synd ∧ t.ep = s.ep ∧ t.pending = s.pending ∧ t.fresh = s.fresh := by
  obtain ⟨h, -⟩ := h
  rw [h]
  exact ⟨rfl, rfl, rfl, rfl, rfl, rfl, rfl, rfl, rfl, rfl, rfl, rfl, rfl, rfl, rfl⟩

theorem State.emit_sent (s : State) (o : Out) : SentFrame s (s.emit o) := ⟨rfl, List.prefix_append _ _⟩

theorem State.countN_sent (s : State) (block i n : Nat) : SentFrame s (s.countN block i n) := ⟨rfl, List.prefix_refl _⟩

theorem State.work_sent (s : State) (kind index : Nat) : SentFrame s (s.work kind index) := by
  unfold State.work
  dsimp only
  split
  · exact SentFrame.refl _
  · split
    · exact SentFrame.refl _
    · split
      · exact ⟨rfl, List.prefix_refl _⟩
      · split
        · exact ⟨rfl, List.prefix_refl _⟩
        · split
          · split
            · exact ⟨rfl, List.prefix_append _ _⟩
            · exact ⟨rfl, List.prefix_refl _⟩
          · exact SentFrame.refl _

theorem State.workAt_sent (s : State) (o : Nat) : SentFrame s (s.workAt o) := by
  unfold State.workAt
  split
  · exact State.work_sent _ _ _
  · split
    · exact State.work_sent _ _ _
    · exact SentFrame.refl _

theorem State.workMemory_sent (s : State) (off : Nat) : SentFrame s (s.workMemory off) := by
  unfold State.workMemory
  have h : SentFrame s (if inPool off 1 then (s.work 4 (unitOf off)).work 2 (channelOf off) else s.work 4 (unitOf off)) := by
    split
    · exact (State.work_sent _ _ _).trans (State.work_sent _ _ _)
    · exact State.work_sent _ _ _
  dsimp only
  split
  · exact h.trans (State.work_sent _ _ _)
  · exact h

theorem State.returnCredit_sent (s : State) (p vc n : Nat) : SentFrame s (s.returnCredit p vc n) := by
  unfold State.returnCredit
  dsimp only
  split
  · exact SentFrame.refl _
  · split
    · exact State.emit_sent _ _
    · exact ⟨rfl, List.prefix_refl _⟩

/-- A frame takes its cells. -/
theorem State.placeFrame_sent (s : State) (src vc : Nat) (f : Frame) (whole : Bool) (mark : Nat) : SentFrame s (s.placeFrame src vc f whole mark).2 := by
  unfold State.placeFrame
  dsimp only
  split
  · refine SentFrame.trans ?_ (State.countN_sent _ _ _ _)
    exact ⟨rfl, List.prefix_refl _⟩
  · exact ⟨rfl, List.prefix_refl _⟩

/-- A frame that has its cells joins a queue. -/
theorem State.join_sent (s : State) (key : Nat) (b : Buffered) : SentFrame s (s.join key b) := by
  refine SentFrame.trans ?_ (State.workAt_sent _ _)
  exact ⟨rfl, List.prefix_refl _⟩

theorem State.enqueue_sent (s : State) (key src : Nat) (f : Frame) : SentFrame s (s.enqueue key src f) :=
  (State.placeFrame_sent s src f.cls f true 0).trans
    (State.join_sent (s.placeFrame src f.cls f true 0).2 key (s.placeFrame src f.cls f true 0).1)

/-- Frames that an internal source held join their queues. -/
theorem State.releaseWaiting_sent (src cls n : Nat) : ∀ s : State, SentFrame s (s.releaseWaiting src cls n) := by
  induction n with
  | zero => exact SentFrame.refl
  | succ n ih =>
    intro s
    unfold State.releaseWaiting
    split
    · exact SentFrame.refl _
    · split
      · refine SentFrame.trans (SentFrame.trans ?_ (State.enqueue_sent _ _ _ _)) (ih _)
        exact ⟨rfl, List.prefix_refl _⟩
      · exact SentFrame.refl _

theorem State.freeCells_sent (s : State) (b : Buffered) : SentFrame s (s.freeCells b) := by
  unfold State.freeCells
  dsimp only
  refine SentFrame.trans (t := if b.src < 64 ∧ b.f.cls ≠ 0 then s.returnCredit b.src b.vc b.owes else s) ?_ ?_
  · split
    · exact State.returnCredit_sent _ _ _ _
    · exact SentFrame.refl _
  · generalize (if b.src < 64 ∧ b.f.cls ≠ 0 then s.returnCredit b.src b.vc b.owes else s) = u
    split
    · exact ⟨rfl, List.prefix_refl _⟩
    · refine SentFrame.trans ?_ (State.releaseWaiting_sent _ _ _ _)
      exact ⟨rfl, List.prefix_refl _⟩

/-- A frame that leaves an inbox frees its cells. -/
theorem State.takeInbox_sent (s : State) (o : Nat) (f : Frame) : SentFrame s (s.takeInbox o f) := by
  unfold State.takeInbox
  split
  · exact SentFrame.refl _
  · refine SentFrame.trans ?_ (State.freeCells_sent _ _)
    exact ⟨rfl, List.prefix_refl _⟩

/-- A frame of an internal source joins a queue, or waits for credits at its source. -/
theorem State.fromSource_sent (s : State) (src key : Nat) (f : Frame) : SentFrame s (s.fromSource src key f) := by
  unfold State.fromSource
  split
  · exact State.enqueue_sent _ _ _ _
  · exact ⟨rfl, List.prefix_refl _⟩

/-- A frame that the switch sends goes to its source's queue, or is dropped where no route leads. -/
theorem State.swSend_sent (s : State) (src : Nat) (f : Frame) : SentFrame s (s.swSend src f) := by
  unfold State.swSend
  dsimp only
  split
  · exact SentFrame.refl _
  · exact State.fromSource_sent _ _ _ _

theorem State.swSendPort_sent (s : State) (src p : Nat) (f : Frame) : SentFrame s (s.swSendPort src p f) := State.fromSource_sent _ _ _ _

theorem State.taken_sent (s : State) (f : Frame) : SentFrame s (s.taken f) := State.takeInbox_sent _ _ _

/-- A request at its Clearing unit has changed nothing of the home but the order of arrivals and the unit's own notes. -/
theorem State.atUnit_home (s : State) (pos : Nat) (f : Frame) : (s.atUnit pos f).sw.mem.home = s.sw.mem.home := by
  have h := (State.takeInbox_sent (((s.workMemory f.offset).noteArrival f).noteStep pos f true) (64 + unitOf f.offset) f).fields.2.2.2.1
  have k := (State.workMemory_sent s f.offset).fields.2.2.2.1
  unfold State.atUnit
  rw [h, ← k]
  unfold State.noteArrival
  dsimp only
  split <;> rfl

theorem State.escrowRespond_sent (s : State) (f : Frame) (status : Nat) (data : List Byte) : SentFrame s (s.escrowRespond f status data) :=
  State.swSend_sent _ _ _

/-- A home's response also takes its request out of the count of its key slot. -/
theorem State.homeRespond_sent (s : State) (f : Frame) (status : Nat) (data : List Byte) (cache : Nat) :
    SentFrame (s.uncount f) (s.homeRespond f status data cache) := State.swSend_sent _ _ _

end Sys2Proof.Machine
end

