-- ==== Sys2Proof/Laws/Teller.lean ====
section
/-!
SUPPORT. The Teller's shared operations: what an accepted command becomes, and what a response and a commit leave.
-/

namespace Sys2Proof.Machine

theorem State.clearOwn_frame (s : State) (fn mb : Nat) : AnswerFrame s (s.clearOwn fn mb) := by
  unfold State.clearOwn
  dsimp only
  split
  · exact AnswerFrame.trans ⟨rfl, List.prefix_refl _⟩ (State.msix_report _ _ _).answer
  · exact ⟨rfl, List.prefix_refl _⟩

/-- A response changes its mailbox, and sends the vector asked for. -/
theorem State.respond_frame (s : State) (fn mb seq status detail q : Nat) (rsp : List Byte) : AnswerFrame s (s.respond fn mb seq status detail q rsp) := by
  unfold State.respond
  exact AnswerFrame.trans ⟨rfl, List.prefix_refl _⟩ (State.clearOwn_frame _ _ _)

theorem State.clearOwn_teller (s : State) (fn mb : Nat) :
    (s.clearOwn fn mb).sw.teller = { s.sw.teller with mbox := s.sw.teller.mbox.upd (mbKey fn mb) {} fun m => { m with own := false } } := by
  unfold State.clearOwn
  dsimp only
  split
  · rw [(State.msix_report _ _ _).fields.1]
    rfl
  · rfl

/-- The mailbox after a response. -/
theorem State.respond_mailbox (s : State) (fn mb seq status detail q : Nat) (rsp : List Byte) :
    (s.respond fn mb seq status detail q rsp).sw.mailbox fn mb = { s.sw.mailbox fn mb with
      own := false, rspHeader := BitVec.ofNat 64 (status + seq % 2 ^ 16 * 2 ^ 16 + rsp.length * 2 ^ 32 + detail * 2 ^ 48)
      ledgerSeq := q, rsp := rsp, lastSeq := seq } := by
  simp [State.respond, Switch.mailbox, State.clearOwn_teller]

theorem State.respond_mailbox_ne (s : State) (fn mb seq status detail q : Nat) (rsp : List Byte) (f m : Nat) (h : mbKey f m ≠ mbKey fn mb) :
    (s.respond fn mb seq status detail q rsp).sw.mailbox f m = s.sw.mailbox f m := by
  simp [State.respond, Switch.mailbox, State.clearOwn_teller, Tab.get_upd_ne _ _ _ _ _ h]

theorem State.respond_order (s : State) (fn mb seq status detail q : Nat) (rsp : List Byte) :
    (s.respond fn mb seq status detail q rsp).sw.teller.order = s.sw.teller.order
      ∧ (s.respond fn mb seq status detail q rsp).sw.teller.active = s.sw.teller.active := by
  simp [State.respond, State.clearOwn_teller]

/-- An accepted command is performed. -/
theorem State.takeCommand_accepted {k : Form} {fn mb : Nat} {s : State} (h : Accepted k fn mb s) :
    s.takeCommand k fn mb = (s.dequeued fn mb).perform k (s.sw.cmdOf fn mb k.len) false := by
  obtain ⟨h1, h2, h3, h4, h5, h6⟩ := h
  have hd : (s.onTeller fun t => { t with order := t.order.erase (fn, mb) }) = s.dequeued fn mb := rfl
  have hm : (s.dequeued fn mb).sw.cmdOf fn mb k.len = s.sw.cmdOf fn mb k.len := rfl
  have hf : (s.dequeued fn mb).sw.entryFull fn = s.sw.entryFull fn := rfl
  have hv : (s.sw.cmdOf fn mb k.len).verify = false := h4
  unfold State.takeCommand
  dsimp only
  rw [h1, h2, hd, hm, hf, h5, h6]
  simp [h3, hv]

/-- A command that answers at once: its response, its effect and no more. -/
theorem Accepted.now {k : Form} {fn mb : Nat} {s u : State} {rsp : List Byte} (h : Accepted k fn mb s)
    (hc : k.commit (s.sw.cmdOf fn mb k.len) (s.dequeued fn mb) = (.now rsp, u)) (hm : u.sw.teller.mbox = s.sw.teller.mbox)
    (ho : u.sw.teller.order = s.sw.teller.order.erase (fn, mb)) :
    Answered fn mb mbOk 0 rsp s (s.takeCommand k fn mb) ∧ AnswerFrame u (s.takeCommand k fn mb) := by
  have hr := State.commandEntry_report u (s.sw.cmdOf fn mb k.len) mbOk (k.point (s.sw.cmdOf fn mb k.len) (s.dequeued fn mb)) false
  have hu (f m : Nat) : u.sw.mailbox f m = s.sw.mailbox f m := by simp [Switch.mailbox, hm]
  rw [State.takeCommand_accepted h]
  unfold State.perform
  rw [hc]
  dsimp only
  refine ⟨⟨?_, ?_, ?_⟩, hr.answer.trans (State.respond_frame _ _ _ _ _ _ _ _)⟩
  · have e : (s.sw.cmdOf fn mb k.len).fn = fn := rfl
    have e2 : (s.sw.cmdOf fn mb k.len).mb = mb := rfl
    have e3 : (s.sw.cmdOf fn mb k.len).seq = (s.sw.mailbox fn mb).seq := rfl
    rw [e, e2, e3, State.respond_mailbox, hr.mailbox, hu]
  · intro f m hne
    exact (State.respond_mailbox_ne _ fn mb _ _ _ _ _ f m hne).trans ((hr.mailbox f m).trans (hu f m))
  · rw [(State.respond_order _ _ _ _ _ _ _ _).1, hr.fields.1, ho]

/-- A command that works on: it stands among those not complete, and then its work begins. -/
theorem Accepted.later {k : Form} {fn mb : Nat} {s u : State} {work : Work} {holds : List Obj} {data : List Nat} (h : Accepted k fn mb s)
    (hc : k.commit (s.sw.cmdOf fn mb k.len) (s.dequeued fn mb) = (.later work holds data, u)) :
    ∃ (v : State) (q : Nat), ReportFrame u v ∧ s.takeCommand k fn mb = k.start (s.sw.cmdOf fn mb k.len) (v.onTeller fun x => { x with
      active := x.active ++ [{ fn := fn, mb := mb, box := mb, seq := (s.sw.mailbox fn mb).seq, opcode := k.opcode, payload := (s.sw.cmdOf fn mb k.len).body,
                               holds := holds, work := work, ledgerSeq := q, data := data }] }) := by
  have hop : (s.sw.cmdOf fn mb k.len).op = k.opcode := h.2.1
  have hv : (s.sw.cmdOf fn mb k.len).verify = false := h.2.2.2.1
  rw [State.takeCommand_accepted h]
  unfold State.perform
  rw [hc]
  dsimp only
  rw [hop, hv]
  by_cases hl : k.late = true
  · exact ⟨u, 0, .refl _, by simp [hl]; rfl⟩
  · refine ⟨_, (u.commandEntry (s.sw.cmdOf fn mb k.len) mbOk (k.point (s.sw.cmdOf fn mb k.len) (s.dequeued fn mb)) false).2,
      State.commandEntry_report u (s.sw.cmdOf fn mb k.len) mbOk (k.point (s.sw.cmdOf fn mb k.len) (s.dequeued fn mb)) false, ?_⟩
    simp only [hl]
    rfl

/-- A command that works on and whose work begins elsewhere: the list of active commands, and no more. -/
theorem Accepted.working {k : Form} {fn mb : Nat} {s u : State} {work : Work} {holds : List Obj} {data : List Nat} (h : Accepted k fn mb s)
    (hc : k.commit (s.sw.cmdOf fn mb k.len) (s.dequeued fn mb) = (.later work holds data, u)) (hs : k.start = fun _ s => s)
    (hm : u.sw.teller.mbox = s.sw.teller.mbox) (ho : u.sw.teller.order = s.sw.teller.order.erase (fn, mb)) (ha : u.sw.teller.active = s.sw.teller.active) :
    Working fn mb work holds data s (s.takeCommand k fn mb) ∧ AnswerFrame u (s.takeCommand k fn mb) := by
  obtain ⟨v, q, hv, ht⟩ := h.later hc
  rw [ht, hs]
  refine ⟨⟨?_, ?_, ?_⟩, hv.answer.trans ⟨rfl, List.prefix_refl _⟩⟩
  · intro f m
    simp [Switch.mailbox, hv.fields.1, hm]
  · simp [hv.fields.1, ho]
  · rw [← ha, ← hv.fields.1]
    exact ⟨_, rfl, rfl, rfl, rfl, rfl, rfl, rfl, rfl, rfl⟩

/-- Every row of the command catalogue is its form, taken by the Teller. -/
theorem mailboxRows_exec (fn mb : Nat) (s : State) : ∀ p ∈ mailboxRows, exec (p.2 fn mb) s = .next (s.takeCommand p.1 fn mb) := by
  simp only [mailboxRows, List.forall_mem_append, List.forall_mem_cons]
  and_intros <;> first | rfl | nofun

end Sys2Proof.Machine
end

