-- ==== Sys2Proof/WellFormed.lean ====
section
/-!
DEFINITION. Which commands are well formed: every operand fits the field that the spec gives it.
-/

namespace Sys2Proof

/-- Number of link ports of a device (01 R8, 24). -/
def Dev.ports : Dev → Nat
  | .sw => 64
  | .ep => 8

/-- Every field fits its bits of the header (03 R57) and the payload is LENGTH bytes where it is present. -/
def Frame.wf (f : Frame) : Bool :=
  decide (f.dest < 1024) && decide (f.src < 1024) && decide (f.agent < 64) && decide (f.partition < 16)
    && decide (f.cls < 8) && decide (f.typ < 64) && decide (f.tag < 4096) && decide (f.keySlot < 32) && decide (f.inc < 16)
    && decide (f.offset < 2 ^ 42) && decide (f.age < 4096) && decide (f.length ≤ 256) && decide (f.sparse < 2 ^ 16)
    && decide (f.status < 16) && (f.data.isEmpty || decide (f.data.length = f.length))

/-- A REQ message's fields fit (24 R559). -/
def Req.wf (r : Req) : Bool :=
  decide (r.utag < 2 ^ 16) && decide (r.agent < 64) && decide (r.cva < 2 ^ 64) && decide (1 ≤ r.length) && decide (r.length ≤ 4096)
    && decide (r.data.length ≤ 4096)

/-- A call record's fields fit (24 R570). -/
def CallRec.wf (c : CallRec) : Bool :=
  decide (c.synd < 256) && decide (c.cop < 256) && decide (c.fmt < 256) && decide (c.rop < 256) && decide (c.root < 2 ^ 16) && decide (c.len < 2 ^ 64)

/-- A mirror record's fields fit (18 R463). -/
def MirrorRec.wf (r : MirrorRec) : Bool :=
  decide (r.kind < 256) && decide (r.region < 1440) && decide (r.source < 64) && decide (r.seq < 2 ^ 64) && decide (r.line < 2 ^ 23)
    && (r.data.isEmpty || decide (r.data.length = 128))

/-- The issuing function and the mailbox of it (16 R413): PF0 has 16, a VF has 4. -/
def mailboxWf (fn mb : Nat) : Bool := decide (fn < 16) && decide (mb < if fn = 0 then 16 else 4)

/-- The command is well formed. -/
def Instr.wf : Instr → Bool
  | .devInfo fn mb | .devReset fn mb | .cfgModeSet fn mb | .cfgBookCommit fn mb | .cfgTimers fn mb
  | .cfgCoherence fn mb | .partAdmit fn mb | .partRemove fn mb | .partEnginesSet fn mb | .partPoolSet fn mb
  | .segTableSet fn mb | .segInvalidate fn mb | .portSpeedSet fn mb | .portEqSet fn mb | .calEqStore fn mb
  | .portLaneTest fn mb | .portTestPolicySet fn mb | .portNarrow fn mb | .linkSealSet fn mb | .linkRekey fn mb
  | .timeMasterSet fn mb | .timeSet fn mb | .schedStage fn mb | .schedArm fn mb | .schedDisarm fn mb
  | .bookPolicySet fn mb | .shaperSet fn mb | .policerSet fn mb | .shaperRead fn mb | .regionSet fn mb
  | .regionHandover fn mb | .regionRead fn mb | .regionLostClear fn mb | .nearStoreSet fn mb | .scrubSet fn mb
  | .retireLimitSet fn mb | .partnerSet fn mb | .partnerPromote fn mb | .partnerBreak fn mb | .syndCreate fn mb
  | .syndDestroy fn mb | .syndMemberSet fn mb | .syndQuotaSet fn mb | .escrowMailboxSet fn mb | .escrowQuotaSet fn mb
  | .escrowCancel fn mb | .vaultKemRead fn mb | .keyLoad fn mb | .keyRetire fn mb | .signerEnrol fn mb
  | .strongroomSet fn mb | .assayRequest fn mb | .keyRewrap fn mb | .keyRewrapRelease fn mb | .ledgerRegionSet fn mb
  | .ledgerRead fn mb | .ledgerSealNow fn mb | .ckptSave fn mb | .ckptRestore fn mb | .powerVote fn mb
  | .paceSet fn mb | .brakeSet fn mb | .powerRead fn mb | .tallyRead fn mb | .faultLogRead fn mb
  | .tallyQueueRead fn mb | .fenceSet fn mb | .fenceClear fn mb | .fdSet fn mb | .epReadmit fn mb | .fwStage fn mb
  | .fwActivate fn mb | .unlistedOpcode fn mb => mailboxWf fn mb
  -- port 64 of the switch: an answer of its own home
  | .readRsp dev port f | .writeRsp dev port f | .atomicRsp dev port f =>
    decide (port < dev.ports + match dev with | .sw => 1 | .ep => 0) && f.wf
  | .snoopRsp dev port f | .fwdData dev port f
  | .cohAck dev port f | .segInv dev port f | .segInvAck dev port f | .collConfirmSettled dev port f
  | .collAbort dev port f | .suspect dev port f | .verdict dev port f | .readmit dev port f | .confirm dev port f
  | .bookReport dev port f | .bookSet dev port f | .bookAck dev port f | .powerReq dev port f | .powerAck dev port f =>
    decide (port < dev.ports) && f.wf
  -- a command taken before a function-level reset has a number of its own, beyond the mailboxes (18 R453)
  | .commandCompletion fn _ _ | .commandTimeout fn _ => decide (fn < 16)
  | .registerWrite _ fn off size _ => decide (fn < 16) && [1, 2, 4, 8].contains size
  | .swEventClear _ => true
  | .epEventClear _ => true
  | .epAgentBindWrite agent _ => decide (agent < 64)
  | .hostWindowRead fn _ _ len => decide (fn < 16) && decide (1 ≤ len) && decide (len ≤ 4096)
  | .hostWindowWrite fn _ data => decide (fn < 16) && decide (1 ≤ data.length && data.length ≤ 4096)
  | .mirrorLine rid r => decide (rid < 64) && r.wf
  | .mirrorAck rid r => decide (rid < 64) && r.wf
  | .functionLevelReset fn => decide (fn < 16)
  | .perstNAssert => true
  | .perstNRelease => true
  | .pldmRequest _ => true
  | .frameArrival port f => decide (port < 64) && f.wf
  | .matcherRound => true
  | .queueSample => true
  | .bucketRefill => true
  | .gateEntryEnd dev port => decide (port < dev.ports)
  | .cycleBoundary _ _ => true
  | .lineOperation unit => decide (unit < 16)
  | .homeBusyTimeout unit _ => decide (unit < 16)
  | .read _ pos f => decide (pos < 65) && f.wf
  | .readVol _ pos f => decide (pos < 65) && f.wf
  | .readShared _ pos f => decide (pos < 65) && f.wf
  | .readOwn _ pos f => decide (pos < 65) && f.wf
  | .claim _ pos f => decide (pos < 65) && f.wf
  | .write _ pos f => decide (pos < 65) && f.wf
  | .writeLog _ pos f => decide (pos < 65) && f.wf
  | .deposit _ pos f => decide (pos < 65) && f.wf
  | .atomic _ pos f => decide (pos < 65) && f.wf
  | .fabricMailboxWrite pos f => decide (pos < 65) && f.wf
  | .fabricMailboxRead pos f => decide (pos < 65) && f.wf
  | .snoop port f => decide (port < 8) && f.wf
  | .writeback port f => decide (port < 64) && f.wf
  | .backInv port f => decide (port < 8) && f.wf
  | .depositFill port f => decide (port < 8) && f.wf
  | .translateReq port f => decide (port < 64) && f.wf
  | .translateRsp port f => decide (port < 8) && f.wf
  | .tableReadComplete ctx data => decide (ctx < 0x10000) && decide (data.length = 1024)
  | .tableReadTimeout ctx => decide (ctx < 0x10000)
  | .engineDrainTimeout number => decide (number < 0x100000000)
  | .relayAckTimeout number => decide (number < 0x100000000)
  | .invalidationTimeout number => decide (number < 0x100000000)
  | .completionTimeout dev port r => match r with
    | .flight tag => decide (port < dev.ports + b2n (dev == .sw)) && decide (tag < 4096)
    | .held _ => port == 0
    | .miss party => port == 0 && dev == .sw && decide (party < 48 ∨ (256 ≤ party ∧ party < 320))
  | .tagQuarantineEnd dev port tag => decide (port < dev.ports) && decide (tag < 4096)
  | .holdEnd _ => true
  | .coherenceAnswerTimeout _ _ endpoint => decide (endpoint < 576)
  | .handoverTimeout _ region => decide (region < 2 ^ 21)
  | .collData port f => decide (port < 64) && f.wf
  | .collResult port f => decide (port < 8) && f.wf
  | .collConfirm port f => decide (port < 64) && f.wf
  | .collRecall port f => decide (port < 8) && f.wf
  | .collRecallSwitch port f => decide (port < 64) && f.wf
  | .settlementLimit _ _ _ => true
  | .req r => r.wf
  | .fence agent _ _ _ => decide (agent < 64)
  | .call agent _ c => decide (agent < 64) && c.wf
  | .memCpl _ data => decide (data.length ≤ 256)
  | .ucieModuleFail module => decide (module < 8)
  | .taskComplete slot task => decide (slot < 64) && decide (task < 256)
  | .retryWaitEnd slot task => decide (slot < 64) && decide (task < 256)
  | .deadline slot => decide (slot < 64)
  | .waitTimeReached slot task => decide (slot < 64) && decide (task < 256)
  | .admissionWaitExpiry mailbox => decide (mailbox < 256)
  | .heartbeat port f => decide (port < 8) && f.wf
  | .heartbeatAck port f => decide (port < 64) && f.wf
  | .heartbeatInstant => true
  | .suspectExpiry endpoint sender => decide (endpoint < 576) && decide (sender < 64)
  | .fenceNotice port f => decide (port < 8) && f.wf
  | .admitFrame port f => decide (port < 8) && f.wf
  | .config port f => decide (port < 8) && f.wf
  | .resendTimer _ => true
  | .bookSetResend dev port => decide (port < dev.ports)
  | .returnHoldEnd => true
  | .slowSet => true
  | .slowClear => true
  | .slotClose port f => decide (port < 8) && f.wf
  | .slotOpen port f => decide (port < 8) && f.wf
  | .inputCopy port f => decide (port < 64) && f.wf
  | .inputAck port f => decide (port < 8) && f.wf
  | .inputAckTimeout port tag => decide (port < 8) && decide (tag < 4096)
  | .inputCopyWaitEnd src tag => decide (src < 1024) && decide (tag < 4096)
  | .stagingRoom partition _ => decide (partition < 16)
  | .ledgerSealTimer partition => decide (partition < 16)
  | .flitReceive dev port bytes => decide (port < dev.ports) && decide (bytes.length = 256)
  | .nak dev port restart => decide (port < dev.ports) && decide (restart < 4096)
  | .nakRepeat dev port => decide (port < dev.ports)
  | .void dev port reason => decide (port < dev.ports) && decide (reason < 256)
  | .credit dev port _ => decide (port < dev.ports)
  | .probeReq dev port _ _ => decide (port < dev.ports)
  | .probeRsp dev port _ _ _ _ => decide (port < dev.ports)
  | .probeInfo dev port hops book _ _ _ _ _ => decide (port < dev.ports) && decide (hops < 256) && decide (book < 4)
  | .probeTimer dev port => decide (port < dev.ports)
  | .init dev port _ => decide (port < dev.ports)
  | .resp dev port _ => decide (port < dev.ports)
  | .fin dev port _ => decide (port < dev.ports)
  | .rekeyReq dev port => decide (port < dev.ports)
  | .keyExchangeTimeout dev port => decide (port < dev.ports)
  | .rekeyCount dev port => decide (port < dev.ports)
  | .keyCounterExhausted dev port => decide (port < dev.ports)
  | .rekeyRetry dev port => decide (port < dev.ports)
  | .partnerClockLock dev port => decide (port < dev.ports)
  | .identityRecord dev port copies => decide (port < dev.ports) && decide (copies.length ≤ 8) && copies.all (fun c => c.length == 32)
  | .equaliseDone dev port _ => decide (port < dev.ports)
  | .laneMapDone dev port _ => decide (port < dev.ports)
  | .trainingTimeout dev port => decide (port < dev.ports)
  | .laneFailed dev port l _ => decide (port < dev.ports) && l.lanes.all (fun i => decide (i < 10))
  | .laneChangeDone dev port => decide (port < dev.ports)
  | .periodicTestDue p => decide (p.port < p.dev.ports)
  | .laneTestEnd p lane _ => decide (p.port < p.dev.ports) && decide (lane < 10)
  | .chime dev port => decide (port < dev.ports)
  | .linkLoss port => decide (port < 64)
  | .endpointLinkLoss port => decide (port < 8)
  | .endpointPortRedetect port => decide (port < 8)
  | .cablePresenceChange port _ => decide (port < 64)
  | .cableOvercurrent port => decide (port < 64)
  | .frequencySourceFail _ => true
  | .timeMasterLost => true
  | .ppsIn => true
  | .wholeSecond => true
  | .scrub _ _ => true
  | .poolCacheDrainDone => true
  | .resilverCopy region => decide (region < 1440)
  | .mirrorAckTimeout region _ => decide (region < 1440)
  | .rewrapStep record => decide (record < 8)
  | .retirementCountZero slot => decide (slot < 32)
  | .retirementTimeout slot => decide (slot < 32)
  | .sramUncorrected _ => true
  | .idleHoldEnd kind index => decide (kind < 6) && decide (index < 64)
  | .powerEntryDone kind index => decide (kind < 6) && decide (index < 64)
  | .wakeStageReady kind index => decide (kind < 6) && decide (index < 64)
  | .wakeStageTimeout kind index => decide (kind < 6) && decide (index < 64)
  | .wakeN => true
  | .balanceSample _ _ => true
  | .regulatorTick _ _ => true
  | .pwrbrkNAssert => true
  | .pwrbrkNDeassert => true
  | .throttle _ => true
  | .throttleEnd => true
  | .thermalTrip => true
  | .tripHoldEnd => true
  | .inputLow => true
  | .inputOvervoltage => true
  | .endpointThermal _ => true
  | .powerUp => true
  | .rstNFall _ => true
  | .rstNRise => true
  | .startStepReady _ _ => true
  | .epRstN _ => true
  | .tellerLockstep => true
  | .tellerWatchdog => true
  | .tellerRestartEnd => true
  | .tellerRestartTimeout => true
  | .managerMessage => true
  | .managerLost => true
  | .trainingRetry dev port => decide (port < dev.ports)
  | .lockLossBeforeActive dev port => decide (port < dev.ports)
  | .preStartWorkDone => true

end Sys2Proof
end

