-- ==== Sys2Proof/Tests/Slice0.lean ====
section
/-!
SUPPORT. Tests: an ill-formed command for each check of WellFormed, and for every obligation with hypotheses a state and operands that meet them, one
for each clause.
-/

namespace Sys2Proof.Tests

open Sys2Proof Sys2Proof.Machine

-- one theorem at a time: each waits for the kernel, and a thread for each would not fit in memory
set_option Elab.async false

/-! ### Small states -/

/-- A switch in service: the start is over, the HOST link is up, and the Teller takes commands. -/
def up : State := { sw := { sys := { phase := .running, hostLink := true }, teller := { state := 0 } } }

/-- The bytes of n, little-endian. -/
def le (k n : Nat) : List Nat := (List.range k).map fun i => n / 256 ^ i % 256

/-- A command stands in mailbox 0 of a function, and its CONTROL write is next in order. flags: VERIFY and reserved bits. -/
def boxed (fn : Nat) (s : State) (op flags len : Nat) (l : List Nat) : State :=
  s.onTeller fun t => { t with
    order := [(fn, 0)]
    mbox := [(fn * 16, { own := true, irq := true, seq := 1, header := BitVec.ofNat 64 (op + flags * 2 ^ 16 + len * 2 ^ 32)
                         payload := l.zipIdx.map fun x => (0x80 + x.2, BitVec.ofNat 8 x.1) })] }

/-- Every check takes this payload in a command of form k from PF0. -/
abbrev fits (k : Form) (s : State) (l : List Nat) : Prop := Accepted k 0 0 (boxed 0 s k.opcode 0 k.len l)

/-- The same from the VF of partition 1. -/
abbrev fitsVf (k : Form) (s : State) (l : List Nat) : Prop := Accepted k 1 0 (boxed 1 s k.opcode 0 k.len l)

/-- Partition 1 is admitted, with key slot 5 and a Ledger region, and owns engine 0 and the first GiB of the pool. -/
def tenant : State :=
  { up with sw := { up.sw with
    sys := { up.sw.sys with cfg := { engineOwner := [(0, 1)], poolOwner := [(0, 1)] } }
    vault := { part := [(1, { state := .admitted, vfBound := true, keySlot := 5 })], slot := [(5, { state := .active, partition := 1, key := 7 }),
               (6, { state := .active, partition := 1, key := 8 })] }
    ledger := [(0, { started := true }), (1, { started := true, region := some (0, 0x200000), nextSeq := 3 })] } }

/-! ### Commands -/

theorem test_device_commands_fit :
    fits devInfoForm up [] ∧ fitsVf devInfoForm up [] ∧ fits cfgModeSetForm up [1, 8, 7, 7] ∧ up.sw.sys.flash.nextBook = some (0, 1)
      ∧ fits cfgBookCommitForm up [] ∧ fits cfgTimersForm up (le 4 2000 ++ le 4 6000 ++ le 4 1000 ++ le 4 10) ∧ fits cfgTimersForm up []
      ∧ fits cfgCoherenceForm up (le 2 2000) := by decide +kernel

theorem test_reset_and_firmware_commands_fit :
    let two := up.onSys fun y => { y with flash := { y.flash with slotA := some {}, slotB := some {} } }
    fits devResetForm up [0, 63] ∧ fits devResetForm up [1, 47] ∧ fits devResetForm up [2, 5] ∧ fits devResetForm up [3, 23] ∧ fits devResetForm up [4, 0]
      ∧ fits fwStageForm up ([1] ++ le 7 0 ++ le 8 0x1000 ++ le 8 0x1C00000) ∧ fits fwActivateForm two [1, 1, 1] ∧ two.sw.sys.flash.nextBook = some (0, 1) := by
  decide +kernel

theorem test_partition_commands_fit :
    let left := { tenant with sw := { tenant.sw with vault := { tenant.sw.vault with part := [] } } }
    fits partAdmitForm left [1, 1, 5] ∧ fits partRemoveForm tenant [1] ∧ fits partEnginesSetForm up ([1, 0] ++ le 6 0xFFFFFFFFFFFF)
      ∧ fits partPoolSetForm up ([0xFF, 0] ++ le 2 1439 ++ le 2 1) := by decide +kernel

theorem test_segment_commands_fit :
    fits segTableSetForm up (le 8 0 ++ le 8 0x1000) ∧ fits segInvalidateForm up (le 8 8191 ++ le 8 (2 ^ 35 - 1) ++ le 4 1) := by decide +kernel

/-- Port 3 is in service at S3 with the Jewel lane idle. -/
def linked : State := { up with sw := { up.sw with link := [(3, { state := .active, step := 3, steps := [{ step := 3, table := false, width := 0, jewel := 9, clockLane := 8, fom := 200, fail := 0 }] })] } }

theorem test_port_commands_fit :
    fits portSpeedSetForm up ([63, 0, 0, 0] ++ le 4 3) ∧ fits portEqSetForm up ([0, 0, 0, 0] ++ le 4 2) ∧ fits linkSealSetForm up ([0, 0, 0, 0] ++ le 4 8)
      ∧ fits portTestPolicySetForm up ([0, 0, 0, 0] ++ le 4 720)
      ∧ fits calEqStoreForm (linked.onSys fun y => { y with flash := { y.flash with calValid := true } }) ([3, 0, 0, 0] ++ le 4 8)
      ∧ fits portLaneTestForm linked (le 8 0 ++ le 8 8) ∧ fits portNarrowForm linked ([3, 0, 0, 0] ++ le 4 1) ∧ fits linkRekeyForm linked (le 8 0 ++ le 8 8) := by
  decide +kernel

theorem test_time_and_schedule_commands_fit :
    let master := up.onSw fun w => { w with clock := { master := 0 } }
    let staged := up.onSw fun w => { w with sched := { standby := some { id := 9 } } }
    let armed := up.onSw fun w => { w with sched := { standby := some { id := 9 }, armed := some 5 } }
    fits timeMasterSetForm up (le 2 0 ++ le 2 0x3FF) ∧ fits timeSetForm master (le 6 100 ++ le 2 0 ++ le 4 0x80000000 ++ [1])
      ∧ fits schedStageForm up (le 8 0x1000 ++ le 8 0x10000000) ∧ fits schedArmForm staged (le 8 9 ++ le 8 (2 ^ 20)) ∧ fits schedDisarmForm armed (le 8 9)
      ∧ fits bookPolicySetForm up ([20, 0, 0, 0] ++ le 4 10000 ++ le 4 500) := by decide +kernel

theorem test_shaping_commands_fit :
    fits shaperSetForm up ([63, 0, 7, 1] ++ le 4 0xFFFFFF ++ le 4 512 ++ [63]) ∧ fitsVf shaperSetForm tenant ([0, 1, 1, 1] ++ le 4 1 ++ le 4 16777215 ++ [0])
      ∧ fits policerSetForm up ([63, 7, 1, 63] ++ le 4 1 ++ le 4 0xFFFFFF ++ le 4 512 ++ le 4 512) ∧ fits shaperReadForm up [63, 1, 15]
      ∧ fits shaperReadForm up [63, 2, 7] := by decide +kernel

theorem test_region_commands_fit :
    let rackmate := 0x40
    fits regionSetForm up (le 4 0 ++ le 4 737279 ++ le 4 1 ++ [0, 0] ++ le 2 rackmate) ∧ fits regionSetForm up (le 4 rackmate ++ le 4 0 ++ le 4 1 ++ [2, 0] ++ le 2 0x3FF)
      ∧ fits regionHandoverForm (up.onHome fun h => { h with region := [(5, { mode := 0, owner := rackmate })] }) (le 4 0 ++ le 4 5 ++ le 4 1 ++ [0, 0] ++ le 2 (rackmate + 1))
      ∧ fits regionHandoverForm up (le 4 rackmate ++ le 4 0 ++ le 4 1 ++ [0, 0] ++ le 2 rackmate)
      ∧ fits regionReadForm up (le 4 0 ++ le 4 0 ++ le 4 960 ++ le 4 0) ∧ fits regionReadForm up (le 4 rackmate ++ le 4 0 ++ le 4 1 ++ le 4 0)
      ∧ fits regionLostClearForm up (le 8 0 ++ le 8 5 ++ le 4 1) ∧ fits regionLostClearForm up ([0, 0, 1, 0] ++ le 4 0 ++ le 8 5 ++ le 4 1)
      ∧ fits regionLostClearForm up (le 8 rackmate ++ le 8 0 ++ le 4 1) ∧ up.sw.sys.homeId = 0 ∧ up.sw.mem.home.jobs = [] := by decide +kernel

theorem test_pool_setting_commands_fit :
    let paired := up.onMem fun m => { m with pair := [(7, { partner := 1, primary := false, state := .paired })] }
    fits nearStoreSetForm up [47, 15] ∧ fits nearStoreSetForm up [47, 0] ∧ up.sw.mem.mask.get 47 0 = 0 ∧ fits scrubSetForm up (le 2 168)
      ∧ fits retireLimitSetForm up ([0xFF, 0] ++ le 2 32768) ∧ fits partnerSetForm up (le 2 1439 ++ le 2 7 ++ [1, 0] ++ le 2 64)
      ∧ fits partnerPromoteForm paired (le 2 7) ∧ fits partnerBreakForm paired (le 2 7) ∧ (paired.sw.mem.pair.find 7).any (fun p => !p.primary) = true := by
  decide +kernel

theorem test_syndicate_commands_fit :
    let serving := up.onSw fun w => { w with sched := { active := some { id := 1, coll := some [(4, [])] } } }
    let held := up.onSw fun w => { w with synd := [(4, { partition := 0, members := [0x40, 0x41] })] }
    fits syndCreateForm serving ([4, 15] ++ le 2 1024 ++ le 4 10 ++ le 8 0x1000) ∧ fits syndDestroyForm held [4]
      ∧ fits syndMemberSetForm held ([4, 0] ++ le 2 1 ++ le 2 0x42) ∧ (held.sw.getSynd 4).isSome = true ∧ held.sw.activeOf 0 0 = none
      ∧ fits syndQuotaSetForm up ([15, 0, 0, 0] ++ le 4 6) := by decide +kernel

theorem test_escrow_commands_fit :
    let running := up.onSw fun w => { w with escrow := { graph := [(63, { mailbox := 2, partition := 0, ctx := 0, tag := 9, tasks := [] })] } }
    fits escrowMailboxSetForm up ([255, 15] ++ le 2 1) ∧ fits escrowQuotaSetForm up [15, 64] ∧ fits escrowCancelForm running ([63, 0, 0, 0] ++ le 4 9)
      ∧ running.sw.escrow.queue = [] ∧ (running.sw.getGraph 63).isSome = true := by decide +kernel

theorem test_key_commands_fit :
    let three := tenant.onMem fun m => { m with rewrap := [(7, { partition := 1, fromSlot := 5, toSlot := 6, start := 0, length := 0x200000, done := true, rate := 16, cursor := 0x200000 })] }
    fits vaultKemReadForm up [] ∧ fits { keyLoadForm with own := fun _ _ => [] } up [31, 15] ∧ fits keyRetireForm tenant ([5, 0, 0, 0] ++ le 4 1000)
      ∧ fits keyRetireForm up ([31, 0, 0, 0] ++ le 4 0) ∧ fits signerEnrolForm up [] ∧ fits strongroomSetForm up (le 4 0x4B434F4C)
      ∧ fits keyRewrapForm tenant ([1, 5, 6, 0] ++ le 4 0 ++ le 8 0x200000 ++ le 8 0x200000 ++ le 4 64) ∧ tenant.sw.freeRecord = some 0
      ∧ fits keyRewrapReleaseForm three [7] := by decide +kernel

theorem test_ledger_and_checkpoint_commands_fit :
    fits assayRequestForm up (le 32 5 ++ le 8 0x1000 ++ le 8 5576) ∧ up.sw.changing = false
      ∧ (let changing := up.onTeller fun t => { t with active := [{ fn := 0, mb := 1, box := 1, seq := 1, opcode := 0x0F02, work := .activate 0 0 1, holds := [.flash] }] }
         fits assayRequestForm changing (le 32 5 ++ le 8 0x1000 ++ le 8 5576) ∧ changing.sw.changing = true ∧ (boxed 0 changing 0 0 0 []).sw.activeOf 0 0 = none)
      ∧ fits ledgerRegionSetForm up ([0] ++ le 7 0 ++ le 8 0x200000 ++ le 8 0x4000000)
      ∧ fits ledgerRegionSetForm up ([2] ++ le 7 0 ++ le 8 0 ++ le 8 0x4000000)
      ∧ fitsVf ledgerReadForm tenant ([1, 0] ++ le 6 0 ++ le 8 2 ++ le 4 1 ++ le 4 0 ++ le 8 0x1000 ++ le 8 4096)
      ∧ fits ledgerSealNowForm tenant [0] ∧ fits ledgerSealNowForm (up.onSw fun w => { w with ledger := [(3, { started := true, staged := 0x100000 })] }) [3]
      ∧ fitsVf ckptSaveForm tenant ([1] ++ le 7 0 ++ le 8 0 ++ le 8 4096 ++ le 8 0x1000 ++ le 8 0x10000)
      ∧ fitsVf ckptRestoreForm tenant ([1] ++ le 7 0 ++ le 8 0 ++ le 8 4096 ++ le 8 0x1000 ++ le 8 0x10000) := by decide +kernel

/-- The same commands while the host cannot be read: its link is up and Bus Master Enable is clear. -/
theorem test_commands_without_the_host :
    let off := fun s : State => s.onSys fun y => { y with busMaster := false }
    let serving := off (up.onSw fun w => { w with sched := { active := some { id := 1, coll := some [(4, [])] } } })
    up.sw.hostReads = true ∧ (off up).sw.hostReads = false ∧ (off up).sw.activeOf 0 0 = none
      ∧ fits fwStageForm (off up) ([1] ++ le 7 0 ++ le 8 0x1000 ++ le 8 0x1C00000) ∧ fits schedStageForm (off up) (le 8 0x1000 ++ le 8 0x10000000)
      ∧ fits syndCreateForm serving ([4, 15] ++ le 2 1024 ++ le 4 10 ++ le 8 0x1000) ∧ fits assayRequestForm (off up) (le 32 5 ++ le 8 0x1000 ++ le 8 5576)
      ∧ fitsVf ledgerReadForm (off tenant) ([1, 0] ++ le 6 0 ++ le 8 2 ++ le 4 1 ++ le 4 0 ++ le 8 0x1000 ++ le 8 4096)
      ∧ fitsVf ckptSaveForm (off tenant) ([1] ++ le 7 0 ++ le 8 0 ++ le 8 4096 ++ le 8 0x1000 ++ le 8 0x10000)
      ∧ fitsVf ckptRestoreForm (off tenant) ([1] ++ le 7 0 ++ le 8 0 ++ le 8 4096 ++ le 8 0x1000 ++ le 8 0x10000) := by decide +kernel

theorem test_power_and_tally_commands_fit :
    fits powerVoteForm up [0, 63, 3] ∧ fitsVf powerVoteForm tenant [1, 0, 3] ∧ fits paceSetForm up (le 2 100 ++ le 2 160 ++ le 2 640 ++ le 2 10)
      ∧ fits brakeSetForm up (le 2 640) ∧ fits powerReadForm up [] ∧ fitsVf powerReadForm (tenant.onSys fun y => { y with strongroom := true }) []
      ∧ fits tallyReadForm up (le 4 0 ++ le 4 6 ++ le 4 1) ∧ fits faultLogReadForm up (le 8 1 ++ le 4 30) ∧ fits tallyQueueReadForm up [63] := by
  decide +kernel

theorem test_fence_commands_fit :
    fits fenceSetForm up [0, 0, 63, 0] ∧ fits fenceSetForm up [1, 0, 47, 0] ∧ fits fenceSetForm up [2, 0, 5, 0] ∧ fits fenceSetForm up [3, 0, 23, 0]
      ∧ fits fenceSetForm tenant [4, 0, 1, 0] ∧ (tenant.sw.getPart 1).state = .admitted ∧ fits fenceSetForm up [5, 63, 0x40, 0] ∧ fits fenceSetForm up [6, 0, 0x40, 0] := by decide +kernel

theorem test_fence_clear_and_readmission_fit :
    (let stopped := tenant.putPart 1 { state := .fenced }
     fits fenceClearForm stopped [4, 0, 1, 0] ∧ (stopped.sw.getPart 1).state = .fenced)
      ∧ fits fenceClearForm up [1, 0, 47, 0] ∧ fits fenceClearForm up [2, 0, 5, 0] ∧ fits fenceClearForm tenant [4, 0, 1, 0] ∧ fits fenceClearForm up [5, 63, 0x40, 0]
      ∧ fits fdSetForm up [64]
      ∧ fits epReadmitForm (up.onSw fun w => { w with mgmt := { rec_ := [(0x40, { verdict := true })] } }) (le 2 0x40) := by decide +kernel

theorem test_commands_end :
    let a : Active := { fn := 0, mb := 0, box := 0, seq := 1, opcode := 0x0A20, work := .assay, result := some (0, [1]) }
    let done := up.onTeller fun t => { t with active := [a] }
    let waits := up.onTeller fun t => { t with active := [{ a with result := none }] }
    (done.sw.tellerWorks = true ∧ done.sw.activeOf 0 0 = some a ∧ a.result = some (0, [1]) ∧ a.dropped = false)
      ∧ (waits.sw.tellerWorks = true ∧ waits.sw.activeOf 0 0 = some { a with result := none })
      ∧ (let b := boxed 0 up 0x0103 0 0 []
         b.sw.takes 0 0 = true ∧ commandIndex.contains (bits (b.sw.mailbox 0 0).header.toNat 0 16) = false
           ∧ (b.sw.mailbox 0 0).seq ≠ (b.sw.mailbox 0 0).lastSeq ∧ b.sw.entryFull 0 = false) := by decide +kernel

/-! ### The AKG-8 -/

/-- The AKG-8 of slot 0 in rack 0, admitted, with ports 0 and 2 in service. -/
def akg : EndPoint := { homeId := 0x40, inc := some 3, link := [(0, { state := .active }), (2, { state := .active })] }

def lit : State := { up with ep := akg }

/-- A frame from switch 0 to that AKG-8. -/
def down (typ cls : Nat) (data : List Byte) : Frame := { dest := 0x40, src := 0, cls := cls, typ := typ, inc := 3, length := data.length, data := data }

/-- Bytes of a frame. -/
def bytes (l : List Nat) : List Byte := l.map fun n => BitVec.ofNat 8 n

theorem test_registers :
    up.sw.sys.hostLink = true ∧ (up.sw.mailbox 15 3).own = false ∧ ((boxed 0 up 0x0101 0 0 []).sw.mailbox 0 0).own = true ∧ lit.ep.off = false
      ∧ lit.ep.agentRuns 63 = false ∧ (lit.onEp fun e => { e with fences := [{ agent := 63, utag := 1, kind := .acquire, scope := .core, before := 0 }] }).ep.agentRuns 63 = true
      ∧ (10 : BitVec 64).toNat % 2 ^ 14 = 10 ∧ ¬((4 = 4 ∨ 4 = 8) ∧ 2 % 4 = 0) := by decide +kernel

theorem test_host_window_and_resets :
    let opened := up.onHost fun h => { h with aperture := [(0, 3)] }
    (up.sw.host.aperture.get 0 0).getLsbD 0 = false ∧ ((up.onHost fun h => { h with aperture := [(0, 1)] }).sw.host.aperture.get 0 0).getLsbD 1 = false
      ∧ opened.sw.sys.hostLink = true
      ∧ opened.sw.hostRefuses { id := 0, fn := 0, ctag := some 7, addr := 0x3FFFFF00, len := 0x100, aperture := 3 } = false
      ∧ opened.sw.hostRefuses { id := 0, fn := 0, addr := 0, len := 1, data := [5], aperture := 3 } = false
      ∧ State.reset.sw.teller.state ≠ 0 ∧ up.sw.teller.state = 0 := by decide +kernel

theorem test_mirror :
    let p : Pair := { partner := 1, primary := false, stored := 4 }
    let q : Pair := { partner := 1, primary := true, cursor := 0x7FFFFF, unacked := [9] }
    let second := up.onMem fun m => { m with pair := [(3, p)] }
    let first := up.onMem fun m => { m with pair := [(3, q)] }
    let r : MirrorRec := { region := 3, source := 1, seq := 5, line := 3 * 0x800000 + 0x7FFFFF }
    second.sw.sys.hostLink = true ∧ second.sw.mem.pair.find r.region = some p ∧ p.partner ≠ 2 ∧ p.partner = 1 ∧ p.primary = false
      ∧ r.line / 0x800000 = r.region ∧ p.early = [] ∧ r.seq = p.stored + 1
      ∧ first.sw.mem.pair.find 3 = some q ∧ 9 ∈ q.unacked ∧ q.primary = true ∧ q.state = .resilvering ∧ q.cursor < 0x800000
      ∧ ∀ c < 4, (first.sw.chan (4 * (3 * 0x40000000 / 0x3C00000000) + c)).fenced = false := by decide +kernel

/-- A READ of the first line of the pool from the AKG-8 of slot 3. -/
def ask (typ offset length : Nat) : Frame :=
  { dest := 0, src := 0x43, cls := 3, typ := typ, tag := 5, keySlot := 5, partition := 1, offset := offset, length := length }

/-- Port 3 in a state, a frame there, and what marking it leaves. -/
def placed (s : State) (f : Frame) : Buffered × State :=
  let s := (s.count (0x100 + 3) 45).work 0 3
  s.placeFrame 3 (s.sw.vcIn 3 f) f true 0

theorem test_arrival :
    let f := ask 1 0 128
    let x := placed linked f
    let m := x.2.markFrame 3 f
    let b := { x.1 with red := m.1 }
    let v := m.2.returnCredit 3 (x.2.sw.vcIn 3 f) (b.sched + b.shared)
    (linked.sw.getLink 3).state = .active ∧ x.2.sw.core.held.get (3 * 16 + x.2.sw.vcIn 3 f) [] = [] ∧ m.1 ≠ 2 ∧ typeAllowed f.cls f.typ = true
      ∧ v.sw.badSubtype f = false ∧ f.sparseOk = true ∧ v.sw.stale f = false ∧ v.sw.masked 3 f = false ∧ v.sw.fencedAt 3 f = false
      ∧ f.dest = linked.sw.sys.homeId ∧ v.sw.dropsEarly (qKey (v.sw.homeOut f) f.cls) m.1 f = false ∧ typeAllowed 3 0x20 = false := by decide +kernel

theorem test_arrival_through :
    let s : State := { linked with sw := { linked.sw with link := linked.sw.link ++ [(9, { state := .active })] } }
    let f : Frame := { ask 0x20 0 128 with dest := epId 0 9, src := 0x43, cls := 4 }
    let x := placed s f
    let m := x.2.markFrame 3 f
    let b := { x.1 with red := m.1 }
    let v := m.2.returnCredit 3 (x.2.sw.vcIn 3 f) (b.sched + b.shared)
    let key := qKey 9 (v.sw.vcOf 9 f.cls (v.sw.cameAfter 3 f.src))
    f.dest ≠ s.sw.sys.homeId ∧ f.cls ≠ 0 ∧ v.sw.route f.dest = some 9 ∧ typeAllowed f.cls f.typ = true ∧ v.sw.stale f = false ∧ v.sw.masked 3 f = false
      ∧ v.sw.fencedAt 3 f = false ∧ v.sw.dropsEarly key m.1 f = false ∧ v.sw.outTakes 9 f = true := by decide +kernel

theorem test_arrival_red :
    let s := linked.onCore fun c => { c with policer := [(policerKey 3 3, { enable := true, overhead := 0, cir := 1, pir := 1, cbs := 512, pbs := 512 })] }
    let f := ask 1 0 128
    ((placed s f).2.markFrame 3 f).1 = 2 ∧ f.cls ≠ 0 := by decide +kernel

theorem test_round_sample_and_refill :
    let b : Buffered := { f := ask 1 0 128, src := 3, at_ := 0, tile := 15, cells := 4 }
    let inner := up.onCore fun c => { c with queue := [(86 * 16 + 7, [b])] }
    let g : Frame := { ask 0x20 0 128 with dest := epId 0 3, src := 0x40, cls := 4 }
    let outer := linked.onCore fun c => { c with queue := [(3 * 16 + 4, [{ b with f := g, cells := 1 }])] }
    let red := inner.onCore fun c => { c with held := [(3 * 16 + 3, [b])], cut := [(5, { b := b, f := b.f })] }
    inner.sw.core.queue = [(86 * 16 + 7, [b])] ∧ inner.sw.core.lock = [] ∧ 4 ∈ queueOrder outer.sw.sys 3 false ∧ outer.eligible 3 4 { b with f := g, cells := 1 } = true
      ∧ aged outer.sw.sys.cfg outer.sw.clock.now g = false ∧ inner.sw.core.waiting = [] ∧ outer.sw.core.waiting = [] ∧ b.whole = true ∧ b.tile < 16
      ∧ inner.sw.escrow.held = [] ∧ inner.sw.xlat.inval = [] ∧ inner.sw.escrow.engine = []
      ∧ (∀ e ∈ red.sw.core.queue ++ red.sw.core.inbox ++ red.sw.core.held, ∀ b ∈ e.2, overstayed red.sw.clock.now b.at_ b.f.cls = false)
      ∧ (∀ e ∈ red.sw.core.held, e.2 ≠ []) ∧ (∀ e ∈ red.sw.core.cut, overstayed red.sw.clock.now e.2.b.at_ e.2.b.f.cls = false) ∧ red.sw.core.unlock = red.sw.core := by
  decide +kernel

/-- No engine of that switch has a task. -/
theorem test_idle_engines (e : Nat) : (up.sw.getEngine e).task = none := rfl

/-- A staged bucket that comes into force, and one that an armed package, taken later, has set at the same point. -/
theorem test_refill :
    let x : Bucket := { enable := true, rate := 1, burst := 512, overhead := 0 }
    let s := up.onCore fun c => { c with shaperStaged := [(5, x, { order := 1 })] }
    let both := s.onSw fun w => { w with sched := { w.sched with activated := some (0, 2) } }
    up.sw.core.held = [] ∧ up.sw.core.shaperStaged = [] ∧ up.sw.core.policerStaged = [] ∧ s.sw.core.shaperStaged = [(5, x, { order := 1 })] ∧ s.sw.core.held = []
      ∧ s.sw.core.policerStaged = [] ∧ s.sw.sched.yields (s.sw.clock.now / 0x40000 * 0x40000) { order := 1 } = false
      ∧ both.sw.sched.yields (both.sw.clock.now / 0x40000 * 0x40000) { order := 1 } = true := by decide +kernel

theorem test_gates_and_cycles :
    let s := up.onSw fun w => { w with sched := { active := some { id := 1 }, pending_ := some { book := 1, cycle := 7, number := 2 } } }
    let t := up.onSw fun w => { w with sched := { active := some { id := 1 }, standby := some { id := 2 }, armed := some 4 } }
    (s.getSched .sw).active = some { id := 1 } ∧ (s.getSched .sw).armed = none ∧ ((t.getSched .sw).armedBoundary.isSome = true) := by decide +kernel

/-! ### Homes -/

/-- Region 0 of the pool in a mode, for partition 1. -/
def inMode (m : Nat) : State := tenant.onHome fun h => { h with region := [(0, { mode := m })] }

/-- Line 0 of a COHERENT region is held by these end-points S, or by an owner. -/
def shared (e : DirEntry) : State := (inMode 1).onMem fun m => { m with unit := [(0, { dir := [e] })] }

/-- A Busy line 0 of a COHERENT region. -/
def onBusy (b : Busy) : State := (inMode 1).onMem fun m => { m with unit := [(0, { busy := [b] })] }

theorem test_home_reads_outside_coherent :
    (∀ t ∈ [1, 2, 3, 4, 5], Open (ask t 0 128) tenant) ∧ (tenant.atUnit 3 (ask 1 0 128)).sw.modeAt 0 ≠ 1
      ∧ Open (ask 1 0 256) tenant ∧ Open (ask 1 1 1) tenant := by decide +kernel

theorem test_home_reads_in_coherent :
    let u := fun t => (inMode 1).atUnit 3 (ask t 0 128)
    (∀ t ∈ [1, 2, 3, 4, 5], Open (ask t 0 128) (inMode 1)) ∧ (u 1).sw.modeAt 0 = 1 ∧ (u 1).sw.takeBack (ask 1 0 128) = none ∧ (u 2).sw.takeBack (ask 2 0 128) = none
      ∧ (u 3).sw.epFenced 0x43 = false ∧ (u 3).sw.entry 0 = none ∧ (u 3).sw.hasWay 0 = true ∧ ((u 3).readRange (ask 3 0 128)).1.isSome = true
      ∧ (u 4).sw.hasWay 0 = true ∧ ((u 4).readRange (ask 4 0 128)).1.isSome = true := by decide +kernel

theorem test_home_claim_of_a_shared_line :
    let e : DirEntry := { line := 0, state := .s, sharers := [0x43], keySlot := 5 }
    let s := shared e
    Open (ask 5 0 128) s ∧ (s.atUnit 3 (ask 5 0 128)).sw.entry 0 = some e ∧ e.state = .s ∧ e.sharers = [0x43] := by decide +kernel

/-- A store of zeros, one byte or whole lines. -/
def put (typ offset length : Nat) : Frame :=
  let f := ask typ offset length
  { f with
    data := List.replicate length 0
    ext := if typ = 10 then 0x43 else 0
    opx := if typ = 16 then opxAt 4 36 else 0 }

theorem test_home_stores_ask_holders :
    let s := shared { line := 0, state := .em, owner := 0x44, keySlot := 5 }
    (∀ t ∈ [8, 9, 10], Open (put t 0 128) s) ∧ Open (put 16 0 4) s
      ∧ (∀ t ∈ [8, 9, 10], ((s.atUnit 3 (put t 0 128)).sw.takeBack (put t 0 128)).isSome = true) ∧ ((s.atUnit 3 (put 16 0 4)).sw.takeBack (put 16 0 4)).isSome = true
      ∧ (s.atUnit 3 (put 8 0 128)).sw.modeAt 0 = 1 := by decide +kernel

theorem test_home_stores :
    (∀ t ∈ [8, 9], ∀ n ∈ [1, 128, 256], Open (put t 0 n) tenant ∧ ((tenant.atUnit 3 (put t 0 n)).partsReadable (put t 0 n)).1 = true)
      ∧ Open (put 10 0 128) tenant ∧ (tenant.atUnit 3 (put 10 0 128)).sw.modeAt 0 = 3 ∧ Open (put 8 0 1) (inMode 1)
      ∧ ((inMode 1).atUnit 3 (put 8 0 1)).sw.takeBack (put 8 0 1) = none := by decide +kernel

theorem test_home_atomics :
    (∀ n ∈ [0x80, 8], let f := { put 16 0 8 with opx := opxAt n 36 }
      let g := { f with length := if aopOf f.opx = 8 then f.length / 2 else f.length }
      Open f tenant ∧ aopOf f.opx = n % 16 ∧ ((tenant.atUnit 3 f).readRange g).1.isSome = true) := by decide +kernel

theorem test_end_point_home_requests :
    lit.ep.portLive 2 = true ∧ lit.ep.off = false ∧ lit.ep.accepts (down 1 3 []) = true ∧ lit.ep.verdict = false := by decide +kernel

theorem test_unit_events :
    let a : Waiting := { pos := 64, f := ask 1 0 128, step := 0 }
    let s := tenant.onMem fun m => { m with unit := [(0, { retry := [a] })] }
    (∀ u < 16, tenant.sw.nextWaiting u = none) ∧ s.sw.nextWaiting 0 = some (a, false) ∧ s.sw.mergeRun 0 a = [] ∧ (s.sw.unit 0).retry[0]? = some a := by decide +kernel

theorem test_fabric_mailbox_events :
    let base := 0x3FF00000000
    let s := tenant.onEscrow fun e => { e with mbox := [(2, { partition := 1 })] }
    aged s.sw.sys.cfg s.sw.clock.now (put 8 (base + 0x2FFFF) 1) = false ∧ s.sw.mailboxRefuses (put 8 (base + 0x30000) 1) = true
      ∧ s.sw.mailboxRefuses (put 8 (base + 0x20001) 63) = false ∧ s.sw.mailboxRefuses (put 8 (base + 0x20B00) 256) = false
      ∧ s.sw.mailboxRefuses (put 8 (base + 0x24F00) 256) = false ∧ s.sw.mailboxRefuses (ask 1 (base + 0x20040) 64) = false
      ∧ s.sw.mailboxRefuses (ask 1 (base + 0x2007F) 1) = false := by decide +kernel

/-! ### Responses, coherence, translation -/

/-- An answer to the switch from the AKG-8 of slot 3. -/
def answer (typ : Nat) (opx : BitVec 28) (data : List Byte) : Frame :=
  let f := ask typ 0 data.length
  { f with data := data, opx := opx }

/-- A graph in slot 63 with one task on engine 47. -/
def running (x : Task) : State :=
  tenant.onEscrow fun e => { e with engine := [(47, { task := some (63, 0) })]
                                    graph := [(63, { mailbox := 2, partition := 1, ctx := 5, tag := 9, deadline := 100, tasks := [x] })] }

theorem test_responses_at_the_switch :
    let x : Flight := { port := 3, tag := 5, owner := .done 0, engine := 0, f := ask 1 0 128 }
    let y : Flight := { x with port := 0, tag := 0, order := 7 }
    let s := tenant.onEscrow fun e => { e with flight := [x], held := [y] }
    let z : Task := { desc := leBytes 64 0x10, state := .running, engine := 47, xwait := some 0x1000 }
    let w := running z
    s.sw.escrow.flight.find? (fun y => y.port == 3 && y.tag == (answer 0x20 0 []).tag) = some x ∧ tenant.sw.escrow.flight = []
      ∧ s.sw.escrow.flight.find? (fun y => y.port == 3 && y.tag == 5) = some x ∧ s.sw.escrow.held.find? (fun y => y.order == 7) = some y
      ∧ (w.sw.getEngine 47).task = some (63, 0) ∧ w.sw.getTask 63 0 = some z ∧ z.xwait.isSome = true ∧ z.state = .running ∧ z.result = none := by decide +kernel

/-- The AKG-8 with one request of one piece in flight on port 2. -/
def waiting (kind : FlightKind) : State :=
  { lit with ep := { akg with
    flight := [{ port := 2, tag := 0, agent := 1, kind := kind, f := ask 1 0 128, sent := true }]
    reqs := [{ r := { agent := 1, op := .read, length := 128 }, order := 0, pieces := [{ cva := 0, len := 128, started := true }] }] } }

theorem test_responses_at_the_end_point :
    let f := down 0x20 4 (List.replicate 128 0)
    let s := waiting (.req 0 0)
    EpTakes 2 f lit ∧ lit.ep.flightAt 2 f.tag = none ∧ EpTakes 2 f s ∧ (∃ x, s.ep.flightAt 2 f.tag = some x ∧ x.kind = .req 0 0
        ∧ ((((s.credited 2 f).fillFrom x f).dropEpFlight 2 f.tag).ep.piece 0 0).isSome = true)
      ∧ (∃ x, (waiting (.grant 0 0)).ep.flightAt 2 f.tag = some x ∧ x.kind = .grant 0 0) ∧ s.ep.off = false ∧ (s.ep.flightAt 2 0).isSome = true
      ∧ ∃ q, s.ep.reqs.find? (fun q => q.order == 0) = some q ∧ q.checked = false :=
  ⟨by decide +kernel, rfl, by decide +kernel, ⟨_, rfl, rfl, by decide +kernel⟩, ⟨_, rfl, rfl⟩, rfl, rfl, ⟨_, rfl, rfl⟩⟩

theorem test_switch_coherence_frames :
    let b : Busy := { line := 0, stage := .again, f := ask 8 0 128, await := [(0x43, 2)], owner := 0x43 }
    let s := onBusy b
    let e : DirEntry := { line := 0, state := .em, owner := 0x43, keySlot := 5 }
    let j : RegionJob := { region := 0, fn := 0, mb := 0, awaitOwner := some 0x43, mode := 2, newOwner := 0x44, handover := true }
    let u := (inMode 2).onHome fun h => { h with jobs := [j] }
    let f := answer 0x29 (opxAt 1 36) []
    f.opxBits 38 36 ≠ 6 ∧ (answer 0x29 (opxAt 6 36) []).opxBits 38 36 = 6 ∧ (s.taken f).sw.busy 0 = some b
      ∧ b.await.find? (fun a => a.1 == f.src) = some (f.src, 2) ∧ b.await.any (fun a => a.1 == f.src) = true ∧ ((s.taken f).sw.chan (channelOf 0)).fenced = false
      ∧ ((onBusy { b with stage := .ack }).taken f).sw.busy 0 = some { b with stage := .ack }
      ∧ ((onBusy { b with stage := .fill 0x43 }).taken f).sw.busy 0 = some { b with stage := .fill f.src } ∧ (answer 0x2C (opxAt 1 36) []).opxBits 36 36 = 1
      ∧ (tenant.taken f).sw.entry 0 = none
      ∧ (((shared e).taken f).sw.entry 0 = some e ∧ e.state ≠ .s ∧ e.owner = f.src ∧ ((shared e).taken f).sw.busy 0 = none)
      ∧ ({ b with stage := .ack } : Busy).f.src = f.src ∧ s.sw.teller.state ≠ 1
      ∧ (u.sw.mem.home.jobs.find? (fun j => j.region == 0 && j.awaitOwner.isSome) = some j) := by decide +kernel

/-- A line of switch 0's pool at the AKG-8, as full global address, with a cached copy. -/
def cached (w : Way) : State := lit.onEp fun e => { e with cache := [w] }

theorem test_end_point_snoops :
    let f := fun kind => ({ down 0x28 2 [] with opx := opxAt kind 36 } : Frame)
    let b := fun range => ({ down 0x2D 2 [] with opx := opxAt range 36 } : Frame)
    let w := fun st => ({ fga := 0, partition := 1, keySlot := 5, state := st, data := List.replicate 128 0 } : Way)
    let held := cached { w .m with hold := true }
    (∀ k < 5, (f k).typ = 0x28 ∧ (f k).opxBits 38 36 = k ∧ EpTakes 2 (f k) lit ∧ EpTakes 2 (f k) held) ∧ (f 0).src * 2 ^ 42 + (f 0).offset / 128 * 128 = 0
      ∧ (∀ r < 2, (b r).typ = 0x2D ∧ (b r).opxBits 36 36 = r ∧ EpTakes 2 (b r) lit) ∧ ((held.ep.anyWay 0).any fun w => w.hold) = true
      ∧ ((lit.ep.anyWay 0).any fun w => w.hold || w.state.coherent) = false ∧ (((cached (w .snap)).ep.anyWay 0).any fun w => w.hold || w.state.coherent) = false
      ∧ (∀ st ∈ [CState.s, .e, .m, .o], EpTakes 2 (f 0) (cached (w st)) ∧ (cached (w st)).ep.anyWay 0 = some (w st) ∧ (w st).hold = false ∧ st.coherent = true)
      ∧ CState.m ≠ .s ∧ CState.e ≠ .s ∧ CState.m.dirty = true ∧ CState.e.dirty = false := by decide +kernel

/-- An agent of partition 1 is bound. -/
def bound : State := lit.onEp fun e => { e with bind := [(63, 1 + 1 * 2 ^ 24)] }

theorem test_end_point_fills :
    let f := fun cache => ({ down 0x2E 2 (List.replicate 128 0) with partition := 1 } : Frame).withCache cache
    let out := bound.onEp fun e => { e with flight := [{ port := 2, tag := 0, agent := 63, kind := .req 0 0, f := put 8 0 128 }] }
    (∀ c < 6, EpTakes 2 (f c) bound) ∧ fillState (f 0).cache = none ∧ (∀ c ∈ [(1, CState.s), (2, .e), (3, .m), (4, .snap), (5, .owned)],
        fillState (f c.1).cache = some c.2 ∧ bound.ep.takesFill 0 1 c.2.coherent = true ∧ lit.ep.takesFill 0 1 c.2.coherent = false)
      ∧ bound.ep.storeOut 0 = false ∧ out.ep.storeOut 0 = true ∧ EpTakes 2 (f 4) out ∧ out.ep.takesFill 0 1 false = true := by decide +kernel

theorem test_end_point_waits :
    let f : Frame := { answer 0x2C 0 [] with dest := 0x40, inc := 3 }
    let r : Frame := { answer 0x29 (opxAt 6 36) [] with dest := 0x40, inc := 3 }
    let x : HomeReq := { port := 2, f := { ask 10 0 128 with ext := 0x43 }, utag := 0x10000, stage := 3 }
    let s := lit.onEp fun e => { e with homeReqs := [x] }
    let j : RegionJob := { region := 0, fn := 0, mb := 0, awaitOwner := some 0x43, mode := 2, newOwner := 0x44, handover := true }
    let h := lit.onEp fun e => { e with home := { e.home with jobs := [j] }, cache := [{ fga := 128, partition := 1, keySlot := 5, state := .m, data := [], hold := true }]
                                        snoops := [{ port := 2, fga := 128, f := down 0x28 2 [] }] }
    s.ep.homeReqs.find? (fun x => x.stage == 3 && x.f.ext.toNat == f.src && x.f.offset / 128 == f.offset / 128) = some x ∧ EpTakes 2 f s
      ∧ (s.ep.homeReqs.any fun x => x.stage == 3 && x.f.ext.toNat == 0x43 && x.f.offset / 128 == 0) = true ∧ r.opxBits 38 36 = 6 ∧ EpTakes 2 r h
      ∧ h.ep.home.jobs.find? (fun j => j.region == 0 && j.awaitOwner.isSome) = some j ∧ j.awaitOwner = some 0x43 ∧ h.ep.off = false
      ∧ (h.ep.snoops.filter fun g => g.fga == 200 / 128 * 128) ≠ [] ∧ (lit.ep.snoops.filter fun g => g.fga == 0) = [] := by decide +kernel

/-- The table of rack 0 lies at host address 0x100000. -/
def tabled (l : List TableRead) : State := tenant.onXlat fun x => { x with base := [(0, 0x100000)], reads := l }

/-- The context entry 5: one segment from CVA 0 to the pool, for partition 1. -/
def entry5 : List Byte := { ({} : Desc) with v := true, r := true, w := true, partition := 1, keySlot := 5, length := 1, context := 5 : Desc }.bytes

theorem test_translation :
    let f : Frame := { ask 0x30 0 0 with opx := BitVec.ofNat 28 5 }
    let g : Frame := { f with opx := BitVec.ofNat 28 8191 }
    let r : TableRead := { ctx := 5, waiters := [.endpoint 3 f] }
    let unread := fun l => (tabled l).onSys fun y => { y with hostLink := false }
    f.opxBits 51 36 = 5 ∧ tenant.sw.tableAddr 5 = none ∧ (tabled []).sw.tableAddr 8191 = some (0x100000 + 8191 * 0x400) ∧ g.opxBits 51 36 = 8191
      ∧ (tabled []).sw.missRoom 8191 = true ∧ (tabled []).sw.xlat.reads.find? (fun r => r.ctx == 8191) = none ∧ (tabled []).sw.hostReads = true
      ∧ (∃ x, (waiting (.translate (.req 1) 0)).ep.flightAt 2 (down 0x31 4 []).tag = some x ∧ x.kind = .translate (.req 1) 0) ∧ EpTakes 2 (down 0x31 4 []) (waiting (.translate (.req 1) 0))
      ∧ ((unread []).sw.tableAddr 5 = some (0x100000 + 5 * 0x400) ∧ (unread []).sw.xlat.reads.find? (fun r => r.ctx == 5) = none ∧ (unread []).sw.hostReads = false)
      ∧ (tabled [{ r with stale := true }]).sw.xlat.reads.find? (fun r => r.ctx == 5) = some { r with stale := true }
      ∧ ((tabled [{ r with stale := true }]).sw.hostReads = true ∧ (tabled [{ r with stale := true }]).sw.tableAddr 5 = some (0x100000 + 5 * 0x400)
        ∧ (unread [{ r with stale := true }]).sw.hostReads = false)
      ∧ (tabled [r]).sw.xlat.reads.find? (fun r => r.ctx == 5) = some r
      ∧ (match (tabled [r]).sw.serveMiss (tabled [r]).exposedSize (padTo 1024 entry5) r.ctx f.partition (f.ext.toNat % 2 ^ 56) with | .ok _ _ => true | .bad _ _ => false) = true
      ∧ (match (tabled [r]).sw.serveMiss (tabled [r]).exposedSize (padTo 1024 []) r.ctx f.partition (f.ext.toNat % 2 ^ 56) with | .ok _ _ => false | .bad kind _ => kind == fNoSegment) = true
      ∧ r.stale = false ∧ r.waiters = [.endpoint 3 f] := by
  decide +kernel

theorem test_invalidation :
    let x : Inval := { number := 7, ctx := 5, first := 0, count := 1, await := [0x43], draining := [3 * 4096 + 5] }
    let s := tenant.onXlat fun y => { y with inval := [x] }
    let f := answer 0x33 0 (bytes (le 4 7 ++ le 2 1 ++ le 1 3))
    let z : EpInval := { number := 7, port := 2, f := down 0x32 0 [], ctx := 5, await := [0] }
    let e := lit.onEp fun e => { e with invals := [z] }
    tenant.sw.escrow.flight = [] ∧ tenant.sw.escrow.held = [] ∧ tenant.sw.escrow.engine = [] ∧ tenant.sw.xlat.inval = [] ∧ (tenant.sw.xlat.inval.any fun x => x.number == 7) = false
      ∧ (s.sw.xlat.inval.any fun x => x.number == 7) = true ∧ s.sw.teller.state ≠ 1 ∧ (lit.ep.invals.any fun x => x.number == 7 && x.port == 2 && !x.dead) = false
      ∧ s.sw.xlat.inval = [x] ∧ x.number = field f.data 0 4 ∧ f.src ∈ x.await
      ∧ EpTakes 2 (down 0x32 0 (bytes (le 8 0 ++ le 4 1 ++ le 4 7))) lit ∧ s.sw.xlat.inval.find? (fun x => x.number == 7) = some x
      ∧ e.ep.off = false ∧ e.ep.invals = [z] ∧ z.number = 7 := by decide +kernel

/-! ### Collectives, the accelerator, tasks -/

/-- A part of one byte from a member, complete. -/
def given (rank : Nat) : Part1 := { rank := rank, bytes := [1], last := true }

/-- Epoch 1 of Syndicate 4: an ALL_GATHER of one byte each by agent 1 of two end-points, in chunk 0. -/
def gather (c : Chunk) : Epoch := { number := 1, cop := 2, rop := 0, fmt := 8, sat := false, unsigned := false, root := 0, endChunk := some 0, chunks := [(0, c)] }

def pairOf (c : Chunk) : Synd := { partition := 1, members := [0x43 * 64 + 1, 0x44 * 64 + 1], epochs := [gather c] }

/-- The switch of that Syndicate. -/
def gathering (c : Chunk) : State :=
  let s := tenant.putPart 1 { state := .admitted, vfBound := true, keySlot := 5, collQuota := 1 }
  s.onSw fun w => { w with synd := [(4, pairOf c)] }

/-- A collective frame of rank 0 in that epoch. -/
def coll (typ attempt check : Nat) (data : List Byte) : Frame :=
  { dest := 0, src := 0x43, agent := 1, cls := 5, typ := typ, partition := 1, length := data.length, data := data
    opx := BitVec.ofNat 28 (4 + 0 * 2 ^ 8 + 2 * 2 ^ 18 + attempt * 2 ^ 26), ext := BitVec.ofNat 64 (check + 2 ^ 32 + 2 ^ 44 + 2 ^ 45 + 8 * 2 ^ 46) }

theorem test_collective_data :
    let f := coll 0x38 0 0 [1]
    let s := gathering {}
    let c : Chunk := { parts := [({ rank := cRank f, level := 0 } : Part1).add f 0] }
    let e' : Epoch := { gather c with endChunk := some 0 }
    let high : Part1 := { rank := 0, level := 1 }
    let full := (gathering {}).putPart 1 { state := .admitted, collQuota := 0 }
    let fresh : Epoch := { gather {} with chunks := [] }
    tenant.sw.getSynd (cSynd f) = none ∧ s.sw.getSynd (cSynd f) = some (pairOf {}) ∧ (pairOf {}).epoch (cEpoch f) = some (gather {})
      ∧ (pairOf {}).closed.contains (cEpoch f) = false ∧ s.sw.collSourceOk (pairOf {}) f = true ∧ s.sw.collSourceOk (pairOf {}) { f with partition := 2 } = false
      ∧ ({ pairOf {} with closed := [1] } : Synd).closed.contains (cEpoch f) = true ∧ chunkOf (cFmt f) (cPos f) (cScale f) = 0
      ∧ full.sw.quotaFull (pairOf {}) fresh 0 f = true ∧ s.sw.quotaFull (pairOf {}) fresh 0 f = false ∧ s.sw.quotaFull (pairOf {}) (gather {}) 0 f = false
      ∧ (gather {}).aborted = none ∧ ({ gather {} with aborted := some 5 } : Epoch).aborted.isSome = true
      ∧ (pairOf {}).lost = [] ∧ (gather {}).agrees f 0 = true ∧ ({ gather {} with rop := 1 } : Epoch).agrees f 0 = false ∧ c.lengthsAgree e' = true
      ∧ ((gather {}).chunks.get 0 {}).state = .open_ ∧ ((gather {}).chunks.get 0 {}).covered 0 (cRank f) = false
      ∧ (((gather { parts := [high] }).chunks.get 0 {}).covered 0 (cRank f) = true) ∧ ((gather { state := .settled }).chunks.get 0 {}).state ≠ .open_
      ∧ (((gather {}).chunks.get 0 {}).parts.find? fun q : Part1 => q.level == 0 && q.rank == cRank f) = none := by decide +kernel

theorem test_collective_confirms :
    let c : Chunk := { state := .delivered 2, checks := [(0, 9)] }
    let s := gathering c
    let f := coll 0x3A 2 9 []
    s.sw.isRoot (pairOf c) = true ∧ s.sw.collSourceOk (pairOf c) f = true ∧ s.sw.collSourceOk (pairOf c) { f with partition := 2 } = false
      ∧ (pairOf c).epoch (cEpoch f) = some (gather c) ∧ (gather c).chunks.get (cPos f / 65536) {} = c ∧ cAttempt f = 2 ∧ c.owed = false
      ∧ c.checks.find (cRank f) = some (cCheck f) ∧ ¬(c.checks.find (cRank f) = some (cCheck (coll 0x3A 2 10 []))) ∧ cAttempt (coll 0x3A 1 9 []) ≠ 2
      ∧ cAttempt (coll 0x3A 3 9 []) = 3 ∧ ({ c with confirms := [0] } : Chunk).allConfirmed (pairOf c) = false
      ∧ ({ c with confirms := [0, 1] } : Chunk).allConfirmed (pairOf c) = true ∧ (gather c).chunks.find 0 = some c ∧ isSwitchId 0 = true
      ∧ (pairOf c).epoch (cEpoch f + 1) = none ∧ (∀ a, ((gather {}).chunks.get 0 {}).state ≠ .delivered a) := by
  and_intros <;> first | decide +kernel | exact fun a (h : ChunkState.open_ = .delivered a) => nomatch h

/-- The same switch as one of rack 1, below the root. -/
theorem test_collectives_below_the_root :
    let s := (gathering {}).onSys fun y => { y with rack := 1 }
    let f := coll 0x3C 0 0 []
    s.sw.isRoot (pairOf {}) = false ∧ isEpId f.src = true ∧ isEpId ({ f with src := 8 } : Frame).src = false ∧ s.sw.collSourceOk (pairOf {}) f = true
      ∧ s.sw.collSourceOk (pairOf {}) { f with partition := 2 } = false ∧ (pairOf {}).closed.contains (cEpoch f) = false
      ∧ (pairOf {}).epoch (cEpoch f) = some (gather {}) ∧ ({ pairOf {} with epochs := [] } : Synd).epoch (cEpoch f) = none := by decide +kernel

/-- The AKG-8 in that epoch, its contribution sent. -/
def calling (x : Tab EpChunk) : State :=
  lit.onEp fun e => { e with calls := [{ agent := 1, utag := 7, c := { synd := 4, cop := 2, fmt := 8, rop := 0, root := 0, len := 1 }, n := 2, partition := 1, epoch := 1, stage := 2, chunk := x }] }

theorem test_collective_member :
    let f : Frame := { coll 0x39 0 0 [1] with dest := 0x40, src := 0, inc := 3, ext := BitVec.ofNat 64 (2 ^ 32) }
    let s := calling []
    EpTakes 2 f s ∧ (∃ x, s.ep.callIn f.agent (cSynd f) (cEpoch f) = some x ∧ x.stage = 2 ∧ (x.part 0).settled = false ∧ x.chunk = [])
      ∧ isSwitchId f.dest = false ∧ f.length ≠ 0 ∧ cLast f = false ∧ cScale f = false
      ∧ (let v := ((s.credited 2 f).onChunk (s.ep.calls.headD { agent := 0, utag := 0, c := {} }) 0 fun c => { c with settled := true, rx := [], rxScale := [] }).chunkNote
           (s.ep.calls.headD { agent := 0, utag := 0, c := {} }) 0 0 .settled
         (v.ep.memberCall f).isSome = true) ∧ f.status ≠ 8 := by
  decide +kernel

/-- The frame with LAST, a settled chunk, a later attempt, and an abort. -/
theorem test_collective_member_ends :
    let f : Frame := { coll 0x39 0 0 [1] with dest := 0x40, src := 0, inc := 3 }
    let g : Frame := { coll 0x3C 0 0 [] with dest := 0x40, src := 0, inc := 3, status := 8 }
    let s := calling [(0, { settled := true, attempt := 1 })]
    let x := s.ep.calls.headD { agent := 0, utag := 0, c := {} }
    EpTakes 2 f s ∧ cLast f = true ∧ ((((s.credited 2 f).onChunk x 0 fun c => c).ep.callIn f.agent (cSynd f) (cEpoch f)).isSome = true)
      ∧ (x.part 0).settled = true ∧ (x.part 0).attempt ≠ cAttempt f ∧ ((calling []).ep.calls.headD x |>.part 0).attempt = cAttempt f
      ∧ EpTakes 2 g s ∧ g.typ = 0x3C ∧ g.status = 8 := by decide +kernel

/-- An abort of an epoch that its agent, of rank 0, has not called yet. -/
theorem test_abort_before_the_call :
    let f : Frame := { coll 0x3C 0 0 [] with dest := 0x40, src := 0, inc := 3, status := 5 }
    let r : Rank := { synd := 4, partition := 1, agent := 1, rank := 0, n := 2 }
    let s := lit.onEp fun e => { e with ranks := [r] }
    EpTakes 2 f s ∧ s.ep.callIn f.agent (cSynd f) (cEpoch f) = none ∧ f.typ = 0x3C ∧ f.status ≠ 8 ∧ s.ep.rankOf (cSynd f) f.agent = some r
      ∧ (cEpoch f + 4096 - r.nextEpoch) % 4096 < 2048
      ∧ (s.ep.aborted.any fun q => q.1 == cSynd f && q.2.1 == f.agent && q.2.2.1 == cEpoch f) = false
      ∧ (let called := (calling []).onEp fun e => { e with ranks := [r] }
         called.ep.rankOf 4 1 = some r ∧ (calling []).ep.rankOf 4 1 = none) := by decide +kernel

theorem test_accelerator :
    let fenced := lit.onEp fun e => { e with agentFence := [(63, [2])] }
    let x : HomeReq := { port := 2, f := ask 1 0 256, utag := 0x10000, stage := 2 }
    let y : HomeReq := { port := 2, f := put 9 0 128, utag := 0x10001, stage := 1, ctag := 4 }
    let s := lit.onEp fun e => { e with homeReqs := [x, y] }
    let f : Frame := { down 0x3E 7 [] with tag := 4 }
    lit.ep.off = false ∧ fenced.ep.agentRefused 63 = true ∧ lit.ep.agentRefused 63 = false ∧ bindV (lit.ep.bound 63) = false ∧ bound.ep.agentRefused 63 = false
      ∧ bindV (bound.ep.bound 63) = true ∧ s.ep.homeReqs.find? (fun x => x.stage == 2 && x.utag == 0x10000) = some x ∧ EpTakes 2 f s
      ∧ s.ep.homeReqs.find? (fun x => x.stage == 1 && x.ctag == f.tag && x.port == 2) = some y ∧ f.status = 0 ∧ ({ f with status := 4 } : Frame).status ≠ 0
      ∧ aged epCfg 0 y.f = false ∧ aged epCfg (200 * 850000) y.f = true
      ∧ lit.ep.ucie.filter (· != 7) ≠ [] ∧ ({ akg with ucie := [7] } : EndPoint).ucie.filter (· != 7) = [] := by decide +kernel

theorem test_tasks :
    let x : Task := { desc := leBytes 64 0x0E, state := .running, engine := 47, ended := some 0 }
    let q : Submission := { mailbox := 255, pos := 3, f := put 8 0x3FF00FF0000 8, graph := { mailbox := 255, partition := 1, ctx := 5, tag := 9 } }
    let s := tenant.onEscrow fun e => { e with queue := [q] }
    ((running x).sw.getGraph 63).isSome = true ∧ (running x).sw.getTask 63 0 = some x ∧ (TaskDesc.of x.desc).kind = 0x0E
      ∧ ((running { x with state := .retryWait }).sw.getTask 63 0).map (·.state) = some .retryWait ∧ ((running x).sw.getGraph 63).map (·.deadline) = some 100
      ∧ ((running x).sw.getGraph 63).any (fun g => g.deadline != 0) = true ∧ s.sw.escrow.queue.find? (fun x => x.mailbox == 255) = some q := by decide +kernel

/-! ### Detector, management, books, power, Ledger -/

/-- The switch's record of the AKG-8 of slot 3. -/
def known (r : EpRec) : State := linked.onSw fun w => { w with mgmt := { w.mgmt with rec_ := [(0x43, r)] } }

/-- A MGMT frame to the switch with this payload. -/
def tells (data : List Nat) : Frame := { dest := 0, src := 0x43, cls := 7, typ := 0x3D, length := data.length, data := bytes data, tag := 2 }

/-- A MGMT frame to the AKG-8. -/
def told (data : List Nat) : Frame := down 0x3D 7 (bytes data)

theorem test_detector :
    let f := told (le 2 0x40 ++ [3])
    EpTakes 2 f lit ∧ field f.data 0 2 = lit.ep.homeId ∧ lit.ep.verdict = false ∧ lit.ep.inc = some (field f.data 2 1)
      ∧ field (told (le 2 0x41 ++ [3])).data 0 2 ≠ lit.ep.homeId
      ∧ (known { admitted := true }).sw.teller.state = 0 ∧ ((known { admitted := true }).sw.epRec ((known { admitted := true }).sw.peer 3)).admitted = true
      ∧ (∀ q < 64, isEdge (known { admitted := true }).sw.sys q = true → ((known { admitted := true }).sw.epRec ((known { admitted := true }).sw.peer q)).admitted = true →
        ((known { admitted := true }).sw.getLink q).state = .active ∧ ((known { admitted := true }).sw.epRec ((known { admitted := true }).sw.peer q)).acked = true
          ∧ ((known { admitted := true }).sw.epRec ((known { admitted := true }).sw.peer q)).verdict = false
          ∧ ((known { admitted := true }).sw.epRec ((known { admitted := true }).sw.peer q)).readmitting = false) := by decide +kernel

theorem test_suspects_and_verdicts :
    let f := tells (le 2 0x43 ++ [2] ++ le 2 9)
    let s := known { inc := 2, suspects := [9] }
    let v := (s.taken f).flood .sw (some 3) 3 f.data
    (v.sw.epRec 0x43).inc = field f.data 2 1
      ∧ (v.onEpRec 0x43 fun r => { r with suspects := field f.data 3 2 :: r.suspects.filter (· != field f.data 3 2) }).sw.judges 0x43 = false
      ∧ (((known { inc := 1 }).taken f |>.flood .sw (some 3) 3 f.data).sw.epRec 0x43).inc ≠ field f.data 2 1
      ∧ 9 ∈ (s.sw.epRec 0x43).suspects ∧ (s.onTeller fun t => { t with state := 1 }).sw.teller.state = 1 ∧ s.sw.teller.state ≠ 1
      ∧ (s.sw.epRec (field f.data 0 2)).inc = field f.data 2 1 := by decide +kernel

theorem test_end_point_management :
    let fresh : State := { lit with ep := { akg with homeId := 0x3FF, inc := none } }
    let out : State := lit.onEp fun e => { e with link := [(0, { state := .fenced, fenceWhy := 1 })] }
    fresh.ep.portLive 2 = true ∧ fresh.ep.off = false ∧ fresh.ep.homeId = 0x3FF ∧ lit.ep.homeId = field (told (le 2 0x40)).data 0 2
      ∧ lit.ep.homeId ≠ 0x3FF ∧ lit.ep.homeId ≠ field (told (le 2 0x41)).data 0 2
      ∧ (EpTakes 2 (told [5, 63, 0, 0]) lit ∧ field (told [5, 63, 0, 0]).data 0 1 = 5 ∧ field (told [5, 63, 0, 0]).data 3 1 = 0 ∧ field (told [5, 63, 0, 1]).data 3 1 ≠ 0)
      ∧ field (told [6, 125]).data 0 1 = 6 ∧ field (told [10]).data 0 1 = 10 ∧ (7, (told [1]).data) ∉ lit.ep.seen
      ∧ ({ told [1] with dest := 1 } : Frame).dest ≠ lit.ep.homeId ∧ (out.ep.off = false ∧ (out.ep.getLink 0).fenceWhy = 1 ∧ (out.ep.getLink 0).state = .fenced) := by
  decide +kernel

theorem test_relays :
    let f : Frame := { tells (le 2 0x44 ++ [2]) with src := 8 }
    let seen := linked.onSw fun w => { w with mgmt := { w.mgmt with seen := [(7, leBytes 2 0x44 ++ leBytes 1 2)] } }
    let r : Relay := { port := 3, f := told [5], sends := 8 }
    let a : Active := { fn := 0, mb := 0, box := 0, seq := 1, opcode := 0x0103, work := .activate 0 0 1 }
    let kept := fun r : Relay => (linked.onSw fun w => { w with mgmt := { w.mgmt with relay := [(7, r)] } }).onTeller fun t => { t with active := [a] }
    let g := tells (le 2 0)
    f.src ≠ linked.sw.sys.homeId ∧ (7, leBytes 2 (field f.data 0 2) ++ leBytes 1 (field f.data 2 1)) ∈ seen.sw.mgmt.seen
      ∧ (7, leBytes 2 (field f.data 0 2) ++ leBytes 1 (field f.data 2 1)) ∉ linked.sw.mgmt.seen
      ∧ (kept { r with f := { told [5] with dest := 0x43 } }).sw.mgmt.relay.find? (fun r => r.2.f.tag == field g.data 0 2 && (r.2.port == 64 || r.2.f.dest == g.src))
          = some (7, { r with f := { told [5] with dest := 0x43 } })
      ∧ r.cmd = none ∧ (kept { r with cmd := some (0, 0) }).sw.activeOf 0 0 = some a ∧ r.port ≠ 64 ∧ (kept r).sw.mgmt.relay.find 7 = some r ∧ r.sends ≤ 8
      ∧ 8 < ({ r with sends := 9 } : Relay).sends := by decide +kernel

theorem test_books :
    let k : BookChange := { book := 1, cycle := 5, number := 7 }
    let f := told ([1] ++ le 8 5 ++ le 4 7)
    let s := lit.onEp fun e => { e with sched := { seen := [7], unacked := [(2, (k, 32))] } }
    EpTakes 2 f lit ∧ field f.data 9 4 ∈ (s.getSched .ep).seen ∧ field f.data 9 4 ∉ (lit.getSched .ep).seen ∧ (s.getSched .ep).unacked.find 2 = some (k, 32)
      ∧ k.number = field (told (le 4 7)).data 0 4 := by decide +kernel

theorem test_book_master_and_slow :
    let s := up.onSw fun w => { w with sched := { w.sched with book := 1, reports := [] }, clock := { w.clock with master := w.sys.homeId } }
    let hot := up.onPower fun x => { x with p := 126 }
    let slow := up.onSw fun w => { w with sched := { w.sched with slow := true }, power := { w.power with p := 120 } }
    s.sw.isMaster = true ∧ s.sw.sched.pending_ = none ∧ s.sw.sched.wanted ≠ s.sw.sched.target
      ∧ hot.slowNow = true ∧ hot.sw.sched.slow = false ∧ slow.sw.sched.slow = true ∧ slow.slowPace + slow.sw.sched.margin ≤ slow.sw.sys.cfg.ceil := by decide +kernel

/-- Power domain i of a kind. -/
def domained (k i : Nat) (d : Domain) : State := linked.onPower fun x => { x with dom := [(k * 64 + i, d)] }

theorem test_power_domains :
    let asked := linked.onLink .sw 3 fun l => { l with asked := some 2 }
    let askedEp := lit.onLink .ep 2 fun l => { l with asked := some 2 }
    let deep : Domain := { votes := [(0, 3)] }
    let still : Domain := { votes := [(0, 1)] }
    ((asked.sw.getLink 3).asked.isSome = true ∧ (asked.sw.getLink 3).state = .active) ∧ ((askedEp.ep.getLink 2).asked.isSome = true ∧ EpTakes 2 (told [2]) askedEp)
      ∧ (47 < domainCount 1 ∧ (domained 1 47 deep).sw.domain 1 47 = deep ∧ 0 < (domained 1 47 deep).allowed 1 47)
      ∧ ((domained 1 47 still).allowed 1 47 = 1 ∧ (domained 1 0 deep).allowed 1 0 = 3)
      ∧ (let n : Domain := { deep with entering := some 2 }
         (domained 2 23 n).sw.domain 2 23 = n ∧ n.wake = false ∧ 2 ≤ ((domained 2 23 n).onDomain 2 23 fun d => { d with state := 2, entering := none }).allowed 2 23)
      ∧ (∀ n ∈ [1, 3, 4], ((domained 3 0 { exiting := some n }).sw.domain 3 0).exiting = some n)
      ∧ ((domained 1 0 { exiting := some 4 }).sw.getEngine 0).task = none
      ∧ (((domained 0 3 { exiting := some 4 }).onLink .sw 3 fun l => { l with state := .nap }).sw.getLink 3).state = .nap := by decide +kernel

/-- Acknowledgements that nobody awaits, an entry overtaken by a vote, a port that asks for REST, a task that waits for its engine, and a late stage. -/
theorem test_power_domains_otherwise :
    let deep : Domain := { votes := [(0, 3)] }
    let quiet := fun k i (d : Domain) => (domained k i d).onLink .sw 3 fun l => { l with partnerVote := 3 }
    let woken : Domain := { deep with entering := some 3, wake := true }
    let busy := (running { desc := leBytes 64 0x10 }).onPower fun x => { x with dom := [(64 + 47, { exiting := some 4 })] }
    (linked.sw.getLink 3).asked = none ∧ ((lit.ep.getLink 2).asked = none ∧ EpTakes 2 (told [2]) lit) ∧ (up.sw.getLink 3).state ≠ .active
      ∧ ((quiet 0 3 deep).sw.getLink 3).state = .active ∧ 2 ≤ (((quiet 0 3 deep).enter 0 3 (min 1 ((quiet 0 3 deep).allowed 0 3))).wish 0 3)
      ∧ ((quiet 3 5 woken).sw.domain 3 5).entering = some 3 ∧ woken.wake = true
      ∧ (∀ q ∈ queueKeys 3, ((quiet 0 3 { deep with entering := some 2 }).sw.core.queue.get q []) = [])
      ∧ (busy.sw.domain 1 47).exiting = some 4 ∧ (busy.sw.getEngine 47).task = some (63, 0)
      ∧ (((domained 0 3 { exiting := some 4 }).onLink .sw 3 fun l => { l with state := .rest }).sw.getLink 3).state = .rest
      ∧ (∀ k < 6, ((domained k 0 { exiting := some 1 }).sw.domain k 0).exiting.isSome = true) := by decide +kernel

theorem test_ledger_rows :
    let f : Frame := { tells [] with cls := 7, typ := 0x3E, partition := 1 }
    let full := tenant.onSw fun w => { w with ledger := [(1, { started := true, region := some (0, 0x200000), staged := 0x100000 })] }
    let dirty := tenant.onSw fun w => { w with ledger := [(1, { started := true, region := some (0, 0x200000), dirty := true })] }
    let waits := tenant.onSw fun w => { w with inputWait := [(3, f)] }
    ((up.taken f).sw.getLedger 1).started = false ∧ ((tenant.taken f).sw.getLedger 1).room (256 + 128 * ceilDiv 256 128) false = true
      ∧ ((full.taken f).sw.getLedger 1).started = true ∧ ((full.taken f).sw.getLedger 1).room (256 + 128 * ceilDiv f.length 128) false = false
      ∧ waits.sw.inputWait.find? (fun x => x.2.src == 0x43 && x.2.tag == 2) = some (3, f)
      ∧ (full.sw.getLedger 1).region.isSome = true ∧ (full.sw.getLedger 1).sealDue = false ∧ (full.sw.ledgerQueue = [] ∧ full.sw.inputWait = [] ∧ full.sw.synd = [])
      ∧ ((dirty.sw.getLedger 1).started = true ∧ (dirty.sw.getLedger 1).dirty = true ∧ (dirty.sw.getLedger 1).room 1920 true = true ∧ dirty.sw.teller.state ≠ 1) := by
  decide +kernel

theorem test_pace_and_heat :
    let slack := up.onPower fun x => { x with p := up.sw.sys.cfg.target + 1 }
    [].foldl max 0 ≤ 160 ∧ [100, 125].foldl max 0 ≤ up.sw.sys.cfg.ceil ∧ up.sw.limit ≤ 640 ∧ up.sw.sys.pwrbrk = false ∧ up.sw.power.p < up.sw.sys.cfg.ceil
      ∧ (up.sw.limit - 1 < up.sw.limit ∧ up.sw.limit ≤ up.sw.limit - 1 + 20 ∧ up.sw.limit ≤ up.sw.limit - 20 + 20)
      ∧ (slack.sw.power.p ≤ up.sw.sys.cfg.target + 1 ∧ up.sw.sys.cfg.target ≤ slack.sw.power.p + 1) ∧ lit.ep.powerLimit ≤ 46 ∧ lit.ep.p < lit.ep.ceil
      ∧ (up.sw.power.watts ≤ up.sw.sys.cfg.brake ∧ 600 ≤ up.sw.power.mV ∧ up.sw.power.mV ≤ 900)
      ∧ up.sw.sys.phase.brakes = true ∧ (up.sw.power.throttle = 0 ∧ (up.onPower fun x => { x with throttle := 1 }).sw.power.throttle ≠ 0 ∧ up.sw.sys.phase = .running)
      ∧ (up.onSys fun y => { y with phase := .tripHold }).sw.sys.phase = .tripHold ∧ lit.ep.thermTrip = false := by decide +kernel

/-! ### Links -/

/-- Port 3 of the switch as this link. -/
def wired (l : Link) : State := up.onSw fun w => { w with link := [(3, l)] }

/-- A port in service with keys and one flit to a group. -/
def keyed (r : Rx) : Link := { state := .active, rx := { r with key := some { g := 1 } }, tx := { key := some { g := 1 }, replay := [(4094, []), (4095, [])] } }

theorem test_link_layer :
    let s := wired (keyed { nak := some (4095, 15) })
    let o := wired (keyed { open_ := some (4095, [leBytes 16 0]) })
    (s.getLink .sw 3).rx.nak = some (4095, 15) ∧ ((wired (keyed { nak := some (4095, 16) })).getLink .sw 3).rx.nak = some (4095, 16)
      ∧ ((wired (keyed {})).getLink .sw 3).rx.nak = none ∧ (s.getLink .sw 3).rx.open_ = none ∧ (o.getLink .sw 3).rx.open_ = some (4095, [leBytes 16 0])
      ∧ ((wired { state := .map }).getLink .sw 3).state ≠ .secure ∧ ((wired { state := .map }).getLink .sw 3).state ≠ .time
      ∧ ((wired { state := .map }).getLink .sw 3).state ≠ .active ∧ (o.getLink .sw 3).state = .active ∧ (o.getLink .sw 3).rx.entered.find 4095 = none
      ∧ (let b : Buffered := { f := ask 0x20 0 128, src := 3, at_ := 0, tile := 0, cells := 4, whole := false, mark := 4095 }
         let cut := (wired (keyed { open_ := some (4095, [leBytes 16 0]), entered := [(4095, 4)] })).onCore fun c => { c with cut := [(9, { b := b, f := b.f })] }
         ((cut.getLink .sw 3).rx.entered.find 4095).isSome = true ∧ cut.sw.core.cut = [(9, { b := b, f := b.f })] ∧ 9 < 64 ∧ b.src = 3 ∧ b.whole = false
           ∧ b.mark = 4095) := by decide +kernel

theorem test_flit_receive :
    let x : Rx := { expect := 4095, verified := 4095 }
    let l := (wired (keyed x)).getLink .sw 3
    l.state = .active ∧ l.rx.key = some { g := 1 } ∧ l.rx.newKey = none ∧ l.rx.nak = none ∧ l.rx.before = none ∧ l.rx.group = [] ∧ l.rx.open_ = none
      ∧ l.rx.early = none ∧ l.rx.entered = [] ∧ l.rx.expect < 4096 ∧ l.rx.verified = l.rx.expect := by decide +kernel

/-- A header of each kind, at the last SEQ, with no slot in use. -/
theorem test_flit_fields : ∀ n ∈ [0, 1, 2, 3, 4, 5], (leBytes 8 (4095 + n * 2 ^ 24)).length = 8 ∧ bits (field (leBytes 8 (4095 + n * 2 ^ 24)) 0 8) 24 4 = n
    ∧ bits (field (leBytes 8 (4095 + n * 2 ^ 24)) 0 8) 0 12 = 4095 ∧ kindsOf (leBytes 8 (4095 + n * 2 ^ 24)) = List.replicate 15 0 := by decide +kernel

/-- Such a flit, of any slots, that nothing has touched. -/
theorem test_flit_is_sound (n : Nat) (slots : List Byte) (h : slots.length = 240) : let b := flitOf (leBytes 8 (4095 + n * 2 ^ 24)) slots
    (fecCorrect b).1 = b ∧ (crc32c (slice b 0 248)).toNat = field b 248 4 ∧ slice b 0 8 = leBytes 8 (4095 + n * 2 ^ 24) ∧ slice b 8 240 = slots := by
  obtain ⟨f, c, -, a, b⟩ := flitOf_received (leBytes 8 (4095 + n * 2 ^ 24)) slots (leBytes_length 8 _) h
  exact ⟨congrArg Prod.fst f, c, a, b⟩

/-- A flit whose parity holds and whose check field does not. -/
theorem test_flit_is_unsound (body : List Byte) (h : body.length = 248) :
    let c := body ++ leBytes 4 ((crc32c body).toNat + 1)
    let b := c ++ leBytes 4 (Config.fecParity c).toNat
    (fecCorrect b).1 = b ∧ (crc32c (slice b 0 248)).toNat ≠ field b 248 4 := by
  have n : (body ++ leBytes 4 ((crc32c body).toNat + 1)).length = 252 := by rw [List.length_append, h, leBytes_length]
  refine ⟨congrArg Prod.fst (fecCorrect_codeword _ n), ?_⟩
  rw [slice_within _ _ _ _ (by omega), field_within _ _ _ _ (by omega), ← h, slice_append_left, field_append_right]
  have := (crc32c body).isLt
  omega

/-- The slots of a DATA flit that is a group of its own and verifies under a key at a counter. -/
theorem test_data_flit (k : LinkKey) (counter : Nat) (head body : List Byte) (n : body.length = 224) :
    let slots := body ++ leBytes 16 (Config.gcmTag k.key (k.iv counter) head body).toNat
    slots.length = 240 ∧ (Config.gcmTag k.key (k.iv counter) head (slots.take 224)).toNat = leVal (slots.drop 224) := by
  refine ⟨by rw [List.length_append, n, leBytes_length], ?_⟩
  rw [← n, List.take_left, List.drop_left, leVal_leBytes]
  exact (Nat.mod_eq_of_lt (Config.gcmTag k.key (k.iv counter) head body).isLt).symm

/-- A NULL or NAK flit whose count is above the last and whose tag is that of its header and first slot. -/
theorem test_control_flit (r : Rx) (k : LinkKey) (have_ : r.key = some k) (one : r.newKey = none) (count : Nat) (last : r.ctrlCount < count) (fits : count < 256 ^ 8)
    (head rest : List Byte) (h : head.length = 8) (z : rest.length = 208) :
    let first := leBytes 8 count ++ leBytes 8 0
    r.controlOk (flitOf head (first ++ rest ++ leBytes 16 (k.controlTag count (head ++ first)).toNat)) = true := by
  intro first
  have len : first.length = 16 := by simp [first]
  generalize ht : k.controlTag count (head ++ first) = tag
  have size : (head ++ (first ++ rest ++ leBytes 16 tag.toNat)).length = 248 := by simp only [List.length_append, h, z, len, leBytes_length]
  have key : ∀ e, r.keyFor e = some k := fun e => by simp [Rx.keyFor, one, have_]
  have number : field (flitOf head (first ++ rest ++ leBytes 16 tag.toNat)) 8 8 = count := by
    have at_ : field (head ++ leBytes 8 count) 8 8 = count := by
      rw [show field (head ++ leBytes 8 count) 8 8 = field (head ++ leBytes 8 count) head.length 8 by rw [h], field_append_right]
      exact Nat.mod_eq_of_lt fits
    rw [field, flitOf_slice _ _ _ _ (by omega), show head ++ (first ++ rest ++ leBytes 16 tag.toNat)
      = (head ++ leBytes 8 count) ++ (leBytes 8 0 ++ rest ++ leBytes 16 tag.toNat) by simp [first], slice_within _ _ _ _ (by simp [h]), ← field, at_]
  have aad : slice (flitOf head (first ++ rest ++ leBytes 16 tag.toNat)) 0 24 = head ++ first := by
    rw [flitOf_slice _ _ _ _ (by omega), show head ++ (first ++ rest ++ leBytes 16 tag.toNat) = (head ++ first) ++ (rest ++ leBytes 16 tag.toNat) by simp,
      show 24 = (head ++ first).length by simp [h, len], slice_append_left]
  have given_ : field (flitOf head (first ++ rest ++ leBytes 16 tag.toNat)) 232 16 = tag.toNat := by
    rw [field, flitOf_slice _ _ _ _ (by omega), ← field, show head ++ (first ++ rest ++ leBytes 16 tag.toNat) = (head ++ first ++ rest) ++ leBytes 16 tag.toNat by simp,
      show 232 = (head ++ first ++ rest).length by simp [h, len, z], field_append_right]
    exact Nat.mod_eq_of_lt tag.isLt
  rw [Rx.controlOk, key]
  simp only [number, aad, given_, ht, last, decide_true, beq_self_eq_true, Bool.and_self]

/-- A port in service or in TIME with a probe in flight, after n good probes of its own and m of its partner. -/
def probed (l : PortState) (n m : Nat) (c : Clock) : State :=
  up.onSw fun w => { w with link := [(3, { state := l, probesOk := n, partnerOk := m })], clock := { c with probes := [(3, (255, 1000))] } }

theorem test_time_rows :
    let s := probed .active 0 0 { valid := true, source := some 3, advert := [(3, { hops := 1 })] }
    up.probing .sw 3 = false ∧ s.probing .sw 3 = true ∧ (up.getClock .sw).probes.find 3 = none ∧ (s.getClock .sw).probes.find 3 = some (255, 1000)
      ∧ ((probed .time 6 8 {}).getLink .sw 3).state = .time ∧ ((probed .time 6 8 {}).getClock .sw).source ≠ some 3
      ∧ (((probed .time 7 8 {}).getLink .sw 3).probesOk = 7 ∧ ((probed .time 7 8 {}).getLink .sw 3).partnerOk = 8 ∧ (probed .time 7 8 {}).probing .sw 3 = true)
      ∧ (((probed .time 8 7 {}).getLink .sw 3).probesOk = 8 ∧ ((probed .time 8 7 {}).getLink .sw 3).partnerOk = 7 ∧ (probed .time 8 7 {}).probing .sw 3 = true)
      ∧ (theta 1000 1000 0 1000).natAbs * 1000000000 ≤ 2 * 2 ^ 32 ∧ ¬(theta 1000 1018 0 1000).natAbs * 1000000000 ≤ 2 * 2 ^ 32
      ∧ ((s.getLink .sw 3).state = .active ∧ (s.getClock .sw).source = some 3 ∧ ((s.getClock .sw).advert.get 3 {}).hops ≠ 0xFF)
      ∧ ((s.getClock .sw).valid = true ∧ (s.getClock .sw).holdover = false ∧ (s.getClock .sw).restep = false) ∧ (up.getClock .sw).source = none := by decide +kernel

theorem test_time_master_rows :
    let s := fun (c : Clock) => (up.onSys fun y => { y with rack := 1 }).onSw fun w => { w with clock := c }
    let holds : Clock := { master := 8 }
    let stands : Clock := { master := 0, standby := 8 }
    let waits : Clock := { master := 0, standby := 0x3FF, valid := true }
    ((s holds).sw.clock.master = (s holds).sw.sys.homeId ∧ (s holds).sw.clock.lost = false)
      ∧ ((s stands).sw.clock.master ≠ 8 ∧ (s stands).sw.clock.acting = false ∧ (s stands).sw.clock.standby = (s stands).sw.sys.homeId)
      ∧ ((s waits).sw.clock.standby = 0x3FF ∧ (s waits).sw.sys.homeId ≠ 0x3FF ∧ (s waits).sw.clock.valid = true) := by decide +kernel

/-- Edges of PPS_IN at a master before and after a whole second, less than a second after the last, a second after it, and the first. -/
theorem test_pps :
    let s := fun now edge => up.onSw fun w => { w with clock := { master := 0, pps := true, valid := true, now := now, ppsEdge := edge } }
    ((s 5 none).sw.isMaster && (s 5 none).sw.clock.pps) = true ∧ (up.sw.isMaster && up.sw.clock.pps) = false ∧ ((s 5 (some 0)).sw.clock.now : Int) < 0 + tSec
      ∧ (0 + tSec : Int) ≤ (s (tSec + 3) (some 0)).sw.clock.now ∧ (s 5 none).sw.clock.ppsEdge = none ∧ 0 < offSecond (tSec + 3) ∧ offSecond (2 * tSec - 3) < 0
      ∧ offSecond tSec = 0 ∧ (-200 : Int) ≤ (s 5 none).sw.clock.steer ∧ (s 5 none).sw.clock.steer ≤ 200 := by decide +kernel

theorem test_key_exchange_from_the_switch :
    let s := wired { state := .secure, xchg := some { stage := 1 }, attempts := 6 }
    let t := wired { state := .active, xchg := some { stage := 2 } }
    let r := wired (keyed {})
    s.initiates .sw 3 = true ∧ s.initiates .sw 56 = true ∧ lit.initiates .ep 2 = false ∧ (lit.getLink .ep 2).state = .active
      ∧ (s.getLink .sw 3).xchg = some { stage := 1 } ∧ (t.getLink .sw 3).xchg = some { stage := 2 } ∧ (s.getLink .sw 3).state = .secure
      ∧ (t.getLink .sw 3).state ≠ .secure ∧ (t.getLink .sw 3).state ≠ .fenced
      ∧ ((r.getLink .sw 3).state = .active ∧ (r.getLink .sw 3).xchg = none ∧ (r.getLink .sw 3).tx.retry = false ∧ (r.getLink .sw 3).tx.key.isSome = true)
      ∧ certOk {} [] = false := by decide +kernel

theorem test_rekeys :
    let s := wired { keyed {} with tx := { key := some { g := 1 }, retry := true } }
    let t := wired { state := .secure, attempts := 7 }
    let counted := fun n => wired { keyed {} with tx := { key := some { g := 1 }, counter := n } }
    let acked := fun st => ({ state := st, tx := { fin := some 4095, replay := [(4094, []), (4095, [])] } } : Link)
    (s.getLink .sw 3).tx.retry = true ∧ (s.getLink .sw 3).state = .active ∧ (t.getLink .sw 3).attempts = 7 ∧ (t.getLink .sw 3).tx.key = none
      ∧ (t.getLink .sw 3).xchg = none ∧ ((counted (2 ^ 39 - 1)).getLink .sw 3).tx.counter < 2 ^ 39 ∧ 2 ^ 39 ≤ ((counted (2 ^ 39)).getLink .sw 3).tx.counter
      ∧ ((counted (2 ^ 40 - 1)).getLink .sw 3).tx.counter < 2 ^ 40 ∧ 2 ^ 40 ≤ ((counted (2 ^ 40)).getLink .sw 3).tx.counter
      ∧ (∀ st, (acked st).tx.fin = some 4095 ∧ ((acked st).tx.replay.any fun x => x.1 == 4095) = true
          ∧ ((((acked st).tx.replay.dropWhile fun x => x.1 != 4095).drop 1).any fun x => x.1 == 4095) = false) := by
  and_intros <;> first | decide +kernel | exact fun _ => ⟨rfl, rfl, rfl⟩

theorem test_training :
    let s := wired { state := .detect, step := 0 }
    let i := wired { state := .identify, stored := some { partner := 7, res := { step := 3 } } }
    let out := lit.onLink .ep 2 fun l => { l with state := .fenced, fenceWhy := 2 }
    let fits : Identity := { part := 0x0008, homeId := 0x43, maxStep := 3, serial := 7 }
    let again : Identity := { fits with warm := true, storedPartner := i.sw.sys.serial }
    (s.getLink .sw 3).state = .detect ∧ (lit.ep.ucie ≠ []) ∧ (i.getLink .sw 3).state = .identify ∧ (i.identityFault .sw 3 { fits with part := 0x1234 }).isSome = true
      ∧ (i.identityFault .sw 3 fits = none ∧ fastPair (i.identityOf .sw 3) fits = false)
      ∧ (i.identityFault .sw 3 again = none ∧ fastPair (i.identityOf .sw 3) again = true ∧ (i.getLink .sw 3).stored.isSome = true)
      ∧ ((out.getLink .ep 2).state = .fenced ∧ (out.getLink .ep 2).fenceWhy ≠ 1 ∧ out.ep.ucie ≠ [])
      ∧ (s.getLink .sw 3).state.inTraining = false ∧ (i.getLink .sw 3).state.inTraining = true ∧ (s.getLink .sw 3).retry = false
      ∧ (s.getLink .sw 3).state ≠ .map := by decide +kernel

/-- Four lanes that agree, whatever the others brought, three that do, and a record whose CHECK fails. -/
theorem test_identity_copies :
    let r : Identity := { part := 0x0008, homeId := 0x43, maxStep := 3, serial := 7 }
    let b := identityBytes r
    recordOf [[], b, b, [1], b, b] = some r ∧ recordOf [b, b, b] = none ∧ recordOf (List.replicate 8 (b.set 2 1)) = none := by decide +kernel

theorem test_equalise_and_map :
    let e := fun n (l : List StepRes) => wired { state := .equalise, adaptive := true, step := n, partner := some { maxStep := 3 }, steps := l }
    let good : LaneReport := { figures := List.replicate 10 96, partner := List.replicate 10 96 }
    let poor : LaneReport := { figures := List.replicate 10 63, partner := List.replicate 10 63 }
    ((e 2 []).getLink .sw 3).state = .equalise ∧ ((e 2 []).sw.sys.cfg.port.get 3 {}).eqMode ≠ 1 ∧ (∀ i < 10, 96 ≤ good.figures.getD i 0 ∧ 96 ≤ good.partner.getD i 0)
      ∧ (∀ i < 10, poor.figures.getD i 0 < 64 ∧ poor.partner.getD i 0 < 64)
      ∧ ((e 2 []).getLink .sw 3).step < (e 2 []).targetStep .sw 3 ∧ (e 3 []).targetStep .sw 3 ≤ ((e 3 []).getLink .sw 3).step
      ∧ ((e 3 [{ step := 2 }]).getLink .sw 3).steps = [{ step := 2 }] ∧ ((e 3 []).getLink .sw 3).steps = []
      ∧ (let m : Link := { state := .map, fast := true }
         m.lanes.lowest poor.figures < 64 ∧ 64 ≤ m.lanes.lowest good.figures ∧ m.out.lowest poor.partner < 64 ∧ 64 ≤ m.out.lowest good.partner) := by decide +kernel

theorem test_lanes_in_service :
    let l : Link := { state := .active, step := 3 }
    let spent : Link := { l with fail := 1, jewel := 0, width := 2 }
    let waits : Link := { state := .down, retry := true }
    let hits := fun (l : Link) (lanes : List Nat) (out : Bool) => lanes.filter fun i => decide (i < 10) && !bit (if out then l.out else l.lanes).fail i
      && ((if out then l.out else l.lanes).inUse i || i == 8)
    let moved := fun m : Option (LaneMap × LaneMap) => m.map fun m => l.lanes.moves m.1 || l.out.moves m.2
    ((wired waits).getLink .sw 3).retry = true ∧ (wired waits).sw.sys.noCable.contains 3 = false
      ∧ (l.test = none ∧ l.changing = none ∧ hits l [0] false = [0] ∧ hits l [0] true = [0])
      ∧ (∀ out, moved (l.failLanes [0] out) = some true) ∧ (hits l [8] false = [8] ∧ moved (l.failLanes [8] false) = some false)
      ∧ (hits spent [5] false = [5] ∧ spent.failLanes [5] false = none ∧ l.failLanes [0, 7] false = none ∧ hits spent [0] false = [])
      ∧ ({ l with changing := some ({}, {}) } : Link).later = [] ∧ ({ l with changing := some ({}, {}) } : Link).changing.isSome = true
      ∧ (wired l).sw.sys.cfg.testHours = up.sw.sys.cfg.testHours
      ∧ ((wired l).sw.getLink 3).testable = true ∧ ((wired l).onSys fun y => { y with cfg := { y.cfg with testHours := 1 } }).sw.sys.cfg.testHours ≠ 0
      ∧ (let t : Link := { l with test := some { install := true, lane := 9 } }
         ((wired t).sw.getLink 3).test = some { install := true, lane := 9 } ∧ ((wired t).sw.getLink 3).state = .active) := by decide +kernel

theorem test_loss_and_cable :
    let woken := linked.onPower fun x => { x with dom := [(3, { state := 1 })] }
    let napping := lit.onLink .ep 2 fun l => { l with state := .nap }
    woken.sw.power.dom.find 3 = some { state := 1 } ∧ (napping.ep.getLink 2).state = .nap ∧ (lit.ep.getLink 2).state ≠ .nap ∧ (lit.ep.getLink 2).state ≠ .rest
      ∧ (linked.sw.getLink 3).state = .active ∧ (linked.sw.getLink 4).state ≠ .active ∧ lit.ep.portLive 2 = true ∧ lit.ep.portLive 1 = false
      ∧ (up.sw.getLink 3).state = .down ∧ up.sw.sys.phase = .running ∧ (up.onSys fun y => { y with configDefault := false }).sw.sys.configDefault = false := by
  decide +kernel

theorem test_pool_rows :
    let c := channelOf 0
    let draining := up.onMem fun m => { m with drainMask := some (5, 3) }
    let r : Rewrap := { partition := 1, fromSlot := 5, toSlot := 6, start := 0, length := 0x200000, rate := 16, cursor := 0x1FFF80 }
    let wraps := tenant.onMem fun m => { m with rewrap := [(7, r)] }
    (inPool 0 128 = true ∧ (up.sw.chan c).fenced = false ∧ (up.sw.chan c).resetting = false ∧ deviceOf 0 + 128 ≠ channelBytes)
      ∧ ((up.sw.mem.home.lines.get 0 {}).bad = false ∧ (up.sw.mem.home.lines.get 0 {}).check = none) ∧ ({ bad := true } : LineMeta).uncorrectable = true ∧ (∀ x ∈ up.sw.mem.cache, x.line ≠ 0)
      ∧ (up.sw.chan c).pageErrors.get (pageOf 0) 0 < 3 ∧ ¬(inPool (2 ^ 41) 128 = true) ∧ draining.sw.mem.drainMask = some (5, 3) ∧ up.sw.mem.drainMask = none
      ∧ wraps.sw.mem.rewrap.find 7 = some r ∧ r.done = false ∧ wraps.sw.busy (r.cursor / 128) = none ∧ up.sw.mem.rewrap.find 7 = none := by decide +kernel

/-- Partition 0's chain with staging full and the queue outside it full. -/
def crammed : State := tenant.onSw fun w => { w with ledger := [(0, { started := true, staged := stagingTotal })]
                                                     ledgerQueue := List.replicate 2048 (0, up.mkEntry 0x04 0 0x13 []) }

theorem test_kept_room : crammed.sw.takesKept 0 = false ∧ crammed.sw.startsFit = false ∧ tenant.sw.takesKept 0 = true ∧ up.sw.startsFit = true
    ∧ (crammed.sw.getSlot 5).state ≠ .retiring ∧ (∀ k < 32, (tenant.sw.getSlot k).state ≠ .retiring) := by decide +kernel

theorem test_key_slots_and_sram :
    let s := fun (k : KeySlot) => tenant.putSlot 5 k
    let q := up.onCore fun x => { x with queue := [(qKey 3 7, [{ f := ask 1 0 128, src := 3, at_ := 0, tile := 15, cells := 4 }])] }
    ((s { state := .retiring, counted := [(3, 0)] }).sw.getSlot 5).counted ≠ [] ∧ ((s { state := .retiring }).sw.getSlot 5).state = .retiring
      ∧ ((s { state := .retiring }).sw.getSlot 5).counted = [] ∧ ((s { state := .retiring }).sw.getSlot 5).lines = [] ∧ (tenant.sw.getSlot 5).state ≠ .retiring
      ∧ (up.onTeller fun t => { t with state := 1 }).sw.teller.state = 1 ∧ up.sw.teller.state ≠ 1
      ∧ (q.sw.core.lock.find 3 = none ∧ q.sw.core.waiting = [] ∧ (q.sw.core.queue.get (qKey 3 7) []).length = 1)
      ∧ (unitOfLine 0 = 0 ∧ ((shared { line := 0, state := .s, sharers := [0x43] }).sw.entry 0).isSome = true ∧ (shared { line := 0, state := .s }).sw.busy 0 = none) := by
  decide +kernel

/-- A line with check bytes that are its own has a correction: itself is one within no symbol of it. -/
theorem test_corrected_line : let zeros := List.replicate 128 (0 : Byte)
    ∃ d, ({ stored := zeros, check := some (Config.checkBytes zeros) } : LineMeta).fixed = some d := by
  intro zeros
  have same : withSymbol (withSymbol zeros 0 0) 0 0 = zeros := by decide +kernel
  have near : zeros ∈ nearLines zeros := by
    rw [nearLines]
    simp only [List.mem_flatMap, List.mem_map, List.mem_range]
    have symbol : 0 < 65536 := Nat.succ_pos _
    exact ⟨0, Nat.succ_pos _, 0, symbol, 0, Nat.succ_pos _, 0, symbol, same⟩
  have none_ : symbolErrors zeros (Config.checkBytes zeros) zeros ≤ 2 := by
    rw [symbolErrors]
    simp only [bne_self_eq_false, List.filter_false, List.length_nil]
    omega
  have found : (eccFix zeros (Config.checkBytes zeros)).isSome = true := by
    rw [eccFix, List.find?_isSome]
    exact ⟨zeros, near, decide_eq_true none_⟩
  simpa only [LineMeta.fixed, Option.bind_some] using Option.isSome_iff_exists.mp found

/-- The block in a phase of its start. -/
def at_ (p : Phase) : State := up.onSys fun y => { y with phase := p }

theorem test_starts :
    let low := fun p => (at_ p).onSys fun y => { y with rstN := false }
    (at_ .off).sw.sys.phase = .off ∧ (at_ .off).sw.sys.phase.deaf = true ∧ up.sw.sys.phase.deaf = false ∧ up.sw.sys.rstN = true
      ∧ ((low .running).sw.sys.rstN = false ∧ ∀ k, (low .running).sw.sys.phase ≠ .heldReset k) ∧ (low (.heldReset .cold)).sw.sys.phase = .heldReset .cold
      ∧ (low (.heldReset .warm)).sw.sys.phase = .heldReset .warm ∧ (at_ (.preStart .warm true)).sw.sys.phase = .preStart .warm true
      ∧ (low (.preStart .warm false)).sw.sys.rstN = false ∧ (at_ (.preStart .cold false)).sw.sys.rstN = true
      ∧ ((∀ n ∈ [1, 4, 5, 6, 7, 8, 9, 10], (at_ (.starting .cold n)).sw.sys.phase = .starting .cold n)
        ∧ (at_ (.starting .warm 9)).sw.sys.phase = .starting .warm 9 ∧ (at_ (.starting .warm 4)).sw.sys.pwrbrk = false) :=
  ⟨rfl, rfl, rfl, rfl, ⟨rfl, fun _ h => nomatch h⟩, rfl, rfl, rfl, rfl, rfl, by decide +kernel⟩

theorem test_start_steps :
    let good := (at_ (.starting .cold 5)).onSys fun y => { y with flash := { y.flash with slotA := some {}, slotB := some {} } }
    let blank := (at_ (.starting .cold 5)).onSys fun y => { y with flash := { y.flash with slotA := none, slotB := none } }
    let set := (at_ (.starting .cold 6)).onSys fun y => { y with flash := { y.flash with calValid := true } }
    good.sw.sys.accepts ((good.sw.sys.flash.best.map (·.vals.runSlot)).getD 0) = true ∧ blank.sw.sys.accepts 0 = false ∧ blank.sw.sys.accepts 1 = false
      ∧ (blank.sw.sys.flash.best.map (·.vals.runSlot)).getD 0 < 2 ∧ set.sw.sys.flash.calValid = true ∧ (set.onSys fun y => { y with flash := { y.flash with bookA := some { seq := 1, vals := y.cfg } } }).sw.sys.flash.best.isSome = true := by decide +kernel

theorem test_teller_and_manager :
    let back := up.onTeller fun t => { t with state := 1 }
    let third := up.onTeller fun t => { t with state := 1, fails := [0, 0] }
    let lost := up.onSys fun y => { y with managerLost := true }
    up.sw.teller.state = 0 ∧ back.sw.teller.state ≠ 0 ∧ back.sw.teller.state = 1 ∧ back.sw.sys.phase.serves = true
      ∧ ((back.onSys fun y => { y with phase := .tripHold }).sw.sys.phase.serves = true ∧ (back.onSys fun y => { y with phase := .off }).sw.sys.phase.serves = false)
      ∧ (back.now .sw :: back.sw.teller.fails.filter fun x => decide (back.now .sw < x + 10 * tSec)).length < 3
      ∧ 3 ≤ (third.now .sw :: third.sw.teller.fails.filter fun x => decide (third.now .sw < x + 10 * tSec)).length
      ∧ lost.sw.sys.managerLost = true ∧ up.sw.sys.managerLost = false := by decide +kernel

/-! ### The whole machine -/

theorem test_empty_queue : up.pending = [] ∧ State.reset.pending = [] := by decide +kernel

theorem test_front_of_the_queue : (match step (up.withFetchWord 32 5) with | .next t => t.sw.clock.now == up.sw.clock.now + 1024 | _ => false) = true
    ∧ (match step { up with pending := [.wholeSecond, .ppsIn] } with | .next t => t.pending == [.ppsIn] && t.out == [.pin .ppsOut true, .pin .ppsOut false] | _ => false) = true := by
  decide +kernel

theorem test_memory_form : MemoryOk State.reset ∧ MemoryOk (up.onHome fun h => { h with mem := [(0, 1), (127, 255)] })
    ∧ ¬MemoryOk (up.onHome fun h => { h with mem := [(1, 1), (0, 255)] }) ∧ ¬MemoryOk (up.onHome fun h => { h with mem := [(0, 0)] }) := by
  unfold MemoryOk; decide +kernel

theorem test_header_and_descriptor :
    let f : Frame := { dest := 1023, src := 1023, agent := 63, partition := 15, cls := 7, typ := 63, tag := 4095, f := true, keySlot := 31, inc := 15, offset := 2 ^ 42 - 1
                       age := 4095, length := 511, sparse := 65535, status := 15, opx := 0xFFFFFFF, ext := 0xFFFFFFFFFFFFFFFF }
    let d : Desc := { v := true, r := true, w := true, a := true, mode := 3, stripe := true, log := true, keySlot := 31, partition := 15, cvaBase := 2 ^ 56 - 2 ^ 21
                      fgaBase := 2 ^ 52 - 2 ^ 21, length := 2 ^ 35 - 1, context := 65535 }
    Frame.ofHeader f.headerBytes = f ∧ decodeDesc d.bytes = d ∧ d.cvaBase % 2 ^ 21 = 0 ∧ d.fgaBase % 2 ^ 21 = 0 := by decide +kernel

theorem test_refused_commands :
    let bad := boxed 0 up 0x0101 0 1 [0]
    let verify := boxed 0 up 0x0301 (2 ^ 0) 16 (le 8 0 ++ le 8 0x1000)
    (bad.sw.takes 0 0 = true ∧ (bad.sw.mailbox 0 0).seq ≠ (bad.sw.mailbox 0 0).lastSeq ∧ bad.sw.entryFull 0 = false)
      ∧ (devInfoForm.refusal (bad.sw.cmdOf 0 0 devInfoForm.len) (bad.dequeued 0 0) (bad.sw.mailbox 0 0).header.toNat).isSome = true
      ∧ bits (bad.sw.mailbox 0 0).header.toNat 0 16 = devInfoForm.opcode ∧ (verify.sw.mailbox 0 0).header.getLsbD 16 = true
      ∧ (boxed 0 up 0x0103 0 0 []).sw.takes 0 0 = true ∧ commandIndex.contains 0x0103 = false := by decide +kernel

/-- VERIFY of a SEG_TABLE_SET that no check refuses. -/
theorem test_verify :
    let s := boxed 0 up segTableSetForm.opcode 1 segTableSetForm.len (le 8 0 ++ le 8 0x1000)
    segTableSetForm.refusal (s.sw.cmdOf 0 0 segTableSetForm.len) (s.dequeued 0 0) (s.sw.mailbox 0 0).header.toNat = none
      ∧ bits (s.sw.mailbox 0 0).header.toNat 0 16 = segTableSetForm.opcode ∧ segTableSetForm.late = false ∧ s.sw.takes 0 0 = true := by decide +kernel

theorem test_repeated_seq :
    let again := fun op => (boxed 0 up op 0 0 []).onMailbox 0 0 fun m => { m with lastSeq := 1 }
    (again 0x0101).sw.takes 0 0 = true ∧ ((again 0x0101).sw.mailbox 0 0).seq = ((again 0x0101).sw.mailbox 0 0).lastSeq
      ∧ bits ((again 0x0101).sw.mailbox 0 0).header.toNat 0 16 = devInfoForm.opcode
      ∧ commandIndex.contains (bits ((again 0xFFFF).sw.mailbox 0 0).header.toNat 0 16) = false ∧ up.sw.sys.hostLink = true := by decide +kernel

theorem test_default_gate_list : (State.reset.getSched .sw).active = none ∧ (State.reset.getSched .ep).active = none ∧ up.sw.teller.heldVerdicts = [] ∧ up.sw.teller.owedVerdicts = []
    ∧ (∀ k < 32, (up.sw.getSlot k).timedOut = false) := by decide +kernel

/-- Every step number of an engine in the near-store mask makes scratch; a store of 256 bytes to its first. -/
theorem test_scratch_write :
    let s := tenant.onMem fun m => { m with mask := [(0, 1)] }
    let f := put 8 scratchBase 256
    inScratch f.offset f.length = true ∧ Open f s ∧ f.typ = 8 ∧ s.sw.mem.home.badWords = [] := by decide +kernel

/-! ### Ill-formed commands, one for each check -/

/-- A frame with one field too wide, for each field of R57. -/
def wide : List Frame :=
  [{ dest := 1024 }, { src := 1024 }, { agent := 64 }, { partition := 16 }, { cls := 8 }, { typ := 64 }, { tag := 4096 }, { keySlot := 32 }, { inc := 16 },
   { offset := 2 ^ 42 }, { age := 4096 }, { length := 257 }, { sparse := 65536 }, { status := 16 }, { length := 2, data := [0] }]

theorem test_ill_formed_frames : (∀ f ∈ wide, f.wf = false ∧ (Instr.read .sw 0 f).wf = false) ∧ ({} : Frame).wf = true := by decide +kernel

theorem test_ill_formed_records :
    (∀ r ∈ ([{ utag := 65536, length := 1 }, { agent := 64, length := 1 }, { cva := 2 ^ 64, length := 1 }, { length := 0 }, { length := 4097 }] : List Req), r.wf = false)
      ∧ (∀ c ∈ ([{ synd := 256 }, { cop := 256 }, { fmt := 256 }, { rop := 256 }, { root := 65536 }, { len := 2 ^ 64 }] : List CallRec), c.wf = false)
      ∧ (∀ r ∈ ([{ kind := 256 }, { region := 1440 }, { source := 64 }, { seq := 2 ^ 64 }, { line := 2 ^ 23 }, { data := [0] }] : List MirrorRec), r.wf = false) := by
  decide +kernel

theorem test_ill_formed_operands :
    (∀ i ∈ ([.devInfo 16 0, .devInfo 0 16, .devInfo 1 4, .commandCompletion 16 0 none, .registerWrite .sw 16 0 4 0, .registerWrite .sw 0 0 3 0,
        .epAgentBindWrite 64 0, .hostWindowRead 0 0 0 0, .hostWindowRead 0 0 0 4097, .hostWindowWrite 0 0 []] : List Instr), i.wf = false)
      ∧ (∀ i ∈ ([.mirrorLine 64 {}, .functionLevelReset 16, .frameArrival 64 {}, .gateEntryEnd .ep 8, .gateEntryEnd .sw 64, .lineOperation 16, .read .sw 65 {},
        .readRsp .sw 65 {}, .readRsp .ep 8 {}, .snoopRsp .sw 64 {}, .snoop 8 {}, .writeback 64 {}] : List Instr), i.wf = false)
      ∧ (∀ i ∈ ([.tableReadComplete 65536 [], .tableReadComplete 0 [], .tableReadTimeout 65536, .engineDrainTimeout (2 ^ 32), .completionTimeout .sw 0 (.flight 4096),
        .completionTimeout .ep 8 (.flight 0), .completionTimeout .ep 0 (.miss 0), .completionTimeout .sw 0 (.miss 48), .completionTimeout .sw 1 (.held 0), .coherenceAnswerTimeout .sw 0 576,
        .handoverTimeout .sw (2 ^ 21), .fence 64 0 .acquire .core, .call 64 0 {}, .memCpl 0 (List.replicate 257 0), .ucieModuleFail 8, .taskComplete 64 0]
        : List Instr), i.wf = false)
      ∧ (∀ i ∈ ([.taskComplete 0 256, .deadline 64, .admissionWaitExpiry 256, .suspectExpiry 576 0, .suspectExpiry 0 64, .inputAckTimeout 0 4096,
        .inputCopyWaitEnd 1024 0, .stagingRoom 16 0, .flitReceive .sw 0 [], .nak .sw 0 4096, .void .sw 0 256, .probeInfo .sw 0 256 0 true true true 0 0] : List Instr),
        i.wf = false)
      ∧ (∀ i ∈ ([.probeInfo .sw 0 0 4 true true true 0 0, .identityRecord .sw 0 [[]], .identityRecord .ep 8 [], .identityRecord .sw 0 (List.replicate 9 (List.replicate 32 0)),
        .laneFailed .sw 0 ⟨[0, 10], false⟩ .test, .laneTestEnd ⟨.ep, 0⟩ 10 ⟨0, 0⟩, .laneTestEnd ⟨.ep, 8⟩ 0 ⟨0, 0⟩, .periodicTestDue ⟨.sw, 64⟩, .periodicTestDue ⟨.ep, 8⟩, .resilverCopy 1440,
        .rewrapStep 8, .retirementCountZero 32, .idleHoldEnd 6 0, .idleHoldEnd 0 64] : List Instr), i.wf = false) := by decide +kernel

end Sys2Proof.Tests
end

/-!
PROOFS of the family 01_architecture: pace, heat and fabric time (O44, O46), after what the switch's upkeep leaves unchanged.
-/

namespace Sys2Proof.Machine

/-! ### What the switch's own upkeep leaves unchanged -/

/-- The links and the stores of both devices are as they were. -/
structure Untouched (s t : State) : Prop where
  swLink : t.sw.link = s.sw.link
  epLink : t.ep.link = s.ep.link
  swHome : t.sw.mem.home = s.sw.mem.home
  epHome : t.ep.home = s.ep.home

/-- So are their clocks. -/
structure Steady (s t : State) : Prop extends Untouched s t where
  swClock : t.sw.clock = s.sw.clock
  epClock : t.ep.clock = s.ep.clock

/-- The AKG-8 and the phase of the module are as they were, and what was sent stays sent. -/
structure Confined (s t : State) : Prop where
  ep : t.ep = s.ep
  phase : t.sw.sys.phase = s.sw.sys.phase
  thermTrip : t.sw.sys.thermTrip = s.sw.sys.thermTrip
  out : s.out <+: t.out

/-- The switch goes on with its own work: frames, reports, the book and the schedule. -/
structure Upkeep (s t : State) : Prop extends Confined s t where
  link : t.sw.link = s.sw.link
  clock : t.sw.clock = s.sw.clock
  home : t.sw.mem.home = s.sw.mem.home

theorem Untouched.trans {s t u : State} (h : Untouched s t) (k : Untouched t u) : Untouched s u :=
  ⟨k.swLink.trans h.swLink, k.epLink.trans h.epLink, k.swHome.trans h.swHome, k.epHome.trans h.epHome⟩

theorem Steady.refl (s : State) : Steady s s := ⟨⟨rfl, rfl, rfl, rfl⟩, rfl, rfl⟩

theorem Steady.trans {s t u : State} (h : Steady s t) (k : Steady t u) : Steady s u :=
  ⟨h.toUntouched.trans k.toUntouched, k.swClock.trans h.swClock, k.epClock.trans h.epClock⟩

theorem Confined.refl (s : State) : Confined s s := ⟨rfl, rfl, rfl, List.prefix_refl _⟩

theorem Confined.trans {s t u : State} (h : Confined s t) (k : Confined t u) : Confined s u :=
  ⟨k.ep.trans h.ep, k.phase.trans h.phase, k.thermTrip.trans h.thermTrip, h.out.trans k.out⟩

/-- A change of the switch that sends nothing and leaves its links, clock, home and phase. -/
theorem Upkeep.quiet {s t : State} (he : t.ep = s.ep := by rfl) (hs : t.sw.sys = s.sw.sys := by rfl) (ho : t.out = s.out := by rfl)
    (hl : t.sw.link = s.sw.link := by rfl) (hc : t.sw.clock = s.sw.clock := by rfl) (hh : t.sw.mem.home = s.sw.mem.home := by rfl) : Upkeep s t :=
  ⟨⟨he, by rw [hs], by rw [hs], by rw [ho]⟩, hl, hc, hh⟩

theorem Upkeep.refl (s : State) : Upkeep s s := .quiet

theorem Upkeep.trans {s t u : State} (h : Upkeep s t) (k : Upkeep t u) : Upkeep s u :=
  ⟨h.toConfined.trans k.toConfined, k.link.trans h.link, k.clock.trans h.clock, k.home.trans h.home⟩

theorem Upkeep.of_ite {s t u : State} {c : Prop} [Decidable c] (ht : Upkeep s t) (hu : Upkeep s u) : Upkeep s (if c then t else u) := by
  split <;> assumption

theorem Upkeep.steady {s t : State} (h : Upkeep s t) : Steady s t := by
  obtain ⟨⟨he, -, -, -⟩, hl, hc, hh⟩ := h
  exact ⟨⟨hl, by rw [he], hh, by rw [he]⟩, hc, by rw [he]⟩

/-- A property that every step of a loop keeps holds after the loop. -/
theorem State.each_keeps {α : Type} {P : State → Prop} {l : List α} {g : State → α → State} {s : State} (hs : P s)
    (hg : ∀ u, P u → ∀ a, P (g u a)) : P (s.each l g) :=
  List.foldlRecOn l g hs fun u hu a _ => hg u hu a

theorem Upkeep.each {α : Type} {l : List α} {g : State → α → State} {s : State} (hg : ∀ u a, Upkeep u (g u a)) : Upkeep s (s.each l g) :=
  State.each_keeps (Upkeep.refl s) fun u hu a => hu.trans (hg u a)

theorem Confined.each {α : Type} {l : List α} {g : State → α → State} {s : State} (hg : ∀ u a, Confined u (g u a)) : Confined s (s.each l g) :=
  State.each_keeps (Confined.refl s) fun u hu a => hu.trans (hg u a)

theorem SentFrame.upkeep {s t : State} (h : SentFrame s t) : Upkeep s t := by
  obtain ⟨hs, hc, hl, hm, -, -, -, -, -, -, -, -, he, -, -⟩ := h.fields
  exact ⟨⟨he, by rw [hs], by rw [hs], h.2⟩, hl, hc, by rw [hm]⟩

theorem ReportFrame.upkeep {s t : State} (h : ReportFrame s t) : Upkeep s t := by
  obtain ⟨-, -, -, hm, -, -, -, hc, hl, -, -, -, -, he, -, -⟩ := h.fields
  have hs : t.sw.sys.phase = s.sw.sys.phase ∧ t.sw.sys.thermTrip = s.sw.sys.thermTrip := by
    rw [h.1]
    exact ⟨rfl, rfl⟩
  exact ⟨⟨he, hs.1, hs.2, h.2⟩, hl, hc, by rw [hm]⟩

/-! ### Books and needs (11 R306 to R308) -/

theorem State.takeBook_upkeep (s : State) (b : Nat) : Upkeep s (s.takeBook .sw b) := by
  unfold State.takeBook
  exact .of_ite (.refl s) (Upkeep.trans .quiet (State.setEvent_report _ _).upkeep)

theorem State.mgmtOut_upkeep (s : State) (p msub tag : Nat) (data : List Byte) : Upkeep s (s.mgmtOut .sw p msub tag data) :=
  (State.swSendPort_sent _ _ _ _).upkeep

theorem State.sendBookSet_upkeep (s : State) (p : Nat) (c : BookChange) (n : Nat) : Upkeep s (s.sendBookSet .sw p c n) :=
  Upkeep.trans .quiet (State.mgmtOut_upkeep _ _ _ _ _)

theorem State.changeBook_upkeep (s : State) (b : Nat) : Upkeep s (s.changeBook b) := by
  unfold State.changeBook
  refine Upkeep.trans ?_ (.each fun u p => State.sendBookSet_upkeep u p _ 1)
  exact .of_ite (Upkeep.trans .quiet (State.takeBook_upkeep _ b)) .quiet

theorem State.decideBook_upkeep (s : State) (held : Bool) : Upkeep s (s.decideBook held) := by
  unfold State.decideBook
  exact .of_ite (.refl s) (.of_ite (State.changeBook_upkeep s _) (.refl s))

theorem State.noteReport_upkeep (s : State) (sender : Nat) (slow narrow : Bool) : Upkeep s (s.noteReport sender slow narrow) :=
  Upkeep.trans .quiet (State.decideBook_upkeep _ false)

theorem State.flood_upkeep (s : State) (came : Option Nat) (msub : Nat) (data : List Byte) : Upkeep s (s.flood .sw came msub data) := by
  unfold State.flood State.floodPast
  exact .of_ite (.refl s) (Upkeep.trans .quiet (.each fun u p => State.mgmtOut_upkeep u p msub 0 data))

theorem State.reportNeeds_upkeep (s : State) : Upkeep s s.reportNeeds := by
  unfold State.reportNeeds
  exact .of_ite (State.noteReport_upkeep s _ _ _) ((State.noteReport_upkeep s _ _ _).trans (State.flood_upkeep _ _ _ _))

theorem State.refreshNarrow_upkeep (s : State) : Upkeep s s.refreshNarrow := by
  unfold State.refreshNarrow
  exact .of_ite (.refl s) (Upkeep.trans .quiet (State.reportNeeds_upkeep _))

/-! ### A port's link and the frames of its queues (13 R339, R345, R348) -/

/-- The link is replaced; what follows from its state is upkeep. -/
theorem State.setPort_upkeep (s : State) (p : Nat) (l : Link) : Upkeep (s.putLink .sw p l) (s.setPort p l) := by
  unfold State.setPort
  refine Upkeep.trans ?_ (State.refreshNarrow_upkeep _)
  have h : Upkeep (s.putLink .sw p l)
      (if (s.sw.getLink p).state ≠ l.state ∨ (l.changed ∧ ¬(s.sw.getLink p).changed) then (s.putLink .sw p l).setEvent evPort else s.putLink .sw p l) :=
    .of_ite (State.setEvent_report _ _).upkeep (.refl _)
  exact .of_ite (h.trans .quiet) h

theorem State.endCut_upkeep (s : State) (o : Nat) : Upkeep s (s.endCut o) := by
  unfold State.endCut
  split
  · exact .refl s
  · exact Upkeep.trans .quiet (State.freeCells_sent _ _).upkeep

theorem State.voidOut_upkeep (s : State) (o reason : Nat) : Upkeep s (s.voidOut o reason) := by
  unfold State.voidOut
  have h : Upkeep s ((s.endCut o).onSw fun w => { w with core := { w.core with lock := w.core.lock.del o } }) := (State.endCut_upkeep s o).trans .quiet
  exact .of_ite (h.trans (State.emit_sent _ _).upkeep) h

theorem State.voidFrames_upkeep (s : State) (p : Nat) (sel : Buffered → Bool) (reason : Nat) : Upkeep s (s.voidFrames p sel reason) := by
  unfold State.voidFrames
  refine Upkeep.trans ?_ (.each fun u o => State.voidOut_upkeep u o reason)
  exact Upkeep.trans .quiet (.each fun u b => (State.freeCells_sent u b).upkeep)

theorem State.cutOpen_upkeep (s : State) (p reason : Nat) : Upkeep s (s.cutOpen p reason) := State.voidFrames_upkeep s p _ reason

theorem State.voidFree_upkeep (s : State) (o : Nat) : Upkeep s (s.voidFree o) := by
  unfold State.voidFree
  exact .of_ite (Upkeep.trans .quiet (State.voidOut_upkeep _ _ _)) (.refl s)

theorem State.uncount_upkeep (s : State) (f : Frame) : Upkeep s (s.uncount f) := by
  unfold State.uncount
  exact .of_ite .quiet (.refl s)

theorem State.answerFor_upkeep (s : State) (f : Frame) (status : Nat) : Upkeep s (s.answerFor f status) := by
  unfold State.answerFor
  split
  · dsimp only
    split
    · exact State.uncount_upkeep s f
    · exact (State.uncount_upkeep s f).trans (State.enqueue_sent _ _ _ _).upkeep
  · exact .refl s

theorem State.answerIn_upkeep (s : State) (b : Buffered) (status : Nat) : Upkeep s (s.answerIn b status) := by
  unfold State.answerIn
  split
  · dsimp only
    split
    · exact (State.uncount_upkeep s b.f).trans (State.freeCells_sent _ _).upkeep
    · exact (State.uncount_upkeep s b.f).trans (((State.freeCells_sent _ _).trans (State.join_sent _ _ _)).upkeep)
  · exact (State.freeCells_sent s b).upkeep

theorem State.discard_upkeep (s : State) (f : Frame) (status : Nat) : Upkeep s (s.discard f status) := by
  unfold State.discard
  exact .of_ite (State.swSend_sent _ _ _).upkeep (State.answerFor_upkeep s f status)

theorem State.discardIn_upkeep (s : State) (b : Buffered) (status : Nat) : Upkeep s (s.discardIn b status) := by
  unfold State.discardIn
  exact .of_ite ((State.freeCells_sent s b).trans (State.swSend_sent _ _ _)).upkeep (State.answerIn_upkeep s b status)

theorem State.discardQueues_upkeep (s : State) (p : Nat) : Upkeep s (s.discardQueues p) := by
  unfold State.discardQueues
  refine Upkeep.trans ?_ (.each fun u f => Upkeep.trans .quiet (State.discard_upkeep _ f _))
  refine Upkeep.trans ((State.voidFree_upkeep s p).trans .quiet) (.each fun u k => ?_)
  exact Upkeep.trans .quiet (.each fun v b => Upkeep.trans .quiet (State.discardIn_upkeep _ b _))

/-- A port's change of link changes nothing of the AKG-8 and of the module's phase. -/
theorem State.onPort_confined (s : State) (p : Nat) (g : Link → Link) : Confined s (s.onPort p g) := by
  have h : Confined s (s.putLink .sw p (g (s.sw.getLink p))) := ⟨rfl, rfl, rfl, List.prefix_refl _⟩
  exact h.trans (State.setPort_upkeep s p _).toConfined

/-- Nor does a change of the switch that leaves its identity and phase. -/
theorem Confined.onSw {s t : State} (h : Confined s t) {g : Switch → Switch} (hg : ∀ w, (g w).sys = w.sys) : Confined s (t.onSw g) :=
  h.trans ⟨rfl, congrArg Sys.phase (hg _), congrArg Sys.thermTrip (hg _), List.prefix_refl _⟩

/-- Nor does a port that leaves service. -/
theorem State.leavePort_confined (s : State) (p : Nat) (st : PortState) (why : Nat) : Confined s (s.leavePort p st why) := by
  unfold State.leavePort
  exact Confined.onSw ((State.onPort_confined s p _).trans ((State.cutOpen_upkeep _ p 1).trans (State.discardQueues_upkeep _ p)).toConfined) fun _ => rfl

/-! ### Pace and the brake (20 R493 to R497, 24 R574) -/

/-- A sample within P_ceil and 1.60 notes nothing. -/
theorem State.balance_within {s : State} {l : List Nat} (hp : l.foldl max 0 ≤ 160) (hc : l.foldl max 0 ≤ s.sw.sys.cfg.ceil) :
    s.balance l = s.onPower fun x => { x with p := l.foldl max 0, pMax := max x.pMax (l.foldl max 0), balance := l, paceOver := false } := by
  unfold State.balance
  simp [Nat.not_lt.mpr hc, Nat.not_lt.mpr hp]
  rfl

/-- The voltage asked for, within its bounds, and what announces it. -/
theorem State.setVoltage_sw (s : State) (mV : Nat) :
    s.setVoltage .sw mV = { s with sw := { s.sw with power := { s.sw.power with mV := max 600 (min 900 mV) } }, out := (s.setVoltage .sw mV).out }
      ∧ s.out <+: (s.setVoltage .sw mV).out := by
  unfold State.setVoltage
  dsimp only
  split
  · next h => exact ⟨by rw [← h], List.prefix_refl _⟩
  · exact ⟨rfl, List.prefix_append _ _⟩

theorem State.setVoltage_ep (s : State) (mV : Nat) :
    s.setVoltage .ep mV = { s with ep := { s.ep with mV := max 600 (min 900 mV) }, out := (s.setVoltage .ep mV).out }
      ∧ s.out <+: (s.setVoltage .ep mV).out := by
  unfold State.setVoltage
  dsimp only
  split
  · next h => exact ⟨by rw [← h], List.prefix_refl _⟩
  · exact ⟨rfl, List.prefix_append _ _⟩

/-- At or above LIMIT, with P below P_ceil and no brake, the regulator lowers the voltage by 5 mV. -/
theorem State.regulate_high {s : State} {n : Nat} (hl : s.sw.limit ≤ n) (hb : s.sw.sys.pwrbrk = false) (hp : s.sw.power.p < s.sw.sys.cfg.ceil) :
    s.regulate n = ((s.onPower fun x => { x with watts := n, samples := (n :: x.samples).take 1000 }).setVoltage .sw (s.sw.power.mV - 5)).onPower
      fun x => { x with lowTicks := 0 } := by
  have hlim : s.sw.limit = s.sw.sys.cfg.limit - 20 * s.sw.power.throttle := by simp [Switch.limit, hb]
  rw [hlim] at hl
  have hn : ¬ n + 20 < s.sw.sys.cfg.limit - 20 * s.sw.power.throttle := by omega
  unfold State.regulate
  simp [Switch.limit, hb, hl, hp, hn]

/-- From 20 W below LIMIT up to LIMIT, with P within 0.01 of P_target, it only notes the power. -/
theorem State.regulate_between {s : State} {n : Nat} (hl : n < s.sw.limit) (hn : s.sw.limit ≤ n + 20) (hb : s.sw.sys.pwrbrk = false)
    (hp : s.sw.power.p ≤ s.sw.sys.cfg.target + 1) (ht : s.sw.sys.cfg.target ≤ s.sw.power.p + 1) :
    s.regulate n = s.onPower fun x => { x with watts := n, samples := (n :: x.samples).take 1000, lowTicks := 0 } := by
  have hlim : s.sw.limit = s.sw.sys.cfg.limit - 20 * s.sw.power.throttle := by simp [Switch.limit, hb]
  rw [hlim] at hl hn
  unfold State.regulate
  simp [Switch.limit, hb, Nat.not_le.mpr hl, Nat.not_lt.mpr hn, Nat.not_lt.mpr hp, Nat.not_lt.mpr ht]
  rfl

theorem State.epRegulate_high {s : State} {n : Nat} (hl : s.ep.powerLimit ≤ n) (hp : s.ep.p < s.ep.ceil) :
    s.epRegulate n = s.setVoltage .ep (s.ep.mV - 5) := by
  unfold State.epRegulate
  simp [hl, hp]

/-- Only the voltage, what announces it and the count of free values change: the voltage does not rise, nor fall below 0.60 V. -/
theorem State.lowerAtOnce_voltage {s : State} (hlo : 600 ≤ s.sw.power.mV) (hhi : s.sw.power.mV ≤ 900) :
    s.lowerAtOnce.sw.sys = s.sw.sys ∧ s.lowerAtOnce.sw.power = { s.sw.power with mV := s.lowerAtOnce.sw.power.mV }
      ∧ 600 ≤ s.lowerAtOnce.sw.power.mV ∧ s.lowerAtOnce.sw.power.mV ≤ s.sw.power.mV ∧ s.lowerAtOnce.ep = s.ep := by
  unfold State.lowerAtOnce
  dsimp only
  generalize hf : max 600 (min brakeFloor (s.free.2).sw.power.mV) = floor
  have hfloor : floor ≤ s.sw.power.mV := by
    rw [← hf, State.free_snd_sw]
    omega
  have hmod : s.free.1 % ((s.free.2).sw.power.mV - floor + 1) < s.sw.power.mV - floor + 1 := Nat.mod_lt _ (Nat.succ_pos _)
  rw [(State.setVoltage_sw _ _).1]
  refine ⟨rfl, rfl, ?_, ?_, rfl⟩
  · exact Nat.le_max_left _ _
  · show max 600 (min 900 _) ≤ s.sw.power.mV
    omega

@[simp] theorem State.msix_sys (s : State) (fn vec : Nat) : (s.msix fn vec).sw.sys = s.sw.sys := by
  unfold State.msix
  dsimp only
  split
  · rfl
  · split <;> rfl

@[simp] theorem State.setEvent_sys (s : State) (b : Nat) : (s.setEvent b).sw.sys = s.sw.sys := by
  unfold State.setEvent
  split
  · rfl
  · exact State.msix_sys _ _ _

/-- The brake sets its event, and above the brake level the voltage falls at once. -/
theorem State.brakeNow_voltage {s : State} (hlo : 600 ≤ s.sw.power.mV) (hhi : s.sw.power.mV ≤ 900) :
    s.brakeNow.sw.sys = s.sw.sys ∧ s.brakeNow.sw.power = { s.sw.power with mV := s.brakeNow.sw.power.mV }
      ∧ 600 ≤ s.brakeNow.sw.power.mV ∧ s.brakeNow.sw.power.mV ≤ s.sw.power.mV ∧ s.brakeNow.ep = s.ep := by
  obtain ⟨hpw, he⟩ : (s.setEvent evPower).sw.power = s.sw.power ∧ (s.setEvent evPower).ep = s.ep := by
    obtain ⟨-, -, -, -, -, -, -, -, -, -, -, -, hpw, he, -, -⟩ := (State.setEvent_report s evPower).fields
    exact ⟨hpw, he⟩
  have hsys := State.setEvent_sys s evPower
  unfold State.brakeNow
  dsimp only
  split
  · rw [hsys, hpw, he]
    exact ⟨rfl, rfl, hlo, Nat.le_refl _, rfl⟩
  · rw [← hsys, ← hpw, ← he]
    exact State.lowerAtOnce_voltage (by rwa [hpw]) (by rwa [hpw])

/-- PWRBRK_N before step 7 of a start is noted and no more (25 R583). -/
theorem State.brake_early {s : State} {k : StartKind} {m : Nat} (hm : m < 7) (hb : s.sw.sys.pwrbrk = false) (hs : s.sw.sys.phase = .starting k m) :
    s.brake = s.onSys fun y => { y with pwrbrk := true } := by
  have hn : s.sw.sys.phase.brakes = false := by simp [hs, Phase.brakes, hm]
  unfold State.brake
  simp [hb, hn]
  rfl

/-- PWRBRK_N brakes where it is honoured. -/
theorem State.brake_honoured {s : State} (hb : s.sw.sys.pwrbrk = false) (hp : s.sw.sys.phase.brakes = true) :
    s.brake = (s.onSys fun y => { y with pwrbrk := true }).brakeNow := by
  unfold State.brake
  simp [hb, hp]
  rfl

/-- At or below the brake level the brake is only reported. -/
theorem State.brakeNow_low {s : State} (h : s.sw.power.watts ≤ s.sw.sys.cfg.brake) : s.brakeNow = s.setEvent 4 := by
  obtain ⟨-, -, -, -, -, -, -, -, -, -, -, -, hpw, -⟩ := (State.setEvent_report s evPower).fields
  unfold State.brakeNow
  dsimp only
  rw [hpw, State.setEvent_sys, if_pos h]
  rfl

/-! ### Heat (20 R497, R498; 24 R575) -/

/-- A junction from 95 °C on throttles by its degrees above 94. -/
theorem State.throttleAt_hot {s : State} {n : Nat} (hn : 95 ≤ n) :
    s.throttleAt n = if s.sw.power.throttle = 0 then
        ((s.onPower fun x => { x with throttle := n - 94 }).record { kind := 0x82, domain := 8 }).setEvent 4
      else s.onPower fun x => { x with throttle := n - 94 } := by
  unfold State.throttleAt
  simp [Nat.not_lt.mpr hn]
  rfl

theorem State.takeQueuedEntries_report (p fuel : Nat) : ∀ s : State, ReportFrame s (s.takeQueuedEntries p fuel) := by
  induction fuel with
  | zero => exact ReportFrame.refl
  | succ n ih =>
    intro s
    unfold State.takeQueuedEntries
    split
    · exact .refl s
    · exact .of_ite (ReportFrame.trans (ReportFrame.trans (.quiet rfl) (State.ledgerPut_report _ _ _)) (ih _)) (.refl s)

theorem State.flushLedger_report (s : State) (p : Nat) : ReportFrame s (s.flushLedger p) :=
  ((State.putLedger_report s p _).trans (State.takeQueuedEntries_report p 2048 _)).trans (State.putLedger_report _ p _)

theorem State.sealAll_report (s : State) : ReportFrame s s.sealAll :=
  State.each_keeps (ReportFrame.refl s) fun u hu p =>
    hu.trans (((State.flushLedger_report u p).trans (State.ledgerSeal_report _ p)).trans (State.flushLedger_report _ p))

/-- A loop over the first n domains of a kind that puts each in a state leaves them in it, and every other domain as it was. -/
theorem State.each_domains {kind v : Nat} {g : State → Nat → State}
    (hg : ∀ u i, ∃ d : Domain, d.state = v ∧ (g u i).sw.power.dom = u.sw.power.dom.put (kind * 64 + i) d) (s : State) (n : Nat) :
    (∀ i < n, ((s.each (List.range n) g).sw.domain kind i).state = v)
      ∧ ∀ k, (∀ i < n, k ≠ kind * 64 + i) → (s.each (List.range n) g).sw.power.dom.get k {} = s.sw.power.dom.get k {} := by
  induction n with
  | zero => exact ⟨nofun, fun _ _ => rfl⟩
  | succ n ih =>
    obtain ⟨hin, hout⟩ := ih
    obtain ⟨d, hd, hdom⟩ := hg (s.each (List.range n) g) n
    have hlast : s.each (List.range (n + 1)) g = g (s.each (List.range n) g) n := by simp [State.each, List.range_succ]
    rw [hlast]
    unfold Switch.domain at hin ⊢
    rw [hdom]
    refine ⟨fun i hi => ?_, fun k hk => ?_⟩
    · rcases Nat.lt_succ_iff_lt_or_eq.mp hi with h | rfl
      · rw [Tab.get_put_ne _ _ _ _ _ (by omega)]
        exact hin i h
      · rw [Tab.get_put_self, hd]
    · rw [Tab.get_put_ne _ _ _ _ _ (hk n (Nat.lt_succ_self n))]
      exact hout k fun i hi => hk i (Nat.lt_succ_of_lt hi)

/-- A thermal trip puts domain i of a kind in its deepest state, and what that loses is lost. -/
def State.restDomain (kind : Nat) (s : State) (i : Nat) : State :=
  (if kind = 1 then s.onXlat fun x => { x with l1 := x.l1.del i } else if kind = 3 then s.loseBank i else s).onDomain kind i
    fun d => { d with state := min pwRest (deepestOf kind), entering := none, exiting := none }

theorem State.restDomain_dom (kind : Nat) (s : State) (i : Nat) :
    ∃ d : Domain, d.state = min pwRest (deepestOf kind) ∧ (s.restDomain kind i).sw.power.dom = s.sw.power.dom.put (kind * 64 + i) d := by
  unfold State.restDomain
  split
  · exact ⟨_, rfl, rfl⟩
  · split
    · exact ⟨_, rfl, rfl⟩
    · exact ⟨_, rfl, rfl⟩

theorem State.restDomain_confined (kind : Nat) (s : State) (i : Nat) : Confined s (s.restDomain kind i) := by
  unfold State.restDomain
  split
  · exact ⟨rfl, rfl, rfl, List.prefix_refl _⟩
  · split
    · exact ⟨rfl, rfl, rfl, List.prefix_refl _⟩
    · exact ⟨rfl, rfl, rfl, List.prefix_refl _⟩

/-- A thermal trip puts a port's domain in REST. -/
def State.restPort (s : State) (p : Nat) : State := s.onDomain 0 p fun d => { d with state := pwRest, entering := none, exiting := none }

/-- A thermal trip puts a channel in self-refresh. -/
def State.refreshChannel (s : State) (c : Nat) : State := s.onDomain 2 c fun d => { d with state := pwNap, entering := none, exiting := none }

/-- A trip has asserted THERMTRIP_N, recorded itself, sealed the Ledgers and put every port that is not down in REST. -/
def State.tripped (s : State) : State :=
  let u := (((s.onSw fun w => { w with sys := { w.sys with thermTrip := true, phase := .tripHold } }).emit (.pin .thermTripN false)).record
    { kind := fThermalTrip, domain := 8 }).sealAll
  u.each ports64 fun s p => if (s.sw.getLink p).state = .down then s else s.leavePort p .rest 0

theorem State.trip_running {s : State} (h : s.sw.sys.phase = .running) :
    s.trip = (((((s.tripped.each (List.range 48) (State.restDomain 1)).each (List.range 6) (State.restDomain 3)).each (List.range 16)
      (State.restDomain 4)).each (List.range 64) State.restPort).each (List.range 24) State.refreshChannel).refreshAlert := by
  unfold State.trip
  rw [if_neg (by simp [h])]
  simp only [State.each, List.foldl_cons, List.foldl_nil, State.selfRefresh]
  rfl

theorem State.tripped_confined (s : State) :
    Confined ((s.onSw fun w => { w with sys := { w.sys with thermTrip := true, phase := .tripHold } }).emit (.pin .thermTripN false)) s.tripped :=
  (((State.record_report _ _).trans (State.sealAll_report _)).upkeep.toConfined).trans
    (State.each_keeps (Confined.refl _) fun u hu p => hu.trans (by
      split
      · exact .refl u
      · exact State.leavePort_confined u p .rest 0))

/-- A thermal trip asserts THERMTRIP_N, holds the phase, and leaves the AKG-8. -/
theorem State.trip_confined {s : State} (h : s.sw.sys.phase = .running) :
    Confined ((s.onSw fun w => { w with sys := { w.sys with thermTrip := true, phase := .tripHold } }).emit (.pin .thermTripN false)) s.trip := by
  rw [State.trip_running h]
  have hdomain (k : Nat) (s : State) (n : Nat) : Confined s (s.each (List.range n) (State.restDomain k)) := .each (State.restDomain_confined k)
  refine Confined.trans ?_ (State.refreshAlert_report _).upkeep.toConfined
  refine Confined.trans ?_ (.each fun u c => ⟨rfl, rfl, rfl, List.prefix_refl _⟩)
  refine Confined.trans ?_ (.each fun u p => ⟨rfl, rfl, rfl, List.prefix_refl _⟩)
  exact (((State.tripped_confined s).trans (hdomain 1 _ 48)).trans (hdomain 3 _ 6)).trans (hdomain 4 _ 16)

/-- After a thermal trip every engine is in REST and every channel in self-refresh. -/
theorem State.trip_domains {s : State} (h : s.sw.sys.phase = .running) :
    (∀ e < 48, (s.trip.sw.domain 1 e).state = 3) ∧ ∀ c < 24, (s.trip.sw.domain 2 c).state = 2 := by
  have hport (u : State) (p : Nat) : ∃ d : Domain, d.state = 3 ∧ (u.restPort p).sw.power.dom = u.sw.power.dom.put (0 * 64 + p) d := ⟨_, rfl, rfl⟩
  have hchan (u : State) (c : Nat) : ∃ d : Domain, d.state = 2 ∧ (u.refreshChannel c).sw.power.dom = u.sw.power.dom.put (2 * 64 + c) d := ⟨_, rfl, rfl⟩
  have hpower (u : State) : u.refreshAlert.sw.power = u.sw.power := by
    obtain ⟨-, -, -, -, -, -, -, -, -, -, -, -, hp, -⟩ := (State.refreshAlert_report u).fields
    exact hp
  rw [State.trip_running h]
  unfold Switch.domain
  rw [hpower]
  refine ⟨fun e he => ?_, (State.each_domains hchan _ 24).1⟩
  rw [(State.each_domains hchan _ 24).2 _ (by omega), (State.each_domains hport _ 64).2 _ (by omega),
    (State.each_domains (State.restDomain_dom 4) _ 16).2 _ (by omega), (State.each_domains (State.restDomain_dom 3) _ 6).2 _ (by omega)]
  exact (State.each_domains (State.restDomain_dom 1) _ 48).1 e he

theorem State.refreshAlert_sys (s : State) : s.refreshAlert.sw.sys = { s.sw.sys with alert := s.refreshAlert.sw.sys.alert } := by
  unfold State.refreshAlert
  dsimp only
  split <;> rfl

/-- The hold ends: the module is off, its host link down and THERMTRIP_N released; the stores and the AKG-8 are as they were. -/
theorem State.turnOff_off (s : State) :
    s.turnOff.sw.sys.phase = .off ∧ s.turnOff.sw.sys.hostLink = false ∧ s.turnOff.sw.sys.thermTrip = false ∧ s.turnOff.sw.mem = s.sw.mem
      ∧ s.turnOff.ep = s.ep := by
  have hoff (u : State) (ht : u.sw.sys.thermTrip = false) :
      let t := (u.onSw fun w => { w with sys := { w.sys with phase := .off, hostLink := false } }).refreshAlert
      t.sw.sys.phase = .off ∧ t.sw.sys.hostLink = false ∧ t.sw.sys.thermTrip = false ∧ t.sw.mem = u.sw.mem ∧ t.ep = u.ep := by
    obtain ⟨-, -, -, hm, -, -, -, -, -, -, -, -, -, he, -, -⟩ :=
      (State.refreshAlert_report (u.onSw fun w => { w with sys := { w.sys with phase := .off, hostLink := false } })).fields
    dsimp only
    rw [State.refreshAlert_sys, hm, he]
    exact ⟨rfl, rfl, ht, rfl, rfl⟩
  unfold State.turnOff
  dsimp only
  split
  · exact hoff _ rfl
  · next h => exact hoff s (by simpa using h)

/-- An event of the AKG-8 drives EP_ALERT_N, and nothing else changes. -/
theorem State.epEvent_alerts (s : State) (b : Nat) :
    (s.epEvent b).sw = s.sw ∧ (s.epEvent b).ep = { s.ep with event := (s.epEvent b).ep.event, alert := (s.epEvent b).ep.alert } := by
  unfold State.epEvent State.epAlert
  dsimp only
  split <;> exact ⟨rfl, rfl⟩

/-- A junction of the AKG-8 at 95 °C or more and below the trip lowers its power limit. -/
theorem State.endpointThermal_warm {s : State} {n : Nat} (hlo : 95 ≤ n) (hhi : n < 110) :
    s.endpointThermal n = (s.onEp fun e => { e with powerLimit := 46 - 2 * (n - 94) }).epEvent 4 := by
  unfold State.endpointThermal
  rw [if_neg (Nat.not_lt.mpr hlo)]
  dsimp only
  rw [if_neg (fun h => Nat.not_le.mpr hhi h.1)]
  rfl

/-- At 110 °C the AKG-8 trips: it is off and asserts its THERMTRIP_N. -/
theorem State.endpointThermal_trip {s : State} {n : Nat} (hn : 110 ≤ n) (ht : s.ep.thermTrip = false) :
    let t := s.endpointThermal n
    t.ep.off = true ∧ t.ep.thermTrip = true ∧ t.sw = s.sw ∧ t.ep.home = s.ep.home ∧ Out.pin .epThermTripN false ∈ t.out := by
  obtain ⟨hsw, hep⟩ := State.epEvent_alerts (s.onEp fun e => { e with powerLimit := 46 - 2 * (n - 94) }) eeThermal
  unfold State.endpointThermal
  rw [if_neg (by omega)]
  dsimp only
  generalize (s.onEp fun e => { e with powerLimit := 46 - 2 * (n - 94) }).epEvent eeThermal = u at hsw hep
  obtain ⟨htrip, hhome⟩ : u.ep.thermTrip = false ∧ u.ep.home = s.ep.home := by
    rw [hep]
    exact ⟨ht, rfl⟩
  rw [if_pos ⟨hn, by rw [htrip]; rfl⟩]
  exact ⟨rfl, rfl, hsw, hhome, List.mem_append_right _ (List.mem_singleton.mpr rfl)⟩

/-! ### The rows of pace, the brake and heat -/

/-- Settles O44: each row is the equation of its operation, or what its operation changes. -/
theorem paceAndHeatRowsComplete : Obligations.PaceAndHeatRowsComplete := by
  unfold Obligations.PaceAndHeatRowsComplete
  intro s n l pw ticked
  refine ⟨fun hp hc => congrArg Host.Outcome.next (State.balance_within hp hc), rfl, ?_, ?_, ?_, ?_, ?_, rfl, ?_, rfl, ?_, ?_, ?_, ?_, ?_⟩
  · intro hl hb hp
    obtain ⟨hv, ho⟩ := State.setVoltage_sw (s.onPower fun x => { x with watts := n, samples := (n :: x.samples).take 1000 }) (pw.mV - 5)
    refine ⟨_, congrArg Host.Outcome.next (State.regulate_high hl hb hp), ?_, ho⟩
    rw [hv]
    rfl
  · intro hl hn hb hp ht
    exact congrArg Host.Outcome.next (State.regulate_between hl hn hb hp ht)
  · intro hl hp
    exact ⟨_, congrArg Host.Outcome.next (State.epRegulate_high hl hp), State.setVoltage_ep s _⟩
  · intro k m hm hb hphase
    exact congrArg Host.Outcome.next (State.brake_early hm hb hphase)
  · intro hb hphase
    have hbrake := State.brake_honoured hb hphase
    refine ⟨fun hw => congrArg Host.Outcome.next (hbrake.trans (State.brakeNow_low hw)), fun hlo hhi => ?_⟩
    exact ⟨_, congrArg Host.Outcome.next hbrake, State.brakeNow_voltage (s := s.onSys fun y => { y with pwrbrk := true }) hlo hhi⟩
  · intro hn
    have hhot := State.throttleAt_hot (s := s) hn
    exact ⟨fun h => congrArg Host.Outcome.next (hhot.trans (if_pos h)), fun h => congrArg Host.Outcome.next (hhot.trans (if_neg h))⟩
  · intro h
    obtain ⟨he, hphase, htrip, hout⟩ := State.trip_confined h
    exact ⟨_, rfl, hphase, htrip, hout.subset (List.mem_append_right _ (List.mem_singleton.mpr rfl)), (State.trip_domains h).1, (State.trip_domains h).2, he⟩
  · intro h
    obtain ⟨hphase, hhost, htrip, hm, he⟩ := State.turnOff_off s
    exact ⟨s.turnOff, congrArg Host.Outcome.next (if_pos h), hphase, hhost, htrip, fun a => ⟨by rw [hm], by rw [he]⟩, he⟩
  · intro hn
    exact congrArg Host.Outcome.next (if_pos hn)
  · intro hlo hhi
    exact congrArg Host.Outcome.next (State.endpointThermal_warm hlo hhi)
  · intro hn ht
    exact ⟨_, rfl, State.endpointThermal_trip hn ht⟩

/-! ### The link and the clock of either device -/

@[simp] theorem State.getClock_onClock (s : State) (d : Dev) (g : Clock → Clock) : (s.onClock d g).getClock d = g (s.getClock d) := by
  cases d <;> rfl

@[simp] theorem State.getClock_onLink (s : State) (d : Dev) (p : Nat) (g : Link → Link) : (s.onLink d p g).getClock d = s.getClock d := by
  cases d <;> rfl

@[simp] theorem State.getLink_onLink (s : State) (d : Dev) (p : Nat) (g : Link → Link) : (s.onLink d p g).getLink d p = g (s.getLink d p) := by
  cases d
  · exact Tab.get_put_self _ _ _ _
  · exact Tab.get_put_self _ _ _ _

theorem Untouched.getLink {s t : State} (h : Untouched s t) (d : Dev) (p : Nat) : t.getLink d p = s.getLink d p := by
  cases d
  · exact congrArg (Tab.get · p {}) h.swLink
  · exact congrArg (Tab.get · p {}) h.epLink

theorem SameMemory.of_homes {s t : State} (hs : t.sw.mem.home = s.sw.mem.home) (he : t.ep.home = s.ep.home) : SameMemory s t :=
  fun _ => ⟨by rw [hs], by rw [he]⟩

theorem Untouched.sameMemory {s t : State} (h : Untouched s t) : SameMemory s t := .of_homes h.swHome h.epHome

theorem SameMemory.trans {s t u : State} (h : SameMemory s t) (k : SameMemory t u) : SameMemory s u :=
  fun a => ⟨(k a).1.trans (h a).1, (k a).2.trans (h a).2⟩

theorem Steady.getClock {s t : State} (h : Steady s t) (d : Dev) : t.getClock d = s.getClock d := by
  cases d
  · exact h.swClock
  · exact h.epClock

theorem State.onClock_untouched (s : State) (d : Dev) (g : Clock → Clock) : Untouched s (s.onClock d g) := by
  cases d <;> exact ⟨rfl, rfl, rfl, rfl⟩

theorem State.onLink_sameMemory (s : State) (d : Dev) (p : Nat) (g : Link → Link) : SameMemory s (s.onLink d p g) := by
  cases d <;> exact .of_homes rfl rfl

theorem State.onGate_steady (s : State) (d : Dev) (p : Nat) (g : GatePos → GatePos) : Steady s (s.onGate d p g) := by
  cases d <;> exact ⟨⟨rfl, rfl, rfl, rfl⟩, rfl, rfl⟩

theorem State.onSched_steady (s : State) (d : Dev) (g : Sched → Sched) : Steady s (s.onSched d g) := by
  cases d <;> exact ⟨⟨rfl, rfl, rfl, rfl⟩, rfl, rfl⟩

theorem Steady.each {α : Type} {l : List α} {g : State → α → State} {s : State} (hg : ∀ u a, Steady u (g u a)) : Steady s (s.each l g) :=
  State.each_keeps (Steady.refl s) fun u hu a => hu.trans (hg u a)

theorem State.closeGates_steady (s : State) (d : Dev) : Steady s (s.closeGates d) := .each fun u p => State.onGate_steady u d p _

theorem State.realign_steady (s : State) (d : Dev) : Steady s (s.realign d) := by
  unfold State.realign
  split
  · exact .refl s
  · exact (State.onSched_steady s d _).trans (.each fun u p => State.onGate_steady u d p _)

/-! ### The frequency source (01 R16, R17; 11 R286, R288) -/

/-- A port taken as the frequency source may be one. -/
theorem State.pickSource_ok {s : State} {d : Dev} {p : Nat} (h : s.pickSource d = some p) : s.sourceOk d p = true := by
  suffices hmem : p ∈ (List.range (portCount d)).filter (s.sourceOk d) from (List.mem_filter.mp hmem).2
  unfold State.pickSource at h
  cases d with
  | ep =>
    dsimp only at h
    split at h
    · next q hq =>
      cases h
      exact List.mem_of_find?_eq_some hq
    · exact List.mem_of_mem_head? h
  | sw =>
    dsimp only at h
    split at h
    · cases h
    · revert h
      refine List.foldlRecOn (motive := fun m => m = some p → _) _ _ nofun fun m hm a ha h => ?_
      split at h
      · cases h
        exact ha
      · split at h
        · cases h
          exact ha
        · exact hm h

/-- Holdover ends the source and its offsets; else only gates close and a record is made. -/
theorem State.enterHoldover_steady (s : State) (d : Dev) :
    ∃ l, Steady (s.onClock d fun c => { c with source := none, thetas := l, holdover := true }) (s.enterHoldover d) := by
  unfold State.enterHoldover
  dsimp only
  split
  · next h =>
    refine ⟨(s.getClock d).thetas, ?_⟩
    have hc : (s.onClock d fun c => { c with source := none })
        = s.onClock d fun c => { c with source := none, thetas := (s.getClock d).thetas, holdover := true } := by
      cases d <;> (rw [← h]; rfl)
    rw [hc]
    exact .refl _
  · refine ⟨[], ?_⟩
    cases d with
    | sw => exact Steady.trans (State.closeGates_steady _ _) (State.record_report _ _).upkeep.steady
    | ep => exact Steady.trans (State.closeGates_steady _ _) ⟨⟨rfl, rfl, rfl, rfl⟩, rfl, rfl⟩

/-- Choosing the source again changes the clock's source, offsets, holdover and restep only, and takes a port that may be the source. -/
theorem State.retime_steady (s : State) (d : Dev) :
    ∃ src l h r, Steady (s.onClock d fun c => { c with source := src, thetas := l, holdover := h, restep := r }) (s.retime d)
      ∧ ∀ p, src = some p → s.sourceOk d p = true := by
  unfold State.retime
  dsimp only
  split
  · refine ⟨none, [], false, (s.getClock d).restep, ?_, nofun⟩
    cases d <;> exact .refl _
  · split
    · obtain ⟨l, h⟩ := State.enterHoldover_steady s d
      refine ⟨none, l, true, (s.getClock d).restep, ?_, nofun⟩
      cases d <;> exact h
    · next p hp =>
      have hsrc : ∀ q, some p = some q → s.sourceOk d q = true := by
        rintro q ⟨⟩
        exact State.pickSource_ok hp
      refine ⟨some p, if (s.getClock d).source = some p then (s.getClock d).thetas else [], (s.getClock d).holdover,
        (s.getClock d).restep || ((s.getClock d).viaTime && !((s.getClock d).advert.get p {}).via && !(s.getClock d).restep), ?_, hsrc⟩
      have hclose (b : Bool) (u : State) : Steady u (if b then u.closeGates d else u) := by
        split
        · exact State.closeGates_steady u d
        · exact .refl u
      cases d <;> exact hclose _ _

/-- What choosing the source again leaves of the clock, the links and the stores. -/
theorem State.retime_untouched (s : State) (d : Dev) : Untouched s (s.retime d) := by
  obtain ⟨src, l, h, r, hs, -⟩ := State.retime_steady s d
  exact (State.onClock_untouched s d _).trans hs.toUntouched

theorem State.retime_advert (s : State) (d : Dev) : ((s.retime d).getClock d).advert = (s.getClock d).advert := by
  obtain ⟨src, l, h, r, hs, -⟩ := State.retime_steady s d
  rw [hs.getClock, State.getClock_onClock]

theorem State.sourceFails_none {s : State} {d : Dev} (h : (s.getClock d).source = none) : s.sourceFails d = s := by
  unfold State.sourceFails
  rw [h]

/-- A failed source is left, and its path forgotten. -/
theorem State.sourceFails_left {s : State} {d : Dev} {q : Nat} (h : (s.getClock d).source = some q) :
    let c := (s.sourceFails d).getClock d
    c.source ≠ some q ∧ c.advert.find q = none ∧ c.now = (s.getClock d).now ∧ SameMemory s (s.sourceFails d) := by
  have hf : s.sourceFails d = (s.onClock d fun c => { c with advert := c.advert.del q }).retime d := by
    unfold State.sourceFails
    rw [h]
  obtain ⟨src, l, ho, r, hs, hok⟩ := State.retime_steady (s.onClock d fun c => { c with advert := c.advert.del q }) d
  rw [hf]
  dsimp only
  rw [hs.getClock, State.getClock_onClock, State.getClock_onClock]
  refine ⟨fun hq => ?_, Tab.find_del_self _ _, rfl, ((State.onClock_untouched s d _).trans ((State.onClock_untouched _ d _).trans hs.toUntouched)).sameMemory⟩
  have hq := hok q hq
  simp [State.sourceOk] at hq

/-! ### A port reaches ACTIVE (14 R364, 23 R550) -/

theorem State.relay_upkeep (s : State) (p : Nat) (f : Frame) (cmd : Option (Nat × Nat)) : Upkeep s (s.relay p f cmd) :=
  Upkeep.trans .quiet (State.swSendPort_sent _ _ _ _).upkeep

theorem State.configValues_upkeep (s : State) (p : Nat) : Upkeep s (s.configValues p) := by
  unfold State.configValues
  exact .of_ite (.refl s) ((State.relay_upkeep s p _ none).trans (State.relay_upkeep _ p _ none))

theorem State.onEpRec_upkeep (s : State) (h : Nat) (g : EpRec → EpRec) : Upkeep s (s.onEpRec h g) := .quiet

theorem State.sendAdmit_upkeep (s : State) (p : Nat) : Upkeep s (s.sendAdmit p) := by
  unfold State.sendAdmit
  exact .of_ite (.refl s) (((State.onEpRec_upkeep s _ _).trans (State.mgmtOut_upkeep _ p _ _ _)).trans (State.configValues_upkeep _ p))

/-- Frames leave the AKG-8: the switch, its home and the links of its ACTIVE ports are as they were. -/
structure Drained (s t : State) : Prop where
  sw : t.sw = s.sw
  home : t.ep.home = s.ep.home
  link : ∀ p, (s.ep.getLink p).state = .active → t.ep.getLink p = s.ep.getLink p

theorem Drained.refl (s : State) : Drained s s := ⟨rfl, rfl, fun _ _ => rfl⟩

theorem Drained.trans {s t u : State} (h : Drained s t) (k : Drained t u) : Drained s u :=
  ⟨k.sw.trans h.sw, k.home.trans h.home, fun p hp => (k.link p (by rw [h.link p hp, hp])).trans (h.link p hp)⟩

theorem Drained.each {α : Type} {l : List α} {g : State → α → State} {s : State} (hg : ∀ u a, Drained u (g u a)) : Drained s (s.each l g) :=
  State.each_keeps (Drained.refl s) fun u hu a => hu.trans (hg u a)

theorem State.emit_drained (s : State) (o : Out) : Drained s (s.emit o) := ⟨rfl, rfl, fun _ _ => rfl⟩

theorem State.epLeave_drained (s : State) (p : Nat) (f : Frame) : Drained s (s.epLeave p f) := ⟨rfl, rfl, fun _ _ => rfl⟩

/-- A port that is not ACTIVE has its link replaced. -/
theorem State.putLink_drained {s : State} {p : Nat} (l : Link) (h : (s.ep.getLink p).state ≠ .active) : Drained s (s.putLink .ep p l) := by
  refine ⟨rfl, rfl, fun q hq => Tab.get_put_ne _ _ _ _ _ ?_⟩
  rintro rfl
  exact h hq

theorem State.epWake_drained (s : State) (p : Nat) : Drained s (s.epWake p) := by
  unfold State.epWake
  dsimp only
  split
  · next h => exact State.putLink_drained _ (by simp [h])
  · split
    · next h => exact (State.putLink_drained _ (by simp [h])).trans (State.emit_drained _ _)
    · exact .refl s

theorem State.drainQueue_drained (p cls fuel : Nat) : ∀ s : State, Drained s (s.drainQueue p cls fuel) := by
  induction fuel with
  | zero => exact Drained.refl
  | succ n ih =>
    intro s
    unfold State.drainQueue
    split
    · exact .refl s
    · split
      · exact (State.epLeave_drained s p _).trans (ih _)
      · exact .refl s

theorem State.epDrain_drained (s : State) : Drained s s.epDrain := by
  unfold State.epDrain
  refine Drained.trans (.each fun u p => ?_) (.each fun u p => .each fun v c => State.drainQueue_drained p c _ v)
  unfold State.epChime
  split
  · exact (State.emit_drained u _).trans (State.epWake_drained _ p)
  · exact .refl u

/-- A port that is ACTIVE stays so while frames leave. -/
theorem State.epDrain_active {s : State} {p : Nat} (h : (s.getLink .ep p).state = .active) :
    (s.epDrain.getLink .ep p).state = .active ∧ SameMemory s s.epDrain := by
  obtain ⟨hsw, hhome, hlink⟩ := State.epDrain_drained s
  exact ⟨(congrArg Link.state (hlink p h)).trans h, .of_homes (by rw [hsw]) hhome⟩

theorem State.closeSlow_steady (s : State) (d : Dev) (p : Nat) : Steady s (if (s.getLink d p).slowLink then s.closePort d p else s) := by
  split
  · exact State.onGate_steady s d p _
  · exact .refl s

/-- TIME ends in ACTIVE, and the stores are as they were. -/
theorem State.portActive_active (s : State) (d : Dev) (p : Nat) : ((s.portActive d p).getLink d p).state = .active ∧ SameMemory s (s.portActive d p) := by
  have hslow := (State.closeSlow_steady s d p).toUntouched
  unfold State.portActive
  dsimp only
  revert hslow
  generalize (if (s.getLink d p).slowLink then s.closePort d p else s) = u
  intro hslow
  cases d with
  | sw =>
    have hspent (v : State) : Upkeep v (v.onCore fun c => { c with spent := c.spent.filter fun e => e.1 / 16 != p }) := .quiet
    have hadmit (v : State) : Upkeep v (if isEdge v.sw.sys p then v.sendAdmit p else v) := .of_ite (State.sendAdmit_upkeep v p) (.refl v)
    have hport := State.setPort_upkeep u p { (u.sw.getLink p).keep with state := .active }
    have h := ((hport.trans (hspent _)).trans (hadmit _)).steady.toUntouched.trans (State.retime_untouched _ .sw)
    refine ⟨?_, hslow.sameMemory.trans ((State.onLink_sameMemory u .sw p fun l => { l.keep with state := .active }).trans h.sameMemory)⟩
    exact (congrArg Link.state (h.getLink .sw p)).trans (congrArg Link.state (Tab.get_put_self _ _ _ _))
  | ep =>
    have hspent (v : State) : Untouched v (v.onEp fun e => { e with
        spent := e.spent.filter (fun x => x.1 / 16 != p), agentFence := e.agentFence.mapVals fun _ l => l.filter (· != p) }) := ⟨rfl, rfl, rfl, rfl⟩
    have h := (hspent (u.onLink .ep p fun l => { l.keep with state := .active })).trans (State.retime_untouched _ .ep)
    have hactive := (h.getLink .ep p).trans (State.getLink_onLink u .ep p _)
    obtain ⟨hstate, hmem⟩ := State.epDrain_active (p := p) (by rw [hactive])
    exact ⟨hstate, hslow.sameMemory.trans ((State.onLink_sameMemory u .ep p _).trans (h.sameMemory.trans hmem))⟩

/-! ### Probes (15 R407 to R411) -/

theorem State.takeTheta_untouched (s : State) (d : Dev) (th : Int) : Untouched s (s.takeTheta d th) := by
  have hvia := State.onClock_untouched s d fun c => { c with viaTime := s.viaStandby d }
  unfold State.takeTheta
  dsimp only
  split
  · exact hvia.trans ((State.onClock_untouched _ d _).trans (State.realign_steady _ d).toUntouched)
  · exact hvia.trans (State.onClock_untouched _ d _)

/-- Without valid time, in holdover or after a path by a standby was left, an offset steps fabric time. -/
theorem State.takeTheta_step {s : State} {d : Dev} (th : Int)
    (h : (s.getClock d).valid = false ∨ (s.getClock d).holdover = true ∨ (s.getClock d).restep = true) :
    let c := (s.takeTheta d th).getClock d
    c.now = moveTime (s.getClock d).now (thetaUnits th) ∧ c.valid = true ∧ c.holdover = false := by
  unfold State.takeTheta
  dsimp only
  rw [if_pos (by simpa [or_assoc] using h), (State.realign_steady _ d).getClock]
  simp [Clock.stepTo]

theorem moveTime_within (now : Nat) {x : Int} (hlo : -halfNs ≤ x) (hhi : x ≤ halfNs) : now ≤ moveTime now x + 425 ∧ moveTime now x ≤ now + 425 := by
  unfold halfNs at hlo hhi
  unfold moveTime
  omega

/-- Valid fabric time is corrected by at most 0.5 ns. -/
theorem State.takeTheta_slew {s : State} {d : Dev} (th : Int) (hv : (s.getClock d).valid = true) (hh : (s.getClock d).holdover = false)
    (hr : (s.getClock d).restep = false) :
    let c := (s.takeTheta d th).getClock d
    (s.getClock d).now ≤ c.now + 425 ∧ c.now ≤ (s.getClock d).now + 425 ∧ c.thetas = (th :: (s.getClock d).thetas).take 8 := by
  unfold State.takeTheta
  dsimp only
  rw [if_neg (by simp [hv, hh, hr])]
  simp only [State.getClock_onClock, and_true]
  exact moveTime_within _ (by omega) (by unfold halfNs; omega)

/-- The offset of a probe in flight on a port has been taken: it corrects fabric time where the port is the frequency source. -/
def State.offsetTaken (s : State) (d : Dev) (p : Nat) (th : Int) : State :=
  let s := s.onClock d fun c => { c with probes := c.probes.del p }
  if (s.getClock d).source = some p ∧ s.sourceOk d p then s.takeTheta d th else s

theorem State.probeRsp_inFlight {s : State} {d : Dev} {p id t1 : Nat} (h : (s.getClock d).probes.find p = some (id, t1)) (turn t2 t4 : Nat) :
    let th := theta t1 t2 turn t4
    let near := decide (th.natAbs * 1000000000 ≤ 2 * 2 ^ 32)
    let u := s.offsetTaken d p th
    s.probeRsp d p id turn t2 t4 = if (u.getLink d p).state = .time then
        (u.onLink d p fun l => { l with probesOk := if near then l.probesOk + 1 else 0, partnerOk := if near then l.partnerOk else 0 }).timeEnds d p
      else u := by
  unfold State.probeRsp
  rw [h]
  dsimp only
  rw [if_neg (not_not_intro rfl)]
  rfl

/-- A response to no probe in flight is ignored. -/
theorem State.probeRsp_other {s : State} {d : Dev} {p id : Nat}
    (h : (s.getClock d).probes.find p = none ∨ ∃ i t1, (s.getClock d).probes.find p = some (i, t1) ∧ i ≠ id) (turn t2 t4 : Nat) :
    s.probeRsp d p id turn t2 t4 = s := by
  unfold State.probeRsp
  obtain h | ⟨i, t1, h, hi⟩ := h
  · rw [h]
  · rw [h]
    exact if_pos hi

theorem State.offsetTaken_untouched (s : State) (d : Dev) (p : Nat) (th : Int) : Untouched s (s.offsetTaken d p th) := by
  have hdel := State.onClock_untouched s d fun c => { c with probes := c.probes.del p }
  unfold State.offsetTaken
  dsimp only
  split
  · exact hdel.trans (State.takeTheta_untouched _ d th)
  · exact hdel

/-- An offset measured elsewhere than at the frequency source leaves fabric time. -/
theorem State.offsetTaken_now {s : State} {d : Dev} {p : Nat} (th : Int) (h : (s.getClock d).source ≠ some p) :
    ((s.offsetTaken d p th).getClock d).now = (s.getClock d).now := by
  unfold State.offsetTaken
  dsimp only
  rw [if_neg (by simp [h]), State.getClock_onClock]

/-- An offset measured at the frequency source corrects fabric time. -/
theorem State.offsetTaken_source {s : State} {d : Dev} {p : Nat} (th : Int) (h : (s.getClock d).source = some p) (hok : s.sourceOk d p = true) :
    s.offsetTaken d p th = (s.onClock d fun c => { c with probes := c.probes.del p }).takeTheta d th := by
  have hok' : (s.onClock d fun c => { c with probes := c.probes.del p }).sourceOk d p = true := by
    rw [← hok]
    cases d <;> rfl
  unfold State.offsetTaken
  dsimp only
  rw [if_pos ⟨by rw [State.getClock_onClock, ← h], hok'⟩]

/-- TIME goes on short of eight good probes in a row in either direction. -/
theorem State.timeEnds_waits {s : State} {d : Dev} {p : Nat} (h : (s.getLink d p).probesOk < 8 ∨ (s.getLink d p).partnerOk < 8) : s.timeEnds d p = s :=
  if_neg fun ⟨_, hp, hq⟩ => by omega

/-- With eight in each direction it ends in ACTIVE. -/
theorem State.timeEnds_done {s : State} {d : Dev} {p : Nat} (ht : (s.getLink d p).state = .time) (hp : 8 ≤ (s.getLink d p).probesOk)
    (hq : 8 ≤ (s.getLink d p).partnerOk) : ((s.timeEnds d p).getLink d p).state = .active ∧ SameMemory s (s.timeEnds d p) := by
  rw [show s.timeEnds d p = s.portActive d p from if_pos ⟨ht, hp, hq⟩]
  exact State.portActive_active s d p

/-- A PROBE_REQ on a port that exchanges probes has been answered. -/
def State.probeAnswered (s : State) (d : Dev) (p id at_ : Nat) : State :=
  { s with out := s.out ++ [.ctrl d p (.probeRsp id ((time64 (s.now d) + 2 ^ 64 - at_ % 2 ^ 64) % 2 ^ 48) at_), .ctrl d p (s.probeInfoOf d)] }

theorem State.probeAnswered_untouched (s : State) (d : Dev) (p id at_ : Nat) : Untouched s (s.probeAnswered d p id at_) := ⟨rfl, rfl, rfl, rfl⟩

theorem State.probeReq_answered {s : State} {d : Dev} {p : Nat} (h : s.probing d p = true) (id at_ : Nat) :
    s.probeReq d p id at_ = if (s.getLink d p).state = .time then
        ((s.probeAnswered d p id at_).onLink d p fun l => { l with partnerOk := if 0 < l.probesOk then l.partnerOk + 1 else 0 }).timeEnds d p
      else s.probeAnswered d p id at_ := by
  have hout : (s.emit (.ctrl d p (.probeRsp id ((time64 (s.now d) + 2 ^ 64 - at_ % 2 ^ 64) % 2 ^ 48) at_))).emit (.ctrl d p (s.probeInfoOf d))
      = s.probeAnswered d p id at_ := by
    simp [State.emit, State.probeAnswered]
  unfold State.probeReq
  rw [h, if_neg (by simp)]
  dsimp only
  rw [hout, (State.probeAnswered_untouched s d p id at_).getLink]

theorem State.probeTimer_sends {s : State} {d : Dev} {p : Nat} (h : s.probing d p = true) :
    let c := s.getClock d
    let t := s.probeTimer d p
    (t.getClock d).probes.find p = some (c.nextProbe.get p 0, time64 c.now) ∧ (t.getClock d).nextProbe.get p 0 = (c.nextProbe.get p 0 + 1) % 256
      ∧ t.out = s.out ++ [.ctrl d p (.probeReq (c.nextProbe.get p 0)), .ctrl d p (s.probeInfoOf d)] ∧ SameMemory s t := by
  unfold State.probeTimer
  rw [h, if_neg (by simp)]
  cases d with
  | sw => exact ⟨Tab.find_put_self _ _ _, Tab.get_put_self _ _ _ _, List.append_assoc _ _ _, .of_homes rfl rfl⟩
  | ep => exact ⟨Tab.find_put_self _ _ _, Tab.get_put_self _ _ _ _, List.append_assoc _ _ _, .of_homes rfl rfl⟩

/-- The master's path has been seen: an acting standby steps down (11 R286). -/
def State.pathSeen (s : State) (d : Dev) (p : Nat) (a : Advert) : State :=
  let s := s.onClock d fun c => { c with advert := c.advert.put p a }
  if d = Dev.sw ∧ a.hops ≠ 0xFF ∧ !a.via then
    s.onClock .sw fun c => { c with acting := false, lost := if c.master = s.sw.sys.homeId then c.lost else false }
  else s

theorem State.pathSeen_untouched (s : State) (d : Dev) (p : Nat) (a : Advert) : Untouched s (s.pathSeen d p a) := by
  have hput := State.onClock_untouched s d fun c => { c with advert := c.advert.put p a }
  unfold State.pathSeen
  dsimp only
  split
  · exact hput.trans (State.onClock_untouched _ .sw _)
  · exact hput

theorem State.pathSeen_advert (s : State) (d : Dev) (p : Nat) (a : Advert) : ((s.pathSeen d p a).getClock d).advert = (s.getClock d).advert.put p a := by
  unfold State.pathSeen
  dsimp only
  split
  · next h =>
    obtain ⟨rfl, -, -⟩ := h
    rfl
  · rw [State.getClock_onClock]

/-- A partner that runs another book or package closes the port's gates, and the first time is recorded (11 R305). -/
def State.comparePartner (s : State) (d : Dev) (p : Nat) : State :=
  if s.agrees d p then s.onGate d p fun g => { g with mismatch := false }
  else
    let fresh := !(s.getGate d p).mismatch
    let s := s.onGate d p fun g => { g with closed := true, mismatch := true }
    match d with
    | .sw => if fresh then (s.record { kind := fPackageMismatch, domain := 1, index := p }).setLate .sw else s
    | .ep => if fresh then s.setLate .ep else s

theorem State.probeInfo_compared {s : State} {d : Dev} {p : Nat} (h : s.probing d p = true) (a : Advert) :
    s.probeInfo d p a = ((s.pathSeen d p a).retime d).comparePartner d p := by
  unfold State.probeInfo
  rw [h, if_neg (by simp)]
  rfl

theorem State.setLate_steady (s : State) (d : Dev) : Steady s (s.setLate d) := by
  cases d with
  | sw =>
    have h := (State.setEvent_report (s.onSw fun w => { w with host := { w.host with late := true } }) evSched).upkeep.steady
    exact ⟨⟨h.swLink, h.epLink, h.swHome, h.epHome⟩, h.swClock, h.epClock⟩
  | ep => exact ⟨⟨rfl, rfl, rfl, rfl⟩, rfl, rfl⟩

theorem State.setLate_gate (s : State) (d : Dev) (p : Nat) : (s.setLate d).getGate d p = s.getGate d p := by
  cases d with
  | sw =>
    obtain ⟨-, -, -, -, -, hcore, -⟩ := (State.setEvent_report (s.onSw fun w => { w with host := { w.host with late := true } }) evSched).fields
    exact congrArg (Tab.get ·.gate p {}) hcore
  | ep => rfl

theorem State.record_gate (s : State) (o : Occurrence) (p : Nat) : (s.record o).getGate .sw p = s.getGate .sw p := by
  obtain ⟨-, -, -, -, -, hcore, -⟩ := (State.record_report s o).fields
  exact congrArg (Tab.get ·.gate p {}) hcore

@[simp] theorem State.getGate_onGate (s : State) (d : Dev) (p : Nat) (g : GatePos → GatePos) : (s.onGate d p g).getGate d p = g (s.getGate d p) := by
  cases d
  · exact Tab.get_put_self _ _ _ _
  · exact Tab.get_put_self _ _ _ _

theorem State.comparePartner_differs {s : State} {d : Dev} {p : Nat} (h : s.agrees d p = false) :
    Steady s (s.comparePartner d p) ∧ ((s.comparePartner d p).getGate d p).closed = true := by
  have hgate := State.onGate_steady s d p fun g => { g with closed := true, mismatch := true }
  have hclosed : ((s.onGate d p fun g => { g with closed := true, mismatch := true }).getGate d p).closed = true := by
    rw [State.getGate_onGate]
  unfold State.comparePartner
  rw [h, if_neg (by simp)]
  cases d with
  | sw =>
    dsimp only
    split
    · rw [State.setLate_gate, State.record_gate]
      exact ⟨hgate.trans ((State.record_report _ _).upkeep.steady.trans (State.setLate_steady _ _)), hclosed⟩
    · exact ⟨hgate, hclosed⟩
  | ep =>
    dsimp only
    split
    · rw [State.setLate_gate]
      exact ⟨hgate.trans (State.setLate_steady _ _), hclosed⟩
    · exact ⟨hgate, hclosed⟩

/-- A partner that has advertised another book or package than the device then runs finds the port's gates closed. -/
theorem State.comparePartner_closed {s : State} {d : Dev} {p : Nat} {a : Advert} (ha : (s.getClock d).advert.find p = some a) :
    let t := s.comparePartner d p
    Steady s t ∧ (a.book ≠ t.bookShown d ∨ a.package ≠ ((t.getSched d).active.map (·.id)).getD 0 → (t.getGate d p).closed = true) := by
  dsimp only
  by_cases h : s.agrees d p = true
  · have hsame : s.comparePartner d p = s.onGate d p fun g => { g with mismatch := false } := if_pos h
    rw [hsame]
    refine ⟨State.onGate_steady s d p _, fun hne => ?_⟩
    have hbook : (s.onGate d p fun g => { g with mismatch := false }).bookShown d = s.bookShown d := by cases d <;> rfl
    have hsched : (s.onGate d p fun g => { g with mismatch := false }).getSched d = s.getSched d := by cases d <;> rfl
    have hagree : a.book = s.bookShown d ∧ a.package = ((s.getSched d).active.map (·.id)).getD 0 := by
      simpa [State.agrees, ha] using h
    rw [hbook, hsched] at hne
    exact absurd hagree (not_and_or.mpr hne)
  · obtain ⟨hs, hclosed⟩ := State.comparePartner_differs (Bool.eq_false_iff.mpr h)
    exact ⟨hs, fun _ => hclosed⟩

/-- PROBE_INFO is noted, and the partner's book and package are compared with the device's own. -/
theorem State.probeInfo_noted {s : State} {d : Dev} {p : Nat} (h : s.probing d p = true) (a : Advert) :
    let t := s.probeInfo d p a
    SameMemory s t ∧ (t.getClock d).advert.find p = some a
      ∧ (a.book ≠ t.bookShown d ∨ a.package ≠ ((t.getSched d).active.map (·.id)).getD 0 → (t.getGate d p).closed = true) := by
  rw [State.probeInfo_compared h]
  have ha : (((s.pathSeen d p a).retime d).getClock d).advert.find p = some a := by
    rw [State.retime_advert, State.pathSeen_advert, Tab.find_put_self]
  obtain ⟨hs, hclosed⟩ := State.comparePartner_closed ha
  refine ⟨((State.pathSeen_untouched s d p a).trans ((State.retime_untouched _ d).trans hs.toUntouched)).sameMemory, ?_, hclosed⟩
  rw [hs.getClock, ha]

/-! ### The time master (11 R285, R287) -/

/-- A standby that loses the master acts in its stead, from its own time. -/
theorem State.masterLost_acts {s : State} (hm : s.sw.clock.master ≠ s.sw.sys.homeId) (ha : s.sw.clock.acting = false)
    (hs : s.sw.clock.standby = s.sw.sys.homeId) :
    s.masterLost.sw.clock = { s.sw.clock with lost := true, acting := true, viaTime := true, source := none, thetas := [] } ∧ SameMemory s s.masterLost := by
  have hl : s.masterLost = (((s.onClock .sw fun c => { c with lost := true }).onClock .sw fun c =>
      { c with acting := true, viaTime := true, source := none, thetas := [] }).onSched .sw fun x =>
        { x with reports := x.reports.put s.sw.sys.homeId (x.slow, x.narrow) }).decideBook false := by
    unfold State.masterLost
    dsimp only
    rw [if_neg (fun h => hm h.1), if_neg (by simp [ha])]
    exact if_pos hs
  rw [hl]
  exact ⟨(State.decideBook_upkeep _ false).clock, .of_homes (State.decideBook_upkeep _ false).home (State.decideBook_upkeep _ false).steady.epHome⟩

/-- Without a standby the switch enters holdover. -/
theorem State.masterLost_holds {s : State} (hm : s.sw.clock.master ≠ s.sw.sys.homeId) (ha : s.sw.clock.acting = false)
    (hs : s.sw.clock.standby = 0x3FF) (hid : s.sw.sys.homeId ≠ 0x3FF) :
    let c := s.masterLost.sw.clock
    c.lost = true ∧ c.holdover = true ∧ c.source = none ∧ SameMemory s s.masterLost := by
  have hl : s.masterLost = (s.onClock .sw fun c => { c with lost := true }).enterHoldover .sw := by
    unfold State.masterLost
    dsimp only
    rw [if_neg (fun h => hm h.1), if_neg (by simp [ha])]
    refine (if_neg ?_).trans (if_pos (by simp [hs]))
    rw [hs]
    exact Ne.symm hid
  obtain ⟨l, h⟩ := State.enterHoldover_steady (s.onClock .sw fun c => { c with lost := true }) .sw
  rw [hl]
  dsimp only
  rw [h.swClock]
  exact ⟨rfl, rfl, rfl, ((State.onClock_untouched s .sw _).trans ((State.onClock_untouched _ .sw _).trans h.toUntouched)).sameMemory⟩

/-- A switch whose master is not lost to it, or that acts in its stead, ignores the loss. -/
theorem State.masterLost_ignored {s : State} (h : (s.sw.clock.master = s.sw.sys.homeId ∧ s.sw.clock.lost = false) ∨ s.sw.clock.acting = true) :
    s.masterLost = s := by
  unfold State.masterLost
  dsimp only
  by_cases hm : s.sw.clock.master = s.sw.sys.homeId ∧ (!s.sw.clock.lost) = true
  · exact if_pos hm
  · have ha : s.sw.clock.acting = true := h.resolve_left fun h => hm ⟨h.1, by simp [h.2]⟩
    rw [if_neg hm, if_pos ha]

/-- An edge of PPS_IN less than a second after the last one taken is ignored. -/
theorem State.ppsIn_early {s : State} {e : Int} (hp : (s.sw.isMaster && s.sw.clock.pps) = true) (he : s.sw.clock.ppsEdge = some e)
    (h : (s.sw.clock.now : Int) < e + tSec) : s.ppsIn = s := by
  unfold State.ppsIn
  rw [if_pos hp]
  simp [State.onClock, State.onSw, he, h]

/-- Any other edge steers by 0.1 ppm towards the whole second, within ±20 ppm. -/
theorem State.ppsIn_steers {s : State} (hp : (s.sw.isMaster && s.sw.clock.pps) = true)
    (h : ∀ e, s.sw.clock.ppsEdge = some e → e + tSec ≤ (s.sw.clock.now : Int)) :
    s.ppsIn = s.onClock .sw fun c => { c with
      ppsEdge := some (c.now : Int)
      steer := max (-200) (min 200 (if 0 < offSecond c.now then c.steer - 1 else if offSecond c.now < 0 then c.steer + 1 else c.steer)) } := by
  have hsteer : (s.sw.clock.steer + if 0 < offSecond s.sw.clock.now then -1 else if offSecond s.sw.clock.now < 0 then 1 else 0)
      = if 0 < offSecond s.sw.clock.now then s.sw.clock.steer - 1 else if offSecond s.sw.clock.now < 0 then s.sw.clock.steer + 1 else s.sw.clock.steer := by
    split
    · rfl
    · split
      · rfl
      · exact Int.add_zero _
  have hedge : (s.sw.clock.ppsEdge.any fun e => decide ((s.sw.clock.now : Int) < e + tSec)) = false := by
    cases he : s.sw.clock.ppsEdge with
    | none => rfl
    | some e => exact decide_eq_false (Int.not_lt.mpr (h e he))
  unfold State.ppsIn
  rw [if_pos hp]
  simp only [State.onClock, State.onSw, hedge, hsteer]
  rfl

/-- PPS_OUT is raised and lowered. -/
theorem State.wholeSecond_pulse (s : State) : s.wholeSecond = { s with out := s.out ++ [.pin .ppsOut true, .pin .ppsOut false] } := by
  simp [State.wholeSecond, State.emit]

/-! ### The rows of probes and fabric time -/

/-- A PROBE_REQ in TIME or ACTIVE. -/
theorem probeReq_row {s : State} {d : Dev} {p : Nat} (h : s.probing d p = true) (id at_ : Nat) :
    let l := s.getLink d p
    let v := s.probeAnswered d p id at_
    (l.state = .active → exec (.probeReq d p id at_) s = .next v)
    ∧ (l.state = .time → l.probesOk < 8 ∨ l.partnerOk < 7 → exec (.probeReq d p id at_) s
        = .next (v.onLink d p fun l => { l with partnerOk := if 0 < l.probesOk then l.partnerOk + 1 else 0 }))
    ∧ (l.state = .time → 8 ≤ l.probesOk → 7 ≤ l.partnerOk → After (.probeReq d p id at_) s fun t => (t.getLink d p).state = .active ∧ SameMemory s t) := by
  have hreq := State.probeReq_answered h id at_
  have hv := State.probeAnswered_untouched s d p id at_
  have hmem := hv.sameMemory.trans (State.onLink_sameMemory _ d p fun l => { l with partnerOk := if 0 < l.probesOk then l.partnerOk + 1 else 0 })
  have hl := State.getLink_onLink (s.probeAnswered d p id at_) d p fun l => { l with partnerOk := if 0 < l.probesOk then l.partnerOk + 1 else 0 }
  rw [hv.getLink] at hl
  dsimp only
  generalize ((s.probeAnswered d p id at_).onLink d p fun l => { l with partnerOk := if 0 < l.probesOk then l.partnerOk + 1 else 0 }) = u at hreq hmem hl
  refine ⟨fun ha => ?_, fun ht hn => ?_, fun ht hp hq => ?_⟩
  · exact congrArg Host.Outcome.next (hreq.trans (if_neg (by simp [ha])))
  · rw [if_pos ht, State.timeEnds_waits] at hreq
    · exact congrArg Host.Outcome.next hreq
    · rw [hl]
      dsimp only
      split <;> omega
  · rw [if_pos ht] at hreq
    have hpartner : 8 ≤ (u.getLink d p).partnerOk := by
      rw [hl]
      dsimp only
      rw [if_pos (by omega)]
      omega
    obtain ⟨hactive, hdone⟩ := State.timeEnds_done (by rw [hl]; exact ht) (by rw [hl]; exact hp) hpartner
    exact ⟨_, congrArg Host.Outcome.next hreq, hactive, hmem.trans hdone⟩

/-- A PROBE_RSP to the probe in flight, in TIME: its offset counts towards the eight. -/
theorem probeRsp_time_row {s : State} {d : Dev} {p id t1 : Nat} (h : (s.getClock d).probes.find p = some (id, t1)) (ht : (s.getLink d p).state = .time)
    (turn t2 t4 : Nat) :
    let c := s.getClock d
    let l := s.getLink d p
    let near := (theta t1 t2 turn t4).natAbs * 1000000000 ≤ 2 * 2 ^ 32
    (¬ near → After (.probeRsp d p id turn t2 t4) s fun t => (t.getLink d p) = { l with probesOk := 0, partnerOk := 0 }
        ∧ (c.source ≠ some p → (t.getClock d).now = c.now))
    ∧ (near → l.probesOk < 7 ∨ l.partnerOk < 8 → After (.probeRsp d p id turn t2 t4) s fun t =>
        (t.getLink d p) = { l with probesOk := l.probesOk + 1 } ∧ (c.source ≠ some p → (t.getClock d).now = c.now))
    ∧ (near → 7 ≤ l.probesOk → 8 ≤ l.partnerOk → After (.probeRsp d p id turn t2 t4) s fun t => (t.getLink d p).state = .active ∧ SameMemory s t) := by
  have hrsp := State.probeRsp_inFlight h turn t2 t4
  have hu := State.offsetTaken_untouched s d p (theta t1 t2 turn t4)
  have hnow := State.offsetTaken_now (s := s) (d := d) (p := p) (theta t1 t2 turn t4)
  dsimp only at hrsp ⊢
  generalize s.offsetTaken d p (theta t1 t2 turn t4) = u at hrsp hu hnow
  rw [if_pos (by rw [hu.getLink]; exact ht)] at hrsp
  have hl (g : Link → Link) := (State.getLink_onLink u d p g).trans (congrArg g (hu.getLink d p))
  have hclock (g : Link → Link) (hs : (s.getClock d).source ≠ some p) : ((u.onLink d p g).getClock d).now = (s.getClock d).now := by
    rw [State.getClock_onLink]
    exact hnow hs
  refine ⟨fun hf => ?_, fun hn hc => ?_, fun hn hp hq => ?_⟩
  · simp only [decide_eq_false hf, Bool.false_eq_true, if_false] at hrsp
    rw [State.timeEnds_waits (by rw [hl]; exact .inl (Nat.succ_pos 7))] at hrsp
    exact ⟨_, congrArg Host.Outcome.next hrsp, hl _, hclock _⟩
  · simp only [decide_eq_true hn, if_true] at hrsp
    rw [State.timeEnds_waits (by rw [hl]; dsimp only; omega)] at hrsp
    exact ⟨_, congrArg Host.Outcome.next hrsp, hl _, hclock _⟩
  · simp only [decide_eq_true hn, if_true] at hrsp
    obtain ⟨hactive, hmem⟩ := State.timeEnds_done (s := u.onLink d p fun l => { l with probesOk := l.probesOk + 1, partnerOk := l.partnerOk })
      (d := d) (p := p) (by rw [hl]; exact ht) (by rw [hl]; exact Nat.succ_le_succ hp) (by rw [hl]; exact hq)
    exact ⟨_, congrArg Host.Outcome.next hrsp, hactive, hu.sameMemory.trans ((State.onLink_sameMemory u d p _).trans hmem)⟩

/-- A PROBE_RSP to the probe in flight, in service at the frequency source: its offset corrects fabric time. -/
theorem probeRsp_source_row {s : State} {d : Dev} {p id t1 : Nat} (h : (s.getClock d).probes.find p = some (id, t1)) (ha : (s.getLink d p).state = .active)
    (hs : (s.getClock d).source = some p) (hh : ((s.getClock d).advert.get p {}).hops ≠ 0xFF) (turn t2 t4 : Nat) :
    let c := s.getClock d
    let th := theta t1 t2 turn t4
    (c.valid = false ∨ c.holdover = true ∨ c.restep = true → After (.probeRsp d p id turn t2 t4) s fun t =>
      (t.getClock d).now = moveTime c.now (thetaUnits th) ∧ (t.getClock d).valid = true ∧ (t.getClock d).holdover = false)
    ∧ (c.valid = true → c.holdover = false → c.restep = false → After (.probeRsp d p id turn t2 t4) s fun t =>
      c.now ≤ (t.getClock d).now + 425 ∧ (t.getClock d).now ≤ c.now + 425 ∧ (t.getClock d).thetas = (th :: c.thetas).take 8) := by
  have hrsp := State.probeRsp_inFlight h turn t2 t4
  have hu := State.offsetTaken_untouched s d p (theta t1 t2 turn t4)
  have hok : s.sourceOk d p = true := by simp [State.sourceOk, ha, hh]
  dsimp only at hrsp ⊢
  rw [if_neg (by rw [hu.getLink, ha]; decide), State.offsetTaken_source _ hs hok] at hrsp
  have hdel := State.getClock_onClock s d fun c => { c with probes := c.probes.del p }
  generalize (s.onClock d fun c => { c with probes := c.probes.del p }) = u at hrsp hdel
  have hstep := State.takeTheta_step (s := u) (d := d) (theta t1 t2 turn t4)
  have hslew := State.takeTheta_slew (s := u) (d := d) (theta t1 t2 turn t4)
  rw [hdel] at hstep hslew
  exact ⟨fun hc => ⟨_, congrArg Host.Outcome.next hrsp, hstep hc⟩, fun hv hho hr => ⟨_, congrArg Host.Outcome.next hrsp, hslew hv hho hr⟩⟩

/-- Settles O46: each row is the equation of its operation, or what its operation changes. -/
theorem timeRowsComplete : Obligations.TimeRowsComplete := by
  unfold Obligations.TimeRowsComplete
  intro s d p id at_ turn t2 t4 hops book change package master valid via c w l th
  have hth {t1 : Nat} (h : c.probes.find p = some (id, t1)) : th = theta t1 t2 turn t4 := by
    show theta ((c.probes.find p).getD (0, 0)).2 t2 turn t4 = _
    rw [h]
    rfl
  refine ⟨?_, ?_, ?_, ?_, ?_, ?_, ?_, ?_, ?_, ?_, ?_, ?_, ?_⟩
  · intro h
    have hn : (!s.probing d p) = true := by simp [h]
    exact ⟨congrArg Host.Outcome.next (if_pos hn), congrArg Host.Outcome.next (if_pos hn), congrArg Host.Outcome.next (if_pos hn)⟩
  · intro h
    exact ⟨probeReq_row h id at_, ⟨_, rfl, State.probeTimer_sends h⟩, ⟨_, rfl, State.probeInfo_noted h _⟩⟩
  · intro h
    exact congrArg Host.Outcome.next (State.probeRsp_other h turn t2 t4)
  · rintro ⟨t1, h⟩ ht
    rw [hth h]
    exact probeRsp_time_row h ht turn t2 t4
  · rintro ⟨t1, h⟩ ha hs hh
    rw [hth h]
    exact probeRsp_source_row h ha hs hh turn t2 t4
  · intro h
    exact congrArg Host.Outcome.next (State.sourceFails_none h)
  · intro q h
    exact ⟨_, rfl, State.sourceFails_left h⟩
  · intro h
    exact congrArg Host.Outcome.next (State.masterLost_ignored h)
  · intro hm ha hs
    exact ⟨_, rfl, State.masterLost_acts hm ha hs⟩
  · intro hm ha hs hid
    exact ⟨_, rfl, State.masterLost_holds hm ha hs hid⟩
  · intro h
    exact congrArg Host.Outcome.next (if_neg (Bool.eq_false_iff.mp h))
  · intro hp _ _
    refine ⟨fun e he hlt => congrArg Host.Outcome.next (State.ppsIn_early hp he hlt), fun hlate => ?_⟩
    exact congrArg Host.Outcome.next (State.ppsIn_steers hp hlate)
  · exact congrArg Host.Outcome.next (State.wholeSecond_pulse s)

end Sys2Proof.Machine

/-!
PROOFS of the family 02_addresses_and_translation: a WRITE to scratch (O60), the rows of translation (O32) and of invalidations (O33), and the segment
commands (O6). Between them stands the layer on which O33 and O6 rest: what the switch's own work leaves standing, first exactly (`State.footing`), then
up to what that work may add or drop (`Onward`).
-/

namespace Sys2Proof.Machine

/-! ### A WRITE to scratch is noted by its Clearing unit (05 R125) -/

/-- A switch whose first near-store step is scratch. -/
def scratchSwitch : State := { sw := { mem := { mask := [(0, 1)] } } }

/-- A WRITE of one byte to the first byte of scratch. -/
def scratchByte : Frame := { dest := 0, src := 0x43, cls := 3, typ := 8, offset := 0x20000000000, length := 1, data := [5] }

/-- The home neither refuses nor holds it. -/
theorem scratchByte_open : Open scratchByte scratchSwitch := by decide +kernel

/-- The line has begun a line operation, which the unit notes until its step ends. -/
theorem scratchByte_begun : ((scratchSwitch.homeRequest 0 scratchByte).sw.mem.unit.get 0 {}).begun = [(0x400000000, 0)] := by decide +kernel

/-- Refutes O60: the Clearing unit of the line, a part of the memory system beside the home and the order of stores, notes in `begun` that the WRITE has
begun (`State.noteStep`), so the memory system is not as it was. -/
theorem not_scratchWriteFrame : ¬ Obligations.ScratchWriteFrame := by
  unfold Obligations.ScratchWriteFrame
  intro h
  obtain ⟨t, ht, -, -, hmem, -⟩ := h scratchSwitch 0 scratchByte scratchByte_open rfl (by decide) rfl
  have hnext : scratchSwitch.homeRequest 0 scratchByte = t := Host.Outcome.next.inj ht
  have hkept : t.sw.mem.unit = [] := by
    rw [hmem]
    rfl
  have hbegun := scratchByte_begun
  rw [hnext, hkept] at hbegun
  exact absurd hbegun (by decide)
/-! ### Frames as rows take them -/

/-- A row that names its type takes a frame of that type as it is. -/
theorem Frame.typed {f : Frame} {n : Nat} (h : f.typ = n) : { f with typ := n } = f := by
  rw [← h]

/-- A frame that the AKG-8 takes has its credits returned, takes effect, and the end-point's work goes on. -/
theorem State.epIn_takes {s : State} {p : Nat} {f : Frame} (h : EpTakes p f s) (g : State → State) : s.epIn p f g = (g (s.credited p f)).pump := by
  obtain ⟨hlive, hoff, hinc⟩ := h
  have hin : (!s.ep.portLive p || s.ep.off) = false := by simp [hlive, hoff]
  have hacc : (s.emit (.ctrl .ep p (.credit [(f.cls, f.cells)]))).ep.accepts f = true := hinc
  unfold State.epIn State.epTake
  simp only [hin, hacc, Bool.false_eq_true, if_false, if_true]
  rfl

/-! ### Misses at the serving switch (02 R36, R42 to R45) -/

theorem State.taken_xlat (s : State) (f : Frame) : (s.taken f).sw.xlat = s.sw.xlat := by
  obtain ⟨-, -, -, -, -, -, -, -, -, -, hx, -⟩ := (State.taken_sent s f).fields
  exact hx

/-- A rack without a table base: a NO_SEGMENT fault. -/
theorem State.translateReq_noBase {s : State} {f : Frame} (h : s.sw.tableAddr (f.opxBits 51 36) = none) (p : Nat) :
    s.translateReq p f = ((s.taken f).xlatFault fNoSegment (f.opxBits 51 36) 0xFF f.partition none).answerMiss f stSegFault [] := by
  unfold State.translateReq
  dsimp only
  rw [h]
  rfl

/-- A read that the switch cannot issue fails at once. -/
theorem State.translateReq_noHost {s : State} {f : Frame} {a : Nat} (h : s.sw.tableAddr (f.opxBits 51 36) = some a)
    (hf : s.sw.readFails (f.opxBits 51 36) = true) (p : Nat) :
    s.translateReq p f = ((s.taken f).readFault (f.opxBits 51 36) f.partition).answerMiss f stTimeout [] := by
  unfold State.translateReq
  dsimp only
  rw [h]
  exact if_pos hf

/-- A miss that finds room joins or starts the host read of its context. -/
theorem State.translateReq_reads {s : State} {f : Frame} {a : Nat} (h : s.sw.tableAddr (f.opxBits 51 36) = some a)
    (hf : s.sw.readFails (f.opxBits 51 36) = false) (hr : s.sw.missRoom (f.opxBits 51 36) = true) (p : Nat) :
    s.translateReq p f = (s.taken f).startRead (f.opxBits 51 36) a (.endpoint p f) := by
  unfold State.translateReq
  dsimp only
  rw [h]
  exact (if_neg (by simp [hf])).trans (if_pos hr)

theorem Switch.readFails_noHost {w : Switch} {ctx : Nat} (hr : w.xlat.reads.find? (fun r => r.ctx == ctx) = none) : w.readFails ctx = !w.hostReads := by
  have : (w.xlat.reads.any fun r => r.ctx == ctx) = false := by
    rw [List.any_eq_false]
    exact List.find?_eq_none.mp hr
  simp [Switch.readFails, this]

/-- The first miss of a context, where there is room, starts its host read. -/
theorem State.startRead_first {s : State} {ctx : Nat} (hm : s.sw.missRoom ctx = true) (hr : s.sw.xlat.reads.find? (fun r => r.ctx == ctx) = none)
    (a : Nat) (m : Miss) :
    s.startRead ctx a m = (s.onXlat fun x => { x with reads := x.reads ++ [{ ctx := ctx, id := x.nextRead, waiters := [m] }]
                                                      nextRead := x.nextRead + 1 }).emit (.pcieRead a 1024) := by
  have hnone : (s.sw.xlat.reads.any fun r => r.ctx == ctx) = false := by
    rw [List.any_eq_false]
    exact List.find?_eq_none.mp hr
  simp only [Switch.missRoom, hnone, Bool.false_or, Bool.and_eq_true, decide_eq_true_eq] at hm
  obtain ⟨hwait, hreads⟩ := hm
  unfold State.startRead
  dsimp only
  rw [if_neg (by omega), hr]
  exact if_neg (by omega)

/-! ### The end of a host read (02 R42, R44, R49) -/

/-- The read has left the list of those in flight, and faults of what it held merge under it. -/
def State.readGone (s : State) (r : TableRead) : State :=
  s.onXlat fun x => { x with reads := x.reads.filter fun q => q.ctx != r.ctx, serving := some r.id }

/-- What found the limits of R43 reached tries again. -/
def State.missesGoOn (s : State) : State :=
  let v := s.onXlat fun x => { x with serving := none }
  (v.retranslate v.sw.unasked).escrowSettle

theorem State.answerRead_one {r : TableRead} {m : Miss} (hw : r.waiters = [m]) (s : State) (answer : State → Miss → State) :
    s.answerRead r answer = (answer (s.readGone r) m).missesGoOn := by
  unfold State.answerRead
  rw [hw]
  rfl

theorem State.tableReadFailed_one {s : State} {ctx : Nat} {r : TableRead} {port : Nat} {g : Frame}
    (hr : s.sw.xlat.reads.find? (fun r => r.ctx == ctx) = some r) (hw : r.waiters = [.endpoint port g]) :
    s.tableReadFailed ctx = (((s.readGone r).xlatFault fTableRead ctx 0xFF g.partition (some r.id)).answerMiss g stTimeout []).missesGoOn := by
  unfold State.tableReadFailed
  rw [hr]
  exact State.answerRead_one hw s _

theorem State.tableRead_stale_noHost {s : State} {ctx : Nat} {r : TableRead} (hr : s.sw.xlat.reads.find? (fun r => r.ctx == ctx) = some r)
    (hs : r.stale = true) (hh : s.sw.hostReads = false) (data : List Byte) : s.tableRead ctx data = s.tableReadFailed ctx := by
  unfold State.tableRead
  rw [hr]
  exact if_pos (by simp [hs, hh])

theorem State.tableRead_stale {s : State} {ctx a : Nat} {r : TableRead} (hr : s.sw.xlat.reads.find? (fun r => r.ctx == ctx) = some r)
    (hs : r.stale = true) (hh : s.sw.hostReads = true) (ha : s.sw.tableAddr ctx = some a) (data : List Byte) :
    s.tableRead ctx data = (s.onXlat fun x => { x with
      reads := x.reads.map fun q => if q.ctx == ctx then { q with stale := false, id := x.nextRead } else q, nextRead := x.nextRead + 1 }).emit (.pcieRead a 1024) := by
  unfold State.tableRead
  rw [hr]
  dsimp only
  rw [if_neg (by simp [hh]), if_pos hs, ha]

theorem State.tableRead_one {s : State} {ctx : Nat} {r : TableRead} {m : Miss} (hr : s.sw.xlat.reads.find? (fun r => r.ctx == ctx) = some r)
    (hs : r.stale = false) (hw : r.waiters = [m]) (data : List Byte) :
    s.tableRead ctx data = ((s.readGone r).serveWaiter r (padTo 1024 data) m).missesGoOn := by
  unfold State.tableRead
  rw [hr]
  dsimp only
  rw [if_neg (by simp [hs]), if_neg (by simp [hs])]
  exact State.answerRead_one hw s _

/-- An end-point's miss is answered with the one descriptor that covers its address. -/
theorem State.serveWaiter_found {s : State} {r : TableRead} {data : List Byte} {g : Frame} {seg : Nat} {d : Desc}
    (h : s.sw.serveMiss s.exposedSize data r.ctx g.partition (g.ext.toNat % 2 ^ 56) = .ok seg d) (port : Nat) :
    s.serveWaiter r data (.endpoint port g) = s.answerMiss g stOk d.bytes := by
  unfold State.serveWaiter
  dsimp only
  rw [h]

/-- Or the fault that the entry has is recorded, and it ends with SEG_FAULT. -/
theorem State.serveWaiter_faulty {s : State} {r : TableRead} {data : List Byte} {g : Frame} {kind seg : Nat}
    (h : s.sw.serveMiss s.exposedSize data r.ctx g.partition (g.ext.toNat % 2 ^ 56) = .bad kind seg) (port : Nat) :
    s.serveWaiter r data (.endpoint port g) = (s.xlatFault kind r.ctx seg g.partition (some r.id)).answerMiss g stSegFault [] := by
  unfold State.serveWaiter
  dsimp only
  rw [h]

/-- The answer of a miss is held in both levels, and what waited for it goes on. -/
theorem State.epTranslated_answer {s : State} {p : Nat} {f : Frame} {x : EpFlight} {who : EpWaiter} {cva : Nat}
    (hx : s.ep.flightAt p f.tag = some x) (hk : x.kind = .translate who cva) :
    s.epTranslated p f = let v := s.dropEpFlight p f.tag
      (if f.status = stOk then v.epHold x.agent x.ctx (decodeDesc f.data) else v).xlatDone who cva f.status := by
  unfold State.epTranslated
  rw [hx]
  dsimp only
  rw [hk]

/-- Settles O32: each row is the equation of its operation. -/
theorem translationRowsComplete : Obligations.TranslationRowsComplete := by
  unfold Obligations.TranslationRowsComplete
  intro s p f u ctx
  refine ⟨fun ht => ?_, fun x who cva hep hx hk => ?_, fun ctx r hr => ?_⟩
  · have hrow : exec (.translateReq p f) s = Host.Outcome.next (s.translateReq p f) :=
      congrArg (fun g => Host.Outcome.next (s.translateReq p g)) (Frame.typed ht)
    rw [hrow]
    refine ⟨fun hn => ?_, fun a ha hm hf hh => ?_, fun a ha hf hh => ?_⟩
    · exact congrArg Host.Outcome.next (State.translateReq_noBase hn p)
    · have hroom : u.sw.missRoom ctx = true := by
        rw [← hm]
        unfold Switch.missRoom
        rw [State.taken_xlat]
      rw [State.translateReq_reads ha (by rw [Switch.readFails_noHost hf, hh]; rfl) hm,
        State.startRead_first hroom (by rw [State.taken_xlat]; exact hf)]
    · exact congrArg Host.Outcome.next (State.translateReq_noHost ha (by rw [Switch.readFails_noHost hf, hh]; rfl) p)
  · have hrow : exec (.translateRsp p f) s = Host.Outcome.next (s.epIn p f fun s => s.epTranslated p f) := rfl
    rw [hrow, State.epIn_takes hep]
    exact congrArg (fun v : State => Host.Outcome.next v.pump) (State.epTranslated_answer hx hk)
  · refine ⟨fun data hs hh => ?_, fun data a hs hh ha => ?_, fun port g hw => ⟨fun data hs => ?_, ?_⟩⟩
    · exact congrArg Host.Outcome.next (State.tableRead_stale_noHost hr hs hh data)
    · exact congrArg Host.Outcome.next (State.tableRead_stale hr hs hh ha data)
    · have hrow : exec (.tableReadComplete ctx data) s = Host.Outcome.next (s.tableRead ctx data) := rfl
      rw [hrow, State.tableRead_one hr hs hw data]
      split
      · next d hfound => exact congrArg (fun v : State => Host.Outcome.next v.missesGoOn) (State.serveWaiter_found (s := s.readGone r) hfound port)
      · next kind seg hfound => exact congrArg (fun v : State => Host.Outcome.next v.missesGoOn) (State.serveWaiter_faulty (s := s.readGone r) hfound port)
    · exact congrArg Host.Outcome.next (State.tableReadFailed_one hr hw)
end Sys2Proof.Machine

namespace Sys2Proof.Tab


/-! ### Entries of tables -/

theorem mem_put {α : Type} {t : Tab α} {k : Nat} {a : α} {e : Nat × α} (h : e ∈ put t k a) : e = (k, a) ∨ e ∈ t := by
  induction t with
  | nil => exact .inl (by simpa [put] using h)
  | cons p t ih =>
    obtain ⟨j, b⟩ := p
    unfold put at h
    split at h
    · exact List.mem_cons.mp h
    · split at h
      · exact (List.mem_cons.mp h).imp_right (List.mem_cons_of_mem _)
      · obtain rfl | h := List.mem_cons.mp h
        · exact .inr List.mem_cons_self
        · exact (ih h).imp_right (List.mem_cons_of_mem _)

theorem mem_of_find {α : Type} {t : Tab α} {k : Nat} {a : α} (h : find t k = some a) : (k, a) ∈ t := by
  induction t with
  | nil => simp [find] at h
  | cons p t ih =>
    obtain ⟨j, b⟩ := p
    unfold find at h
    split at h
    · next hj =>
      rw [hj, Option.some.inj h]
      exact List.mem_cons_self
    · exact List.mem_cons_of_mem _ (ih h)


end Sys2Proof.Tab

namespace Sys2Proof.Machine

/-! ### What the switch's own work leaves standing -/

/-- The parts of a switch that its own work changes at few places: commands, verdicts, engines, translations, and, where it is asked for, the home. -/
def Switch.footing (home : Bool) (w : Switch) : Teller × Tab EpRec × Tab Engine × Tab (List Held) × List Held × Nat × Option Home :=
  (w.teller, w.mgmt.rec_, w.escrow.engine, w.xlat.l1, w.xlat.l2, w.xlat.count, bif home then some w.mem.home else none)

def State.footing (home : Bool) (s : State) : Teller × Tab EpRec × Tab Engine × Tab (List Held) × List Held × Nat × Option Home := s.sw.footing home

@[simp] theorem State.footing_ite (k : Bool) (c : Prop) [Decidable c] (s t : State) :
    (if c then s else t).footing k = if c then s.footing k else t.footing k := apply_ite _ _ _ _

@[simp] theorem State.footing_each {α : Type} {k : Bool} {g : State → α → State} (hg : ∀ u a, (g u a).footing k = u.footing k) (s : State) (l : List α) :
    (s.each l g).footing k = s.footing k :=
  State.each_keeps (P := fun u => u.footing k = s.footing k) rfl fun u hu a => (hg u a).trans hu

theorem SentFrame.footing {s t : State} (h : SentFrame s t) (k : Bool) : t.footing k = s.footing k := by
  obtain ⟨-, -, -, hmem, -, hteller, hescrow, hmgmt, -, -, hxlat, -⟩ := h.fields
  simp only [State.footing, Switch.footing, hmem, hteller, hescrow, hmgmt, hxlat]

theorem ReportFrame.footing {s t : State} (h : ReportFrame s t) (k : Bool) : t.footing k = s.footing k := by
  obtain ⟨hteller, -, -, hmem, hxlat, -, -, -, -, hescrow, -, hmgmt, -⟩ := h.fields
  simp only [State.footing, Switch.footing, hmem, hteller, hescrow, hmgmt, hxlat]

section
variable (k : Bool)

theorem State.onSw_footing {g : Switch → Switch} (hg : ∀ w, (g w).footing k = w.footing k) (s : State) : (s.onSw g).footing k = s.footing k :=
  hg s.sw

@[simp] theorem State.onSw_core_footing (s : State) (g : Switch → Core) : (s.onSw fun w => { w with core := g w }).footing k = s.footing k := rfl

@[simp] theorem State.onEscrow_footing {g : Escrow → Escrow} (hg : ∀ e, (g e).engine = e.engine) (s : State) : (s.onEscrow g).footing k = s.footing k := by
  rw [State.onEscrow, State.onSw_footing]
  exact fun w => by rw [Switch.footing, hg, Switch.footing]

@[simp] theorem State.onMem_footing (s : State) (g : Mem → Mem) : (s.onMem g).footing false = s.footing false := rfl
@[simp] theorem State.emit_footing (s : State) (o : Out) : (s.emit o).footing k = s.footing k := rfl
@[simp] theorem State.onEp_footing (s : State) (g : EndPoint → EndPoint) : (s.onEp g).footing k = s.footing k := rfl
@[simp] theorem State.free_footing (s : State) : s.free.2.footing k = s.footing k := rfl
@[simp] theorem State.onHost_footing (s : State) (g : HostIf → HostIf) : (s.onHost g).footing k = s.footing k := rfl
@[simp] theorem State.putSlot_footing (s : State) (i : Nat) (v : KeySlot) : (s.putSlot i v).footing k = s.footing k := rfl
@[simp] theorem State.putSynd_footing (s : State) (i : Nat) (y : Synd) : (s.putSynd i y).footing k = s.footing k := rfl
@[simp] theorem State.putLedger_footing (s : State) (p : Nat) (l : Ledger) : (s.putLedger p l).footing k = s.footing k := rfl
@[simp] theorem State.noteDiscard_footing (s : State) (p : Nat) : (s.noteDiscard p).footing k = s.footing k := rfl
@[simp] theorem State.takeWaiting_footing (s : State) (sel : Nat → Frame → Bool) : (s.takeWaiting sel).2.footing k = s.footing k := rfl
@[simp] theorem State.cutQueued_footing (s : State) (key : Nat) (sel : Frame → Bool) : (s.cutQueued key sel).2.footing k = s.footing k := rfl

@[simp] theorem State.count_footing (s : State) (block i : Nat) : (s.count block i).footing k = s.footing k := rfl
@[simp] theorem State.work_footing (s : State) (kind i : Nat) : (s.work kind i).footing k = s.footing k := (State.work_sent s kind i).footing k
@[simp] theorem State.freeCells_footing (s : State) (b : Buffered) : (s.freeCells b).footing k = s.footing k := (State.freeCells_sent s b).footing k
@[simp] theorem State.join_footing (s : State) (key : Nat) (b : Buffered) : (s.join key b).footing k = s.footing k := (State.join_sent s key b).footing k
@[simp] theorem State.enqueue_footing (s : State) (key src : Nat) (f : Frame) : (s.enqueue key src f).footing k = s.footing k :=
  (State.enqueue_sent s key src f).footing k
@[simp] theorem State.swSend_footing (s : State) (src : Nat) (f : Frame) : (s.swSend src f).footing k = s.footing k := (State.swSend_sent s src f).footing k
@[simp] theorem State.swSendPort_footing (s : State) (src p : Nat) (f : Frame) : (s.swSendPort src p f).footing k = s.footing k :=
  (State.swSendPort_sent s src p f).footing k
@[simp] theorem State.collSend_footing (s : State) (f : Frame) : (s.collSend f).footing k = s.footing k := State.swSend_footing k s _ f
@[simp] theorem State.setEvent_footing (s : State) (b : Nat) : (s.setEvent b).footing k = s.footing k := (State.setEvent_report s b).footing k
@[simp] theorem State.record_footing (s : State) (o : Occurrence) : (s.record o).footing k = s.footing k := (State.record_report s o).footing k
@[simp] theorem State.noteHigh_footing (s : State) (p : Nat) : (s.noteHigh p).footing k = s.footing k := (State.noteHigh_report s p).footing k
@[simp] theorem State.ledgerAdd_footing (s : State) (p : Nat) (e : Entry) : (s.ledgerAdd p e).footing k = s.footing k :=
  (State.ledgerAdd_report s p e).footing k

/-! ### Frames that are taken back or discarded -/

@[simp] theorem State.takeQueued_footing (s : State) (key : Nat) (sel : Frame → Bool) : (s.takeQueued key sel).2.footing k = s.footing k := by
  simp [State.takeQueued]

theorem State.takeUnsent_footing {s t : State} {sel : Frame → Bool} (h : s.takeUnsent sel = some t) : t.footing k = s.footing k := by
  unfold State.takeUnsent at h
  split at h
  · rw [← Option.some.inj h, State.takeWaiting_footing]
  · obtain ⟨q, -, rfl⟩ := Option.map_eq_some_iff.mp h
    exact State.takeQueued_footing k s q.1 sel

@[simp] theorem State.withdrawFlight_footing (s : State) (x : Flight) : (s.withdrawFlight x).footing k = s.footing k := by
  unfold State.withdrawFlight
  cases h : s.takeUnsent (x.frameIs s.sw.sys.homeId) with
  | none => rfl
  | some t => exact State.takeUnsent_footing k h

@[simp] theorem State.unsend_footing (s : State) (x : Flight) (again : Bool) : (s.unsend x again).footing k = s.footing k := by
  unfold State.unsend
  split
  · rfl
  · next t h => exact (State.onEscrow_footing k (fun _ => rfl) t).trans (State.takeUnsent_footing k h)

@[simp] theorem State.uncount_footing (s : State) (f : Frame) : (s.uncount f).footing k = s.footing k := by
  simp [State.uncount]

@[simp] theorem State.answerFor_footing (s : State) (f : Frame) (status : Nat) : (s.answerFor f status).footing k = s.footing k := by
  unfold State.answerFor
  split
  · dsimp only
    split <;> simp
  · rfl

@[simp] theorem State.answerIn_footing (s : State) (b : Buffered) (status : Nat) : (s.answerIn b status).footing k = s.footing k := by
  unfold State.answerIn
  split
  · dsimp only
    split <;> simp [State.keepCell]
  · simp

@[simp] theorem State.loseTarget_footing (s : State) (h : Nat) : (s.loseTarget h).footing k = s.footing k := by
  simp [State.loseTarget]

@[simp] theorem State.voidOut_footing (s : State) (o reason : Nat) : (s.voidOut o reason).footing k = s.footing k := by
  have hcut : (s.endCut o).footing k = s.footing k := by
    unfold State.endCut
    split <;> simp
  simp [State.voidOut, hcut]

@[simp] theorem State.discardQueues_footing (s : State) (p : Nat) : (s.discardQueues p).footing k = s.footing k := by
  simp [State.discardQueues, State.voidFree, State.discardIn, State.discard, State.unreached]

@[simp] theorem State.cutOpen_footing (s : State) (p reason : Nat) : (s.cutOpen p reason).footing k = s.footing k := by
  simp [State.cutOpen, State.voidFrames]

/-! ### Books, needs and the frequency source -/

@[simp] theorem State.onSched_footing (s : State) (d : Dev) (g : Sched → Sched) : (s.onSched d g).footing k = s.footing k := by
  cases d <;> rfl

@[simp] theorem State.onClock_footing (s : State) (d : Dev) (g : Clock → Clock) : (s.onClock d g).footing k = s.footing k := by
  cases d <;> rfl

@[simp] theorem State.putLink_footing (s : State) (d : Dev) (p : Nat) (l : Link) : (s.putLink d p l).footing k = s.footing k := by
  cases d <;> rfl

@[simp] theorem State.mgmtOut_footing (s : State) (d : Dev) (p msub tag : Nat) (data : List Byte) : (s.mgmtOut d p msub tag data).footing k = s.footing k := by
  cases d with
  | sw => exact State.swSendPort_footing k s _ p _
  | ep => rfl

@[simp] theorem State.floodPast_footing (s : State) (d : Dev) (past : List Nat) (msub : Nat) (data : List Byte) :
    (s.floodPast d past msub data).footing k = s.footing k := by
  have hseen (l : List (Nat × List Byte)) : (s.putSeen d l).footing k = s.footing k := by cases d <;> rfl
  simp [State.floodPast, State.sendPast, hseen]

@[simp] theorem State.takeBook_footing (s : State) (d : Dev) (b : Nat) : (s.takeBook d b).footing k = s.footing k := by
  cases d <;> simp [State.takeBook]

@[simp] theorem State.decideBook_footing (s : State) (held : Bool) : (s.decideBook held).footing k = s.footing k := by
  simp [State.decideBook, State.changeBook, State.sendBookSet]

@[simp] theorem State.refreshNarrow_footing (s : State) : s.refreshNarrow.footing k = s.footing k := by
  simp [State.refreshNarrow, State.reportNeeds, State.noteReport, State.flood]

@[simp] theorem State.closeGates_footing (s : State) (d : Dev) : (s.closeGates d).footing k = s.footing k :=
  State.footing_each (fun u p => by cases d <;> rfl) s _

@[simp] theorem State.enterHoldover_footing (s : State) (d : Dev) : (s.enterHoldover d).footing k = s.footing k := by
  cases d <;> simp [State.enterHoldover, State.epRaise]

@[simp] theorem State.retime_footing (s : State) (d : Dev) : (s.retime d).footing k = s.footing k := by
  unfold State.retime
  dsimp only
  split
  · simp
  · split <;> simp

@[simp] theorem State.lostSource_footing (s : State) (d : Dev) (p : Nat) : (s.lostSource d p).footing k = s.footing k := by
  unfold State.lostSource State.sourceFails
  split
  · split <;> simp
  · rfl

/-! ### Collectives -/

@[simp] theorem State.putEpoch_footing (s : State) (i : Nat) (e : Epoch) : (s.putEpoch i e).footing k = s.footing k := by
  unfold State.putEpoch
  split <;> simp

@[simp] theorem State.closeEpoch_footing (s : State) (synd number : Nat) : (s.closeEpoch synd number).footing k = s.footing k := by
  unfold State.closeEpoch
  split <;> simp

@[simp] theorem State.sendColl_footing (s : State) (y : Synd) (e : Epoch) (synd rank typ attempt check chunk status : Nat) :
    (s.sendColl y e synd rank typ attempt check chunk status).footing k = s.footing k := by
  unfold State.sendColl
  split <;> simp

@[simp] theorem State.abortEpoch_footing (s : State) (synd number status : Nat) : (s.abortEpoch synd number status).footing k = s.footing k := by
  unfold State.abortEpoch
  split
  · rfl
  · split <;> simp [State.sendCollSwitches]

@[simp] theorem State.cutOff_footing (s : State) (p : Nat) : (s.cutOff p).footing k = s.footing k := by
  unfold State.cutOff
  refine State.footing_each (fun u i => State.footing_each (fun v e => ?_) u _) s _
  simp

@[simp] theorem State.abortFrom_footing (s : State) (synd number status : Nat) : (s.abortFrom synd number status).footing k = s.footing k := by
  unfold State.abortFrom
  split
  · rfl
  · split
    · simp
    · split <;> simp

@[simp] theorem State.loseMember_footing (s : State) (h : Nat) (agent : Option Nat) : (s.loseMember h agent).footing k = s.footing k := by
  unfold State.loseMember
  refine State.footing_each (fun u i => ?_) s _
  split <;> simp [State.lossNotice]

@[simp] theorem State.collFail_footing (s : State) (synd number chunk : Nat) : (s.collFail synd number chunk).footing k = s.footing k := by
  unfold State.collFail
  dsimp only
  split
  · simp
  · split <;> simp

@[simp] theorem State.computeNow_footing (s : State) (y : Synd) (e : Epoch) (synd chunk : Nat) : (s.computeNow y e synd chunk).footing k = s.footing k := by
  have hresult (u : State) (e : Epoch) (attempt : Nat) (o : Operand) (all : List (Nat × Operand)) :
      (u.sendResult y e synd chunk attempt o all).footing k = u.footing k := by
    unfold State.sendResult
    refine State.footing_each (fun v r => ?_) u _
    split <;> simp
  unfold State.computeNow
  dsimp only
  split <;> simp [State.sendPartial, hresult]

@[simp] theorem State.collWait_footing (s : State) (synd number chunk at_ : Nat) : (s.collWait synd number chunk at_).footing k = s.footing k := by
  simp [State.collWait]

@[simp] theorem State.collRun_footing (s : State) (synd number chunk n j : Nat) : (s.collRun synd number chunk n j).footing k = s.footing k :=
  (State.footing_each (fun u _ => State.count_footing k u _ 0) _ _).trans (State.onEscrow_footing k (fun _ => rfl) s)

@[simp] theorem State.computeChunk_footing (s : State) (synd number chunk : Nat) : (s.computeChunk synd number chunk).footing k = s.footing k := by
  unfold State.computeChunk
  split
  · rfl
  · split
    · rfl
    · dsimp only
      split
      · rfl
      · split
        · simp
        · split <;> simp

@[simp] theorem State.collDispatch_footing (s : State) : s.collDispatch.footing k = s.footing k := by
  simp [State.collDispatch]
end

/-! ### The home's own work: requests, holders and lines -/

@[simp] theorem State.onUnit_footing (s : State) (u : Nat) (g : Unit → Unit) : (s.onUnit u g).footing false = s.footing false := rfl
@[simp] theorem State.onHome_footing (s : State) (g : Home → Home) : (s.onHome g).footing false = s.footing false := rfl
@[simp] theorem State.onLine_footing (s : State) (l : Nat) (g : LineMeta → LineMeta) : (s.onLine l g).footing false = s.footing false := rfl
@[simp] theorem State.putEntry_footing (s : State) (e : DirEntry) : (s.putEntry e).footing false = s.footing false := rfl
@[simp] theorem State.putBusy_footing (s : State) (b : Busy) : (s.putBusy b).footing false = s.footing false := rfl
@[simp] theorem State.endBusy_footing (s : State) (l : Nat) : (s.endBusy l).footing false = s.footing false := rfl
@[simp] theorem State.retryFirst_footing (s : State) (pos : Nat) (f : Frame) : (s.retryFirst pos f).footing false = s.footing false := rfl

@[simp] theorem State.freeEntry_footing (s : State) (l : Nat) : (s.freeEntry l).footing false = s.footing false := by
  unfold State.freeEntry
  split <;> simp

@[simp] theorem State.loseLine_footing (s : State) (l : Nat) : (s.loseLine l).footing false = s.footing false := by
  simp [State.loseLine]

@[simp] theorem State.dropHolder_footing (s : State) (l h : Nat) : (s.dropHolder l h).footing false = s.footing false := by
  unfold State.dropHolder
  split
  · rfl
  · split <;> simp

@[simp] theorem State.homeRespond_footing (s : State) (f : Frame) (status : Nat) (data : List Byte) (cache : Nat) :
    (s.homeRespond f status data cache).footing false = s.footing false :=
  ((State.homeRespond_sent s f status data cache).footing false).trans (State.uncount_footing false s f)

@[simp] theorem State.homeAfterMirror_footing (s : State) (f : Frame) (pos : Nat) : (s.homeAfterMirror f pos).footing false = s.footing false := by
  unfold State.homeAfterMirror
  split
  · split <;> simp
  · simp

@[simp] theorem State.backInvLine_footing (s : State) (l : Nat) : (s.backInvLine l).footing false = s.footing false := by
  unfold State.backInvLine
  split <;> simp [State.sendBackInv]

@[simp] theorem State.takeBackDue_footing (s : State) : s.takeBackDue.footing false = s.footing false := by
  simp [State.takeBackDue]

/-! ### Errors of stored lines -/

@[simp] theorem State.fenceChannel_footing (s : State) (c : Nat) : (s.fenceChannel c).footing false = s.footing false := by
  simp [State.fenceChannel, State.fenceChannelBase]

@[simp] theorem State.retirePage_footing (s : State) (c page : Nat) : (s.retirePage c page).footing false = s.footing false := by
  simp [State.retirePage]

@[simp] theorem State.eccSeen_footing (s : State) (l : Nat) : (s.eccSeen l).footing false = s.footing false := by
  simp [State.eccSeen]

@[simp] theorem State.correctLine_footing (s : State) (l : Nat) : (s.correctLine l).footing false = s.footing false := by
  unfold State.correctLine
  split
  · rfl
  · split <;> simp [State.eccCorrected]

@[simp] theorem State.readLine_footing (s : State) (l slot : Nat) : (s.readLine l slot).2.footing false = s.footing false := by
  unfold State.readLine
  dsimp only
  split
  · simp
  · split <;> simp

@[simp] theorem State.fetchLine_footing (s : State) (l slot : Nat) : (s.fetchLine l slot).2.footing false = s.footing false := by
  simp [State.fetchLine]

/-! ### Requests that are performed -/

@[simp] theorem State.readRange_footing (s : State) (f : Frame) : (s.readRange f).2.footing false = s.footing false := by
  unfold State.readRange
  split
  · refine List.foldlRecOn (motive := fun a : Option (List Byte) × State => a.2.footing false = s.footing false) f.lines _ rfl fun a ha l _ => ?_
    have hline := State.fetchLine_footing a.2 l (a.2.sw.slotAt (l * 128) f.keySlot)
    dsimp only
    split
    · exact ha
    · split
      · next u hu =>
        rw [hu] at hline
        simpa using hline.trans ha
      · next d u hu =>
        rw [hu] at hline
        exact hline.trans ha
  · split <;> rfl

@[simp] theorem State.partsReadable_footing (s : State) (f : Frame) : (s.partsReadable f).2.footing false = s.footing false := by
  unfold State.partsReadable
  split
  · refine List.foldlRecOn (motive := fun a : Bool × State => a.2.footing false = s.footing false) f.lines _ rfl fun a ha l _ => ?_
    have hline := State.fetchLine_footing a.2 l (a.2.sw.slotAt (l * 128) f.keySlot)
    split
    · exact ha
    · split
      · next u hu =>
        rw [hu] at hline
        simpa using hline.trans ha
      · next d u hu =>
        rw [hu] at hline
        exact hline.trans ha
  · rfl

@[simp] theorem State.writeLine_footing (s : State) (l slot : Nat) (data : List Byte) : (s.writeLine l slot data).footing false = s.footing false := by
  simp [State.writeLine]

@[simp] theorem State.writeRange_footing (s : State) (f : Frame) (data : List Byte) : (s.writeRange f data).footing false = s.footing false := by
  unfold State.writeRange
  split
  · refine State.footing_each (fun u l => ?_) s _
    have hline := State.fetchLine_footing u l (u.sw.slotAt (l * 128) f.keySlot)
    dsimp only
    split
    · simp
    · split
      · next v hv =>
        rw [hv] at hline
        exact hline
      · next d v hv =>
        rw [hv] at hline
        simpa using hline
  · rfl

@[simp] theorem State.mirrorLine_footing (s : State) (l : Nat) : (s.mirrorLine l).2.footing false = s.footing false := by
  unfold State.mirrorLine
  dsimp only
  split <;> rfl

@[simp] theorem State.mirrorLines_footing (s : State) (ls : List Nat) : (s.mirrorLines ls).2.footing false = s.footing false := by
  refine List.foldlRecOn (motive := fun a : Option Nat × State => a.2.footing false = s.footing false) ls _ rfl fun a ha l _ => ?_
  dsimp only
  split
  · split
    · exact (State.mirrorLine_footing a.2 l).trans ha
    · exact ha
  · exact ha

@[simp] theorem State.homeFinish_footing (s : State) (f : Frame) (pos : Nat) (data : List Byte) (lines : List Nat) :
    (s.homeFinish f pos data lines).footing false = s.footing false := by
  unfold State.homeFinish
  dsimp only
  split <;> simp

@[simp] theorem State.performRead_footing (s : State) (f : Frame) (cache : Nat) : (s.performRead f cache).footing false = s.footing false := by
  have hread := State.readRange_footing s f
  unfold State.performRead
  split
  · next u hu =>
    rw [hu] at hread
    simpa using hread
  · next d u hu =>
    rw [hu] at hread
    simpa using hread

@[simp] theorem State.performWrite_footing (s : State) (f : Frame) (pos : Nat) : (s.performWrite f pos).footing false = s.footing false := by
  have hparts := State.partsReadable_footing s f
  unfold State.performWrite
  split
  · next u hu =>
    rw [hu] at hparts
    simpa using hparts
  · next u hu =>
    rw [hu] at hparts
    simpa [State.logInput] using hparts

@[simp] theorem State.performAtomic_footing (s : State) (f : Frame) (pos : Nat) : (s.performAtomic f pos).footing false = s.footing false := by
  have hread := State.readRange_footing s { f with length := atomicSize (aopOf f.opx) f.length }
  unfold State.performAtomic
  dsimp only
  split
  · next u hu =>
    rw [hu] at hread
    simpa using hread
  · next d u hu =>
    rw [hu] at hread
    split <;> simpa [State.logTicker] using hread

@[simp] theorem State.performDeposit_footing (s : State) (f : Frame) (pos : Nat) : (s.performDeposit f pos).footing false = s.footing false := by
  simp [State.performDeposit]

@[simp] theorem State.ask_footing (s : State) (pos : Nat) (f : Frame) (e : DirEntry) (targets : List (Nat × Nat)) (b : Busy) :
    (s.ask pos f e targets b).footing false = s.footing false := by
  simp [State.ask, State.sendSnoop]

@[simp] theorem State.grant_footing (s : State) (pos : Nat) (f : Frame) (cache : Nat) (next : DirEntry) :
    (s.grant pos f cache next).footing false = s.footing false := by
  have hread := State.readRange_footing s f
  unfold State.grant
  dsimp only
  split
  · simp
  · split
    · next u hu =>
      rw [hu] at hread
      simpa using hread
    · next d u hu =>
      rw [hu] at hread
      simpa using hread

@[simp] theorem State.serveGrant_footing (s : State) (pos : Nat) (f : Frame) : (s.serveGrant pos f).footing false = s.footing false := by
  unfold State.serveGrant
  dsimp only
  split
  · simp
  · next e _ =>
    cases e.state <;> cases e.sharers <;> simp

@[simp] theorem State.serveOpen_footing (s : State) (pos : Nat) (f : Frame) : (s.serveOpen pos f).footing false = s.footing false := by
  unfold State.serveOpen
  dsimp only
  split
  · simp
  · split <;> simp

@[simp] theorem State.serve_footing (s : State) (pos : Nat) (f : Frame) : (s.serve pos f).footing false = s.footing false := by
  unfold State.serve
  split <;> simp [State.refuse]

@[simp] theorem State.advance_footing (s : State) (l : Nat) : (s.advance l).footing false = s.footing false := by
  unfold State.advance
  split
  · rfl
  · next b _ =>
    cases hs : b.stage <;> cases hn : b.next <;> simp

/-! ### A lost holder (05 R138, R139) -/

@[simp] theorem State.noteAnswer_footing (s : State) (l h result : Nat) : (s.noteAnswer l h result).footing false = s.footing false := by
  unfold State.noteAnswer
  split
  · rfl
  · split
    · rfl
    · cases he : s.sw.entry l <;> simp

@[simp] theorem State.loseBusy_footing (s : State) (h : Nat) (b : Busy) : (s.loseBusy h b).footing false = s.footing false := by
  unfold State.loseBusy
  extract_lets l b u v w
  have hv : v.footing false = s.footing false := by
    show State.footing false (match b.stage with | .ack => _ | .forward => _ | .fill _ => _ | .grant _ => _ | _ => _) = _
    cases b.stage <;> simp [u]
  clear_value v
  split
  · exact hv
  · simp [w, hv]

@[simp] theorem State.loseEntry_footing (s : State) (h l : Nat) : (s.loseEntry h l).footing false = s.footing false := by
  unfold State.loseEntry
  split
  · rfl
  · split
    · split
      · simp
      · split <;> simp
    · simp

@[simp] theorem State.loseHolder_footing (s : State) (h : Nat) : (s.loseHolder h).footing false = s.footing false := by
  simp [State.loseHolder]

/-! ### What goes on keeps what stands -/

/-- The same command, whatever its work has come to. -/
def Active.Same (a b : Active) : Prop := b.fn = a.fn ∧ b.mb = a.mb ∧ b.work = a.work ∧ b.holds = a.holds

/-- A translation is held at one of the two levels (02 R38). -/
def Xlat.Holds (x : Xlat) (h : Held) : Prop := h ∈ x.l2 ∨ ∃ l ∈ x.l1, h ∈ l.2

/-- The switch goes on: commands stay on the list, verdicts and fences of engines stand, no translation is held that was not, and, where k asks for it,
the home is as it was. -/
structure Onward (k : Bool) (s t : State) : Prop where
  teller : t.sw.teller.state = s.sw.teller.state
  listed : ∀ a ∈ s.sw.teller.active, ∃ b ∈ t.sw.teller.active, a.Same b
  verdict : ∀ h, (s.sw.epRec h).verdict = true → (t.sw.epRec h).verdict = true
  fenced : ∀ e, (s.sw.getEngine e).fenced = true → (t.sw.getEngine e).fenced = true
  count : t.sw.xlat.count = s.sw.xlat.count
  holds : ∀ h, t.sw.xlat.Holds h → s.sw.xlat.Holds h
  home : k = true → t.sw.mem.home = s.sw.mem.home

theorem Onward.of_footing {k : Bool} {s t : State} (h : t.footing k = s.footing k) : Onward k s t := by
  simp only [State.footing, Switch.footing, Prod.mk.injEq] at h
  obtain ⟨hteller, hrec, hengine, hl1, hl2, hcount, hhome⟩ := h
  refine ⟨by rw [hteller], fun a ha => ⟨a, by rwa [hteller], rfl, rfl, rfl, rfl⟩, fun h hv => ?_, fun e hf => ?_, hcount, fun h hh => ?_, fun hk => ?_⟩
  · rwa [Switch.epRec, hrec]
  · rwa [Switch.getEngine, hengine]
  · rwa [Xlat.Holds, hl1, hl2] at hh
  · simpa [hk] using hhome

theorem Onward.refl (k : Bool) (s : State) : Onward k s s := .of_footing rfl

theorem Onward.trans {k : Bool} {s t u : State} (h : Onward k s t) (j : Onward k t u) : Onward k s u where
  teller := j.teller.trans h.teller
  listed a ha := by
    obtain ⟨b, hb, h1, h2, h3, h4⟩ := h.listed a ha
    obtain ⟨c, hc, j1, j2, j3, j4⟩ := j.listed b hb
    exact ⟨c, hc, j1.trans h1, j2.trans h2, j3.trans h3, j4.trans h4⟩
  verdict x hx := j.verdict x (h.verdict x hx)
  fenced e he := j.fenced e (h.fenced e he)
  count := j.count.trans h.count
  holds x hx := h.holds x (j.holds x hx)
  home hk := (j.home hk).trans (h.home hk)

/-- After a step that leaves the footing. -/
theorem Onward.after {k : Bool} {s t u : State} (h : Onward k t u) (hf : t.footing k = s.footing k) : Onward k s u := (Onward.of_footing hf).trans h

/-- Before a step that leaves the footing. -/
theorem Onward.then {k : Bool} {s t u : State} (h : Onward k s t) (hf : u.footing k = t.footing k) : Onward k s u := h.trans (.of_footing hf)

theorem Onward.each {α : Type} {k : Bool} {l : List α} {g : State → α → State} {s : State} (hg : ∀ u a, Onward k u (g u a)) : Onward k s (s.each l g) :=
  State.each_keeps (Onward.refl k s) fun _ hu a => hu.trans (hg _ a)

theorem Onward.of_ite {k : Bool} {s t u : State} {c : Prop} [Decidable c] (ht : Onward k s t) (hu : Onward k s u) : Onward k s (if c then t else u) := by
  split <;> assumption

/-! ### Translations that are looked up (02 R38, R42, R46) -/

/-- A translation that is put in front of a level is held there, or was. -/
theorem mem_holdIn {n : Nat} {h x : Held} {l : List Held} (hx : x ∈ holdIn n h l) : x = h ∨ x ∈ l := by
  have hmem := List.mem_of_mem_take hx
  simp only [List.mem_cons, List.mem_filter] at hmem
  exact hmem.imp_right And.left

theorem mem_level {t : Tab (List Held)} {n : Nat} {h : Held} (hh : h ∈ t.get n []) : ∃ l ∈ t, h ∈ l.2 := by
  unfold Tab.get at hh
  cases hf : t.find n with
  | none => simp [hf] at hh
  | some l => exact ⟨(n, l), Tab.mem_of_find hf, by simpa [hf] using hh⟩

/-- Putting a translation that is held in front of the levels adds none. -/
theorem Xlat.holds_front {x : Xlat} {n m e : Nat} {h y : Held} {l2 : List Held} (hh : x.Holds h) (hl2 : l2 = x.l2 ∨ l2 = holdIn m h x.l2)
    (hy : Xlat.Holds { x with l1 := x.l1.put e (holdIn n h (x.l1.get e [])), l2 := l2 } y) : x.Holds y := by
  have hfront {k : Nat} {l : List Held} (hl : ∀ z ∈ l, x.Holds z) (hz : y ∈ holdIn k h l) : x.Holds y := by
    obtain rfl | hz := mem_holdIn hz
    · exact hh
    · exact hl y hz
  obtain hy | ⟨l, hl, hy⟩ := hy
  · obtain rfl | rfl := hl2
    · exact .inl hy
    · exact hfront (fun z hz => .inl hz) hy
  · obtain rfl | hl := Tab.mem_put hl
    · exact hfront (fun z hz => .inr (mem_level hz)) hy
    · exact .inr ⟨l, hl, hy⟩

/-- A change of the held translations alone, which adds none. -/
theorem State.onXlat_onward {k : Bool} {s : State} {g : Xlat → Xlat} (hc : (g s.sw.xlat).count = s.sw.xlat.count)
    (hh : ∀ h, (g s.sw.xlat).Holds h → s.sw.xlat.Holds h) : Onward k s (s.onXlat g) :=
  ⟨rfl, fun a ha => ⟨a, ha, rfl, rfl, rfl, rfl⟩, fun _ hv => hv, fun _ hf => hf, hc, hh, fun _ => rfl⟩

theorem State.dropAll_onward (k : Bool) (s : State) : Onward k s (s.onXlat fun x => { x with l1 := [], l2 := [] }) :=
  State.onXlat_onward rfl fun h hh => by
    obtain hh | ⟨l, hl, -⟩ := hh
    · exact absurd hh List.not_mem_nil
    · exact absurd hl List.not_mem_nil

theorem State.lookup_onward (k : Bool) (s : State) (e ctx partition cva : Nat) : Onward k s (s.lookup e ctx partition cva).2 := by
  unfold State.lookup
  dsimp only
  split
  · next h hf =>
    dsimp only
    refine State.onXlat_onward rfl fun y hy => ?_
    exact Xlat.holds_front (m := 0) (.inr (mem_level (List.mem_of_find?_eq_some hf))) (.inl rfl) hy
  · split
    · next h hf =>
      dsimp only
      refine State.onXlat_onward rfl fun y hy => ?_
      exact Xlat.holds_front (.inl (List.mem_of_find?_eq_some hf)) (.inr rfl) hy
    · exact .refl k s

section
variable (k : Bool)

@[simp] theorem State.onXlat_footing {g : Xlat → Xlat} (h1 : ∀ x, (g x).l1 = x.l1) (h2 : ∀ x, (g x).l2 = x.l2) (hc : ∀ x, (g x).count = x.count) (s : State) :
    (s.onXlat g).footing k = s.footing k :=
  State.onSw_footing k (fun w => by simp [Switch.footing, h1, h2, hc]) s

@[simp] theorem State.xlatFault_footing (s : State) (kind ctx seg partition : Nat) (group : Option Nat) :
    (s.xlatFault kind ctx seg partition group).footing k = s.footing k := by
  simp [State.xlatFault]

@[simp] theorem State.readFault_footing (s : State) (ctx partition : Nat) : (s.readFault ctx partition).footing k = s.footing k := by
  simp [State.readFault]

@[simp] theorem State.startRead_footing (s : State) (ctx addr : Nat) (m : Miss) : (s.startRead ctx addr m).footing k = s.footing k := by
  unfold State.startRead
  dsimp only
  split
  · rfl
  · split <;> simp

theorem State.engineMiss_onward (s : State) (who ctx partition cva : Nat) : Onward k s (s.engineMiss who ctx partition cva).2 := by
  unfold State.engineMiss
  split
  · exact (State.dropAll_onward k s).then (State.xlatFault_footing k _ _ _ _ _ _)
  · split
    · exact .of_footing (by simp)
    · split <;> exact .of_footing (by simp)

/-- Looking up segment by segment adds no translation. -/
theorem State.checkRange_onward (e ctx partition : Nat) (write atomic : Bool) (fuel : Nat) :
    ∀ (s : State) (cva len : Nat), Onward k s (s.checkRange e ctx partition write atomic fuel cva len).2 := by
  induction fuel with
  | zero => exact fun s _ _ => .refl k s
  | succ n ih =>
    intro s cva len
    unfold State.checkRange
    split
    · exact .refl k s
    · split
      · exact .refl k s
      · have hlook := State.lookup_onward k s e ctx partition cva
        split
        · next u hu => simpa [hu] using hlook
        · next h u hu =>
          rw [hu] at hlook
          split
          · exact hlook
          · exact hlook.trans (ih _ _ _)

theorem State.checkRanges_onward (e ctx partition : Nat) (rs : List Range) : ∀ s : State, Onward k s (s.checkRanges e ctx partition rs).2 := by
  induction rs with
  | nil => exact Onward.refl k
  | cons r rs ih =>
    intro s
    have hrange := State.checkRange_onward k e ctx partition r.write r.atomic 34 s r.cva r.len
    unfold State.checkRanges
    split
    · next u hu =>
      rw [hu] at hrange
      exact hrange.trans (ih u)
    · exact hrange

/-! ### Tasks and their requests (09 R223 to R252) -/

@[simp] theorem State.putGraph_footing (s : State) (slot : Nat) (g : Graph) : (s.putGraph slot g).footing k = s.footing k := by
  simp [State.putGraph]

@[simp] theorem State.freeSlot_footing (s : State) (slot : Nat) : (s.freeSlot slot).footing k = s.footing k := by
  simp [State.freeSlot]

@[simp] theorem State.putMbox_footing (s : State) (m : Nat) (x : FabMbox) : (s.putMbox m x).footing k = s.footing k := by
  simp [State.putMbox]

@[simp] theorem State.doneLost_footing (s : State) (partition tag : Nat) : (s.doneLost partition tag).footing k = s.footing k := by
  simp [State.doneLost]

@[simp] theorem State.onTask_footing (s : State) (slot t : Nat) (g : Task → Task) : (s.onTask slot t g).footing k = s.footing k := by
  unfold State.onTask
  split <;> simp

@[simp] theorem State.releaseTask_footing (s : State) (slot t : Nat) : (s.releaseTask slot t).footing k = s.footing k := by
  unfold State.releaseTask
  split
  · rfl
  · split <;> simp

@[simp] theorem State.endTask_footing (s : State) (slot t status : Nat) : (s.endTask slot t status).footing k = s.footing k := by
  simp [State.endTask]

@[simp] theorem State.answerSelf_footing (s : State) (slot t i e : Nat) (a : Access) (st : Nat) : (s.answerSelf slot t i e a st).footing k = s.footing k := by
  cases ha : a.kind <;> simp [State.answerSelf, ha]

@[simp] theorem State.sendNow_footing (s : State) (x : Flight) (tag : Nat) : (s.sendNow x tag).footing k = s.footing k := by
  unfold State.sendNow
  simp only [State.swSend_footing]
  rfl

@[simp] theorem State.sendRequest_footing (s : State) (src port : Nat) (f : Frame) (owner : Owner) (engine cva : Nat) (h : Held) :
    (s.sendRequest src port f owner engine cva h).footing k = s.footing k := by
  unfold State.sendRequest State.sendFlight
  dsimp only
  split <;> simp

theorem State.issue_onward (slot t e ctx partition cls : Nat) (accs : List Access) :
    ∀ (s : State) (i : Nat), Onward k s (s.issue slot t e ctx partition cls i accs) := by
  induction accs with
  | nil => exact fun s _ => .refl k s
  | cons a rest ih =>
    intro s i
    have hlook := State.lookup_onward k s e ctx partition a.cva
    unfold State.issue
    refine Onward.trans ?_ (ih _ _)
    split
    · next u hu =>
      rw [hu] at hlook
      exact hlook.then (by simp)
    · next h u hu =>
      rw [hu] at hlook
      refine hlook.then ?_
      dsimp only
      split
      · simp
      · split
        · simp
        · split <;> simp

theorem State.checkFailed_onward (s : State) (slot t e ctx partition : Nat) (c : Checked) : Onward k s (s.checkFailed slot t e ctx partition c) := by
  unfold State.checkFailed
  split
  · exact .refl k s
  · exact .of_footing (by simp)
  · exact .of_footing (by simp)
  · next cva =>
    have hmiss := State.engineMiss_onward k s e ctx partition cva
    split
    · next u hu =>
      rw [hu] at hmiss
      exact hmiss.then (by simp)
    · next st u hu =>
      rw [hu] at hmiss
      exact hmiss.then (by simp)

theorem State.runProg_onward (slot t e ctx partition cls : Nat) (p : Prog) : ∀ s : State, Onward k s (s.runProg slot t e ctx partition cls p) := by
  induction p with
  | done st => exact fun s => .of_footing (by simp [State.runProg])
  | check rs next ih =>
    intro s
    have hcheck := State.checkRanges_onward k e ctx partition rs s
    unfold State.runProg
    split
    · next u hu =>
      rw [hu] at hcheck
      exact (hcheck.then (by simp)).trans (ih _)
    · next c u _ hu =>
      rw [hu] at hcheck
      exact hcheck.trans (State.checkFailed_onward k u slot t e ctx partition c)
  | ask accs next ih =>
    intro s
    have hcheck := State.checkRanges_onward k e ctx partition (accRanges accs) s
    unfold State.runProg
    split
    · next u hu =>
      rw [hu] at hcheck
      have hissue := (hcheck.then (State.onTask_footing k u slot t fun x => { x with phase := [], outstanding := 0 })).trans
        (State.issue_onward k slot t e ctx partition cls accs _ 0)
      dsimp only
      split
      · exact hissue
      · split
        · exact hissue
        · exact (hissue.then (by simp)).trans (ih _ _)
    · next c u _ hu =>
      rw [hu] at hcheck
      exact hcheck.trans (State.checkFailed_onward k u slot t e ctx partition c)

theorem State.resumeTask_onward (s : State) (slot t : Nat) : Onward k s (s.resumeTask slot t) := by
  unfold State.resumeTask
  split
  · exact .refl k s
  · split
    · exact .refl k s
    · split
      · exact .refl k s
      · refine Onward.after ?_ (State.onTask_footing k s slot t fun y => { y with xwait := none })
        exact .of_ite (.refl k _) (State.runProg_onward k _ _ _ _ _ _ _ _)

/-- An engine's entry is replaced; a fence of it stays. -/
theorem State.putEngine_onward {k : Bool} {s : State} {e : Nat} {v : Engine} (hv : (s.sw.getEngine e).fenced = true → v.fenced = true) :
    Onward k s (s.putEngine e v) := by
  refine ⟨rfl, fun a ha => ⟨a, ha, rfl, rfl, rfl, rfl⟩, fun _ h => h, fun n hn => ?_, rfl, fun _ h => h, fun _ => rfl⟩
  by_cases hne : n = e
  · subst hne
    simpa [State.putEngine, Switch.getEngine] using hv hn
  · simpa [State.putEngine, Switch.getEngine, Tab.get_put_ne _ _ _ _ _ hne] using hn

theorem State.startTask_onward (s : State) (slot t e : Nat) : Onward k s (s.startTask slot t e) := by
  unfold State.startTask
  dsimp only
  refine Onward.trans ?_ (State.resumeTask_onward k _ slot t)
  refine Onward.then ?_ (State.count_footing k _ _ _)
  refine Onward.then ?_ (State.work_footing k _ _ _)
  exact Onward.after (State.putEngine_onward fun h => h) (State.onTask_footing k s slot t _)

theorem State.dispatch_onward (s : State) : Onward k s s.dispatch := by
  unfold State.dispatch
  refine Onward.after (.each fun u x => ?_) (State.collDispatch_footing k s)
  obtain ⟨slot, t, d, part⟩ := x
  dsimp only
  refine .of_ite (.of_footing (by simp)) (.of_ite ?_ (.of_ite (State.startTask_onward k u slot t _) (.refl k u)))
  split
  · exact State.startTask_onward k u slot t _
  · exact .refl k u

/-! ### Ends of tasks and graphs -/

@[simp] theorem State.readyUp_footing (s : State) (slot : Nat) : (s.readyUp slot).footing k = s.footing k := by
  unfold State.readyUp
  split <;> simp

@[simp] theorem State.failTask_footing (s : State) (slot t status : Nat) : (s.failTask slot t status).footing k = s.footing k := by
  unfold State.failTask
  split <;> simp

@[simp] theorem State.cancelTasks_footing (s : State) (slot : Nat) (p : Nat → Bool) : (s.cancelTasks slot p).footing k = s.footing k := by
  unfold State.cancelTasks
  split <;> simp

theorem State.settleTask_onward (s : State) (slot t status : Nat) (fencedEngine : Bool) : Onward k s (s.settleTask slot t status fencedEngine) := by
  unfold State.settleTask
  split
  · next g x _ _ =>
    have hidle : Onward k s (if x.engine < 48 ∧ (s.sw.getEngine x.engine).task = some (slot, t) then
        s.putEngine x.engine { s.sw.getEngine x.engine with task := none } else s) := .of_ite (State.putEngine_onward fun h => h) (.refl k s)
    exact hidle.then (by simp)
  · exact .refl k s

theorem State.writeDone_onward (s : State) (slot : Nat) (g : Graph) : Onward k s (s.writeDone slot g) := by
  unfold State.writeDone
  extract_lets e lost
  have hcheck := State.checkRange_onward k e g.ctx g.partition true false 34 s g.doneAddr 16
  split
  · next u hu =>
    rw [hu] at hcheck
    exact hcheck.then (by simp [lost])
  · next n seg u hu =>
    rw [hu] at hcheck
    exact hcheck.then (by simp [lost])
  · next cva u hu =>
    rw [hu] at hcheck
    have hmiss := hcheck.trans (State.engineMiss_onward k u (256 + slot) g.ctx g.partition cva)
    split
    · next v hv =>
      rw [hv] at hmiss
      exact hmiss.then (by simp)
    · next st v hv =>
      rw [hv] at hmiss
      exact hmiss.then (by simp [lost])
  · next u hu =>
    rw [hu] at hcheck
    exact hcheck.then (by simp [lost])

theorem State.retryMisses_onward (s : State) : Onward k s s.retryMisses := by
  unfold State.retryMisses
  refine Onward.trans (.each fun u e => ?_) (.each fun u g => .of_ite (State.writeDone_onward k u g.1 g.2) (.refl k u))
  split
  · exact .of_ite (State.resumeTask_onward k u _ _) (.refl k u)
  · exact .refl k u

theorem State.endGraph_onward (s : State) (slot : Nat) : Onward k s (s.endGraph slot) := by
  unfold State.endGraph
  split
  · exact .refl k s
  · next g _ =>
    refine .of_ite (.refl k s) (Onward.after (t := s.count (blkPart g.partition) 2) ?_ (State.count_footing k s _ _))
    exact .of_ite (.of_footing (by simp)) (.of_ite (.of_footing (by simp)) (State.writeDone_onward k _ slot g))

@[simp] theorem State.escrowRespond_footing (s : State) (f : Frame) (status : Nat) (data : List Byte) :
    (s.escrowRespond f status data).footing k = s.footing k := State.swSend_footing k s _ _

@[simp] theorem State.emptyMbox_footing (s : State) (m result task tag : Nat) : (s.emptyMbox m result task tag).footing k = s.footing k :=
  State.putMbox_footing k s m _

@[simp] theorem State.admitAged_footing (s : State) (x : Submission) : (s.admitAged x).footing k = s.footing k := by
  simp [State.admitAged]

@[simp] theorem State.takeSlot_footing (s : State) (slot : Nat) (g : Graph) (f : Frame) : (s.takeSlot slot g f).footing k = s.footing k := by
  simp [State.takeSlot, State.admitGraph]

@[simp] theorem State.admitWaiting_footing (s : State) : s.admitWaiting.footing k = s.footing k := by
  unfold State.admitWaiting
  refine State.footing_each (fun u x => ?_) s _
  split
  · rfl
  · simp

theorem State.escrowRound_onward (s : State) : Onward k s s.escrowRound := by
  unfold State.escrowRound
  dsimp only
  refine Onward.then ?_ (State.admitWaiting_footing k _)
  refine Onward.trans ?_ (.each fun u g => State.endGraph_onward k u g)
  refine Onward.trans ?_ (State.retryMisses_onward k _)
  refine Onward.then (.each fun u x => ?_) (State.onEscrow_footing k (fun _ => rfl) _)
  refine .of_ite (State.settleTask_onward k u _ _ _ _) ?_
  split
  · exact .of_ite (State.settleTask_onward k u _ _ _ _) (.refl k u)
  · exact .refl k u

theorem State.escrowRounds_onward (n : Nat) : ∀ s : State, Onward k s (State.escrowRounds n s) := by
  induction n with
  | zero => exact State.escrowRound_onward k
  | succ n ih =>
    intro s
    unfold State.escrowRounds
    exact .of_ite (State.escrowRound_onward k s) ((State.escrowRound_onward k s).trans (ih _))

theorem State.escrowSettle_onward (s : State) : Onward k s s.escrowSettle :=
  (State.escrowRounds_onward k _ s).trans (State.dispatch_onward k _)

/-! ### Requests of the switch that end or leave (03 R72, R80) -/

theorem State.taskReply_onward (s : State) (slot t i : Nat) (r : Reply) : Onward k s (s.taskReply slot t i r) := by
  unfold State.taskReply
  split
  · refine .of_ite (.refl k s) (Onward.after (.of_ite (.refl k _) ?_) (State.onTask_footing k s slot t _))
    split
    · exact .of_ite (.refl k _) (Onward.after (State.resumeTask_onward k _ slot t) (State.onTask_footing k _ slot t _))
    · exact .refl k _
  · exact .refl k s

theorem State.doneWritten_onward (s : State) (slot status : Nat) : Onward k s (s.doneWritten slot status) := by
  unfold State.doneWritten
  split
  · exact .refl k s
  · exact .of_ite (.of_footing (by simp)) (Onward.after (State.escrowSettle_onward k _) (by simp))

@[simp] theorem State.onOp_footing (s : State) (id : Nat) (g : HostOp → HostOp) : (s.onOp id g).footing k = s.footing k := rfl

@[simp] theorem State.hostPiece_footing (s : State) (id off status : Nat) (data : List Byte) : (s.hostPiece id off status data).footing k = s.footing k := by
  unfold State.hostPiece
  split
  · rfl
  · next o _ => cases o.ctag <;> simp [State.hostFault]

@[simp] theorem State.startOps_footing (s : State) : s.startOps.footing k = s.footing k := by
  have hstart (u : State) (o : HostOp) : (u.startOp o).footing k = u.footing k := by
    unfold State.startOp
    extract_lets home parts v n
    have hv : v.footing k = u.footing k := State.onOp_footing k u _ _
    clear_value v
    rw [← hv]
    refine State.footing_each (fun v p => ?_) _ _
    extract_lets at_ base f
    clear_value f
    split
    · simp
    · split <;> simp
  simp [State.startOps, hstart]

theorem State.enginesGo_onward (s : State) : Onward k s s.enginesGo := by
  unfold State.enginesGo
  refine .each fun u e => ?_
  split
  · exact .refl k u
  · split
    · exact .refl k u
    · exact .of_ite (.of_footing (by simp)) (.of_ite (State.resumeTask_onward k u _ _) (.refl k u))

@[simp] theorem State.noteBadWrite_footing (s : State) (x : Flight) (status : Nat) : (s.noteBadWrite x status).footing k = s.footing k := by
  simp [State.noteBadWrite]

theorem State.endFlight_onward (s : State) (x : Flight) (status : Nat) (data : List Byte) : Onward k s (s.endFlight x status data) := by
  unfold State.endFlight
  refine Onward.trans ?_ (State.enginesGo_onward k _)
  refine Onward.after ?_ (State.noteBadWrite_footing k s x status)
  split
  · exact State.taskReply_onward k _ _ _ _ _
  · exact State.doneWritten_onward k _ _ _
  · exact .of_footing (by simp)

theorem State.leaveHeld_onward (fuel : Nat) : ∀ s : State, Onward k s (s.leaveHeld fuel) := by
  induction fuel with
  | zero => exact Onward.refl k
  | succ n ih =>
    intro s
    unfold State.leaveHeld
    split
    · exact .refl k s
    · next x _ =>
      extract_lets u
      have hu : u.footing k = s.footing k := State.onEscrow_footing k (fun _ => rfl) s
      clear_value u
      generalize u.sw.freeTag x.port = free
      refine Onward.trans (Onward.after ?_ hu) (ih _)
      split
      · exact State.endFlight_onward k _ _ _ _
      · split
        · exact State.endFlight_onward k _ _ _ _
        · exact .of_footing (State.sendNow_footing k _ _ _)
      · exact State.endFlight_onward k _ _ _ _

/-! ### Invalidations that go on (02 R49 to R52) -/

/-- A command's work ends: the command stays on the list until COMMAND_COMPLETION takes it. -/
theorem State.finishWork_onward (s : State) (fn mb status : Nat) (rsp : List Byte) : Onward k s (s.finishWork fn mb status rsp) := by
  have hsame (a : Active) : a.Same (if a.fn == fn && a.mb == mb && a.result.isNone then { a with result := some (status, rsp) } else a) := by
    split <;> exact ⟨rfl, rfl, rfl, rfl⟩
  exact ⟨rfl, fun a ha => ⟨_, List.mem_map.mpr ⟨a, ha, rfl⟩, hsame a⟩, fun _ h => h, fun _ h => h, rfl, fun _ h => h, fun _ => rfl⟩

theorem State.invalCheck_onward (s : State) (x : Inval) : Onward k s (s.invalCheck x) := by
  unfold State.invalCheck
  extract_lets live y put u z
  have hput (v : State) (x : Inval) : (put v x).footing k = v.footing k := by simp [put]
  have hu : u.footing k = s.footing k := State.footing_each (fun v a => State.swSend_footing k v _ _) s _
  clear_value put u
  split
  · exact .of_footing (hput s y)
  · refine Onward.after ?_ hu
    split
    · exact .of_ite (Onward.after (State.finishWork_onward k _ _ _ _ _) (hput u _)) (.of_footing (hput u _))
    · exact .of_footing (hput u _)

theorem State.invalPoll_onward (s : State) : Onward k s s.invalPoll := .each fun u x => State.invalCheck_onward k u x

theorem State.flightsGo_onward (s : State) : Onward k s s.flightsGo :=
  ((State.leaveHeld_onward k 4096 s).trans (State.enginesGo_onward k _)).trans (State.invalPoll_onward k _)

@[simp] theorem State.onInval_footing (s : State) (number : Nat) (g : Inval → Inval) : (s.onInval number g).footing k = s.footing k := by
  simp [State.onInval]

theorem State.endHeld_onward (s : State) (x : Flight) (status : Nat) : Onward k s (s.endHeld x status) :=
  Onward.after (State.endFlight_onward k _ x status []) (State.onEscrow_footing k (fun _ => rfl) s)

theorem State.translateAgain_onward (s : State) (x : Flight) : Onward k s (s.translateAgain x).2 := by
  unfold State.translateAgain
  have hlook := State.lookup_onward k s x.engine x.ctx x.f.partition x.cva
  split
  · next u hu =>
    rw [hu] at hlook
    have hmiss := hlook.trans (State.engineMiss_onward k u x.who x.ctx x.f.partition x.cva)
    split
    · next v hv => simpa [hv] using hmiss
    · next st v hv => simpa [hv] using hmiss
  · next h u hu =>
    rw [hu] at hlook
    split
    · exact hlook.then (by simp)
    · split
      · exact hlook
      · dsimp only
        split <;> exact hlook

theorem State.rehold_onward (s : State) (x : Flight) : Onward k s (s.rehold x) := by
  unfold State.rehold
  extract_lets put
  have hput (v : State) (y : Flight) : (put v y).footing k = v.footing k := by simp [put]
  clear_value put
  have hagain := State.translateAgain_onward k s x
  split
  · next u hu =>
    rw [hu] at hagain
    exact hagain.then (hput u _)
  · next st u hu =>
    rw [hu] at hagain
    exact hagain.trans (State.endHeld_onward k u x st)
  · next y u hu =>
    rw [hu] at hagain
    exact hagain.then (hput u y)

theorem State.retranslate_onward (s : State) (sel : Flight → Bool) : Onward k s (s.retranslate sel) :=
  (Onward.each fun u x => State.rehold_onward k u x).trans (State.flightsGo_onward k _)

/-! ### Engines that are fenced (09 R227, R252) -/

theorem State.stopEngine_onward (s : State) (e : Nat) : Onward k s (s.stopEngine e) := by
  have hdrop : (s.dropFlights e).footing k = s.footing k := by simp [State.dropFlights]
  unfold State.stopEngine
  dsimp only
  split
  · exact .of_footing hdrop
  · exact Onward.after (State.settleTask_onward k _ _ _ _ _) hdrop

end

/-! ### A verdict and what follows it (23 R547, R548) -/

/-- What every step keeps and one step brings about holds after a loop that takes that step. -/
theorem State.each_reaches {α : Type} {I P : State → Prop} {l : List α} {g : State → α → State} {a : α} (ha : a ∈ l)
    (hI : ∀ u b, I u → I (g u b)) (hP : ∀ u, I u → P (g u a)) (hkeep : ∀ u b, P u → P (g u b)) {s : State} (hs : I s) : P (s.each l g) := by
  induction l generalizing s with
  | nil => exact absurd ha List.not_mem_nil
  | cons b l ih =>
    obtain rfl | ha := List.mem_cons.mp ha
    · exact State.each_keeps (P := P) (s := g s a) (l := l) (hP s hs) fun u hu c => hkeep u c hu
    · exact ih ha (hI s b hs)

section
variable (k : Bool)

/-- The link of a port changes; without a live edge port the translations go. -/
theorem State.setPort_onward (s : State) (p : Nat) (l : Link) : Onward k s (s.setPort p l) := by
  unfold State.setPort
  dsimp only
  refine Onward.then ?_ (State.refreshNarrow_footing k _)
  exact .of_ite (Onward.after (State.dropAll_onward k _) (by simp)) (.of_footing (by simp))

theorem State.leavePort_onward (s : State) (p : Nat) (st : PortState) (why : Nat) : Onward k s (s.leavePort p st why) := by
  unfold State.leavePort
  extract_lets u v
  have hu : Onward k s u := State.setPort_onward k s p _
  have hv : v.footing k = u.footing k := by simp [v]
  clear_value u v
  exact (hu.then hv).then (State.onSw_footing k (fun _ => rfl) v)

theorem State.fencePort_onward (s : State) (p why : Nat) : Onward false s (s.fencePort p why) := by
  unfold State.fencePort
  exact (State.leavePort_onward false s p .fenced why).then (by simp)

@[simp] theorem State.verdictOut_footing (s : State) (p h : Nat) (data : List Byte) : (s.verdictOut p h data).footing k = s.footing k := by
  simp [State.verdictOut]

theorem State.invalGone_onward (s : State) (h : Nat) : Onward k s (s.invalGone h) :=
  Onward.after (State.invalPoll_onward k _) (State.onXlat_footing k (fun _ => rfl) (fun _ => rfl) (fun _ => rfl) s)

theorem State.epRec_onEpRec (s : State) (h : Nat) (g : EpRec → EpRec) : (s.onEpRec h g).sw.epRec h = g (s.sw.epRec h) := by
  simp [State.onEpRec, Switch.epRec]

theorem State.onEpRec_onward {k : Bool} {s : State} {h : Nat} {g : EpRec → EpRec} (hg : ∀ r, r.verdict = true → (g r).verdict = true) :
    Onward k s (s.onEpRec h g) := by
  refine ⟨rfl, fun a ha => ⟨a, ha, rfl, rfl, rfl, rfl⟩, fun n hn => ?_, fun _ h => h, rfl, fun _ h => h, fun _ => rfl⟩
  by_cases hne : n = h
  · rw [hne] at hn ⊢
    rw [State.epRec_onEpRec]
    exact hg _ hn
  · simpa [State.onEpRec, Switch.epRec, Tab.get_put_ne _ _ _ _ _ hne] using hn

end

/-- What R547 does once the record of the end-point has its verdict. -/
theorem State.applyVerdict_given {s : State} {h old : Nat} (hinc : (s.sw.epRec h).inc = old) (cause : Nat) (came : Option Nat) :
    Onward false (s.onEpRec h fun r => { r with inc := (old + 1) % 16, verdict := true, misses := 0, suspects := [], acked := true, beat := [], readmitting := false })
      (s.applyVerdict h old cause came) := by
  unfold State.applyVerdict
  rw [if_neg (not_not_intro hinc)]
  extract_lets new u data here v w x y z
  have hw : w.footing false = u.footing false := by simp [w, v]
  have hx : Onward false w x := .of_ite (Onward.after (State.fencePort_onward _ _ _) (by simp)) (.refl _ _)
  have hz : Onward false y z := Onward.after (State.invalGone_onward false _ h) (by simp)
  exact (((Onward.after hx hw).then (State.loseHolder_footing x h)).trans hz).then (by simp)

theorem State.applyVerdict_onward (s : State) (h old cause : Nat) (came : Option Nat) : Onward false s (s.applyVerdict h old cause came) := by
  by_cases hinc : (s.sw.epRec h).inc = old
  · exact (State.onEpRec_onward fun _ _ => rfl).trans (State.applyVerdict_given hinc cause came)
  · have hsame : s.applyVerdict h old cause came = s := if_pos hinc
    rw [hsame]
    exact .refl _ _

theorem State.giveVerdict_onward (s : State) (h cause : Nat) : Onward false s (s.giveVerdict h cause) := by
  unfold State.giveVerdict
  refine .of_ite (.refl _ _) (.of_ite ?_ (State.applyVerdict_onward _ _ _ _ _))
  exact ⟨rfl, fun a ha => ⟨a, ha, rfl, rfl, rfl, rfl⟩, fun _ h => h, fun _ h => h, rfl, fun _ h => h, fun _ => rfl⟩

/-- A verdict that is given stands, unless the Teller restarts. -/
theorem State.giveVerdict_stands {s : State} (ht : s.sw.teller.state ≠ 1) (h cause : Nat) : ((s.giveVerdict h cause).sw.epRec h).verdict = true := by
  rw [State.giveVerdict, if_neg ht]
  split
  · assumption
  · refine (State.applyVerdict_given rfl cause none).verdict h ?_
    rw [State.epRec_onEpRec]

/-! ### Regions that wait for a fenced end-point (05 R121, R138) -/

theorem State.onActive_onward {k : Bool} {s : State} {fn mb : Nat} {g : Active → Active} (hg : ∀ a : Active, a.Same (g a)) : Onward k s (s.onActive fn mb g) := by
  have hsame (a : Active) : a.Same (if a.fn == fn && a.mb == mb then g a else a) := by
    split
    · exact hg a
    · exact ⟨rfl, rfl, rfl, rfl⟩
  exact ⟨rfl, fun a ha => ⟨_, List.mem_map.mpr ⟨a, ha, rfl⟩, hsame a⟩, fun _ h => h, fun _ h => h, rfl, fun _ h => h, fun _ => rfl⟩

theorem State.regionCheck_onward (s : State) : Onward false s s.regionCheck := by
  unfold State.regionCheck
  refine Onward.trans (.of_footing ?_) (.each fun u j => .of_ite (.refl _ _) ?_)
  · refine Eq.trans (State.footing_each (fun u j => ?_) _ _) (State.takeBackDue_footing s)
    rfl
  · split
    · exact .of_ite (State.finishWork_onward false _ _ _ _ _) (.refl _ _)
    · exact .refl _ _

theorem State.regionGone_onward (s : State) : Onward false s s.regionGone := by
  unfold State.regionGone
  refine Onward.trans (Onward.then (.each fun u j => ?_) (State.onHome_footing _ _)) (State.regionCheck_onward _)
  exact State.onActive_onward fun _ => ⟨rfl, rfl, rfl, rfl⟩

/-! ### The timeouts of an invalidation (02 R49, R52, R54) -/

theorem State.fenceEngines_onward (k : Bool) (s : State) (es : List Nat) : Onward k s (s.fenceEngines es) := by
  unfold State.fenceEngines
  refine .of_ite (.refl k s) (Onward.trans (Onward.then ?_ (State.footing_each (fun u e => State.record_footing k u _) _ _)) (State.escrowSettle_onward k _))
  exact (Onward.each fun u e => State.putEngine_onward fun _ => rfl).trans (.each fun u e => State.stopEngine_onward k u e)

/-- Every engine named is fenced. -/
theorem State.fenceEngines_fenced {s : State} {es : List Nat} {e : Nat} (he : e ∈ es) : ((s.fenceEngines es).sw.getEngine e).fenced = true := by
  by_cases hf : (s.sw.getEngine e).fenced = true
  · exact (State.fenceEngines_onward false s es).fenced e hf
  · have hmem : e ∈ es.filter fun e => !(s.sw.getEngine e).fenced := List.mem_filter.mpr ⟨he, by simpa using hf⟩
    unfold State.fenceEngines
    extract_lets fs u v
    have hne : ¬fs.isEmpty = true := fun h => List.ne_nil_of_mem hmem (List.isEmpty_iff.mp h)
    rw [if_neg hne]
    have hu : (u.sw.getEngine e).fenced = true := by
      refine State.each_reaches (I := fun _ => True) (P := fun w => (w.sw.getEngine e).fenced = true) hmem (fun _ _ _ => trivial) (fun w _ => ?_) (fun w b hw => ?_) trivial
      · simp [State.putEngine, Switch.getEngine]
      · exact (State.putEngine_onward (k := false) fun _ => rfl).fenced e hw
    have hv : Onward false u v := .each fun w b => State.stopEngine_onward false w b
    exact ((hv.then (State.footing_each (fun w b => State.record_footing false w _) _ _)).trans (State.escrowSettle_onward false _)).fenced e hu

/-- Engines that still drain are fenced (02 R49). -/
theorem State.drainTimeout_fenced {s : State} {n : Nat} {x : Inval} (hx : s.sw.xlat.inval.find? (fun x => x.number == n) = some x) {g : Flight}
    (hg : g ∈ s.sw.escrow.flight) (he : g.engine < 48) (hd : x.draining.contains (g.port * 4096 + g.tag) = true) :
    ((s.drainTimeout n).sw.getEngine g.engine).fenced = true := by
  unfold State.drainTimeout
  rw [hx]
  refine (State.flightsGo_onward false _).fenced _ (State.fenceEngines_fenced ?_)
  simp only [List.mem_filter, List.mem_eraseDups, List.mem_map, decide_eq_true_eq]
  exact ⟨⟨g, ⟨hg, hd⟩, rfl⟩, he⟩

/-- End-points that stay silent have a verdict (02 R54). -/
theorem State.invalTimeout_verdict {s : State} {n : Nat} {x : Inval} (hx : s.sw.xlat.inval.find? (fun x => x.number == n) = some x)
    (ht : s.sw.teller.state ≠ 1) {h : Nat} (hh : h ∈ x.await) : ((s.invalTimeout n).sw.epRec h).verdict = true := by
  have hstep (u : State) (b : Nat) : Onward false u ((u.giveVerdict b vInvalidation).invalGone b) :=
    (State.giveVerdict_onward u b _).trans (State.invalGone_onward false _ b)
  unfold State.invalTimeout
  rw [hx]
  refine (State.regionGone_onward _).verdict h ?_
  refine State.each_reaches (I := fun u => u.sw.teller.state ≠ 1) (P := fun u => (u.sw.epRec h).verdict = true) hh (fun u b hu => ?_) (fun u hu => ?_) (fun u b hv => (hstep u b).verdict h hv) ?_
  · rwa [(hstep u b).teller]
  · exact (State.invalGone_onward false _ h).verdict h (State.giveVerdict_stands hu h _)
  · exact ht

/-! ### An invalidation at a switch with nothing at work (02 R49, R52) -/

/-- A loop over steps that change nothing. -/
theorem State.each_same {α : Type} {s : State} {l : List α} {g : State → α → State} (hg : ∀ a, g s a = s) : s.each l g = s :=
  State.each_keeps (P := fun u => u = s) rfl fun _ hu a => hu ▸ hg a

theorem State.onXlat_congr {s : State} {g h : Xlat → Xlat} (hgh : g s.sw.xlat = h s.sw.xlat) : s.onXlat g = s.onXlat h := by
  simp only [State.onXlat, State.onSw, hgh]

/-- What a holder drops of its translations at an invalidation, with the host reads of the context made stale (02 R49). -/
def State.unhold (s : State) (ctx first count : Nat) : State := s.onXlat fun x => { x with
  l1 := x.l1.mapVals fun _ l => l.filter fun h => !(h.ctx == ctx && h.desc.overlaps first count)
  l2 := x.l2.filter fun h => !(h.ctx == ctx && h.desc.overlaps first count)
  reads := x.reads.map fun r => if r.ctx == ctx then { r with stale := true } else r }

theorem State.enginesGo_idle {s : State} (htask : ∀ e, (s.sw.getEngine e).task = none) : s.enginesGo = s :=
  State.each_same fun e => by rw [htask e]

theorem State.leaveHeld_idle {s : State} (hheld : s.sw.escrow.held = []) (n : Nat) : s.leaveHeld n = s := by
  cases n with
  | zero => rfl
  | succ n =>
    have hnext : s.sw.nextToLeave = none := by simp [Switch.nextToLeave, hheld]
    rw [State.leaveHeld, hnext]

theorem State.retranslate_idle {s : State} (hheld : s.sw.escrow.held = []) (hinval : s.sw.xlat.inval = []) (htask : ∀ e, (s.sw.getEngine e).task = none)
    (sel : Flight → Bool) : s.retranslate sel = s := by
  have hpoll : s.invalPoll = s := by rw [State.invalPoll, hinval]; rfl
  rw [State.retranslate, hheld]
  show s.flightsGo = s
  rw [State.flightsGo, State.leaveHeld_idle hheld, State.enginesGo_idle htask, hpoll]

theorem State.onEscrow_noneHeld {s : State} (hheld : s.sw.escrow.held = []) (g : Flight → Flight) :
    s.onEscrow (fun e => { e with held := e.held.map g }) = s := by
  have hsame : { s.sw.escrow with held := s.sw.escrow.held.map g } = s.sw.escrow := by
    rw [hheld, List.map_nil, ← hheld]
  simp only [State.onEscrow, State.onSw, hsame]

/-- With no request and no invalidation at work an invalidation only drops what is held. -/
theorem State.dropXlat_idle {s : State} (hflight : s.sw.escrow.flight = []) (hheld : s.sw.escrow.held = []) (hinval : s.sw.xlat.inval = [])
    (htask : ∀ e, (s.sw.getEngine e).task = none) (ctx first count : Nat) : s.dropXlat ctx first count = ([], s.unhold ctx first count) := by
  unfold State.dropXlat
  extract_lets hit u under mine v left back w x
  have hmine : mine = [] := by simp [mine, u, State.onXlat, State.onSw, hflight]
  have hv : v = u := by simp [v, hmine, State.each]
  have hback : back = [] := by simp [back, hmine]
  have hw : w = u := by simp [w, hv, hback, u, State.onXlat, State.onSw, State.each, hflight]
  have hx : x = u := by rw [← hw]; exact State.onEscrow_noneHeld (by rw [hw]; exact hheld) _
  have hleft : left = [] := by simp [left, hmine]
  rw [hleft, hx, State.retranslate_idle (s := u) hheld hinval htask]
  rfl

theorem State.ackInval_xlat (s : State) (number engines : Nat) (f : Frame) : (s.ackInval number engines f).sw.xlat = s.sw.xlat := by
  obtain ⟨-, -, -, -, -, -, -, -, -, -, hx, -⟩ := (State.swSend_sent s outEscrow _).fields
  exact hx

/-- An invalidation alone, of one copy and without requests that drain, is acknowledged at once. -/
theorem State.invalPoll_one {s : State} {x : Inval} {p : Nat} {f : Frame} (hinval : s.sw.xlat.inval = [x]) (hdrain : x.draining = [])
    (hask : x.askers = [(p, f)]) (hans : x.answered = false) (hcmd : x.cmd = none) :
    s.invalPoll = (s.ackInval x.number x.ownFenced f).onXlat fun y => { y with inval := [{ x with askers := [], answered := true }] } := by
  have hu : (s.ackInval x.number x.ownFenced f).sw.xlat.inval = [x] := by rw [State.ackInval_xlat, hinval]
  rw [State.invalPoll, hinval]
  show s.invalCheck x = _
  unfold State.invalCheck
  simp only [hdrain, hask, hans, hcmd, List.filter_nil, List.isEmpty_nil, List.isEmpty_cons, Bool.not_true, Bool.not_false, Bool.or_true,
    Bool.false_eq_true, if_false]
  refine Eq.trans (State.onXlat_congr (s := s.ackInval x.number x.ownFenced f) ?_) rfl
  rw [hu, ← hdrain]
  simp

/-! ### Copies of SEG_INV at a switch (02 R49, R52) -/

theorem State.segInv_new {s : State} {f : Frame} (h : (s.sw.xlat.inval.any fun x => x.number == field f.data 12 4) = false) (p : Nat) :
    s.segInvSwitch p f =
      (((s.taken f).dropXlat (f.opxBits 51 36) (field f.data 0 8) (field f.data 8 4)).2.onXlat fun y => { y with inval := y.inval ++
        [{ number := field f.data 12 4, ctx := f.opxBits 51 36, first := field f.data 0 8, count := field f.data 8 4
           draining := ((s.taken f).dropXlat (f.opxBits 51 36) (field f.data 0 8) (field f.data 8 4)).1, askers := [(p, f)] }] }).invalPoll := by
  have hnone : (s.taken f).sw.xlat.inval.find? (fun x => x.number == field f.data 12 4) = none := by
    rw [State.taken_xlat]
    exact List.find?_eq_none.mpr (List.any_eq_false.mp h)
  unfold State.segInvSwitch
  dsimp only
  rw [show (s.takeInbox (internalOut f) f).sw.xlat.inval.find? (fun x => x.number == field f.data 12 4) = none from hnone]
  rfl

theorem State.segInv_known {s : State} {f : Frame} (h : (s.sw.xlat.inval.any fun x => x.number == field f.data 12 4) = true) (p : Nat) :
    s.segInvSwitch p f = ((s.taken f).onInval (field f.data 12 4) fun x => { x with askers := x.askers ++ [(p, f)] }).invalPoll := by
  obtain ⟨x, hx⟩ : ∃ x, (s.taken f).sw.xlat.inval.find? (fun x => x.number == field f.data 12 4) = some x := by
    rw [State.taken_xlat, ← Option.isSome_iff_exists, List.find?_isSome]
    exact List.any_eq_true.mp h
  unfold State.segInvSwitch
  dsimp only
  rw [show (s.takeInbox (internalOut f) f).sw.xlat.inval.find? (fun x => x.number == field f.data 12 4) = some x from hx]
  rfl

/-- With nothing at work, a SEG_INV is acknowledged at once. -/
theorem State.segInv_idle {s : State} (hflight : s.sw.escrow.flight = []) (hheld : s.sw.escrow.held = []) (hinval : s.sw.xlat.inval = [])
    (htask : ∀ e, (s.sw.getEngine e).task = none) (p : Nat) (f : Frame) :
    let x : Inval := { number := field f.data 12 4, ctx := f.opxBits 51 36, first := field f.data 0 8, count := field f.data 8 4 }
    let held := ((s.taken f).unhold (f.opxBits 51 36) (field f.data 0 8) (field f.data 8 4)).onXlat fun y => { y with inval := [{ x with askers := [(p, f)] }] }
    s.segInvSwitch p f = (held.ackInval (field f.data 12 4) 0 f).onXlat fun y => { y with inval := [{ x with answered := true }] } := by
  intro x held
  obtain ⟨-, -, -, -, -, -, hescrow, -, -, -, hxlat, -⟩ := (State.taken_sent s f).fields
  have hdrop := State.dropXlat_idle (s := s.taken f) (by rw [hescrow, hflight]) (by rw [hescrow, hheld]) (by rw [State.taken_xlat, hinval])
    (by simpa only [Switch.getEngine, hescrow] using htask) (f.opxBits 51 36) (field f.data 0 8) (field f.data 8 4)
  have hnew : (((s.taken f).unhold (f.opxBits 51 36) (field f.data 0 8) (field f.data 8 4)).onXlat fun y => { y with inval := y.inval ++ [{ x with askers := [(p, f)] }] })
      = held := by
    refine State.onXlat_congr ?_
    simp [State.unhold, State.onXlat, State.onSw, State.taken_xlat, hinval]
  rw [State.segInv_new (by simp [hinval]), hdrop]
  dsimp only
  rw [hnew]
  have hone : held.sw.xlat.inval = [{ x with askers := [(p, f)] }] := rfl
  clear_value held
  have hpoll := State.invalPoll_one (p := p) (f := f) hone rfl rfl rfl rfl
  exact hpoll

/-! ### SEG_INV at the AKG-8 (02 R51, R53) -/

/-- What the AKG-8 has of its ports, its translations and its invalidations. -/
def EndPoint.holding (e : EndPoint) : Nat × Tab Link × Tab (List Held) × List Held × List EpInval := (e.homeId, e.link, e.l1, e.l2, e.invals)

theorem State.holding_each {α : Type} {g : State → α → State} (hg : ∀ u a, (g u a).ep.holding = u.ep.holding) (s : State) (l : List α) :
    (s.each l g).ep.holding = s.ep.holding :=
  State.each_keeps (P := fun u => u.ep.holding = s.ep.holding) rfl fun u hu a => (hg u a).trans hu

theorem State.takeBackPiece_holding (s : State) (x : EpFlight) (again : Bool) : (s.takeBackPiece x again).ep.holding = s.ep.holding := by
  unfold State.takeBackPiece
  cases x.kind <;> rfl

theorem State.epSend_holding (s : State) (p : Nat) (f : Frame) : (s.epSend p f).ep.holding = s.ep.holding := rfl

/-- The AKG-8 keeps no translation of the range, and notes the copy with the ports on which it relays. -/
theorem State.epSegInv_new {s : State} {p : Nat} {f : Frame} (h : (s.ep.invals.any fun x => x.number == field f.data 12 4 && x.port == p && !x.dead) = false) :
    let out := fun h : Held => !(h.ctx == f.opxBits 51 36 && h.desc.v && h.desc.overlaps (field f.data 0 8) (field f.data 8 4))
    ∃ drain, (s.epSegInv p f).ep.holding = (s.ep.homeId, s.ep.link, s.ep.l1.mapVals fun _ l => l.filter out, s.ep.l2.filter out, s.ep.invals ++
      [{ number := field f.data 12 4, port := p, f := f, ctx := f.opxBits 51 36, await := (List.range 8).filter fun q => s.ep.portLive q && s.ep.peer q != f.src
         drain := drain }]) := by
  intro out
  unfold State.epSegInv
  rw [if_neg (by simpa using h)]
  extract_lets dropped t u mine back v w untie a b c relay noted
  have ht : t.ep.holding = (s.ep.homeId, s.ep.link, s.ep.l1.mapVals fun _ l => l.filter out, s.ep.l2.filter out, s.ep.invals) := rfl
  have hu : u.ep.holding = t.ep.holding := rfl
  have hv : v.ep.holding = u.ep.holding := State.holding_each (fun x y => State.takeBackPiece_holding x y true) u _
  have hw : w.ep.holding = v.ep.holding := State.holding_each (fun x y => State.takeBackPiece_holding x y false) v _
  have ha : a.ep.holding = w.ep.holding := rfl
  have hb : b.ep.holding = a.ep.holding := State.holding_each (fun x y => by split <;> rfl) a _
  have hc : c.ep.holding = b.ep.holding := rfl
  have hsent : (noted.each relay fun x q => x.epSend q (({ dest := x.ep.peer q, src := x.ep.homeId, cls := 4, typ := ftSegInv, tag := f.tag, opx := f.opx } : Frame).withData
      (padTo 16 f.data))).ep.holding = noted.ep.holding := State.holding_each (fun x q => State.epSend_holding x q _) noted relay
  have hnow : c.ep.holding = (s.ep.homeId, s.ep.link, s.ep.l1.mapVals fun _ l => l.filter out, s.ep.l2.filter out, s.ep.invals) := by
    rw [hc, hb, ha, hw, hv, hu, ht]
  clear_value c mine
  obtain ⟨hid, hlink, hl1, hl2, hinvals⟩ : c.ep.homeId = s.ep.homeId ∧ c.ep.link = s.ep.link ∧ c.ep.l1 = _ ∧ c.ep.l2 = _ ∧ c.ep.invals = s.ep.invals := by
    simpa only [EndPoint.holding, Prod.mk.injEq] using hnow
  have hrelay : relay = (List.range 8).filter fun q => s.ep.portLive q && s.ep.peer q != f.src := by
    simp only [relay, EndPoint.portLive, EndPoint.getLink, EndPoint.peer, hid, hlink]
  refine ⟨(mine.filter fun x => x.sent).map fun x => x.port * 4096 + x.tag, hsent.trans ?_⟩
  show (c.ep.homeId, c.ep.link, c.ep.l1, c.ep.l2, c.ep.invals ++ [_]) = _
  rw [hid, hlink, hl1, hl2, hinvals, hrelay]

/-- What the AKG-8 holds after a SEG_INV that it has not seen (02 R51). -/
theorem State.epSegInv_drops {s : State} {p : Nat} {f : Frame} (h : (s.ep.invals.any fun x => x.number == field f.data 12 4 && x.port == p && !x.dead) = false) :
    (∀ h ∈ (s.epSegInv p f).ep.l2, h.ctx = f.opxBits 51 36 → h.desc.v = true → h.desc.overlaps (field f.data 0 8) (field f.data 8 4) = false)
    ∧ (∀ l ∈ (s.epSegInv p f).ep.l1, ∀ h ∈ l.2, h.ctx = f.opxBits 51 36 → h.desc.v = true → h.desc.overlaps (field f.data 0 8) (field f.data 8 4) = false)
    ∧ ∃ x, (s.epSegInv p f).ep.invals = s.ep.invals ++ [x] ∧ x.number = field f.data 12 4 ∧ x.port = p ∧ x.f = f
        ∧ x.await = (List.range 8).filter fun q => s.ep.portLive q && s.ep.peer q != f.src := by
  obtain ⟨drain, hnow⟩ := State.epSegInv_new h
  simp only [EndPoint.holding, Prod.mk.injEq] at hnow
  obtain ⟨-, -, hl1, hl2, hinvals⟩ := hnow
  have hout {y : Held} {l : List Held}
      (hy : y ∈ l.filter fun h => !(h.ctx == f.opxBits 51 36 && h.desc.v && h.desc.overlaps (field f.data 0 8) (field f.data 8 4)))
      (hctx : y.ctx = f.opxBits 51 36) (hv : y.desc.v = true) : y.desc.overlaps (field f.data 0 8) (field f.data 8 4) = false := by
    simpa [hctx, hv] using (List.mem_filter.mp hy).2
  refine ⟨fun y hy => hout (hl2 ▸ hy), fun l hl y hy => ?_, _, hinvals, rfl, rfl, rfl, rfl⟩
  rw [hl1] at hl
  obtain ⟨l', -, rfl⟩ := List.mem_map.mp hl
  exact hout hy

/-! ### The rows of invalidations -/

theorem State.relayAckTimeout_row {s : State} (hoff : s.ep.off = false) (n : Nat) : exec (.relayAckTimeout n) s = .next (s.relayAckTimeout n).pump := by
  show Host.Outcome.next (s.epEv fun s => s.relayAckTimeout n) = _
  rw [State.epEv, if_neg (by simp [hoff])]

/-- Settles O33: each row goes through the lemma of its case; what the timeouts bring about stands through the rest of their work. -/
theorem invalidationRowsComplete : Obligations.InvalidationRowsComplete := by
  unfold Obligations.InvalidationRowsComplete
  intro s p f ctx first count number x hit
  refine ⟨fun hnew => ?_, fun hknown => ?_, fun hflight hheld hinval htask => ?_, rfl, fun htakes => ⟨⟨?_, fun hunseen => ?_⟩, ?_⟩,
    fun n y hy => ⟨⟨_, rfl, fun g hg he hd => State.drainTimeout_fenced hy hg he hd⟩, fun ht => ⟨_, rfl, fun h hh => State.invalTimeout_verdict hy ht hh⟩⟩,
    fun n hoff => State.relayAckTimeout_row hoff n⟩
  · exact congrArg Host.Outcome.next (State.segInv_new hnew p)
  · exact congrArg Host.Outcome.next (State.segInv_known hknown p)
  · exact congrArg Host.Outcome.next (State.segInv_idle hflight hheld hinval htask p f)
  · exact congrArg Host.Outcome.next (State.epIn_takes htakes fun u => u.epSegInv p f)
  · exact State.epSegInv_drops (s := s.credited p f) hunseen
  · exact congrArg Host.Outcome.next (State.epIn_takes htakes fun u => u.epSegInvAck p f)

/-! ### What a switch holds after an invalidation (02 R49) -/

theorem Xlat.holds_second {x : Xlat} {h : Held} (hh : h ∈ x.l2) : x.Holds h := .inl hh

theorem Xlat.holds_first {x : Xlat} {l : Nat × List Held} {h : Held} (hl : l ∈ x.l1) (hh : h ∈ l.2) : x.Holds h := .inr ⟨l, hl, hh⟩

/-- No translation of the context whose segments overlap the range is held after it is dropped. -/
theorem State.unhold_holds {s : State} {ctx first count : Nat} {h : Held} (hh : (s.unhold ctx first count).sw.xlat.Holds h) (hctx : h.ctx = ctx) :
    h.desc.overlaps first count = false := by
  have hout {l : List Held} (hl : h ∈ l.filter fun h => !(h.ctx == ctx && h.desc.overlaps first count)) : h.desc.overlaps first count = false := by
    simpa [hctx] using (List.mem_filter.mp hl).2
  obtain hh | ⟨l, hl, hh⟩ := hh
  · exact hout hh
  · obtain ⟨l', -, rfl⟩ := List.mem_map.mp hl
    exact hout hh

/-- Once the translations are dropped, what is taken back and translated again brings none of them back. -/
theorem State.dropXlat_onward (k : Bool) (s : State) (ctx first count : Nat) : Onward k (s.unhold ctx first count) (s.dropXlat ctx first count).2 := by
  unfold State.dropXlat
  extract_lets hit u under mine v left back w x
  have hv : v.footing k = u.footing k := State.footing_each (g := fun x y => x.unsend y true) (fun y z => State.unsend_footing k y z true) u mine
  have hw : w.footing k = v.footing k := State.footing_each (g := fun x y => x.unsend y false) (fun y z => State.unsend_footing k y z false) v _
  have hx : x.footing k = w.footing k := State.onEscrow_footing k (fun _ => rfl) w
  have hback : x.footing k = u.footing k := hx.trans (hw.trans hv)
  clear_value x
  dsimp only
  exact Onward.after (State.retranslate_onward k x _) hback

/-- The work of SEG_INVALIDATE after its number is taken and its translations are dropped. -/
theorem State.beginInval_onward (k : Bool) (s : State) (fn mb ctx first count : Nat) :
    Onward k ((s.onXlat fun x => { x with count := (s.sw.xlat.count + 1) % 2 ^ 22 }).unhold ctx first count) (s.beginInval fn mb ctx first count) := by
  unfold State.beginInval
  extract_lets c number u data
  have hdrop : Onward k (u.unhold ctx first count) (u.dropXlat ctx first count).2 := State.dropXlat_onward k u ctx first count
  generalize u.dropXlat ctx first count = d at hdrop
  obtain ⟨tags, v⟩ := d
  dsimp only at hdrop ⊢
  refine Onward.trans (hdrop.then ?_) (State.invalPoll_onward k _)
  refine (State.footing_each (fun x h => ?_) _ _).trans (State.onXlat_footing k (fun _ => rfl) (fun _ => rfl) (fun _ => rfl) v)
  split
  · exact State.onInval_footing k x _ _
  · exact State.swSend_footing k x _ _

/-- What SEG_INVALIDATE leaves, from the moment at which its command stands on the list. -/
theorem State.beginInval_leaves {s : State} {a : Active} (ha : a ∈ s.sw.teller.active) (fn mb ctx first count : Nat) :
    let t := s.beginInval fn mb ctx first count
    Listed a.fn a.mb a.work a.holds t ∧ t.sw.xlat.count = (s.sw.xlat.count + 1) % 2 ^ 22 ∧ t.sw.mem.home = s.sw.mem.home
      ∧ ∀ h, t.sw.xlat.Holds h → h.ctx = ctx → h.desc.overlaps first count = false := by
  have hgo := State.beginInval_onward true s fn mb ctx first count
  exact ⟨hgo.listed a ha, hgo.count, hgo.home rfl, fun h hh hctx => State.unhold_holds (hgo.holds h hh) hctx⟩

/-- Settles O6: the effect of SEG_TABLE_SET is its commit's; SEG_INVALIDATE drops the translations first, and what follows adds none. -/
theorem segmentCommandsComplete : Obligations.SegmentCommandsComplete := by
  unfold Obligations.SegmentCommandsComplete
  intro fn mb s
  refine ⟨fun hset => ⟨_, rfl, ?_⟩, fun hinv => ⟨_, rfl, ?_⟩⟩
  · have hnow := hset.now rfl rfl rfl
    exact hnow
  obtain ⟨v, q, hreport, htake⟩ := hinv.later rfl
  obtain ⟨-, -, -, hmem, hxlat, -⟩ := hreport.fields
  have hstart (c : Cmd) (w : State) : segInvalidateForm.start c w = w.beginInval c.fn c.mb (c.num 0x80 2) (c.num 0x88 8) (c.num 0x90 4) := by simp only [segInvalidateForm]
  have hlen : segInvalidateForm.len = 24 := rfl
  rw [htake, hstart, hlen]
  obtain ⟨hlisted, hcount, hhome, hholds⟩ := State.beginInval_leaves (s := v.onTeller fun x => { x with active := x.active ++ [_] })
    (List.mem_append_right _ (List.mem_singleton_self _)) (s.sw.cmdOf fn mb 24).fn
    (s.sw.cmdOf fn mb 24).mb ((s.sw.cmdOf fn mb 24).num 0x80 2) ((s.sw.cmdOf fn mb 24).num 0x88 8)
    ((s.sw.cmdOf fn mb 24).num 0x90 4)
  have hcommand : (v.sw.xlat.count + 1) % 2 ^ 22 = (s.sw.xlat.count + 1) % 2 ^ 22 := by rw [hxlat]; rfl
  have hsame : v.sw.mem.home = s.sw.mem.home := by rw [hmem]; rfl
  exact ⟨hlisted, hcount.trans hcommand, hhome.trans hsame, fun h hh => hholds h (Xlat.holds_second hh),
    fun l hl h hh => hholds h (Xlat.holds_first hl hh)⟩

end Sys2Proof.Machine

/-!
PROOFS of the family 03_transactions_and_ordering: frame headers and descriptors as bytes (O55), requests at a switch home (O25, O26), and responses,
timeouts and the end of a tag's quarantine (O29).
-/

namespace Sys2Proof.Machine

/-! ### Words in a string of bytes, and bits in a word (00 R5) -/

theorem bits_eq (n lo w : Nat) : bits n lo w = n / 2 ^ lo % 2 ^ w := by
  rw [bits, Nat.shiftRight_eq_div_pow]

theorem bit_eq (n i : Nat) : bit n i = decide (n / 2 ^ i % 2 = 1) := Nat.testBit_eq_decide_div_mod_eq

theorem b2n_le (b : Bool) : b2n b ≤ 1 := by cases b <;> decide

/-- A flag written as one bit is read back from it. -/
theorem decide_b2n (b : Bool) : decide (b2n b = 1) = b := by cases b <;> rfl

/-- A number laid out between two other parts of a string. -/
theorem field_between {l : List Byte} {k : Nat} (h : l.length = k) (n v : Nat) (m : List Byte) : field (l ++ leBytes n v ++ m) k n = v % 256 ^ n := by
  subst h
  rw [field_within _ _ _ _ (by simp), field_append_right]

/-- The four words of 32 bytes, whatever follows them. -/
theorem field_words {a b c d : Nat} (ha : a < 2 ^ 64) (hb : b < 2 ^ 64) (hc : c < 2 ^ 64) (hd : d < 2 ^ 64) (rest : List Byte) :
    let l := leBytes 8 a ++ leBytes 8 b ++ leBytes 8 c ++ leBytes 8 d ++ rest
    field l 0 8 = a ∧ field l 8 8 = b ∧ field l 16 8 = c ∧ field l 24 8 = d := by
  have at0 := field_between (l := []) (k := 0) rfl 8 a (leBytes 8 b ++ leBytes 8 c ++ leBytes 8 d ++ rest)
  have at8 := field_between (l := leBytes 8 a) (k := 8) (by simp) 8 b (leBytes 8 c ++ leBytes 8 d ++ rest)
  have at16 := field_between (l := leBytes 8 a ++ leBytes 8 b) (k := 16) (by simp) 8 c (leBytes 8 d ++ rest)
  have at24 := field_between (l := leBytes 8 a ++ leBytes 8 b ++ leBytes 8 c) (k := 24) (by simp) 8 d rest
  simp only [List.nil_append, List.append_assoc] at at0 at8 at16 at24 ⊢
  rw [at0, at8, at16, at24]
  exact ⟨Nat.mod_eq_of_lt ha, Nat.mod_eq_of_lt hb, Nat.mod_eq_of_lt hc, Nat.mod_eq_of_lt hd⟩

/-- The same with nothing after them. -/
theorem field_words_end {a b c d : Nat} (ha : a < 2 ^ 64) (hb : b < 2 ^ 64) (hc : c < 2 ^ 64) (hd : d < 2 ^ 64) :
    let l := leBytes 8 a ++ leBytes 8 b ++ leBytes 8 c ++ leBytes 8 d
    field l 0 8 = a ∧ field l 8 8 = b ∧ field l 16 8 = c ∧ field l 24 8 = d := by
  simpa only [List.append_nil] using field_words ha hb hc hd []

/-! ### Frame headers (03 R57) -/

/-- Every field of a frame fits the bits that the header has for it. -/
structure HeaderFits (f : Frame) : Prop where
  dest : f.dest < 2 ^ 10
  src : f.src < 2 ^ 10
  agent : f.agent < 2 ^ 6
  partition : f.partition < 2 ^ 4
  cls : f.cls < 2 ^ 3
  typ : f.typ < 2 ^ 6
  tag : f.tag < 2 ^ 12
  keySlot : f.keySlot < 2 ^ 5
  inc : f.inc < 2 ^ 4
  offset : f.offset < 2 ^ 42
  age : f.age < 2 ^ 12
  length : f.length < 2 ^ 9
  sparse : f.sparse < 2 ^ 16
  status : f.status < 2 ^ 4

/-- The fields of word 0 stand side by side from bit 0 to bit 60, and bits 61 to 63 are 0. -/
theorem HeaderFits.word0 {f : Frame} (h : HeaderFits f) :
    let w := f.word0
    w < 2 ^ 61 ∧ bits w 0 10 = f.dest ∧ bits w 10 10 = f.src ∧ bits w 20 6 = f.agent ∧ bits w 26 4 = f.partition ∧ bits w 30 3 = f.cls
      ∧ bits w 33 6 = f.typ ∧ bits w 39 12 = f.tag ∧ w / 2 ^ 51 % 2 = b2n f.f ∧ bits w 52 5 = f.keySlot ∧ bits w 57 4 = f.inc := by
  obtain ⟨hdest, hsrc, hagent, hpartition, hcls, htyp, htag, hkeySlot, hinc, -⟩ := h
  have hf := b2n_le f.f
  simp only [bits_eq, Frame.word0]
  generalize b2n f.f = flag at hf ⊢
  and_intros <;> omega

theorem HeaderFits.word1 {f : Frame} (h : HeaderFits f) : f.word1 < 2 ^ 54 ∧ bits f.word1 0 42 = f.offset ∧ bits f.word1 42 12 = f.age := by
  obtain ⟨-, -, -, -, -, -, -, -, -, hoffset, hage, -⟩ := h
  simp only [bits_eq, Frame.word1]
  and_intros <;> omega

theorem HeaderFits.word2 {f : Frame} (h : HeaderFits f) :
    let w := f.word2
    w < 2 ^ 64 ∧ bits w 0 9 = f.length ∧ bits w 9 7 = 0 ∧ bits w 16 16 = f.sparse ∧ bits w 32 4 = f.status ∧ w / 2 ^ 36 = f.opx.toNat := by
  obtain ⟨-, -, -, -, -, -, -, -, -, -, -, hlength, hsparse, hstatus⟩ := h
  have hopx := f.opx.isLt
  simp only [bits_eq, Frame.word2]
  generalize f.opx.toNat = opx at hopx ⊢
  and_intros <;> omega

/-- The words of a header spell its frame. -/
theorem HeaderFits.ofWords {f : Frame} (h : HeaderFits f) : Frame.ofWords f.word0 f.word1 f.word2 f.word3 = { f with data := [] } := by
  obtain ⟨-, hdest, hsrc, hagent, hpartition, hcls, htyp, htag, hf, hkeySlot, hinc⟩ := h.word0
  obtain ⟨-, hoffset, hage⟩ := h.word1
  obtain ⟨-, hlength, -, hsparse, hstatus, hopx⟩ := h.word2
  simp only [Frame.ofWords, hdest, hsrc, hagent, hpartition, hcls, htyp, htag, bit_eq, hf, decide_b2n, hkeySlot, hinc, hoffset, hage, hlength, hsparse,
    hstatus, hopx, Frame.word3, BitVec.ofNat_toNat, BitVec.setWidth_eq]

theorem HeaderFits.fields {f : Frame} (h : HeaderFits f) (rest : List Byte) :
    let l := f.headerBytes ++ rest
    field l 0 8 = f.word0 ∧ field l 8 8 = f.word1 ∧ field l 16 8 = f.word2 ∧ field l 24 8 = f.word3 :=
  field_words (h.word0.1.trans (by decide)) (h.word1.1.trans (by decide)) h.word2.1 f.ext.isLt rest

/-- A header is read back from the first 32 bytes, whatever follows them. -/
theorem HeaderFits.ofHeader {f : Frame} (h : HeaderFits f) (rest : List Byte) : Frame.ofHeader (f.headerBytes ++ rest) = { f with data := [] } := by
  obtain ⟨h0, h1, h2, h3⟩ := h.fields rest
  rw [Frame.ofHeader, h0, h1, h2, h3, h.ofWords]

/-! ### Segment descriptors (02 R31) -/

/-- Every field of a descriptor fits its bits, and the bases are multiples of 2 MiB. -/
structure DescFits (d : Desc) : Prop where
  mode : d.mode < 2 ^ 2
  keySlot : d.keySlot < 2 ^ 5
  partition : d.partition < 2 ^ 4
  cvaAligned : d.cvaBase % 2 ^ 21 = 0
  cvaBase : d.cvaBase < 2 ^ 56
  fgaAligned : d.fgaBase % 2 ^ 21 = 0
  fgaBase : d.fgaBase < 2 ^ 52
  length : d.length < 2 ^ 35
  context : d.context < 2 ^ 16

/-- The fields of word 0, among which bits 17 to 20 and 56 to 63 are 0. -/
theorem DescFits.word0 {d : Desc} (h : DescFits d) :
    let w := d.word0
    w < 2 ^ 56 ∧ w % 2 = b2n d.v ∧ w / 2 ^ 1 % 2 = b2n d.r ∧ w / 2 ^ 2 % 2 = b2n d.w ∧ w / 2 ^ 3 % 2 = b2n d.a ∧ bits w 4 2 = d.mode
      ∧ w / 2 ^ 6 % 2 = b2n d.stripe ∧ w / 2 ^ 7 % 2 = b2n d.log ∧ bits w 8 5 = d.keySlot ∧ bits w 13 4 = d.partition ∧ bits w 17 4 = 0
      ∧ bits w 21 35 * 2 ^ 21 = d.cvaBase ∧ bits w 56 8 = 0 ∧ w / 2 ^ 21 * 2 ^ 21 = d.cvaBase := by
  obtain ⟨hmode, hkeySlot, hpartition, hcvaAligned, hcvaBase, -⟩ := h
  have hv := b2n_le d.v
  have hr := b2n_le d.r
  have hw := b2n_le d.w
  have ha := b2n_le d.a
  have hstripe := b2n_le d.stripe
  have hlog := b2n_le d.log
  simp only [bits_eq, Desc.word0]
  generalize b2n d.v = v, b2n d.r = r, b2n d.w = w, b2n d.a = a, b2n d.stripe = stripe, b2n d.log = log at *
  and_intros <;> omega

/-- The other words are their fields, with no reserved bit set. -/
theorem DescFits.words {d : Desc} (h : DescFits d) :
    bits d.fgaBase 21 31 * 2 ^ 21 = d.fgaBase ∧ bits d.fgaBase 0 21 = 0 ∧ bits d.fgaBase 52 12 = 0
      ∧ bits d.length 0 35 = d.length ∧ bits d.length 35 29 = 0 ∧ bits d.context 0 16 = d.context ∧ bits d.context 16 48 = 0 := by
  obtain ⟨-, -, -, -, -, hfgaAligned, hfgaBase, hlength, hcontext⟩ := h
  simp only [bits_eq]
  and_intros <;> omega

theorem DescFits.fields {d : Desc} (h : DescFits d) :
    field d.bytes 0 8 = d.word0 ∧ field d.bytes 8 8 = d.fgaBase ∧ field d.bytes 16 8 = d.length ∧ field d.bytes 24 8 = d.context :=
  field_words_end (h.word0.1.trans (by decide)) (h.fgaBase.trans (by decide)) (h.length.trans (by decide)) (h.context.trans (by decide))

/-- The bytes of a descriptor without reserved bits decode to it. -/
theorem DescFits.decode {d : Desc} (h : DescFits d) (hreserved : d.reserved = false) : decodeDesc d.bytes = d := by
  obtain ⟨h0, h1, h2, h3⟩ := h.fields
  obtain ⟨-, hv, hr, hw, ha, hmode, hstripe, hlog, hkeySlot, hpartition, hlow, hcvaBase, hhigh, -⟩ := h.word0
  obtain ⟨hfga, hfgaLow, hfgaHigh, hlength, hlengthHigh, hcontext, hcontextHigh⟩ := h.words
  simp only [decodeDesc, h0, h1, h2, h3, bit_eq, Nat.pow_zero, Nat.div_one, hv, hr, hw, ha, hmode, hstripe, hlog, hkeySlot, hpartition, hlow, hcvaBase, hhigh,
    hfga, hfgaLow, hfgaHigh, hlength, hlengthHigh, hcontext, hcontextHigh, decide_b2n, bne_self_eq_false, Bool.or_self, ← hreserved]

/-- Settles O55: the words of a header and of a descriptor are sums of fields that stand side by side, and each is read at its bits. -/
theorem headerAndDescriptorRoundTrip : Obligations.HeaderAndDescriptorRoundTrip := by
  unfold Obligations.HeaderAndDescriptorRoundTrip
  constructor
  · intro f hdest hsrc hagent hpartition hcls htyp htag hkeySlot hinc hoffset hage hlength hsparse hstatus
    have h : HeaderFits f := ⟨hdest, hsrc, hagent, hpartition, hcls, htyp, htag, hkeySlot, hinc, hoffset, hage, hlength, hsparse, hstatus⟩
    obtain ⟨h0, h1, h2, -⟩ := h.fields []
    obtain ⟨hlt0, -, -, -, -, -, -, -, -, hslot, -⟩ := h.word0
    obtain ⟨hlt1, -, hage'⟩ := h.word1
    obtain ⟨-, -, hgap, -, hstatus', -⟩ := h.word2
    rw [List.append_nil] at h0 h1 h2
    refine ⟨by simp [Frame.headerBytes], by simpa using h.ofHeader [], h.ofHeader, ?_, ?_, h2.symm ▸ hgap, h0.symm ▸ hslot, h1.symm ▸ hage', h2.symm ▸ hstatus'⟩
    · rw [h0, bits_eq, Nat.div_eq_of_lt hlt0, Nat.zero_mod]
    · rw [h1, bits_eq, Nat.div_eq_of_lt hlt1, Nat.zero_mod]
  · intro d hmode hkeySlot hpartition hcvaAligned hcvaBase hfgaAligned hfgaBase hlength hcontext hreserved
    have h : DescFits d := ⟨hmode, hkeySlot, hpartition, hcvaAligned, hcvaBase, hfgaAligned, hfgaBase, hlength, hcontext⟩
    obtain ⟨h0, h1, -, h3⟩ := h.fields
    obtain ⟨-, -, -, -, -, -, -, -, hslot, hpart, -, -, -, hcva⟩ := h.word0
    exact ⟨by simp [Desc.bytes], h.decode hreserved, h0.symm ▸ hcva, h1, h0.symm ▸ hslot, h0.symm ▸ hpart, h3⟩

/-! ### A request that begins its line operation when it arrives (04 R108, 05 R125) -/

/-- READ_SHARED, READ_OWN and CLAIM: the requests that the home of a COHERENT line grants. -/
def asksGrant (f : Frame) : Bool := [ftReadShared, ftReadOwn, ftClaim].contains f.typ

theorem asksGrant_of_typ {f : Frame} {n : Nat} (ht : f.typ = n) : asksGrant f = [ftReadShared, ftReadOwn, ftClaim].contains n := by
  rw [asksGrant, ht]

/-- A request for a grant outside COHERENT regions is recorded (05 R114). -/
theorem State.noteMode_eq (s : State) (f : Frame) : s.noteMode f
    = if asksGrant f && s.sw.modeAt f.offset != mCoherent then s.record { kind := fModeMismatch, index := 0, partition := f.partition } else s := rfl

/-- The home's row of a type, for a request of that type that the home neither refuses nor holds. -/
theorem State.atHome_open {s : State} {f : Frame} {n : Nat} (h : Open f s) (ht : f.typ = n) (pos : Nat) :
    s.atHome .sw pos { f with typ := n } = ((s.atUnit pos f).noteMode f).serveOpen pos f := by
  obtain ⟨hheld, hrefusal, hwait, hbehind⟩ := h
  rw [Frame.typed ht]
  unfold State.atHome State.homeRequest
  dsimp only
  rw [hheld, hrefusal, hwait, hbehind]
  rfl

theorem State.noteMode_of_ungranted {f : Frame} (h : asksGrant f = false) (s : State) : s.noteMode f = s := by
  simp [State.noteMode_eq, h]

theorem State.noteMode_coherent {s : State} {f : Frame} (h : s.sw.modeAt f.offset = mCoherent) : s.noteMode f = s := by
  simp [State.noteMode_eq, h]

theorem State.noteMode_mismatch {s : State} {f : Frame} (h : asksGrant f = true) (hm : s.sw.modeAt f.offset ≠ mCoherent) :
    s.noteMode f = s.record { kind := fModeMismatch, index := 0, partition := f.partition } := by
  simp [State.noteMode_eq, h, hm]

theorem State.record_modeAt (s : State) (o : Occurrence) (off : Nat) : (s.record o).sw.modeAt off = s.sw.modeAt off := by
  obtain ⟨-, -, -, hmem, -⟩ := (State.record_report s o).fields
  rw [Switch.modeAt, Switch.region, hmem, Switch.modeAt, Switch.region]

/-- Nothing of the request's lines is held by an end-point, as far as the home must ask: the region is not COHERENT, or no copy is to be taken back. -/
abbrev Unheld (f : Frame) (s : State) : Prop := s.sw.modeAt f.offset ≠ mCoherent ∨ s.sw.takeBack f = none ∧ asksGrant f = false

/-- An unheld request is performed as its type says. -/
theorem State.serveOpen_unheld {s : State} {f : Frame} (h : Unheld f s) (pos : Nat) :
    s.serveOpen pos f = if f.typ = ftClaim then s.homeRespond f stOk [] 0
      else if [ftRead, ftReadVol, ftReadShared, ftReadOwn].contains f.typ then
        s.performRead f (if s.sw.modeAt f.offset = mCoherent then 0 else s.sw.readCache f)
      else if f.typ = ftAtomic then s.performAtomic f pos
      else if f.typ = ftDeposit then s.performDeposit f pos
      else s.performWrite f pos := by
  have hungranted : (decide (s.sw.modeAt f.offset = mCoherent) && asksGrant f) = false := by
    obtain hmode | ⟨-, hgrant⟩ := h
    · simp [hmode]
    · simp [hgrant]
  have hnone : (if decide (s.sw.modeAt f.offset = mCoherent) then s.sw.takeBack f else none) = none := by
    obtain hmode | ⟨hback, -⟩ := h
    · simp [hmode]
    · simp [hback]
  unfold State.serveOpen
  unfold asksGrant at hungranted
  dsimp only
  rw [hungranted, hnone]
  simp only [Bool.false_eq_true, if_false, decide_eq_true_eq]

/-- A request to a line of which copies are held has its home ask for them first. -/
theorem State.serveOpen_asks {s : State} {f : Frame} {e : DirEntry} {targets : List (Nat × Nat)} (hmode : s.sw.modeAt f.offset = mCoherent)
    (hgrant : asksGrant f = false) (hback : s.sw.takeBack f = some (e, targets)) (pos : Nat) :
    s.serveOpen pos f = s.ask pos f e targets { line := e.line, stage := .again } := by
  have hungranted : (decide (s.sw.modeAt f.offset = mCoherent) && asksGrant f) = false := by simp [hgrant]
  unfold State.serveOpen
  unfold asksGrant at hungranted
  dsimp only
  rw [hungranted, hback, hmode]
  rfl

/-- A request for a grant of a COHERENT line, from an end-point that is not fenced here. -/
theorem State.serveOpen_grants {s : State} {f : Frame} (hmode : s.sw.modeAt f.offset = mCoherent) (hgrant : asksGrant f = true)
    (hfence : s.sw.epFenced f.src = false) (pos : Nat) : s.serveOpen pos f = s.serveGrant pos f := by
  have hgranted : (decide (s.sw.modeAt f.offset = mCoherent) && asksGrant f) = true := by simp [hgrant, hmode]
  unfold State.serveOpen
  unfold asksGrant at hgranted
  dsimp only
  rw [hgranted, hfence]
  rfl

/-! ### Reads and grants (05 R113, R114, R130) -/

/-- An unheld read. -/
theorem State.serveOpen_reads {s : State} {f : Frame} (h : Unheld f s) (ht : f.typ ∈ [ftRead, ftReadVol, ftReadShared, ftReadOwn]) (pos : Nat) :
    s.serveOpen pos f = s.performRead f (if s.sw.modeAt f.offset = mCoherent then 0 else s.sw.readCache f) := by
  have hclaim : f.typ ≠ ftClaim := fun hc => by
    rw [hc] at ht
    exact absurd ht (by decide)
  rw [State.serveOpen_unheld h, if_neg hclaim, if_pos (List.contains_iff_mem.mpr ht)]

/-- READ_VOL fills no cache. -/
theorem Switch.readCache_vol {f : Frame} (ht : f.typ = ftReadVol) (w : Switch) : w.readCache f = 0 := if_pos (.inl ht)

/-- READ and READ_VOL at their home's row. -/
theorem State.atHome_reads {s : State} {f : Frame} {n : Nat} (h : Open f s) (ht : f.typ = n) (hn : n ∈ [ftRead, ftReadVol]) (pos : Nat)
    (hfree : (s.atUnit pos f).sw.modeAt f.offset ≠ mCoherent ∨ (s.atUnit pos f).sw.takeBack f = none) :
    s.atHome .sw pos { f with typ := n }
      = (s.atUnit pos f).performRead f (if (s.atUnit pos f).sw.modeAt f.offset = mCoherent then 0 else (s.atUnit pos f).sw.readCache f) := by
  have hgrant : asksGrant f = false := by
    rw [asksGrant_of_typ ht]
    exact (by decide : ∀ m ∈ [ftRead, ftReadVol], [ftReadShared, ftReadOwn, ftClaim].contains m = false) n hn
  have hread : f.typ ∈ [ftRead, ftReadVol, ftReadShared, ftReadOwn] := by
    rw [ht]
    exact List.mem_append_left [ftReadShared, ftReadOwn] hn
  rw [State.atHome_open h ht, State.noteMode_of_ungranted hgrant, State.serveOpen_reads (hfree.imp_right fun hback => ⟨hback, hgrant⟩) hread]

/-- READ_SHARED and READ_OWN outside COHERENT regions: recorded, and served as a READ. -/
theorem State.atHome_reads_mismatch {s : State} {f : Frame} {n : Nat} (h : Open f s) (ht : f.typ = n) (hn : n ∈ [ftReadShared, ftReadOwn]) (pos : Nat)
    (hmode : (s.atUnit pos f).sw.modeAt f.offset ≠ mCoherent) :
    let u := (s.atUnit pos f).record { kind := fModeMismatch, index := 0, partition := f.partition }
    s.atHome .sw pos { f with typ := n } = u.performRead f (u.sw.readCache f) := by
  intro u
  have hgrant : asksGrant f = true := by
    rw [asksGrant_of_typ ht]
    exact (by decide : ∀ m ∈ [ftReadShared, ftReadOwn], [ftReadShared, ftReadOwn, ftClaim].contains m = true) n hn
  have hread : f.typ ∈ [ftRead, ftReadVol, ftReadShared, ftReadOwn] := by
    rw [ht]
    exact List.mem_append_right [ftRead, ftReadVol] hn
  have hu : u.sw.modeAt f.offset ≠ mCoherent := by rwa [State.record_modeAt]
  rw [State.atHome_open h ht, State.noteMode_mismatch hgrant hmode, State.serveOpen_reads (.inl hu) hread, if_neg hu]

/-- A request for a grant at the row of its home, where the line is COHERENT. -/
theorem State.atHome_grants {s : State} {f : Frame} {n : Nat} (h : Open f s) (ht : f.typ = n) (hn : n ∈ [ftReadShared, ftReadOwn, ftClaim]) (pos : Nat)
    (hmode : (s.atUnit pos f).sw.modeAt f.offset = mCoherent) (hfence : (s.atUnit pos f).sw.epFenced f.src = false) :
    s.atHome .sw pos { f with typ := n } = (s.atUnit pos f).serveGrant pos f := by
  have hgrant : asksGrant f = true := by
    rw [asksGrant_of_typ ht]
    exact List.contains_iff_mem.mpr hn
  rw [State.atHome_open h ht, State.noteMode_coherent hmode, State.serveOpen_grants hmode hgrant hfence]

/-- READ_SHARED or READ_OWN of a line that no end-point holds: E, and the line is Busy until COH_ACK. -/
theorem State.serveGrant_unheld {s w : State} {f : Frame} {d : List Byte} (ht : f.typ ≠ ftClaim) (hentry : s.sw.entry (f.offset / 128) = none)
    (hread : s.readRange f = (some d, w)) (pos : Nat) :
    s.serveGrant pos f = (w.putBusy { line := f.offset / 128, stage := .ack, pos := pos, f := f
                                      next := some { line := f.offset / 128, state := .em, owner := f.src, keySlot := f.keySlot } }).homeRespond f stOk d 2 := by
  unfold State.serveGrant State.grant
  dsimp only
  rw [hentry, hread]
  exact (if_neg ht).trans (if_neg ht)

/-- CLAIM of a line that no end-point holds: no grant. -/
theorem State.serveGrant_claim_unheld {s : State} {f : Frame} (ht : f.typ = ftClaim) (hentry : s.sw.entry (f.offset / 128) = none) (pos : Nat) :
    s.serveGrant pos f = s.homeRespond f stOk [] 0 := by
  unfold State.serveGrant
  dsimp only
  rw [hentry]
  exact if_pos ht

/-- CLAIM of a line that the requester alone holds S: E, under the slot of its entry. -/
theorem State.serveGrant_claim_sole {s : State} {f : Frame} {e : DirEntry} (ht : f.typ = ftClaim) (hentry : s.sw.entry (f.offset / 128) = some e)
    (hstate : e.state = .s) (hsole : e.sharers = [f.src]) (pos : Nat) :
    s.serveGrant pos f = (s.putBusy { line := f.offset / 128, stage := .ack, pos := pos, f := f
                                      next := some { line := f.offset / 128, state := .em, owner := f.src, keySlot := e.keySlot } }).homeRespond f stOk [] 2 := by
  have hshared : ftClaim ≠ ftReadShared := by decide
  have hown : ftClaim ≠ ftReadOwn := by decide
  unfold State.serveGrant State.grant
  dsimp only
  rw [hentry]
  simp [DirEntry.holders, hstate, hsole, hshared, hown, ht]

/-- READ_SHARED or READ_OWN at the row of its home, of a COHERENT line that no end-point holds. -/
theorem State.atHome_grants_unheld {s w : State} {f : Frame} {d : List Byte} {n : Nat} (h : Open f s) (ht : f.typ = n) (hn : n ∈ [ftReadShared, ftReadOwn])
    (pos : Nat) (hmode : (s.atUnit pos f).sw.modeAt f.offset = mCoherent) (hfence : (s.atUnit pos f).sw.epFenced f.src = false)
    (hentry : (s.atUnit pos f).sw.entry (f.offset / 128) = none) (hread : (s.atUnit pos f).readRange f = (some d, w)) :
    s.atHome .sw pos { f with typ := n }
      = (w.putBusy { line := f.offset / 128, stage := .ack, pos := pos, f := f
                     next := some { line := f.offset / 128, state := .em, owner := f.src, keySlot := f.keySlot } }).homeRespond f stOk d 2 := by
  have hclaim : f.typ ≠ ftClaim := by
    rw [ht]
    exact (by decide : ∀ m ∈ [ftReadShared, ftReadOwn], m ≠ ftClaim) n hn
  rw [State.atHome_grants h ht (List.mem_append_left [ftClaim] hn) pos hmode hfence, State.serveGrant_unheld hclaim hentry hread]

/-- CLAIM outside COHERENT regions: recorded, and no grant. -/
theorem State.atHome_claim_mismatch {s : State} {f : Frame} (h : Open f s) (ht : f.typ = ftClaim) (pos : Nat)
    (hmode : (s.atUnit pos f).sw.modeAt f.offset ≠ mCoherent) :
    s.atHome .sw pos { f with typ := ftClaim }
      = ((s.atUnit pos f).record { kind := fModeMismatch, index := 0, partition := f.partition }).homeRespond f stOk [] 0 := by
  have hgrant : asksGrant f = true := by
    rw [asksGrant_of_typ ht]
    decide
  rw [State.atHome_open h ht, State.noteMode_mismatch hgrant hmode, State.serveOpen_unheld (.inl (by rwa [State.record_modeAt])), if_pos ht]

/-- Settles O25: an open request is performed at its Clearing unit; what it is answered follows its type, its region's mode and its line's entry. -/
theorem switchHomeReadsComplete : Obligations.SwitchHomeReadsComplete := by
  unfold Obligations.SwitchHomeReadsComplete
  intro s pos f h u coh read mine busy mismatch
  have hperform (v : State) (cache : Nat) : read v cache = v.performRead f cache := rfl
  have hcoh : coh = true ↔ u.sw.modeAt f.offset = mCoherent := decide_eq_true_iff
  have hout : coh = false ↔ u.sw.modeAt f.offset ≠ mCoherent := decide_eq_false_iff_not
  refine ⟨fun ht hfree => congrArg Host.Outcome.next ?_, fun ht hfree => congrArg Host.Outcome.next ?_, fun ht => ⟨fun hc => ?_, fun hc hfence hentry _ d w hread => ?_⟩,
    fun ht => ⟨fun hc => ?_, fun hc hfence hentry _ d w hread => ?_⟩, fun ht => ⟨fun hc => ?_, fun hc hfence => ?_⟩⟩
  · rw [hperform]
    simp only [hcoh]
    exact State.atHome_reads h ht (by decide) pos (hfree.imp_left hout.mp)
  · have hread := State.atHome_reads h ht (by decide) pos (hfree.imp_left hout.mp)
    rwa [Switch.readCache_vol ht, ite_self] at hread
  · exact congrArg Host.Outcome.next (State.atHome_reads_mismatch h ht (by decide) pos (hout.mp hc))
  · exact congrArg Host.Outcome.next (State.atHome_grants_unheld h ht (by decide) pos (hcoh.mp hc) hfence hentry hread)
  · exact congrArg Host.Outcome.next (State.atHome_reads_mismatch h ht (by decide) pos (hout.mp hc))
  · exact congrArg Host.Outcome.next (State.atHome_grants_unheld h ht (by decide) pos (hcoh.mp hc) hfence hentry hread)
  · exact congrArg Host.Outcome.next (State.atHome_claim_mismatch h ht pos (hout.mp hc))
  · have hgrants := State.atHome_grants h ht (by decide) pos (hcoh.mp hc) hfence
    exact ⟨fun hentry => congrArg Host.Outcome.next (hgrants.trans (State.serveGrant_claim_unheld ht hentry pos)),
      fun e hentry hstate hsole => congrArg Host.Outcome.next (hgrants.trans (State.serveGrant_claim_sole ht hentry hstate hsole pos))⟩

/-! ### What a home's reads and writes of its lines leave: its identity, its clock and the modes of its regions -/

/-- The parts of a switch that a store names after it has read or written its lines. -/
def State.bearings (s : State) : Nat × Clock × Tab Region := (s.sw.sys.homeId, s.sw.clock, s.sw.mem.home.region)

theorem State.bearings_homeId {s t : State} (h : t.bearings = s.bearings) : t.sw.sys.homeId = s.sw.sys.homeId := congrArg Prod.fst h

theorem State.bearings_clock {s t : State} (h : t.bearings = s.bearings) : t.sw.clock = s.sw.clock := congrArg (·.2.1) h

theorem State.bearings_modeAt {s t : State} (h : t.bearings = s.bearings) (off : Nat) : t.sw.modeAt off = s.sw.modeAt off := by
  have hregion : t.sw.mem.home.region = s.sw.mem.home.region := congrArg (·.2.2) h
  rw [Switch.modeAt, Switch.region, hregion, Switch.modeAt, Switch.region]

theorem SentFrame.bearings {s t : State} (h : SentFrame s t) : t.bearings = s.bearings := by
  obtain ⟨hsys, hclock, -, hmem, -⟩ := h.fields
  rw [State.bearings, hsys, hclock, hmem, State.bearings]

theorem ReportFrame.bearings {s t : State} (h : ReportFrame s t) : t.bearings = s.bearings := by
  rw [h.1]
  rfl

@[simp] theorem State.bearings_ite (c : Prop) [Decidable c] (s t : State) : (if c then s else t).bearings = if c then s.bearings else t.bearings :=
  apply_ite _ _ _ _

@[simp] theorem State.bearings_each {α : Type} {g : State → α → State} (hg : ∀ u a, (g u a).bearings = u.bearings) (s : State) (l : List α) :
    (s.each l g).bearings = s.bearings :=
  State.each_keeps (P := fun u => u.bearings = s.bearings) rfl fun u hu a => (hg u a).trans hu

theorem State.onMem_bearings {g : Mem → Mem} (hg : ∀ m, (g m).home.region = m.home.region) (s : State) : (s.onMem g).bearings = s.bearings := by
  rw [State.bearings, State.onMem_sw, hg, State.bearings]

@[simp] theorem State.count_bearings (s : State) (block i : Nat) : (s.count block i).bearings = s.bearings := rfl
@[simp] theorem State.putBusy_bearings (s : State) (b : Busy) : (s.putBusy b).bearings = s.bearings := rfl
@[simp] theorem State.onLine_bearings (s : State) (l : Nat) (g : LineMeta → LineMeta) : (s.onLine l g).bearings = s.bearings := rfl
@[simp] theorem State.record_bearings (s : State) (o : Occurrence) : (s.record o).bearings = s.bearings := (State.record_report s o).bearings
@[simp] theorem State.sendBackInv_bearings (s : State) (l h slot : Nat) : (s.sendBackInv l h slot).bearings = s.bearings := (State.swSend_sent s _ _).bearings

/-- A request that reaches its Clearing unit. -/
theorem State.atUnit_bearings (s : State) (pos : Nat) (f : Frame) : (s.atUnit pos f).bearings = s.bearings := by
  have harrive (u : State) : (u.noteArrival f).bearings = u.bearings := by
    unfold State.noteArrival
    dsimp only
    split <;> rfl
  exact (State.takeInbox_sent _ _ _).bearings.trans ((harrive _).trans (State.workMemory_sent s f.offset).bearings)

/-! #### Errors that are met -/

@[simp] theorem State.backInvLine_bearings (s : State) (l : Nat) : (s.backInvLine l).bearings = s.bearings := by
  unfold State.backInvLine
  split <;> simp

@[simp] theorem State.fenceChannel_bearings (s : State) (c : Nat) : (s.fenceChannel c).bearings = s.bearings := by
  have hbase : (s.fenceChannelBase c).bearings = s.bearings := by
    unfold State.fenceChannelBase
    split
    · rfl
    · exact (State.onMem_bearings (fun _ => rfl) _).trans ((State.record_bearings _ _).trans (State.onMem_bearings (fun _ => rfl) s))
  simp [State.fenceChannel, hbase]

@[simp] theorem State.retirePage_bearings (s : State) (c page : Nat) : (s.retirePage c page).bearings = s.bearings := by
  unfold State.retirePage
  dsimp only
  split
  · rfl
  · split
    · simp
    · exact (State.record_bearings _ _).trans ((State.count_bearings _ _ _).trans (State.onMem_bearings (fun _ => rfl) s))

@[simp] theorem State.eccSeen_bearings (s : State) (l : Nat) : (s.eccSeen l).bearings = s.bearings := by
  simp [State.eccSeen]

@[simp] theorem State.eccCorrected_bearings (s : State) (l : Nat) : (s.eccCorrected l).bearings = s.bearings := by
  have hnoted (g : Mem → Mem) (hg : ∀ m, (g m).home.region = m.home.region) : ((s.count (blkChan (channelOf (l * 128))) 0).onMem g).bearings = s.bearings :=
    State.onMem_bearings hg _
  unfold State.eccCorrected
  dsimp only
  split
  · exact (State.retirePage_bearings _ _ _).trans (hnoted _ fun _ => rfl)
  · exact hnoted _ fun _ => rfl

@[simp] theorem State.correctLine_bearings (s : State) (l : Nat) : (s.correctLine l).bearings = s.bearings := by
  unfold State.correctLine
  split
  · rfl
  · split <;> simp

/-! #### Lines through the pool cache -/

@[simp] theorem Mem.writeBack_region (m : Mem) (c : CacheLine) : (m.writeBack c).home.region = m.home.region := by
  unfold Mem.writeBack
  split <;> rfl

@[simp] theorem Mem.drop_region (m : Mem) (l : Nat) : (m.drop l).home.region = m.home.region := by
  unfold Mem.drop
  split
  · rfl
  · exact Mem.writeBack_region _ _

@[simp] theorem Mem.insert_region (m : Mem) (n : Nat) (c : CacheLine) : (m.insert n c).home.region = m.home.region := by
  unfold Mem.insert
  dsimp only
  split
  · rfl
  · split
    · rfl
    · exact Mem.writeBack_region _ _

@[simp] theorem State.drop_bearings (s : State) (l : Nat) : (s.onMem fun m => m.drop l).bearings = s.bearings :=
  State.onMem_bearings (fun m => Mem.drop_region m l) s

@[simp] theorem State.insert_bearings (s : State) (n : Nat) (c : CacheLine) : (s.onMem fun m => m.insert n c).bearings = s.bearings :=
  State.onMem_bearings (fun m => Mem.insert_region m n c) s

@[simp] theorem State.fetchLine_bearings (s : State) (l slot : Nat) : (s.fetchLine l slot).2.bearings = s.bearings := by
  refine Eq.trans ?_ (State.correctLine_bearings s l)
  unfold State.fetchLine State.readLine
  dsimp only
  split
  · dsimp only
    split
    · simp
    · exact State.onMem_bearings (fun _ => rfl) _
  · split <;> simp

@[simp] theorem State.writeLine_bearings (s : State) (l slot : Nat) (data : List Byte) : (s.writeLine l slot data).bearings = s.bearings := by
  unfold State.writeLine
  dsimp only
  split
  · simp
  · exact (State.onMem_bearings (fun _ => rfl) _).trans (State.drop_bearings s l)

/-! #### Ranges -/

theorem State.readRange_bearings (s : State) (f : Frame) : (s.readRange f).2.bearings = s.bearings := by
  unfold State.readRange
  split
  · refine List.foldlRecOn (motive := fun a : Option (List Byte) × State => a.2.bearings = s.bearings) f.lines _ rfl fun a ha l _ => ?_
    have hline := (State.fetchLine_bearings a.2 l (a.2.sw.slotAt (l * 128) f.keySlot)).trans ha
    dsimp only
    split
    · exact ha
    · split
      · next u hu =>
        rw [hu] at hline
        exact (State.eccSeen_bearings u l).trans hline
      · next d u hu =>
        rw [hu] at hline
        exact hline
  · split <;> rfl

theorem State.partsReadable_bearings (s : State) (f : Frame) : (s.partsReadable f).2.bearings = s.bearings := by
  unfold State.partsReadable
  split
  · refine List.foldlRecOn (motive := fun a : Bool × State => a.2.bearings = s.bearings) f.lines _ rfl fun a ha l _ => ?_
    have hline := (State.fetchLine_bearings a.2 l (a.2.sw.slotAt (l * 128) f.keySlot)).trans ha
    split
    · exact ha
    · split
      · next u hu =>
        rw [hu] at hline
        exact (State.eccSeen_bearings u l).trans hline
      · next d u hu =>
        rw [hu] at hline
        exact hline
  · rfl

theorem State.writeRange_bearings (s : State) (f : Frame) (data : List Byte) : (s.writeRange f data).bearings = s.bearings := by
  unfold State.writeRange
  split
  · refine State.bearings_each (fun u l => ?_) s _
    have hline := State.fetchLine_bearings u l (u.sw.slotAt (l * 128) f.keySlot)
    dsimp only
    split
    · exact State.writeLine_bearings _ _ _ _
    · split
      · next v hv =>
        rw [hv] at hline
        exact hline
      · next d v hv =>
        rw [hv] at hline
        exact (State.writeLine_bearings _ _ _ _).trans hline
  · rfl

/-! ### Stores (03 R59, R66, 05 R135, 22 R528) -/

/-- WRITE and WRITE_LOG whose partly written lines can be read. -/
theorem State.performWrite_readable {s v : State} {f : Frame} (h : s.partsReadable f = (true, v)) (pos : Nat) :
    let w := v.writeRange f (padTo f.length f.data)
    s.performWrite f pos = (if f.typ = ftWriteLog then w.logInput f s.sw.sys.homeId f.src f.agent (padTo f.length f.data) else w).homeFinish f pos []
      (if inPool f.offset 1 then f.lines else []) := by
  have hv : v.bearings = s.bearings := by
    have hparts := State.partsReadable_bearings s f
    rwa [h] at hparts
  have hid := State.bearings_homeId ((State.writeRange_bearings v f (padTo f.length f.data)).trans hv)
  unfold State.performWrite
  rw [h, ← hid]

/-- A DEPOSIT of a DIRECT region sends no fill. -/
theorem State.performDeposit_direct {s : State} {f : Frame} (h : s.sw.modeAt f.offset = mDirect) (pos : Nat) :
    s.performDeposit f pos = (s.writeRange f (padTo 128 f.data)).homeFinish f pos [] (if inPool f.offset 1 then [f.offset / 128] else []) := by
  have hmode := (State.bearings_modeAt (State.writeRange_bearings s f (padTo 128 f.data)) f.offset).trans h
  unfold State.performDeposit
  exact if_pos (.inl hmode)

/-- Only the Ticker stamps. -/
theorem atomicApply_unstamped {opx : BitVec 28} (h : aopOf opx ≤ 8) (ext : BitVec 64) (now : Nat) (old arg : List Byte) :
    (atomicApply opx ext now old arg).2 = none := by
  unfold atomicApply
  generalize aopOf opx = n at h
  interval_cases n <;> rfl

/-- An ATOMIC, but for the Ticker, whose line can be read. -/
theorem State.performAtomic_readable {s v : State} {f : Frame} {old : List Byte} (haop : aopOf f.opx ≤ 8)
    (h : s.readRange { f with length := atomicSize (aopOf f.opx) f.length } = (some old, v)) (pos : Nat) :
    s.performAtomic f pos = (v.writeRange { f with length := atomicSize (aopOf f.opx) f.length }
        (atomicApply f.opx f.ext s.sw.clock.now old (padTo f.length f.data)).1).homeFinish f pos (if atomicReturns f.opx then old else [])
      (if inPool f.offset 1 then f.lines else []) := by
  have hclock : v.sw.clock = s.sw.clock := by
    have hread := State.readRange_bearings s { f with length := atomicSize (aopOf f.opx) f.length }
    rw [h] at hread
    exact State.bearings_clock hread
  unfold State.performAtomic
  dsimp only
  rw [h]
  dsimp only
  rw [atomicApply_unstamped haop, State.now, hclock]

/-- A store at the row of its home: what it does there. -/
theorem State.atHome_store {s : State} {f : Frame} {n : Nat} (h : Open f s) (ht : f.typ = n) (hn : n ∈ [ftWrite, ftWriteLog, ftDeposit, ftAtomic]) (pos : Nat) :
    asksGrant f = false ∧ s.atHome .sw pos { f with typ := n } = (s.atUnit pos f).serveOpen pos f := by
  have hgrant : asksGrant f = false := by
    rw [asksGrant_of_typ ht]
    exact (by decide : ∀ m ∈ [ftWrite, ftWriteLog, ftDeposit, ftAtomic], [ftReadShared, ftReadOwn, ftClaim].contains m = false) n hn
  rw [State.atHome_open h ht, State.noteMode_of_ungranted hgrant]
  exact ⟨hgrant, rfl⟩

/-- A store of a line of which copies are held. -/
theorem State.atHome_store_asks {s : State} {f : Frame} {n : Nat} (h : Open f s) (ht : f.typ = n) (hn : n ∈ [ftWrite, ftWriteLog, ftDeposit, ftAtomic])
    (pos : Nat) {e : DirEntry} {targets : List (Nat × Nat)} (hmode : (s.atUnit pos f).sw.modeAt f.offset = mCoherent)
    (hback : (s.atUnit pos f).sw.takeBack f = some (e, targets)) :
    s.atHome .sw pos { f with typ := n } = (s.atUnit pos f).ask pos f e targets { line := e.line, stage := .again } := by
  obtain ⟨hgrant, hserve⟩ := State.atHome_store h ht hn pos
  exact hserve.trans (State.serveOpen_asks hmode hgrant hback pos)

/-- A store of lines that no end-point holds. -/
theorem State.atHome_store_unheld {s : State} {f : Frame} {n : Nat} (h : Open f s) (ht : f.typ = n) (hn : n ∈ [ftWrite, ftWriteLog, ftDeposit, ftAtomic])
    (pos : Nat) (hfree : (s.atUnit pos f).sw.modeAt f.offset ≠ mCoherent ∨ (s.atUnit pos f).sw.takeBack f = none) :
    s.atHome .sw pos { f with typ := n } = if n = ftAtomic then (s.atUnit pos f).performAtomic f pos
      else if n = ftDeposit then (s.atUnit pos f).performDeposit f pos else (s.atUnit pos f).performWrite f pos := by
  obtain ⟨hgrant, hserve⟩ := State.atHome_store h ht hn pos
  obtain ⟨hclaim, hread⟩ : n ≠ ftClaim ∧ [ftRead, ftReadVol, ftReadShared, ftReadOwn].contains n = false :=
    (by decide : ∀ m ∈ [ftWrite, ftWriteLog, ftDeposit, ftAtomic], m ≠ ftClaim ∧ [ftRead, ftReadVol, ftReadShared, ftReadOwn].contains m = false) n hn
  rw [hserve, State.serveOpen_unheld (hfree.imp_right fun hback => ⟨hback, hgrant⟩), ht, if_neg hclaim, hread]
  rfl

/-- Settles O26: a store is performed at its Clearing unit once no copy of its lines is held, and asks the holders before. -/
theorem switchHomeStoresComplete : Obligations.SwitchHomeStoresComplete := by
  unfold Obligations.SwitchHomeStoresComplete
  intro s pos f h u lines
  have hid : u.sw.sys.homeId = s.sw.sys.homeId := State.bearings_homeId (State.atUnit_bearings s pos f)
  have hclock : u.sw.clock = s.sw.clock := State.bearings_clock (State.atUnit_bearings s pos f)
  refine ⟨fun e targets hmode hback => ?_, fun hfree => ⟨fun v hparts => ⟨fun ht => congrArg Host.Outcome.next ?_, fun ht => congrArg Host.Outcome.next ?_⟩,
    fun ht hmode => congrArg Host.Outcome.next ?_, fun old v ht haop => ?_⟩⟩
  · have hasks {n : Nat} (hn : n ∈ [ftWrite, ftWriteLog, ftDeposit, ftAtomic]) (ht : f.typ = n) :=
      congrArg (Host.Outcome.next (φ := Fault) (ρ := Refusal)) (State.atHome_store_asks h ht hn pos hmode hback)
    exact ⟨hasks (by decide), hasks (by decide), hasks (by decide), hasks (by decide)⟩
  · refine (State.atHome_store_unheld h ht (by decide) pos hfree).trans ((State.performWrite_readable hparts pos).trans ?_)
    rw [ht]
    rfl
  · refine (State.atHome_store_unheld h ht (by decide) pos hfree).trans ((State.performWrite_readable hparts pos).trans ?_)
    rw [ht, hid]
    rfl
  · exact (State.atHome_store_unheld h ht (by decide) pos hfree).trans (State.performDeposit_direct hmode pos)
  · intro g hread
    refine congrArg Host.Outcome.next ((State.atHome_store_unheld h ht (by decide) pos hfree).trans ((State.performAtomic_readable haop hread pos).trans ?_))
    rw [hclock]
    rfl

/-! ### Responses (03 R60, R72, R73; 05 R113) -/

/-- An event of an AKG-8 that is on takes effect, and its work goes on. -/
theorem State.epEv_on {s : State} (h : s.ep.off = false) (g : State → State) : s.epEv g = (g s).pump := by
  rw [State.epEv, h]
  rfl

theorem State.taken_escrow (s : State) (f : Frame) : (s.taken f).sw.escrow = s.sw.escrow := by
  obtain ⟨-, -, -, -, -, -, hescrow, -⟩ := (State.taken_sent s f).fields
  exact hescrow

/-- The row of a response: READ_RSP, WRITE_RSP, ATOMIC_RSP, or else FWD_DATA. -/
def responseRow (p : Nat) (f : Frame) (d : Dev) : Instr :=
  if f.typ = ftReadRsp then .readRsp d p f else if f.typ = ftWriteRsp then .writeRsp d p f else if f.typ = ftAtomicRsp then .atomicRsp d p f
  else .fwdData d p f

/-- The three responses reach their requester. -/
theorem exec_responseRow {f : Frame} (h : f.typ ∈ [ftReadRsp, ftWriteRsp, ftAtomicRsp]) (p : Nat) (d : Dev) (s : State) :
    exec (responseRow p f d) s = .next (s.responseAt d p f) := by
  have htyped {n : Nat} (ht : f.typ = n) : (Host.Outcome.next (s.responseAt d p { f with typ := n }) : Host.Outcome State Fault Refusal)
      = .next (s.responseAt d p f) := by rw [Frame.typed ht]
  simp only [List.mem_cons, List.not_mem_nil, or_false] at h
  unfold responseRow
  obtain ht | ht | ht := h
  · rw [if_pos ht]
    exact htyped ht
  · rw [if_neg (by rw [ht]; decide), if_pos ht]
    exact htyped ht
  · rw [if_neg (by rw [ht]; decide), if_neg (by rw [ht]; decide), if_pos ht]
    exact htyped ht

/-- At the AKG-8 so does FWD_DATA. -/
theorem exec_responseRow_ep {s : State} {p : Nat} {f : Frame} (h : f.typ ∈ [ftReadRsp, ftWriteRsp, ftAtomicRsp, ftFwdData]) (htakes : EpTakes p f s) :
    exec (responseRow p f .ep) s = .next ((s.credited p f).epResponse p f).pump := by
  rw [← State.epIn_takes htakes fun s => s.epResponse p f]
  obtain hrsp | hfwd := List.mem_append.mp (show f.typ ∈ [ftReadRsp, ftWriteRsp, ftAtomicRsp] ++ [ftFwdData] from h)
  · exact exec_responseRow hrsp p .ep s
  · rw [List.mem_singleton] at hfwd
    unfold responseRow
    rw [if_neg (by rw [hfwd]; decide), if_neg (by rw [hfwd]; decide), if_neg (by rw [hfwd]; decide)]
    rfl

/-- A response at the switch completes the request of its port and tag. -/
theorem State.switchResponse_answers {s : State} {p : Nat} {f : Frame} {x : Flight}
    (h : s.sw.escrow.flight.find? (fun y => y.port == p && y.tag == f.tag) = some x) :
    s.switchResponse p f = (s.taken f).completeFlight x f.status (if f.status = stOk then f.data else []) := by
  have hfound : (s.taken f).sw.escrow.flight.find? (fun y => y.port == p && y.tag == f.tag) = some x := by rwa [State.taken_escrow]
  unfold State.taken at hfound
  unfold State.switchResponse
  dsimp only
  rw [hfound]
  rfl

/-- One that no request waits for is late: it is counted. -/
theorem State.switchResponse_late {s : State} {p : Nat} {f : Frame} (h : s.sw.escrow.flight.find? (fun y => y.port == p && y.tag == f.tag) = none) :
    s.switchResponse p f = (s.taken f).count 0 cLateResponse := by
  have hnone : (s.taken f).sw.escrow.flight.find? (fun y => y.port == p && y.tag == f.tag) = none := by rwa [State.taken_escrow]
  unfold State.taken at hnone
  unfold State.switchResponse
  dsimp only
  rw [hnone]
  rfl

/-- A late response is dropped at the AKG-8. -/
theorem State.epResponse_late {s : State} {p : Nat} {f : Frame} (h : s.ep.flightAt p f.tag = none) : s.epResponse p f = s := by
  unfold State.epResponse
  rw [h]

/-- The answer to a store's CLAIM or READ_OWN. -/
theorem State.epResponse_grant {s : State} {p : Nat} {f : Frame} {x : EpFlight} {order i : Nat} (h : s.ep.flightAt p f.tag = some x)
    (hkind : x.kind = .grant order i) : s.epResponse p f = ((s.fillFrom x f).dropEpFlight p f.tag).granted x order i f.status := by
  unfold State.epResponse
  rw [h]
  dsimp only
  rw [hkind]

/-- The answer to a piece of a request. -/
theorem State.epResponse_piece {s : State} {p : Nat} {f : Frame} {x : EpFlight} {order i : Nat} {q : EpReq} {y : Piece} (h : s.ep.flightAt p f.tag = some x)
    (hkind : x.kind = .req order i) (hpiece : ((s.fillFrom x f).dropEpFlight p f.tag).ep.piece order i = some (q, y)) :
    s.epResponse p f = ((s.fillFrom x f).dropEpFlight p f.tag).endPiece order i f.status
      (if f.status ≠ stOk then [] else if x.f.typ = ftAtomic then padTo f.length f.data
        else if x.f.length = f.length ∧ isMemReq x.f.typ then slice (padTo f.length f.data) (y.off - x.f.offset) y.len else []) := by
  unfold State.epResponse
  rw [h]
  dsimp only
  rw [hkind]
  dsimp only
  rw [hpiece]

/-! ### Timeouts (03 R80, R81; 02 R44; 04 R106) -/

theorem State.switchTimeout_flight {s : State} {p tag : Nat} {x : Flight} (h : s.sw.escrow.flight.find? (fun y => y.port == p && y.tag == tag) = some x) :
    s.switchTimeout p (.flight tag)
      = ((s.withdrawFlight x).onEscrow fun e => { e with quarantine := (p * 4096 + tag) :: e.quarantine }).completeFlight x stTimeout [] := by
  unfold State.switchTimeout
  dsimp only
  rw [h]

theorem State.switchTimeout_held {s : State} {order : Nat} {x : Flight} (h : s.sw.escrow.held.find? (fun y => y.order == order) = some x) (p : Nat) :
    s.switchTimeout p (.held order) = (s.endHeld x stTimeout).flightsGo := by
  unfold State.switchTimeout
  dsimp only
  rw [h]

/-- A running task that waits for a translation ends with TIMEOUT. -/
theorem State.switchTimeout_miss {s : State} {n slot t : Nat} {x : Task} (hn : n < 256) (htask : (s.sw.getEngine n).task = some (slot, t))
    (hx : s.sw.getTask slot t = some x) (hwait : x.xwait.isSome = true) (hrun : x.state = .running) (hresult : x.result = none) (p : Nat) :
    s.switchTimeout p (.miss n) = s.endTask slot t stTimeout := by
  unfold State.switchTimeout State.missEnds
  dsimp only
  rw [if_pos hn, htask]
  dsimp only
  rw [hx]
  simp [hwait, hrun, hresult]

/-- A request of the AKG-8 that no check has let past its core stage. -/
theorem State.epTimeout_held {s : State} {order : Nat} {q : EpReq} (h : s.ep.reqs.find? (fun q => q.order == order) = some q) (hq : q.checked = false)
    (p : Nat) : s.epTimeout p (.held order) = s.endReq q stTimeout [] := by
  unfold State.epTimeout State.epHeldTimeout
  dsimp only
  rw [h]
  dsimp only
  rw [hq]
  rfl

theorem State.epTimeout_flight {s : State} {p tag : Nat} {x : EpFlight} (h : s.ep.flightAt p tag = some x) :
    s.epTimeout p (.flight tag) = ((if x.sent then s.dropEpFlight p tag else s.withdraw x).onEp fun e =>
      { e with quarantine := (p * 4096 + tag) :: e.quarantine }).epAbandon x stTimeout := by
  unfold State.epTimeout State.epFlightTimeout
  dsimp only
  rw [h]

/-- Settles O29: each row is the equation of its operation. -/
theorem responsesComplete : Obligations.ResponsesComplete := by
  unfold Obligations.ResponsesComplete
  intro s p tag f row
  have hrow : row = responseRow p f := rfl
  rw [hrow]
  have hep (r : Timed) (hoff : s.ep.off = false) : exec (.completionTimeout .ep p r) s = .next (s.epTimeout p r).pump :=
    congrArg Host.Outcome.next (State.epEv_on hoff _)
  refine ⟨fun ht x hx => ?_, fun ht htakes => ?_, fun x hx => congrArg Host.Outcome.next (State.switchTimeout_flight hx),
    fun order x hx => congrArg Host.Outcome.next (State.switchTimeout_held hx p),
    fun n slot t x hn htask hx hwait hrun hresult => congrArg Host.Outcome.next (State.switchTimeout_miss hn htask hx hwait hrun hresult p),
    fun order q hoff hq hchecked => ?_, fun x hoff hx => ?_, rfl, fun hoff => congrArg Host.Outcome.next (State.epEv_on hoff _)⟩
  · rw [exec_responseRow ht]
    cases x with
    | none => exact congrArg Host.Outcome.next (State.switchResponse_late hx)
    | some x => exact congrArg Host.Outcome.next (State.switchResponse_answers hx)
  · rw [exec_responseRow_ep ht htakes]
    refine ⟨fun hx => ?_, fun x order i hx => ?_⟩
    · exact congrArg (fun v : State => Host.Outcome.next v.pump) (State.epResponse_late (s := s.credited p f) hx)
    intro u
    refine ⟨fun hkind => ?_, fun q y hkind hpiece => ?_⟩
    · exact congrArg (fun v : State => Host.Outcome.next v.pump) (State.epResponse_grant (s := s.credited p f) hx hkind)
    · exact congrArg (fun v : State => Host.Outcome.next v.pump) (State.epResponse_piece (s := s.credited p f) hx hkind hpiece)
  · rw [hep _ hoff]
    exact congrArg (fun v : State => Host.Outcome.next v.pump) (State.epTimeout_held hq hchecked p)
  · rw [hep _ hoff]
    exact congrArg (fun v : State => Host.Outcome.next v.pump) (State.epTimeout_flight hx)

end Sys2Proof.Machine

/-!
PROOFS of the family 04_memory_model: the line operations and the busy limit of the Clearing units, and accesses of the fabric mailboxes (O28).
-/

namespace Sys2Proof.Tab

/-- Bytes put one after another from address o: those addresses hold them, and every other holds what it held. -/
theorem get_foldl_put_zipIdx {α : Type} (l : List α) (o k a : Nat) (d : α) (t : Tab α) :
    ((l.zipIdx k).foldl (fun t b => t.put (o + b.2) b.1) t).get a d
      = if o + k ≤ a ∧ a < o + k + l.length then l[a - (o + k)]?.getD d else t.get a d := by
  induction l generalizing k t with
  | nil => rw [if_neg (by simp)]; rfl
  | cons b l ih =>
    rw [List.zipIdx_cons, List.foldl_cons, ih, List.length_cons]
    by_cases hfirst : a = o + k
    · subst hfirst
      simp
    · rw [get_put_ne t (o + k) a b d hfirst]
      by_cases hin : o + k ≤ a ∧ a < o + k + (l.length + 1)
      · rw [if_pos hin, if_pos (by omega), show a - (o + k) = a - (o + (k + 1)) + 1 by omega, List.getElem?_cons_succ]
      · rw [if_neg hin, if_neg (by omega)]

end Sys2Proof.Tab

namespace Sys2Proof.Machine

/-! ### Clearing units: line operations and the busy limit (04 R108, R109; 03 R75) -/

/-- A unit where no request may begin. -/
theorem State.lineOperation_idle {s : State} {u : Nat} (h : s.sw.nextWaiting u = none) :
    s.lineOperation u = (s.evictWaiting u).onUnit u fun t => { t with step := t.step + 1, begun := [] } := by
  unfold State.lineOperation
  rw [h]

/-- A request that contends with none and merges with none. -/
theorem State.lineOperation_begins {s : State} {u : Nat} {a : Waiting} (h : s.sw.nextWaiting u = some (a, false)) (hmerge : s.sw.mergeRun u a = []) :
    s.lineOperation u = (((s.unqueue u a).serve a.pos a.f).evictWaiting u).onUnit u fun t => { t with step := t.step + 1, begun := [] } := by
  unfold State.lineOperation
  rw [h]
  dsimp only
  rw [hmerge]
  rfl

theorem State.homeBusyTimeout_waiting {s : State} {u idx : Nat} {x : Waiting} (h : (s.sw.unit u).retry[idx]? = some x) :
    s.homeBusyTimeout u idx = (s.unqueue u x).homeRespond x.f stBusyTimeout [] 0 := by
  unfold State.homeBusyTimeout
  rw [h]

/-! ### Fabric mailboxes (09 R229 to R231) -/

theorem padTo_getElem? {l : List Byte} {n i : Nat} (h : i < n) : (padTo n l)[i]? = some (l[i]?.getD 0) := by
  simp only [padTo, slice, List.drop_zero, List.length_take]
  by_cases hl : i < l.length
  · rw [List.getElem?_append_left (by simp; omega), List.getElem?_take_of_lt h, List.getElem?_eq_getElem hl, Option.getD_some]
  · rw [List.getElem?_append_right (by simp; omega), List.getElem?_replicate_of_lt (by simp; omega), List.getElem?_eq_none (by omega), Option.getD_none]

theorem State.putMbox_sys (s : State) (m : Nat) (x : FabMbox) : (s.putMbox m x).sw.sys = s.sw.sys := rfl

/-- The image of a mailbox after a write has entered it. -/
def FabMbox.entered (x : FabMbox) (f : Frame) : Tab Byte :=
  (padTo f.length f.data).zipIdx.foldl (fun t b => t.put ((mailboxOf f.offset).2 + b.2) b.1) x.image

theorem FabMbox.entered_get (x : FabMbox) (f : Frame) (a : Nat) :
    let o := (mailboxOf f.offset).2
    (x.entered f).get a 0 = if o ≤ a ∧ a < o + f.length then (f.data[a - o]?).getD 0 else x.image.get a 0 := by
  intro o
  have hbytes := Tab.get_foldl_put_zipIdx (padTo f.length f.data) o 0 a 0 x.image
  rw [Nat.add_zero, show (padTo f.length f.data).length = f.length from slice_length _ _ _] at hbytes
  refine hbytes.trans (if_ctx_congr Iff.rfl (fun hin => ?_) fun _ => rfl)
  rw [padTo_getElem? (by omega), Option.getD_some]

/-- What Escrow goes by when it takes an access stands while frames are sent and taken. -/
theorem SentFrame.mailboxes {s t : State} (h : SentFrame s t) :
    t.sw.sys = s.sw.sys ∧ t.sw.clock = s.sw.clock ∧ t.sw.getMbox = s.sw.getMbox ∧ t.sw.mailboxRefuses = s.sw.mailboxRefuses := by
  obtain ⟨hsys, hclock, -, -, -, -, hescrow, -⟩ := h.fields
  have hmbox : t.sw.getMbox = s.sw.getMbox := by
    funext m
    rw [Switch.getMbox, hescrow, Switch.getMbox]
  refine ⟨hsys, hclock, hmbox, ?_⟩
  funext f
  rw [Switch.mailboxRefuses, hmbox, Switch.mailboxRefuses]

section
variable {s : State} {f : Frame} (haged : aged s.sw.sys.cfg s.sw.clock.now f = false)
include haged

/-- A write in time to a mailbox that Escrow does not serve. -/
theorem State.mailboxWrite_refused (hrefuses : s.sw.mailboxRefuses f = true) (pos : Nat) :
    s.mailboxWrite pos f = (s.takeInbox outEscrow f).swSend outEscrow (f.response s.sw.sys.homeId stBadAddress []) := by
  obtain ⟨hsys, hclock, -, hserved⟩ := (State.takeInbox_sent s outEscrow f).mailboxes
  unfold State.mailboxWrite State.escrowRespond
  simp only [hsys, hclock, hserved, hrefuses, State.now, haged, Bool.true_or, if_true, Bool.false_eq_true, if_false]

/-- A read in time of a mailbox that Escrow does not serve. -/
theorem State.mailboxRead_refused (hrefuses : s.sw.mailboxRefuses f = true) :
    s.mailboxRead f = (s.takeInbox outEscrow f).swSend outEscrow (f.response s.sw.sys.homeId stBadAddress []) := by
  obtain ⟨hsys, hclock, -, hserved⟩ := (State.takeInbox_sent s outEscrow f).mailboxes
  unfold State.mailboxRead State.escrowRespond
  simp only [hsys, hclock, hserved, hrefuses, State.now, haged, Bool.true_or, if_true, Bool.false_eq_true, if_false]

/-- A write to a writable area that does not reach the GO byte. -/
theorem State.mailboxWrite_enters (hserves : s.sw.mailboxRefuses f = false) (ht : f.typ = ftWrite) (hgo : 0 < (mailboxOf f.offset).2)
    (harea : mailboxWritable (mailboxOf f.offset).2 f.length = true) (pos : Nat) :
    let m := (mailboxOf f.offset).1
    let x := s.sw.getMbox m
    s.mailboxWrite pos f = ((s.takeInbox outEscrow f).putMbox m { x with filling := true, image := x.entered f }).swSend outEscrow
      (f.response s.sw.sys.homeId stOk []) := by
  obtain ⟨hsys, hclock, hmbox, hserved⟩ := (State.takeInbox_sent s outEscrow f).mailboxes
  unfold State.mailboxWrite State.escrowRespond
  simp only [hsys, hclock, hmbox, hserved, hserves, ht, harea, State.now, haged, hgo.ne', bne_self_eq_false, Bool.not_true, Bool.or_self, Bool.false_eq_true,
    if_false, false_and, State.putMbox_sys, FabMbox.entered]

/-- A read within the STATUS record. -/
theorem State.mailboxRead_status (hserves : s.sw.mailboxRefuses f = false) (hlo : 0x40 ≤ (mailboxOf f.offset).2)
    (hhi : (mailboxOf f.offset).2 + f.length ≤ 0x80) :
    s.mailboxRead f = (s.takeInbox outEscrow f).swSend outEscrow (f.response s.sw.sys.homeId stOk
      (slice (s.sw.getMbox (mailboxOf f.offset).1).status ((mailboxOf f.offset).2 - 0x40) f.length)) := by
  obtain ⟨hsys, hclock, hmbox, hserved⟩ := (State.takeInbox_sent s outEscrow f).mailboxes
  unfold State.mailboxRead State.escrowRespond
  simp only [hsys, hclock, hmbox, hserved, hserves, State.now, haged, hlo, hhi, and_self, decide_true, Bool.not_true, Bool.or_self,
    Bool.false_eq_true, if_false]

end

theorem mailboxWritable_iff {o n : Nat} : mailboxWritable o n = true ↔
    o + n ≤ 0x40 ∨ 0x400 ≤ o ∧ o + n ≤ 0xC00 ∨ 0x1000 ≤ o ∧ o + n ≤ 0x5000 := by
  simp [mailboxWritable, or_assoc]

/-- Settles O28: each row is the equation of its operation, and a write enters its bytes into the image one after another. -/
theorem unitAndMailboxEventsComplete : Obligations.UnitAndMailboxEventsComplete := by
  unfold Obligations.UnitAndMailboxEventsComplete
  refine fun s => ⟨fun unit hunit => ?_, fun pos f haged => ?_⟩
  · have hop : exec (.lineOperation unit) s = .next (s.lineOperation unit) :=
      congrArg (fun v => Host.Outcome.next (s.lineOperation v)) (Nat.mod_eq_of_lt hunit)
    have hlimit (idx : Nat) : exec (.homeBusyTimeout unit idx) s = .next (s.homeBusyTimeout unit idx) :=
      congrArg (fun v => Host.Outcome.next (s.homeBusyTimeout v idx)) (Nat.mod_eq_of_lt hunit)
    rw [hop]
    exact ⟨fun h => congrArg Host.Outcome.next (State.lineOperation_idle h),
      fun a h hmerge => congrArg Host.Outcome.next (State.lineOperation_begins h hmerge),
      fun idx x h => (hlimit idx).trans (congrArg Host.Outcome.next (State.homeBusyTimeout_waiting h))⟩
  intro u m o x answer
  refine ⟨fun hrefuses => ?_, fun hserves => ⟨fun ht hgo harea => ?_, fun hlo hhi => ?_⟩⟩
  · exact ⟨congrArg Host.Outcome.next (State.mailboxWrite_refused haged hrefuses pos),
      congrArg Host.Outcome.next (State.mailboxRead_refused haged hrefuses)⟩
  · exact ⟨x.entered f, congrArg Host.Outcome.next (State.mailboxWrite_enters haged hserves ht hgo (mailboxWritable_iff.mpr harea) pos), x.entered_get f⟩
  · exact congrArg Host.Outcome.next (State.mailboxRead_status haged hserves hlo hhi)

end Sys2Proof.Machine

/-!
PROOFS of the family 05_regions_and_coherence: what reset leaves (O53), relays of the switch (O40), the coherence frames of both devices (O31, O30) and
the commands for regions (O10).
-/

namespace Sys2Proof.Machine

/-! ### Single fields of the frames -/

theorem SentFrame.sys {s t : State} (h : SentFrame s t) : t.sw.sys = s.sw.sys := by
  obtain ⟨hsys, -⟩ := h.fields
  exact hsys

theorem SentFrame.mem {s t : State} (h : SentFrame s t) : t.sw.mem = s.sw.mem := by
  obtain ⟨-, -, -, hmem, -⟩ := h.fields
  exact hmem

theorem SentFrame.teller {s t : State} (h : SentFrame s t) : t.sw.teller = s.sw.teller := by
  obtain ⟨-, -, -, -, -, hteller, -⟩ := h.fields
  exact hteller

theorem SentFrame.mgmt {s t : State} (h : SentFrame s t) : t.sw.mgmt = s.sw.mgmt := by
  obtain ⟨-, -, -, -, -, -, -, hmgmt, -⟩ := h.fields
  exact hmgmt

theorem AnswerFrame.mem {s t : State} (h : AnswerFrame s t) : t.sw.mem = s.sw.mem := by
  rw [h.1]

theorem AnswerFrame.sameMemory {s t : State} (h : AnswerFrame s t) : SameMemory s t :=
  .of_homes (congrArg Mem.home h.mem) (by rw [h.1])

/-! ### Reset (05 R111, 15 R400, 16 R414, 21 R502) -/

/-- Settles O53: no table of the reset state lists an entry, so that each reads as its default. -/
theorem resetState : Obligations.ResetState := by
  unfold Obligations.ResetState
  rintro s rfl
  exact ⟨rfl, rfl, State.reset_wf, fun _ => rfl, fun _ _ => ⟨rfl, rfl, rfl, rfl⟩, fun _ => rfl, rfl, fun _ => rfl, rfl⟩

/-! ### Relays of the switch (05 R116, 23 R550) -/

section
variable {s : State}

/-- CONFIRM of a READMIT goes back by the port on which the copy came. -/
def State.confirmReadmit (s : State) (p : Nat) (f : Frame) : State :=
  s.swSendPort outEscrow p (mgmtFrame f.src s.sw.sys.homeId (s.sw.incFor (s.sw.peer p)) mConfirm 0 (leBytes 2 f.tag))

/-- A further copy of a READMIT is confirmed, and no more. -/
theorem State.readmitSwitch_again {f : Frame} (hsrc : f.src ≠ s.sw.sys.homeId)
    (hseen : (mReadmit, leBytes 2 (field f.data 0 2) ++ leBytes 1 (field f.data 2 1)) ∈ s.sw.mgmt.seen) (p : Nat) :
    s.readmitSwitch p f = s.confirmReadmit p f := by
  simp [State.readmitSwitch, hsrc, State.seenBy, hseen, State.confirmReadmit]

/-- The first copy also takes effect and is sent on. -/
theorem State.readmitSwitch_first {f : Frame} (hsrc : f.src ≠ s.sw.sys.homeId)
    (hseen : (mReadmit, leBytes 2 (field f.data 0 2) ++ leBytes 1 (field f.data 2 1)) ∉ s.sw.mgmt.seen) (p : Nat) :
    s.readmitSwitch p f = ((s.readmitHere (field f.data 0 2) (field f.data 2 1)).sendReadmit .sw f (some p)).confirmReadmit p f := by
  simp [State.readmitSwitch, hsrc, State.seenBy, hseen, State.confirmReadmit]

section
variable {f : Frame} {id : Nat} {r : Relay}
  (hr : s.sw.mgmt.relay.find? (fun r => r.2.f.tag == field f.data 0 2 && (r.2.port == 64 || r.2.f.dest == f.src)) = some (id, r))
include hr

/-- The relay of no command ends when it is confirmed. -/
theorem State.confirmed_alone (hcmd : r.cmd = none) : s.confirmed f = s.dropRelay id := by
  simp [State.confirmed, hr, hcmd]

/-- The command of a relay goes on when that is confirmed. -/
theorem State.confirmed_command {fn mb : Nat} {a : Active} (hcmd : r.cmd = some (fn, mb)) (ha : s.sw.activeOf fn mb = some a) (hport : r.port ≠ 64) :
    s.confirmed f = (s.dropRelay id).relayed a (f.data.drop 2) := by
  simp [State.confirmed, hr, hcmd, ha, hport]

end

section
variable {id : Nat} {r : Relay} (hr : s.sw.mgmt.relay.find id = some r)
include hr

theorem State.resendRelay_again (hsends : r.sends ≤ 8) (hport : r.port ≠ 64) : s.resendRelay id
    = (s.onSw fun w => { w with mgmt := { w.mgmt with relay := w.mgmt.relay.put id { r with sends := r.sends + 1 } } }).swSendPort outEscrow r.port r.f := by
  simp [State.resendRelay, hr, hsends, hport]

theorem State.resendRelay_givenUp (hsends : 8 < r.sends) (hcmd : r.cmd = none) : s.resendRelay id = s.dropRelay id := by
  simp [State.resendRelay, hr, Nat.not_le.mpr hsends, hcmd]

end

end

/-- Settles O40: each row is the equation of its operation. -/
theorem relayRowsComplete : Obligations.RelayRowsComplete := by
  unfold Obligations.RelayRowsComplete
  intro s p f u
  have hsys : u.sw.sys = s.sw.sys := (State.taken_sent s f).sys
  have hmgmt : u.sw.mgmt = s.sw.mgmt := (State.taken_sent s f).mgmt
  refine ⟨fun hsrc => ?_, fun id r hr => ⟨fun hcmd => ?_, fun fn mb a hcmd ha hport => ?_⟩, fun id r hr => ⟨fun hsends hport => ?_, fun hsends hcmd => ?_⟩⟩
  · rw [← hsys] at hsrc
    rw [← hmgmt]
    exact ⟨fun hseen => congrArg Host.Outcome.next (State.readmitSwitch_again hsrc hseen p),
      fun hseen => congrArg Host.Outcome.next (State.readmitSwitch_first hsrc hseen p)⟩
  · rw [← hmgmt] at hr
    exact congrArg Host.Outcome.next (State.confirmed_alone hr hcmd)
  · rw [← hmgmt] at hr
    have ha : u.sw.activeOf fn mb = some a := by rw [← ha, Switch.activeOf, (State.taken_sent s f).teller, Switch.activeOf]
    exact congrArg Host.Outcome.next (State.confirmed_command hr hcmd ha hport)
  · exact congrArg Host.Outcome.next (State.resendRelay_again hr hsends hport)
  · exact congrArg Host.Outcome.next (State.resendRelay_givenUp hr hsends hcmd)

/-! ### Snoops and fills at the AKG-8 (05 R126 to R132, R136, R137) -/

/-- FWD_DATA to the requester that a SNOOP names (05 R129). -/
def State.forwarded (s : State) (f : Frame) (fga cache : Nat) (data : List Byte) : Frame :=
  ({ s.ep.cohFrame ftFwdData (f.extBits 9 0) fga f.partition f.keySlot (f.extBits 21 10) with agent := f.extBits 27 22 }.withData data).withCache cache

/-- FWD_DATA to the home. -/
def State.fetched (s : State) (f : Frame) (fga : Nat) (data : List Byte) : Frame :=
  (s.ep.cohFrame ftFwdData f.src fga f.partition f.keySlot f.tag).withData data

/-- COH_ACK for a deposit's fill. -/
def State.fillAck (s : State) (p : Nat) (f : Frame) (fga decline : Nat) : State :=
  s.epSend p { s.ep.cohFrame ftCohAck f.src fga f.partition f.keySlot f.tag with opx := opxAt decline 36 }

theorem State.dropWay_gen (s : State) (fga : Nat) : (s.dropWay fga false).ep.gen = s.ep.gen := by
  unfold State.dropWay
  split <;> rfl

theorem State.freeForFill_gen (s : State) (fga : Nat) : (s.freeForFill fga).ep.gen = s.ep.gen := by
  unfold State.freeForFill
  dsimp only
  split
  · rfl
  · split
    · exact State.dropWay_gen s _
    · rfl

section
variable {s : State} {p : Nat} {f : Frame}

section
variable {fga : Nat} (hfga : f.src * 2 ^ 42 + lineOf f.offset = fga)
include hfga

/-- A SNOOP or line BACK_INV for a line under the hold of a fill waits. -/
theorem State.snoopArrives_held (h : ((s.ep.anyWay fga).any fun w => w.hold) = true) :
    s.snoopArrives p f = s.onEp fun e => { e with snoops := e.snoops ++ [{ port := p, fga := fga, f := f }] } := by
  rw [State.snoopArrives, hfga]
  exact if_pos h

/-- One for a line that is not held COHERENT is answered with what the write-back record says. -/
theorem State.snoopArrives_absent (h : ((s.ep.anyWay fga).any fun w => w.hold || w.state.coherent) = false) :
    s.snoopArrives p f = s.snoopRsp p f fga (s.ep.gone fga) := by
  rw [State.snoopArrives, State.answerSnoop, hfga]
  cases hw : s.ep.anyWay fga with
  | none => rfl
  | some w =>
    obtain ⟨hhold, hcoh⟩ : w.hold = false ∧ w.state.coherent = false := by simpa [hw] using h
    simp [Option.filter, hhold, hcoh]

section
variable {w : Way} (hw : s.ep.anyWay fga = some w) (hhold : w.hold = false) (hcoh : w.state.coherent = true)
include hw hhold hcoh

/-- A line BACK_INV drops a line that is held COHERENT and under no hold: a dirty one by a WRITEBACK. -/
theorem State.snoopArrives_backInv (ht : f.typ = ftBackInv) : s.snoopArrives p f =
    if w.state.dirty then s.dropWay fga true else (s.dropWay fga false).snoopRsp p f fga 1 := by
  rw [State.snoopArrives, State.answerSnoop, hfga, hw]
  simp [Option.filter, hhold, hcoh, ht]

section
variable (ht : f.typ = ftSnoop)
include ht

/-- INVALIDATE, and any KIND for a line held S, drop the line. -/
theorem State.snoopArrives_dropped (hk : f.opxBits 38 36 = 2 ∨ w.state = .s) : s.snoopArrives p f = (s.dropWay fga false).snoopRsp p f fga 1 := by
  have htype : f.typ ≠ ftBackInv := by rw [ht]; decide
  rw [State.snoopArrives, State.answerSnoop, hfga, hw]
  simp [Option.filter, hhold, hcoh, htype, hk]

section
variable (hs : w.state ≠ .s)
include hs

/-- SHARE_FWD and OWN_FWD send the line to the requester; the first keeps it, shared. -/
theorem State.snoopArrives_forwards (hk : f.opxBits 38 36 < 2) : s.snoopArrives p f =
    if f.opxBits 38 36 = 0 then
      ((s.epSend p (s.forwarded f fga 1 w.data)).onWay fga fun x => { x with state := if x.state.dirty then .o else .s }).snoopRsp
        p f fga (if w.state.dirty then 3 else 2)
    else ((s.epSend p (s.forwarded f fga (if w.state.dirty then 3 else 2) w.data)).dropWay fga false).snoopRsp p f fga 4 := by
  have htype : f.typ ≠ ftBackInv := by rw [ht]; decide
  rw [State.snoopArrives, State.answerSnoop, hfga, hw]
  obtain hk | hk : f.opxBits 38 36 = 0 ∨ f.opxBits 38 36 = 1 := by omega
  · simp [Option.filter, hhold, hcoh, htype, hk, hs, State.forwarded]
  · simp [Option.filter, hhold, hcoh, htype, hk, hs, State.forwarded]

/-- FETCH_SHARE and FETCH_INV send it to the home; the first keeps it, shared. -/
theorem State.snoopArrives_fetches (hk : 2 < f.opxBits 38 36) : s.snoopArrives p f =
    if f.opxBits 38 36 = 3 then ((s.epSend p (s.fetched f fga w.data)).onWay fga fun x => { x with state := .s }).snoopRsp p f fga 2
    else ((s.epSend p (s.fetched f fga w.data)).dropWay fga false).snoopRsp p f fga 4 := by
  have htype : f.typ ≠ ftBackInv := by rw [ht]; decide
  obtain ⟨h0, h1, h2⟩ : f.opxBits 38 36 ≠ 0 ∧ f.opxBits 38 36 ≠ 1 ∧ f.opxBits 38 36 ≠ 2 := by omega
  rw [State.snoopArrives, State.answerSnoop, hfga, hw]
  simp [Option.filter, hhold, hcoh, htype, h0, h1, h2, hs, State.fetched]

end

end

end

/-- A fill whose CACHE value installs nothing is declined. -/
theorem State.depositFill_nothing (h : fillState f.cache = none) : s.depositFill p f = s.fillAck p f fga 1 := by
  rw [State.depositFill, h, hfga, State.fillAck]

/-- One that may not be installed is declined. -/
theorem State.depositFill_declined {c : CState} (hc : fillState f.cache = some c) (h : s.ep.takesFill fga f.partition c.coherent = false) :
    s.depositFill p f = s.fillAck p f fga 1 := by
  rw [State.depositFill, hc, hfga]
  exact if_neg (by simp [h])

/-- One that may be is installed in the state of its CACHE value, discarded again where the die's own store to the line is out, and acknowledged. -/
theorem State.depositFill_installed {c : CState} (hc : fillState f.cache = some c) (h : s.ep.takesFill fga f.partition c.coherent = true) :
    s.depositFill p f =
      let v := (s.freeForFill fga).install
        { fga := fga, partition := f.partition, keySlot := f.keySlot, state := c, gen := s.ep.gen.get f.partition 0, data := padTo 128 f.data }
      (if v.ep.storeOut fga then v.discardLines fun w => w.fga == fga else v).fillAck p f fga 0 := by
  rw [State.depositFill, hc, hfga, ← State.freeForFill_gen s fga]
  exact if_pos h

end

/-- COH_ACK ends the deposit that waits for it. -/
theorem State.fillAcked_ends {h line : Nat} {x : HomeReq}
    (hx : s.ep.homeReqs.find? (fun x => x.stage == 3 && x.f.ext.toNat == h && x.f.offset / 128 == line) = some x) :
    s.fillAcked h line = s.homeEnd x stOk [] 0 := by
  simp only [State.fillAcked, hx]

/-- A late COH_ACK first fences the end-point that owes it. -/
theorem State.epFillLate_fences {h line : Nat}
    (hx : (s.ep.homeReqs.any fun x => x.stage == 3 && x.f.ext.toNat == h && x.f.offset / 128 == line) = true) :
    s.epFillLate h line = (s.epFencePeer h).fillAcked h line :=
  if_pos hx

/-- A late REGION_DONE fences the old owner and leaves the region LOST. -/
theorem State.epHandoverLate_lost {region h : Nat} {j : RegionJob}
    (hj : s.ep.home.jobs.find? (fun j => j.region == region && j.awaitOwner.isSome) = some j) (ho : j.awaitOwner = some h) :
    s.epHandoverLate region = (s.epFencePeer h).epRegionLost region := by
  simp only [State.epHandoverLate, hj, ho, Option.getD_some]

end

/-- A SNOOP that the AKG-8 takes. -/
theorem exec_snoop {s : State} {p : Nat} {f : Frame} (h : EpTakes p f s) (ht : f.typ = ftSnoop) :
    exec (.snoop p f) s = .next ((s.credited p f).snoopArrives p f).pump := by
  refine congrArg Host.Outcome.next ((State.epIn_takes h _).trans ?_)
  rw [Frame.typed ht]

/-- A line BACK_INV that the AKG-8 takes. -/
theorem exec_backInv_line {s : State} {p : Nat} {f : Frame} (h : EpTakes p f s) (ht : f.typ = ftBackInv) (hline : f.opxBits 36 36 = 0) :
    exec (.backInv p f) s = .next ((s.credited p f).snoopArrives p f).pump := by
  refine congrArg Host.Outcome.next ((State.epIn_takes h _).trans ?_)
  rw [Frame.typed ht, if_neg (by omega)]

/-- Settles O31: each row is the equation of its operation. -/
theorem endPointCoherenceFramesComplete : Obligations.EndPointCoherenceFramesComplete := by
  unfold Obligations.EndPointCoherenceFramesComplete
  intro s p f u fga
  refine ⟨fun htakes => ⟨fun h => ?_, fun h => ?_, fun w hw hhold hcoh => ?_, fun hregion => ?_, ?_, fun x hx => ?_, fun hdone => ?_⟩,
    fun hon => ⟨fun a => ?_, fun line h hx => ?_, fun region j h hj ho => ?_⟩⟩
  · have hheld := congrArg State.pump (State.snoopArrives_held (s := u) (p := p) rfl h)
    exact ⟨fun ht => (exec_snoop htakes ht).trans (congrArg _ hheld), fun ht hline => (exec_backInv_line htakes ht hline).trans (congrArg _ hheld)⟩
  · have hgone := congrArg State.pump (State.snoopArrives_absent (s := u) (p := p) rfl h)
    exact ⟨fun ht => (exec_snoop htakes ht).trans (congrArg _ hgone), fun ht hline => (exec_backInv_line htakes ht hline).trans (congrArg _ hgone)⟩
  · refine ⟨fun ht => ?_, fun ht hline => ?_⟩
    · rw [exec_snoop htakes ht]
      refine ⟨fun hk => ?_, fun hs => ⟨fun hk => ?_, fun hk => ?_, fun hk => ?_, fun hk => ?_⟩⟩
      · exact congrArg (Host.Outcome.next ·.pump) (State.snoopArrives_dropped (s := u) rfl hw hhold hcoh ht hk)
      · rw [State.snoopArrives_forwards (s := u) rfl hw hhold hcoh ht hs (by omega), if_pos hk]
        rfl
      · rw [State.snoopArrives_forwards (s := u) rfl hw hhold hcoh ht hs (by omega), if_neg (by omega)]
        rfl
      · rw [State.snoopArrives_fetches (s := u) rfl hw hhold hcoh ht hs (by omega), if_pos hk]
        rfl
      · rw [State.snoopArrives_fetches (s := u) rfl hw hhold hcoh ht hs (by omega), if_neg (by omega)]
        rfl
    · exact (exec_backInv_line htakes ht hline).trans (congrArg (Host.Outcome.next ·.pump) (State.snoopArrives_backInv (s := u) rfl hw hhold hcoh ht))
  · exact congrArg Host.Outcome.next ((State.epIn_takes htakes _).trans (by rw [if_pos hregion]))
  · have hrow : exec (.depositFill p f) s = .next (u.depositFill p f).pump := congrArg Host.Outcome.next (State.epIn_takes htakes _)
    rw [hrow]
    exact ⟨fun h => congrArg (Host.Outcome.next ·.pump) (State.depositFill_nothing (s := u) rfl h),
      fun c hc => ⟨fun h => congrArg (Host.Outcome.next ·.pump) (State.depositFill_declined (s := u) rfl hc h),
        fun h => congrArg (Host.Outcome.next ·.pump) (State.depositFill_installed (s := u) rfl hc h)⟩⟩
  · exact congrArg Host.Outcome.next ((State.epIn_takes htakes _).trans (congrArg State.pump (State.fillAcked_ends (s := u) hx)))
  · exact congrArg Host.Outcome.next ((State.epIn_takes htakes _).trans (by rw [if_pos hdone]; rfl))
  · exact congrArg Host.Outcome.next (State.epEv_on hon _)
  · exact congrArg Host.Outcome.next ((State.epEv_on hon _).trans (congrArg State.pump (State.epFillLate_fences hx)))
  · exact congrArg Host.Outcome.next ((State.epEv_on hon _).trans (congrArg State.pump (State.epHandoverLate_lost hj ho)))

/-! ### Answers at a switch home (05 R123 to R137) -/

/-! #### Lines through the pool cache leave the Clearing units -/

@[simp] theorem Mem.writeBack_unit (m : Mem) (c : CacheLine) : (m.writeBack c).unit = m.unit := by
  unfold Mem.writeBack
  split <;> rfl

@[simp] theorem Mem.drop_unit (m : Mem) (l : Nat) : (m.drop l).unit = m.unit := by
  unfold Mem.drop
  split
  · rfl
  · exact Mem.writeBack_unit _ _

@[simp] theorem Mem.insert_unit (m : Mem) (n : Nat) (c : CacheLine) : (m.insert n c).unit = m.unit := by
  unfold Mem.insert
  dsimp only
  split
  · rfl
  · split
    · rfl
    · exact Mem.writeBack_unit _ _

theorem State.writeLine_busy (s : State) (l slot : Nat) (data : List Byte) (k : Nat) : (s.writeLine l slot data).sw.busy k = s.sw.busy k := by
  have hunit : (s.writeLine l slot data).sw.mem.unit = s.sw.mem.unit := by
    unfold State.writeLine
    dsimp only
    split <;> simp
  rw [Switch.busy, Switch.unit, hunit, Switch.busy, Switch.unit]

section
variable {s : State} {f : Frame} {l : Nat} {b : Busy}

/-- The answer to an INVALIDATE of a request that will begin again: the holder leaves the list awaited, and its copy the entry. -/
theorem State.noteAnswer_invalidated {h : Nat} (hb : s.sw.busy l = some b) (hstage : b.stage = .again)
    (ha : b.await.find? (fun a => a.1 == h) = some (h, kInvalidate)) (result : Nat) :
    s.noteAnswer l h result = (s.dropHolder l h).putBusy { b with await := b.await.filter fun a => a.1 != h } := by
  simp [State.noteAnswer, hb, ha, hstage, kInvalidate, kShareFwd, kFetchShare]

theorem State.storeBack_open (h : (s.sw.chan (channelOf (l * 128))).fenced = false) (slot : Nat) (data : List Byte) :
    s.storeBack l slot data = s.writeLine l (s.sw.slotAt (l * 128) slot) data := by
  simp [State.storeBack, h]

/-- The data of a holder that is awaited is stored. -/
theorem State.homeFwdData_awaited (hb : s.sw.busy (f.offset / 128) = some b) (ha : (b.await.any fun a => a.1 == f.src) = true)
    (hopen : (s.sw.chan (channelOf (f.offset / 128 * 128))).fenced = false) :
    s.homeFwdData f = s.writeLine (f.offset / 128)
      (s.sw.slotAt (f.offset / 128 * 128) (((s.sw.entry (f.offset / 128)).map (·.keySlot)).getD f.keySlot)) f.data := by
  rw [← State.storeBack_open hopen]
  simp [State.homeFwdData, hb, ha]

/-- A COH_ACK of the requester that was granted the line ends the Busy state, and where it takes the line the entry is the one that the grant named. -/
theorem State.homeCohAck_granted (hb : s.sw.busy (f.offset / 128) = some b) (hstage : b.stage = .ack) (hsrc : b.f.src = f.src) :
    s.homeCohAck f = if f.opxBits 36 36 = 1 then s.endBusy (f.offset / 128) else match b.next with
      | some e => (s.endBusy (f.offset / 128)).putEntry e
      | none => s.endBusy (f.offset / 128) := by
  cases hn : b.next with
  | none => simp only [State.homeCohAck, hb, hstage, hsrc, hn, ne_eq, not_true_eq_false, if_false]
  | some e => simp only [State.homeCohAck, hb, hstage, hsrc, hn, ne_eq, not_true_eq_false, if_false]

/-- A fill that is declined answers the depositor. -/
theorem State.homeCohAck_declinedFill (hb : s.sw.busy (f.offset / 128) = some b) (hstage : b.stage = .fill f.src) (hdecline : f.opxBits 36 36 = 1) :
    s.homeCohAck f = (s.endBusy (f.offset / 128)).homeAfterMirror b.f b.pos := by
  simp [State.homeCohAck, hb, hstage, hdecline]

/-- An end-point whose answer is late has a verdict, unless the Teller restarts. -/
theorem State.coherenceLate_verdict {h : Nat} (hb : s.sw.busy l = some b) (ha : (b.await.any fun a => a.1 == h) = true) (ht : s.sw.teller.state ≠ 1) :
    ((s.coherenceLate l h).sw.epRec h).verdict = true := by
  have hlate : s.coherenceLate l h = (s.giveVerdict h vCoherence).regionGone := by simp [State.coherenceLate, hb, ha]
  rw [hlate]
  exact (State.regionGone_onward _).verdict h (State.giveVerdict_stands ht h _)

/-- A WRITEBACK of a line without an entry is discarded. -/
theorem State.homeWriteback_unlisted (he : s.sw.entry (f.offset / 128) = none) : s.homeWriteback f = s.count 0 cWritebackDiscarded := by
  simp [State.homeWriteback, he]

/-- One of the owner of a line that is not Busy is stored, and the owner leaves the entry. -/
theorem State.homeWriteback_owner {e : DirEntry} (he : s.sw.entry (f.offset / 128) = some e) (hs : e.state ≠ .s) (howner : e.owner = f.src)
    (hb : s.sw.busy (f.offset / 128) = none) (hopen : (s.sw.chan (channelOf (f.offset / 128 * 128))).fenced = false) :
    s.homeWriteback f = (s.writeLine (f.offset / 128) (s.sw.slotAt (f.offset / 128 * 128) e.keySlot) f.data).dropHolder (f.offset / 128) f.src := by
  simp [State.homeWriteback, he, hs, howner, State.storeBack_open hopen, State.writeLine_busy, hb]

end

/-! ### Regions that are given a new entry (05 R116 to R121) -/

/-- The entry that a finished change leaves: its own, unless the old owner was lost. -/
def RegionJob.finished (j : RegionJob) (r : Region) : Region :=
  if j.lostNow then { r with handover := false }
  else if j.handover then { r with owner := j.newOwner, handover := false }
  else { r with mode := j.mode, owner := j.newOwner, handover := false }

/-- A change of a region is finished. -/
def Home.finish (h : Home) (j : RegionJob) : Home :=
  { h with jobs := h.jobs.filter fun k => k.region != j.region, region := h.region.upd j.region {} j.finished }

/-- A change of a region still waits for its old owner, or for copies of its lines. -/
def Switch.jobWaits (w : Switch) (j : RegionJob) : Bool := j.awaitOwner.isSome || (!j.handover && j.mode != mCoherent && w.regionInUse j.region)

theorem State.each_home {α : Type} {g : State → α → State} (hg : ∀ u a, (g u a).sw.mem.home = u.sw.mem.home) (s : State) (l : List α) :
    (s.each l g).sw.mem.home = s.sw.mem.home :=
  State.each_keeps (P := fun u => u.sw.mem.home = s.sw.mem.home) rfl fun u hu a => (hg u a).trans hu

@[simp] theorem State.backInvLine_home (s : State) (l : Nat) : (s.backInvLine l).sw.mem.home = s.sw.mem.home := by
  unfold State.backInvLine
  split
  · split
    · rfl
    · exact State.each_home (fun u h => congrArg Mem.home (State.swSend_sent u _ _).mem) _ _
  · rfl

/-- Copies that are taken back leave the home until they come. -/
@[simp] theorem State.takeBackDue_home (s : State) : s.takeBackDue.sw.mem.home = s.sw.mem.home := by
  refine State.each_home (fun u e => ?_) s _
  dsimp only
  rw [State.backInvLine_home]
  split <;> rfl

/-- A check of the changes of regions finishes those that wait for nothing, and changes nothing else of the home. -/
theorem State.regionCheck_home (s : State) :
    s.regionCheck.sw.mem.home = (s.sw.mem.home.jobs.filter fun j => !s.takeBackDue.sw.jobWaits j).foldl Home.finish s.sw.mem.home := by
  unfold State.regionCheck
  extract_lets u busy ready v
  have hready : ready = s.sw.mem.home.jobs.filter fun j => !u.sw.jobWaits j := by rw [← State.takeBackDue_home s]; rfl
  have hv : v.sw.mem.home = ready.foldl Home.finish s.sw.mem.home := by
    rw [← State.takeBackDue_home s]
    exact (List.foldl_hom (fun u : State => u.sw.mem.home) fun _ _ => rfl).symm
  rw [← hready, ← hv]
  refine State.each_home (fun w j => ?_) v ready
  split
  · rfl
  · split
    · split <;> rfl
    · rfl

section
variable {l : List RegionJob} {h : Home} {i : Nat}

/-- What every change of a region in the list leaves true of its entry stays true. -/
theorem Home.finish_keeps {P : Region → Prop} (hP : ∀ j ∈ l, j.region = i → ∀ r, P r → P (j.finished r)) (h0 : P (h.region.get i {})) :
    P ((l.foldl Home.finish h).region.get i {}) := by
  refine List.foldlRecOn (motive := fun k => P (k.region.get i {})) l Home.finish h0 fun k hk j hj => ?_
  by_cases hi : j.region = i
  · subst hi
    rw [Home.finish, Tab.get_upd_self]
    exact hP j hj rfl _ hk
  · rwa [Home.finish, Tab.get_upd_ne _ _ _ _ _ (Ne.symm hi)]

end

theorem State.onRegion_get (s : State) (i : Nat) (g : Region → Region) :
    (s.onRegion i g).sw.mem.home.region.get i {} = g (s.sw.mem.home.region.get i {}) := Tab.get_upd_self _ _ _ _

theorem State.onRegion_onward (s : State) (i : Nat) (g : Region → Region) : Onward false s (s.onRegion i g) := .of_footing rfl

/-- A LOST region stays LOST when its change is finished. -/
theorem State.regionCheck_lost {s : State} {i : Nat} (h : (s.sw.mem.home.region.get i {}).lost = true) :
    (s.regionCheck.sw.mem.home.region.get i {}).lost = true := by
  rw [State.regionCheck_home]
  refine Home.finish_keeps (P := fun r => r.lost = true) (fun j _ _ r hr => ?_) h
  unfold RegionJob.finished
  split
  · exact hr
  · split <;> exact hr

section
variable {s : State} {region : Nat} {j : RegionJob}
  (hj : s.sw.mem.home.jobs.find? (fun j => j.region == region && j.awaitOwner.isSome) = some j)
include hj

/-- A late REGION_DONE: the old owner has a verdict, unless the Teller restarts. -/
theorem State.handoverLate_verdict {h : Nat} (ho : j.awaitOwner = some h) (ht : s.sw.teller.state ≠ 1) : ((s.handoverLate region).sw.epRec h).verdict = true := by
  unfold State.handoverLate
  rw [hj]
  dsimp only
  rw [ho, Option.getD_some]
  generalize hu : State.onActive _ _ _ _ = u
  have hteller : u.sw.teller.state ≠ 1 := by rw [← hu]; exact ht
  exact ((State.onRegion_onward _ _ _).trans (State.regionCheck_onward _)).verdict h (State.giveVerdict_stands hteller h _)

/-- The region is LOST. -/
theorem State.handoverLate_lost : ((s.handoverLate region).sw.mem.home.region.get region {}).lost = true := by
  unfold State.handoverLate
  rw [hj]
  dsimp only
  generalize State.giveVerdict _ _ _ = u
  exact State.regionCheck_lost (congrArg Region.lost (State.onRegion_get u region _))

end

/-- Settles O30: each row is the equation of its operation; a verdict that is given stands, and a LOST region stays LOST. -/
theorem switchCoherenceFramesComplete : Obligations.SwitchCoherenceFramesComplete := by
  unfold Obligations.SwitchCoherenceFramesComplete
  intro s p f u l
  have hmem : u.sw.mem = s.sw.mem := (State.taken_sent s f).mem
  refine ⟨fun hdone => ?_, fun b hdone hb hstage ha => ?_, fun b hb => ⟨fun ha hopen => ?_, fun hstage hsrc => ?_, fun hstage hdecline => ?_, fun h hstage ha ht => ?_⟩,
    fun he => ?_, fun e he hs howner hb hopen => ?_, fun region j h hj ho => ?_⟩
  · exact congrArg Host.Outcome.next (if_pos hdone)
  · refine congrArg Host.Outcome.next ((if_neg hdone).trans (congrArg State.regionCheck ((if_neg hdone).trans ?_)))
    exact congrArg (State.advance · l) (State.noteAnswer_invalidated hb hstage ha _)
  · exact congrArg (Host.Outcome.next ·.regionCheck) (State.homeFwdData_awaited hb ha hopen)
  · exact congrArg (Host.Outcome.next ·.regionCheck) (State.homeCohAck_granted hb hstage hsrc)
  · exact congrArg (Host.Outcome.next ·.regionCheck) (State.homeCohAck_declinedFill hb hstage hdecline)
  · rw [Switch.busy, Switch.unit, hmem] at hb
    exact ⟨_, rfl, State.coherenceLate_verdict hb ha ht⟩
  · exact congrArg (Host.Outcome.next ·.regionCheck) (State.homeWriteback_unlisted he)
  · exact congrArg (Host.Outcome.next ·.regionCheck) (State.homeWriteback_owner he hs howner hb hopen)
  · exact ⟨_, rfl, State.handoverLate_verdict hj ho, State.handoverLate_lost hj⟩

/-! ### Frames that are relayed for a command (05 R116) -/

theorem Tally.countN_queue (t : Tally) (ms block i n : Nat) : ((t.keep ms).add block i n).queue = t.queue := by
  unfold Tally.add Tally.keep
  split <;> rfl

theorem State.countN_told (s : State) (block i n : Nat) : ToldFrame s (s.countN block i n) := by
  have hqueue : (s.countN block i n).sw.tally.queue = s.sw.tally.queue := Tally.countN_queue _ _ _ _ _
  refine ⟨?_, List.prefix_refl _⟩
  rw [← hqueue]
  rfl

theorem State.work_told (s : State) (kind index : Nat) : ToldFrame s (s.work kind index) := by
  unfold State.work
  dsimp only
  split
  · exact .refl s
  · split
    · exact .refl s
    · split
      · exact ⟨rfl, List.prefix_refl _⟩
      · split
        · exact ⟨rfl, List.prefix_refl _⟩
        · split
          · split
            · exact ⟨rfl, List.prefix_append _ _⟩
            · exact ⟨rfl, List.prefix_refl _⟩
          · exact .refl s

theorem State.workAt_told (s : State) (o : Nat) : ToldFrame s (s.workAt o) := by
  unfold State.workAt
  split
  · exact State.work_told _ _ _
  · split
    · exact State.work_told _ _ _
    · exact .refl _

/-- A frame of an internal source joins its queue, or waits. -/
theorem State.fromSource_told (s : State) (src key : Nat) (f : Frame) : ToldFrame s (s.fromSource src key f) := by
  have hplace : ToldFrame s (s.placeFrame src f.cls f true 0).2 := by
    unfold State.placeFrame
    dsimp only
    split
    · exact ToldFrame.trans ⟨rfl, List.prefix_refl _⟩ (State.countN_told _ _ _ _)
    · exact ⟨rfl, List.prefix_refl _⟩
  have hjoin (u : State) (b : Buffered) : ToldFrame u (u.join key b) := by
    unfold State.join
    exact ToldFrame.trans ⟨rfl, List.prefix_refl _⟩ (State.workAt_told _ _)
  unfold State.fromSource
  split
  · exact hplace.trans (hjoin _ _)
  · exact ⟨rfl, List.prefix_refl _⟩

/-- A relay is noted under the next number, and its frame is sent. -/
theorem State.relay_told (s : State) (p : Nat) (f : Frame) (cmd : Option (Nat × Nat)) : ToldFrame s (s.relay p f cmd) :=
  ToldFrame.trans ⟨rfl, List.prefix_refl _⟩ (State.fromSource_told _ _ _ _)

theorem State.relay_mgmt (s : State) (p : Nat) (f : Frame) (cmd : Option (Nat × Nat)) :
    (s.relay p f cmd).sw.teller = s.sw.teller ∧ (s.relay p f cmd).sw.mgmt.nextRelay = s.sw.mgmt.nextRelay + 1 := by
  unfold State.relay
  dsimp only
  rw [(State.swSendPort_sent _ _ _ _).teller, (State.swSendPort_sent _ _ _ _).mgmt]
  exact ⟨rfl, rfl⟩

section
variable {k : Form} {fn mb : Nat} {s : State} {work : Work} {holds : List Obj}

/-- A command that works on at an end-point home: it waits for one relay. -/
theorem Accepted.relays (h : Accepted k fn mb s) (hc : k.commit (s.sw.cmdOf fn mb k.len) (s.dequeued fn mb) = (.later work holds [], s.dequeued fn mb))
    (hs : ∀ v : State, v.sw.sys.homeId = s.sw.sys.homeId → (v.sw.activeOf fn mb).isSome = true →
      ∃ p f cmd, k.start (s.sw.cmdOf fn mb k.len) v = v.relay p f cmd) :
    Working fn mb work holds [] s (s.takeCommand k fn mb) ∧ ToldFrame s (s.takeCommand k fn mb)
      ∧ (s.takeCommand k fn mb).sw.mgmt.nextRelay = s.sw.mgmt.nextRelay + 1 := by
  obtain ⟨v, q, hv, ht⟩ := h.later hc
  generalize ha : Active.mk .. = a at ht
  obtain ⟨hteller, -, -, -, -, -, -, -, -, -, -, hmgmt, -⟩ := hv.fields
  have hhome : (v.onTeller fun x => { x with active := x.active ++ [a] }).sw.sys.homeId = s.sw.sys.homeId := by
    rw [hv.1]
    rfl
  have hactive : ((v.onTeller fun x => { x with active := x.active ++ [a] }).sw.activeOf fn mb).isSome = true := by
    simp [Switch.activeOf, ← ha]
  obtain ⟨p, f, cmd, hrelay⟩ := hs _ hhome hactive
  rw [hrelay] at ht
  obtain ⟨hkept, hnext⟩ := State.relay_mgmt (v.onTeller fun x => { x with active := x.active ++ [a] }) p f cmd
  rw [ht]
  refine ⟨⟨fun f m => ?_, ?_, a, ?_, by simp [← ha]⟩, ?_, ?_⟩
  · rw [Switch.mailbox, hkept, State.onTeller_sw, hteller]
    rfl
  · rw [hkept, State.onTeller_sw, hteller]
    rfl
  · rw [hkept, State.onTeller_sw, hteller]
    rfl
  · have hcommit : ToldFrame s (v.onTeller fun x => { x with active := x.active ++ [a] }) :=
      (ToldFrame.trans (t := s.dequeued fn mb) ⟨rfl, List.prefix_refl _⟩ hv.answer.told).trans ⟨rfl, List.prefix_refl _⟩
    exact hcommit.trans (State.relay_told _ _ _ _)
  · rw [hnext, State.onTeller_sw, hmgmt]
    rfl

/-! ### Changes of regions (05 R116, R117, R120) -/

/-- A change of a region gives it this mode and owner, or hands it over to this owner. -/
structure RegionJob.Gives (mode owner : Nat) (handover : Bool) (j : RegionJob) : Prop where
  mode : j.mode = mode
  newOwner : j.newOwner = owner
  handover : j.handover = handover
  lostNow : j.lostNow = false

/-- A change of a region is begun: a hand-over marks the entry. -/
def Home.start (h : Home) (j : RegionJob) : Home :=
  { h with jobs := h.jobs ++ [j], region := if j.handover then h.region.upd j.region {} fun r => { r with handover := true } else h.region }

theorem State.beginRegion_home (s : State) (i fn mb mode owner : Nat) (handover : Bool) : ∃ j : RegionJob, j.region = i ∧ j.Gives mode owner handover
    ∧ (s.beginRegion i fn mb mode owner handover).sw.mem.home = s.sw.mem.home.start j := by
  unfold State.beginRegion
  extract_lets r flush u v
  refine ⟨{ region := i, fn := fn, mb := mb, awaitOwner := if flush then some r.owner else none, mode := mode, newOwner := owner, handover := handover },
    rfl, ⟨rfl, rfl, rfl, rfl⟩, (State.takeBackDue_home _).trans (Eq.trans (b := v.sw.mem.home) ?_ ?_)⟩
  · split
    · exact congrArg Mem.home (State.swSend_sent v _ _).mem
    · rfl
  · cases handover <;> rfl

theorem State.beginRegion_onward (s : State) (i fn mb mode owner : Nat) (handover : Bool) :
    Onward false s (s.beginRegion i fn mb mode owner handover) := by
  unfold State.beginRegion State.sendRegionInv
  refine .of_footing ?_
  simp [State.onRegion]

end

section
variable {s : State} {fn mb mode owner : Nat} {handover : Bool}

/-- After the changes of some regions have begun at a home that had none under way, each has its change, and one that is handed over is marked. -/
theorem State.beginRegions_home (hjobs : s.sw.mem.home.jobs = []) (l : List Nat) :
    let h := (s.each l fun u i => u.beginRegion i fn mb mode owner handover).sw.mem.home
    (∀ j ∈ h.jobs, j.Gives mode owner handover)
      ∧ ∀ i ∈ l, (∃ j ∈ h.jobs, j.region = i) ∧ (handover = true → (h.region.get i {}).handover = true) := by
  refine ⟨State.each_keeps (P := fun u => ∀ j ∈ u.sw.mem.home.jobs, j.Gives mode owner handover) (by simp [hjobs]) fun u hu i => ?_, fun i hi => ?_⟩
  · obtain ⟨j, -, hj, hstart⟩ := State.beginRegion_home u i fn mb mode owner handover
    rw [hstart]
    exact List.forall_mem_append.mpr ⟨hu, by simpa using hj⟩
  · refine State.each_reaches (I := fun _ => True) (P := fun u => (∃ j ∈ u.sw.mem.home.jobs, j.region = i)
      ∧ (handover = true → (u.sw.mem.home.region.get i {}).handover = true)) hi (fun _ _ _ => trivial) (fun u _ => ?_) (fun u k hu => ?_) trivial
    · obtain ⟨j, rfl, hj, hstart⟩ := State.beginRegion_home u i fn mb mode owner handover
      rw [hstart]
      refine ⟨⟨j, by simp [Home.start], rfl⟩, fun hh => ?_⟩
      rw [Home.start, hj.handover, if_pos hh, Tab.get_upd_self]
    · obtain ⟨j, rfl, hj, hstart⟩ := State.beginRegion_home u k fn mb mode owner handover
      obtain ⟨⟨x, hx, hxi⟩, hmarked⟩ := hu
      rw [hstart]
      refine ⟨⟨x, List.mem_append_left _ hx, hxi⟩, fun hh => ?_⟩
      rw [Home.start, hj.handover, if_pos hh]
      by_cases hk : i = j.region
      · rw [hk, Tab.get_upd_self]
      · rw [Tab.get_upd_ne _ _ _ _ _ hk]
        exact hmarked hh

end

section
variable {l : List RegionJob} {h : Home} {i : Nat}

/-- What every change of a region in the list makes true of its entry is true once one is finished. -/
theorem Home.finish_reaches {P : Region → Prop} {k : RegionJob} (hk : k ∈ l) (hi : k.region = i) (hP : ∀ j ∈ l, ∀ r, P (j.finished r)) :
    P ((l.foldl Home.finish h).region.get i {}) := by
  obtain ⟨l₁, l₂, rfl⟩ := List.append_of_mem hk
  rw [List.foldl_append, List.foldl_cons]
  refine Home.finish_keeps (fun j hj _ r _ => hP j (by simp [hj]) r) ?_
  rw [Home.finish, ← hi, Tab.get_upd_self]
  exact hP k hk _

/-- A region none of whose changes is in the list keeps them, and its entry. -/
theorem Home.finish_others (hl : ∀ k ∈ l, k.region ≠ i) :
    (∀ j ∈ h.jobs, j.region = i → j ∈ (l.foldl Home.finish h).jobs) ∧ (l.foldl Home.finish h).region.get i {} = h.region.get i {} := by
  refine ⟨fun j hj hi => ?_, Home.finish_keeps (P := fun r => r = h.region.get i {}) (fun k hk hki => absurd hki (hl k hk)) rfl⟩
  refine List.foldlRecOn (motive := fun k => j ∈ k.jobs) l Home.finish hj fun u hu k hk => List.mem_filter.mpr ⟨hu, ?_⟩
  rw [hi]
  simpa using (hl k hk).symm

end

/-- A region whose change has begun, at a home where all changes give the same: it still changes, or has its new entry. -/
theorem State.regionCheck_settles {s : State} {mode owner i : Nat} {handover : Bool} (hall : ∀ j ∈ s.sw.mem.home.jobs, j.Gives mode owner handover)
    (hi : ∃ j ∈ s.sw.mem.home.jobs, j.region = i) :
    ((∃ j ∈ s.regionCheck.sw.mem.home.jobs, j.region = i ∧ j.Gives mode owner handover)
        ∧ s.regionCheck.sw.mem.home.region.get i {} = s.sw.mem.home.region.get i {})
      ∨ ∃ j : RegionJob, j.Gives mode owner handover ∧ ∃ r, s.regionCheck.sw.mem.home.region.get i {} = j.finished r := by
  rw [State.regionCheck_home]
  generalize hready : (s.sw.mem.home.jobs.filter fun j => !s.takeBackDue.sw.jobWaits j) = ready
  have hsub : ∀ j ∈ ready, j.Gives mode owner handover := fun j hj => hall j (List.mem_of_mem_filter (hready ▸ hj))
  by_cases hex : ∃ k ∈ ready, k.region = i
  · obtain ⟨k, hk, hki⟩ := hex
    exact .inr (Home.finish_reaches (P := fun x => ∃ j : RegionJob, j.Gives mode owner handover ∧ ∃ r, x = j.finished r) hk hki
      fun j hj r => ⟨j, hsub j hj, r, rfl⟩)
  · obtain ⟨j, hj, hji⟩ := hi
    obtain ⟨hjobs, hregion⟩ := Home.finish_others (h := s.sw.mem.home) (fun k hk hki => hex ⟨k, hk, hki⟩)
    exact .inl ⟨⟨j, hjobs j hj hji, hji, hall j hj⟩, hregion⟩

/-- A command that changes regions of this switch: it stands on the list, and each region changes, marked where it is handed over, or has its new
entry. -/
theorem Accepted.changesRegions {k : Form} {fn mb : Nat} {s : State} {work : Work} {holds : List Obj} {mode owner : Nat} {handover : Bool} {l : List Nat}
    (h : Accepted k fn mb s) (hc : k.commit (s.sw.cmdOf fn mb k.len) (s.dequeued fn mb) = (.later work holds [], s.dequeued fn mb))
    (hs : ∀ v : State, v.sw.sys.homeId = s.sw.sys.homeId →
      k.start (s.sw.cmdOf fn mb k.len) v = (v.each l fun u i => u.beginRegion i fn mb mode owner handover).regionCheck)
    (hjobs : s.sw.mem.home.jobs = []) :
    let t := s.takeCommand k fn mb
    Listed fn mb work holds t ∧ ∀ i ∈ l,
      ((∃ j ∈ t.sw.mem.home.jobs, j.region = i ∧ j.Gives mode owner handover) ∧ (handover = true → (t.sw.mem.home.region.get i {}).handover = true))
        ∨ ∃ j : RegionJob, j.Gives mode owner handover ∧ ∃ r, t.sw.mem.home.region.get i {} = j.finished r := by
  obtain ⟨v, q, hv, ht⟩ := h.later hc
  generalize ha : Active.mk .. = a at ht
  have hhome : (v.onTeller fun x => { x with active := x.active ++ [a] }).sw.sys.homeId = s.sw.sys.homeId := by
    rw [hv.1]
    rfl
  rw [hs _ hhome] at ht
  generalize hu : (v.onTeller fun x => { x with active := x.active ++ [a] }) = u at ht
  have hbegin := State.beginRegions_home (s := u) (fn := fn) (mb := mb) (mode := mode) (owner := owner) (handover := handover) (by
    obtain ⟨-, -, -, hmem, -⟩ := hv.fields
    rw [← hu, State.onTeller_sw, hmem]
    exact hjobs) l
  obtain ⟨hall, hbegun⟩ := hbegin
  rw [ht]
  refine ⟨?_, fun i hi => ?_⟩
  · have hgo : Onward false u ((u.each l fun u i => u.beginRegion i fn mb mode owner handover).regionCheck) :=
      (Onward.each fun u i => State.beginRegion_onward u i fn mb mode owner handover).trans (State.regionCheck_onward _)
    obtain ⟨b, hb, hsame⟩ := hgo.listed a (by simp [← hu])
    obtain ⟨hfn, hmb, hwork, hholds⟩ := hsame
    subst ha
    exact ⟨b, hb, hfn, hmb, hwork, hholds⟩
  · obtain ⟨hjob, hmarked⟩ := hbegun i hi
    refine (State.regionCheck_settles hall hjob).imp_left fun ⟨hjob, hregion⟩ => ⟨hjob, fun hh => ?_⟩
    rw [hregion]
    exact hmarked hh

/-! ### LOST lines and regions that are given back (05 R140) -/

/-- Zeros written, and the rest as it was. -/
theorem Memory.read_writeN_zeros (m : List Host.Cell) (a n k : Nat) :
    Memory.read (Memory.writeN m a (List.replicate n 0)) k = if a ≤ k ∧ k < a + n then 0 else Memory.read m k := by
  induction n generalizing m a with
  | zero => exact (if_neg (by omega)).symm
  | succ n ih =>
    rw [List.replicate_succ, Memory.writeN, ih]
    by_cases hk : k = a
    · subst hk
      rw [if_neg (by omega), if_pos (by omega), Memory.read_write_self]
    · rw [Memory.read_write_ne _ _ hk]
      exact if_congr (by omega) rfl rfl

theorem State.clearLine_teller (s : State) (l : Nat) : (s.clearLine l).sw.teller = s.sw.teller := by
  rw [State.clearLine, State.onMem_sw]

theorem State.clearLine_read (s : State) (l a : Nat) :
    Memory.read (s.clearLine l).sw.mem.home.mem a = if a / 128 = l then 0 else Memory.read s.sw.mem.home.mem a := by
  rw [State.clearLine, State.onMem_sw, Memory.read_writeN_zeros]
  refine if_congr ?_ rfl rfl
  omega

theorem State.clearLine_lines (s : State) (l k : Nat) :
    (s.clearLine l).sw.mem.home.lines.find k = if k = l then none else s.sw.mem.home.lines.find k := by
  rw [State.clearLine, State.onMem_sw]
  by_cases hk : k = l
  · rw [if_pos hk, hk, Tab.find_del_self]
  · rw [if_neg hk, Tab.find_del_ne _ _ _ hk]

/-- A line among those named is LOST in itself. -/
def Home.lostIn (h : Home) (first count l : Nat) : Prop := first ≤ l ∧ l < first + count ∧ ∃ m, (l, m) ∈ h.lines ∧ m.lost = true

section
variable {s : State} {first count : Nat}

theorem Home.mem_lostIn {h : Home} {l : Nat} :
    l ∈ (h.lines.filter fun e => decide (first ≤ e.1 ∧ e.1 < first + count) && e.2.lost).map Prod.fst ↔ h.lostIn first count l := by
  simp only [List.mem_map, List.mem_filter, Bool.and_eq_true, decide_eq_true_eq, Home.lostIn]
  constructor
  · rintro ⟨⟨l, m⟩, ⟨hmem, ⟨hlo, hhi⟩, hlost⟩, rfl⟩
    exact ⟨hlo, hhi, m, hmem, hlost⟩
  · rintro ⟨hlo, hhi, m, hmem, hlost⟩
    exact ⟨(l, m), ⟨hmem, ⟨hlo, hhi⟩, hlost⟩, rfl⟩

/-- Clearing changes the memory system only. -/
theorem State.clearLines_teller (s : State) (first count : Nat) : (s.clearLines first count).sw.teller = s.sw.teller :=
  State.each_keeps (P := fun u => u.sw.teller = s.sw.teller) rfl fun u hu l => (State.clearLine_teller u l).trans hu

/-- A LOST line that is cleared has no key and no mark left, and holds zeros. -/
theorem State.clearLines_lost {l : Nat} (h : s.sw.mem.home.lostIn first count l) :
    (s.clearLines first count).sw.mem.home.lines.find l = none
      ∧ ∀ a, a / 128 = l → Memory.read (s.clearLines first count).sw.mem.home.mem a = 0 := by
  refine State.each_reaches (I := fun _ => True) (P := fun u => u.sw.mem.home.lines.find l = none ∧ ∀ a, a / 128 = l → Memory.read u.sw.mem.home.mem a = 0)
    (Home.mem_lostIn.mpr h) (fun _ _ _ => trivial) (fun u _ => ?_) (fun u k hu => ?_) trivial
  · exact ⟨(State.clearLine_lines u l l).trans (if_pos rfl), fun a ha => (State.clearLine_read u l a).trans (if_pos ha)⟩
  · obtain ⟨hfind, hread⟩ := hu
    refine ⟨?_, fun a ha => ?_⟩
    · rw [State.clearLine_lines, hfind, ite_self]
    · rw [State.clearLine_read, hread a ha, ite_self]

/-- Every other byte stays. -/
theorem State.clearLines_kept {a : Nat} (h : ¬s.sw.mem.home.lostIn first count (a / 128)) :
    Memory.read (s.clearLines first count).sw.mem.home.mem a = Memory.read s.sw.mem.home.mem a := by
  refine List.foldlRecOn (motive := fun u : State => Memory.read u.sw.mem.home.mem a = Memory.read s.sw.mem.home.mem a) _ State.clearLine rfl fun u hu l hl => ?_
  rw [State.clearLine_read, if_neg fun ha => h (by rw [ha]; exact Home.mem_lostIn.mp hl)]
  exact hu

theorem State.putRegion_get (s : State) (n : Nat) (r : Region) (i : Nat) :
    (s.putRegion n r).sw.mem.home.region.get i {} = if i = n then r else s.sw.mem.home.region.get i {} := by
  have hput : (s.putRegion n r).sw.mem.home.region = if r = {} then s.sw.mem.home.region.del n else s.sw.mem.home.region.put n r := rfl
  rw [hput]
  by_cases hi : i = n
  · rw [if_pos hi, hi]
    split
    · next hr => rw [Tab.get_del_self, hr]
    · exact Tab.get_put_self _ _ _ _
  · rw [if_neg hi]
    split
    · exact Tab.get_del_ne _ _ _ _ hi
    · exact Tab.get_put_ne _ _ _ _ _ hi

/-- Giving regions back changes the region table only. -/
theorem State.clearRegions_frame (s : State) (first count : Nat) :
    (s.clearRegions first count).sw.teller = s.sw.teller ∧ SameMemory s (s.clearRegions first count) := by
  have hstep : (s.clearRegions first count).sw.teller = s.sw.teller ∧ (s.clearRegions first count).sw.mem.home.mem = s.sw.mem.home.mem
      ∧ (s.clearRegions first count).ep = s.ep :=
    State.each_keeps (P := fun u => u.sw.teller = s.sw.teller ∧ u.sw.mem.home.mem = s.sw.mem.home.mem ∧ u.ep = s.ep) ⟨rfl, rfl, rfl⟩ fun _ hu _ => hu
  obtain ⟨hteller, hmem, hep⟩ := hstep
  exact ⟨hteller, fun a => ⟨by rw [hmem], by rw [hep]⟩⟩

/-- A LOST region is given back with no owner. -/
theorem State.clearRegions_lost {i : Nat} (hlo : first ≤ i) (hhi : i < first + count) (hlost : (s.sw.mem.home.region.get i {}).lost = true) :
    ((s.clearRegions first count).sw.mem.home.region.get i {}).lost = false ∧ ((s.clearRegions first count).sw.mem.home.region.get i {}).owner = 0x3FF := by
  have hlisted : i ∈ (s.sw.mem.home.region.filter fun e => decide (first ≤ e.1 ∧ e.1 < first + count) && e.2.lost).map Prod.fst := by
    cases hfind : s.sw.mem.home.region.find i with
    | none => simp [Tab.get, hfind] at hlost
    | some r =>
      have hr : r.lost = true := by simpa [Tab.get, hfind] using hlost
      exact List.mem_map.mpr ⟨(i, r), List.mem_filter.mpr ⟨Tab.mem_of_find hfind, by simp [hlo, hhi, hr]⟩, rfl⟩
  refine State.each_reaches (I := fun _ => True) (P := fun u => (u.sw.mem.home.region.get i {}).lost = false ∧ (u.sw.mem.home.region.get i {}).owner = 0x3FF)
    hlisted (fun _ _ _ => trivial) (fun u _ => ?_) (fun u k hu => ?_) trivial
  · rw [State.putRegion_get, if_pos rfl]
    exact ⟨rfl, rfl⟩
  · rw [State.putRegion_get]
    split
    · exact ⟨rfl, rfl⟩
    · exact hu

end

/-! ### The rows of regions (05 R116 to R121, R140) -/

theorem Cmd.mem_regions {c : Cmd} {i : Nat} (hlo : c.first ≤ i) (hhi : i < c.first + c.count) : i ∈ c.regions :=
  List.mem_map.mpr ⟨i - c.first, List.mem_range.mpr (by omega), by omega⟩

/-- A finished change of mode and owner. -/
theorem RegionJob.Gives.settles {mode owner : Nat} {j : RegionJob} (h : j.Gives mode owner false) (r : Region) :
    (j.finished r).mode = mode ∧ (j.finished r).owner = owner := by
  simp [RegionJob.finished, h.lostNow, h.handover, h.mode, h.newOwner]

/-- A finished hand-over. -/
theorem RegionJob.Gives.handsOver {mode owner : Nat} {j : RegionJob} (h : j.Gives mode owner true) (r : Region) :
    (j.finished r).handover = false ∧ (j.finished r).owner = owner := by
  simp [RegionJob.finished, h.lostNow, h.handover, h.newOwner]

section
variable {fn mb : Nat} {s : State}

theorem regionSet_here (h : Accepted regionSetForm fn mb s) (hhome : (s.sw.cmdOf fn mb 16).home = s.sw.sys.homeId) (hjobs : s.sw.mem.home.jobs = []) :
    let c := s.sw.cmdOf fn mb 16
    let t := s.takeCommand regionSetForm fn mb
    Listed fn mb .regionChange [.regions c.home c.first c.count] t ∧ ∀ i, c.first ≤ i → i < c.first + c.count →
      (∃ j ∈ t.sw.mem.home.jobs, j.region = i ∧ j.mode = c.num 0x8C 1 ∧ j.newOwner = c.owner)
        ∨ ((t.sw.mem.home.region.get i {}).mode = c.num 0x8C 1 ∧ (t.sw.mem.home.region.get i {}).owner = c.owner) := by
  intro c t
  have hc : regionSetForm.commit c (s.dequeued fn mb) = (.later .regionChange [.regions c.home c.first c.count] [], s.dequeued fn mb) :=
    congrArg (fun w => (Done.later w _ _, _)) (if_pos hhome)
  obtain ⟨hlisted, hregions⟩ := h.changesRegions (mode := c.num 0x8C 1) (owner := c.owner) (handover := false) (l := c.regions) hc
    (fun v hv => if_pos (hhome.trans hv.symm)) hjobs
  refine ⟨hlisted, fun i hlo hhi => (hregions i (Cmd.mem_regions hlo hhi)).imp ?_ ?_⟩
  · rintro ⟨⟨j, hj, hji, hgives⟩, -⟩
    exact ⟨j, hj, hji, hgives.mode, hgives.newOwner⟩
  · rintro ⟨j, hgives, r, hr⟩
    rw [hr]
    exact hgives.settles r

theorem regionHandover_here (h : Accepted regionHandoverForm fn mb s) (hhome : (s.sw.cmdOf fn mb 16).home = s.sw.sys.homeId)
    (hjobs : s.sw.mem.home.jobs = []) :
    let c := s.sw.cmdOf fn mb 16
    let t := s.takeCommand regionHandoverForm fn mb
    Listed fn mb .handover [.regions c.home c.first c.count] t ∧ ∀ i, c.first ≤ i → i < c.first + c.count →
      ((∃ j ∈ t.sw.mem.home.jobs, j.region = i ∧ j.handover = true ∧ j.newOwner = c.owner) ∧ (t.sw.mem.home.region.get i {}).handover = true)
        ∨ ((t.sw.mem.home.region.get i {}).handover = false ∧ (t.sw.mem.home.region.get i {}).owner = c.owner) := by
  intro c t
  have hc : regionHandoverForm.commit c (s.dequeued fn mb) = (.later .handover [.regions c.home c.first c.count] [], s.dequeued fn mb) :=
    congrArg (fun w => (Done.later w _ _, _)) (if_pos hhome)
  obtain ⟨hlisted, hregions⟩ := h.changesRegions (mode := mOwned) (owner := c.owner) (handover := true) (l := c.regions) hc
    (fun v hv => if_pos (hhome.trans hv.symm)) hjobs
  refine ⟨hlisted, fun i hlo hhi => (hregions i (Cmd.mem_regions hlo hhi)).imp ?_ ?_⟩
  · rintro ⟨⟨j, hj, hji, hgives⟩, hmarked⟩
    exact ⟨⟨j, hj, hji, hgives.handover, hgives.newOwner⟩, hmarked rfl⟩
  · rintro ⟨j, hgives, r, hr⟩
    rw [hr]
    exact hgives.handsOver r

theorem regionRead_here (h : Accepted regionReadForm fn mb s) (hhome : (s.sw.cmdOf fn mb 16).home = s.sw.sys.homeId) :
    let c := s.sw.cmdOf fn mb 16
    let t := s.takeCommand regionReadForm fn mb
    AnswerFrame s t ∧ Answered fn mb mbOk 0 ((List.range c.count).flatMap fun i => leBytes 2 (s.sw.mem.home.region.get (c.first + i) {}).bits) s t := by
  intro c t
  have hc : regionReadForm.commit c (s.dequeued fn mb)
      = (.now ((List.range c.count).flatMap fun i => leBytes 2 (s.sw.mem.home.region.get (c.first + i) {}).bits), s.dequeued fn mb) := by
    refine (if_pos hhome).trans ?_
    rw [Cmd.regions, List.flatMap_map]
    rfl
  obtain ⟨hanswered, hframe⟩ := h.now hc rfl rfl
  exact ⟨AnswerFrame.trans ⟨rfl, List.prefix_refl _⟩ hframe, hanswered⟩

/-- The command that stands on the list asks the end-point home for the first entries. -/
theorem regionRead_asks {v : State} (c : Cmd) (h : (v.sw.activeOf c.fn c.mb).isSome = true) : ∃ p f cmd, regionReadForm.start c v = v.relay p f cmd := by
  obtain ⟨a, ha⟩ := Option.isSome_iff_exists.mp h
  have hnext : regionReadForm.start c v = v.regionReadNext a := by
    unfold regionReadForm
    dsimp only
    rw [ha]
  exact ⟨_, _, _, hnext⟩

theorem regionLostClear_lines (h : Accepted regionLostClearForm fn mb s) (hhome : (s.sw.cmdOf fn mb 24).home = s.sw.sys.homeId)
    (hkind : (s.sw.cmdOf fn mb 24).num 0x82 1 = 0) :
    let c := s.sw.cmdOf fn mb 24
    let t := s.takeCommand regionLostClearForm fn mb
    let hit := s.sw.mem.home.lostIn (c.num 0x88 8) (c.num 0x90 4)
    Answered fn mb mbOk 0 [] s t ∧ (∀ l, hit l → t.sw.mem.home.lines.find l = none ∧ ∀ a, a / 128 = l → Memory.read t.sw.mem.home.mem a = 0)
      ∧ ∀ a, ¬hit (a / 128) → Memory.read t.sw.mem.home.mem a = Memory.read s.sw.mem.home.mem a := by
  intro c t hit
  have hc : regionLostClearForm.commit c (s.dequeued fn mb) = (.now [], (s.dequeued fn mb).clearLines (c.num 0x88 8) (c.num 0x90 4)) :=
    (if_neg (not_not_intro hhome)).trans (congrArg (Prod.mk _) (if_pos hkind))
  have hteller := State.clearLines_teller (s.dequeued fn mb) (c.num 0x88 8) (c.num 0x90 4)
  obtain ⟨hanswered, hframe⟩ := h.now hc (by rw [hteller]; rfl) (by rw [hteller]; rfl)
  rw [hframe.mem]
  exact ⟨hanswered, fun l hl => State.clearLines_lost (s := s.dequeued fn mb) hl, fun a ha => State.clearLines_kept (s := s.dequeued fn mb) ha⟩

theorem regionLostClear_regions (h : Accepted regionLostClearForm fn mb s) (hhome : (s.sw.cmdOf fn mb 24).home = s.sw.sys.homeId)
    (hkind : (s.sw.cmdOf fn mb 24).num 0x82 1 ≠ 0) :
    let c := s.sw.cmdOf fn mb 24
    let t := s.takeCommand regionLostClearForm fn mb
    Answered fn mb mbOk 0 [] s t ∧ SameMemory s t
      ∧ ∀ i, c.num 0x88 8 ≤ i → i < c.num 0x88 8 + c.num 0x90 4 → (s.sw.mem.home.region.get i {}).lost = true →
        (t.sw.mem.home.region.get i {}).lost = false ∧ (t.sw.mem.home.region.get i {}).owner = 0x3FF := by
  intro c t
  have hc : regionLostClearForm.commit c (s.dequeued fn mb) = (.now [], (s.dequeued fn mb).clearRegions (c.num 0x88 8) (c.num 0x90 4)) :=
    (if_neg (not_not_intro hhome)).trans (congrArg (Prod.mk _) (if_neg hkind))
  obtain ⟨hteller, hsame⟩ := State.clearRegions_frame (s.dequeued fn mb) (c.num 0x88 8) (c.num 0x90 4)
  obtain ⟨hanswered, hframe⟩ := h.now hc (by rw [hteller]; rfl) (by rw [hteller]; rfl)
  refine ⟨hanswered, SameMemory.trans (t := (s.dequeued fn mb).clearRegions (c.num 0x88 8) (c.num 0x90 4)) hsame hframe.sameMemory, fun i hlo hhi hlost => ?_⟩
  rw [hframe.mem]
  exact State.clearRegions_lost (s := s.dequeued fn mb) hlo hhi hlost

end

/-- Settles O10: a region's change that waits for nothing is finished at once, and at an end-point home each command waits for one relay. -/
theorem regionCommandsComplete : Obligations.RegionCommandsComplete := by
  unfold Obligations.RegionCommandsComplete
  intro fn mb s
  refine ⟨fun h => ?_, fun h => ?_, fun h => ?_, fun h => ?_⟩
  · intro c
    refine ⟨fun hhome hjobs => ⟨_, rfl, regionSet_here h hhome hjobs⟩, fun hhome => ⟨_, rfl, h.relays ?_ fun v hv _ => ?_⟩⟩
    · exact congrArg (fun w => (Done.later w _ _, _)) (if_neg hhome)
    · exact ⟨_, _, _, if_neg fun hv' => hhome (hv'.trans hv)⟩
  · intro c
    refine ⟨fun hhome hjobs => ⟨_, rfl, regionHandover_here h hhome hjobs⟩, fun hhome => ⟨_, rfl, h.relays ?_ fun v hv _ => ?_⟩⟩
    · exact congrArg (fun w => (Done.later w _ _, _)) (if_neg hhome)
    · exact ⟨_, _, _, if_neg fun hv' => hhome (hv'.trans hv)⟩
  · intro c
    exact ⟨fun hhome => ⟨_, rfl, regionRead_here h hhome⟩, fun hhome => ⟨_, rfl, h.relays (if_neg hhome) fun v _ hactive => regionRead_asks c hactive⟩⟩
  · intro c first count hit
    exact ⟨fun hhome hkind => ⟨_, rfl, regionLostClear_lines h hhome hkind⟩, fun hhome hkind => ⟨_, rfl, regionLostClear_regions h hhome hkind⟩,
      fun hhome => ⟨_, rfl, h.relays (if_pos hhome) fun _ _ _ => ⟨_, _, _, rfl⟩⟩⟩

end Sys2Proof.Machine

/-!
PROOFS of the family 06_pool_memory: commands that set the pool (O11), mirror records (O22), and scrub, drain, rewrap, retirement and SRAM errors (O50).
-/

namespace Sys2Proof.Machine

/-! ### Checks that an accepted command has passed (16 R420) -/

/-- No check of a form's own refuses a command that no check refuses. -/
theorem Form.own_passed {k : Form} {c : Cmd} {s : State} {header : Nat} (h : k.refusal c s header = none) : ∀ x ∈ k.own c s, x.1 = false := by
  unfold Form.refusal at h
  generalize k.badField c s header = bad at h
  cases bad with
  | some o => simp [ite_eq_iff] at h
  | none =>
    dsimp only at h
    split_ifs at h
    exact fun x hx => by simpa using List.find?_eq_none.mp (Option.map_eq_none_iff.mp h) x hx

/-- No own check refuses an accepted command. -/
theorem Accepted.own_passed {k : Form} {fn mb : Nat} {s : State} (h : Accepted k fn mb s) : ∀ x ∈ k.own (s.sw.cmdOf fn mb k.len) (s.dequeued fn mb), x.1 = false := by
  obtain ⟨-, -, -, -, -, hrefusal⟩ := h
  exact Form.own_passed hrefusal

/-! ### Responses that a pairing holds, and its end (06 R166, R168) -/

/-- The pairing without the responses held up to a SEQ. -/
def Pair.released (p : Pair) (upto : Nat) : Pair := { p with held := p.held.filter fun h => decide (upto < h.1) }

/-- Responses that a partner's acknowledgement lets go leave by their units: the key slots, the core, power and counters change, and the pairing. -/
theorem State.releaseHeld_frame {s : State} {g : Nat} {p : Pair} (h : s.sw.mem.pair.find g = some p) (upto : Nat) :
    (s.releaseHeld g upto).sw.mem = { s.sw.mem with pair := s.sw.mem.pair.put g (p.released upto) }
      ∧ (s.releaseHeld g upto).sw.teller = s.sw.teller ∧ (s.releaseHeld g upto).ep = s.ep := by
  unfold State.releaseHeld
  rw [h]
  refine State.each_keeps (P := fun u => u.sw.mem = { s.sw.mem with pair := s.sw.mem.pair.put g (p.released upto) } ∧ u.sw.teller = s.sw.teller ∧ u.ep = s.ep)
    ⟨rfl, rfl, rfl⟩ fun u hu x => ?_
  obtain ⟨hmem, hteller, hep⟩ := hu
  have hsent := State.swSend_sent (u.uncount { x.2.2 with src := x.2.2.dest, cls := if x.2.2.cls = 2 then 1 else 3 }) (outUnit (unitOf x.2.2.offset)) x.2.2
  obtain ⟨-, -, -, hm, -, ht, -, -, -, -, -, -, he, -, -⟩ := hsent.fields
  have hcount (f : Frame) : (u.uncount f).sw.mem = u.sw.mem ∧ (u.uncount f).sw.teller = u.sw.teller ∧ (u.uncount f).ep = u.ep := by
    unfold State.uncount
    dsimp only
    split <;> exact ⟨rfl, rfl, rfl⟩
  obtain ⟨hcmem, hcteller, hcep⟩ := hcount { x.2.2 with src := x.2.2.dest, cls := if x.2.2.cls = 2 then 1 else 3 }
  exact ⟨hm.trans (hcmem.trans hmem), ht.trans (hcteller.trans hteller), he.trans (hcep.trans hep)⟩

/-- The end of a pairing, or of none: no pairing stands, and of the memory system nothing else has changed. -/
theorem State.endPair_frame (s : State) (g : Nat) :
    (s.endPair g).sw.mem = { s.sw.mem with pair := (s.endPair g).sw.mem.pair } ∧ (s.endPair g).sw.mem.pair.find g = none
      ∧ (s.endPair g).sw.teller = s.sw.teller ∧ (s.endPair g).ep = s.ep := by
  unfold State.endPair
  split
  · next h => exact ⟨rfl, h, rfl, rfl⟩
  · next p h =>
    obtain ⟨hmem, hteller, hep⟩ := State.releaseHeld_frame h ((p.held.map (·.1)).foldl max 0)
    simp only [State.onMem_sw, State.onMem_ep, hmem]
    exact ⟨trivial, Tab.find_del_self _ _, hteller, hep⟩

/-- The pairing that PARTNER_SET begins: it resilvers. -/
def Cmd.newPair (c : Cmd) : Pair :=
  { partner := c.num 0x82 2, primary := c.num 0x84 1 == 0, rate := if c.num 0x86 2 = 0 then 16 else c.num 0x86 2 }

/-- A secondary that is promoted: a primary without a partner. -/
def Pair.promoted (p : Pair) : Pair := { p with primary := true, state := .single, unacked := [], early := [] }

/-! ### Limits and LOST regions in their tables -/

/-- A limit put for each channel of a list. -/
theorem Tab.find_putAll {α : Type} (l : List Nat) (v : α) (t : Tab α) (k : Nat) :
    (l.foldl (fun t n => t.put n v) t).find k = if k ∈ l then some v else t.find k := by
  induction l generalizing t with
  | nil => simp
  | cons n l ih =>
    rw [List.foldl_cons, ih]
    by_cases hl : k ∈ l
    · simp [hl]
    · by_cases hk : k = n
      · simp [hk]
      · rw [if_neg hl, Tab.find_put_ne _ _ _ _ hk, if_neg (by simp [hk, hl])]

/-- LOST is set on each region of a list. -/
theorem State.loseRegions_lost {s : State} {l : List Nat} {i : Nat} (hi : i ∈ l) :
    ((s.each l fun s i => s.onRegion i fun r => { r with lost := true }).sw.mem.home.region.get i {}).lost = true := by
  refine State.each_reaches (I := fun _ => True) (P := fun u => (u.sw.mem.home.region.get i {}).lost = true) hi (fun _ _ _ => trivial) (fun u _ => ?_)
    (fun u k hu => ?_) trivial
  · rw [State.onRegion_get]
  · by_cases hk : i = k
    · rw [hk, State.onRegion_get]
    · rwa [State.onRegion_sw, Tab.get_upd_ne _ _ _ _ _ hk]

/-- It changes nothing but the region table. -/
theorem State.loseRegions_frame (s : State) (l : List Nat) :
    let t := s.each l fun s i => s.onRegion i fun r => { r with lost := true }
    t.sw.teller = s.sw.teller ∧ t.sw.mem.pair = s.sw.mem.pair ∧ t.sw.mem.home.mem = s.sw.mem.home.mem ∧ t.ep = s.ep :=
  State.each_keeps (P := fun u => u.sw.teller = s.sw.teller ∧ u.sw.mem.pair = s.sw.mem.pair ∧ u.sw.mem.home.mem = s.sw.mem.home.mem ∧ u.ep = s.ep)
    ⟨rfl, rfl, rfl, rfl⟩ fun _ hu _ => hu

/-! ### The rows of near store, retirement and partners (06 R149, R154, R156, R159, R163, R168) -/

section
variable {fn mb : Nat} {s : State}

theorem nearStoreSet_done (h : Accepted nearStoreSetForm fn mb s) :
    let c := s.sw.cmdOf fn mb 8
    let t := s.takeCommand nearStoreSetForm fn mb
    let set := s.onSys fun y => { y with cfg := { y.cfg with stepMask := y.cfg.stepMask.put (c.num 0x80 1) (c.num 0x81 1) } }
    (s.sw.mem.mask.get (c.num 0x80 1) 0 = c.num 0x81 1 → Answered fn mb mbOk 0 [] s t ∧ AnswerFrame set t)
      ∧ (s.sw.mem.mask.get (c.num 0x80 1) 0 ≠ c.num 0x81 1 → Working fn mb .drain [.engine (c.num 0x80 1), .nearStore] [] s t
        ∧ AnswerFrame (set.onMem fun x => { x with drainOld := some s.sw.cacheSteps, drainMask := some (c.num 0x80 1, c.num 0x81 1) }) t) := by
  intro c t set
  refine ⟨fun hsame => ?_, fun hnew => ?_⟩
  · obtain ⟨hanswered, hframe⟩ := h.now (if_pos hsame) rfl rfl
    exact ⟨hanswered, AnswerFrame.trans ⟨rfl, List.prefix_refl _⟩ hframe⟩
  · obtain ⟨hworking, hframe⟩ := h.working (if_neg hnew) rfl rfl rfl rfl
    exact ⟨hworking, AnswerFrame.trans ⟨rfl, List.prefix_refl _⟩ hframe⟩

theorem retireLimitSet_done (h : Accepted retireLimitSetForm fn mb s) :
    let c := s.sw.cmdOf fn mb 8
    let t := s.takeCommand retireLimitSetForm fn mb
    Answered fn mb mbOk 0 [] s t ∧ AnswerFrame (s.onSys fun y => { y with cfg := { y.cfg with retireLimit := t.sw.sys.cfg.retireLimit } }) t
      ∧ ∀ ch < 24, t.sw.sys.cfg.retireLimit.find ch
          = if c.num 0x80 1 = 0xFF ∨ c.num 0x80 1 = ch then some (c.num 0x82 2) else s.sw.sys.cfg.retireLimit.find ch := by
  intro c t
  obtain ⟨hanswered, hframe⟩ := h.now rfl rfl rfl
  have hlimit : t.sw.sys.cfg.retireLimit
      = (if c.num 0x80 1 = 0xFF then List.range 24 else [c.num 0x80 1]).foldl (fun t n => t.put n (c.num 0x82 2)) s.sw.sys.cfg.retireLimit :=
    congrArg (·.sw.sys.cfg.retireLimit) hframe.1
  refine ⟨hanswered, ?_, fun ch hch => ?_⟩
  · rw [hlimit]
    exact AnswerFrame.trans ⟨rfl, List.prefix_refl _⟩ hframe
  · rw [hlimit, Tab.find_putAll]
    refine if_congr ?_ rfl rfl
    split
    · next hall => simp [hall, hch]
    · next hone => simp [hone, eq_comm]

theorem partnerSet_done (h : Accepted partnerSetForm fn mb s) :
    let c := s.sw.cmdOf fn mb 8
    let t := s.takeCommand partnerSetForm fn mb
    Answered fn mb mbOk 0 [] s t ∧ t.sw.mem.home = s.sw.mem.home ∧ t.sw.mem.pair.find (c.num 0x80 2) = some c.newPair := by
  intro c t
  obtain ⟨hmem, -, hteller, -⟩ := State.endPair_frame (s.dequeued fn mb) (c.num 0x80 2)
  have hc : partnerSetForm.commit c (s.dequeued fn mb) = (.now [], ((s.dequeued fn mb).endPair (c.num 0x80 2)).onMem fun m => 
      { m with pair := m.pair.put (c.num 0x80 2) c.newPair }) := rfl
  obtain ⟨hanswered, hframe⟩ := h.now hc (by rw [State.onMem_sw, hteller]; rfl) (by rw [State.onMem_sw, hteller]; rfl)
  rw [hframe.mem, State.onMem_sw]
  refine ⟨hanswered, ?_, Tab.find_put_self _ _ _⟩
  rw [hmem]
  rfl

theorem partnerPromote_done (h : Accepted partnerPromoteForm fn mb s) :
    let c := s.sw.cmdOf fn mb 8
    let t := s.takeCommand partnerPromoteForm fn mb
    Answered fn mb mbOk 0 [] s t ∧ (∃ p, t.sw.mem.pair.find (c.num 0x80 2) = some p ∧ p.primary = true ∧ p.state = .single)
      ∧ (∀ k ≠ c.num 0x80 2, t.sw.mem.pair.find k = s.sw.mem.pair.find k) ∧ AnswerFrame (s.onMem fun m => { m with pair := t.sw.mem.pair }) t := by
  intro c t
  obtain ⟨p, hp⟩ : ∃ p, s.sw.mem.pair.find (c.num 0x80 2) = some p := by
    have hany : ((s.sw.mem.pair.find (c.num 0x80 2)).any fun p => !p.primary && p.state == .paired) = true := by
      have hown := h.own_passed _ List.mem_cons_self
      rwa [Bool.not_eq_false'] at hown
    obtain ⟨p, hp, -⟩ := (Option.any_eq_true _ _).mp hany
    exact ⟨p, hp⟩
  obtain ⟨hanswered, hframe⟩ := h.now rfl rfl rfl
  have hpair : t.sw.mem.pair = s.sw.mem.pair.mapVals fun k p => if k = c.num 0x80 2 then p.promoted else p := congrArg Mem.pair hframe.mem
  rw [hpair]
  refine ⟨hanswered, ⟨p.promoted, ?_, rfl, rfl⟩, fun k hk => ?_, AnswerFrame.trans ⟨rfl, List.prefix_refl _⟩ hframe⟩
  · rw [Tab.find_mapVals, hp, Option.map_some, if_pos rfl]
  · simp [Tab.find_mapVals, hk]

theorem partnerBreak_done (h : Accepted partnerBreakForm fn mb s) :
    let g := (s.sw.cmdOf fn mb 8).num 0x80 2
    let t := s.takeCommand partnerBreakForm fn mb
    Answered fn mb mbOk 0 [] s t ∧ SameMemory s t ∧ t.sw.mem.pair.find g = none
      ∧ ((s.sw.mem.pair.find g).any (fun p => !p.primary) = true → ∀ i < 512, (t.sw.mem.home.region.get (512 * g + i) {}).lost = true) := by
  intro g t
  obtain ⟨hmem, hnone, hteller, hep⟩ := State.endPair_frame (s.dequeued fn mb) g
  generalize hmine : (if (s.sw.mem.pair.find g).any (fun p => !p.primary) then (List.range 512).map (512 * g + ·) else []) = mine
  have hc : partnerBreakForm.commit (s.sw.cmdOf fn mb 8) (s.dequeued fn mb)
      = (.now [], ((s.dequeued fn mb).endPair g).each mine fun s i => s.onRegion i fun r => { r with lost := true }) := by
    rw [← hmine]
    rfl
  obtain ⟨hlteller, hlpair, hlmem, hlep⟩ := State.loseRegions_frame ((s.dequeued fn mb).endPair g) mine
  obtain ⟨hanswered, hframe⟩ := h.now hc (by rw [hlteller, hteller]; rfl) (by rw [hlteller, hteller]; rfl)
  have hhome : ((s.dequeued fn mb).endPair g).sw.mem.home = s.sw.mem.home := by rw [hmem]; rfl
  refine ⟨hanswered, SameMemory.trans (fun a => ⟨?_, ?_⟩) hframe.sameMemory, ?_, fun hsecondary i hi => ?_⟩
  · rw [hlmem, hhome]
  · rw [hlep, hep]
    rfl
  · rw [hframe.mem, hlpair]
    exact hnone
  · rw [hframe.mem]
    refine State.loseRegions_lost ?_
    rw [← hmine, if_pos hsecondary]
    exact List.mem_map.mpr ⟨i, List.mem_range.mpr hi, rfl⟩

end

/-- Settles O11: each command commits at once, but for a change of mask, which works on while the pool cache drains. -/
theorem poolSettingCommandsComplete : Obligations.PoolSettingCommandsComplete := by
  unfold Obligations.PoolSettingCommandsComplete
  intro fn mb s c e g
  refine ⟨fun h => ?_, fun h => ⟨_, rfl, ?_⟩, fun h => ⟨_, rfl, retireLimitSet_done h⟩, fun h => ⟨_, rfl, partnerSet_done h⟩,
    fun h => ⟨_, rfl, partnerPromote_done h⟩, fun h => ⟨_, rfl, partnerBreak_done h⟩⟩
  · obtain ⟨hsame, hnew⟩ := nearStoreSet_done h
    exact ⟨fun hm => ⟨_, rfl, hsame hm⟩, fun hm => ⟨_, rfl, hnew hm⟩⟩
  · obtain ⟨hanswered, hframe⟩ := h.now rfl rfl rfl
    exact ⟨hanswered, AnswerFrame.trans ⟨rfl, List.prefix_refl _⟩ hframe⟩

/-! ### Records (23 R535, R536) -/

/-- An occurrence of no host read's group merges only into a record of its kind. -/
theorem merges_kind {o : Occurrence} {now : Nat} {newest : Bool} {r : FaultRec} (hg : o.group = none) (h : merges o now newest r = true) : r.kind = o.kind := by
  simp [merges, hg] at h
  tauto

theorem mergeFirst_kind {o : Occurrence} {now : Nat} (hg : o.group = none) {faults : List FaultRec} :
    ∀ {newest : Bool} {l : List FaultRec}, mergeFirst o now newest faults = some l → ∃ r ∈ l, r.kind = o.kind := by
  induction faults with
  | nil => exact nofun
  | cons r faults ih =>
    intro newest l h
    rw [mergeFirst] at h
    split at h
    · next hm =>
      rw [← Option.some.inj h]
      exact ⟨_, List.mem_cons_self, merges_kind (r := r) hg hm⟩
    · obtain ⟨l', hl', rfl⟩ := Option.map_eq_some_iff.mp h
      obtain ⟨x, hx, hkind⟩ := ih hl'
      exact ⟨x, List.mem_cons_of_mem _ hx, hkind⟩

@[simp] theorem State.msix_tally (s : State) (fn vec : Nat) : (s.msix fn vec).sw.tally = s.sw.tally := by
  unfold State.msix
  dsimp only
  split
  · rfl
  · split <;> rfl

@[simp] theorem State.setEvent_tally (s : State) (b : Nat) : (s.setEvent b).sw.tally = s.sw.tally := by
  unfold State.setEvent
  split
  · rfl
  · exact State.msix_tally _ _ _

@[simp] theorem State.refreshAlert_tally (s : State) : s.refreshAlert.sw.tally = s.sw.tally := by
  unfold State.refreshAlert
  dsimp only
  split <;> rfl

/-- A record of the occurrence's kind stands in the Tally afterwards. -/
theorem State.record_stands (s : State) {o : Occurrence} (hg : o.group = none) : ∃ r ∈ (s.record o).sw.tally.faults, r.kind = o.kind := by
  unfold State.record
  dsimp only
  split
  · next l h => exact mergeFirst_kind hg h
  · next h =>
    refine ⟨{ seq := s.sw.tally.nextSeq, time := s.now .sw, kind := o.kind, severity := o.severity.getD (severity o.kind), domain := o.domain,
              index := o.index, partition := o.partition, status := o.status, detail := o.detail, group := o.group }, ?_, rfl⟩
    split <;> simp

/-! ### Mirror records (06 R166, R167; 18 R463, R464) -/

/-- Work of no port sends nothing. -/
theorem State.work_out {kind : Nat} (h : kind ≠ 0) (s : State) (index : Nat) : (s.work kind index).out = s.out := by
  unfold State.work
  dsimp only
  split
  · rfl
  · split
    · rfl
    · split
      · rfl
      · split
        · rfl
        · split <;> rfl

/-- A secondary that has stored the record next in order; the record of its region's last line ends the resilvering. -/
def Pair.storing (p : Pair) (r : MirrorRec) : Pair :=
  { p with stored := r.seq, state := if r.line = r.region * 0x800000 + 0x7FFFFF ∧ p.state = .resilvering then .paired else p.state }

/-- Replace a pairing. -/
def State.putPair (s : State) (g : Nat) (p : Pair) : State := s.onMem fun m => { m with pair := m.pair.put g p }

@[simp] theorem State.putPair_sw (s : State) (g : Nat) (p : Pair) : (s.putPair g p).sw = { s.sw with mem := { s.sw.mem with pair := s.sw.mem.pair.put g p } } := rfl
@[simp] theorem State.putPair_ep (s : State) (g : Nat) (p : Pair) : (s.putPair g p).ep = s.ep := rfl
@[simp] theorem State.putPair_out (s : State) (g : Nat) (p : Pair) : (s.putPair g p).out = s.out := rfl

/-- A line of the partner is stored as ciphertext and check bytes, and the pool cache holds it no more. -/
@[simp] theorem State.storeMirror_sw (s : State) (r : MirrorRec) : (s.storeMirror r).sw = { s.sw with mem := { s.sw.mem with
    cache := s.sw.mem.cache.filter fun c => c.line != r.line, home := s.sw.mem.home.storeCipher r.line r.data r.check } } := rfl
@[simp] theorem State.storeMirror_ep (s : State) (r : MirrorRec) : (s.storeMirror r).ep = s.ep := rfl
@[simp] theorem State.storeMirror_out (s : State) (r : MirrorRec) : (s.storeMirror r).out = s.out := rfl

/-- The record that is next in order, where it is the only one that waits. -/
theorem State.storeInOrder_only {s : State} {p : Pair} {r : MirrorRec} (hp : s.sw.mem.pair.find r.region = some { p with early := [r] })
    (hearly : p.early = []) (hseq : r.seq = p.stored + 1) : s.storeInOrder r.region 1 = (s.storeMirror r).putPair r.region (p.storing r) := by
  have hfound : ([r].find? fun x => x.seq == p.stored + 1) = some r := by simp [hseq]
  simp only [State.storeInOrder, hp, hfound]
  simp [State.putPair, Pair.storing, hseq, hearly]

section
variable {s : State} {p : Pair} {r : MirrorRec} {rid : Nat} (hp : s.sw.mem.pair.find r.region = some p)
include hp

/-- Records of another sender are discarded and counted. -/
theorem State.mirror_stranger (hrid : p.partner ≠ rid) : s.mirrorArrives rid r = s.count 0 cMirrorRefused ∧ s.mirrorAcked rid r = s.count 0 cMirrorRefused := by
  rw [State.mirrorArrives, State.mirrorAcked, hp]
  exact ⟨if_pos hrid, if_pos hrid⟩

/-- The record that is next in order, at a secondary that holds none back, is stored and acknowledged. -/
theorem State.mirrorArrives_next (hrid : p.partner = rid) (hprimary : p.primary = false) (hline : r.line / 0x800000 = r.region) (hearly : p.early = [])
    (hseq : r.seq = p.stored + 1) :
    s.mirrorArrives rid r = (((s.putPair r.region { p with early := [r] }).storeMirror r).putPair r.region (p.storing r)).emit
      (.mirror rid { kind := 2, region := r.region, source := s.sw.sys.homeId, seq := r.seq }) := by
  have hwaits : (if p.stored < r.seq then r :: p.early.filter (fun x => x.seq != r.seq) else p.early) = [r] := by
    rw [if_pos (by omega), hearly, List.filter_nil]
  have hfind (u : State) : (u.putPair r.region (p.storing r)).sw.mem.pair.find r.region = some (p.storing r) := Tab.find_put_self _ _ _
  have hstored := State.storeInOrder_only (s := s.putPair r.region { p with early := [r] }) (Tab.find_put_self _ _ _) hearly hseq
  unfold State.mirrorArrives
  rw [hp]
  dsimp only
  rw [if_neg (not_not_intro hrid), if_neg (by simp [hprimary, hline]), hwaits, ← State.putPair, List.length_singleton, hstored, hfind, hrid]
  rfl

/-- An ACK settles each LINE up to its SEQ, and lets go the responses that waited for it. -/
theorem State.mirrorAcked_settles (hrid : p.partner = rid) :
    s.mirrorAcked rid r = (s.putPair r.region { p with unacked := p.unacked.filter fun q => decide (r.seq < q) }).releaseHeld r.region r.seq := by
  rw [State.mirrorAcked, hp]
  exact if_neg (not_not_intro hrid)

end

/-- A line put into its device leaves the pairings. -/
@[simp] theorem State.settleLine_pair (s : State) (l : Nat) : (s.settleLine l).sw.mem.pair = s.sw.mem.pair := by
  rw [State.settleLine, State.onMem_sw]
  dsimp only
  split
  · rfl
  · unfold Mem.writeBack
    split <;> rfl

section
variable {s : State} {p : Pair} {g : Nat} (hp : s.sw.mem.pair.find g = some p)
include hp

/-- A LINE that is not acknowledged in time leaves the region SINGLE: every response held for a LINE sent goes. -/
theorem State.mirrorLate_single {seq : Nat} (hseq : seq ∈ p.unacked) :
    let last := p.unacked.foldl max 0
    let t := s.mirrorLate g seq
    t.sw.mem.pair.find g = some { p.released last with state := .single, unacked := [] } ∧ t.sw.mem.home = s.sw.mem.home ∧ t.ep = s.ep
      ∧ ∃ r ∈ t.sw.tally.faults, r.kind = fPartnerLost := by
  intro last t
  obtain ⟨hmem, -, hep⟩ := State.releaseHeld_frame hp last
  have ht : t = ((s.releaseHeld g last).onMem fun m => { m with pair := m.pair.upd g p fun p => { p with state := .single, unacked := [] } }).record
      { kind := fPartnerLost, domain := 8 } := by
    show s.mirrorLate g seq = _
    rw [State.mirrorLate, hp]
    exact if_neg (by simpa using hseq)
  obtain ⟨-, -, -, hrmem, -, -, -, -, -, -, -, -, -, hrep, -, -⟩ := (State.record_report ((s.releaseHeld g last).onMem
    fun m => { m with pair := m.pair.upd g p fun p => { p with state := .single, unacked := [] } }) { kind := fPartnerLost, domain := 8 }).fields
  rw [ht, hrmem, hrep, State.onMem_sw, State.onMem_ep, hmem, hep]
  refine ⟨?_, rfl, rfl, State.record_stands _ rfl⟩
  simp [Tab.upd, Tab.get]

/-- One copy of a resilver, where no channel of the region is fenced and reading the line finds no error: its LINE record, and the next line. -/
theorem State.resilver_copies (hprimary : p.primary = true) (hstate : p.state = .resilvering)  (hopen : s.sw.groupFenced g = false) (hread : s.lineRead (g * 0x800000 + p.cursor) = s) :
    s.resilver g = ((s.mirrorLine (g * 0x800000 + p.cursor)).2.onMem fun m => { m with pair := m.pair.upd g p fun p =>
      { p with cursor := p.cursor + 1, state := if p.cursor + 1 = 0x800000 then .paired else p.state } }) := by
  unfold State.resilver
  rw [hp]
  simp [State.ifThen, hprimary, hstate, hopen, hread]

/-- The LINE record of a line of the pairing: the line settles in its device, and the SEQ that is next waits for its acknowledgement. -/
theorem State.mirrorLine_sends {l : Nat} (hl : l / 0x800000 = g) :
    let t := (s.mirrorLine l).2
    t.sw.mem.pair = s.sw.mem.pair.put g { p with nextSeq := p.nextSeq + 1, unacked := p.unacked ++ [p.nextSeq] } ∧ t.ep = s.ep
      ∧ t.out = s.out ++ [.mirror p.partner { kind := 1, region := g, source := s.sw.sys.homeId, seq := p.nextSeq, line := l
                                              check := t.sw.mem.home.check l, data := t.sw.mem.home.cipher l }] := by
  intro t
  have hg : l * 128 / 0x40000000 = g := by omega
  have ht : t = ((s.settleLine l).putPair g { p with nextSeq := p.nextSeq + 1, unacked := p.unacked ++ [p.nextSeq] }).emit
      (.mirror p.partner { kind := 1, region := g, source := s.sw.sys.homeId, seq := p.nextSeq, line := l
                           check := (s.settleLine l).sw.mem.home.check l, data := (s.settleLine l).sw.mem.home.cipher l }) := by
    show (s.mirrorLine l).2 = _
    rw [State.mirrorLine, hg, hp]
    rfl
  rw [ht]
  exact ⟨congrArg (Tab.put · g _) (State.settleLine_pair s l), rfl, rfl⟩

end

/-- Settles O22: work of PCIe sends nothing, so that each row is its operation on the pairing that is found. -/
theorem mirrorCommandsComplete : Obligations.MirrorCommandsComplete := by
  unfold Obligations.MirrorCommandsComplete
  refine fun s p => ⟨fun rid r hlink hp => ?_, fun g hp => ⟨fun seq hseq => ⟨_, rfl, ?_⟩, fun hprimary hstate hcursor hopen => ?_⟩⟩
  · have hsent := State.work_sent s 5 0
    have hwp : (s.work 5 0).sw.mem.pair.find r.region = some p := by rw [hsent.mem, hp]
    have hout : (s.work 5 0).out = s.out := State.work_out (by decide) s 0
    have hline : exec (.mirrorLine rid r) s = .next ((s.work 5 0).mirrorArrives rid r) := congrArg Host.Outcome.next (if_pos hlink)
    have hack : exec (.mirrorAck rid r) s = .next ((s.work 5 0).mirrorAcked rid r) := congrArg Host.Outcome.next (if_pos hlink)
    obtain ⟨-, -, -, -, -, -, -, -, -, -, -, -, hep, -, -⟩ := hsent.fields
    rw [hline, hack]
    refine ⟨fun hrid => ?_, fun hrid hprimary hreg hearly hseq => ⟨_, hline, ?_⟩, fun hrid => ⟨_, hack, ?_⟩⟩
    · obtain ⟨harrives, hacked⟩ := State.mirror_stranger hwp hrid
      rw [harrives, hacked]
      exact ⟨rfl, rfl⟩
    · rw [State.mirrorArrives_next hwp hrid hprimary hreg hearly hseq]
      simp only [State.emit_sw, State.emit_ep, State.emit_out, State.putPair_sw, State.putPair_ep, State.putPair_out, State.storeMirror_sw,
        State.storeMirror_ep, State.storeMirror_out, hsent.mem, hsent.sys, hep, hout, Tab.find_put_self]
      exact ⟨trivial, rfl, fun g hg => by rw [Tab.find_put_ne _ _ _ _ hg, Tab.find_put_ne _ _ _ _ hg], trivial, trivial⟩
    · rw [State.mirrorAcked_settles hwp hrid]
      obtain ⟨hmem, -, hrep⟩ := State.releaseHeld_frame (s := (s.work 5 0).putPair r.region { p with unacked := p.unacked.filter fun q => decide (r.seq < q) })
        (Tab.find_put_self _ _ _) r.seq
      simp only [hmem, hrep, State.putPair_sw, State.putPair_ep, hsent.mem, hep, Tab.find_put_self]
      exact ⟨rfl, trivial, fun g hg => by rw [Tab.find_put_ne _ _ _ _ hg, Tab.find_put_ne _ _ _ _ hg], trivial⟩
  · obtain ⟨hfind, hhome, hep, hrec⟩ := State.mirrorLate_single hp hseq
    exact ⟨hfind, hhome, hep, hrec⟩
  · intro l hread
    have hfenced : s.sw.groupFenced g = false := by
      simp only [Switch.groupFenced, List.any_eq_false, List.mem_range]
      exact fun c hc => by simp [hopen c hc]
    obtain ⟨hpair, hep, hout⟩ := State.mirrorLine_sends hp (l := l) (by omega)
    refine ⟨_, congrArg Host.Outcome.next (State.resilver_copies hp hprimary hstate hfenced hread), ?_, hout, hep⟩
    rw [State.onMem_sw, hpair]
    simp [Tab.upd, Tab.get, hstate]


/-! ### What the switch's own work leaves standing: the AKG-8, links, key slots, and, where it is asked for, the pool cache -/

/-- The AKG-8, the links of the switch, the state and the key of every slot, and, where it is asked for, the pool cache. -/
def State.fixtures (cached : Bool) (s : State) : EndPoint × Tab Link × (Nat → SlotState × Key) × Option (List CacheLine) :=
  (s.ep, s.sw.link, (fun i => ((s.sw.getSlot i).state, (s.sw.getSlot i).key)), bif cached then some s.sw.mem.cache else none)

theorem State.fixtures_iff {c : Bool} {s t : State} : t.fixtures c = s.fixtures c ↔ t.ep = s.ep ∧ t.sw.link = s.sw.link
    ∧ (∀ i, (t.sw.getSlot i).state = (s.sw.getSlot i).state ∧ (t.sw.getSlot i).key = (s.sw.getSlot i).key) ∧ (c = true → t.sw.mem.cache = s.sw.mem.cache) := by
  cases c <;> simp [State.fixtures, funext_iff]

/-- A step that leaves the AKG-8, the links, the slots and the pool cache. -/
@[simp] theorem State.fixtures_ite (k : Bool) (c : Prop) [Decidable c] (s t : State) :
    (if c then s else t).fixtures k = if c then s.fixtures k else t.fixtures k := apply_ite _ _ _ _

@[simp] theorem State.each_fixtures {α : Type} {c : Bool} {g : State → α → State} (hg : ∀ u a, (g u a).fixtures c = u.fixtures c) (s : State) (l : List α) :
    (s.each l g).fixtures c = s.fixtures c :=
  State.each_keeps (P := fun u => u.fixtures c = s.fixtures c) rfl fun u hu a => (hg u a).trans hu

theorem SentFrame.fixtures {s t : State} (h : SentFrame s t) (c : Bool) : t.fixtures c = s.fixtures c := by
  rw [h.1]
  rfl

theorem ReportFrame.fixtures {s t : State} (h : ReportFrame s t) (c : Bool) : t.fixtures c = s.fixtures c := by
  rw [h.1]
  rfl

section
variable (c : Bool)

@[simp] theorem State.onEscrow_fixtures (s : State) (g : Escrow → Escrow) : (s.onEscrow g).fixtures c = s.fixtures c := rfl
@[simp] theorem State.onXlat_fixtures (s : State) (g : Xlat → Xlat) : (s.onXlat g).fixtures c = s.fixtures c := rfl
@[simp] theorem State.onHome_fixtures (s : State) (g : Home → Home) : (s.onHome g).fixtures c = s.fixtures c := rfl
@[simp] theorem State.onMem_fixtures (s : State) (g : Mem → Mem) : (s.onMem g).fixtures false = s.fixtures false := rfl
@[simp] theorem State.putSynd_fixtures (s : State) (i : Nat) (y : Synd) : (s.putSynd i y).fixtures c = s.fixtures c := rfl
@[simp] theorem State.putEngine_fixtures (s : State) (e : Nat) (v : Engine) : (s.putEngine e v).fixtures c = s.fixtures c := rfl
@[simp] theorem State.putPart_fixtures (s : State) (p : Nat) (v : Part) : (s.putPart p v).fixtures c = s.fixtures c := rfl
@[simp] theorem State.putLedger_fixtures (s : State) (p : Nat) (l : Ledger) : (s.putLedger p l).fixtures c = s.fixtures c := rfl
@[simp] theorem State.emit_fixtures (s : State) (o : Out) : (s.emit o).fixtures c = s.fixtures c := rfl
@[simp] theorem State.free_fixtures (s : State) : s.free.2.fixtures c = s.fixtures c := rfl
@[simp] theorem State.count_fixtures (s : State) (block i : Nat) : (s.count block i).fixtures c = s.fixtures c := rfl
@[simp] theorem State.takeWaiting_fixtures (s : State) (sel : Nat → Frame → Bool) : (s.takeWaiting sel).2.fixtures c = s.fixtures c := rfl
@[simp] theorem State.cutQueued_fixtures (s : State) (key : Nat) (sel : Frame → Bool) : (s.cutQueued key sel).2.fixtures c = s.fixtures c := rfl
@[simp] theorem State.work_fixtures (s : State) (kind i : Nat) : (s.work kind i).fixtures c = s.fixtures c := (State.work_sent s kind i).fixtures c
@[simp] theorem State.freeCells_fixtures (s : State) (b : Buffered) : (s.freeCells b).fixtures c = s.fixtures c := (State.freeCells_sent s b).fixtures c
@[simp] theorem State.swSend_fixtures (s : State) (src : Nat) (f : Frame) : (s.swSend src f).fixtures c = s.fixtures c := (State.swSend_sent s src f).fixtures c
@[simp] theorem State.swSendPort_fixtures (s : State) (src p : Nat) (f : Frame) : (s.swSendPort src p f).fixtures c = s.fixtures c :=
  (State.swSendPort_sent s src p f).fixtures c
@[simp] theorem State.collSend_fixtures (s : State) (f : Frame) : (s.collSend f).fixtures c = s.fixtures c := State.swSend_fixtures c s _ f
@[simp] theorem State.record_fixtures (s : State) (o : Occurrence) : (s.record o).fixtures c = s.fixtures c := (State.record_report s o).fixtures c
@[simp] theorem State.noteHigh_fixtures (s : State) (p : Nat) : (s.noteHigh p).fixtures c = s.fixtures c := (State.noteHigh_report s p).fixtures c
@[simp] theorem State.ledgerAdd_fixtures (s : State) (p : Nat) (e : Entry) : (s.ledgerAdd p e).fixtures c = s.fixtures c :=
  (State.ledgerAdd_report s p e).fixtures c
@[simp] theorem State.finishWork_fixtures (s : State) (fn mb status : Nat) (rsp : List Byte) : (s.finishWork fn mb status rsp).fixtures c = s.fixtures c := rfl
@[simp] theorem State.onActive_fixtures (s : State) (fn mb : Nat) (g : Active → Active) : (s.onActive fn mb g).fixtures c = s.fixtures c := rfl

/-- A slot's counts change. -/
theorem State.putSlot_fixtures {s : State} {i : Nat} {v : KeySlot} (hs : v.state = (s.sw.getSlot i).state) (hk : v.key = (s.sw.getSlot i).key) :
    (s.putSlot i v).fixtures c = s.fixtures c := by
  refine State.fixtures_iff.mpr ⟨rfl, rfl, fun j => ?_, fun _ => rfl⟩
  by_cases hj : j = i
  · subst hj
    simp [Switch.getSlot, hs, hk]
  · simp [Switch.getSlot, Tab.get_put_ne _ _ _ _ _ hj]

@[simp] theorem State.uncount_fixtures (s : State) (f : Frame) : (s.uncount f).fixtures c = s.fixtures c := by
  unfold State.uncount
  dsimp only
  split
  · exact State.putSlot_fixtures c rfl rfl
  · rfl

/-! ### Frames that are taken back -/

@[simp] theorem State.takeQueued_fixtures (s : State) (key : Nat) (sel : Frame → Bool) : (s.takeQueued key sel).2.fixtures c = s.fixtures c := by
  simp [State.takeQueued]

theorem State.takeUnsent_fixtures {s t : State} {sel : Frame → Bool} (h : s.takeUnsent sel = some t) : t.fixtures c = s.fixtures c := by
  unfold State.takeUnsent at h
  split at h
  · rw [← Option.some.inj h, State.takeWaiting_fixtures]
  · obtain ⟨q, -, rfl⟩ := Option.map_eq_some_iff.mp h
    exact State.takeQueued_fixtures c s q.1 sel

@[simp] theorem State.withdrawFlight_fixtures (s : State) (x : Flight) : (s.withdrawFlight x).fixtures c = s.fixtures c := by
  unfold State.withdrawFlight
  cases h : s.takeUnsent (x.frameIs s.sw.sys.homeId) with
  | none => rfl
  | some t => exact State.takeUnsent_fixtures c h

@[simp] theorem State.dropFlights_fixtures (s : State) (e : Nat) : (s.dropFlights e).fixtures c = s.fixtures c := by
  simp [State.dropFlights]

/-! ### Collectives -/

@[simp] theorem State.putEpoch_fixtures (s : State) (i : Nat) (e : Epoch) : (s.putEpoch i e).fixtures c = s.fixtures c := by
  unfold State.putEpoch
  split <;> simp

@[simp] theorem State.closeEpoch_fixtures (s : State) (synd number : Nat) : (s.closeEpoch synd number).fixtures c = s.fixtures c := by
  unfold State.closeEpoch
  split <;> simp

@[simp] theorem State.sendColl_fixtures (s : State) (y : Synd) (e : Epoch) (synd rank typ attempt check chunk status : Nat) :
    (s.sendColl y e synd rank typ attempt check chunk status).fixtures c = s.fixtures c := by
  unfold State.sendColl
  split <;> simp

@[simp] theorem State.abortEpoch_fixtures (s : State) (synd number status : Nat) : (s.abortEpoch synd number status).fixtures c = s.fixtures c := by
  unfold State.abortEpoch
  split
  · rfl
  · split <;> simp [State.sendCollSwitches]

@[simp] theorem State.cutOff_fixtures (s : State) (p : Nat) : (s.cutOff p).fixtures c = s.fixtures c := by
  unfold State.cutOff
  exact State.each_fixtures (fun u i => State.each_fixtures (fun v e => by simp) u _) s _

@[simp] theorem State.abortFrom_fixtures (s : State) (synd number status : Nat) : (s.abortFrom synd number status).fixtures c = s.fixtures c := by
  unfold State.abortFrom
  split
  · rfl
  · split
    · simp
    · split <;> simp

@[simp] theorem State.loseMember_fixtures (s : State) (h : Nat) (agent : Option Nat) : (s.loseMember h agent).fixtures c = s.fixtures c := by
  unfold State.loseMember
  refine State.each_fixtures (fun u i => ?_) s _
  split <;> simp [State.lossNotice]

@[simp] theorem State.collFail_fixtures (s : State) (synd number chunk : Nat) : (s.collFail synd number chunk).fixtures c = s.fixtures c := by
  unfold State.collFail
  dsimp only
  split
  · simp
  · split <;> simp

@[simp] theorem State.computeNow_fixtures (s : State) (y : Synd) (e : Epoch) (synd chunk : Nat) : (s.computeNow y e synd chunk).fixtures c = s.fixtures c := by
  have hresult (u : State) (e : Epoch) (attempt : Nat) (o : Operand) (all : List (Nat × Operand)) :
      (u.sendResult y e synd chunk attempt o all).fixtures c = u.fixtures c := by
    unfold State.sendResult
    refine State.each_fixtures (fun v r => ?_) u _
    split <;> simp
  unfold State.computeNow
  dsimp only
  split <;> simp [State.sendPartial, hresult]

@[simp] theorem State.collRun_fixtures (s : State) (synd number chunk n j : Nat) : (s.collRun synd number chunk n j).fixtures c = s.fixtures c :=
  (State.each_fixtures (fun u _ => State.count_fixtures c u _ 0) _ _).trans (State.onEscrow_fixtures c s _)

@[simp] theorem State.computeChunk_fixtures (s : State) (synd number chunk : Nat) : (s.computeChunk synd number chunk).fixtures c = s.fixtures c := by
  unfold State.computeChunk
  split
  · rfl
  · split
    · rfl
    · dsimp only
      split
      · rfl
      · split
        · simp
        · split <;> simp [State.collWait]

@[simp] theorem State.collDispatch_fixtures (s : State) : s.collDispatch.fixtures c = s.fixtures c := by
  simp [State.collDispatch]

/-! ### Translations, tasks and their requests -/

@[simp] theorem State.lookup_fixtures (s : State) (e ctx partition cva : Nat) : (s.lookup e ctx partition cva).2.fixtures c = s.fixtures c := by
  unfold State.lookup
  dsimp only
  split
  · rfl
  · split <;> rfl

@[simp] theorem State.xlatFault_fixtures (s : State) (kind ctx seg partition : Nat) (group : Option Nat) :
    (s.xlatFault kind ctx seg partition group).fixtures c = s.fixtures c := by
  simp [State.xlatFault]

@[simp] theorem State.readFault_fixtures (s : State) (ctx partition : Nat) : (s.readFault ctx partition).fixtures c = s.fixtures c := by
  simp [State.readFault]

@[simp] theorem State.startRead_fixtures (s : State) (ctx addr : Nat) (m : Miss) : (s.startRead ctx addr m).fixtures c = s.fixtures c := by
  unfold State.startRead
  dsimp only
  split
  · rfl
  · split <;> simp

@[simp] theorem State.engineMiss_fixtures (s : State) (who ctx partition cva : Nat) : (s.engineMiss who ctx partition cva).2.fixtures c = s.fixtures c := by
  unfold State.engineMiss
  split
  · simp
  · split
    · simp
    · split <;> simp

@[simp] theorem State.checkRange_fixtures (e ctx partition : Nat) (write atomic : Bool) (fuel : Nat) :
    ∀ (s : State) (cva len : Nat), (s.checkRange e ctx partition write atomic fuel cva len).2.fixtures c = s.fixtures c := by
  induction fuel with
  | zero => exact fun s _ _ => rfl
  | succ n ih =>
    intro s cva len
    have hlook := State.lookup_fixtures c s e ctx partition cva
    unfold State.checkRange
    split
    · rfl
    · split
      · rfl
      · split
        · next u hu => simpa [hu] using hlook
        · next h u hu =>
          rw [hu] at hlook
          split
          · exact hlook
          · exact (ih _ _ _).trans hlook

@[simp] theorem State.checkRanges_fixtures (e ctx partition : Nat) (rs : List Range) :
    ∀ s : State, (s.checkRanges e ctx partition rs).2.fixtures c = s.fixtures c := by
  induction rs with
  | nil => exact fun s => rfl
  | cons r rs ih =>
    intro s
    have hrange := State.checkRange_fixtures c e ctx partition r.write r.atomic 34 s r.cva r.len
    unfold State.checkRanges
    split
    · next u hu =>
      rw [hu] at hrange
      exact (ih u).trans hrange
    · exact hrange

@[simp] theorem State.onTask_fixtures (s : State) (slot t : Nat) (g : Task → Task) : (s.onTask slot t g).fixtures c = s.fixtures c := by
  unfold State.onTask
  split <;> simp [State.putGraph]

@[simp] theorem State.releaseTask_fixtures (s : State) (slot t : Nat) : (s.releaseTask slot t).fixtures c = s.fixtures c := by
  unfold State.releaseTask
  split
  · rfl
  · split <;> simp

@[simp] theorem State.endTask_fixtures (s : State) (slot t status : Nat) : (s.endTask slot t status).fixtures c = s.fixtures c := by
  simp [State.endTask]

@[simp] theorem State.answerSelf_fixtures (s : State) (slot t i e : Nat) (a : Access) (st : Nat) : (s.answerSelf slot t i e a st).fixtures c = s.fixtures c := by
  cases ha : a.kind <;> simp [State.answerSelf, ha]

@[simp] theorem State.sendRequest_fixtures (s : State) (src port : Nat) (f : Frame) (owner : Owner) (engine cva : Nat) (h : Held) :
    (s.sendRequest src port f owner engine cva h).fixtures c = s.fixtures c := by
  have hnow (u : State) (x : Flight) (tag : Nat) : (u.sendNow x tag).fixtures c = u.fixtures c := by
    unfold State.sendNow
    rw [State.swSend_fixtures]
    rfl
  unfold State.sendRequest State.sendFlight
  dsimp only
  split <;> simp [hnow]

@[simp] theorem State.issue_fixtures (slot t e ctx partition cls : Nat) (accs : List Access) :
    ∀ (s : State) (i : Nat), (s.issue slot t e ctx partition cls i accs).fixtures c = s.fixtures c := by
  induction accs with
  | nil => exact fun s _ => rfl
  | cons a rest ih =>
    intro s i
    have hlook := State.lookup_fixtures c s e ctx partition a.cva
    unfold State.issue
    refine (ih _ _).trans ?_
    split
    · next u hu =>
      rw [hu] at hlook
      simpa using hlook
    · next h u hu =>
      rw [hu] at hlook
      refine Eq.trans ?_ hlook
      dsimp only
      split
      · simp
      · split
        · simp
        · split <;> simp

@[simp] theorem State.checkFailed_fixtures (s : State) (slot t e ctx partition : Nat) (k : Checked) :
    (s.checkFailed slot t e ctx partition k).fixtures c = s.fixtures c := by
  unfold State.checkFailed
  split
  · rfl
  · simp
  · simp
  · next cva =>
    have hmiss := State.engineMiss_fixtures c s e ctx partition cva
    split
    · next u hu =>
      rw [hu] at hmiss
      simpa using hmiss
    · next st u hu =>
      rw [hu] at hmiss
      simpa using hmiss

@[simp] theorem State.runProg_fixtures (slot t e ctx partition cls : Nat) (p : Prog) :
    ∀ s : State, (s.runProg slot t e ctx partition cls p).fixtures c = s.fixtures c := by
  induction p with
  | done st => exact fun s => by simp [State.runProg]
  | check rs next ih =>
    intro s
    have hcheck := State.checkRanges_fixtures c e ctx partition rs s
    unfold State.runProg
    split
    · next u hu =>
      rw [hu] at hcheck
      simpa [ih] using hcheck
    · next k u _ hu =>
      rw [hu] at hcheck
      simpa using hcheck
  | ask accs next ih =>
    intro s
    have hcheck := State.checkRanges_fixtures c e ctx partition (accRanges accs) s
    unfold State.runProg
    split
    · next u hu =>
      rw [hu] at hcheck
      dsimp only
      split
      · simpa using hcheck
      · split
        · simpa using hcheck
        · simpa [ih] using hcheck
    · next k u _ hu =>
      rw [hu] at hcheck
      simpa using hcheck

@[simp] theorem State.resumeTask_fixtures (s : State) (slot t : Nat) : (s.resumeTask slot t).fixtures c = s.fixtures c := by
  unfold State.resumeTask
  split
  · rfl
  · split
    · rfl
    · split
      · rfl
      · simp

@[simp] theorem State.startTask_fixtures (s : State) (slot t e : Nat) : (s.startTask slot t e).fixtures c = s.fixtures c := by
  simp [State.startTask]

@[simp] theorem State.dispatch_fixtures (s : State) : s.dispatch.fixtures c = s.fixtures c := by
  unfold State.dispatch
  refine (State.each_fixtures (fun u x => ?_) _ _).trans (State.collDispatch_fixtures c s)
  obtain ⟨slot, t, d, part⟩ := x
  dsimp only
  split
  · simp
  · split
    · split <;> simp
    · simp

/-! ### Ends of tasks and graphs -/

@[simp] theorem State.putGraph_fixtures (s : State) (slot : Nat) (g : Graph) : (s.putGraph slot g).fixtures c = s.fixtures c := by
  simp [State.putGraph]

@[simp] theorem State.readyUp_fixtures (s : State) (slot : Nat) : (s.readyUp slot).fixtures c = s.fixtures c := by
  unfold State.readyUp
  split <;> simp

@[simp] theorem State.failTask_fixtures (s : State) (slot t status : Nat) : (s.failTask slot t status).fixtures c = s.fixtures c := by
  unfold State.failTask
  split <;> simp

@[simp] theorem State.cancelTasks_fixtures (s : State) (slot : Nat) (p : Nat → Bool) : (s.cancelTasks slot p).fixtures c = s.fixtures c := by
  unfold State.cancelTasks
  split <;> simp

@[simp] theorem State.settleTask_fixtures (s : State) (slot t status : Nat) (fencedEngine : Bool) :
    (s.settleTask slot t status fencedEngine).fixtures c = s.fixtures c := by
  unfold State.settleTask
  split <;> simp

@[simp] theorem State.writeDone_fixtures (s : State) (slot : Nat) (g : Graph) : (s.writeDone slot g).fixtures c = s.fixtures c := by
  unfold State.writeDone
  extract_lets e lost
  have hlost (u : State) : (lost u).fixtures c = u.fixtures c := by simp [lost, State.doneLost, State.freeSlot]
  have hcheck := State.checkRange_fixtures c e g.ctx g.partition true false 34 s g.doneAddr 16
  clear_value lost
  split
  · next u hu =>
    rw [hu] at hcheck
    exact Eq.trans (by simp [hlost]) hcheck
  · next n seg u hu =>
    rw [hu] at hcheck
    simpa [hlost] using hcheck
  · next cva u hu =>
    rw [hu] at hcheck
    have hmiss := (State.engineMiss_fixtures c u (256 + slot) g.ctx g.partition cva).trans hcheck
    split
    · next v hv =>
      rw [hv] at hmiss
      simpa [State.putGraph] using hmiss
    · next st v hv =>
      rw [hv] at hmiss
      simpa [hlost] using hmiss
  · next u hu =>
    rw [hu] at hcheck
    simpa [hlost] using hcheck

@[simp] theorem State.endGraph_fixtures (s : State) (slot : Nat) : (s.endGraph slot).fixtures c = s.fixtures c := by
  unfold State.endGraph
  split
  · rfl
  · simp [State.freeSlot, State.doneLost]

@[simp] theorem State.emptyMbox_fixtures (s : State) (m result task tag : Nat) : (s.emptyMbox m result task tag).fixtures c = s.fixtures c :=
  State.onEscrow_fixtures c s _

@[simp] theorem State.admitAged_fixtures (s : State) (x : Submission) : (s.admitAged x).fixtures c = s.fixtures c := by
  simp [State.admitAged, State.escrowRespond]

@[simp] theorem State.takeSlot_fixtures (s : State) (slot : Nat) (g : Graph) (f : Frame) : (s.takeSlot slot g f).fixtures c = s.fixtures c := by
  simp [State.takeSlot, State.admitGraph, State.putMbox, State.escrowRespond]

@[simp] theorem State.admitWaiting_fixtures (s : State) : s.admitWaiting.fixtures c = s.fixtures c := by
  unfold State.admitWaiting
  refine State.each_fixtures (fun u x => ?_) s _
  split
  · rfl
  · simp

@[simp] theorem State.retryMisses_fixtures (s : State) : s.retryMisses.fixtures c = s.fixtures c := by
  unfold State.retryMisses
  refine (State.each_fixtures (fun u g => by simp) _ _).trans (State.each_fixtures (fun u e => ?_) _ _)
  split <;> simp

@[simp] theorem State.escrowRound_fixtures (s : State) : s.escrowRound.fixtures c = s.fixtures c := by
  unfold State.escrowRound
  dsimp only
  rw [State.admitWaiting_fixtures, State.each_fixtures (fun u g => State.endGraph_fixtures c u g), State.retryMisses_fixtures, State.onEscrow_fixtures]
  refine State.each_fixtures (fun u x => ?_) _ _
  split
  · simp
  · split <;> simp

theorem State.escrowRounds_fixtures (n : Nat) : ∀ s : State, (State.escrowRounds n s).fixtures c = s.fixtures c := by
  induction n with
  | zero => exact State.escrowRound_fixtures c
  | succ n ih =>
    intro s
    unfold State.escrowRounds
    simp [ih]

@[simp] theorem State.escrowSettle_fixtures (s : State) : s.escrowSettle.fixtures c = s.fixtures c :=
  (State.dispatch_fixtures c _).trans (State.escrowRounds_fixtures c _ s)

@[simp] theorem State.stopEngine_fixtures (s : State) (e : Nat) : (s.stopEngine e).fixtures c = s.fixtures c := by
  unfold State.stopEngine
  dsimp only
  split <;> simp

end

/-! ### The home's own work leaves the AKG-8, the links and what the slots are -/

@[simp] theorem State.onLine_fixtures (s : State) (l : Nat) (g : LineMeta → LineMeta) : (s.onLine l g).fixtures false = s.fixtures false := rfl
@[simp] theorem State.putEntry_fixtures (s : State) (e : DirEntry) : (s.putEntry e).fixtures false = s.fixtures false := rfl
@[simp] theorem State.putBusy_fixtures (s : State) (b : Busy) : (s.putBusy b).fixtures false = s.fixtures false := rfl
@[simp] theorem State.endBusy_fixtures (s : State) (l : Nat) : (s.endBusy l).fixtures false = s.fixtures false := rfl
@[simp] theorem State.retryFirst_fixtures (s : State) (pos : Nat) (f : Frame) : (s.retryFirst pos f).fixtures false = s.fixtures false := rfl

@[simp] theorem State.freeEntry_fixtures (s : State) (l : Nat) : (s.freeEntry l).fixtures false = s.fixtures false := by
  unfold State.freeEntry
  split
  · rfl
  · dsimp only
    split
    · exact State.putSlot_fixtures false rfl rfl
    · rfl

@[simp] theorem State.loseLine_fixtures (s : State) (l : Nat) : (s.loseLine l).fixtures false = s.fixtures false := by
  simp [State.loseLine]

@[simp] theorem State.dropHolder_fixtures (s : State) (l h : Nat) : (s.dropHolder l h).fixtures false = s.fixtures false := by
  unfold State.dropHolder
  split
  · rfl
  · split <;> simp

@[simp] theorem State.homeRespond_fixtures (s : State) (f : Frame) (status : Nat) (data : List Byte) (cache : Nat) :
    (s.homeRespond f status data cache).fixtures false = s.fixtures false :=
  ((State.homeRespond_sent s f status data cache).fixtures false).trans (State.uncount_fixtures false s f)

@[simp] theorem State.homeAfterMirror_fixtures (s : State) (f : Frame) (pos : Nat) : (s.homeAfterMirror f pos).fixtures false = s.fixtures false := by
  unfold State.homeAfterMirror
  split
  · split <;> simp
  · simp

@[simp] theorem State.backInvLine_fixtures (s : State) (l : Nat) : (s.backInvLine l).fixtures false = s.fixtures false := by
  unfold State.backInvLine
  split <;> simp [State.sendBackInv]

@[simp] theorem State.takeBackDue_fixtures (s : State) : s.takeBackDue.fixtures false = s.fixtures false := by
  unfold State.takeBackDue
  refine State.each_fixtures (fun u e => ?_) s _
  dsimp only
  rw [State.backInvLine_fixtures]
  split
  · exact State.putSlot_fixtures false rfl rfl
  · rfl

@[simp] theorem State.fenceChannel_fixtures (s : State) (c : Nat) : (s.fenceChannel c).fixtures false = s.fixtures false := by
  simp [State.fenceChannel, State.fenceChannelBase]

@[simp] theorem State.retirePage_fixtures (s : State) (c page : Nat) : (s.retirePage c page).fixtures false = s.fixtures false := by
  simp [State.retirePage]

@[simp] theorem State.eccSeen_fixtures (s : State) (l : Nat) : (s.eccSeen l).fixtures false = s.fixtures false := by
  simp [State.eccSeen]

@[simp] theorem State.correctLine_fixtures (s : State) (l : Nat) : (s.correctLine l).fixtures false = s.fixtures false := by
  unfold State.correctLine
  split
  · rfl
  · split <;> simp [State.eccCorrected]

@[simp] theorem State.fetchLine_fixtures (s : State) (l slot : Nat) : (s.fetchLine l slot).2.fixtures false = s.fixtures false := by
  have hread (u : State) : (u.readLine l slot).2.fixtures false = u.fixtures false := by
    unfold State.readLine
    dsimp only
    split
    · simp
    · split <;> simp
  simp [State.fetchLine, hread]

/-! ### Requests that are performed -/

@[simp] theorem State.readRange_fixtures (s : State) (f : Frame) : (s.readRange f).2.fixtures false = s.fixtures false := by
  unfold State.readRange
  split
  · refine List.foldlRecOn (motive := fun a : Option (List Byte) × State => a.2.fixtures false = s.fixtures false) f.lines _ rfl fun a ha l _ => ?_
    have hline := (State.fetchLine_fixtures a.2 l (a.2.sw.slotAt (l * 128) f.keySlot)).trans ha
    dsimp only
    split
    · exact ha
    · split
      · next u hu =>
        rw [hu] at hline
        simpa using hline
      · next d u hu =>
        rw [hu] at hline
        exact hline
  · split <;> rfl

@[simp] theorem State.partsReadable_fixtures (s : State) (f : Frame) : (s.partsReadable f).2.fixtures false = s.fixtures false := by
  unfold State.partsReadable
  split
  · refine List.foldlRecOn (motive := fun a : Bool × State => a.2.fixtures false = s.fixtures false) f.lines _ rfl fun a ha l _ => ?_
    have hline := (State.fetchLine_fixtures a.2 l (a.2.sw.slotAt (l * 128) f.keySlot)).trans ha
    split
    · exact ha
    · split
      · next u hu =>
        rw [hu] at hline
        simpa using hline
      · next d u hu =>
        rw [hu] at hline
        exact hline
  · rfl

@[simp] theorem State.writeLine_fixtures (s : State) (l slot : Nat) (data : List Byte) : (s.writeLine l slot data).fixtures false = s.fixtures false := by
  simp [State.writeLine]

@[simp] theorem State.writeRange_fixtures (s : State) (f : Frame) (data : List Byte) : (s.writeRange f data).fixtures false = s.fixtures false := by
  unfold State.writeRange
  split
  · refine State.each_fixtures (fun u l => ?_) s _
    have hline := State.fetchLine_fixtures u l (u.sw.slotAt (l * 128) f.keySlot)
    dsimp only
    split
    · simp
    · split
      · next v hv =>
        rw [hv] at hline
        exact hline
      · next d v hv =>
        rw [hv] at hline
        simpa using hline
  · rfl

@[simp] theorem State.mirrorLines_fixtures (s : State) (ls : List Nat) : (s.mirrorLines ls).2.fixtures false = s.fixtures false := by
  refine List.foldlRecOn (motive := fun a : Option Nat × State => a.2.fixtures false = s.fixtures false) ls _ rfl fun a ha l _ => ?_
  dsimp only [State.mirrorLine]
  split
  · split
    · refine Eq.trans ?_ ha
      split <;> rfl
    · exact ha
  · exact ha

@[simp] theorem State.homeFinish_fixtures (s : State) (f : Frame) (pos : Nat) (data : List Byte) (lines : List Nat) :
    (s.homeFinish f pos data lines).fixtures false = s.fixtures false := by
  unfold State.homeFinish
  dsimp only
  split <;> simp

@[simp] theorem State.performRead_fixtures (s : State) (f : Frame) (cache : Nat) : (s.performRead f cache).fixtures false = s.fixtures false := by
  have hread := State.readRange_fixtures s f
  unfold State.performRead
  split
  · next u hu =>
    rw [hu] at hread
    simpa using hread
  · next d u hu =>
    rw [hu] at hread
    simpa using hread

@[simp] theorem State.performWrite_fixtures (s : State) (f : Frame) (pos : Nat) : (s.performWrite f pos).fixtures false = s.fixtures false := by
  have hparts := State.partsReadable_fixtures s f
  unfold State.performWrite
  split
  · next u hu =>
    rw [hu] at hparts
    simpa using hparts
  · next u hu =>
    rw [hu] at hparts
    simpa [State.logInput] using hparts

@[simp] theorem State.performAtomic_fixtures (s : State) (f : Frame) (pos : Nat) : (s.performAtomic f pos).fixtures false = s.fixtures false := by
  have hread := State.readRange_fixtures s { f with length := atomicSize (aopOf f.opx) f.length }
  unfold State.performAtomic
  dsimp only
  split
  · next u hu =>
    rw [hu] at hread
    simpa using hread
  · next d u hu =>
    rw [hu] at hread
    split <;> simpa [State.logTicker] using hread

@[simp] theorem State.performDeposit_fixtures (s : State) (f : Frame) (pos : Nat) : (s.performDeposit f pos).fixtures false = s.fixtures false := by
  simp [State.performDeposit]

@[simp] theorem State.ask_fixtures (s : State) (pos : Nat) (f : Frame) (e : DirEntry) (targets : List (Nat × Nat)) (b : Busy) :
    (s.ask pos f e targets b).fixtures false = s.fixtures false := by
  simp [State.ask, State.sendSnoop]

@[simp] theorem State.grant_fixtures (s : State) (pos : Nat) (f : Frame) (cache : Nat) (next : DirEntry) :
    (s.grant pos f cache next).fixtures false = s.fixtures false := by
  have hread := State.readRange_fixtures s f
  unfold State.grant
  dsimp only
  split
  · simp
  · split
    · next u hu =>
      rw [hu] at hread
      simpa using hread
    · next d u hu =>
      rw [hu] at hread
      simpa using hread

@[simp] theorem State.serveGrant_fixtures (s : State) (pos : Nat) (f : Frame) : (s.serveGrant pos f).fixtures false = s.fixtures false := by
  unfold State.serveGrant
  dsimp only
  split
  · simp
  · next e _ =>
    cases e.state <;> cases e.sharers <;> simp

@[simp] theorem State.serveOpen_fixtures (s : State) (pos : Nat) (f : Frame) : (s.serveOpen pos f).fixtures false = s.fixtures false := by
  unfold State.serveOpen
  dsimp only
  split
  · simp
  · split <;> simp

@[simp] theorem State.refuse_fixtures (s : State) (f : Frame) (r : Nat × Bool) : (s.refuse f r).fixtures false = s.fixtures false := by
  have hrecord (o : Occurrence) : (if r.2 then s.record o else s).fixtures false = s.fixtures false := by simp
  unfold State.refuse
  dsimp only
  rw [State.homeRespond_fixtures, ← hrecord]
  generalize (if r.2 then s.record _ else s) = u
  split
  · split
    · exact State.putSlot_fixtures (s := u.count (blkPart f.partition) 0) false rfl rfl
    · rfl
  · rfl

@[simp] theorem State.serve_fixtures (s : State) (pos : Nat) (f : Frame) : (s.serve pos f).fixtures false = s.fixtures false := by
  unfold State.serve
  split <;> simp

@[simp] theorem State.advance_fixtures (s : State) (l : Nat) : (s.advance l).fixtures false = s.fixtures false := by
  unfold State.advance
  split
  · rfl
  · next b _ =>
    cases hs : b.stage <;> cases hn : b.next <;> simp

/-! ### A lost holder -/

@[simp] theorem State.noteAnswer_fixtures (s : State) (l h result : Nat) : (s.noteAnswer l h result).fixtures false = s.fixtures false := by
  unfold State.noteAnswer
  split
  · rfl
  · split
    · rfl
    · cases he : s.sw.entry l <;> simp

@[simp] theorem State.loseBusy_fixtures (s : State) (h : Nat) (b : Busy) : (s.loseBusy h b).fixtures false = s.fixtures false := by
  unfold State.loseBusy
  extract_lets l b u v w
  have hv : v.fixtures false = s.fixtures false := by
    show State.fixtures false (match b.stage with | .ack => _ | .forward => _ | .fill _ => _ | .grant _ => _ | _ => _) = _
    cases b.stage <;> simp [u]
  clear_value v
  split
  · exact hv
  · simp [w, hv]

@[simp] theorem State.loseEntry_fixtures (s : State) (h l : Nat) : (s.loseEntry h l).fixtures false = s.fixtures false := by
  unfold State.loseEntry
  split
  · rfl
  · split
    · split
      · simp
      · split <;> simp
    · simp

@[simp] theorem State.loseHolder_fixtures (s : State) (h : Nat) : (s.loseHolder h).fixtures false = s.fixtures false := by
  simp [State.loseHolder]

/-! ### Regions, invalidations and partitions that go on -/

@[simp] theorem State.regionCheck_fixtures (s : State) : s.regionCheck.fixtures false = s.fixtures false := by
  unfold State.regionCheck
  dsimp only
  refine (State.each_fixtures (fun u j => ?_) _ _).trans (Eq.trans (State.each_fixtures (fun u j => ?_) _ _) (State.takeBackDue_fixtures s))
  case refine_2 => rfl
  split
  · rfl
  · split
    · split <;> rfl
    · rfl

@[simp] theorem State.regionGone_fixtures (s : State) : s.regionGone.fixtures false = s.fixtures false := by
  unfold State.regionGone
  rw [State.regionCheck_fixtures, State.onHome_fixtures]
  exact State.each_fixtures (fun u j => State.onActive_fixtures false u _ _ _) s _

@[simp] theorem State.invalPoll_fixtures (c : Bool) (s : State) : s.invalPoll.fixtures c = s.fixtures c := by
  refine State.each_fixtures (fun u x => ?_) s _
  unfold State.invalCheck
  extract_lets live y put v z
  have hput (w : State) (x : Inval) : (put w x).fixtures c = w.fixtures c := rfl
  have hv : v.fixtures c = u.fixtures c := State.each_fixtures (fun w a => State.swSend_fixtures c w _ _) u _
  clear_value put v
  split
  · exact hput u y
  · refine Eq.trans ?_ hv
    split <;> simp [hput]

@[simp] theorem State.revoteAll_fixtures (c : Bool) (s : State) : s.revoteAll.fixtures c = s.fixtures c := by
  have hdomain (u : State) (kind index : Nat) (g : Domain → Domain) : (u.onDomain kind index g).fixtures c = u.fixtures c := rfl
  refine State.each_fixtures (fun u d => ?_) s _
  simp [State.revote, State.beginExit, hdomain]

@[simp] theorem State.giveEngine_fixtures (c : Bool) (s : State) (e owner : Nat) : (s.giveEngine e owner).fixtures c = s.fixtures c := by
  have hscratch : (s.zeroScratch e).fixtures c = s.fixtures c := by simp [State.zeroScratch]
  exact hscratch

@[simp] theorem State.releasePartition_fixtures (c : Bool) (s : State) (p : Nat) : (s.releasePartition p).fixtures c = s.fixtures c := by
  have hpool (u : State) (g owner : Nat) : (u.givePool g owner).fixtures c = u.fixtures c := rfl
  have hpower (u : State) (g : Switch → Power) : (u.onSw fun w => { w with power := g w }).fixtures c = u.fixtures c := rfl
  simp [State.releasePartition, hpool, hpower]

@[simp] theorem State.retireCheck_fixtures (c : Bool) (s : State) : s.retireCheck.fixtures c = s.fixtures c := by
  unfold State.retireCheck
  refine State.each_fixtures (fun u a => ?_) s _
  split
  · rfl
  · split
    · rfl
    · split
      · split <;> simp
      · rfl

/-! ### The end of retirement (21 R509, R510) -/

@[simp] theorem State.getSlot_putSlot (s : State) (k : Nat) (v : KeySlot) : (s.putSlot k v).sw.getSlot k = v := by
  simp [Switch.getSlot]

/-- The erased slot is ZEROED and without a key, and the pool cache holds no line of it. -/
theorem State.zeroise_erased (s : State) (k : Nat) :
    ((s.zeroise k).sw.getSlot k).state = .zeroed ∧ ((s.zeroise k).sw.getSlot k).key = 0 ∧ ∀ x ∈ (s.zeroise k).sw.mem.cache, x.slot ≠ k := by
  unfold State.zeroise
  extract_lets u v w x
  have hx : x.retireCheck.fixtures true = w.fixtures true := (State.retireCheck_fixtures true x).trans (State.ledgerAdd_fixtures true w _ _)
  obtain ⟨-, -, hslot, hcache⟩ := State.fixtures_iff.mp hx
  have hw : w.sw.getSlot k = { refused := v.refused, fencedAgents := v.fencedAgents } := State.getSlot_putSlot u k _
  refine ⟨?_, ?_, ?_⟩
  · rw [(hslot k).1, hw]
  · rw [(hslot k).2, hw]
  · intro y hy
    rw [hcache rfl] at hy
    simpa using List.of_mem_filter (show y ∈ s.sw.mem.cache.filter fun c => !(c.slot == k) from hy)

/-- The count is not zero, or the Ledger has no room for the entry of the erasure. -/
theorem State.retireDone_waits {s : State} {k : Nat}
    (h : ¬((s.sw.getSlot k).state = .retiring ∧ (s.sw.getSlot k).counted = [] ∧ (s.sw.getSlot k).lines = [] ∧ s.sw.takesKept 0 = true)) :
    s.retireDone k = s := if_neg h

theorem State.retireDone_erases {s : State} {k : Nat} (hstate : (s.sw.getSlot k).state = .retiring) (hcount : (s.sw.getSlot k).counted = [])
    (hlines : (s.sw.getSlot k).lines = []) (hroom : s.sw.takesKept 0 = true) : s.retireDone k = s.zeroise k := if_pos ⟨hstate, hcount, hlines, hroom⟩

@[simp] theorem State.dropHeld_fixtures (s : State) (f : Frame) : (s.dropHeld f).fixtures false = s.fixtures false := rfl

@[simp] theorem State.fenceAgent_fixtures (s : State) (h a : Nat) : (s.fenceAgent h a).fixtures false = s.fixtures false := by
  have hvault (l : List Nat) : (s.onSw fun w => { w with vault := { w.vault with fencedAgents := l } }).fixtures false = s.fixtures false := rfl
  have hout (u : State) (p : Nat) (data : List Byte) : (u.mgmtOut .sw p mFenceNotice 0 data).fixtures false = u.fixtures false :=
    State.swSendPort_fixtures false u _ p _
  unfold State.fenceAgent
  split
  · rfl
  · dsimp only
    split <;> simp only [hout, State.loseMember_fixtures, State.record_fixtures] <;> exact hvault _

/-- After TIMEOUT a slot that retires is ZEROED, or it waits only for the room of its entry. -/
theorem State.retireForce_ends {s : State} {k : Nat} (hstate : (s.sw.getSlot k).state = .retiring) :
    (((s.retireForce k).sw.getSlot k).state = .zeroed ∧ ((s.retireForce k).sw.getSlot k).key = 0)
      ∨ (((s.retireForce k).sw.getSlot k).state = .retiring ∧ ((s.retireForce k).sw.getSlot k).counted = []
        ∧ ((s.retireForce k).sw.getSlot k).lines = [] ∧ (s.retireForce k).sw.takesKept 0 = false) := by
  unfold State.retireForce
  extract_lets v reqs agents t u w y x
  have ht : t.fixtures false = s.fixtures false := State.each_fixtures (fun a f => by simp) s reqs
  have hu : u.fixtures false = t.fixtures false := State.each_fixtures (fun a f => by simp) t agents
  have hw : w.fixtures false = u.fixtures false := by
    refine State.each_fixtures (fun a l => ?_) u v.lines
    split
    · rfl
    · rw [State.advance_fixtures]
      refine State.each_fixtures (fun b h => ?_) a _
      split <;> simp
  obtain ⟨-, -, hslot, -⟩ := State.fixtures_iff.mp (hw.trans (hu.trans ht))
  have hx : x.sw.getSlot k = { w.sw.getSlot k with counted := [], lines := [], fencedAgents := agents.length } := State.getSlot_putSlot w k _
  have hretiring : (x.sw.getSlot k).state = .retiring := by rw [hx, ← hstate, ← (hslot k).1]
  have hcount : (x.sw.getSlot k).counted = [] := by rw [hx]
  have hlines : (x.sw.getSlot k).lines = [] := by rw [hx]
  clear_value x
  by_cases hroom : x.sw.takesKept 0 = true
  · obtain ⟨hzeroed, hkey, -⟩ := State.zeroise_erased x k
    rw [State.retireDone_erases hretiring hcount hlines hroom]
    exact .inl ⟨hzeroed, hkey⟩
  · rw [State.retireDone_waits fun h => hroom h.2.2.2]
    exact .inr ⟨hretiring, hcount, hlines, by simpa using hroom⟩

/-- The clauses of RETIREMENT_COUNT_ZERO and RETIREMENT_TIMEOUT. -/
theorem retirement_idle {s : State} {k : Nat} (h : (s.sw.getSlot k).state ≠ .retiring) :
    exec (.retirementCountZero k) s = .next s ∧ exec (.retirementTimeout k) s = .next s :=
  ⟨congrArg Host.Outcome.next (State.retireDone_waits fun hs => h hs.1), congrArg Host.Outcome.next (if_pos h)⟩

theorem retirementTimeout_held {s : State} {k : Nat} (hstate : (s.sw.getSlot k).state = .retiring) (hteller : s.sw.teller.state = 1) :
    exec (.retirementTimeout k) s = .next (s.putSlot k { s.sw.getSlot k with timedOut := true }) :=
  congrArg Host.Outcome.next ((if_neg (not_not_intro hstate)).trans (if_pos hteller))

theorem retirementTimeout_forces {s : State} {k : Nat} (hstate : (s.sw.getSlot k).state = .retiring) (hteller : s.sw.teller.state ≠ 1) :
    exec (.retirementTimeout k) s = .next (s.retireForce k) :=
  congrArg Host.Outcome.next ((if_neg (not_not_intro hstate)).trans (if_neg hteller))

theorem retirement_ends {s : State} {k : Nat} (hstate : (s.sw.getSlot k).state = .retiring) :
    ((s.sw.getSlot k).counted ≠ [] ∨ (s.sw.getSlot k).lines ≠ [] → exec (.retirementCountZero k) s = .next s)
      ∧ (s.sw.takesKept 0 = false → exec (.retirementCountZero k) s = .next s)
      ∧ ((s.sw.getSlot k).counted = [] → (s.sw.getSlot k).lines = [] → s.sw.takesKept 0 = true → After (.retirementCountZero k) s fun t =>
          (t.sw.getSlot k).state = .zeroed ∧ (t.sw.getSlot k).key = 0 ∧ (∀ x ∈ t.sw.mem.cache, x.slot ≠ k))
      ∧ (s.sw.teller.state = 1 → After (.retirementTimeout k) s fun t => (t.sw.getSlot k) = { s.sw.getSlot k with timedOut := true } ∧ t.sw.mem = s.sw.mem)
      ∧ (s.sw.teller.state ≠ 1 → After (.retirementTimeout k) s fun t =>
          ((t.sw.getSlot k).state = .zeroed ∧ (t.sw.getSlot k).key = 0)
          ∨ ((t.sw.getSlot k).state = .retiring ∧ (t.sw.getSlot k).counted = [] ∧ (t.sw.getSlot k).lines = [] ∧ t.sw.takesKept 0 = false)) := by
  refine ⟨fun h => ?_, fun h => ?_, fun hcount hlines hroom => ?_, fun ht => ?_, fun ht => ?_⟩
  · refine congrArg Host.Outcome.next (State.retireDone_waits fun ⟨_, hcount, hlines, _⟩ => ?_)
    exact h.elim (· hcount) (· hlines)
  · exact congrArg Host.Outcome.next (State.retireDone_waits fun hs => by simp [h] at hs)
  · exact ⟨_, congrArg Host.Outcome.next (State.retireDone_erases hstate hcount hlines hroom), State.zeroise_erased s k⟩
  · exact ⟨_, retirementTimeout_held hstate ht, State.getSlot_putSlot s k _, rfl⟩
  · exact ⟨_, retirementTimeout_forces hstate ht, State.retireForce_ends hstate⟩

/-! ### What a report leaves -/

@[simp] theorem State.record_mem (s : State) (o : Occurrence) : (s.record o).sw.mem = s.sw.mem := by rw [(State.record_report s o).1]
@[simp] theorem State.record_core (s : State) (o : Occurrence) : (s.record o).sw.core = s.sw.core := by rw [(State.record_report s o).1]
@[simp] theorem State.record_ep (s : State) (o : Occurrence) : (s.record o).ep = s.ep := by rw [(State.record_report s o).1]
@[simp] theorem State.sramFault_mem (s : State) (d i : Nat) : (s.sramFault d i).sw.mem = s.sw.mem := State.record_mem s _
@[simp] theorem State.sramFault_core (s : State) (d i : Nat) : (s.sramFault d i).sw.core = s.sw.core := State.record_core s _
@[simp] theorem State.sramFault_ep (s : State) (d i : Nat) : (s.sramFault d i).ep = s.ep := State.record_ep s _
@[simp] theorem State.sramFault_link (s : State) (d i : Nat) : (s.sramFault d i).sw.link = s.sw.link := by
  rw [State.sramFault, (State.record_report s _).1]
@[simp] theorem State.sramFault_teller (s : State) (d i : Nat) : (s.sramFault d i).sw.teller = s.sw.teller := by
  rw [State.sramFault, (State.record_report s _).1]

/-! ### What of the core is out of service: trunk virtual channels and cells (13 R357, 23 R553) -/

/-- The virtual channels out of service and the count of retired cells. -/
def State.outages (s : State) : List Nat × Tab Nat := (s.sw.core.vcOut, s.sw.core.retiredCells)

@[simp] theorem State.outages_ite (c : Prop) [Decidable c] (s t : State) : (if c then s else t).outages = if c then s.outages else t.outages :=
  apply_ite _ _ _ _

@[simp] theorem State.each_outages {α : Type} {g : State → α → State} (hg : ∀ u a, (g u a).outages = u.outages) (s : State) (l : List α) :
    (s.each l g).outages = s.outages :=
  State.each_keeps (P := fun u => u.outages = s.outages) rfl fun u hu a => (hg u a).trans hu

@[simp] theorem State.emit_outages (s : State) (o : Out) : (s.emit o).outages = s.outages := rfl
@[simp] theorem State.noteDiscard_outages (s : State) (p : Nat) : (s.noteDiscard p).outages = s.outages := rfl

/-- A change of the core's queues, cells and locks. -/
theorem State.onSw_core_outages {s : State} {g : Switch → Core} (hv : (g s.sw).vcOut = s.sw.core.vcOut := by rfl)
    (hr : (g s.sw).retiredCells = s.sw.core.retiredCells := by rfl) : (s.onSw fun w => { w with core := g w }).outages = s.outages :=
  Prod.ext hv hr

@[simp] theorem State.work_outages (s : State) (kind i : Nat) : (s.work kind i).outages = s.outages := by
  have hput (u : State) (g : Switch → Power) : (u.onSw fun w => { w with power := g w }).outages = u.outages := rfl
  unfold State.work
  dsimp only
  split
  · rfl
  · split
    · rfl
    · simp [hput]

@[simp] theorem State.join_outages (s : State) (key : Nat) (b : Buffered) : (s.join key b).outages = s.outages := by
  unfold State.join State.workAt
  simp [State.onSw_core_outages]

@[simp] theorem State.enqueue_outages (s : State) (key src : Nat) (f : Frame) : (s.enqueue key src f).outages = s.outages := by
  have hplace : (s.placeFrame src f.cls f true 0).2.outages = s.outages := by
    unfold State.placeFrame
    dsimp only
    split <;> rfl
  exact (State.join_outages _ key _).trans hplace

theorem State.releaseWaiting_outages (src cls n : Nat) : ∀ s : State, (s.releaseWaiting src cls n).outages = s.outages := by
  induction n with
  | zero => exact fun s => rfl
  | succ n ih =>
    intro s
    unfold State.releaseWaiting
    split
    · rfl
    · split
      · exact (ih _).trans (State.enqueue_outages ..)
      · rfl

@[simp] theorem State.returnCredit_outages (s : State) (p vc n : Nat) : (s.returnCredit p vc n).outages = s.outages := by
  simp [State.returnCredit, State.onSw_core_outages]

@[simp] theorem State.freeCells_outages (s : State) (b : Buffered) : (s.freeCells b).outages = s.outages := by
  unfold State.freeCells
  simp [State.releaseWaiting_outages, State.onSw_core_outages]

@[simp] theorem State.swSend_outages (s : State) (src : Nat) (f : Frame) : (s.swSend src f).outages = s.outages := by
  unfold State.swSend
  dsimp only
  split
  · rfl
  · simp [State.fromSource, State.onSw_core_outages]

@[simp] theorem State.discardIn_outages (s : State) (b : Buffered) (status : Nat) : (s.discardIn b status).outages = s.outages := by
  have huncount : (s.uncount b.f).outages = s.outages := by
    unfold State.uncount
    dsimp only
    split <;> rfl
  have hanswer : (s.answerIn b status).outages = s.outages := by
    unfold State.answerIn
    split
    · dsimp only
      split <;> simp [State.keepCell, huncount]
    · simp
  simp [State.discardIn, State.unreached, hanswer]

@[simp] theorem State.voidFree_outages (s : State) (o : Nat) : (s.voidFree o).outages = s.outages := by
  have hcut (u : State) : (u.endCut o).outages = u.outages := by
    unfold State.endCut
    split
    · rfl
    · exact State.freeCells_outages _ _
  have hvoid (u : State) (reason : Nat) : (u.voidOut o reason).outages = u.outages := by
    simp [State.voidOut, State.onSw_core_outages, hcut]
  unfold State.voidFree
  split
  · exact hvoid _ _
  · rfl

/-- Where no internal source holds frames, cells that are freed bring none to a queue. -/
theorem State.freeCells_queue {s : State} (h : s.sw.core.waiting = []) (b : Buffered) : (s.freeCells b).sw.core.queue = s.sw.core.queue := by
  have hcredit (p vc n : Nat) : (s.returnCredit p vc n).sw.core.queue = s.sw.core.queue ∧ (s.returnCredit p vc n).sw.core.waiting = [] := by
    unfold State.returnCredit
    dsimp only
    split
    · exact ⟨rfl, h⟩
    · split <;> exact ⟨rfl, h⟩
  unfold State.freeCells
  extract_lets u v
  have hu : u.sw.core.queue = s.sw.core.queue ∧ u.sw.core.waiting = [] := by
    dsimp only [u]
    split
    · exact hcredit _ _ _
    · exact ⟨rfl, h⟩
  have hv : v.sw.core.queue = s.sw.core.queue ∧ v.sw.core.waiting = [] := hu
  rw [hv.2]
  split <;> exact hv.1

/-! ### SRAM errors (23 R553) -/

/-- A cell of the frame at the head of a queue. -/
theorem State.cellLost_head {s : State} {p q : Nat} {b : Buffered} {rest : List Buffered} (hlock : s.sw.core.lock.find p = none)
    (hwait : s.sw.core.waiting = []) (hqueue : s.sw.core.queue.get (qKey p q) [] = b :: rest) :
    (s.cellLost p q).sw.core.queue.get (qKey p q) [] = rest
      ∧ (s.cellLost p q).sw.core.retiredCells.get b.tile 0 = s.sw.core.retiredCells.get b.tile 0 + 1 ∧ (s.cellLost p q).sw.mem = s.sw.mem := by
  have hcell : s.cellLost p q = (((s.sramFault 1 p).onSw fun w => { w with core := { w.core with queue := w.core.queue.put (qKey p q) rest } }).freeCells b).onSw
      fun w => { w with core := { w.core with retiredCells := w.core.retiredCells.upd b.tile 0 (· + 1) } } := by
    unfold State.cellLost
    simp only [State.sramFault_core, hlock, hqueue, Option.filter_none]
  have hfree := State.freeCells_queue (s := (s.sramFault 1 p).onSw fun w => { w with core := { w.core with queue := w.core.queue.put (qKey p q) rest } })
    (by simpa using hwait) b
  have hcells := congrArg Prod.snd (State.freeCells_outages
    ((s.sramFault 1 p).onSw fun w => { w with core := { w.core with queue := w.core.queue.put (qKey p q) rest } }) b)
  rw [hcell]
  refine ⟨?_, ?_, ?_⟩
  · simp only [State.onSw_sw, hfree, Tab.get_put_self]
  · simp only [State.outages, State.onSw_sw, State.sramFault_core] at hcells
    simp only [State.onSw_sw, Tab.get_upd_self, hcells]
  · simp only [State.onSw_sw, (State.freeCells_sent _ b).mem, State.sramFault_mem]

/-- Regions that are finished leave what is known of lines. -/
theorem State.regionCheck_lines (s : State) : s.regionCheck.sw.mem.home.lines = s.sw.mem.home.lines := by
  rw [State.regionCheck_home]
  exact List.foldlRecOn (motive := fun h : Home => h.lines = s.sw.mem.home.lines) _ Home.finish rfl fun h hh j _ => hh

/-- A directory entry of a line that is not Busy. -/
theorem State.entryLost_lost {s : State} {u l : Nat} (hunit : unitOfLine l = u) (hentry : (s.sw.entry l).isSome = true) (hbusy : s.sw.busy l = none) :
    ((s.entryLost u l).regionCheck.sw.mem.home.lines.get l {}).lost = true := by
  have hentry' : ¬((s.sramFault 8 0).sw.entry l).isNone = true := by
    simpa [Switch.entry, Switch.unit] using hentry
  have hbusy' : (s.sramFault 8 0).sw.busy l = none := by
    simpa [Switch.busy, Switch.unit] using hbusy
  have hlost : s.entryLost u l = (s.sramFault 8 0).loseLine l := by
    unfold State.entryLost
    rw [if_neg (by simp [hunit, hentry']), hbusy']
  rw [State.regionCheck_lines, hlost]
  unfold State.loseLine State.onLine
  simp only [State.onHome_sw, Tab.get_upd_self]

theorem State.leavePort_link (s : State) (p : Nat) (st : PortState) (why : Nat) : ∃ l : Link, l.state = st ∧ l.fenceWhy = why
    ∧ (s.leavePort p st why).sw.link = s.sw.link.put p l := by
  have hport (l : Link) : (s.setPort p l).sw.link = s.sw.link.put p l := (State.setPort_upkeep s p l).link
  have hqueues (u : State) : ((u.cutOpen p 1).discardQueues p).sw.link = u.sw.link :=
    ((State.cutOpen_upkeep u p 1).trans (State.discardQueues_upkeep _ p)).link
  simp only [State.leavePort, State.onSw_sw, hqueues, State.onPort, hport]
  refine ⟨_, ?_, ?_, rfl⟩ <;> rfl

/-- A fenced port's link is fenced for the cause given; the links of the others stand. -/
theorem State.fencePort_link (s : State) (p : Nat) {why : Nat} (hwhy : why ≠ 1) : ∃ l : Link, l.state = .fenced ∧ l.fenceWhy = why
    ∧ (s.fencePort p why).sw.link = s.sw.link.put p l := by
  have hsource (u : State) : (u.lostSource .sw p).sw.link = u.sw.link := by
    unfold State.lostSource State.sourceFails
    split
    · split
      · rfl
      · exact (State.retime_untouched _ .sw).swLink
    · rfl
  have hcore (u : State) (g : Switch → Core) : (u.onSw fun w => { w with core := g w }).fixtures false = u.fixtures false := rfl
  have hrest : (s.fencePort p why).fixtures false = ((s.leavePort p .fenced why).lostSource .sw p).fixtures false := by
    simp [State.fencePort, hwhy, hcore]
  obtain ⟨-, hlink, -⟩ := State.fixtures_iff.mp hrest
  rw [hlink, hsource]
  exact State.leavePort_link s p .fenced why

theorem State.sramError_portTable (s : State) (p : Nat) : ((s.sramError (.portTable p)).sw.getLink p).state = .fenced
    ∧ ((s.sramError (.portTable p)).sw.getLink p).fenceWhy = 2 ∧ ∀ j ≠ p, (s.sramError (.portTable p)).sw.getLink j = s.sw.getLink j := by
  have hrest : (s.sramError (.portTable p)).fixtures false = ((s.sramFault 1 p).fencePort p 2).fixtures false := by simp [State.sramError]
  obtain ⟨-, hlink, -⟩ := State.fixtures_iff.mp hrest
  obtain ⟨l, hstate, hwhy, hput⟩ := State.fencePort_link (s.sramFault 1 p) p (why := 2) (by decide)
  unfold Switch.getLink
  rw [hlink, hput, State.sramFault_link, Tab.get_put_self]
  exact ⟨hstate, hwhy, fun j hj => Tab.get_put_ne _ _ _ _ _ hj⟩

theorem Mem.drop_cache (m : Mem) (l : Nat) : ∀ x ∈ (m.drop l).cache, x.line ≠ l := by
  unfold Mem.drop
  split
  · next hnone => simpa using hnone
  · intro x hx
    simpa using List.of_mem_filter hx

/-- A line that cannot be read is written back as one. -/
theorem Mem.drop_bad {m : Mem} {l : Nat} (hsome : ∃ x ∈ m.cache, x.line = l) (hbad : ∀ x ∈ m.cache, x.line = l → x.bad = true) :
    ((m.drop l).home.lines.get l {}).bad = true := by
  obtain ⟨x, hx, hl⟩ := hsome
  unfold Mem.drop
  split
  · next hnone => exact absurd hl (by simpa using List.find?_eq_none.mp hnone x hx)
  · next c hc =>
    have hline : c.line = l := by simpa using List.find?_some hc
    have hcbad : c.bad = true := hbad c (List.mem_of_find?_eq_some hc) hline
    simp [Mem.writeBack, Home.dramWrite, hcbad, hline]

theorem State.sramError_poolCache (s : State) (l : Nat) :
    (∀ x ∈ (s.sramError (.poolCache l)).sw.mem.cache, x.line ≠ l)
      ∧ ((∃ x ∈ s.sw.mem.cache, x.line = l) → ((s.sramError (.poolCache l)).sw.mem.home.lines.get l {}).bad = true)
      ∧ (s.sramError (.poolCache l)).ep = s.ep := by
  refine ⟨Mem.drop_cache _ l, fun ⟨x, hx, hl⟩ => ?_, State.sramFault_ep s _ _⟩
  refine Mem.drop_bad ?_ ?_
  · refine ⟨_, List.mem_map_of_mem (by rwa [State.sramFault_mem]), ?_⟩
    simp [hl]
  · intro c hc hcl
    obtain ⟨d, -, rfl⟩ := List.mem_map.mp hc
    by_cases hd : d.line = l
    · simp [hd]
    · simp [hd] at hcl

theorem State.sramError_scratch (s : State) (n : Nat) :
    n / 8 ∈ (s.sramError (.scratch n)).sw.mem.home.badWords ∧ SameMemory s (s.sramError (.scratch n)) ∧ (s.sramError (.scratch n)).ep = s.ep := by
  refine ⟨List.mem_cons_self, fun a => ?_, State.sramFault_ep s _ _⟩
  simp [State.sramError]

/-- A trunk virtual channel that goes out of service stays out of it. -/
theorem State.vcFenced_out (s : State) (p vc : Nat) : p * 16 + vc ∈ (s.vcFenced p vc).sw.core.vcOut ∧ SameMemory s (s.vcFenced p vc) := by
  unfold State.vcFenced
  split
  · next h => exact ⟨by simpa using h, .of_homes rfl rfl⟩
  · extract_lets u v r
    have hu : u.outages.1 = (p * 16 + vc) :: s.sw.core.vcOut := by
      simp [u, State.outages, State.recordPort]
    have hup : Upkeep s u := Upkeep.trans .quiet (State.record_report _ _).upkeep
    have hv : v.outages = u.outages := by simp [v]
    have hvp : Upkeep u v := .of_ite (State.voidFree_upkeep u p) (.refl u)
    have hout : (r.2.each r.1 fun s b => (s.noteDiscard p).discardIn b (s.sw.discardStatus p b.f)).outages = v.outages :=
      State.each_outages (fun w b => by simp) r.2 r.1
    have hdp : Upkeep v (r.2.each r.1 fun s b => (s.noteDiscard p).discardIn b (s.sw.discardStatus p b.f)) :=
      Upkeep.trans .quiet (.each fun w b => Upkeep.trans .quiet (State.discardIn_upkeep _ b _))
    refine ⟨?_, (hup.trans (hvp.trans hdp)).steady.sameMemory⟩
    rw [show (r.2.each r.1 _).sw.core.vcOut = _ from (congrArg Prod.fst (hout.trans hv)).trans hu]
    exact List.mem_cons_self

@[simp] theorem State.fenceEngines_fixtures (c : Bool) (s : State) (es : List Nat) : (s.fenceEngines es).fixtures c = s.fixtures c := by
  unfold State.fenceEngines
  dsimp only
  split
  · rfl
  · rw [State.escrowSettle_fixtures, State.each_fixtures fun u e => State.record_fixtures c u _, State.each_fixtures fun u e => State.stopEngine_fixtures c u e]
    exact State.each_fixtures (fun u e => State.putEngine_fixtures c u e _) _ _

theorem State.sramError_engineTile (s : State) (e : Nat) :
    ((s.sramError (.engineTile e)).sw.getEngine e).fenced = true ∧ SameMemory s (s.sramError (.engineTile e)) := by
  have hfault : SameMemory s (s.sramFault 2 e) := .of_homes (by simp) (by simp)
  obtain ⟨hep, -⟩ := State.fixtures_iff.mp (State.fenceEngines_fixtures false (s.sramFault 2 e) [e])
  have hhome := (State.fenceEngines_onward true (s.sramFault 2 e) [e]).home rfl
  exact ⟨State.fenceEngines_fenced List.mem_cons_self, hfault.trans (.of_homes hhome (congrArg EndPoint.home hep))⟩

theorem State.sramError_teller (s : State) : SameMemory s (s.sramError .teller)
    ∧ (s.sramError .teller).sw.teller = if s.sw.teller.state = 0 then { s.sw.teller with state := 1, restarts := min 255 (s.sw.teller.restarts + 1) } else s.sw.teller := by
  unfold State.sramError State.tellerRestart
  dsimp only
  rw [State.sramFault_teller]
  by_cases h : s.sw.teller.state = 0
  · rw [if_neg (not_not_intro h), if_pos h]
    exact ⟨.of_homes (by simp) (by simp), by simp⟩
  · rw [if_pos h, if_neg h]
    exact ⟨.of_homes (by simp) (by simp), State.sramFault_teller s _ _⟩

/-! ### Scrub (06 R156 to R160) -/

theorem State.scrub_idle {s : State} {l : Nat}
    (h : ¬(inPool (l * 128) 128 = true ∧ (s.sw.chan (channelOf (l * 128))).fenced = false ∧ (s.sw.chan (channelOf (l * 128))).resetting = false)) (n : Nat) :
    s.scrub l n = s := by
  refine if_pos ?_
  simp only [not_and_or, Bool.not_eq_true, Bool.not_eq_false] at h
  simpa [or_assoc] using h

/-- The last line of a channel ends its scrub period. -/
theorem State.scrub_last {s : State} {l : Nat} (hpool : inPool (l * 128) 128 = true) (hfence : (s.sw.chan (channelOf (l * 128))).fenced = false)
    (hreset : (s.sw.chan (channelOf (l * 128))).resetting = false) (hdev : deviceOf (l * 128) + 128 = channelBytes) (n : Nat) :
    ((s.scrub l n).sw.chan (channelOf (l * 128))).pageErrors = [] := by
  unfold State.scrub
  dsimp only
  rw [if_neg (by simp [hpool, hfence, hreset]), if_pos hdev]
  simp only [Switch.chan, State.onMem_sw, Tab.get_upd_self]

/-- The code corrects only a line whose check bytes are kept. -/
theorem LineMeta.check_of_fixed {m : LineMeta} {d : List Byte} (h : m.fixed = some d) : m.check.isSome = true := by
  obtain ⟨c, hc, -⟩ := Option.bind_eq_some_iff.mp h
  simp [hc]

theorem LineMeta.bad_or_check {m : LineMeta} (h : m.uncorrectable = true) : (m.bad || m.check.isSome) = true := by
  simp only [LineMeta.uncorrectable, Bool.or_eq_true, Bool.and_eq_true] at h ⊢
  exact h.imp_right And.left

section
variable {s : State} {l : Nat}

/-- What the scrubber does with a line that is not the last of its channel, for each error that the row reports. -/
theorem State.scrub_within (hpool : inPool (l * 128) 128 = true) (hfence : (s.sw.chan (channelOf (l * 128))).fenced = false)
    (hreset : (s.sw.chan (channelOf (l * 128))).resetting = false) (hdev : deviceOf (l * 128) + 128 ≠ channelBytes) :
    s.scrub l 0 = s.lineRead l
      ∧ (s.scrub l 1 = if (s.sw.mem.home.lines.get l {}).bad || (s.sw.mem.home.lines.get l {}).check.isSome then s.lineRead l else s.eccCorrected l)
      ∧ s.scrub l 2 = (s.onLine l fun m => { m with bad := true }).eccSeen l
      ∧ s.scrub l 3 = s.fenceChannel (channelOf (l * 128)) := by
  have hidle : ¬(!inPool (l * 128) 128 || (s.sw.chan (channelOf (l * 128))).fenced || (s.sw.chan (channelOf (l * 128))).resetting) = true := by
    simp [hpool, hfence, hreset]
  refine ⟨?_, ?_, ?_, ?_⟩ <;> exact (if_neg hidle).trans (if_neg hdev)

theorem State.cache_any_false (h : ∀ x ∈ s.sw.mem.cache, x.line ≠ l) : (s.sw.mem.cache.any fun c => c.line == l) = false := by
  simpa using h

/-- A line whose error the code corrects is written back, and counted. -/
theorem State.lineRead_corrects {d : List Byte} (hcache : ∀ x ∈ s.sw.mem.cache, x.line ≠ l) (hbad : (s.sw.mem.home.lines.get l {}).bad = false)
    (hfixed : (s.sw.mem.home.lines.get l {}).fixed = some d) :
    s.lineRead l = (s.onLine l fun m => { m with stored := d, check := none }).eccCorrected l := by
  have hread : (s.sw.mem.home.lines.get l {}).uncorrectable = false := by simp [LineMeta.uncorrectable, hbad, hfixed]
  simp [State.lineRead, State.correctLine, State.cache_any_false hcache, hread, hfixed]

theorem State.lineRead_uncorrectable (hcache : ∀ x ∈ s.sw.mem.cache, x.line ≠ l) (hread : (s.sw.mem.home.lines.get l {}).uncorrectable = true) :
    s.lineRead l = s.eccSeen l := by
  simp [State.lineRead, State.cache_any_false hcache, hread]

theorem State.lineRead_clean (hbad : (s.sw.mem.home.lines.get l {}).bad = false) (hcheck : (s.sw.mem.home.lines.get l {}).check = none) :
    s.lineRead l = s := by
  simp [State.lineRead, State.correctLine, LineMeta.uncorrectable, LineMeta.fixed, hbad, hcheck]

/-- A corrected error is counted for its page; below the fourth nothing else follows. -/
theorem State.eccCorrected_counts (h : (s.sw.chan (channelOf (l * 128))).pageErrors.get (pageOf (l * 128)) 0 < 3) :
    s.eccCorrected l = (s.count (blkChan (channelOf (l * 128))) 0).onMem fun m => { m with chan := m.chan.upd (channelOf (l * 128)) {} fun x =>
      { x with pageErrors := x.pageErrors.put (pageOf (l * 128)) ((s.sw.chan (channelOf (l * 128))).pageErrors.get (pageOf (l * 128)) 0 + 1) } } :=
  if_neg (by omega)

/-! #### A channel that is fenced -/

/-- A channel that is fenced changes its own record, the pool cache and the pairings; the home and the other channels stand. -/
theorem State.fenceChannel_fenced (s : State) (c : Nat) : ((s.fenceChannel c).sw.chan c).fenced = true ∧ (s.fenceChannel c).sw.mem.home = s.sw.mem.home := by
  have hbase : ((s.fenceChannelBase c).sw.chan c).fenced = true ∧ (s.fenceChannelBase c).sw.mem.home = s.sw.mem.home := by
    unfold State.fenceChannelBase
    split
    · next h => exact ⟨h, rfl⟩
    · simp [Switch.chan]
  have hback (u : State) (l : Nat) : (u.backInvLine l).sw.mem.chan = u.sw.mem.chan := by
    unfold State.backInvLine
    split
    · split
      · rfl
      · exact State.each_keeps (P := fun v => v.sw.mem.chan = u.sw.mem.chan) rfl fun v hv h => by rw [State.sendBackInv, (State.swSend_sent v _ _).mem, hv]
    · rfl
  unfold State.fenceChannel
  refine State.each_keeps (P := fun v => (v.sw.chan c).fenced = true ∧ v.sw.mem.home = s.sw.mem.home) hbase fun v hv l => ?_
  rwa [Switch.chan, hback, State.backInvLine_home]

theorem State.fenceChannel_memory (s : State) (c : Nat) : SameMemory s (s.fenceChannel c) := by
  obtain ⟨hep, -⟩ := State.fixtures_iff.mp (State.fenceChannel_fixtures s c)
  exact .of_homes (State.fenceChannel_fenced s c).2 (by rw [hep])

/-! #### A line that cannot be corrected -/

/-- A bad line stays bad on a spare page. -/
theorem LineMeta.spare_bad {m : LineMeta} (h : m.bad = true) : m.spare.bad = true := by
  unfold LineMeta.spare
  split
  · exact h
  · split <;> simp [h]

theorem LineMeta.bad_mapVals {t : Tab LineMeta} {l : Nat} {g : Nat → LineMeta → LineMeta} (hg : ∀ i m, m.bad = true → (g i m).bad = true)
    (h : (t.get l {}).bad = true) : ((t.mapVals g).get l {}).bad = true := by
  unfold Tab.get at h ⊢
  rw [Tab.find_mapVals]
  cases hfind : t.find l with
  | none => simp [hfind] at h
  | some m => exact hg l m (by simpa [hfind] using h)

/-- What is recorded of a bad line leaves it bad, and the stored bytes of the home. -/
theorem State.eccSeen_bad (h : (s.sw.mem.home.lines.get l {}).bad = true) :
    ((s.eccSeen l).sw.mem.home.lines.get l {}).bad = true ∧ (s.eccSeen l).sw.mem.home.mem = s.sw.mem.home.mem := by
  have hretire (u : State) (c page : Nat) (hu : (u.sw.mem.home.lines.get l {}).bad = true) :
      ((u.retirePage c page).sw.mem.home.lines.get l {}).bad = true ∧ (u.retirePage c page).sw.mem.home.mem = u.sw.mem.home.mem := by
    unfold State.retirePage
    dsimp only
    split
    · exact ⟨hu, rfl⟩
    · split
      · rw [(State.fenceChannel_fenced u c).2]
        exact ⟨hu, rfl⟩
      · rw [State.record_mem]
        refine ⟨LineMeta.bad_mapVals (g := fun i m => if channelOf (i * 128) = c ∧ pageOf (i * 128) = page then m.spare else m) (fun i m hm => ?_) hu, rfl⟩
        split
        · exact LineMeta.spare_bad hm
        · exact hm
  have hseen : ((s.count (blkChan (channelOf (l * 128))) 1).record { kind := fEcc, domain := 4, index := channelOf (l * 128), status := stEcc }).sw.mem = s.sw.mem :=
    State.record_mem _ _
  obtain ⟨hbad, hmem⟩ := hretire _ (channelOf (l * 128)) (pageOf (l * 128)) (by rwa [hseen])
  exact ⟨hbad, by rw [State.eccSeen, hmem, hseen]⟩

theorem State.scrub_marks (s : State) (l : Nat) :
    (((s.onLine l fun m => { m with bad := true }).eccSeen l).sw.mem.home.lines.get l {}).bad = true
      ∧ ((s.onLine l fun m => { m with bad := true }).eccSeen l).sw.mem.home.mem = s.sw.mem.home.mem :=
  State.eccSeen_bad (by simp [State.onLine])

end

/-! ### The drain of NEAR_STORE_SET (06 R150, R154) -/

/-- Commands of the drain complete: each that the list names is over, and every command on the list was on it. -/
theorem State.drain_finishes (s : State) :
    ∀ b ∈ (s.each s.sw.teller.active fun u a => if a.work = .drain then u.finishWork a.fn a.mb mbOk [] else u).sw.teller.active,
      b.work = .drain → b.result.isSome = true := by
  have hmap (u : State) (a b : Active) (hb : b ∈ (if a.work = .drain then u.finishWork a.fn a.mb mbOk [] else u).sw.teller.active) :
      ∃ d ∈ u.sw.teller.active, d.Same b ∧ (d.result.isSome = true → b.result.isSome = true)
        ∧ (a.work = .drain → b.fn = a.fn → b.mb = a.mb → b.result.isSome = true) := by
    by_cases ha : a.work = .drain
    · rw [if_pos ha] at hb
      obtain ⟨d, hd, rfl⟩ := List.mem_map.mp hb
      refine ⟨d, hd, ?_⟩
      cases hr : d.result <;> by_cases hfn : d.fn = a.fn <;> by_cases hmb : d.mb = a.mb <;> simp [hr, hfn, hmb, Active.Same]
    · rw [if_neg ha] at hb
      exact ⟨b, hb, ⟨rfl, rfl, rfl, rfl⟩, id, fun h => absurd h ha⟩
  intro b hb hwork
  have hfrom : ∀ b ∈ (s.each s.sw.teller.active fun u a => if a.work = .drain then u.finishWork a.fn a.mb mbOk [] else u).sw.teller.active,
      ∃ d ∈ s.sw.teller.active, d.Same b := by
    refine State.each_keeps (P := fun u => ∀ b ∈ u.sw.teller.active, ∃ d ∈ s.sw.teller.active, d.Same b)
      (fun b hb => ⟨b, hb, rfl, rfl, rfl, rfl⟩) fun u hu a b hb => ?_
    obtain ⟨d, hd, ⟨h1, h2, h3, h4⟩, -⟩ := hmap u a b hb
    obtain ⟨x, hx, j1, j2, j3, j4⟩ := hu d hd
    exact ⟨x, hx, h1.trans j1, h2.trans j2, h3.trans j3, h4.trans j4⟩
  obtain ⟨a, ha, hfn, hmb, hw, -⟩ := hfrom b hb
  refine State.each_reaches (I := fun _ => True) (P := fun u => ∀ x ∈ u.sw.teller.active, x.fn = a.fn → x.mb = a.mb → x.result.isSome = true) ha
    (fun _ _ _ => trivial) (fun u _ x hx => ?_) (fun u c hu x hx hxfn hxmb => ?_) trivial b hb hfn hmb
  · obtain ⟨-, -, -, -, hdone⟩ := hmap u a x hx
    exact hdone (hw ▸ hwork)
  · obtain ⟨d, hd, ⟨h1, h2, -, -⟩, hkept, -⟩ := hmap u c x hx
    exact hkept (hu d hd (h1 ▸ hxfn) (h2 ▸ hxmb))

/-- The new mask is in force: the pool cache is empty, and a step that changes is empty or zero. -/
def State.renumbered (s : State) (e m : Nat) : State :=
  (s.onMem fun x => { x.flushCache (fun _ => true) with mask := x.mask.put e m, drainOld := none, drainMask := none }).each
    ((List.range 4).filter fun i => bit (s.sw.mem.mask.get e 0) i != bit m i) fun u i => u.onHome fun h => h.zeroStep (4 * e + i)

theorem State.drained_some {s : State} {e m : Nat} (h : s.sw.mem.drainMask = some (e, m)) : s.drained =
    (s.renumbered e m).each (s.renumbered e m).sw.teller.active fun u a => if a.work = .drain then u.finishWork a.fn a.mb mbOk [] else u := by
  unfold State.drained
  rw [h]
  rfl

theorem State.renumbered_mem (s : State) (e m : Nat) : (s.renumbered e m).sw.mem.mask = s.sw.mem.mask.put e m ∧ (s.renumbered e m).sw.mem.drainMask = none
    ∧ (s.renumbered e m).sw.mem.drainOld = none ∧ (s.renumbered e m).sw.mem.cache = [] :=
  State.each_keeps (P := fun u => u.sw.mem.mask = s.sw.mem.mask.put e m ∧ u.sw.mem.drainMask = none ∧ u.sw.mem.drainOld = none ∧ u.sw.mem.cache = [])
    ⟨rfl, rfl, rfl, by simp [Mem.flushCache]⟩ fun _ hu _ => hu

/-- The drain that is over puts its mask in force, empties the pool cache and completes its command. -/
theorem State.drained_completes {s : State} {e m : Nat} (h : s.sw.mem.drainMask = some (e, m)) :
    s.drained.sw.mem.mask.get e 0 = m ∧ s.drained.sw.mem.drainMask = none ∧ s.drained.sw.mem.drainOld = none ∧ s.drained.sw.mem.cache = []
      ∧ (∀ a ∈ s.drained.sw.teller.active, a.work = .drain → a.result.isSome = true)
      ∧ ∀ j ≠ e, s.drained.sw.mem.mask.get j 0 = s.sw.mem.mask.get j 0 := by
  obtain ⟨hmask, hdrain, hold, hcache⟩ := State.renumbered_mem s e m
  have hmem : s.drained.sw.mem = (s.renumbered e m).sw.mem := by
    rw [State.drained_some h]
    exact State.each_keeps (P := fun u => u.sw.mem = (s.renumbered e m).sw.mem) rfl fun u hu a => by split <;> exact hu
  rw [hmem, hmask, Tab.get_put_self]
  refine ⟨rfl, hdrain, hold, hcache, ?_, fun j hj => Tab.get_put_ne _ _ _ _ _ hj⟩
  rw [State.drained_some h]
  exact State.drain_finishes _

/-! ### Rewrap (10 R281) -/

/-- The next line of a rewrap is read under its old slot and stored under the new one; true: it cannot be read. -/
def State.rewrapLine (s : State) (r : Rewrap) : Bool × State :=
  let l := r.cursor / 128
  if (s.sw.mem.home.lines.get l {}).lost || (s.sw.chan (channelOf (l * 128))).fenced then (false, s)
  else match s.fetchLine l r.fromSlot with
    | (some d, u) => (false, u.writeLine l r.toSlot d)
    | (none, u) => (true, (u.eccSeen l).onMem fun m =>
        let m := m.drop l
        { m with home := m.home.dramWrite l (s.sw.getSlot r.toSlot).key (Memory.readN m.home.mem (l * 128) 128) true })

/-- The record of a rewrap after a line. -/
def Rewrap.after (r : Rewrap) (bad : Bool) : Rewrap :=
  { r with cursor := r.cursor + 128, uncorrected := r.uncorrected + b2n bad, done := decide (r.start + r.length ≤ r.cursor + 128) }

theorem State.rewrapStep_waits {s : State} {n : Nat} {r : Rewrap} (hfind : s.sw.mem.rewrap.find n = some r)
    (h : r.done = true ∨ (s.sw.busy (r.cursor / 128)).isSome = true) : s.rewrapStep n = s := by
  unfold State.rewrapStep
  rw [hfind]
  exact if_pos (by simpa using h)

theorem State.rewrapStep_line {s : State} {n : Nat} {r : Rewrap} (hfind : s.sw.mem.rewrap.find n = some r) (hdone : r.done = false)
    (hbusy : s.sw.busy (r.cursor / 128) = none) :
    let x := s.rewrapLine r
    let u := ((x.2.onMem fun m => { m with rewrap := m.rewrap.put n (r.after x.1) }).mirrorLines [r.cursor / 128]).2
    s.rewrapStep n = if !decide (r.start + r.length ≤ r.cursor + 128) then u else u.each u.sw.teller.active fun u a =>
      if a.work = .rewrap n then u.finishWork a.fn a.mb mbOk (leBytes 1 n ++ leBytes 3 0 ++ leBytes 4 (r.after x.1).uncorrected) else u := by
  unfold State.rewrapStep
  rw [hfind]
  exact if_neg (by simp [hdone, hbusy])

/-- Mirroring leaves the rewrap records. -/
theorem State.mirrorLines_rewrap (s : State) (ls : List Nat) : (s.mirrorLines ls).2.sw.mem.rewrap = s.sw.mem.rewrap := by
  refine List.foldlRecOn (motive := fun a : Option Nat × State => a.2.sw.mem.rewrap = s.sw.mem.rewrap) ls _ rfl fun a ha l _ => ?_
  have hsettle : (a.2.settleLine l).sw.mem.rewrap = a.2.sw.mem.rewrap := by
    simp only [State.settleLine, State.onMem_sw]
    split
    · rfl
    · simp only [Mem.writeBack]
      split <;> rfl
  dsimp only [State.mirrorLine]
  split
  · split
    · refine Eq.trans ?_ ha
      split
      · rfl
      · exact hsettle
    · exact ha
  · exact ha

/-- A rewrap takes its next line. -/
theorem State.rewrapStep_next {s : State} {n : Nat} {r : Rewrap} (hfind : s.sw.mem.rewrap.find n = some r) (hdone : r.done = false)
    (hbusy : s.sw.busy (r.cursor / 128) = none) : ∃ bad, (bad = 0 ∨ bad = 1) ∧ (s.rewrapStep n).sw.mem.rewrap.find n = some { r with
      cursor := r.cursor + 128, uncorrected := r.uncorrected + bad, done := decide (r.start + r.length ≤ r.cursor + 128) } := by
  refine ⟨b2n (s.rewrapLine r).1, by cases (s.rewrapLine r).1 <;> simp [b2n], ?_⟩
  rw [State.rewrapStep_line hfind hdone hbusy]
  generalize s.rewrapLine r = x
  have hput : (((x.2.onMem fun m => { m with rewrap := m.rewrap.put n (r.after x.1) }).mirrorLines [r.cursor / 128]).2).sw.mem.rewrap.find n = some (r.after x.1) := by
    rw [State.mirrorLines_rewrap]
    exact Tab.find_put_self _ _ _
  split
  · exact hput
  · exact State.each_keeps (P := fun u => u.sw.mem.rewrap.find n = some (r.after x.1)) hput fun u hu a => by split <;> exact hu

/-! ### The rows (06 R148, R150, R154 to R160; 10 R281; 21 R509, R510; 23 R553) -/

/-- A scrub read of a line that is not the last of its channel, and holds no error of its own. -/
theorem scrub_clean {s : State} {l : Nat} (hpool : inPool (l * 128) 128 = true) (hfence : (s.sw.chan (channelOf (l * 128))).fenced = false)
    (hreset : (s.sw.chan (channelOf (l * 128))).resetting = false) (hdev : deviceOf (l * 128) + 128 ≠ channelBytes)
    (hbad : (s.sw.mem.home.lines.get l {}).bad = false) (hcheck : (s.sw.mem.home.lines.get l {}).check = none) :
    exec (.scrub l 0) s = .next s
      ∧ ((s.sw.chan (channelOf (l * 128))).pageErrors.get (pageOf (l * 128)) 0 < 3 → After (.scrub l 1) s fun t =>
          (t.sw.chan (channelOf (l * 128))).pageErrors.get (pageOf (l * 128)) 0 = (s.sw.chan (channelOf (l * 128))).pageErrors.get (pageOf (l * 128)) 0 + 1
          ∧ t = { s with sw := { s.sw with tally := t.sw.tally, mem := { s.sw.mem with chan := t.sw.mem.chan } } }
          ∧ ∀ j ≠ channelOf (l * 128), t.sw.chan j = s.sw.chan j)
      ∧ (After (.scrub l 2) s fun t => (t.sw.mem.home.lines.get l {}).bad = true ∧ t.sw.mem.home.mem = s.sw.mem.home.mem)
      ∧ After (.scrub l 3) s fun t => (t.sw.chan (channelOf (l * 128))).fenced = true ∧ SameMemory s t := by
  obtain ⟨hzero, hone, htwo, hthree⟩ := State.scrub_within hpool hfence hreset hdev
  refine ⟨?_, fun hfew => ?_, ?_, ?_⟩
  · exact congrArg Host.Outcome.next (hzero.trans (State.lineRead_clean hbad hcheck))
  · rw [hbad, hcheck, if_neg (by simp), State.eccCorrected_counts hfew] at hone
    refine ⟨_, congrArg Host.Outcome.next hone, ?_, rfl, fun j hj => ?_⟩
    · simp [Switch.chan]
    · simp only [Switch.chan, State.onMem_sw, State.count, State.countN, State.onSw_sw, Tab.get_upd_ne _ _ _ _ _ hj]
  · exact ⟨_, congrArg Host.Outcome.next htwo, State.scrub_marks s l⟩
  · exact ⟨_, congrArg Host.Outcome.next hthree, (State.fenceChannel_fenced s _).1, State.fenceChannel_memory s _⟩

/-- Settles O50: each row by the lemma that says what its operation brings about; the AKG-8, the links and the slots stand through the work that
follows because none of it changes the state's fixtures. -/
theorem poolRowsComplete : Obligations.PoolRowsComplete := by
  intro s l k n c scrubs m clean
  refine ⟨?_, ?_, ?_, ?_, ?_, ?_, ?_, ?_, ?_, ?_, retirement_idle, retirement_ends, ?_, ?_, ?_, ?_, ?_, ?_, ?_, ?_⟩
  · exact fun h => congrArg Host.Outcome.next (State.scrub_idle h n)
  · intro d ⟨hpool, hfence, hreset⟩ hdev hcache hbad hfixed k hk
    obtain ⟨hzero, hone, -⟩ := State.scrub_within hpool hfence hreset hdev
    have hread := State.lineRead_corrects hcache hbad hfixed
    obtain rfl | rfl : k = 0 ∨ k = 1 := by omega
    · exact congrArg Host.Outcome.next (hzero.trans hread)
    · exact congrArg Host.Outcome.next (hone.trans ((if_pos (by rw [LineMeta.check_of_fixed hfixed, Bool.or_true])).trans hread))
  · intro ⟨hpool, hfence, hreset⟩ hdev hcache hbad k hk
    obtain ⟨hzero, hone, -⟩ := State.scrub_within hpool hfence hreset hdev
    have hread := State.lineRead_uncorrectable hcache hbad
    obtain rfl | rfl : k = 0 ∨ k = 1 := by omega
    · exact congrArg Host.Outcome.next (hzero.trans hread)
    · exact congrArg Host.Outcome.next (hone.trans ((if_pos (LineMeta.bad_or_check hbad)).trans hread))
  · intro ⟨hpool, hfence, hreset⟩ hdev ⟨hbad, hcheck⟩
    exact scrub_clean hpool hfence hreset hdev hbad hcheck
  · intro ⟨hpool, hfence, hreset⟩ hdev
    exact ⟨_, rfl, State.scrub_last hpool hfence hreset hdev n⟩
  · intro h
    refine congrArg Host.Outcome.next ?_
    unfold State.drained
    rw [h]
  · exact fun e m h => ⟨_, rfl, State.drained_completes h⟩
  · intro h
    refine congrArg Host.Outcome.next ?_
    unfold State.rewrapStep
    rw [h]
  · exact fun r hfind h => congrArg Host.Outcome.next (State.rewrapStep_waits hfind h)
  · exact fun r hfind hdone hbusy => ⟨_, rfl, State.rewrapStep_next hfind hdone hbusy⟩
  · exact fun b rest hlock hwait hqueue => ⟨_, rfl, State.cellLost_head hlock hwait hqueue⟩
  · exact fun hunit hentry hbusy => ⟨_, rfl, State.entryLost_lost hunit hentry hbusy⟩
  · exact ⟨_, rfl, State.sramError_portTable s k⟩
  · exact ⟨_, rfl, State.sramError_poolCache s l⟩
  · exact ⟨_, rfl, State.sramError_scratch s n⟩
  · exact ⟨_, rfl, State.vcFenced_out s k n⟩
  · exact ⟨_, rfl, State.sramError_engineTile s k⟩
  · exact ⟨_, rfl, State.sramError_teller s⟩
end Sys2Proof.Machine

/-!
PROOFS of the family 08_syndicates_and_collectives: the Syndicate commands (O12), and the collective rows at a switch (O34) and at a member (O35).
-/

namespace Sys2Proof.Machine

/-! ### Commands that work on, and those that first read the host (16 R418; 18 R452, R454) -/

/-- What a list of items has the block send joins what it has sent. -/
theorem State.each_emit {α : Type} (l : List α) (g : α → Out) (s : State) : (s.each l fun u a => u.emit (g a)) = { s with out := s.out ++ l.map g } := by
  induction l generalizing s with
  | nil => simp [State.each]
  | cons a l ih =>
    refine (ih (s.emit (g a))).trans ?_
    simp [State.emit]

/-- A command's read leaves as requests of PF0's largest read. -/
theorem State.commandRead_eq (s : State) (addr len : Nat) :
    s.commandRead addr len = { s with out := s.out ++ (cutAccess s.sw.host.pf.maxRead addr len).map fun r => .pcieRead r.1 r.2.2 } :=
  State.each_emit _ _ _

/-- A command that ends is taken off the list, its Ledger entry is written where it waited, and its response follows. -/
theorem State.completeActive_responds {a : Active} (h : a.dropped = false) (s : State) (status : Nat) (rsp : List Byte) : ∃ (v : State) (q : Nat),
    ReportFrame (s.onTeller fun t => { t with active := t.active.filter fun x => !(x.fn == a.fn && x.mb == a.mb) }) v
      ∧ s.completeActive a status rsp = v.respond a.fn a.mb a.seq status (if status = mbBadField then a.cmd.hostField else 0) q rsp := by
  unfold State.completeActive
  extract_lets u c full
  rw [h]
  split
  next v q hentry =>
    refine ⟨v, q, ?_, rfl⟩
    split at hentry
    · rw [show v = _ from (congrArg Prod.fst hentry).symm]
      exact State.commandEntry_report _ _ _ _ _
    · rw [show v = _ from (congrArg Prod.fst hentry).symm]
      exact .refl _

/-- Work that ends and is completed at once: the command found on the list is taken off with that end. -/
theorem State.completeCommand_finishWork {s : State} {fn mb : Nat} {a : Active} (h : s.sw.activeOf fn mb = some a) (hr : a.result = none) (status : Nat)
    (rsp : List Byte) : (s.finishWork fn mb status rsp).completeCommand fn mb
      = (s.finishWork fn mb status rsp).completeActive { a with result := some (status, rsp) } status rsp := by
  have hkey : (a.fn == fn && a.mb == mb) = true := List.find?_some (p := fun a : Active => a.fn == fn && a.mb == mb) h
  have hmap : ((fun a : Active => a.fn == fn && a.mb == mb) ∘ fun a => if a.fn == fn && a.mb == mb && a.result.isNone then
      { a with result := some (status, rsp) } else a) = fun a : Active => a.fn == fn && a.mb == mb := by
    funext b
    simp only [Function.comp_apply]
    split <;> rfl
  have hfind : (s.finishWork fn mb status rsp).sw.activeOf fn mb = some { a with result := some (status, rsp) } := by
    unfold Switch.activeOf at h
    simp only [State.finishWork, Switch.activeOf, State.onSw_sw, List.find?_map, hmap, h, Option.map_some, hkey, hr]
    rfl
  unfold State.completeCommand
  rw [hfind]

/-- The command in a mailbox of s as it stands among those not complete. -/
def Form.activeAs (k : Form) (s : State) (fn mb : Nat) (work : Work) (holds : List Obj) (data : List Nat) (q : Nat) : Active :=
  { fn := fn, mb := mb, box := mb, seq := (s.sw.mailbox fn mb).seq, opcode := k.opcode, payload := (s.sw.cmdOf fn mb k.len).body,
    holds := holds, work := work, ledgerSeq := q, data := data }

section
variable {k : Form} {fn mb : Nat} {s : State} {work : Work} {holds : List Obj} {data : List Nat}

/-- A command that works on and whose commit changes nothing: its work begins with it last on the list. -/
theorem Accepted.starts (h : Accepted k fn mb s) (hc : k.commit (s.sw.cmdOf fn mb k.len) (s.dequeued fn mb) = (.later work holds data, s.dequeued fn mb)) :
    ∃ (w : State) (q : Nat), s.takeCommand k fn mb = k.start (s.sw.cmdOf fn mb k.len) w ∧ AnswerFrame s w
      ∧ w.sw.teller = { s.sw.teller with order := s.sw.teller.order.erase (fn, mb)
                                         active := s.sw.teller.active ++ [k.activeAs s fn mb work holds data q] } := by
  obtain ⟨v, q, hv, ht⟩ := h.later hc
  obtain ⟨hteller, -⟩ := hv.fields
  refine ⟨_, q, ht, (AnswerFrame.trans ⟨rfl, List.prefix_refl _⟩ hv.answer).trans ⟨rfl, List.prefix_refl _⟩, ?_⟩
  rw [State.onTeller_sw, hteller]
  rfl

/-- The command that has joined a list without one of its mailbox is the one found there. -/
theorem Switch.activeOf_joined {w : Switch} {q : Nat} (hnone : s.sw.activeOf fn mb = none)
    (hw : w.teller.active = s.sw.teller.active ++ [k.activeAs s fn mb work holds data q]) : w.activeOf fn mb = some (k.activeAs s fn mb work holds data q) := by
  rw [Switch.activeOf, hw, List.find?_append, ← Switch.activeOf, hnone]
  simp [Form.activeAs]

/-- A response to a command that the Teller has taken from the order answers it. -/
theorem State.respond_answered {x : State} (hmailbox : ∀ f m, x.sw.mailbox f m = s.sw.mailbox f m)
    (horder : x.sw.teller.order = s.sw.teller.order.erase (fn, mb)) (status detail q : Nat) (rsp : List Byte) :
    Answered fn mb status detail rsp s (x.respond fn mb (s.sw.mailbox fn mb).seq status detail q rsp) := by
  refine ⟨?_, fun f m hne => (State.respond_mailbox_ne _ _ _ _ _ _ _ _ f m hne).trans (hmailbox f m), (State.respond_order _ _ _ _ _ _ _ _).1.trans horder⟩
  rw [State.respond_mailbox, hmailbox]

/-- A command that first reads the host asks for its bytes and works on, or ends with TIMEOUT where the host cannot be read. -/
theorem Accepted.asksHost (h : Accepted k fn mb s) {i : Instr} {addr len : Nat} (hi : exec i s = .next (s.takeCommand k fn mb))
    (hc : k.commit (s.sw.cmdOf fn mb k.len) (s.dequeued fn mb) = (.later (.hostRead 0) holds [], s.dequeued fn mb))
    (hs : ∀ v, k.start (s.sw.cmdOf fn mb k.len) v = v.askHost fn mb (·.commandRead addr len) fun u a => u.finishWork a.fn a.mb mbTimeout []) :
    HostAsked fn mb i holds addr len s := by
  obtain ⟨w, q, ht, hframe, hteller⟩ := h.starts hc
  have hreads : w.sw.hostReads = s.sw.hostReads := by
    rw [hframe.1]
    rfl
  have hmailbox (f m : Nat) : w.sw.mailbox f m = s.sw.mailbox f m := by
    rw [Switch.mailbox, hteller]
    rfl
  rw [hs, State.askHost, hreads] at ht
  refine ⟨fun hhost => ⟨_, hi, ?_⟩, fun hhost hnone => ⟨_, hi, ?_⟩⟩
  · have hlargest : w.sw.host.pf = s.sw.host.pf := by rw [hframe.1]
    rw [ht, if_pos hhost, State.commandRead_eq, hlargest]
    refine ⟨⟨hmailbox, by rw [hteller], k.activeAs s fn mb (.hostRead 0) holds [] q, by rw [hteller], rfl, rfl, rfl, rfl, rfl, rfl, rfl, rfl⟩,
      hframe.trans ⟨rfl, List.prefix_append _ _⟩, fun j hj => ?_⟩
    exact List.mem_append_right _ (List.mem_map.mpr ⟨_, List.mem_map.mpr ⟨j, List.mem_range.mpr hj, rfl⟩, rfl⟩)
  · have hactive := Switch.activeOf_joined hnone (congrArg Teller.active hteller)
    have hends : s.takeCommand k fn mb = (w.finishWork fn mb mbTimeout []).completeActive
        { k.activeAs s fn mb (.hostRead 0) holds [] q with result := some (mbTimeout, []) } mbTimeout [] := by
      rw [← State.completeCommand_finishWork hactive rfl, ht, hhost, hactive]
      rfl
    obtain ⟨x, r, hx, hresponds⟩ := State.completeActive_responds (a := { k.activeAs s fn mb (.hostRead 0) holds [] q with result := some (mbTimeout, []) })
      rfl (w.finishWork fn mb mbTimeout []) mbTimeout []
    have hanswers : s.takeCommand k fn mb = x.respond fn mb (s.sw.mailbox fn mb).seq mbTimeout 0 r [] := hends.trans hresponds
    obtain ⟨hxteller, -⟩ := hx.fields
    have horder : x.sw.teller.order = s.sw.teller.order.erase (fn, mb) := by
      rw [hxteller]
      simp [State.finishWork, hteller]
    have hanswer : AnswerFrame s (x.respond fn mb (s.sw.mailbox fn mb).seq mbTimeout 0 r []) :=
      (hframe.trans ⟨rfl, List.prefix_refl _⟩).trans (hx.answer.trans (State.respond_frame _ _ _ _ _ _ _ _))
    rw [hanswers]
    exact ⟨State.respond_answered (fun f m => (hx.mailbox f m).trans (hmailbox f m)) horder _ _ _ _, hanswer.mem, by rw [hanswer.1]⟩

end

/-! ### The Syndicate commands (08 R194 to R197) -/

/-- t has the Teller, the memory system and the Syndicates of s. -/
def KeepsSyndicates (s t : State) : Prop := t.sw.teller = s.sw.teller ∧ t.sw.mem = s.sw.mem ∧ t.sw.synd = s.sw.synd

theorem KeepsSyndicates.refl (s : State) : KeepsSyndicates s s := ⟨rfl, rfl, rfl⟩

theorem KeepsSyndicates.trans {s t u : State} (h : KeepsSyndicates s t) (k : KeepsSyndicates t u) : KeepsSyndicates s u := by
  obtain ⟨hteller, hmem, hsynd⟩ := h
  obtain ⟨kteller, kmem, ksynd⟩ := k
  exact ⟨kteller.trans hteller, kmem.trans hmem, ksynd.trans hsynd⟩

theorem State.relay_keepsSyndicates (s : State) (p : Nat) (f : Frame) (cmd : Option (Nat × Nat)) : KeepsSyndicates s (s.relay p f cmd) := by
  unfold State.relay
  extract_lets id g u
  obtain ⟨-, -, -, hmem, -, hteller, -, -, -, -, -, hsynd, -⟩ := (State.swSendPort_sent u outEscrow p g).fields
  exact ⟨hteller, hmem, hsynd⟩

theorem State.relayRanks_keepsSyndicates (s : State) (a : Active) (id partition nextEpoch flags : Nat) (members eps : List Nat) :
    KeepsSyndicates s (s.relayRanks a id partition nextEpoch flags members eps) := by
  unfold State.relayRanks
  split
  · exact .refl s
  · exact State.each_keeps (.refl s) fun u hu h => hu.trans (State.relay_keepsSyndicates _ _ _ _)

theorem State.relayMember_keepsSyndicates (s : State) (a : Active) (y : Synd) (id rank : Nat) : KeepsSyndicates s (s.relayMember a y id rank) := by
  unfold State.relayMember
  extract_lets others flags eps old leaver
  refine KeepsSyndicates.trans ?_ (State.relayRanks_keepsSyndicates _ _ _ _ _ _ _ _)
  unfold leaver
  split
  · exact State.relay_keepsSyndicates _ _ _ _
  · exact .refl s

/-- A Syndicate that a command has changed has the members of the command's data. -/
theorem State.syndFormed_members {s : State} {a : Active} {y : Synd} (h : s.sw.getSynd (field a.payload 0 1) = some y) :
    ((s.syndFormed a).sw.getSynd (field a.payload 0 1)).map (·.members) = some a.data := by
  have hsynd : (s.syndFormed a).sw.synd = s.sw.synd.put (field a.payload 0 1) (a.syndOf (s.sw.getSynd (field a.payload 0 1))) := rfl
  rw [Switch.getSynd, hsynd, Tab.find_put_self, h]
  rfl

/-- The end of a command's work leaves each command on the list, with its work and what it holds. -/
theorem State.finishWork_listed {s : State} {fn mb : Nat} {work : Work} {holds : List Obj} (h : Listed fn mb work holds s) (f m status : Nat) (rsp : List Byte) :
    Listed fn mb work holds (s.finishWork f m status rsp) := by
  obtain ⟨a, hmem, hfields⟩ := h
  refine ⟨_, List.mem_map.mpr ⟨a, hmem, rfl⟩, ?_⟩
  split <;> exact hfields

/-- SYND_MEMBER_SET tells the members, and changes the Syndicate at once where there is none to wait for. -/
theorem syndMemberSet_start {c : Cmd} {w : State} {a : Active} {y : Synd} (ha : w.sw.activeOf c.fn c.mb = some a) (hy : w.sw.getSynd (c.num 0x80 1) = some y) :
    let u := w.relayMember a y (c.num 0x80 1) (c.num 0x82 2)
    syndMemberSetForm.start c w = if u.sw.relaysOf c.fn c.mb then u else u.syndFormed a := by
  simp only [syndMemberSetForm, ha, hy]

section
variable {fn mb : Nat} {s : State}

theorem syndDestroy_done (h : Accepted syndDestroyForm fn mb s) :
    let id := (s.sw.cmdOf fn mb 8).num 0x80 1
    let t := s.takeCommand syndDestroyForm fn mb
    Answered fn mb mbOk 0 [] s t ∧ t.sw.getSynd id = none ∧ AnswerFrame (s.onSw fun w => { w with
      synd := w.synd.del id, escrow := { w.escrow with coll := w.escrow.coll.filter fun q => q.1 != id } }) t := by
  intro id t
  obtain ⟨hanswered, hframe⟩ := h.now rfl rfl rfl
  have hsynd : t.sw.synd = s.sw.synd.del id := congrArg (·.sw.synd) hframe.1
  exact ⟨hanswered, by rw [Switch.getSynd, hsynd, Tab.find_del_self], AnswerFrame.trans ⟨rfl, List.prefix_refl _⟩ hframe⟩

theorem syndMemberSet_done (h : Accepted syndMemberSetForm fn mb s) (hnone : s.sw.activeOf fn mb = none) {y : Synd}
    (hy : s.sw.getSynd ((s.sw.cmdOf fn mb 8).num 0x80 1) = some y) :
    let c := s.sw.cmdOf fn mb 8
    let t := s.takeCommand syndMemberSetForm fn mb
    Listed fn mb (.relay 0) [.synd (c.num 0x80 1)] t ∧ t.sw.mem = s.sw.mem ∧ (t.sw.getSynd (c.num 0x80 1)).map (·.members)
      = if t.sw.relaysOf fn mb then some y.members else some (y.members.set (c.num 0x82 2) (memberOf (c.num 0x84 2))) := by
  intro c t
  have hc : syndMemberSetForm.commit c (s.dequeued fn mb)
      = (.later (.relay 0) (syndObjs c) (y.members.set (c.num 0x82 2) (memberOf (c.num 0x84 2))), s.dequeued fn mb) := by
    have hd : (s.dequeued fn mb).sw.getSynd (c.num 0x80 1) = some y := hy
    simp only [syndMemberSetForm, hd, Option.map_some, Option.getD_some]
  obtain ⟨w, q, ht, hframe, hteller⟩ := h.starts hc
  generalize ha : syndMemberSetForm.activeAs .. = a at hteller
  have hactive : w.sw.activeOf fn mb = some a := ha ▸ Switch.activeOf_joined hnone (congrArg Teller.active (ha ▸ hteller))
  have hwy : w.sw.getSynd (c.num 0x80 1) = some y := by
    rw [Switch.getSynd, congrArg (·.sw.synd) hframe.1]
    exact hy
  obtain ⟨huteller, humem, husynd⟩ := State.relayMember_keepsSyndicates w a y (c.num 0x80 1) (c.num 0x82 2)
  have hstart := syndMemberSet_start (c := c) hactive hwy
  generalize w.relayMember a y _ _ = u at huteller humem husynd hstart
  have huy : u.sw.getSynd (c.num 0x80 1) = some y := by rwa [Switch.getSynd, husynd]
  have hlisted : Listed fn mb (.relay 0) [.synd (c.num 0x80 1)] u := by
    refine ⟨a, ?_, by rw [← ha]; exact ⟨rfl, rfl, rfl, rfl⟩⟩
    rw [huteller, hteller]
    exact List.mem_append_right _ List.mem_cons_self
  by_cases hrelays : u.sw.relaysOf fn mb = true
  · rw [show t = u from ht.trans (hstart.trans (if_pos hrelays)), if_pos hrelays, huy]
    exact ⟨hlisted, humem.trans hframe.mem, rfl⟩
  · rw [show t = u.syndFormed a from ht.trans (hstart.trans (if_neg hrelays))]
    refine ⟨State.finishWork_listed hlisted _ _ _ _, humem.trans hframe.mem, Eq.trans ?_ (if_neg hrelays).symm⟩
    subst ha
    exact State.syndFormed_members huy

end

/-- Settles O12: each Syndicate command is accepted into the effect of its form; SYND_MEMBER_SET stands on the list of active commands as its relays
leave. -/
theorem syndicateCommandsComplete : Obligations.SyndicateCommandsComplete := by
  unfold Obligations.SyndicateCommandsComplete
  intro fn mb s c id
  refine ⟨fun h => h.asksHost rfl rfl fun _ => rfl, fun h => ⟨_, rfl, syndDestroy_done h⟩, fun h hnone y hy => ⟨_, rfl, syndMemberSet_done h hnone hy⟩,
    fun h => ⟨_, rfl, ?_⟩⟩
  obtain ⟨hanswered, hframe⟩ := h.now rfl rfl rfl
  exact ⟨hanswered, AnswerFrame.trans ⟨rfl, List.prefix_refl _⟩ hframe⟩

/-! ### What a collective frame reads at a switch (08 R204, R207) -/

theorem SentFrame.getSynd {s t : State} (h : SentFrame s t) (i : Nat) : t.sw.getSynd i = s.sw.getSynd i := by
  obtain ⟨-, -, -, -, -, -, -, -, -, -, -, hsynd, -⟩ := h.fields
  rw [Switch.getSynd, hsynd, Switch.getSynd]

theorem SentFrame.isRoot {s t : State} (h : SentFrame s t) (y : Synd) : t.sw.isRoot y = s.sw.isRoot y := by
  rw [Switch.isRoot, h.sys, Switch.isRoot]

theorem SentFrame.collSourceOk {s t : State} (h : SentFrame s t) (y : Synd) (f : Frame) : t.sw.collSourceOk y f = s.sw.collSourceOk y f := by
  rw [Switch.collSourceOk, h.sys, Switch.collSourceOk]

/-- A collective frame has left its inbox. -/
abbrev State.arrived (s : State) (f : Frame) : State := s.takeInbox (s.sw.inboxOf f) f

theorem State.arrived_sent (s : State) (f : Frame) : SentFrame s (s.arrived f) := State.takeInbox_sent _ _ _

/-- The end of an epoch leaves the settings of the device. -/
theorem State.closeEpoch_sys (s : State) (i n : Nat) : (s.closeEpoch i n).sw.sys = s.sw.sys := by
  unfold State.closeEpoch
  split <;> rfl

/-! ### Frames of no Syndicate (08 R204) -/

section
variable {s : State} {f : Frame}

theorem State.collData_noSynd (h : s.sw.getSynd (cSynd f) = none) : s.collData f = (s.arrived f).count 0 cSyndDiscard := by
  unfold State.collData
  dsimp only
  rw [h]

theorem State.collConfirm_noSynd (h : s.sw.getSynd (cSynd f) = none) : s.collConfirm f = (s.arrived f).count 0 cSyndDiscard := by
  unfold State.collConfirm
  dsimp only
  rw [(s.arrived_sent f).getSynd, h]

theorem State.collFromRoot_noSynd (h : s.sw.getSynd (cSynd f) = none) : s.collFromRoot f = (s.arrived f).count 0 cSyndDiscard := by
  unfold State.collFromRoot
  dsimp only
  rw [(s.arrived_sent f).getSynd, h]

theorem State.collAbortSw_noSynd (h : s.sw.getSynd (cSynd f) = none) : s.collAbortSw f = (s.arrived f).count 0 cSyndDiscard := by
  unfold State.collAbortSw
  rw [h]

end

/-! ### COLL_DATA (08 R204, R205) -/

/-- The chunk of a COLL_DATA. -/
def cChunk (f : Frame) : Nat := chunkOf (cFmt f) (cPos f) (cScale f)

/-- The epoch of a COLL_DATA: the one that is open, or a new one. -/
def State.epochOf (s : State) (y : Synd) (f : Frame) : Epoch := (y.epoch (cEpoch f)).getD (s.newEpoch (cSynd f) f)

/-- A COLL_DATA has left its inbox, and a new epoch has closed those that it shows to be over. -/
def State.entered (s : State) (y : Synd) (f : Frame) : State :=
  if (y.epoch (cEpoch f)).isSome then s.arrived f
  else { (s.arrived f).each (y.closedBy (cEpoch f)) fun s n => s.closeEpoch (cSynd f) n with fresh := (s.arrived f).fresh + 1 }

theorem State.entered_sys (s : State) (y : Synd) (f : Frame) : (s.entered y f).sw.sys = s.sw.sys := by
  have hsys := (s.arrived_sent f).sys
  unfold State.entered
  split
  · exact hsys
  · exact State.each_keeps (P := fun u => u.sw.sys = s.sw.sys) hsys fun u hu n => (u.closeEpoch_sys _ n).trans hu

/-- The level of the node whose operand a COLL_DATA carries. -/
def Switch.levelIn (w : Switch) (y : Synd) (e : Epoch) (f : Frame) : Nat :=
  if isEpId f.src then 0 else e.levelOf y (e.chunks.get (cChunk f) {}) (f.src / 8) w.sys.rack (cRank f)

theorem State.entered_levelIn (s : State) (y : Synd) (e : Epoch) (f : Frame) : (s.entered y f).sw.levelIn y e f = s.sw.levelIn y e f := by
  rw [Switch.levelIn, s.entered_sys, Switch.levelIn]

section
variable {s : State} {f : Frame} {y : Synd}

theorem State.collData_discards (hy : s.sw.getSynd (cSynd f) = some y)
    (h : s.sw.collSourceOk y f = false ∨ y.closed.contains (cEpoch f) = true ∨ (s.epochOf y f).aborted.isSome = true) :
    s.collData f = (s.arrived f).count 0 cSyndDiscard := by
  unfold State.collData
  dsimp only
  rw [hy]
  refine if_pos ?_
  rw [Bool.or_eq_true, Bool.or_eq_true, Bool.not_eq_true', or_assoc]
  exact h

/-- A COLL_DATA that is not discarded: its source is right, and its epoch neither closed nor aborted. -/
structure State.CollTakes (s : State) (y : Synd) (f : Frame) : Prop where
  source : s.sw.collSourceOk y f = true
  notClosed : y.closed.contains (cEpoch f) = false
  notAborted : (s.epochOf y f).aborted = none

theorem State.CollTakes.collData (h : s.CollTakes y f) (hy : s.sw.getSynd (cSynd f) = some y) :
    let e := s.epochOf y f
    let v := s.entered y f
    let level := s.sw.levelIn y e f
    let c := e.chunks.get (cChunk f) {}
    let e' := e.take f (cChunk f) level
    s.collData f = if s.sw.quotaFull y e (cChunk f) f then s
      else if !y.lost.isEmpty then (v.putEpoch (cSynd f) e).abortFrom (cSynd f) e.number stMemberLost
      else if !e.agrees f (cChunk f) then (v.putEpoch (cSynd f) e).abortFrom (cSynd f) e.number stBadAddress
      else if c.state ≠ .open_ ∨ c.covered level (cRank f) then v
      else if !(e'.chunks.get (cChunk f) {}).lengthsAgree e' then (v.putEpoch (cSynd f) e').abortFrom (cSynd f) e'.number stBadAddress
      else (v.putEpoch (cSynd f) e').computeChunk (cSynd f) e'.number (cChunk f) := by
  intro e v level c e'
  obtain ⟨hsource, hclosed, haborted⟩ := h
  have htaken : (!s.sw.collSourceOk y f || y.closed.contains (cEpoch f) || e.aborted.isSome) = false := by
    rw [hsource, hclosed, haborted]
    rfl
  unfold State.collData
  dsimp only
  rw [hy]
  refine (if_neg (Bool.eq_false_iff.mp htaken)).trans ?_
  simp only [e', level]
  rw [← s.entered_levelIn]
  rfl
theorem State.collData_waits (hy : s.sw.getSynd (cSynd f) = some y) (h : s.CollTakes y f) (hfull : s.sw.quotaFull y (s.epochOf y f) (cChunk f) f = true) :
    s.collData f = s := (h.collData hy).trans (if_pos hfull)

section
variable (hy : s.sw.getSynd (cSynd f) = some y) (h : s.CollTakes y f) (hroom : s.sw.quotaFull y (s.epochOf y f) (cChunk f) f = false)
include hy h hroom

theorem State.collData_memberLost (hlost : y.lost ≠ []) : s.collData f
    = ((s.entered y f).putEpoch (cSynd f) (s.epochOf y f)).abortFrom (cSynd f) (s.epochOf y f).number stMemberLost := by
  rw [h.collData hy, hroom]
  exact (if_neg (by decide)).trans (if_pos (by simpa using hlost))

theorem State.collData_disagrees (hlost : y.lost = []) (hagrees : (s.epochOf y f).agrees f (cChunk f) = false) :
    s.collData f = ((s.entered y f).putEpoch (cSynd f) (s.epochOf y f)).abortFrom (cSynd f) (s.epochOf y f).number stBadAddress := by
  rw [h.collData hy, hroom, hlost, hagrees]
  rfl

/-- A COLL_DATA that agrees with its epoch joins its chunk, unless the node is covered. -/
theorem State.collData_agrees (hlost : y.lost = []) (hagrees : (s.epochOf y f).agrees f (cChunk f) = true) :
    let e := s.epochOf y f
    let v := s.entered y f
    let level := s.sw.levelIn y e f
    let c := e.chunks.get (cChunk f) {}
    let e' := e.take f (cChunk f) level
    s.collData f = if c.state ≠ .open_ ∨ c.covered level (cRank f) then v
      else if (e'.chunks.get (cChunk f) {}).lengthsAgree e' then (v.putEpoch (cSynd f) e').computeChunk (cSynd f) e'.number (cChunk f)
      else (v.putEpoch (cSynd f) e').abortFrom (cSynd f) e'.number stBadAddress := by
  intro e v level c e'
  rw [h.collData hy, hroom, hlost, hagrees]
  refine ((if_neg (by decide)).trans ((if_neg (by decide)).trans (if_neg (by decide)))).trans (if_congr Iff.rfl rfl ?_)
  exact (if_congr (by rw [Bool.not_eq_true', Bool.not_eq_true]) rfl rfl).trans (ite_not ..)

end
end

/-- A node of which nothing has come: its part holds the frame's bytes. -/
theorem Epoch.take_fresh {e : Epoch} {f : Frame} {chunk level : Nat}
    (h : ((e.chunks.get chunk {}).parts.find? fun q : Part1 => q.level == level && q.rank == cRank f) = none) :
    let c := e.chunks.get chunk {}
    let part := ({ rank := cRank f, level := level } : Part1).add f chunk
    e.take f chunk level = { e with
      chunks := e.chunks.put chunk { c with parts := (c.parts.filter fun q : Part1 => !(q.level == level && q.rank == cRank f)) ++ [part] }
      endChunk := if cEnd f then some chunk else e.endChunk }.withLength chunk part := by
  unfold Epoch.take
  dsimp only
  rw [h]
  rfl

/-! ### Frames of the root switch (08 R209, R215, R220) -/

section
variable {s : State} {f : Frame} {y : Synd}

/-- A frame of the root switch goes on to the members of this rack when an open epoch has taken its effect. -/
theorem State.collFromRoot_open {e : Epoch} (hy : s.sw.getSynd (cSynd f) = some y) (he : y.epoch (cEpoch f) = some e) :
    let c := e.chunks.get (cPos f / 65536) {}
    let e' := { e with chunks := e.chunks.put (cPos f / 65536) { c with state := .settled, parts := [] } }
    let u := s.arrived f
    s.collFromRoot f = State.forwardColl
      (if f.typ = ftCollConfirm then
        if e'.finished then (u.putEpoch (cSynd f) e').closeEpoch (cSynd f) e'.number else u.putEpoch (cSynd f) e'
      else if f.typ = ftCollRecall then
        if c.state ≠ .open_ then u
        else (u.putEpoch (cSynd f) { e with chunks := e.chunks.put (cPos f / 65536) { c with
          attempt := cAttempt f + 1, sent := [], computed := e.recomputed y c u.sw.sys.rack } }).computeChunk (cSynd f) e.number (cPos f / 65536)
      else if f.typ = ftCollAbort then u.closeEpoch (cSynd f) e.number
      else u) y f := by
  unfold State.collFromRoot
  dsimp only
  rw [(s.arrived_sent f).getSynd, hy]
  dsimp only
  rw [he]

/-- A frame of an epoch that is not open here goes on as it is; an abort closes its number. -/
theorem State.collFromRoot_notOpen (hy : s.sw.getSynd (cSynd f) = some y) (he : y.epoch (cEpoch f) = none) :
    s.collFromRoot f = State.forwardColl
      (if f.typ = ftCollAbort ∧ !y.closed.contains (cEpoch f) then (s.arrived f).closeEpoch (cSynd f) (cEpoch f) else s.arrived f) y f := by
  unfold State.collFromRoot
  dsimp only
  rw [(s.arrived_sent f).getSynd, hy]
  dsimp only
  rw [he]

theorem State.collFromRoot_passes (hy : s.sw.getSynd (cSynd f) = some y) (he : y.epoch (cEpoch f) = none) (ht : f.typ ≠ ftCollAbort) :
    s.collFromRoot f = (s.arrived f).forwardColl y f := by
  rw [State.collFromRoot_notOpen hy he, if_neg fun h => ht h.1]

theorem State.collFromRoot_result (hy : s.sw.getSynd (cSynd f) = some y) (ht : f.typ = ftCollResult) :
    s.collFromRoot f = (s.arrived f).forwardColl y f := by
  cases he : y.epoch (cEpoch f) with
  | none => exact State.collFromRoot_passes hy he (by rw [ht]; decide)
  | some e =>
    rw [State.collFromRoot_open hy he, ht]
    rfl

theorem State.collFromRoot_settles {e : Epoch} (hy : s.sw.getSynd (cSynd f) = some y) (he : y.epoch (cEpoch f) = some e) (ht : f.typ = ftCollConfirm) :
    let e' := { e with chunks := e.chunks.put (cPos f / 65536) { e.chunks.get (cPos f / 65536) {} with state := .settled, parts := [] } }
    let v := (s.arrived f).putEpoch (cSynd f) e'
    s.collFromRoot f = (if e'.finished then v.closeEpoch (cSynd f) e'.number else v).forwardColl y f := by
  rw [State.collFromRoot_open hy he, if_pos ht]

theorem State.collFromRoot_recalls {e : Epoch} (hy : s.sw.getSynd (cSynd f) = some y) (he : y.epoch (cEpoch f) = some e) (ht : f.typ = ftCollRecall) :
    let k := cPos f / 65536
    let c := e.chunks.get k {}
    let e' := { e with chunks := e.chunks.put k { c with attempt := cAttempt f + 1, sent := [], computed := e.recomputed y c s.sw.sys.rack } }
    s.collFromRoot f = (if c.state = .open_ then ((s.arrived f).putEpoch (cSynd f) e').computeChunk (cSynd f) e.number k else s.arrived f).forwardColl y f := by
  rw [State.collFromRoot_open hy he, ht, (s.arrived_sent f).sys, if_neg (by decide), if_pos rfl]
  simp only [ite_not]

theorem State.collFromRoot_aborts {e : Epoch} (hy : s.sw.getSynd (cSynd f) = some y) (he : y.epoch (cEpoch f) = some e) (ht : f.typ = ftCollAbort) :
    s.collFromRoot f = ((s.arrived f).closeEpoch (cSynd f) e.number).forwardColl y f := by
  rw [State.collFromRoot_open hy he, ht]
  rfl

theorem State.collFromRoot_abortsNew (hy : s.sw.getSynd (cSynd f) = some y) (he : y.epoch (cEpoch f) = none) (ht : f.typ = ftCollAbort) :
    s.collFromRoot f
      = (if y.closed.contains (cEpoch f) then s.arrived f else (s.arrived f).closeEpoch (cSynd f) (cEpoch f)).forwardColl y f := by
  rw [State.collFromRoot_notOpen hy he, ht]
  simp

/-! ### COLL_ABORT (08 R205, R220) -/

/-- A switch refuses an abort: its source is wrong, or its epoch is closed. -/
def Switch.refusesAbort (w : Switch) (y : Synd) (f : Frame) : Bool := !w.collSourceOk y f || y.closed.contains (cEpoch f)

theorem Switch.refusesAbort_iff {w : Switch} : w.refusesAbort y f = true ↔ w.collSourceOk y f = false ∨ y.closed.contains (cEpoch f) = true := by
  rw [Switch.refusesAbort, Bool.or_eq_true, Bool.not_eq_true']

theorem Switch.refusesAbort_eq_false {w : Switch} : w.refusesAbort y f = false ↔ w.collSourceOk y f = true ∧ y.closed.contains (cEpoch f) = false := by
  rw [Switch.refusesAbort, Bool.or_eq_false_iff, Bool.not_eq_false']

/-- At the root switch: an abort that is refused is discarded, another aborts its epoch, which it opens where it is new. -/
theorem State.collAbortSw_root (hy : s.sw.getSynd (cSynd f) = some y) (hroot : s.sw.isRoot y = true) :
    let u := s.arrived f
    s.collAbortSw f = if s.sw.refusesAbort y f then u.count 0 cSyndDiscard
      else State.abortEpoch (if (y.epoch (cEpoch f)).isSome then u
        else { u.putEpoch (cSynd f) (u.newEpoch (cSynd f) f) with fresh := u.fresh + 1 }) (cSynd f) (cEpoch f) f.status := by
  unfold State.collAbortSw
  rw [hy, Switch.refusesAbort, ← (s.arrived_sent f).collSourceOk]
  exact if_pos hroot

/-- At another switch: an end-point's abort that is refused is discarded, another is taken as the root's. -/
theorem State.collAbortSw_notRoot (hy : s.sw.getSynd (cSynd f) = some y) (hroot : s.sw.isRoot y = false) :
    s.collAbortSw f = if isEpId f.src && s.sw.refusesAbort y f then (s.arrived f).count 0 cSyndDiscard else s.collFromRoot f := by
  unfold State.collAbortSw
  rw [hy]
  exact if_neg (Bool.eq_false_iff.mp hroot)

/-- An abort that another switch takes as the root's: it comes from a switch, or nothing refuses it. -/
theorem State.collAbortSw_passes (hy : s.sw.getSynd (cSynd f) = some y) (hroot : s.sw.isRoot y = false)
    (h : isEpId f.src = false ∨ s.sw.collSourceOk y f = true ∧ y.closed.contains (cEpoch f) = false) : s.collAbortSw f = s.collFromRoot f := by
  rw [State.collAbortSw_notRoot hy hroot, if_neg]
  rw [Bool.not_eq_true, Bool.and_eq_false_iff, Switch.refusesAbort_eq_false]
  exact h

/-! ### COLL_CONFIRM of a member (08 R211, R213, R214) -/

theorem State.collConfirm_notOpen (hy : s.sw.getSynd (cSynd f) = some y) (he : y.epoch (cEpoch f) = none) :
    s.collConfirm f = (s.arrived f).count 0 cSyndDiscard := by
  unfold State.collConfirm
  dsimp only
  rw [(s.arrived_sent f).getSynd, hy]
  dsimp only
  rw [he]

theorem State.collConfirm_discards (hy : s.sw.getSynd (cSynd f) = some y) (h : s.sw.collSourceOk y f = false ∨ s.sw.isRoot y = false) :
    s.collConfirm f = (s.arrived f).count 0 cSyndDiscard := by
  cases he : y.epoch (cEpoch f) with
  | none => exact State.collConfirm_notOpen hy he
  | some e =>
    unfold State.collConfirm
    dsimp only
    rw [(s.arrived_sent f).getSynd, hy]
    dsimp only
    rw [he]
    refine if_pos ?_
    rw [(s.arrived_sent f).collSourceOk, (s.arrived_sent f).isRoot, Bool.or_eq_true, Bool.not_eq_true', Bool.not_eq_true']
    exact h

section
variable {e : Epoch} (hy : s.sw.getSynd (cSynd f) = some y) (he : y.epoch (cEpoch f) = some e) (hsource : s.sw.collSourceOk y f = true)
  (hroot : s.sw.isRoot y = true)
include hy he hsource hroot

theorem State.collConfirm_late (h : ∀ a, (e.chunks.get (cPos f / 65536) {}).state ≠ .delivered a) : s.collConfirm f = s.arrived f := by
  unfold State.collConfirm
  dsimp only
  rw [(s.arrived_sent f).getSynd, hy]
  dsimp only
  rw [he]
  dsimp only
  rw [(s.arrived_sent f).collSourceOk, (s.arrived_sent f).isRoot, hsource, hroot]
  split
  · next hwrong => exact absurd hwrong (by decide)
  · split
    · next a ha => exact absurd ha (h a)
    · rfl

/-- A confirm of a chunk that is delivered: one of another attempt, or of one that is recalled, is ignored; one that agrees is noted, and one that does
not recalls the attempt, or aborts the epoch after the third. -/
theorem State.collConfirm_delivered {a : Nat} (h : (e.chunks.get (cPos f / 65536) {}).state = .delivered a) :
    let c := e.chunks.get (cPos f / 65536) {}
    let c' := { c with confirms := cRank f :: c.confirms.filter (· != cRank f) }
    let e' := { e with chunks := e.chunks.put (cPos f / 65536) c' }
    let u := s.arrived f
    s.collConfirm f = if cAttempt f ≠ a ∨ c.owed = true then u
      else if c.checks.find (cRank f) = some (cCheck f) then
        if c'.allConfirmed y then (u.putEpoch (cSynd f) e').settleChunk (cSynd f) y e' (cPos f / 65536) a else u.putEpoch (cSynd f) e'
      else if a < 3 then u.recallChunk (cSynd f) y e (cPos f / 65536) a
      else u.abortEpoch (cSynd f) e.number stEcc := by
  unfold State.collConfirm
  dsimp only
  rw [(s.arrived_sent f).getSynd, hy]
  dsimp only
  rw [he]
  dsimp only
  rw [(s.arrived_sent f).collSourceOk, (s.arrived_sent f).isRoot, hsource, hroot, h]
  rfl

end
end

/-! ### The settlement limit (08 R213) -/

section
variable {s : State} {y : Synd} {e : Epoch} {c : Chunk} {i n j : Nat} (hy : s.sw.getSynd i = some y) (he : y.epoch n = some e) (hj : e.chunks.find j = some c)
include hy he hj

theorem State.settlementLimit_notRoot (hroot : s.sw.isRoot y = false) : s.settlementLimit i n j = s := by
  simp [State.settlementLimit, hy, he, hj, hroot]

theorem State.settlementLimit_open (hroot : s.sw.isRoot y = true) (hc : c.state = .open_) : s.settlementLimit i n j = s.abortEpoch i n stTimeout := by
  simp [State.settlementLimit, hy, he, hj, hroot, hc]

theorem State.settlementLimit_delivered {a : Nat} (hroot : s.sw.isRoot y = true) (hc : c.state = .delivered a) : s.settlementLimit i n j
    = if c.allConfirmed y && s.sw.settleRoom y.partition then s.settleChunk i y e j a
      else if a < 3 then s.recallChunk i y e j a else s.abortEpoch i n stTimeout := by
  simp [State.settlementLimit, hy, he, hj, hroot, hc]

theorem State.settlementLimit_over (hroot : s.sw.isRoot y = true) (hc : c.state = .settled ∨ c.state = .aborted) : s.settlementLimit i n j = s := by
  rcases hc with hc | hc <;> simp [State.settlementLimit, hy, he, hj, hroot, hc]

end

/-! ### The collective rows at a switch -/

section
variable {f : Frame}

theorem exec_collData (ht : f.typ = ftCollData) (p : Nat) (s : State) : exec (.collData p f) s = .next (s.collData f) :=
  congrArg (fun g => Host.Outcome.next (s.collData g)) (Frame.typed ht)

theorem exec_collResult_switch (ht : f.typ = ftCollResult) (hdest : isSwitchId f.dest = true) (p : Nat) (s : State) :
    exec (.collResult p f) s = .next (s.collFromRoot f) :=
  congrArg Host.Outcome.next ((if_pos hdest).trans (congrArg s.collFromRoot (Frame.typed ht)))

theorem exec_collConfirm (ht : f.typ = ftCollConfirm) (p : Nat) (s : State) : exec (.collConfirm p f) s = .next (s.collConfirm f) :=
  congrArg (fun g => Host.Outcome.next (s.collConfirm g)) (Frame.typed ht)

theorem exec_collConfirmSettled_switch (ht : f.typ = ftCollConfirm) (p : Nat) (s : State) :
    exec (.collConfirmSettled .sw p f) s = .next (s.collFromRoot f) :=
  congrArg (fun g => Host.Outcome.next (s.collFromRoot g)) (Frame.typed ht)

theorem exec_collRecallSwitch (ht : f.typ = ftCollRecall) (p : Nat) (s : State) : exec (.collRecallSwitch p f) s = .next (s.collFromRoot f) :=
  congrArg (fun g => Host.Outcome.next (s.collFromRoot g)) (Frame.typed ht)

theorem exec_collAbort_switch (ht : f.typ = ftCollAbort) (p : Nat) (s : State) : exec (.collAbort .sw p f) s = .next (s.collAbortSw f) :=
  congrArg (fun g => Host.Outcome.next (s.collAbortSw g)) (Frame.typed ht)

end

/-- Settles O34: each row is the equation of its frame in the case that its hypotheses name. -/
theorem collectiveSwitchRowsComplete : Obligations.CollectiveSwitchRowsComplete := by
  unfold Obligations.CollectiveSwitchRowsComplete
  intro s p f u i n k discarded
  refine ⟨fun hnone => ⟨fun ht => ?noSyndData, fun ht hdest => ?noSyndResult, fun ht => ⟨?noSyndConfirm, ?noSyndSettled⟩, fun ht => ?noSyndRecall,
    fun ht => ?noSyndAbort⟩, fun e chunk level => Epoch.take_fresh, fun y hy => ⟨fun ht => ?data, fun ht hdest => ?result, fun ht => ?abort,
    fun he => ⟨fun ht => ⟨?lateConfirm, ?lateSettled⟩, fun ht => ?lateRecall⟩,
    fun e he => ⟨fun ht => ?confirm, fun ht => ?settled, fun ht => ?recalled, fun j c hj => ?limit⟩⟩⟩
  case noSyndData => exact (exec_collData ht p s).trans (congrArg Host.Outcome.next (State.collData_noSynd hnone))
  case noSyndResult => exact (exec_collResult_switch ht hdest p s).trans (congrArg Host.Outcome.next (State.collFromRoot_noSynd hnone))
  case noSyndConfirm => exact (exec_collConfirm ht p s).trans (congrArg Host.Outcome.next (State.collConfirm_noSynd hnone))
  case noSyndSettled => exact (exec_collConfirmSettled_switch ht p s).trans (congrArg Host.Outcome.next (State.collFromRoot_noSynd hnone))
  case noSyndRecall => exact (exec_collRecallSwitch ht p s).trans (congrArg Host.Outcome.next (State.collFromRoot_noSynd hnone))
  case noSyndAbort => exact (exec_collAbort_switch ht p s).trans (congrArg Host.Outcome.next (State.collAbortSw_noSynd hnone))
  case data =>
    intro chunk e v c level e'
    rw [exec_collData ht]
    refine ⟨fun h => congrArg Host.Outcome.next (State.collData_discards hy h), fun hsource hclosed haborted => ?_⟩
    have h : s.CollTakes y f := ⟨hsource, hclosed, haborted⟩
    refine ⟨fun hfull => congrArg Host.Outcome.next (State.collData_waits hy h hfull), fun hroom => ⟨fun hlost => ?_, fun hlost hagrees => ?_,
      fun hlost hagrees => ⟨fun hpast => ?_, fun hopen hnew => ?_⟩⟩⟩
    · exact congrArg Host.Outcome.next (State.collData_memberLost hy h hroom hlost)
    · exact congrArg Host.Outcome.next (State.collData_disagrees hy h hroom hlost hagrees)
    · exact congrArg Host.Outcome.next ((State.collData_agrees hy h hroom hlost hagrees).trans (if_pos hpast))
    · exact congrArg Host.Outcome.next ((State.collData_agrees hy h hroom hlost hagrees).trans
        (if_neg (not_or.mpr ⟨not_not_intro hopen, Bool.eq_false_iff.mp hnew⟩)))
  case result => exact (exec_collResult_switch ht hdest p s).trans (congrArg Host.Outcome.next (State.collFromRoot_result hy ht))
  case abort =>
    rw [exec_collAbort_switch ht]
    refine ⟨fun hroot => ?_, fun hroot hsrc h => ?_, fun hroot h => ?_⟩
    · rw [State.collAbortSw_root hy hroot]
      refine ⟨fun h => ?_, fun hsource hclosed he => ?_, fun hsource hclosed he => ?_⟩
      · rw [Switch.refusesAbort_iff.mpr h]
        rfl
      · rw [Switch.refusesAbort_eq_false.mpr ⟨hsource, hclosed⟩, he]
        rfl
      · rw [Switch.refusesAbort_eq_false.mpr ⟨hsource, hclosed⟩, he]
        rfl
    · rw [State.collAbortSw_notRoot hy hroot, hsrc, Switch.refusesAbort_iff.mpr h]
      rfl
    · rw [State.collAbortSw_passes hy hroot h]
      exact ⟨fun e he => congrArg Host.Outcome.next (State.collFromRoot_aborts hy he ht),
        fun he => congrArg Host.Outcome.next (State.collFromRoot_abortsNew hy he ht)⟩
  case lateConfirm => exact (exec_collConfirm ht p s).trans (congrArg Host.Outcome.next (State.collConfirm_notOpen hy he))
  case lateSettled =>
    exact (exec_collConfirmSettled_switch ht p s).trans (congrArg Host.Outcome.next (State.collFromRoot_passes hy he (by rw [ht]; decide)))
  case lateRecall => exact (exec_collRecallSwitch ht p s).trans (congrArg Host.Outcome.next (State.collFromRoot_passes hy he (by rw [ht]; decide)))
  case confirm =>
    rw [exec_collConfirm ht]
    refine ⟨fun h => congrArg Host.Outcome.next (State.collConfirm_discards hy h), fun hsource hroot =>
      ⟨fun h => congrArg Host.Outcome.next (State.collConfirm_late hy he hsource hroot h), fun a ha => ?_⟩⟩
    rw [State.collConfirm_delivered hy he hsource hroot ha]
    refine ⟨fun h => by rw [if_pos h], fun hattempt howed => ?_⟩
    rw [if_neg (not_or.mpr ⟨not_not_intro hattempt, Bool.eq_false_iff.mp howed⟩)]
    exact ⟨fun h => by rw [if_pos h], fun h hfew => by rw [if_neg h, if_pos hfew], fun h hmany => by rw [if_neg h, if_neg (Nat.not_lt.mpr hmany)]⟩
  case settled => exact (exec_collConfirmSettled_switch ht p s).trans (congrArg Host.Outcome.next (State.collFromRoot_settles hy he ht))
  case recalled => exact (exec_collRecallSwitch ht p s).trans (congrArg Host.Outcome.next (State.collFromRoot_recalls hy he ht))
  case limit =>
    exact ⟨fun hroot => congrArg Host.Outcome.next (State.settlementLimit_notRoot hy he hj hroot), fun hroot =>
      ⟨fun hc => congrArg Host.Outcome.next (State.settlementLimit_open hy he hj hroot hc),
        fun a hc => congrArg Host.Outcome.next (State.settlementLimit_delivered hy he hj hroot hc),
        fun hc => congrArg Host.Outcome.next (State.settlementLimit_over hy he hj hroot hc)⟩⟩

/-! ### Results at a member (08 R210, R216) -/

/-- The chunk of a COLL_RESULT at a member. -/
def EpCall.resultChunk (x : EpCall) (f : Frame) : Nat := if f.length = 0 then cPos f / 65536 else x.chunkAt (cPos f) (cScale f)

/-- The bytes of a COLL_RESULT have taken their place in their chunk and are on their way to the receive buffer. -/
def State.resultPlaced (s : State) (x : EpCall) (f : Frame) : State :=
  let j := x.resultChunk f
  let d := padTo f.length f.data
  let v := s.onChunk x j fun c => if c.attempt = cAttempt f then c else { attempt := cAttempt f, settled := c.settled }
  if f.length = 0 then v else (v.onChunk x j fun c =>
      if cScale f then { c with rxScale := placePart (cPos f) d c.rxScale } else { c with rx := placePart (cPos f) d c.rx }).epReq
    { agent := x.agent, op := .write, cva := (if cScale f then x.c.recvScale else x.c.recv) + cPos f, length := f.length, data := d }
    (.collRecv x.c.synd x.epoch j (cAttempt f) (cLast f))

/-- The place in the chunk, then the write: a frame without bytes does neither. -/
theorem State.resultPlaced_eq (s : State) (x : EpCall) (f : Frame) :
    let j := x.resultChunk f
    let d := padTo f.length f.data
    let v := s.onChunk x j fun c => if c.attempt = cAttempt f then c else { attempt := cAttempt f, settled := c.settled }
    let w := if f.length = 0 then v else v.onChunk x j fun c =>
      if cScale f then { c with rxScale := placePart (cPos f) d c.rxScale } else { c with rx := placePart (cPos f) d c.rx }
    s.resultPlaced x f = if f.length = 0 then w else w.epReq
      { agent := x.agent, op := .write, cva := (if cScale f then x.c.recvScale else x.c.recv) + cPos f, length := f.length, data := d }
      (.collRecv x.c.synd x.epoch j (cAttempt f) (cLast f)) := by
  unfold State.resultPlaced
  by_cases hempty : f.length = 0
  · simp only [if_pos hempty]
  · simp only [if_neg hempty]

section
variable {s : State} {f : Frame} {x : EpCall} (hx : s.ep.callIn f.agent (cSynd f) (cEpoch f) = some x) (hstage : x.stage = 2)
include hx hstage

/-- A result of a call that runs is placed; the frame with LAST is answered from the chunk as it then stands. -/
theorem State.epCollResult_eq :
    let j := x.resultChunk f
    let v := s.resultPlaced x f
    s.epCollResult f = if !cLast f then v else match v.ep.callIn f.agent (cSynd f) (cEpoch f) with
      | none => v
      | some y =>
        let chk := (y.part j).check
        let w := v.onChunk x j fun c => { c with whole := chk == cCheck f }
        w.sendOnPlane j (w.collFrame x f.src ftCollConfirm (cAttempt f) chk (j * 65536) false true (j + 1 == x.chunks) []) := by
  unfold State.epCollResult
  rw [hx, State.resultPlaced_eq]
  exact if_neg (not_not_intro hstage)

theorem State.epCollResult_goesOn (hlast : cLast f = false) : s.epCollResult f = s.resultPlaced x f := by
  rw [State.epCollResult_eq hx hstage, hlast]
  rfl

theorem State.epCollResult_confirms {y : EpCall} (hlast : cLast f = true)
    (hy : (s.resultPlaced x f).ep.callIn f.agent (cSynd f) (cEpoch f) = some y) :
    let j := x.resultChunk f
    let chk := (y.part j).check
    let w := (s.resultPlaced x f).onChunk x j fun c => { c with whole := chk == cCheck f }
    s.epCollResult f = w.sendOnPlane j (w.collFrame x f.src ftCollConfirm (cAttempt f) chk (j * 65536) false true (j + 1 == x.chunks) []) := by
  rw [State.epCollResult_eq hx hstage, hlast, hy]
  rfl

theorem State.epSettled_settles (hopen : (x.part (cPos f / 65536)).settled = false) {y : EpCall} :
    let k := cPos f / 65536
    let v := (s.onChunk x k fun c => { c with settled := true, rx := [], rxScale := [] }).chunkNote x k (cAttempt f) .settled
    v.ep.memberCall f = some y → s.epSettled f = if (List.range y.chunks).all fun j => (y.part j).settled then
      v.onCall y fun c => { c with stage := 3, status := 0 } else v := by
  intro k v hy
  unfold State.epSettled
  rw [EndPoint.memberCall, hx]
  refine (if_neg (by simp [hstage, hopen])).trans ?_
  dsimp only
  rw [hy]
  rfl

omit hstage in
theorem State.epSettled_again (hsettled : (x.part (cPos f / 65536)).settled = true) : s.epSettled f = s := by
  unfold State.epSettled
  rw [EndPoint.memberCall, hx]
  exact if_pos (.inr hsettled)

theorem State.epCollRecall_running :
    s.epCollRecall f = if (x.part (cPos f / 65536)).attempt = cAttempt f then s.withdrawChunk x (cPos f / 65536) else s := by
  unfold State.epCollRecall
  rw [hx]
  exact if_congr (and_iff_right hstage) rfl rfl

end

/-! ### Aborts at a member (08 R220, R221) -/

/-- The rank with the Syndicate marked, where an abort says that a member of it is lost. -/
def Rank.marked (r : Rank) (f : Frame) : Rank := if f.status = stMemberLost ∧ r.synd = cSynd f ∧ r.agent = f.agent then { r with lost := true } else r

/-- A request that an abort of a call leaves: it reads no contribution of the call, or has begun. -/
def EpReq.outlives (q : EpReq) (x : EpCall) : Bool :=
  match q.for_ with
  | .collSend synd epoch _ _ _ => q.pieces.any (·.started) || !(q.r.agent == x.agent && synd == x.c.synd && epoch == x.epoch)
  | _ => true

/-- The agent's Syndicate is marked, and what its call has not begun is taken back. -/
def State.callStopped (s : State) (x : EpCall) (f : Frame) : State :=
  s.onEp fun e => { e with
    ranks := e.ranks.map fun r => r.marked f
    outq := e.outq.map fun q => (q.1, q.2.filter fun g => !(g.cls == 5 && g.agent == x.agent && cSynd g == x.c.synd && cEpoch g == x.epoch))
    reqs := e.reqs.filter fun q => q.outlives x
    fences := e.fences.filter fun g => !(g.agent == x.agent && g.utag == x.utag + 65536) }

/-- The call's unsettled chunks are withdrawn, and it takes its report's turn with the abort's status. -/
def State.callAborted (s : State) (x : EpCall) (f : Frame) : State :=
  (s.each x.chunk fun s c => (s.ifThen (!c.2.settled) fun s => s.forgetChunk x c.2).withdrawChunk x c.1).onCall x fun c =>
    { c with stage := 3, status := f.status }

section
variable {s : State} {f : Frame}

/-- An abort marks the ranks of a lost member's Syndicate, and leaves them where no member is lost. -/
theorem State.marksLost (s : State) (f : Frame) : (s.ifThen (f.status == stMemberLost) fun s => s.onEp fun e =>
    { e with ranks := e.ranks.map fun r => if r.synd = cSynd f ∧ r.agent = f.agent then { r with lost := true } else r })
      = s.onEp fun e => { e with ranks := e.ranks.map fun r => r.marked f } := by
  unfold State.ifThen
  by_cases hlost : f.status = stMemberLost
  · simp [hlost, Rank.marked]
  · simp [hlost, Rank.marked, State.onEp]

theorem State.epCollAbort_running {x : EpCall} (hx : s.ep.callIn f.agent (cSynd f) (cEpoch f) = some x) (hstage : x.stage = 2) (p : Nat) :
    let v := (s.callStopped x f).callAborted x f
    s.epCollAbort p f = match v.ep.rankOf x.c.synd x.agent with
      | none => v
      | some r => v.passAbort p f r := by
  unfold State.epCollAbort
  rw [State.marksLost]
  have hcall : (s.onEp fun e => { e with ranks := e.ranks.map fun r => r.marked f }).ep.memberCall f = some x := hx
  dsimp only
  rw [hcall]
  exact if_neg (by rw [hstage]; decide)

/-- An abort of an epoch that the agent has not called, and of which it has heard no abort, is kept and passed on. -/
theorem State.epCollAbort_ahead {r : Rank} (hx : s.ep.callIn f.agent (cSynd f) (cEpoch f) = none) (hstatus : f.status ≠ stMemberLost)
    (hr : s.ep.rankOf (cSynd f) f.agent = some r) (hahead : (cEpoch f + 4096 - r.nextEpoch) % 4096 < 2048)
    (hnew : (s.ep.aborted.any fun q => q.1 == cSynd f && q.2.1 == f.agent && q.2.2.1 == cEpoch f) = false) (p : Nat) : s.epCollAbort p f
      = (s.onEp fun e => { e with aborted := e.aborted ++ [(cSynd f, f.agent, cEpoch f, f.status)] }).passAbort p f r := by
  have hkept : (s.ifThen (f.status == stMemberLost) fun s => s.onEp fun e =>
      { e with ranks := e.ranks.map fun r => if r.synd = cSynd f ∧ r.agent = f.agent then { r with lost := true } else r }) = s :=
    if_neg (by simpa using hstatus)
  unfold State.epCollAbort
  rw [hkept]
  dsimp only
  rw [EndPoint.memberCall, hx]
  unfold State.epAbortAhead
  rw [hr]
  exact if_neg (not_or.mpr ⟨Nat.not_le.mpr hahead, Bool.eq_false_iff.mp hnew⟩)

end

/-! ### The collective rows at a member -/

section
variable {s : State} {p : Nat} {f : Frame} (h : EpTakes p f s)
include h

theorem exec_collResult_member (hdest : isSwitchId f.dest = false) : exec (.collResult p f) s = .next ((s.credited p f).epCollResult f).pump :=
  congrArg Host.Outcome.next ((if_neg (Bool.eq_false_iff.mp hdest)).trans (State.epIn_takes h _))

theorem exec_collConfirmSettled_member : exec (.collConfirmSettled .ep p f) s = .next ((s.credited p f).epSettled f).pump :=
  congrArg Host.Outcome.next (State.epIn_takes h _)

theorem exec_collRecall : exec (.collRecall p f) s = .next ((s.credited p f).epCollRecall f).pump := congrArg Host.Outcome.next (State.epIn_takes h _)

theorem exec_collAbort_member (ht : f.typ = ftCollAbort) : exec (.collAbort .ep p f) s = .next ((s.credited p f).epCollAbort p f).pump := by
  have hrow : exec (.collAbort .ep p f) s = .next (s.epIn p f fun s => s.epCollAbort p { f with typ := ftCollAbort }) := rfl
  rw [hrow, State.epIn_takes h, Frame.typed ht]

end

/-- Settles O35: each row is the equation of its frame for a call that runs; taking a frame leaves the end-point's calls. -/
theorem collectiveMemberRowsComplete : Obligations.CollectiveMemberRowsComplete := by
  unfold Obligations.CollectiveMemberRowsComplete
  refine ⟨fun s p f r h hx ht hstatus hr hahead hnew => ?ahead, fun s p f x h hx hstage => ⟨fun hdest => ⟨fun hlast => ?goesOn, fun y hlast hy => ?confirms⟩,
    fun hopen y hy => ?settles, fun hsettled => ?again, ?recalled, fun ht => ?aborted⟩⟩
  case ahead =>
    rw [exec_collAbort_member h ht]
    exact congrArg (fun v : State => Host.Outcome.next v.pump) (State.epCollAbort_ahead (s := s.credited p f) hx hstatus hr hahead hnew p)
  case goesOn =>
    rw [exec_collResult_member h hdest]
    exact congrArg (fun v : State => Host.Outcome.next v.pump) (State.epCollResult_goesOn (s := s.credited p f) hx hstage hlast)
  case confirms =>
    rw [exec_collResult_member h hdest]
    exact congrArg (fun v : State => Host.Outcome.next v.pump) (State.epCollResult_confirms (s := s.credited p f) hx hstage hlast hy)
  case settles =>
    rw [exec_collConfirmSettled_member h]
    exact congrArg (fun v : State => Host.Outcome.next v.pump) (State.epSettled_settles (s := s.credited p f) hx hstage hopen hy)
  case again => rw [exec_collConfirmSettled_member h, State.epSettled_again (s := s.credited p f) hx hsettled]
  case recalled => rw [exec_collRecall h, State.epCollRecall_running (s := s.credited p f) hx hstage]
  case aborted =>
    rw [exec_collAbort_member h ht]
    exact congrArg (fun v : State => Host.Outcome.next v.pump) (State.epCollAbort_running (s := s.credited p f) hx hstage p)

end Sys2Proof.Machine

/-!
PROOFS of the family 09_engines_and_task_graphs: the rows of tasks and graphs (O37), and the Escrow commands (O13), which fail on a table of graphs that
lists a slot twice.
-/

namespace Sys2Proof.Machine

/-! ### Tasks and graphs (09 R235, R239, R247 to R249) -/

section
variable {s : State} {slot t : Nat} {g : Graph} {x : Task}

/-- A task that has ended OK: its engine takes the next one, and what waited for it may become ready. -/
def State.taskDone (s : State) (slot t : Nat) (x : Task) : State :=
  ((if x.engine < 48 ∧ (s.sw.getEngine x.engine).task = some (slot, t) then s.putEngine x.engine { s.sw.getEngine x.engine with task := none } else s).onTask
    slot t fun y => { y with state := .done, result := none, ended := none }).readyUp slot

theorem State.settleTask_ok (hg : s.sw.getGraph slot = some g) (hx : s.sw.getTask slot t = some x) (fencedEngine : Bool) :
    s.settleTask slot t stOk fencedEngine = s.taskDone slot t x := by
  unfold State.settleTask
  rw [hg, hx]
  exact if_pos rfl

theorem State.taskComplete_ended {status : Nat} (hx : s.sw.getTask slot t = some x) (hrunning : x.state = .running) (hended : x.ended = some status) :
    s.taskComplete slot t = (s.settleTask slot t status false).escrowSettle := by
  unfold State.taskComplete
  rw [hx]
  dsimp only
  rw [hended]
  exact if_pos hrunning

theorem State.waitTimeReached_running (hx : s.sw.getTask slot t = some x) (hrunning : x.state = .running) (hkind : (TaskDesc.of x.desc).kind = 0x0E) :
    s.waitTimeReached slot t = (s.settleTask slot t stOk false).escrowSettle := by
  unfold State.waitTimeReached
  rw [hx]
  exact if_pos ⟨hrunning, hkind⟩

theorem State.retryWaitEnd_waiting (hx : s.sw.getTask slot t = some x) (hwait : x.state = .retryWait) :
    s.retryWaitEnd slot t = ((s.onTask slot t fun y => { y with state := .ready, readyAt := s.sw.escrow.readyCount }).onEscrow fun e =>
      { e with readyCount := s.sw.escrow.readyCount + 1 }).escrowSettle := by
  unfold State.retryWaitEnd
  rw [hx]
  exact if_neg (not_not.mpr hwait)

/-- A deadline is the graph's status where it is the first cause that cancels one of its tasks. -/
theorem State.cancelGraphFor_deadline (s : State) (slot : Nat) (g : Graph) : s.cancelGraphFor slot g .deadline
    = (s.putGraph slot { g with closed := true, cancel := if (g.tasks.any fun t => t.state.unstarted && t.runs == 0) ∧ g.cancel = .none then .deadline
        else g.cancel }).cancelTasks slot fun _ => true := by
  simp [State.cancelGraphFor]

theorem State.deadline_passes (hg : s.sw.getGraph slot = some g) (hdeadline : g.deadline ≠ 0) :
    s.deadline slot = (s.cancelGraphFor slot g .deadline).escrowSettle := by
  unfold State.deadline
  rw [hg]
  exact if_neg hdeadline

theorem State.admissionExpiry_found {m : Nat} {x : Submission} (hx : s.sw.escrow.queue.find? (fun x => x.mailbox == m) = some x) :
    s.admissionExpiry m = ((s.onEscrow fun e => { e with queue := e.queue.erase x }).emptyMbox m 8 0 x.graph.tag).escrowRespond x.f stBusyTimeout [] := by
  unfold State.admissionExpiry
  rw [hx]

end

/-- Settles O37: each row is the equation of its operation. -/
theorem taskRowsComplete : Obligations.TaskRowsComplete := by
  unfold Obligations.TaskRowsComplete
  refine fun s slot t => ⟨fun g x hg hx => ?graph, fun m x hx => congrArg Host.Outcome.next (State.admissionExpiry_found hx)⟩
  intro free done
  have hdone : (s.settleTask slot t stOk false).escrowSettle = done := congrArg State.escrowSettle (State.settleTask_ok hg hx false)
  refine ⟨fun hended hrunning => ?complete, fun hrunning hkind => ?waited, fun hwait => ?retried, fun hdeadline => ?deadline⟩
  case complete => exact congrArg Host.Outcome.next ((State.taskComplete_ended hx hrunning hended).trans hdone)
  case waited => exact congrArg Host.Outcome.next ((State.waitTimeReached_running hx hrunning hkind).trans hdone)
  case retried => exact congrArg Host.Outcome.next (State.retryWaitEnd_waiting hx hwait)
  case deadline =>
    exact congrArg Host.Outcome.next ((State.deadline_passes hg hdeadline).trans
      (congrArg State.escrowSettle (State.cancelGraphFor_deadline s slot g)))

/-! ### A graph slot that is listed twice -/

/-- A graph of slot 63 that has no task left; ending: its done record is being written. -/
def graphOver (ending : Bool) : Graph := { mailbox := 2, partition := 0, ctx := 0, tag := 9, doneAddr := 0x1000, ending := ending }

/-- PF0's mailbox 0 holds ESCROW_CANCEL of the graph with tag 9 in slot 63. The table of graphs lists that slot twice, the second time with a graph whose
done record waits for its translation; the switch can read the host for it. -/
def twiceListed : State := { sw := {
  sys := { phase := .running, hostLink := true }
  teller := { state := 0, order := [(0, 0)], mbox := [(0, { own := true, seq := 1, header := 0x0800000912, payload := [(0x80, 63), (0x84, 9)] })] }
  link := [(0, { state := .active })]
  xlat := { base := [(0, 0x1000)] }
  escrow := { graph := [(63, graphOver false), (63, graphOver true)] } } }

theorem twiceListed_accepted : Accepted escrowCancelForm 0 0 twiceListed := by decide +kernel

/-- The first graph is cancelled; then the done record of the second is tried again, which puts that graph, not cancelled, in the slot. -/
theorem twiceListed_uncancelled : ((twiceListed.takeCommand escrowCancelForm 0 0).sw.getGraph 63).map (·.cancel) = some .none := by decide +kernel

/-- Refutes O13: nothing in the statement keeps the table of graphs from listing a slot twice, and Escrow's round (`State.retryMisses`) goes through the
table as a list. ESCROW_CANCEL cancels the graph that the slot finds; the round then writes back the other one, whose done record waits, as the slot's
graph, with no cause to its name. -/
theorem not_escrowCommandsComplete : ¬ Obligations.EscrowCommandsComplete := by
  unfold Obligations.EscrowCommandsComplete
  intro h
  obtain ⟨-, -, hcancel⟩ := h 0 0 twiceListed
  obtain ⟨t, ht, -, -, hgraph⟩ := hcancel twiceListed_accepted rfl
  have hnext : twiceListed.takeCommand escrowCancelForm 0 0 = t := Host.Outcome.next.inj ht
  obtain ⟨g, hg, hnone⟩ := Option.map_eq_some_iff.mp (hnext ▸ twiceListed_uncancelled)
  have hslot : (twiceListed.sw.cmdOf 0 0 8).num 0x80 1 = 63 := by decide +kernel
  exact (hgraph g (hslot ▸ hg)).1 hnone

end Sys2Proof.Machine

/-!
PROOFS of the family 11_escapement_and_shaping: the empty queue (O2), the commands of shaping (O9) and of time and schedules (O8), gates and cycles (O24),
the rows of books (O41), and what starts keep of the schedule (O59).
-/

namespace Sys2Proof.Machine

/-! ### Fabric time on an empty queue (11 R283) -/

theorem step_empty {s : State} (h : s.pending = []) : step s = .next s.tick := by
  unfold step
  rw [h]

/-- Settles O2: a tick moves both clocks by one flit time, 1,024 units. -/
theorem emptyQueueTick : Obligations.EmptyQueueTick := by
  unfold Obligations.EmptyQueueTick
  exact fun s h => step_empty h

/-! ### What answering a command leaves (16 R418) -/

theorem AnswerFrame.clock {s t : State} (h : AnswerFrame s t) : t.sw.clock = s.sw.clock := by
  rw [h.1]

theorem AnswerFrame.sched {s t : State} (h : AnswerFrame s t) : t.sw.sched = s.sw.sched := by
  rw [h.1]

theorem AnswerFrame.ep {s t : State} (h : AnswerFrame s t) : t.ep = s.ep := by
  rw [h.1]

theorem AnswerFrame.mgmt {s t : State} (h : AnswerFrame s t) : t.sw.mgmt = s.sw.mgmt := by
  rw [h.1]

/-- A command that answers at once, as the frame of its effect u on the state that it was taken from. -/
theorem Accepted.answers {k : Form} {fn mb : Nat} {s v u : State} {rsp : List Byte} (h : Accepted k fn mb s)
    (hc : k.commit (s.sw.cmdOf fn mb k.len) (s.dequeued fn mb) = (.now rsp, u)) (hteller : u.sw.teller = (s.dequeued fn mb).sw.teller) (hv : AnswerFrame v u) :
    Answered fn mb mbOk 0 rsp s (s.takeCommand k fn mb) ∧ AnswerFrame v (s.takeCommand k fn mb) := by
  obtain ⟨hanswered, hframe⟩ := h.now hc (by rw [hteller]; rfl) (by rw [hteller]; rfl)
  exact ⟨hanswered, hv.trans hframe⟩

/-! ### Shapers and policers (11 R316 to R319) -/

/-- SHAPER_READ of a bucket of a class or of a partition. -/
theorem Switch.shaperRead_bucket {kind : Nat} (h : kind ≠ 2) (w : Switch) (port index : Nat) : w.shaperRead port kind index =
    let staged := w.core.shaperStaged.find (shaperKey port kind index)
    leBytes 1 (b2n staged.isSome) ++ leBytes 7 0 ++ shaperRecord port kind index (w.core.shaper.get (shaperKey port kind index) {})
      ++ padTo 24 ((staged.map fun x => shaperRecord port kind index x.1).getD []) := by
  unfold Switch.shaperRead
  rw [if_neg h]

/-- SHAPER_READ of a policer. -/
theorem Switch.shaperRead_policer {kind : Nat} (h : kind = 2) (w : Switch) (port index : Nat) : w.shaperRead port kind index =
    let staged := w.core.policerStaged.find (policerKey port index)
    leBytes 1 (b2n staged.isSome) ++ leBytes 7 0 ++ policerRecord port index (w.core.policer.get (policerKey port index) {})
      ++ padTo 24 ((staged.map fun x => policerRecord port index x.1).getD []) := by
  unfold Switch.shaperRead
  rw [if_pos h]

/-- Settles O9: a bucket or a policer that is set is staged, and no more; a read answers the records of the one named. -/
theorem shapingCommandsComplete : Obligations.ShapingCommandsComplete := by
  unfold Obligations.ShapingCommandsComplete
  refine fun fn mb s => ⟨fun h => ?shaper, fun h => ?policer, fun h => ⟨fun hkind => ?bucketRead, fun hkind => ?policerRead⟩⟩
  case shaper => exact ⟨_, rfl, h.answers rfl rfl ⟨rfl, List.prefix_refl _⟩⟩
  case policer => exact ⟨_, rfl, h.answers rfl rfl ⟨rfl, List.prefix_refl _⟩⟩
  case bucketRead =>
    refine ⟨_, rfl, And.symm ?_⟩
    rw [← Switch.shaperRead_bucket hkind]
    exact h.answers rfl rfl ⟨rfl, List.prefix_refl _⟩
  case policerRead =>
    refine ⟨_, rfl, And.symm ?_⟩
    rw [← Switch.shaperRead_policer hkind]
    exact h.answers rfl rfl ⟨rfl, List.prefix_refl _⟩

/-! ### The masters of fabric time (11 R285, R307) -/

/-- What the choice of a frequency source and of a book leaves: the Teller, the memory system and the AKG-8. -/
def State.holdings (s : State) : Teller × Mem × EndPoint := (s.sw.teller, s.sw.mem, s.ep)

@[simp] theorem State.each_holdings {α : Type} {g : State → α → State} (hg : ∀ u a, (g u a).holdings = u.holdings) (s : State) (l : List α) :
    (s.each l g).holdings = s.holdings :=
  State.each_keeps (P := fun u => u.holdings = s.holdings) rfl fun u hu a => (hg u a).trans hu

theorem State.holdings_iff {s t : State} : t.holdings = s.holdings ↔ t.sw.teller = s.sw.teller ∧ t.sw.mem = s.sw.mem ∧ t.ep = s.ep := by
  simp [State.holdings]

theorem SentFrame.holdings {s t : State} (h : SentFrame s t) : t.holdings = s.holdings := by
  rw [h.1]
  rfl

theorem ReportFrame.holdings {s t : State} (h : ReportFrame s t) : t.holdings = s.holdings := by
  rw [h.1]
  rfl

@[simp] theorem State.onClock_holdings (s : State) (g : Clock → Clock) : (s.onClock .sw g).holdings = s.holdings := rfl
@[simp] theorem State.onSched_holdings (s : State) (g : Sched → Sched) : (s.onSched .sw g).holdings = s.holdings := rfl
@[simp] theorem State.closeGates_holdings (s : State) : (s.closeGates .sw).holdings = s.holdings :=
  State.each_holdings (g := fun u p => u.closePort .sw p) (fun _ _ => rfl) s _

@[simp] theorem State.enterHoldover_holdings (s : State) : (s.enterHoldover .sw).holdings = s.holdings := by
  unfold State.enterHoldover
  dsimp only
  split
  · rfl
  · exact (State.record_report _ _).holdings.trans (State.closeGates_holdings _)

@[simp] theorem State.retime_holdings (s : State) : (s.retime .sw).holdings = s.holdings := by
  unfold State.retime
  dsimp only
  split
  · rfl
  · split
    · exact State.enterHoldover_holdings s
    · split
      · exact State.closeGates_holdings _
      · rfl

@[simp] theorem State.takeBook_holdings (s : State) (b : Nat) : (s.takeBook .sw b).holdings = s.holdings := by
  unfold State.takeBook
  split
  · rfl
  · exact (State.setEvent_report _ _).holdings

@[simp] theorem State.sendBookSet_holdings (s : State) (p : Nat) (c : BookChange) (n : Nat) : (s.sendBookSet .sw p c n).holdings = s.holdings :=
  (State.swSendPort_sent _ _ _ _).holdings

@[simp] theorem State.decideBook_holdings (s : State) (held : Bool) : (s.decideBook held).holdings = s.holdings := by
  have hchange (b : Nat) : (s.changeBook b).holdings = s.holdings := by
    unfold State.changeBook
    dsimp only
    split <;> simp
  unfold State.decideBook
  dsimp only
  split
  · rfl
  · split
    · exact hchange _
    · rfl

/-- Naming the masters chooses source and book again; fabric time goes on. -/
theorem State.nameMasters_names (s : State) (master standby : Nat) : let t := s.nameMasters master standby
    (t.sw.clock.master = master ∧ t.sw.clock.standby = standby ∧ t.sw.clock.lost = false ∧ t.sw.clock.now = s.sw.clock.now) ∧ t.holdings = s.holdings := by
  unfold State.nameMasters
  extract_lets v w
  have hw : (w.sw.clock.master = master ∧ w.sw.clock.standby = standby ∧ w.sw.clock.lost = false ∧ w.sw.clock.now = s.sw.clock.now) ∧ w.holdings = s.holdings := by
    unfold w State.ifThen
    split <;> exact ⟨⟨rfl, rfl, rfl, rfl⟩, rfl⟩
  obtain ⟨src, thetas, holdover, restep, hretimed, -⟩ := State.retime_steady w .sw
  have hclock : ((w.retime .sw).decideBook false).sw.clock = { w.sw.clock with source := src, thetas := thetas, holdover := holdover, restep := restep } :=
    (State.decideBook_upkeep _ false).clock.trans hretimed.swClock
  rw [hclock]
  exact ⟨hw.1, by rw [State.decideBook_holdings, State.retime_holdings, hw.2]⟩

theorem timeMasterSet_done {fn mb : Nat} {s : State} (h : Accepted timeMasterSetForm fn mb s) : let c := s.sw.cmdOf fn mb 8
    After (.timeMasterSet fn mb) s fun t => Answered fn mb mbOk 0 [] s t ∧ t.sw.clock.master = c.num 0x80 2 ∧ t.sw.clock.standby = c.num 0x82 2
      ∧ t.sw.clock.lost = false ∧ t.sw.clock.now = s.sw.clock.now ∧ t.sw.mem = s.sw.mem ∧ t.ep = s.ep := by
  intro c
  obtain ⟨hclock, hheld⟩ := State.nameMasters_names (s.dequeued fn mb) (c.num 0x80 2) (c.num 0x82 2)
  obtain ⟨hteller, hmem, hep⟩ := State.holdings_iff.mp hheld
  obtain ⟨hanswered, hframe⟩ := h.answers (u := (s.dequeued fn mb).nameMasters (c.num 0x80 2) (c.num 0x82 2)) rfl hteller (.refl _)
  rw [← hframe.clock] at hclock
  exact ⟨_, rfl, hanswered, hclock.1, hclock.2.1, hclock.2.2.1, hclock.2.2.2, hframe.mem.trans hmem, hframe.ep.trans hep⟩

theorem State.dequeued_onClock (s : State) (fn mb : Nat) (g : Clock → Clock) : AnswerFrame (s.onClock .sw g) ((s.dequeued fn mb).onClock .sw g) :=
  ⟨rfl, List.prefix_refl _⟩

/-- TIME_SET to a time x: the kernel is not to work out what its seconds and fraction come to. -/
theorem timeSet_to {fn mb x : Nat} {s : State} (h : Accepted timeSetForm fn mb s)
    (hx : ofSecFrac ((s.sw.cmdOf fn mb 16).num 0x80 6) ((s.sw.cmdOf fn mb 16).num 0x88 4) = x) :
    After (.timeSet fn mb) s fun t => Answered fn mb mbOk 0 [] s t
      ∧ t.sw.clock = { s.sw.clock with
          now := x, valid := true, pps := bit ((s.sw.cmdOf fn mb 16).num 0x8C 1) 0, ppsEdge := s.sw.clock.ppsEdge.map fun e => e + x - s.sw.clock.now }
      ∧ AnswerFrame (s.onSw fun w => { w with clock := t.sw.clock }) t := by
  have hc : timeSetForm.commit (s.sw.cmdOf fn mb timeSetForm.len) (s.dequeued fn mb)
      = (.now [], (s.dequeued fn mb).onClock .sw fun k => { k.stepTo x with valid := true, pps := bit ((s.sw.cmdOf fn mb 16).num 0x8C 1) 0 }) := by
    rw [← hx]
    rfl
  obtain ⟨hanswered, hframe⟩ := h.answers hc rfl (State.dequeued_onClock s fn mb fun k => { k.stepTo x with valid := true, pps := bit ((s.sw.cmdOf fn mb 16).num 0x8C 1) 0 })
  refine ⟨_, rfl, hanswered, hframe.clock, ?_⟩
  rw [hframe.clock]
  exact hframe

/-! ### SCHED_STAGE asks the host (11 R299; 18 R454) -/

section
variable {k : Form} {fn mb : Nat} {s : State} {holds : List Obj} {ask : State → State} {fails : State → Active → State}

/-- A command that first reads the host stands on the list of active commands when it asks. -/
theorem Accepted.startsHost (h : Accepted k fn mb s)
    (hc : k.commit (s.sw.cmdOf fn mb k.len) (s.dequeued fn mb) = (.later (.hostRead 0) holds [], s.dequeued fn mb))
    (hs : ∀ v, k.start (s.sw.cmdOf fn mb k.len) v = v.askHost fn mb ask fails) :
    ∃ (w : State) (q : Nat), AnswerFrame s w ∧ w.sw.teller = { s.sw.teller with
        order := s.sw.teller.order.erase (fn, mb), active := s.sw.teller.active ++ [k.activeAs s fn mb (.hostRead 0) holds [] q] }
      ∧ (s.sw.hostReads = true → s.takeCommand k fn mb = ask w)
      ∧ (s.sw.hostReads = false → s.sw.activeOf fn mb = none →
        s.takeCommand k fn mb = (fails w (k.activeAs s fn mb (.hostRead 0) holds [] q)).completeCommand fn mb) := by
  obtain ⟨w, q, ht, hframe, hteller⟩ := h.starts hc
  have hreads : w.sw.hostReads = s.sw.hostReads := by
    rw [hframe.1]
    rfl
  rw [hs, State.askHost, hreads] at ht
  refine ⟨w, q, hframe, hteller, fun hhost => ht.trans (if_pos hhost), fun hhost hnone => ?_⟩
  rw [ht, hhost, Switch.activeOf_joined hnone (congrArg Teller.active hteller)]
  rfl

/-- Where the host can be read, the bytes are asked for and the command works on. -/
theorem Accepted.startsHost_reads (h : Accepted k fn mb s) {i : Instr} {addr len : Nat} (hi : exec i s = .next (s.takeCommand k fn mb))
    (hc : k.commit (s.sw.cmdOf fn mb k.len) (s.dequeued fn mb) = (.later (.hostRead 0) holds [], s.dequeued fn mb))
    (hs : ∀ v, k.start (s.sw.cmdOf fn mb k.len) v = v.askHost fn mb (·.commandRead addr len) fails) (hhost : s.sw.hostReads = true) :
    After i s fun t => Working fn mb (.hostRead 0) holds [] s t ∧ AnswerFrame s t
      ∧ ∀ j < ceilDiv len s.sw.host.pf.maxRead,
          Out.pcieRead (addr + s.sw.host.pf.maxRead * j) (min s.sw.host.pf.maxRead (len - s.sw.host.pf.maxRead * j)) ∈ t.out := by
  obtain ⟨w, q, hframe, hteller, hasks, -⟩ := h.startsHost hc hs
  have hlargest : w.sw.host.pf = s.sw.host.pf := by rw [hframe.1]
  refine ⟨_, hi, ?_⟩
  rw [hasks hhost, State.commandRead_eq, hlargest]
  refine ⟨⟨fun f m => by rw [Switch.mailbox, hteller]; rfl, by rw [hteller], k.activeAs s fn mb (.hostRead 0) holds [] q, by rw [hteller],
    rfl, rfl, rfl, rfl, rfl, rfl, rfl, rfl⟩, hframe.trans ⟨rfl, List.prefix_append _ _⟩, fun j hj => ?_⟩
  exact List.mem_append_right _ (List.mem_map.mpr ⟨_, List.mem_map.mpr ⟨j, List.mem_range.mpr hj, rfl⟩, rfl⟩)

/-- Where it cannot, the command ends with TIMEOUT at once, after what its failure changes. -/
theorem Accepted.startsHost_fails (h : Accepted k fn mb s)
    (hc : k.commit (s.sw.cmdOf fn mb k.len) (s.dequeued fn mb) = (.later (.hostRead 0) holds [], s.dequeued fn mb))
    (hs : ∀ v, k.start (s.sw.cmdOf fn mb k.len) v = v.askHost fn mb ask fails) {g : State → State} (hg : ∀ v, (g v).sw.teller = v.sw.teller)
    (hfails : ∀ v q, fails v (k.activeAs s fn mb (.hostRead 0) holds [] q) = (g v).finishWork fn mb mbTimeout [])
    (hhost : s.sw.hostReads = false) (hnone : s.sw.activeOf fn mb = none) :
    Answered fn mb mbTimeout 0 [] s (s.takeCommand k fn mb) ∧ ∃ w, AnswerFrame s w ∧ AnswerFrame (g w) (s.takeCommand k fn mb) := by
  obtain ⟨w, q, hframe, hteller, -, hends⟩ := h.startsHost hc hs
  have hmailbox (f m : Nat) : w.sw.mailbox f m = s.sw.mailbox f m := by
    rw [Switch.mailbox, hteller]
    rfl
  have hactive : (g w).sw.activeOf fn mb = some (k.activeAs s fn mb (.hostRead 0) holds [] q) :=
    Switch.activeOf_joined hnone (by rw [hg, hteller])
  obtain ⟨x, r, hx, hresponds⟩ := State.completeActive_responds (a := { k.activeAs s fn mb (.hostRead 0) holds [] q with result := some (mbTimeout, []) })
    rfl ((g w).finishWork fn mb mbTimeout []) mbTimeout []
  have hanswers : s.takeCommand k fn mb = x.respond fn mb (s.sw.mailbox fn mb).seq mbTimeout 0 r [] := by
    rw [hends hhost hnone, hfails, State.completeCommand_finishWork hactive rfl]
    exact hresponds
  obtain ⟨hxteller, -⟩ := hx.fields
  have horder : x.sw.teller.order = s.sw.teller.order.erase (fn, mb) := by
    rw [hxteller]
    simp [State.finishWork, hg, hteller]
  have hbox (f m : Nat) : x.sw.mailbox f m = s.sw.mailbox f m := by
    refine (hx.mailbox f m).trans (Eq.trans ?_ (hmailbox f m))
    simp [Switch.mailbox, State.finishWork, hg]
  rw [hanswers]
  exact ⟨State.respond_answered hbox horder _ _ _ _, w, hframe, AnswerFrame.trans ⟨rfl, List.prefix_refl _⟩ (hx.answer.trans (State.respond_frame _ _ _ _ _ _ _ _))⟩

end

/-- SCHED_STAGE that cannot read the host empties the standby bank (11 R299). -/
def State.noPackage (s : State) : State := s.onSched .sw fun x => { x with staging := none, standby := none }

theorem State.stageEnds_timeout {a : Active} (h : a.opcode < 0x10000) (s : State) : s.stageEnds a mbTimeout [] = s.noPackage.finishWork a.fn a.mb mbTimeout [] := by
  have hone : ¬(0x10000 ≤ a.opcode ∨ mbTimeout = mbConflict) := by
    simp [Nat.not_le.mpr h, mbTimeout, mbConflict]
  unfold State.stageEnds
  simp only [if_neg hone]
  rfl

theorem schedStage_done {fn mb : Nat} {s : State} (h : Accepted schedStageForm fn mb s) :
    HostAsked fn mb (.schedStage fn mb) [.bank] ((s.sw.cmdOf fn mb 16).num 0x80 8) 0x100 s
      ∧ (s.sw.hostReads = false → s.sw.activeOf fn mb = none → After (.schedStage fn mb) s fun t => t.sw.sched.standby = none ∧ t.sw.sched.staging = none) := by
  have hfails := h.startsHost_fails rfl (fun _ => rfl) (g := State.noPackage) (fun _ => rfl) fun v q =>
    State.stageEnds_timeout (show schedStageForm.opcode < 0x10000 by decide) v
  refine ⟨⟨h.startsHost_reads rfl rfl fun _ => rfl, fun hhost hnone => ⟨_, rfl, ?_⟩⟩, fun hhost hnone => ⟨_, rfl, ?_⟩⟩
  · obtain ⟨hanswered, w, hw, hframe⟩ := hfails hhost hnone
    exact ⟨hanswered, hframe.mem.trans hw.mem, hframe.ep.trans hw.ep⟩
  · obtain ⟨-, w, -, hframe⟩ := hfails hhost hnone
    rw [hframe.sched]
    exact ⟨rfl, rfl⟩

/-! ### SCHED_ARM and SCHED_DISARM tell the end-points (11 R300 to R302) -/

/-- A frame that the end-point of each edge port is sent takes a number of its own. -/
theorem State.tellEps_told (s : State) (data : List Byte) : ToldFrame s (s.tellEps data) ∧ (s.tellEps data).sw.teller = s.sw.teller
    ∧ (s.tellEps data).sw.mgmt.nextRelay = s.sw.mgmt.nextRelay + s.sw.edgesUp.length := by
  unfold State.tellEps
  generalize s.sw.edgesUp = l
  induction l generalizing s with
  | nil => exact ⟨.refl s, rfl, rfl⟩
  | cons p l ih =>
    obtain ⟨htold, hteller, hnext⟩ := ih (s.relayEp p mConfig data none)
    obtain ⟨hkept, hone⟩ := State.relay_mgmt s p (mgmtFrame (epId s.sw.sys.rack p) s.sw.sys.homeId (s.sw.incFor (epId s.sw.sys.rack p)) mConfig 0 data) none
    refine ⟨(State.relay_told _ _ _ _).trans htold, hteller.trans hkept, hnext.trans ?_⟩
    rw [show (s.relayEp p mConfig data none).sw.mgmt.nextRelay = _ from hone, List.length_cons]
    omega

theorem ReportFrame.edgesUp {s t : State} (h : ReportFrame s t) : t.sw.edgesUp = s.sw.edgesUp := by
  rw [h.1]
  rfl

/-- A command that changes the switch and tells its end-points. -/
theorem Accepted.tells {k : Form} {fn mb : Nat} {s v w : State} {data : List Byte} (h : Accepted k fn mb s)
    (hc : k.commit (s.sw.cmdOf fn mb k.len) (s.dequeued fn mb) = (.now [], (w.setEvent evSched).tellEps data)) (hteller : w.sw.teller = (s.dequeued fn mb).sw.teller)
    (hv : AnswerFrame v w) (hedges : w.sw.edgesUp = s.sw.edgesUp) (hmgmt : w.sw.mgmt = s.sw.mgmt) :
    Answered fn mb mbOk 0 [] s (s.takeCommand k fn mb) ∧ ToldFrame v (s.takeCommand k fn mb)
      ∧ (s.takeCommand k fn mb).sw.mgmt.nextRelay = s.sw.mgmt.nextRelay + s.sw.edgesUp.length := by
  obtain ⟨htold, hkept, hnext⟩ := State.tellEps_told (w.setEvent evSched) data
  have hevent := State.setEvent_report w evSched
  obtain ⟨hsame, -, -, -, -, -, -, -, -, -, -, hrelay, -⟩ := hevent.fields
  obtain ⟨hanswered, hframe⟩ := h.answers hc (hkept.trans (hsame.trans hteller)) (.refl _)
  refine ⟨hanswered, (hv.trans hevent.answer).told.trans (htold.trans hframe.told), ?_⟩
  rw [hframe.mgmt, hnext, hrelay, hmgmt, hevent.edgesUp, hedges]

/-- Settles O8: each command answers at once and changes what it names; SCHED_STAGE first asks the host. -/
theorem timeAndScheduleCommandsComplete : Obligations.TimeAndScheduleCommandsComplete := by
  unfold Obligations.TimeAndScheduleCommandsComplete
  refine fun fn mb s => ⟨timeMasterSet_done, fun h => timeSet_to h rfl, schedStage_done, fun h => ⟨_, rfl, ?arm⟩, fun h => ⟨_, rfl, ?disarm⟩, fun h => ⟨_, rfl, ?policy⟩⟩
  case arm => exact h.tells rfl rfl ⟨rfl, List.prefix_refl _⟩ rfl rfl
  case disarm => exact h.tells rfl rfl ⟨rfl, List.prefix_refl _⟩ rfl rfl
  case policy => exact h.answers rfl rfl ⟨rfl, List.prefix_refl _⟩

/-! ### A device's schedule and the places of its ports in their lists (11 R294) -/

/-- The schedule of a device and the place of each port in its gate list. -/
def State.timetable (s : State) (d : Dev) : Sched × (Nat → GatePos) := (s.getSched d, s.getGate d)

theorem State.timetable_iff {s t : State} {d : Dev} : t.timetable d = s.timetable d ↔ t.getSched d = s.getSched d ∧ ∀ p, t.getGate d p = s.getGate d p := by
  simp [State.timetable, funext_iff]

/-- What of it a change of book leaves: the packages, the book that runs, the cycle, and the entry that each port runs. -/
def State.rota (s : State) (d : Dev) : (Option Package × Option Package × Option Nat × Nat × Nat) × (Nat → Nat × Nat) :=
  (((s.getSched d).active, (s.getSched d).standby, (s.getSched d).armed, (s.getSched d).book, (s.getSched d).cycle),
   fun p => ((s.getGate d p).entry, (s.getGate d p).began))

theorem State.rota_iff {s t : State} {d : Dev} : t.rota d = s.rota d ↔ ((t.getSched d).active = (s.getSched d).active ∧ (t.getSched d).standby = (s.getSched d).standby
    ∧ (t.getSched d).armed = (s.getSched d).armed ∧ (t.getSched d).book = (s.getSched d).book ∧ (t.getSched d).cycle = (s.getSched d).cycle)
    ∧ ∀ p, (t.getGate d p).entry = (s.getGate d p).entry ∧ (t.getGate d p).began = (s.getGate d p).began := by
  simp [State.rota, funext_iff]

theorem State.rota_of_timetable {s t : State} {d : Dev} (h : t.timetable d = s.timetable d) : t.rota d = s.rota d := by
  obtain ⟨hsched, hgate⟩ := State.timetable_iff.mp h
  simp [State.rota, hsched, hgate]

@[simp] theorem State.each_timetable {α : Type} {d : Dev} {g : State → α → State} (hg : ∀ u a, (g u a).timetable d = u.timetable d) (s : State) (l : List α) :
    (s.each l g).timetable d = s.timetable d :=
  State.each_keeps (P := fun u => u.timetable d = s.timetable d) rfl fun u hu a => (hg u a).trans hu

@[simp] theorem State.each_rota {α : Type} {d : Dev} {g : State → α → State} (hg : ∀ u a, (g u a).rota d = u.rota d) (s : State) (l : List α) :
    (s.each l g).rota d = s.rota d :=
  State.each_keeps (P := fun u => u.rota d = s.rota d) rfl fun u hu a => (hg u a).trans hu

theorem ToldFrame.timetable {s t : State} (h : ToldFrame s t) : t.timetable .sw = s.timetable .sw := by
  rw [h.1]
  rfl

theorem ReportFrame.timetable {s t : State} (h : ReportFrame s t) : t.timetable .sw = s.timetable .sw := h.answer.told.timetable

@[simp] theorem State.onSched_getSched (s : State) (d : Dev) (g : Sched → Sched) : (s.onSched d g).getSched d = g (s.getSched d) := by
  cases d <;> rfl

@[simp] theorem State.onSched_getGate (s : State) (d : Dev) (g : Sched → Sched) (p : Nat) : (s.onSched d g).getGate d p = s.getGate d p := by
  cases d <;> rfl

@[simp] theorem State.onGate_getSched (s : State) (d : Dev) (p : Nat) (g : GatePos → GatePos) : (s.onGate d p g).getSched d = s.getSched d := by
  cases d <;> rfl

theorem State.getGate_onGate_ne {p q : Nat} (h : q ≠ p) (s : State) (d : Dev) (g : GatePos → GatePos) : (s.onGate d p g).getGate d q = s.getGate d q := by
  cases d
  · exact Tab.get_put_ne _ _ _ _ _ h
  · exact Tab.get_put_ne _ _ _ _ _ h

/-- A change of a port's gates that leaves its entry. -/
theorem State.onGate_rota (s : State) (d : Dev) (p : Nat) {g : GatePos → GatePos} (hentry : ∀ x, (g x).entry = x.entry) (hbegan : ∀ x, (g x).began = x.began) :
    (s.onGate d p g).rota d = s.rota d := by
  refine State.rota_iff.mpr ⟨by simp, fun q => ?_⟩
  by_cases hq : q = p
  · simp [hq, hentry, hbegan]
  · simp [State.getGate_onGate_ne hq]

/-! ### What follows a boundary at the switch and at the AKG-8 -/

theorem State.slotMisses_told (s : State) (p before after : Nat) : ToldFrame s (s.slotMisses p before after) := by
  unfold State.slotMisses
  refine State.each_keeps (.refl s) fun u hu c => hu.trans ?_
  split
  · exact State.countN_told _ _ _ _
  · exact .refl u

theorem State.revote_told (s : State) (kind index : Nat) : ToldFrame s (s.revote kind index) := by
  unfold State.revote
  dsimp only
  split
  · split
    · exact ⟨rfl, List.prefix_refl _⟩
    · exact .refl s
  · split
    · exact .refl s
    · split
      · exact ⟨rfl, List.prefix_refl _⟩
      · unfold State.beginExit
        dsimp only
        split
        · exact ⟨rfl, List.prefix_append _ _⟩
        · exact ⟨rfl, List.prefix_refl _⟩

theorem State.revoteAll_told (s : State) : ToldFrame s s.revoteAll := State.each_keeps (.refl s) fun u hu _ => hu.trans (State.revote_told u _ _)

@[simp] theorem State.epWake_timetable (s : State) (p : Nat) : (s.epWake p).timetable .ep = s.timetable .ep := by
  unfold State.epWake
  dsimp only
  split
  · rfl
  · split <;> rfl

@[simp] theorem State.epChime_timetable (s : State) (p : Nat) : (s.epChime p).timetable .ep = s.timetable .ep := by
  unfold State.epChime
  split
  · exact State.epWake_timetable _ p
  · rfl

@[simp] theorem State.drainQueue_timetable (p cls n : Nat) : ∀ s : State, (s.drainQueue p cls n).timetable .ep = s.timetable .ep := by
  induction n with
  | zero => exact fun _ => rfl
  | succ n ih =>
    intro s
    unfold State.drainQueue
    split
    · rfl
    · split
      · exact ih _
      · rfl

@[simp] theorem State.epDrain_timetable (s : State) : s.epDrain.timetable .ep = s.timetable .ep := by
  simp [State.epDrain]

theorem State.epDrain_sameMemory (s : State) : SameMemory s s.epDrain := by
  obtain ⟨hsw, hhome, -⟩ := State.epDrain_drained s
  exact .of_homes (by rw [hsw]) hhome

theorem ToldFrame.sameMemory {s t : State} (h : ToldFrame s t) : SameMemory s t := .of_homes (by rw [h.1]) (by rw [h.1])


/-- The device goes on after an event of its schedule: the switch's power domains are voted on again, the AKG-8 sends what may leave. -/
def State.goesOn (s : State) (d : Dev) : State := match d with | .sw => s.revoteAll | .ep => s.epDrain

theorem State.goesOn_keeps (s : State) (d : Dev) : (s.goesOn d).timetable d = s.timetable d ∧ SameMemory s (s.goesOn d) := by
  cases d
  · exact ⟨(State.revoteAll_told s).timetable, (State.revoteAll_told s).sameMemory⟩
  · exact ⟨State.epDrain_timetable s, State.epDrain_sameMemory s⟩

/-! ### The end of an entry (11 R294) -/

/-- At the end of an entry the next one begins; what follows leaves the schedule, the gates and the stores. -/
theorem State.gateEntryEnd_next (s : State) (d : Dev) (p : Nat) :
    (s.gateEntryEnd d p).timetable d = (s.nextEntry d p).timetable d ∧ SameMemory (s.nextEntry d p) (s.gateEntryEnd d p) := by
  cases d
  · exact ⟨(State.slotMisses_told _ _ _ _).timetable, (State.slotMisses_told _ _ _ _).sameMemory⟩
  · exact ⟨State.epDrain_timetable _, State.epDrain_sameMemory _⟩

theorem State.nextEntry_sameMemory (s : State) (d : Dev) (p : Nat) : SameMemory s (s.nextEntry d p) := (State.onGate_steady s d p _).toUntouched.sameMemory

/-! ### A cycle begins (11 R294, R302, R308) -/

/-- A change of book that is due at a cycle takes effect in the schedule. -/
def Sched.due (x : Sched) (cycle : Nat) : Sched :=
  match x.pending_ with
  | some c => if c.cycle ≤ cycle then { x with pending_ := none, late := false, book := c.book } else x
  | none => x

theorem Sched.due_book (x : Sched) (cycle : Nat) :
    (x.due cycle).book = match x.pending_ with | some c => if c.cycle ≤ cycle then c.book else x.book | none => x.book := by
  unfold Sched.due
  split
  · split <;> rfl
  · rfl

theorem Sched.due_standing (x : Sched) (cycle : Nat) :
    (x.due cycle).active = x.active ∧ (x.due cycle).standby = x.standby ∧ (x.due cycle).armed = x.armed := by
  unfold Sched.due
  split
  · split <;> exact ⟨rfl, rfl, rfl⟩
  · exact ⟨rfl, rfl, rfl⟩

theorem State.takeBook_getSched (s : State) (d : Dev) (b : Nat) : (s.takeBook d b).getSched d = { s.getSched d with book := b } := by
  unfold State.takeBook
  split
  · next h => rw [← h]
  · cases d
    · exact congrArg Prod.fst (State.setEvent_report _ _).timetable
    · rfl

theorem State.takeBook_sameMemory (s : State) (d : Dev) (b : Nat) : SameMemory s (s.takeBook d b) := by
  cases d
  · exact (State.takeBook_upkeep s b).steady.toUntouched.sameMemory
  · unfold State.takeBook
    split
    · exact fun _ => ⟨rfl, rfl⟩
    · exact (State.onSched_steady s .ep _).toUntouched.sameMemory

theorem State.bookDue_due (s : State) (d : Dev) (cycle : Nat) :
    (s.bookDue d cycle).getSched d = (s.getSched d).due cycle ∧ SameMemory s (s.bookDue d cycle) := by
  unfold State.bookDue Sched.due State.ifThen
  cases (s.getSched d).pending_ with
  | none => exact ⟨rfl, fun _ => ⟨rfl, rfl⟩⟩
  | some c =>
    by_cases hdue : c.cycle ≤ cycle
    · simp only [hdue, decide_true, if_true]
      exact ⟨by simp [State.takeBook_getSched], (State.onSched_steady s d _).toUntouched.sameMemory.trans (State.takeBook_sameMemory _ d _)⟩
    · simp only [hdue, decide_false, if_false, Bool.false_eq_true]
      exact ⟨trivial, fun _ => ⟨rfl, rfl⟩⟩

/-- Entry 0 begins on a port; slot misses are counted at the switch. -/
def State.restartGate (s : State) (d : Dev) (before : List Nat) (at_ p : Nat) : State :=
  let u := s.onGate d p fun g => { g with entry := 0, began := at_ }
  match d with | .sw => u.slotMisses p (before.getD p 0) (u.gateMask d p) | .ep => u

theorem State.restartGates_eq (s : State) (d : Dev) (before : List Nat) (at_ : Nat) :
    s.restartGates d before at_ = s.each (List.range (portCount d)) fun u p => u.restartGate d before at_ p := by
  cases d <;> rfl

theorem State.restartGate_timetable (s : State) (d : Dev) (before : List Nat) (at_ p : Nat) :
    (s.restartGate d before at_ p).timetable d = (s.onGate d p fun g => { g with entry := 0, began := at_ }).timetable d := by
  cases d
  · exact (State.slotMisses_told _ _ _ _).timetable
  · rfl

theorem State.restartGate_steady (s : State) (d : Dev) (before : List Nat) (at_ p : Nat) : Steady s (s.restartGate d before at_ p) := by
  have hgate := State.onGate_steady s d p fun g => { g with entry := 0, began := at_ }
  cases d
  · refine hgate.trans (State.each_keeps (.refl _) fun u hu c => hu.trans ?_)
    split
    · exact (State.countN_sent _ _ _ _).upkeep.steady
    · exact .refl u
  · exact hgate

/-- Entry 0 begins on every port of a device; nothing else of its schedule changes. -/
theorem State.restartGates_begins (s : State) (d : Dev) (before : List Nat) (at_ : Nat) :
    (s.restartGates d before at_).getSched d = s.getSched d ∧ Steady s (s.restartGates d before at_)
      ∧ ∀ p < portCount d, ((s.restartGates d before at_).getGate d p).entry = 0 ∧ ((s.restartGates d before at_).getGate d p).began = at_ := by
  rw [State.restartGates_eq]
  have hone (u : State) (q : Nat) := State.timetable_iff.mp (State.restartGate_timetable u d before at_ q)
  refine ⟨State.each_keeps (P := fun u => u.getSched d = s.getSched d) rfl fun u hu q => ?_, .each fun u q => State.restartGate_steady u d before at_ q,
    fun p hp => State.each_reaches (I := fun _ => True) (P := fun u => (u.getGate d p).entry = 0 ∧ (u.getGate d p).began = at_) (List.mem_range.mpr hp)
      (fun _ _ _ => trivial) (fun u _ => ?_) (fun u q hu => ?_) trivial⟩
  · rw [(hone u q).1, State.onGate_getSched, hu]
  · simp [(hone u p).2]
  · rw [(hone u q).2]
    by_cases hq : p = q
    · simp [hq]
    · rwa [State.getGate_onGate_ne hq]

/-- Gates that open again leave the entries. -/
theorem State.reopen_keeps (s : State) (d : Dev) : (s.reopen d).rota d = s.rota d ∧ Steady s (s.reopen d) := by
  have hone (u : State) (p : Nat) (c : Bool) : let v := if c then u.onGate d p fun g => { g with closed := false } else u
      v.rota d = u.rota d ∧ Steady u v := by
    cases c
    · exact ⟨rfl, .refl u⟩
    · exact ⟨State.onGate_rota u d p (g := fun g => { g with closed := false }) (fun _ => rfl) fun _ => rfl, State.onGate_steady u d p fun g => { g with closed := false }⟩
  exact ⟨State.each_rota (fun u p => (hone u p _).1) s _, .each fun u p => (hone u p _).2⟩

theorem State.sendBookSet_rota (s : State) (p : Nat) (c : BookChange) (n : Nat) : (s.sendBookSet .sw p c n).rota .sw = s.rota .sw :=
  State.rota_of_timetable (s := s.onSched .sw _) (State.fromSource_told _ _ _ _).timetable

/-- While a package runs, a change of book that the master begins is to come. -/
theorem State.decideBook_rota {s : State} (h : s.sw.sched.active.isSome = true) (held : Bool) : (s.decideBook held).rota .sw = s.rota .sw := by
  have hchange (b : Nat) : (s.changeBook b).rota .sw = s.rota .sw := by
    unfold State.changeBook
    obtain ⟨k, hk⟩ := Option.isSome_iff_exists.mp h
    simp only [hk, Option.isNone_some, Bool.false_eq_true, if_false]
    exact State.each_rota (fun u p => State.sendBookSet_rota u p _ 1) _ _
  unfold State.decideBook
  dsimp only
  split
  · rfl
  · split
    · exact hchange _
    · rfl

/-- At a cycle boundary the master chooses the book anew. -/
def State.booked (s : State) (d : Dev) : State := match d with | .sw => s.decideBook false | .ep => s

theorem State.booked_keeps {s : State} {d : Dev} (h : (s.getSched d).active.isSome = true) : (s.booked d).rota d = s.rota d ∧ SameMemory s (s.booked d) := by
  cases d
  · exact ⟨State.decideBook_rota h false, (State.decideBook_upkeep s false).steady.toUntouched.sameMemory⟩
  · exact ⟨rfl, fun _ => ⟨rfl, rfl⟩⟩

/-- A cycle of a package begins on a device: entry 0 on every port, gates that may reopen, and at the switch the choice of the book. -/
def State.beginCycle (s : State) (d : Dev) (before : List Nat) (k : Package) (cycle : Nat) : State :=
  ((s.restartGates d before (k.instant cycle)).reopen d).booked d

/-- While a package runs, the cycle that begins leaves packages, book and cycle number, and every port is at entry 0. -/
theorem State.beginCycle_begins {s : State} {d : Dev} (h : (s.getSched d).active.isSome = true) (before : List Nat) (k : Package) (cycle : Nat) :
    let t := s.beginCycle d before k cycle
    ((t.getSched d).active = (s.getSched d).active ∧ (t.getSched d).standby = (s.getSched d).standby ∧ (t.getSched d).armed = (s.getSched d).armed
      ∧ (t.getSched d).book = (s.getSched d).book ∧ (t.getSched d).cycle = (s.getSched d).cycle)
    ∧ (∀ p < portCount d, (t.getGate d p).entry = 0 ∧ (t.getGate d p).began = k.instant cycle) ∧ SameMemory s t := by
  unfold State.beginCycle
  obtain ⟨hsched, hsteady, hgates⟩ := State.restartGates_begins s d before (k.instant cycle)
  obtain ⟨hreopen, hopen⟩ := State.reopen_keeps (s.restartGates d before (k.instant cycle)) d
  obtain ⟨⟨hactive, -⟩, -⟩ := State.rota_iff.mp hreopen
  obtain ⟨hbooked, hmem⟩ := State.booked_keeps (by rwa [hactive, hsched])
  obtain ⟨hstands, hentries⟩ := State.rota_iff.mp (hbooked.trans hreopen)
  rw [hsched] at hstands
  exact ⟨hstands, fun p hp => ⟨(hentries p).1.trans (hgates p hp).1, (hentries p).2.trans (hgates p hp).2⟩, (hsteady.trans hopen).toUntouched.sameMemory.trans hmem⟩

/-- What a device goes on with leaves the cycle that has begun. -/
theorem State.cycle_goesOn {s t u : State} {d : Dev} {before : List Nat} {k : Package} {cycle : Nat} (ht : t = (u.beginCycle d before k cycle).goesOn d)
    (hactive : (u.getSched d).active = some k) (hmem : SameMemory s u) :
    ((t.getSched d).active = some k ∧ (t.getSched d).standby = (u.getSched d).standby ∧ (t.getSched d).armed = (u.getSched d).armed
      ∧ (t.getSched d).book = (u.getSched d).book ∧ (t.getSched d).cycle = (u.getSched d).cycle)
    ∧ (∀ p < portCount d, (t.getGate d p).entry = 0 ∧ (t.getGate d p).began = k.instant cycle) ∧ SameMemory s t := by
  obtain ⟨hstands, hgates, hbegun⟩ := State.beginCycle_begins (by rw [hactive]; rfl) before k cycle (s := u)
  obtain ⟨htable, hgone⟩ := State.goesOn_keeps (u.beginCycle d before k cycle) d
  obtain ⟨hsched, hgate⟩ := State.timetable_iff.mp htable
  subst ht
  rw [hsched, ← hactive]
  exact ⟨hstands, fun p hp => by rw [hgate]; exact hgates p hp, (hmem.trans hbegun).trans hgone⟩

/-- At a boundary of the package that runs, with none armed, its next cycle begins. -/
theorem State.cycleBoundary_runs {s : State} {d : Dev} {a : Package} (ha : (s.getSched d).active = some a) (harmed : (s.getSched d).armed = none) (cycle : Nat) :
    ∃ before, s.cycleBoundary d cycle = (((s.bookDue d cycle).onSched d fun y => { y with cycle := cycle }).beginCycle d before a cycle).goesOn d := by
  have hnone : (s.getSched d).armedBoundary = none := by simp [Sched.armedBoundary, harmed]
  refine ⟨(List.range (portCount d)).map fun p => s.gateMask d p, ?_⟩
  unfold State.cycleBoundary
  simp only [ha, hnone]
  cases d <;> rfl

/-- At the boundary of the armed package it activates, and its cycle begins. -/
theorem State.cycleBoundary_activates {s : State} {d : Dev} {k : Package} {n cycle : Nat} (h : (s.getSched d).armedBoundary = some (cycle, k, n)) :
    ∃ before, s.cycleBoundary d cycle = (((s.bookDue d cycle).activate d k n).beginCycle d before k n).goesOn d := by
  refine ⟨(List.range (portCount d)).map fun p => s.gateMask d p, ?_⟩
  unfold State.cycleBoundary
  simp only [h, if_true]
  cases d <;> rfl

/-- A package that activates runs from its cycle on, and the one before it stands by. -/
theorem State.activate_exchanges (s : State) (d : Dev) (k : Package) (n : Nat) : let t := s.activate d k n
    (t.getSched d).active = some k ∧ (t.getSched d).standby = (s.getSched d).active ∧ (t.getSched d).armed = none ∧ (t.getSched d).cycle = n ∧ SameMemory s t := by
  have hset := State.onSched_steady s d fun x => { x with
    active := some k, standby := x.active, armed := none, cycle := n, activated := some (k.instant n, x.armedBy.order)
    pending_ := x.pending_.map fun c => c.carry x.active k }
  cases d with
  | ep => exact ⟨rfl, rfl, rfl, rfl, hset.toUntouched.sameMemory⟩
  | sw =>
    have hreport (u : State) (ledger seq opcode : Nat) (g : Digest) := (State.setEvent_report u evSched).trans (State.ledgerAdd_report _ ledger
      (((u.setEvent evSched).mkEntry 0x03 0 (u.setEvent evSched).sw.sys.homeId (leBytes 8 seq ++ leBytes 2 opcode ++ leBytes 6 0 ++ digestBytes g))))
    have hsched : (s.activate .sw k n).getSched .sw = _ := congrArg Prod.fst (hreport _ _ _ _ _).timetable
    dsimp only
    rw [hsched]
    exact ⟨rfl, rfl, rfl, rfl, (hset.toUntouched.trans ⟨rfl, rfl, rfl, rfl⟩).sameMemory.trans (hreport _ _ _ _ _).answer.told.sameMemory⟩

/-- Settles O24: each event is its operation; what follows it leaves the schedule and the stores. -/
theorem gatesAndCyclesComplete : Obligations.GatesAndCyclesComplete := by
  unfold Obligations.GatesAndCyclesComplete
  refine fun s d => ⟨fun p => ⟨_, rfl, ?entry⟩, fun a cycle ha harmed => ⟨_, rfl, ?runs⟩, fun k n cycle harmed => ⟨_, rfl, ?activates⟩⟩
  case entry =>
    obtain ⟨hnext, hmem⟩ := State.gateEntryEnd_next s d p
    obtain ⟨hsched, hgate⟩ := State.timetable_iff.mp hnext
    refine ⟨?_, fun q hq => ?_, ?_, (State.nextEntry_sameMemory s d p).trans hmem⟩
    · exact (hgate p).trans (State.getGate_onGate s d p _)
    · exact (hgate q).trans (State.getGate_onGate_ne hq s d _)
    · exact hsched.trans (State.onGate_getSched s d p _)
  case runs =>
    obtain ⟨before, ht⟩ := State.cycleBoundary_runs ha harmed cycle
    obtain ⟨hdue, hmem⟩ := State.bookDue_due s d cycle
    obtain ⟨hactive, -⟩ := Sched.due_standing (s.getSched d) cycle
    have hset := State.onSched_steady (s.bookDue d cycle) d fun y => { y with cycle := cycle }
    obtain ⟨⟨hruns, -, -, hbook, hcycle⟩, hgates, hkept⟩ := State.cycle_goesOn ht (by simp [hdue, hactive, ha]) (hmem.trans hset.toUntouched.sameMemory)
    refine ⟨hcycle.trans (by simp), hruns, hgates, hkept, ?_⟩
    rw [hbook, State.onSched_getSched, hdue]
    exact Sched.due_book _ _
  case activates =>
    obtain ⟨before, ht⟩ := State.cycleBoundary_activates harmed
    obtain ⟨hdue, hmem⟩ := State.bookDue_due s d cycle
    obtain ⟨hactive, -⟩ := Sched.due_standing (s.getSched d) cycle
    obtain ⟨hruns, hstands, hdisarmed, hnumber, hchanged⟩ := State.activate_exchanges (s.bookDue d cycle) d k n
    obtain ⟨⟨hactivated, hstandby, harmed', -, hcycle⟩, hgates, hkept⟩ := State.cycle_goesOn ht hruns (hmem.trans hchanged)
    exact ⟨hactivated, by rw [hstandby, hstands, hdue, hactive], harmed'.trans hdisarmed, hcycle.trans hnumber, hgates, hkept⟩

/-! ### The rows of books (11 R306 to R309) -/

theorem State.getSched_eq {s t : State} (hsw : t.sw.sched = s.sw.sched) (hep : t.ep.sched = s.ep.sched) (d : Dev) : t.getSched d = s.getSched d := by
  cases d
  · exact hsw
  · exact hep

theorem SentFrame.getSched {s t : State} (h : SentFrame s t) (d : Dev) : t.getSched d = s.getSched d := by
  obtain ⟨-, -, -, -, -, -, -, -, hsched, -, -, -, hep, -⟩ := h.fields
  exact State.getSched_eq hsched (by rw [hep]) d

/-- A MGMT frame that leaves changes nothing of the schedules. -/
@[simp] theorem State.mgmtOut_getSched (s : State) (d : Dev) (p msub tag : Nat) (data : List Byte) (e : Dev) :
    (s.mgmtOut d p msub tag data).getSched e = s.getSched e := by
  cases d
  · exact (State.swSendPort_sent _ _ _ _).getSched e
  · exact State.getSched_eq (t := s.mgmtOut .ep p msub tag data) rfl rfl e

/-- A MGMT frame has arrived: it is out of the switch's inbox, or its credits are on their way back. -/
def State.mgmtTaken (s : State) (d : Dev) (p : Nat) (f : Frame) : State := match d with | .sw => s.taken f | .ep => s.credited p f

/-- The device's own work after its frame. -/
def State.mgmtDone (d : Dev) (s : State) : State := match d with | .sw => s | .ep => s.pump

theorem State.mgmtAt_takes {s : State} {d : Dev} {p : Nat} {f : Frame} (h : d = .ep → EpTakes p f s) (g : State → State) :
    s.mgmtAt d p f g = (g (s.mgmtTaken d p f)).mgmtDone d := by
  cases d
  · rfl
  · exact State.epIn_takes (h rfl) g

@[simp] theorem State.mgmtTaken_getSched (s : State) (d : Dev) (p : Nat) (f : Frame) (e : Dev) : (s.mgmtTaken d p f).getSched e = s.getSched e := by
  cases d
  · exact (State.taken_sent s f).getSched e
  · exact State.getSched_eq (t := s.mgmtTaken .ep p f) rfl rfl e

/-- A BOOK_SET that the device has seen is acknowledged, and no more. -/
theorem State.bookSetArrives_again {s : State} {d : Dev} {c : BookChange} (h : c.number ∈ (s.getSched d).seen) (p : Nat) :
    s.bookSetArrives d p c = s.mgmtOut d p mBookAck 0 (leBytes 4 c.number) := by
  unfold State.bookSetArrives
  exact if_pos (by simpa using h)

/-- A new BOOK_SET is acknowledged, noted, relayed and taken. -/
theorem State.bookSetArrives_first {s : State} {d : Dev} {c : BookChange} (h : c.number ∉ (s.getSched d).seen) (p : Nat) :
    s.bookSetArrives d p c =
      let v := (s.mgmtOut d p mBookAck 0 (leBytes 4 c.number)).onSched d fun x => { x with seen := c.number :: x.seen, lastChange := c.number, changeCount := c.number }
      (v.each ((v.portsUp d).filter (· != p)) fun s q => s.sendBookSet d q c 1).takeChange d c := by
  unfold State.bookSetArrives
  exact if_neg (by simpa using h)

theorem State.bookAck_number {s : State} {d : Dev} {p n number : Nat} {k : BookChange} (h : (s.getSched d).unacked.find p = some (k, n)) (hk : k.number = number) :
    s.bookAck d p number = s.onSched d fun x => { x with unacked := x.unacked.del p } := by
  unfold State.bookAck
  rw [h]
  exact if_pos hk

theorem State.bookResend_unacked {s : State} {d : Dev} {p n : Nat} {k : BookChange} (h : (s.getSched d).unacked.find p = some (k, n)) :
    s.bookResend d p = if n ≤ 32 then s.sendBookSet d p k (n + 1) else s.onSched d fun x => { x with unacked := x.unacked.del p } := by
  unfold State.bookResend
  rw [h]

/-- At the end of the return hold the master begins the change that the reports ask for, to whatever book. -/
theorem State.decideBook_held {s : State} (hmaster : s.sw.isMaster = true) (hpending : s.sw.sched.pending_ = none)
    (hwanted : s.sw.sched.wanted ≠ s.sw.sched.target) : s.decideBook true = s.changeBook s.sw.sched.wanted := by
  unfold State.decideBook
  simp [hmaster, hpending, hwanted]

theorem State.setSlow_changes {s : State} {v : Bool} (h : s.sw.sched.slow ≠ v) : s.setSlow v = (s.onSched .sw fun x => { x with slow := v }).reportNeeds := if_neg h

/-- Settles O41: each row is the equation of its operation; what the frame's arrival changes is not of the schedule. -/
theorem bookRowsComplete : Obligations.BookRowsComplete := by
  unfold Obligations.BookRowsComplete
  intro s d p f at_ end_ c
  have hat : at_ = s.mgmtTaken d p f := by cases d <;> rfl
  have hend (g : State → State) (htakes : d = .ep → EpTakes p f s) : s.mgmtAt d p f g = end_ (g at_) := by
    rw [State.mgmtAt_takes htakes, hat]
    cases d <;> rfl
  have hsched : at_.getSched d = s.getSched d := by rw [hat, State.mgmtTaken_getSched]
  refine ⟨fun htakes => ⟨?report, ⟨fun hseen => ?again, fun hnew => ?first⟩, fun k n hunacked hnumber => ?ack⟩,
    fun k n hunacked => congrArg Host.Outcome.next (State.bookResend_unacked hunacked), fun hmaster hpending hwanted => ?hold, fun hslow hclear => ?slow,
    fun hpace hset => ?fast⟩
  case report =>
    refine congrArg Host.Outcome.next ((hend _ htakes).trans ?_)
    cases d <;> rfl
  case again => exact congrArg Host.Outcome.next ((hend _ htakes).trans (congrArg end_ (State.bookSetArrives_again (by rwa [hsched]) p)))
  case first => exact congrArg Host.Outcome.next ((hend _ htakes).trans (congrArg end_ (State.bookSetArrives_first (by rwa [hsched]) p)))
  case ack => exact congrArg Host.Outcome.next ((hend _ htakes).trans (congrArg end_ (State.bookAck_number (by rwa [hsched]) hnumber)))
  case hold => exact congrArg Host.Outcome.next (State.decideBook_held hmaster hpending hwanted)
  case slow => exact congrArg Host.Outcome.next ((if_pos hslow).trans (State.setSlow_changes (by simp [hclear])))
  case fast => exact congrArg Host.Outcome.next ((if_pos hpace).trans (State.setSlow_changes (by simp [hset])))

/-! ### What the switch's own work leaves of its schedule

The work of a verdict, of a retirement and of ports that leave service reaches most of the switch. It leaves the packages and what is armed; as far as
no port changes it leaves the whole schedule. -/

/-- The packages and the armed cycle of the switch, and, where it is asked for, its whole schedule. -/
def State.plan (whole : Bool) (s : State) : (Option Package × Option Package × Option Nat) × Option Sched :=
  ((s.sw.sched.active, s.sw.sched.standby, s.sw.sched.armed), bif whole then some s.sw.sched else none)

/-- Reporting leaves the schedule. -/
theorem ReportFrame.sched {s t : State} (h : ReportFrame s t) : t.sw.sched = s.sw.sched := by
  rw [h.1]

/-- Reporting leaves keys and partitions. -/
theorem ReportFrame.vault {s t : State} (h : ReportFrame s t) : t.sw.vault = s.sw.vault := by
  rw [h.1]

theorem State.plan_whole {s t : State} : t.plan true = s.plan true ↔ t.sw.sched = s.sw.sched := by
  refine ⟨fun h => Option.some.inj (congrArg Prod.snd h), fun h => ?_⟩
  simp [State.plan, h]

theorem State.plan_iff {s t : State} :
    t.plan false = s.plan false ↔ t.sw.sched.active = s.sw.sched.active ∧ t.sw.sched.standby = s.sw.sched.standby ∧ t.sw.sched.armed = s.sw.sched.armed := by
  simp [State.plan]

section
variable (k : Bool)

@[simp] theorem State.plan_ite (c : Prop) [Decidable c] (s t : State) : (if c then s else t).plan k = if c then s.plan k else t.plan k := apply_ite _ _ _ _

@[simp] theorem State.each_plan {α : Type} {g : State → α → State} (hg : ∀ u a, (g u a).plan k = u.plan k) (s : State) (l : List α) :
    (s.each l g).plan k = s.plan k :=
  State.each_keeps (P := fun u => u.plan k = s.plan k) rfl fun u hu a => (hg u a).trans hu

theorem SentFrame.plan {s t : State} (h : SentFrame s t) : t.plan k = s.plan k := by
  rw [h.1]
  rfl

theorem ReportFrame.plan {s t : State} (h : ReportFrame s t) : t.plan k = s.plan k := by
  rw [h.1]
  rfl

/-- A change of the switch beside its schedule. -/
@[simp] theorem State.onSw_plan {g : Switch → Switch} (hg : ∀ w, (g w).sched = w.sched) (s : State) : (s.onSw g).plan k = s.plan k := by
  simp [State.plan, hg]

@[simp] theorem State.onEp_plan (s : State) (g : EndPoint → EndPoint) : (s.onEp g).plan k = s.plan k := rfl
@[simp] theorem State.emit_plan (s : State) (o : Out) : (s.emit o).plan k = s.plan k := rfl
@[simp] theorem State.free_plan (s : State) : s.free.2.plan k = s.plan k := rfl
@[simp] theorem State.onUnit_plan (s : State) (i : Nat) (g : Unit → Unit) : (s.onUnit i g).plan k = s.plan k := rfl
@[simp] theorem State.countN_plan (s : State) (block i n : Nat) : (s.countN block i n).plan k = s.plan k := rfl
@[simp] theorem State.count_plan (s : State) (block i : Nat) : (s.count block i).plan k = s.plan k := rfl
@[simp] theorem State.putSlot_plan (s : State) (i : Nat) (v : KeySlot) : (s.putSlot i v).plan k = s.plan k := rfl
@[simp] theorem State.putPart_plan (s : State) (p : Nat) (v : Part) : (s.putPart p v).plan k = s.plan k := rfl
@[simp] theorem State.putEngine_plan (s : State) (e : Nat) (v : Engine) : (s.putEngine e v).plan k = s.plan k := rfl
@[simp] theorem State.putSynd_plan (s : State) (i : Nat) (y : Synd) : (s.putSynd i y).plan k = s.plan k := rfl
@[simp] theorem State.onEscrow_plan (s : State) (g : Escrow → Escrow) : (s.onEscrow g).plan k = s.plan k := rfl
@[simp] theorem State.onXlat_plan (s : State) (g : Xlat → Xlat) : (s.onXlat g).plan k = s.plan k := rfl
@[simp] theorem State.onMem_plan (s : State) (g : Mem → Mem) : (s.onMem g).plan k = s.plan k := rfl
@[simp] theorem State.onHome_plan (s : State) (g : Home → Home) : (s.onHome g).plan k = s.plan k := rfl
@[simp] theorem State.onRegion_plan (s : State) (i : Nat) (g : Region → Region) : (s.onRegion i g).plan k = s.plan k := rfl
@[simp] theorem State.onLine_plan (s : State) (l : Nat) (g : LineMeta → LineMeta) : (s.onLine l g).plan k = s.plan k := rfl
@[simp] theorem State.onDomain_plan (s : State) (kind i : Nat) (g : Domain → Domain) : (s.onDomain kind i g).plan k = s.plan k := rfl
@[simp] theorem State.onEpRec_plan (s : State) (h : Nat) (g : EpRec → EpRec) : (s.onEpRec h g).plan k = s.plan k := rfl
@[simp] theorem State.putEntry_plan (s : State) (e : DirEntry) : (s.putEntry e).plan k = s.plan k := rfl
@[simp] theorem State.putBusy_plan (s : State) (b : Busy) : (s.putBusy b).plan k = s.plan k := rfl
@[simp] theorem State.endBusy_plan (s : State) (l : Nat) : (s.endBusy l).plan k = s.plan k := rfl
@[simp] theorem State.retryFirst_plan (s : State) (pos : Nat) (f : Frame) : (s.retryFirst pos f).plan k = s.plan k := rfl
@[simp] theorem State.dropHeld_plan (s : State) (f : Frame) : (s.dropHeld f).plan k = s.plan k := rfl
@[simp] theorem State.noteDiscard_plan (s : State) (p : Nat) : (s.noteDiscard p).plan k = s.plan k := rfl
@[simp] theorem State.takeWaiting_plan (s : State) (sel : Nat → Frame → Bool) : (s.takeWaiting sel).2.plan k = s.plan k := rfl
@[simp] theorem State.cutQueued_plan (s : State) (key : Nat) (sel : Frame → Bool) : (s.cutQueued key sel).2.plan k = s.plan k := rfl
@[simp] theorem State.finishWork_plan (s : State) (fn mb status : Nat) (rsp : List Byte) : (s.finishWork fn mb status rsp).plan k = s.plan k := rfl
@[simp] theorem State.onActive_plan (s : State) (fn mb : Nat) (g : Active → Active) : (s.onActive fn mb g).plan k = s.plan k := rfl

@[simp] theorem State.work_plan (s : State) (kind i : Nat) : (s.work kind i).plan k = s.plan k := (State.work_sent s kind i).plan k
@[simp] theorem State.freeCells_plan (s : State) (b : Buffered) : (s.freeCells b).plan k = s.plan k := (State.freeCells_sent s b).plan k
@[simp] theorem State.join_plan (s : State) (key : Nat) (b : Buffered) : (s.join key b).plan k = s.plan k := (State.join_sent s key b).plan k
@[simp] theorem State.enqueue_plan (s : State) (key src : Nat) (f : Frame) : (s.enqueue key src f).plan k = s.plan k := (State.enqueue_sent s key src f).plan k
@[simp] theorem State.swSend_plan (s : State) (src : Nat) (f : Frame) : (s.swSend src f).plan k = s.plan k := (State.swSend_sent s src f).plan k
@[simp] theorem State.collSend_plan (s : State) (f : Frame) : (s.collSend f).plan k = s.plan k := State.swSend_plan k s _ f
@[simp] theorem State.mgmtOut_plan (s : State) (p msub tag : Nat) (data : List Byte) : (s.mgmtOut .sw p msub tag data).plan k = s.plan k :=
  (State.swSendPort_sent s _ _ _).plan k
@[simp] theorem State.setEvent_plan (s : State) (b : Nat) : (s.setEvent b).plan k = s.plan k := (State.setEvent_report s b).plan k
@[simp] theorem State.record_plan (s : State) (o : Occurrence) : (s.record o).plan k = s.plan k := (State.record_report s o).plan k
@[simp] theorem State.ledgerAdd_plan (s : State) (p : Nat) (e : Entry) : (s.ledgerAdd p e).plan k = s.plan k := (State.ledgerAdd_report s p e).plan k
@[simp] theorem State.putLedger_plan (s : State) (p : Nat) (l : Ledger) : (s.putLedger p l).plan k = s.plan k := rfl
@[simp] theorem State.noteHigh_plan (s : State) (p : Nat) : (s.noteHigh p).plan k = s.plan k := (State.noteHigh_report s p).plan k
@[simp] theorem State.ledgerSeal_plan (s : State) (p : Nat) : (s.ledgerSeal p).plan k = s.plan k := (State.ledgerSeal_report s p).plan k

@[simp] theorem State.uncount_plan (s : State) (f : Frame) : (s.uncount f).plan k = s.plan k := by simp [State.uncount]

@[simp] theorem State.homeRespond_plan (s : State) (f : Frame) (status : Nat) (data : List Byte) (cache : Nat) :
    (s.homeRespond f status data cache).plan k = s.plan k :=
  ((State.homeRespond_sent s f status data cache).plan k).trans (State.uncount_plan k s f)

/-! ### Frames that are discarded or taken back -/

@[simp] theorem State.answerFor_plan (s : State) (f : Frame) (status : Nat) : (s.answerFor f status).plan k = s.plan k := by
  unfold State.answerFor
  split
  · dsimp only
    split <;> simp
  · rfl

@[simp] theorem State.answerIn_plan (s : State) (b : Buffered) (status : Nat) : (s.answerIn b status).plan k = s.plan k := by
  unfold State.answerIn
  split
  · dsimp only
    split <;> simp [State.keepCell]
  · simp

@[simp] theorem State.voidOut_plan (s : State) (o reason : Nat) : (s.voidOut o reason).plan k = s.plan k := by
  have hcut : (s.endCut o).plan k = s.plan k := by
    unfold State.endCut
    split <;> simp
  simp [State.voidOut, hcut]

@[simp] theorem State.discardQueues_plan (s : State) (p : Nat) : (s.discardQueues p).plan k = s.plan k := by
  simp [State.discardQueues, State.voidFree, State.discardIn, State.discard, State.unreached]

@[simp] theorem State.cutOpen_plan (s : State) (p reason : Nat) : (s.cutOpen p reason).plan k = s.plan k := by
  simp [State.cutOpen, State.voidFrames]

@[simp] theorem State.loseTarget_plan (s : State) (h : Nat) : (s.loseTarget h).plan k = s.plan k := by
  simp [State.loseTarget]

@[simp] theorem State.withdrawFlight_plan (s : State) (x : Flight) : (s.withdrawFlight x).plan k = s.plan k := by
  have htake {t : State} (h : s.takeUnsent (x.frameIs s.sw.sys.homeId) = some t) : t.plan k = s.plan k := by
    unfold State.takeUnsent at h
    split at h
    · rw [← Option.some.inj h, State.takeWaiting_plan]
    · obtain ⟨q, -, rfl⟩ := Option.map_eq_some_iff.mp h
      simp [State.takeQueued]
  unfold State.withdrawFlight
  cases h : s.takeUnsent (x.frameIs s.sw.sys.homeId) with
  | none => rfl
  | some t => exact htake h

/-! ### Collectives and tasks that are lost -/

@[simp] theorem State.putEpoch_plan (s : State) (i : Nat) (e : Epoch) : (s.putEpoch i e).plan k = s.plan k := by
  unfold State.putEpoch
  split <;> simp

@[simp] theorem State.closeEpoch_plan (s : State) (i number : Nat) : (s.closeEpoch i number).plan k = s.plan k := by
  unfold State.closeEpoch
  split <;> simp

@[simp] theorem State.sendColl_plan (s : State) (y : Synd) (e : Epoch) (synd rank typ attempt check chunk status : Nat) :
    (s.sendColl y e synd rank typ attempt check chunk status).plan k = s.plan k := by
  unfold State.sendColl
  split <;> simp

@[simp] theorem State.abortEpoch_plan (s : State) (synd number status : Nat) : (s.abortEpoch synd number status).plan k = s.plan k := by
  unfold State.abortEpoch
  split
  · rfl
  · split <;> simp [State.sendCollSwitches]

@[simp] theorem State.abortFrom_plan (s : State) (synd number status : Nat) : (s.abortFrom synd number status).plan k = s.plan k := by
  unfold State.abortFrom
  split
  · rfl
  · split
    · simp
    · split <;> simp

@[simp] theorem State.cutOff_plan (s : State) (p : Nat) : (s.cutOff p).plan k = s.plan k := by
  unfold State.cutOff
  exact State.each_plan k (fun u i => State.each_plan k (fun v e => by simp) u _) s _

@[simp] theorem State.loseMember_plan (s : State) (h : Nat) (agent : Option Nat) : (s.loseMember h agent).plan k = s.plan k := by
  unfold State.loseMember
  refine State.each_plan k (fun u i => ?_) s _
  split <;> simp [State.lossNotice]

@[simp] theorem State.onTask_plan (s : State) (slot t : Nat) (g : Task → Task) : (s.onTask slot t g).plan k = s.plan k := by
  unfold State.onTask
  split <;> simp [State.putGraph]

@[simp] theorem State.stopEngine_plan (s : State) (e : Nat) : (s.stopEngine e).plan k = s.plan k := by
  have hready (u : State) (slot : Nat) : (u.readyUp slot).plan k = u.plan k := by
    unfold State.readyUp
    split <;> simp [State.putGraph]
  have hfail (u : State) (slot t status : Nat) : (u.failTask slot t status).plan k = u.plan k := by
    unfold State.failTask
    split <;> simp
  have hcancel (u : State) (slot : Nat) (p : Nat → Bool) : (u.cancelTasks slot p).plan k = u.plan k := by
    unfold State.cancelTasks
    split <;> simp [hfail]
  have hsettle (u : State) (slot t : Nat) : (u.settleTask slot t stFenced true).plan k = u.plan k := by
    unfold State.settleTask
    split <;> simp [hready, hfail, hcancel]
  unfold State.stopEngine
  dsimp only
  split <;> simp [State.dropFlights, hsettle]

/-! ### Lines, requests at their Clearing units, and holders that are lost -/

@[simp] theorem State.freeEntry_plan (s : State) (l : Nat) : (s.freeEntry l).plan k = s.plan k := by
  unfold State.freeEntry
  split
  · rfl
  · simp

@[simp] theorem State.loseLine_plan (s : State) (l : Nat) : (s.loseLine l).plan k = s.plan k := by simp [State.loseLine]

@[simp] theorem State.dropHolder_plan (s : State) (l h : Nat) : (s.dropHolder l h).plan k = s.plan k := by
  unfold State.dropHolder
  split
  · rfl
  · split <;> simp

@[simp] theorem State.homeAfterMirror_plan (s : State) (f : Frame) (pos : Nat) : (s.homeAfterMirror f pos).plan k = s.plan k := by
  unfold State.homeAfterMirror
  split
  · split <;> simp
  · simp

@[simp] theorem State.backInvLine_plan (s : State) (l : Nat) : (s.backInvLine l).plan k = s.plan k := by
  unfold State.backInvLine
  split <;> simp [State.sendBackInv]

@[simp] theorem State.takeBackDue_plan (s : State) : s.takeBackDue.plan k = s.plan k := by simp [State.takeBackDue]

@[simp] theorem State.fenceChannel_plan (s : State) (c : Nat) : (s.fenceChannel c).plan k = s.plan k := by
  simp [State.fenceChannel, State.fenceChannelBase]

@[simp] theorem State.retirePage_plan (s : State) (c page : Nat) : (s.retirePage c page).plan k = s.plan k := by simp [State.retirePage]

@[simp] theorem State.eccSeen_plan (s : State) (l : Nat) : (s.eccSeen l).plan k = s.plan k := by simp [State.eccSeen]

@[simp] theorem State.fetchLine_plan (s : State) (l slot : Nat) : (s.fetchLine l slot).2.plan k = s.plan k := by
  have hcorrect (u : State) : (u.correctLine l).plan k = u.plan k := by
    unfold State.correctLine
    split
    · rfl
    · split <;> simp [State.eccCorrected]
  have hread (u : State) : (u.readLine l slot).2.plan k = u.plan k := by
    unfold State.readLine
    dsimp only
    split
    · simp
    · split <;> simp
  simp [State.fetchLine, hcorrect, hread]

@[simp] theorem State.readRange_plan (s : State) (f : Frame) : (s.readRange f).2.plan k = s.plan k := by
  unfold State.readRange
  split
  · refine List.foldlRecOn (motive := fun a : Option (List Byte) × State => a.2.plan k = s.plan k) f.lines _ rfl fun a ha l _ => ?_
    have hline := (State.fetchLine_plan k a.2 l (a.2.sw.slotAt (l * 128) f.keySlot)).trans ha
    dsimp only
    split
    · exact ha
    · split
      · next u hu =>
        rw [hu] at hline
        simpa using hline
      · next d u hu =>
        rw [hu] at hline
        exact hline
  · split <;> rfl

@[simp] theorem State.partsReadable_plan (s : State) (f : Frame) : (s.partsReadable f).2.plan k = s.plan k := by
  unfold State.partsReadable
  split
  · refine List.foldlRecOn (motive := fun a : Bool × State => a.2.plan k = s.plan k) f.lines _ rfl fun a ha l _ => ?_
    have hline := (State.fetchLine_plan k a.2 l (a.2.sw.slotAt (l * 128) f.keySlot)).trans ha
    split
    · exact ha
    · split
      · next u hu =>
        rw [hu] at hline
        simpa using hline
      · next d u hu =>
        rw [hu] at hline
        exact hline
  · rfl

@[simp] theorem State.writeRange_plan (s : State) (f : Frame) (data : List Byte) : (s.writeRange f data).plan k = s.plan k := by
  unfold State.writeRange
  split
  · refine State.each_plan k (fun u l => ?_) s _
    have hline := State.fetchLine_plan k u l (u.sw.slotAt (l * 128) f.keySlot)
    dsimp only
    split
    · simp [State.writeLine]
    · split
      · next v hv =>
        rw [hv] at hline
        exact hline
      · next d v hv =>
        rw [hv] at hline
        simpa [State.writeLine] using hline
  · rfl

@[simp] theorem State.mirrorLines_plan (s : State) (lines : List Nat) : (s.mirrorLines lines).2.plan k = s.plan k := by
  refine List.foldlRecOn (motive := fun a : Option Nat × State => a.2.plan k = s.plan k) lines _ rfl fun a ha l _ => ?_
  dsimp only [State.mirrorLine]
  split
  · split
    · refine Eq.trans ?_ ha
      split <;> rfl
    · exact ha
  · exact ha

@[simp] theorem State.homeFinish_plan (s : State) (f : Frame) (pos : Nat) (data : List Byte) (lines : List Nat) :
    (s.homeFinish f pos data lines).plan k = s.plan k := by
  unfold State.homeFinish
  dsimp only
  split <;> simp

@[simp] theorem State.performRead_plan (s : State) (f : Frame) (cache : Nat) : (s.performRead f cache).plan k = s.plan k := by
  have hread := State.readRange_plan k s f
  unfold State.performRead
  split <;> next hu =>
    rw [hu] at hread
    simpa using hread

@[simp] theorem State.logInput_plan (s : State) (f : Frame) (home src agent : Nat) (data : List Byte) :
    (s.logInput f home src agent data).plan k = s.plan k := by
  simp [State.logInput]

@[simp] theorem State.performWrite_plan (s : State) (f : Frame) (pos : Nat) : (s.performWrite f pos).plan k = s.plan k := by
  have hparts := State.partsReadable_plan k s f
  unfold State.performWrite
  split <;> next hu =>
    rw [hu] at hparts
    simpa using hparts

@[simp] theorem State.performAtomic_plan (s : State) (f : Frame) (pos : Nat) : (s.performAtomic f pos).plan k = s.plan k := by
  have hread := State.readRange_plan k s { f with length := atomicSize (aopOf f.opx) f.length }
  unfold State.performAtomic
  dsimp only
  split
  · next u hu =>
    rw [hu] at hread
    simpa using hread
  · next d u hu =>
    rw [hu] at hread
    split <;> simpa [State.logTicker] using hread

@[simp] theorem State.ask_plan (s : State) (pos : Nat) (f : Frame) (e : DirEntry) (targets : List (Nat × Nat)) (b : Busy) :
    (s.ask pos f e targets b).plan k = s.plan k := by
  simp [State.ask, State.sendSnoop]

@[simp] theorem State.grant_plan (s : State) (pos : Nat) (f : Frame) (cache : Nat) (next : DirEntry) : (s.grant pos f cache next).plan k = s.plan k := by
  have hread := State.readRange_plan k s f
  unfold State.grant
  dsimp only
  split
  · simp
  · split <;> next hu =>
      rw [hu] at hread
      simpa using hread

@[simp] theorem State.serveGrant_plan (s : State) (pos : Nat) (f : Frame) : (s.serveGrant pos f).plan k = s.plan k := by
  unfold State.serveGrant
  dsimp only
  split
  · simp
  · next e _ =>
    cases e.state <;> cases e.sharers <;> simp

@[simp] theorem State.serve_plan (s : State) (pos : Nat) (f : Frame) : (s.serve pos f).plan k = s.plan k := by
  have hrefuse (r : Nat × Bool) : (s.refuse f r).plan k = s.plan k := by simp [State.refuse]
  unfold State.serve
  split
  · exact hrefuse _
  · unfold State.serveOpen
    dsimp only
    split
    · simp
    · split <;> simp [State.performDeposit]

@[simp] theorem State.advance_plan (s : State) (l : Nat) : (s.advance l).plan k = s.plan k := by
  unfold State.advance
  split
  · rfl
  · next b _ =>
    cases hs : b.stage <;> cases hn : b.next <;> simp

@[simp] theorem State.noteAnswer_plan (s : State) (l h result : Nat) : (s.noteAnswer l h result).plan k = s.plan k := by
  unfold State.noteAnswer
  split
  · rfl
  · split
    · rfl
    · cases he : s.sw.entry l <;> simp

@[simp] theorem State.loseBusy_plan (s : State) (h : Nat) (b : Busy) : (s.loseBusy h b).plan k = s.plan k := by
  unfold State.loseBusy
  extract_lets l b u v w
  have hv : v.plan k = s.plan k := by
    show State.plan k (match b.stage with | .ack => _ | .forward => _ | .fill _ => _ | .grant _ => _ | _ => _) = _
    cases b.stage <;> simp [u]
  clear_value v
  split
  · exact hv
  · simp [w, hv]

@[simp] theorem State.loseEntry_plan (s : State) (h l : Nat) : (s.loseEntry h l).plan k = s.plan k := by
  unfold State.loseEntry
  split
  · rfl
  · split
    · split
      · simp
      · split <;> simp
    · simp

@[simp] theorem State.loseHolder_plan (s : State) (h : Nat) : (s.loseHolder h).plan k = s.plan k := by simp [State.loseHolder]

/-! ### Regions, invalidations and retirements that go on -/

@[simp] theorem State.regionCheck_plan (s : State) : s.regionCheck.plan k = s.plan k := by
  unfold State.regionCheck
  dsimp only
  refine (State.each_plan k (fun u j => ?_) _ _).trans (Eq.trans (State.each_plan k (fun u j => ?_) _ _) (State.takeBackDue_plan k s))
  case refine_2 => rfl
  split
  · rfl
  · split
    · split <;> rfl
    · rfl

@[simp] theorem State.regionGone_plan (s : State) : s.regionGone.plan k = s.plan k := by
  unfold State.regionGone
  rw [State.regionCheck_plan, State.onHome_plan]
  exact State.each_plan k (fun u j => State.onActive_plan k u _ _ _) s _

@[simp] theorem State.invalGone_plan (s : State) (h : Nat) : (s.invalGone h).plan k = s.plan k := by
  unfold State.invalGone
  refine (State.each_plan k (fun u x => ?_) _ _).trans (State.onXlat_plan k s _)
  unfold State.invalCheck
  extract_lets live y put v z
  have hput (w : State) (x : Inval) : (put w x).plan k = w.plan k := rfl
  have hv : v.plan k = u.plan k := State.each_plan k (fun w a => State.swSend_plan k w _ _) u _
  clear_value put v
  split
  · exact hput u y
  · refine Eq.trans ?_ hv
    split <;> simp [hput]

@[simp] theorem State.fenceAgent_plan (s : State) (h a : Nat) : (s.fenceAgent h a).plan k = s.plan k := by simp [State.fenceAgent]

@[simp] theorem State.releasePartition_plan (s : State) (p : Nat) : (s.releasePartition p).plan k = s.plan k := by
  simp [State.releasePartition, State.giveEngine, State.zeroScratch, State.dropEngineXlat, State.givePool, State.revoteAll, State.revote, State.beginExit]

@[simp] theorem State.retireCheck_plan (s : State) : s.retireCheck.plan k = s.plan k := by
  unfold State.retireCheck
  refine State.each_plan k (fun u a => ?_) s _
  split
  · rfl
  · split
    · rfl
    · split
      · split <;> simp
      · rfl

@[simp] theorem State.retireDone_plan (s : State) (i : Nat) : (s.retireDone i).plan k = s.plan k := by simp [State.retireDone, State.zeroise]

@[simp] theorem State.retireForce_plan (s : State) (i : Nat) : (s.retireForce i).plan k = s.plan k := by
  unfold State.retireForce
  extract_lets v reqs agents u w x y
  have hu : u.plan k = s.plan k := by simp [u]
  have hw : w.plan k = u.plan k := by simp [w]
  have hx : x.plan k = w.plan k := by
    refine State.each_plan k (fun a l => ?_) w _
    split
    · rfl
    · rw [State.advance_plan]
      refine State.each_plan k (fun b h => ?_) a _
      split <;> simp
  rw [State.retireDone_plan, State.putSlot_plan, hx, hw, hu]

/-! ### Commands that the end of a Teller-only restart completes (17 R435, R446) -/

@[simp] theorem State.imageRuns_plan (s : State) (slot : Nat) (burn : Bool) : (s.imageRuns slot burn).plan k = s.plan k := by
  unfold State.imageRuns
  split <;> simp

@[simp] theorem State.restartCommands_plan (s : State) : s.restartCommands.plan k = s.plan k := by
  unfold State.restartCommands
  refine State.each_plan k (fun u a => ?_) s _
  split <;> simp

end

/-! ### Needs, which may change the book (11 R306, R307) -/

/-- A change of the schedule beside its packages. -/
@[simp] theorem State.onSched_plan {g : Sched → Sched} (hg : ∀ x, (g x).active = x.active ∧ (g x).standby = x.standby ∧ (g x).armed = x.armed) (s : State) :
    (s.onSched .sw g).plan false = s.plan false := State.plan_iff.mpr (hg s.sw.sched)

@[simp] theorem State.takeBook_plan (s : State) (b : Nat) : (s.takeBook .sw b).plan false = s.plan false := by simp [State.takeBook]

@[simp] theorem State.sendBookSet_plan (s : State) (p : Nat) (c : BookChange) (n : Nat) : (s.sendBookSet .sw p c n).plan false = s.plan false := by
  simp [State.sendBookSet]

@[simp] theorem State.changeBook_plan (s : State) (b : Nat) : (s.changeBook b).plan false = s.plan false := by simp [State.changeBook]

@[simp] theorem State.noteReport_plan (s : State) (sender : Nat) (slow narrow : Bool) : (s.noteReport sender slow narrow).plan false = s.plan false := by
  simp [State.noteReport, State.decideBook]

@[simp] theorem State.floodPast_plan (k : Bool) (s : State) (past : List Nat) (msub : Nat) (data : List Byte) :
    (s.floodPast .sw past msub data).plan k = s.plan k := by
  simp [State.floodPast, State.sendPast, State.putSeen]

@[simp] theorem State.refreshNarrow_plan (s : State) : s.refreshNarrow.plan false = s.plan false := by
  simp [State.refreshNarrow, State.reportNeeds, State.flood]

/-! ### A port that leaves service, and a verdict (13 R345, 01 R17, 23 R547) -/

@[simp] theorem State.setPort_plan (s : State) (p : Nat) (l : Link) : (s.setPort p l).plan false = s.plan false := by
  have hlink : (s.putLink .sw p l).plan false = s.plan false := rfl
  simp [State.setPort, hlink]

@[simp] theorem State.leavePort_plan (s : State) (p : Nat) (st : PortState) (why : Nat) : (s.leavePort p st why).plan false = s.plan false := by
  unfold State.leavePort
  extract_lets u v
  have hv : v.plan false = s.plan false := by simp [v, u, State.onPort]
  clear_value v
  exact hv

@[simp] theorem State.onClock_plan (k : Bool) (s : State) (g : Clock → Clock) : (s.onClock .sw g).plan k = s.plan k := rfl

@[simp] theorem State.closeGates_plan (k : Bool) (s : State) : (s.closeGates .sw).plan k = s.plan k := by
  simp [State.closeGates, State.closePort, State.onGate]

@[simp] theorem State.lostSource_plan (k : Bool) (s : State) (p : Nat) : (s.lostSource .sw p).plan k = s.plan k := by
  have hhold (u : State) : (u.enterHoldover .sw).plan k = u.plan k := by simp [State.enterHoldover]
  have hretime (u : State) : (u.retime .sw).plan k = u.plan k := by
    unfold State.retime
    dsimp only
    split
    · rfl
    · split <;> simp [hhold]
  unfold State.lostSource State.sourceFails
  split
  · split <;> simp [hretime]
  · rfl

@[simp] theorem State.fencePort_plan (s : State) (p why : Nat) : (s.fencePort p why).plan false = s.plan false := by
  simp [State.fencePort]

@[simp] theorem State.applyVerdict_plan (s : State) (h old cause : Nat) (came : Option Nat) :
    (s.applyVerdict h old cause came).plan false = s.plan false := by
  simp [State.applyVerdict, State.verdictOut]

@[simp] theorem State.giveVerdict_plan (s : State) (h cause : Nat) : (s.giveVerdict h cause).plan false = s.plan false := by
  simp [State.giveVerdict]

/-! ### The end of a Teller-only restart (16 R428) -/

@[simp] theorem State.tellerBack_plan (s : State) : s.tellerBack.plan false = s.plan false := by
  unfold State.tellerBack
  split
  · rfl
  · simp

theorem State.restartCommands_vault (s : State) : s.restartCommands.sw.vault = s.sw.vault := by
  have himage (u : State) (slot : Nat) (burn : Bool) : (u.imageRuns slot burn).sw.vault = u.sw.vault := by
    unfold State.imageRuns
    split
    · rfl
    · exact (State.ledgerAdd_report _ _ _).vault
  refine State.each_keeps (P := fun u => u.sw.vault = s.sw.vault) rfl fun u hu a => Eq.trans ?_ hu
  split
  · split <;> rfl
  · split
    · exact himage u _ _
    · rfl
  · rfl

/-- Where no verdict was held or owed and no retirement timed out, the schedule is as it was. -/
theorem State.tellerBack_sched {s : State} (hheld : s.sw.teller.heldVerdicts = []) (howed : s.sw.teller.owedVerdicts = [])
    (hslots : ∀ i < 32, (s.sw.getSlot i).timedOut = false) : s.tellerBack.sw.sched = s.sw.sched := by
  refine State.plan_whole.mp ?_
  unfold State.tellerBack
  split
  · rfl
  · extract_lets held owed a b c d e f g
    have hd : d.plan true = s.plan true := by simp [d, c, b, a]
    have hvault : d.sw.vault = s.sw.vault := by
      have hc : c.sw.vault = b.sw.vault :=
        State.each_keeps (P := fun u => u.sw.vault = b.sw.vault) rfl fun u hu p => (State.ledgerAdd_report u p _).vault.trans hu
      have hseal : d.sw.vault = c.sw.vault := State.each_keeps (P := fun u => u.sw.vault = c.sw.vault) rfl fun u hu p => by
        split
        · exact (State.ledgerSeal_report u p).vault.trans hu
        · exact hu
      exact hseal.trans (hc.trans (State.restartCommands_vault a))
    have he : e = d := by simp [e, held, hheld, State.each]
    have hf : f = d := by simp [f, owed, howed, State.each, he]
    have hg : g = d := by
      rw [← hf]
      refine List.foldlRecOn (motive := fun u => u = f) slots32 _ rfl fun u hu i hi => ?_
      have hopen : (u.sw.getSlot i).timedOut = false := by
        rw [hu, hf, Switch.getSlot, hvault]
        exact hslots i (List.mem_range.mp hi)
      simp only [hopen, Bool.false_eq_true, if_false]
      exact hu
    rw [State.setEvent_plan, State.regionGone_plan, hg, hd]

/-! ### Starts begin without a package (11 R297) -/

theorem State.beginStart_sched (s : State) (k : StartKind) : (s.beginStart k).sw.sched = {} := by
  refine (State.refreshAlert_report _).sched.trans ?_
  cases k <;> rfl

theorem EndPoint.started_sched (e : EndPoint) (warm : Bool) : (e.started warm).sched = {} := by
  unfold EndPoint.started
  split <;> rfl

theorem State.epStart_sched (s : State) (warm : Bool) : (s.epStart warm).ep.sched = {} := by
  unfold State.epStart
  extract_lets u
  have hu : u.ep.sched = {} := by
    refine Eq.trans ?_ (EndPoint.started_sched s.ep (warm && !s.ep.off))
    simp only [u, State.epAlert]
    split <;> rfl
  refine State.each_keeps (P := fun t => t.ep.sched = {}) hu fun t ht p => Eq.trans ?_ ht
  dsimp only
  split <;> rfl

theorem State.tellerFault_sched (s : State) (kind : Nat) : (s.tellerFault kind).sw.sched = s.sw.sched := by
  unfold State.tellerFault State.tellerRestart
  split
  · split <;> exact (State.record_report s _).sched
  · rfl

/-- Settles O59: a start replaces the schedule by one without packages; a Teller-only restart reaches it only where ports are fenced. -/
theorem defaultGateList : Obligations.DefaultGateList := by
  unfold Obligations.DefaultGateList
  refine ⟨fun s d p h => ?default, by decide, fun s h => ?power, fun s kind hlow h => ?rise, fun s warm => ?ep, fun s _ => ?lockstep, fun s _ _ _ => ?back⟩
  case default =>
    unfold State.gateList
    rw [h]
    rfl
  case power =>
    have hexec : exec .powerUp s = .next (s.beginStart .cold) := congrArg Host.Outcome.next (if_pos h)
    exact ⟨_, hexec, by simp [State.beginStart_sched]⟩
  case rise =>
    have hexec : exec .rstNRise s = .next ((s.onSys fun y => { y with rstN := true }).beginStart kind) := by
      refine congrArg Host.Outcome.next ?_
      simp [State.rstRise, hlow, h]
    exact ⟨_, hexec, by simp [State.beginStart_sched]⟩
  case ep => exact ⟨s.epStart warm, rfl, by simp [State.epStart_sched]⟩
  case lockstep => exact ⟨s.tellerFault fTellerLockstep, rfl, State.tellerFault_sched s _⟩
  case back =>
    obtain ⟨hactive, hstandby, harmed⟩ := State.plan_iff.mp (State.tellerBack_plan s)
    exact ⟨s.tellerBack, rfl, hactive, hstandby, harmed, fun hheld howed hslots => congrArg Sched.book (State.tellerBack_sched hheld howed hslots)⟩

end Sys2Proof.Machine

/-!
PROOFS of the family 13_switch_core: arrival, matcher, queue samples and buckets (O23), and the rows of the link layer (O45).
-/

namespace Sys2Proof.Tab

/-- Filtering the entries of a table leaves it where each of them stays. -/
theorem mapVals_filter_self {α : Type} {p : α → Bool} {t : Tab (List α)} (h : ∀ e ∈ t, ∀ a ∈ e.2, p a = true) :
    (t.mapVals fun _ l => l.filter p) = t := by
  unfold mapVals
  exact (List.map_congr_left fun e he => congrArg (Prod.mk e.1) (List.filter_eq_self.mpr (h e he))).trans (List.map_id t)

end Sys2Proof.Tab

namespace Sys2Proof.Machine

/-! ### A frame that arrives at a switch port (13 R339, R352) -/

/-- A frame that has come in on port p: counted, the port's domain woken, its cells taken. -/
def State.takenIn (s : State) (p : Nat) (f : Frame) : Buffered × State :=
  let u := (s.count (blkPort p) cFramesRx).work 0 p
  u.placeFrame p (u.sw.vcIn p f) f true 0

/-- The policer that marks a frame leaves what channels hold. -/
theorem State.markFrame_held (s : State) (p : Nat) (f : Frame) : (s.markFrame p f).2.sw.core.held = s.sw.core.held := by
  unfold State.markFrame
  split <;> rfl

theorem State.takenIn_sent (s : State) (p : Nat) (f : Frame) : SentFrame s (s.takenIn p f).2 :=
  ((State.countN_sent s _ _ _).trans (State.work_sent _ _ _)).trans (State.placeFrame_sent _ _ _ _ _ _)

theorem State.markFrame_sent {s u : State} {p colour : Nat} {f : Frame} (h : s.markFrame p f = (colour, u)) : SentFrame s u := by
  rw [← show (s.markFrame p f).2 = u from congrArg Prod.snd h]
  unfold State.markFrame
  split
  · exact .refl s
  · exact ⟨rfl, List.prefix_refl _⟩

/-- At a port in service whose channel holds nothing, a frame is marked at the head: a red one of another class than TC0 stays there, another goes to the
queue decision. -/
theorem State.frameArrival_marked {s u : State} {p colour : Nat} {f : Frame} (hlink : (s.sw.getLink p).state = .active)
    (hheld : (s.takenIn p f).2.sw.core.held.get (p * 16 + (s.takenIn p f).1.vc) [] = []) (hmark : (s.takenIn p f).2.markFrame p f = (colour, u)) :
    let b := (s.takenIn p f).1
    s.frameArrival p f = if colour = red ∧ f.cls ≠ 0
      then (u.onCore fun k => { k with held := k.held.put (p * 16 + b.vc) [b] }).returnCredit p b.vc (b.sched + b.shared)
      else (if f.cls = 0 then u else u.returnCredit p b.vc (b.sched + b.shared)).queueDecision p { b with red := colour } := by
  intro b
  have hu : u.sw.core.held.get (p * 16 + b.vc) [] = [] := by
    have h := State.markFrame_held (s.takenIn p f).2 p f
    rw [hmark] at h
    rw [h, hheld]
  unfold State.frameArrival State.frameEnters
  rw [if_neg (not_not.mpr hlink)]
  have hempty : ¬((!((s.takenIn p f).2.sw.core.held.get (p * 16 + b.vc) []).isEmpty) = true) := by rw [hheld]; decide
  have hred : ((s.takenIn p f).2.markFrame p f).1 = colour := congrArg Prod.fst hmark
  have hstate : ((s.takenIn p f).2.markFrame p f).2 = u := congrArg Prod.snd hmark
  refine (if_neg hempty).trans ?_
  rw [← hstate] at hu ⊢
  rw [← hred]
  refine ite_congr rfl (fun h => ?_) (fun _ => rfl)
  refine (if_neg h.2).trans ?_
  refine congrArg (fun l => State.returnCredit (State.onCore _ fun k => { k with held := k.held.put _ l }) _ _ _) ?_
  exact congrArg (· ++ [b]) hu

/-! ### The queue decision (13 R339, R354) -/

/-- At the decision a TC0 frame has its credits back. -/
def State.tc0Paid (s : State) (p : Nat) (b : Buffered) : State := if b.f.cls = 0 then s.returnCredit p b.vc (b.cells - b.paid) else s

theorem State.queueDecision_forbidden {s : State} {p : Nat} {b : Buffered} (h : typeAllowed b.f.cls b.f.typ = false) :
    s.queueDecision p b = ((s.tc0Paid p b).count (blkPort p) cBadType).freeCells b := by
  unfold State.queueDecision
  exact if_pos (by rw [h]; rfl)

/-- The rules of the queue decision before early drop discard no frame f that came on port p. -/
structure Switch.Admits (w : Switch) (p : Nat) (f : Frame) : Prop where
  allowed : typeAllowed f.cls f.typ = true
  subtype : w.badSubtype f = false
  sparse : f.sparseOk = true
  fresh : w.stale f = false
  unmasked : w.masked p f = false
  unfenced : w.fencedAt p f = false

section
variable {s v : State} {p : Nat} {b : Buffered} (hv : s.tc0Paid p b = v) (hadmits : v.sw.Admits p b.f) (hwhole : b.whole = true)
include hv hadmits hwhole

/-- A frame for the switch itself joins the internal queue of its unit. -/
theorem State.queueDecision_home (hdest : b.f.dest = v.sw.sys.homeId) (hkept : v.sw.dropsEarly (qKey (v.sw.homeOut b.f) b.f.cls) b.red b.f = false) :
    s.queueDecision p b = (v.answered p b.f).join (qKey (v.sw.homeOut b.f) b.f.cls) b := by
  obtain ⟨hallowed, hsubtype, hsparse, hfresh, hunmasked, hunfenced⟩ := hadmits
  have hpaid : (if b.f.cls = 0 then s.returnCredit p b.vc (b.cells - b.paid) else s) = v := hv
  unfold State.queueDecision
  simp [hpaid, hallowed, hsubtype, hsparse, hfresh, hunmasked, hunfenced, hwhole, hdest, hkept]

/-- Another joins the queue of its output port, which takes it. -/
theorem State.queueDecision_port {out : Nat} (hdest : b.f.dest ≠ v.sw.sys.homeId) (hroute : v.sw.route b.f.dest = some out)
    (hkept : v.sw.dropsEarly (qKey out (v.sw.vcOf out b.f.cls (v.sw.cameAfter p b.f.src))) b.red b.f = false) (htakes : v.sw.outTakes out b.f = true) :
    s.queueDecision p b = (v.answered p b.f).join (qKey out (v.sw.vcOf out b.f.cls (v.sw.cameAfter p b.f.src))) b := by
  obtain ⟨hallowed, hsubtype, hsparse, hfresh, hunmasked, hunfenced⟩ := hadmits
  have hpaid : (if b.f.cls = 0 then s.returnCredit p b.vc (b.cells - b.paid) else s) = v := hv
  unfold State.queueDecision
  simp [hpaid, hallowed, hsubtype, hsparse, hfresh, hunmasked, hunfenced, hwhole, hdest, hroute, hkept, htakes]

end

/-! ### FRAME_ARRIVAL (11 R318, 13 R339) -/

section
variable {s u : State} {p colour : Nat} {f : Frame} (hlink : (s.sw.getLink p).state = .active)
  (hheld : (s.takenIn p f).2.sw.core.held.get (p * 16 + (s.takenIn p f).1.vc) [] = []) (hmark : (s.takenIn p f).2.markFrame p f = (colour, u))
include hlink hheld hmark

theorem frameArrival_red (hred : colour = 2) (hcls : f.cls ≠ 0) :
    let b := (s.takenIn p f).1
    exec (.frameArrival p f) s = .next ((u.onCore fun k => { k with held := k.held.put (p * 16 + b.vc) [b] }).returnCredit p b.vc (b.sched + b.shared)) := by
  exact congrArg Host.Outcome.next ((State.frameArrival_marked hlink hheld hmark).trans (if_pos ⟨hred, hcls⟩))

/-- Any other frame goes to the queue decision, where it has the credits back of the cells that it does not hold in reserve, a TC0 frame those of all. -/
theorem State.frameArrival_decided (h : colour ≠ 2 ∨ f.cls = 0) : ∃ r : State,
    let b := { (s.takenIn p f).1 with red := colour }
    s.frameArrival p f = r.queueDecision p b ∧ r.tc0Paid p b = u.returnCredit p b.vc (if f.cls = 0 then b.cells else b.sched + b.shared) := by
  refine ⟨_, (State.frameArrival_marked hlink hheld hmark).trans (if_neg fun hr => h.elim (· hr.1) hr.2), ?_⟩
  by_cases hcls : f.cls = 0
  · exact (if_pos hcls).trans (by rw [if_pos hcls, if_pos hcls]; rfl)
  · exact (if_neg hcls).trans (by rw [if_neg hcls, if_neg hcls])

end

/-! ### The transmitters of the ports (15 R381 to R399) -/

/-- What has left the ports is sent in flits: the switch's core, its memory and Escrow are as they were, and what was sent stays sent. -/
structure Transmits (s t : State) : Prop where
  core : t.sw.core = s.sw.core
  mem : t.sw.mem = s.sw.mem
  escrow : t.sw.escrow = s.sw.escrow
  out : s.out <+: t.out

theorem Transmits.quiet {s t : State} (hc : t.sw.core = s.sw.core := by rfl) (hm : t.sw.mem = s.sw.mem := by rfl) (he : t.sw.escrow = s.sw.escrow := by rfl)
    (ho : t.out = s.out := by rfl) : Transmits s t := ⟨hc, hm, he, by rw [ho]⟩

theorem Transmits.refl (s : State) : Transmits s s := .quiet

theorem Transmits.trans {s t u : State} (h : Transmits s t) (k : Transmits t u) : Transmits s u :=
  ⟨k.core.trans h.core, k.mem.trans h.mem, k.escrow.trans h.escrow, h.out.trans k.out⟩

theorem Transmits.of_ite {s t u : State} {c : Prop} [Decidable c] (ht : Transmits s t) (hu : Transmits s u) : Transmits s (if c then t else u) := by
  split <;> assumption

theorem Transmits.each {α : Type} {l : List α} {g : State → α → State} {s : State} (hg : ∀ u a, Transmits u (g u a)) : Transmits s (s.each l g) :=
  State.each_keeps (Transmits.refl s) fun u hu a => hu.trans (hg u a)

theorem State.onLink_transmits (s : State) (d : Dev) (p : Nat) (g : Link → Link) : Transmits s (s.onLink d p g) := by
  cases d <;> exact .quiet

theorem State.emit_transmits (s : State) (o : Out) : Transmits s (s.emit o) := ⟨rfl, rfl, rfl, List.prefix_append _ _⟩

theorem State.loadOut_transmits (s : State) (o : Out) : Transmits s (s.loadOut o) := by
  have hgive (d : Dev) (p : Nat) (g : Tx → Tx) : Transmits s (s.give d p g) := .of_ite (State.onLink_transmits s d p _) (.refl s)
  unfold State.loadOut
  split
  iterate 4 exact hgive _ _ _
  exact .refl s

theorem State.sendBytes_transmits (s : State) (d : Dev) (p : Nat) (b : List Byte) (g : Tx → Tx) : Transmits s (s.sendBytes d p b g) :=
  (State.onLink_transmits s d p _).trans (State.emit_transmits _ _)

theorem State.sendSequenced_transmits (s : State) (d : Dev) (p : Nat) (b : List Byte) (g : Tx → Tx) : Transmits s (s.sendSequenced d p b g) :=
  State.sendBytes_transmits s d p b _

theorem State.sendControl_transmits (s : State) (d : Dev) (p seq ftype : Nat) (g : Tx → Tx) : Transmits s (s.sendControl d p seq ftype g) := by
  unfold State.sendControl
  dsimp only
  split <;> exact State.sendBytes_transmits s d p _ _

theorem State.noteProbe_transmits (s : State) (d : Dev) (p : Nat) (c : Ctrl) : Transmits s (s.noteProbe d p c) := by
  unfold State.noteProbe
  split
  · cases d <;> exact .quiet
  · exact .refl s

theorem State.sendData_transmits (s : State) (d : Dev) (p : Nat) (k : LinkKey) : Transmits s (s.sendData d p k) :=
  (Transmits.each fun u c => State.noteProbe_transmits u d p c).trans (State.sendSequenced_transmits _ d p _ _)

theorem State.transmit_transmits (s : State) (d : Dev) (p : Nat) : Transmits s (s.transmit d p) := by
  unfold State.transmit
  dsimp only
  refine .of_ite (.refl s) ?_
  split
  · exact State.sendControl_transmits s d p _ _ _
  · exact State.sendBytes_transmits s d p _ _
  · refine .of_ite (State.sendControl_transmits s d p _ _ _) ?_
    split
    · exact State.sendSequenced_transmits s d p _ _
    · split
      · exact State.sendControl_transmits s d p _ _ _
      · exact .of_ite (State.sendControl_transmits s d p _ _ _) ((State.onLink_transmits s d p _).trans (State.sendData_transmits _ d p _))

theorem State.flitsGo_transmits (s : State) : Transmits s s.flitsGo := by
  have hload : Transmits s s.loadSlots := Transmits.trans (.each State.loadOut_transmits) .quiet
  have hgo (u : State) (d : Dev) (n : Nat) : Transmits u (u.each (List.range n) fun v p =>
      if flitCount (v.now .sw) % (v.getLink d p).flitTimes = 0 then v.transmit d p else v) :=
    .each fun v p => .of_ite (State.transmit_transmits v d p) (.refl v)
  unfold State.flitsGo
  exact .of_ite (hload.trans (hgo _ .sw 64)) ((hload.trans (hgo _ .sw 64)).trans (hgo _ .ep 8))

/-! ### One frame that waits alone (13 R340 to R343) -/

/-- Of a list without double entries one entry alone gives a value. -/
theorem filterMap_alone {α : Type} {l : List Nat} (hl : l.Nodup) {o : Nat} (ho : o ∈ l) {f : Nat → Option α} {a : α} (hf : f o = some a)
    (hnone : ∀ k ∈ l, k ≠ o → f k = none) : l.filterMap f = [a] := by
  induction l with
  | nil => cases ho
  | cons k l ih =>
    obtain ⟨hk, hl⟩ := List.nodup_cons.mp hl
    by_cases h : k = o
    · subst h
      have hrest : l.filterMap f = [] := List.filterMap_eq_nil_iff.mpr fun j hj => hnone j (List.mem_cons_of_mem _ hj) (ne_of_mem_of_not_mem hj hk)
      rw [List.filterMap_cons_some hf, hrest]
    · rw [List.filterMap_cons_none (hnone k List.mem_cons_self h)]
      exact ih hl ((List.mem_cons.mp ho).resolve_left (Ne.symm h)) fun j hj => hnone j (List.mem_cons_of_mem _ hj)

theorem queueOrder_lt {y : Sys} {o q : Nat} {first : Bool} (h : q ∈ queueOrder y o first) : q < 16 := by
  have hclasses : ∀ b : Bool, ∀ c ∈ (if b then [2, 5, 1, 0, 6, 4, 7, 3] else classOrder), c < 8 := by decide
  unfold queueOrder at h
  dsimp only at h
  split at h
  · exact (hclasses first q h).trans (by decide)
  · obtain ⟨c, hc, hq⟩ := List.mem_flatMap.mp h
    have := hclasses first c hc
    simp only [List.mem_cons, List.not_mem_nil, or_false] at hq
    omega

/-- TC0 that comes first changes the order of an output's queues only. -/
theorem queueOrder_perm (y : Sys) (o : Nat) (first : Bool) : (queueOrder y o first).Perm (queueOrder y o false) := by
  have hclasses : (if first then [2, 5, 1, 0, 6, 4, 7, 3] else classOrder).Perm classOrder := by
    cases first <;> decide
  unfold queueOrder
  dsimp only
  split
  · exact hclasses
  · exact hclasses.flatMap_right _

/-- An internal output has a queue for each class. -/
theorem queueOrder_internal (y : Sys) {o q : Nat} (ho : 64 ≤ o) (hq : q < 8) : q ∈ queueOrder y o false := by
  have hclasses : ∀ c < 8, c ∈ classOrder := by decide
  unfold queueOrder
  simpa [ho] using hclasses q hq

/-- The frames at the heads of the queues of an output, in the order in which it takes them. -/
def State.heads (s : State) (o : Nat) : List (Nat × Buffered) :=
  (queueOrder s.sw.sys o (s.tc0First o)).filterMap fun q => (s.sw.core.queue.get (qKey o q) []).head?.map fun b => (q, b)

theorem State.grantQueue_heads (s : State) (o : Nat) (tiles : List Nat) :
    s.grantQueue o tiles = (s.heads o).find? fun x => tiles.contains x.2.tile && s.eligible o x.1 x.2 := rfl

/-- What an output asks for among tiles. -/
def State.asksFor (s : State) (tiles : List Nat) (o : Nat) : Option (Nat × Ask) :=
  match s.sw.core.lock.find o with
  | some x => if tiles.contains x.tile then some (o, Ask.locked x.tile) else none
  | none => (s.grantQueue o tiles).map fun x => (o, Ask.header x.1 x.2)

/-- What the outputs without a match ask for. -/
def State.asks (s : State) (done : List (Nat × Ask)) (tiles : List Nat) : List (Nat × Ask) :=
  (outputs.filter fun o => done.all fun d => d.1 != o).filterMap (s.asksFor tiles)

/-- Cells of room that a tile has for more matches in a round. -/
def tileRoom (done : List (Nat × Ask)) (t : Nat) : Nat := 8 - (done.filter fun d => d.2.tile == t).length

/-- The asks that a tile accepts: those of locked outputs first, then from its pointer. -/
def State.acceptsAt (s : State) (done asks : List (Nat × Ask)) (t : Nat) : List (Nat × Ask) :=
  let isLock (a : Ask) := match a with | .locked _ => true | .header _ _ => false
  let mine := asks.filter fun a => a.2.tile == t
  let ptr := s.sw.core.acceptPtr.get t 0
  let rest := mine.filter fun a => !isLock a.2
  (mine.filter (fun a => isLock a.2) ++ rest.filter (fun a => decide (ptr ≤ a.1)) ++ rest.filter fun a => decide (a.1 < ptr)).take (tileRoom done t)

theorem State.matchRound_accepts (s : State) (done : List (Nat × Ask)) :
    let tiles := (List.range 16).filter fun t => decide (0 < tileRoom done t)
    s.matchRound done = done ++ tiles.flatMap (s.acceptsAt done (s.asks done tiles)) := by
  exact List.foldl_append_eq_append

/-- The tile of a header alone accepts it, wherever the tile's pointer stands. -/
theorem State.acceptsAt_one (s : State) (o q : Nat) (b : Buffered) (t : Nat) :
    s.acceptsAt [] [(o, .header q b)] t = (if b.tile = t then some (o, Ask.header q b) else none).toList := by
  by_cases ht : b.tile = t
  · by_cases hptr : s.sw.core.acceptPtr.get t 0 ≤ o
    · simp [State.acceptsAt, tileRoom, Ask.tile, ht, hptr, Nat.not_lt.mpr hptr]
    · simp [State.acceptsAt, tileRoom, Ask.tile, ht, hptr, Nat.lt_of_not_le hptr]
  · simp [State.acceptsAt, Ask.tile, ht]

/-- The only frame that waits is b, whole, in queue q of output o, in a tile that the switch has; no output is locked. -/
structure Alone (s : State) (o q : Nat) (b : Buffered) : Prop where
  queue : s.sw.core.queue = [(qKey o q, [b])]
  lock : s.sw.core.lock = []
  waiting : s.sw.core.waiting = []
  tile : b.tile < 16
  whole : b.whole = true
  order : q ∈ queueOrder s.sw.sys o false
  output : o < 87
  eligible : s.eligible o q b = true

section
variable {s : State} {o q : Nat} {b : Buffered} (h : Alone s o q b)
include h

theorem Alone.head : s.sw.core.queue.get (qKey o q) [] = [b] := by
  simp [h.queue, Tab.get, Tab.find]

/-- No other queue of a port or of an internal output holds a frame. -/
theorem Alone.empty {o' q' : Nat} (hq' : q' < 16) (hne : o' ≠ o ∨ q' ≠ q) : s.sw.core.queue.get (qKey o' q') [] = [] := by
  have hq := queueOrder_lt h.order
  have hkey : qKey o q ≠ qKey o' q' := by
    unfold qKey
    omega
  simp [h.queue, Tab.get, Tab.find, hkey]

theorem Alone.mem_heads {x : Nat × Buffered} : x ∈ s.heads o ↔ x = (q, b) := by
  refine List.mem_filterMap.trans ⟨fun ⟨k, hk, hhead⟩ => ?_, fun hx => ⟨q, (queueOrder_perm _ _ _).mem_iff.mpr h.order, ?_⟩⟩
  · by_cases hkq : k = q
    · rw [hkq, h.head] at hhead
      exact (Option.some.inj hhead).symm
    · rw [h.empty (queueOrder_lt hk) (.inr hkq)] at hhead
      cases hhead
  · rw [h.head, hx]
    rfl

theorem Alone.heads_none {k : Nat} (hk : k ≠ o) : s.heads k = [] :=
  List.filterMap_eq_nil_iff.mpr fun j hj => by rw [h.empty (queueOrder_lt hj) (.inl hk)]; rfl

theorem Alone.grants {tiles : List Nat} (ht : b.tile ∈ tiles) : s.grantQueue o tiles = some (q, b) := by
  have hmay : (tiles.contains b.tile && s.eligible o q b) = true := by simp [ht, h.eligible]
  have hsome : (s.grantQueue o tiles).isSome = true := List.find?_isSome.mpr ⟨(q, b), h.mem_heads.mpr rfl, hmay⟩
  obtain ⟨x, hx⟩ := Option.isSome_iff_exists.mp hsome
  rw [hx, h.mem_heads.mp (List.mem_of_find?_eq_some hx)]

theorem Alone.grants_none {k : Nat} (hk : k ≠ o) (tiles : List Nat) : s.grantQueue k tiles = none := by
  rw [State.grantQueue_heads, h.heads_none hk]
  rfl

/-- What the outputs without a match ask for. -/
theorem Alone.asks {done : List (Nat × Ask)} {tiles : List Nat} (ht : b.tile ∈ tiles) :
    s.asks done tiles = if (done.all fun d => d.1 != o) then [(o, .header q b)] else [] := by
  have hask (k : Nat) : s.asksFor tiles k = (s.grantQueue k tiles).map fun x => (k, Ask.header x.1 x.2) := by
    unfold State.asksFor
    rw [h.lock]
    rfl
  have hother (k : Nat) (hk : k ≠ o) : s.asksFor tiles k = none := by
    rw [hask, h.grants_none hk]
    rfl
  unfold State.asks
  split
  · next hfree =>
    refine filterMap_alone (List.nodup_range.filter _) (List.mem_filter.mpr ⟨List.mem_range.mpr h.output, hfree⟩) ?_ fun k _ hk => hother k hk
    rw [hask, h.grants ht]
    rfl
  · next hdone =>
    refine List.filterMap_eq_nil_iff.mpr fun k hk => hother k fun hko => hdone ?_
    rw [← hko]
    exact (List.mem_filter.mp hk).2

/-- A round matches the frame's header with its output, once. -/
theorem Alone.matchRound : s.matchRound [] = [(o, .header q b)] ∧ s.matchRound [(o, .header q b)] = [(o, .header q b)] := by
  have htile (done : List (Nat × Ask)) (hdone : done.length < 8) : b.tile ∈ (List.range 16).filter fun t => decide (0 < tileRoom done t) := by
    refine List.mem_filter.mpr ⟨List.mem_range.mpr h.tile, decide_eq_true ?_⟩
    have := List.length_filter_le (fun d : Nat × Ask => d.2.tile == b.tile) done
    unfold tileRoom
    omega
  constructor
  · rw [State.matchRound_accepts, h.asks (htile [] (by decide)), List.nil_append]
    change List.flatMap (s.acceptsAt [] [(o, .header q b)]) _ = _
    rw [funext (State.acceptsAt_one s o q b), ← List.filterMap_eq_flatMap_toList]
    exact filterMap_alone (List.nodup_range.filter _) (htile [] (by decide)) (if_pos rfl) fun t _ ht => if_neg (Ne.symm ht)
  · rw [State.matchRound_accepts, h.asks (htile _ (by simp))]
    simp [State.acceptsAt]

end

/-! ### What a round leaves beside the frames that it moves (13 R351 to R353) -/

/-- Cells come free, credits are returned or kept back and tokens are taken: of the switch's core no more than that changes. -/
def CellFrame (s t : State) : Prop :=
  SentFrame s t ∧ t.sw.core = { s.sw.core with owed := t.sw.core.owed, used := t.sw.core.used, shaper := t.sw.core.shaper }

theorem CellFrame.refl (s : State) : CellFrame s s := ⟨.refl s, rfl⟩

theorem CellFrame.trans {s t u : State} (h : CellFrame s t) (k : CellFrame t u) : CellFrame s u := by
  refine ⟨h.1.trans k.1, ?_⟩
  rw [k.2, h.2]

theorem CellFrame.of_ite {s t u : State} {c : Prop} [Decidable c] (ht : CellFrame s t) (hu : CellFrame s u) : CellFrame s (if c then t else u) := by
  split <;> assumption

theorem CellFrame.each {α : Type} {l : List α} {g : State → α → State} {s : State} (hg : ∀ u a, CellFrame u (g u a)) : CellFrame s (s.each l g) :=
  State.each_keeps (CellFrame.refl s) fun u hu a => hu.trans (hg u a)

theorem CellFrame.waiting {s t : State} (h : CellFrame s t) : t.sw.core.waiting = s.sw.core.waiting := by rw [h.2]

theorem State.returnCredit_cell (s : State) (p vc n : Nat) : CellFrame s (s.returnCredit p vc n) := by
  refine ⟨State.returnCredit_sent s p vc n, ?_⟩
  unfold State.returnCredit
  dsimp only
  split
  · rfl
  · split <;> rfl

theorem State.settleOwed_cell (s : State) (key : Nat) : CellFrame s (s.settleOwed key) := by
  unfold State.settleOwed
  split
  · exact .refl s
  · exact CellFrame.trans ⟨⟨rfl, List.prefix_refl _⟩, rfl⟩ (State.returnCredit_cell _ _ _ _)

/-- Where no internal source holds a frame, none joins a queue as cells come free. -/
theorem State.freeCells_cell {s : State} (h : s.sw.core.waiting = []) (b : Buffered) : CellFrame s (s.freeCells b) := by
  have hcredit : CellFrame s (if b.src < 64 ∧ b.f.cls ≠ 0 then s.returnCredit b.src b.vc b.owes else s) := .of_ite (State.returnCredit_cell s _ _ _) (.refl s)
  unfold State.freeCells
  dsimp only
  generalize (if b.src < 64 ∧ b.f.cls ≠ 0 then s.returnCredit b.src b.vc b.owes else s) = u at hcredit ⊢
  have hcells : CellFrame u (u.onSw fun w => { w with core := { w.core with used := w.core.used.put b.tile (w.core.used.get b.tile 0 - b.cells) } }) :=
    ⟨⟨rfl, List.prefix_refl _⟩, rfl⟩
  refine .of_ite (hcredit.trans hcells) ?_
  rw [(hcredit.trans hcells).waiting, h]
  exact hcredit.trans hcells

theorem State.spendTokens_cell (s : State) (p : Nat) (f : Frame) : CellFrame s (s.spendTokens p f) := by
  refine .each fun u k => ?_
  unfold State.onCore State.onSw
  dsimp only
  split <;> exact ⟨⟨rfl, List.prefix_refl _⟩, rfl⟩

/-- Nothing waits that the end of a request lets go on. -/
structure Quiet (s : State) : Prop where
  held : s.sw.escrow.held = []
  inval : s.sw.xlat.inval = []
  idle : ∀ e, (s.sw.getEngine e).task = none

/-- Without a held request, an invalidation or a task, nothing follows the end of requests. -/
theorem State.flightsGo_idle {s : State} (h : Quiet s) : s.flightsGo = s := by
  obtain ⟨hheld, hinval, hidle⟩ := h
  have hleave : s.leaveHeld 4096 = s := by
    have hnone : s.sw.nextToLeave = none := by rw [Switch.nextToLeave, hheld]; rfl
    unfold State.leaveHeld
    rw [hnone]
  have hengines : s.enginesGo = s := State.each_same fun e => by rw [hidle e]
  rw [State.flightsGo, hleave, hengines, State.invalPoll, hinval]
  rfl

/-! ### A header that wins its output (13 R343, R346) -/

/-- The frame that leaves output o (03 R58, R76). -/
def State.leaving (s : State) (o : Nat) (b : Buffered) : Frame :=
  let f := if 64 ≤ b.src then { b.f with age := ageStamp s.sw.clock.now b.f.cls } else b.f
  if isEdge s.sw.sys o then { f with inc := s.sw.incFor (s.sw.peer o) } else f

/-- The head of queue key leaves it. -/
def State.dropHead (s : State) (key : Nat) : State := s.onCore fun c => { c with queue := c.queue.put key ((c.queue.get key []).drop 1) }

/-- Output o is locked to b until it has left. -/
def State.lockFor (s : State) (o q : Nat) (b : Buffered) : State := s.onCore fun c =>
  ({ c with lock := c.lock.put o { left := flitsOf b.f - 1, tile := b.tile, queue := q }
            lastTc0 := if b.f.cls = 0 then c.lastTc0.put o (flitCount (s.now .sw)) else c.lastTc0 } : Core).unlock

/-- Frame f leaves port o and takes the credits of b's cells. -/
def State.departs (s : State) (o q : Nat) (b : Buffered) (f : Frame) : State :=
  (((s.onCore fun c => { c with
    spent := c.spent.put (o * 16 + q) (c.spent.get (o * 16 + q) 0 + b.cells)
    awaiting := if isEdge s.sw.sys o && isMemReq f.typ then c.awaiting ++ [(o, { f with inc := b.f.inc })] else c.awaiting }).count (blkPort o) cFramesTx).emit
      (.frame .sw o f)).lockFor o q b

theorem State.headerWins_internal {s : State} {o : Nat} (ho : 64 ≤ o) (q : Nat) (b : Buffered) :
    s.headerWins o q b = ((s.dropHead (qKey o q)).onCore fun c => { c with inbox := c.inbox.put o (c.inbox.get o [] ++ [b]) }).lockFor o q b := if_pos ho

theorem State.headerWins_port {s : State} {o q : Nat} {b : Buffered} (ho : o < 64) (hage : aged s.sw.sys.cfg s.sw.clock.now b.f = false ∨ 64 ≤ b.src)
    (hwhole : b.whole = true) : s.headerWins o q b = (((s.dropHead (qKey o q)).freeCells b).spendTokens o (s.leaving o b)).departs o q b (s.leaving o b) := by
  have hstays : ¬((aged s.sw.sys.cfg s.sw.clock.now b.f && !decide (b.src ≥ 64)) = true) := by
    obtain h | h := hage <;> simp [h]
  refine (if_neg (Nat.not_le.mpr ho)).trans ((if_neg hstays).trans ?_)
  rw [hwhole]
  rfl

theorem State.lockFor_sent (s : State) (o q : Nat) (b : Buffered) : SentFrame s (s.lockFor o q b) := ⟨rfl, List.prefix_refl _⟩

theorem State.departs_sent (s : State) (o q : Nat) (b : Buffered) (f : Frame) : SentFrame s (s.departs o q b f) := ⟨rfl, List.prefix_append _ _⟩

section
variable {s : State} {o q : Nat} {b : Buffered} (h : Alone s o q b)
include h

theorem Alone.dropHead_queue : (s.dropHead (qKey o q)).sw.core.queue = s.sw.core.queue.put (qKey o q) [] :=
  congrArg (fun l : List Buffered => s.sw.core.queue.put (qKey o q) (l.drop 1)) h.head

/-- Drawn by an internal output, the frame stands in its inbox. -/
theorem Alone.internal (ho : 64 ≤ o) : let t := s.headerWins o q b
    SentFrame s t ∧ t.sw.core.queue = s.sw.core.queue.put (qKey o q) [] ∧ t.sw.core.inbox = s.sw.core.inbox.put o (s.sw.core.inbox.get o [] ++ [b]) := by
  rw [State.headerWins_internal ho]
  exact ⟨⟨rfl, List.prefix_refl _⟩, h.dropHead_queue, rfl⟩

/-- Drawn by a port, it leaves and takes its credits. -/
theorem Alone.port (ho : o < 64) (hage : aged s.sw.sys.cfg s.sw.clock.now b.f = false ∨ 64 ≤ b.src) : let t := s.headerWins o q b
    SentFrame s t ∧ t.sw.core.queue = s.sw.core.queue.put (qKey o q) [] ∧ Out.frame .sw o (s.leaving o b) ∈ t.out
      ∧ t.sw.core.spent = s.sw.core.spent.put (qKey o q) (s.sw.core.spent.get (qKey o q) 0 + b.cells) := by
  rw [State.headerWins_port ho hage h.whole]
  have hdrop : SentFrame s (s.dropHead (qKey o q)) := ⟨rfl, List.prefix_refl _⟩
  obtain ⟨hsent, hcore⟩ := (State.freeCells_cell (s := s.dropHead (qKey o q)) h.waiting b).trans (State.spendTokens_cell _ o (s.leaving o b))
  generalize ((s.dropHead (qKey o q)).freeCells b).spendTokens o (s.leaving o b) = u at hsent hcore ⊢
  have hqueue : u.sw.core.queue = (s.dropHead (qKey o q)).sw.core.queue := by rw [hcore]
  have hspent : u.sw.core.spent = s.sw.core.spent := by rw [hcore]; rfl
  refine ⟨(hdrop.trans hsent).trans (State.departs_sent u o q b _), hqueue.trans h.dropHead_queue, List.mem_append_right _ (List.mem_singleton.mpr rfl), ?_⟩
  rw [← hspent]
  rfl

/-- No port out of service has a frame in its queues. -/
theorem Alone.served (hserved : o < 64 → s.sw.inService o = true) :
    (ports64.filter fun p => !s.sw.inService p && (queueKeys p).any fun k => !(s.sw.core.queue.get k []).isEmpty) = [] := by
  refine List.filter_eq_nil_iff.mpr fun p hp hout => ?_
  have hp64 : p < 64 := List.mem_range.mp hp
  obtain ⟨hservice, hany⟩ := Bool.and_eq_true_iff.mp hout
  obtain ⟨k, hk, hfull⟩ := List.any_eq_true.mp hany
  obtain ⟨j, hj, rfl⟩ := List.mem_map.mp hk
  by_cases hpo : p = o
  · subst hpo
    rw [hserved hp64] at hservice
    cases hservice
  · rw [h.empty (List.mem_range.mp hj) (.inl hpo)] at hfull
    cases hfull

end

/-- Frames that wait for their shapers alone are only counted. -/
theorem State.countShaperWait_tally (s : State) : ∃ t, s.countShaperWait = s.onSw fun w => { w with tally := t } := by
  refine State.each_keeps (P := fun u => ∃ t, u = s.onSw fun w => { w with tally := t }) ⟨s.sw.tally, rfl⟩ fun u hu o =>
    State.each_keeps (P := fun u => ∃ t, u = s.onSw fun w => { w with tally := t }) hu fun v ⟨t, ht⟩ q => ?_
  subst ht
  split
  · split
    · exact ⟨_, rfl⟩
    · exact ⟨t, rfl⟩
  · exact ⟨t, rfl⟩

/-- The pointers of a matched output and tile move on. -/
def State.pointed (s : State) (o tile : Nat) : State :=
  s.onCore fun c => { c with grantPtr := c.grantPtr.put o ((tile + 1) % 16), acceptPtr := c.acceptPtr.put tile ((o + 1) % 87) }

/-- Frames that move leave it so. -/
theorem SentFrame.quiet {s t : State} (h : SentFrame s t) (k : Quiet s) : Quiet t := by
  obtain ⟨-, -, -, -, -, -, hescrow, -, -, -, hxlat, -⟩ := h.fields
  exact ⟨hescrow ▸ k.held, hxlat ▸ k.inval, fun e => by rw [Switch.getEngine, hescrow]; exact k.idle e⟩

theorem State.onSw_tally_sent (s : State) (t : Tally) : SentFrame s (s.onSw fun w => { w with tally := t }) := ⟨rfl, List.prefix_refl _⟩

theorem Alone.counted {s : State} {o q : Nat} {b : Buffered} (h : Alone s o q b) (t : Tally) : Alone (s.onSw fun w => { w with tally := t }) o q b :=
  ⟨h.queue, h.lock, h.waiting, h.tile, h.whole, h.order, h.output, h.eligible⟩

/-- A round of the frame that waits alone: it is drawn, the pointers move on, and credits that were kept back may return. -/
theorem Alone.round {s : State} {o q : Nat} {b : Buffered} (h : Alone s o q b) (hserved : o < 64 → s.sw.inService o = true) (hquiet : Quiet s)
    (hsent : ∀ t, SentFrame s ((s.onSw fun w => { w with tally := t }).headerWins o q b)) :
    ∃ t, CellFrame (((s.onSw fun w => { w with tally := t }).headerWins o q b).pointed o b.tile) s.matcherRound := by
  obtain ⟨t, ht⟩ := s.countShaperWait_tally
  refine ⟨t, ?_⟩
  let u := ((s.onSw fun w => { w with tally := t }).headerWins o q b).pointed o b.tile
  have hu : Quiet u := SentFrame.quiet ((hsent t).trans ⟨rfl, List.prefix_refl _⟩) hquiet
  have hpaid : CellFrame u (u.each u.sw.core.owed fun v e => v.settleOwed e.1) := .each fun v e => State.settleOwed_cell v e.1
  obtain ⟨hfirst, hnext⟩ := (h.counted t).matchRound
  unfold State.matcherRound
  rw [h.served hserved]
  simp only [State.each, List.foldl_nil]
  rw [ht, hfirst, hnext, hnext]
  change CellFrame u (u.each u.sw.core.owed fun v e => v.settleOwed e.1).flightsGo
  rw [State.flightsGo_idle (hpaid.1.quiet hu)]
  exact hpaid

/-- What the row of MATCHER_ROUND leaves of what the draw d left. -/
structure Drawn (s d t : State) (o tile : Nat) : Prop where
  queue : t.sw.core.queue = d.sw.core.queue
  inbox : t.sw.core.inbox = d.sw.core.inbox
  spent : t.sw.core.spent = d.sw.core.spent
  grantPtr : t.sw.core.grantPtr = d.sw.core.grantPtr.put o ((tile + 1) % 16)
  acceptPtr : t.sw.core.acceptPtr = d.sw.core.acceptPtr.put tile ((o + 1) % 87)
  mem : t.sw.mem = s.sw.mem
  escrow : t.sw.escrow = s.sw.escrow
  out : d.out <+: t.out

theorem Alone.drawn {s : State} {o q : Nat} {b : Buffered} (h : Alone s o q b) (hserved : o < 64 → s.sw.inService o = true) (hquiet : Quiet s)
    (hsent : ∀ t, SentFrame s ((s.onSw fun w => { w with tally := t }).headerWins o q b)) :
    ∃ t, Drawn s ((s.onSw fun w => { w with tally := t }).headerWins o q b) s.matcherRound.flitsGo o b.tile := by
  obtain ⟨t, hpaid, hcore⟩ := h.round hserved hquiet hsent
  obtain ⟨-, -, -, hmem, -, -, hescrow, -⟩ := ((hsent t).trans (SentFrame.trans ⟨rfl, List.prefix_refl _⟩ hpaid)).fields
  obtain ⟨hgo, hgoMem, hgoEscrow, hgoOut⟩ := State.flitsGo_transmits s.matcherRound
  refine ⟨t, ?_, ?_, ?_, ?_, ?_, hgoMem.trans hmem, hgoEscrow.trans hescrow, hpaid.2.trans hgoOut⟩ <;> (rw [hgo, hcore]; rfl)

/-- MATCHER_ROUND of a frame that waits alone for an internal output. -/
theorem Alone.matcherRound_internal {s : State} {o q : Nat} {b : Buffered} (h : Alone s o q b) (hquiet : Quiet s) (ho : 64 ≤ o) :
    let t := s.matcherRound.flitsGo
    t.sw.core.queue.get (qKey o q) [] = [] ∧ t.sw.core.inbox.get o [] = s.sw.core.inbox.get o [] ++ [b]
      ∧ (∀ k ≠ o, t.sw.core.inbox.get k [] = s.sw.core.inbox.get k []) ∧ t.sw.core.grantPtr.get o 0 = (b.tile + 1) % 16
      ∧ t.sw.core.acceptPtr.get b.tile 0 = (o + 1) % 87 ∧ t.sw.mem = s.sw.mem ∧ t.sw.escrow = s.sw.escrow := by
  obtain ⟨x, hdrawn⟩ := h.drawn (fun hlow => absurd ho (Nat.not_le.mpr hlow)) hquiet fun x =>
    (State.onSw_tally_sent s x).trans ((h.counted x).internal ho).1
  obtain ⟨-, hqueue, hinbox⟩ := (h.counted x).internal ho
  have hinbox' := hdrawn.inbox.trans hinbox
  intro t
  rw [hdrawn.queue, hqueue, hinbox', hdrawn.grantPtr, hdrawn.acceptPtr]
  exact ⟨Tab.get_put_self _ _ _ _, Tab.get_put_self _ _ _ _, fun k hk => Tab.get_put_ne _ _ _ _ _ hk, Tab.get_put_self _ _ _ _, Tab.get_put_self _ _ _ _,
    hdrawn.mem, hdrawn.escrow⟩

theorem State.eligible_active {s : State} {o q : Nat} {b : Buffered} (ho : o < 64) (h : s.eligible o q b = true) : (s.sw.getLink o).state = .active := by
  have hleave := (Bool.and_eq_true_iff.mp h).1
  unfold State.mayLeave at hleave
  rw [if_neg (Nat.not_le.mpr ho)] at hleave
  simp only [Bool.and_eq_true, beq_iff_eq, and_assoc] at hleave
  exact hleave.1

theorem State.eligible_internal {o : Nat} (ho : 64 ≤ o) (s : State) (q : Nat) (b : Buffered) : s.eligible o q b = true := by
  simp [State.eligible, State.mayLeave, ho]

theorem Switch.inService_active {w : Switch} {p : Nat} (h : (w.getLink p).state = .active) : w.inService p = true := by
  unfold Switch.inService Link.carries
  rw [h]
  rfl

/-- MATCHER_ROUND of a frame that waits alone for a port in service. -/
theorem Alone.matcherRound_port {s : State} {o q : Nat} {b : Buffered} (h : Alone s o q b) (hquiet : Quiet s) (ho : o < 64)
    (hage : aged s.sw.sys.cfg s.sw.clock.now b.f = false ∨ 64 ≤ b.src) :
    let t := s.matcherRound.flitsGo
    t.sw.core.queue.get (qKey o q) [] = [] ∧ Out.frame .sw o (s.leaving o b) ∈ t.out
      ∧ t.sw.core.spent.get (qKey o q) 0 = s.sw.core.spent.get (qKey o q) 0 + b.cells ∧ t.sw.mem = s.sw.mem ∧ t.sw.escrow = s.sw.escrow := by
  have hserved : s.sw.inService o = true := Switch.inService_active (State.eligible_active ho h.eligible)
  obtain ⟨x, hdrawn⟩ := h.drawn (fun _ => hserved) hquiet fun x => (State.onSw_tally_sent s x).trans ((h.counted x).port ho hage).1
  obtain ⟨-, hqueue, hleaves, hspent⟩ := (h.counted x).port ho hage
  intro t
  rw [hdrawn.queue, hqueue, hdrawn.spent, hspent]
  exact ⟨Tab.get_put_self _ _ _ _, hdrawn.out.subset hleaves, Tab.get_put_self _ _ _ _, hdrawn.mem, hdrawn.escrow⟩

/-! ### QUEUE_SAMPLE (11 R320, 13 R344) -/

/-- The record of queue k after a sample. -/
def State.sampleOf (s : State) (k : Nat) : QueueRec :=
  let l := s.sw.core.queue.get k []
  (s.sw.tally.queue.get k {}).sample (l.foldl (fun n b => n + b.cells) 0) ((l.head?.map fun b => min (2 ^ 20 - 1) ((s.now .sw - b.at_) / tFlit)).getD 0)
    (l.head?.map fun b => b.f.partition)

/-- The records of queues are replaced. -/
def State.putRecords (s : State) (t : Tab QueueRec) : State := s.onSw fun w => { w with tally := { w.tally with queue := t } }

theorem State.sampleQueue_eq (s : State) (o q : Nat) : s.sampleQueue o q = s.putRecords (s.sw.tally.queue.put (qKey o q) (s.sampleOf (qKey o q))) := rfl

/-- A sample of every queue of a list that names none twice. -/
theorem State.each_sample (l : List Nat) (hl : l.Nodup) (s : State) :
    ∃ t, s.each l (fun u k => u.putRecords (u.sw.tally.queue.put k (u.sampleOf k))) = s.putRecords t
      ∧ ∀ k, t.get k {} = if k ∈ l then s.sampleOf k else s.sw.tally.queue.get k {} := by
  induction l generalizing s with
  | nil => exact ⟨s.sw.tally.queue, rfl, fun k => by simp⟩
  | cons a l ih =>
    obtain ⟨ha, hl⟩ := List.nodup_cons.mp hl
    obtain ⟨t, ht, hget⟩ := ih hl (s.putRecords (s.sw.tally.queue.put a (s.sampleOf a)))
    refine ⟨t, ht, fun k => (hget k).trans ?_⟩
    by_cases hk : k = a
    · subst hk
      rw [if_neg ha, if_pos List.mem_cons_self]
      exact Tab.get_put_self _ _ _ _
    · have hput : (s.sw.tally.queue.put a (s.sampleOf a)).get k {} = s.sw.tally.queue.get k {} := Tab.get_put_ne _ _ _ _ _ hk
      have hsample : (s.putRecords (s.sw.tally.queue.put a (s.sampleOf a))).sampleOf k = s.sampleOf k := congrArg (fun r : QueueRec => r.sample _ _ _) hput
      rw [hsample, show (s.putRecords _).sw.tally.queue.get k {} = _ from hput]
      simp [hk]

/-- The queues of the ports, in the order in which they are sampled. -/
theorem ports64_queues : (ports64.flatMap fun o => (List.range 16).map (qKey o)) = List.range 1024 := by decide +kernel

theorem State.sampleAll (s : State) :
    ∃ t, (s.each ports64 fun u o => u.each (List.range 16) fun v q => v.sampleQueue o q) = s.putRecords t
      ∧ ∀ o < 64, ∀ q < 16, t.get (qKey o q) {} = s.sampleOf (qKey o q) := by
  obtain ⟨t, ht, hget⟩ := State.each_sample (List.range 1024) List.nodup_range s
  refine ⟨t, ?_, fun o ho q hq => ?_⟩
  · rw [← ht, ← ports64_queues]
    unfold State.each
    rw [List.foldl_flatMap]
    simp only [List.foldl_map]
    rfl
  · rw [hget, if_pos]
    rw [List.mem_range]
    unfold qKey
    omega

/-- Where no frame is past the residence bound none is discarded. -/
theorem State.discardStale_none {s : State}
    (hkept : ∀ e ∈ s.sw.core.queue ++ s.sw.core.inbox ++ s.sw.core.held, ∀ b ∈ e.2, overstayed s.sw.clock.now b.at_ b.f.cls = false)
    (hheld : ∀ e ∈ s.sw.core.held, e.2 ≠ []) (hcut : ∀ e ∈ s.sw.core.cut, overstayed s.sw.clock.now e.2.b.at_ e.2.b.f.cls = false)
    (hunlock : s.sw.core.unlock = s.sw.core) : s.discardStale = s := by
  have hlate (t : Tab (List Buffered)) (ht : ∀ e ∈ t, e ∈ s.sw.core.queue ++ s.sw.core.inbox ++ s.sw.core.held) :
      (t.mapVals fun _ l => l.filter fun b => !overstayed s.sw.clock.now b.at_ b.f.cls) = t :=
    Tab.mapVals_filter_self fun e he b hb => by rw [hkept e (ht e he) b hb]; rfl
  have hgone : ((s.sw.core.queue ++ s.sw.core.inbox ++ s.sw.core.held).flatMap fun e => e.2.filter fun b => overstayed s.sw.clock.now b.at_ b.f.cls) = [] :=
    List.flatMap_eq_nil_iff.mpr fun e he => List.filter_eq_nil_iff.mpr fun b hb => by simp [hkept e he b hb]
  have houts : (s.sw.core.cut.filter fun e => overstayed s.sw.clock.now e.2.b.at_ e.2.b.f.cls) = [] :=
    List.filter_eq_nil_iff.mpr fun e he => by simp [hcut e he]
  have hcuts : (s.sw.core.cut.filter fun e => !overstayed s.sw.clock.now e.2.b.at_ e.2.b.f.cls) = s.sw.core.cut :=
    List.filter_eq_self.mpr fun e he => by simp [hcut e he]
  have hheads : (s.sw.core.held.filter fun e => !e.2.isEmpty) = s.sw.core.held :=
    List.filter_eq_self.mpr fun e he => by simp [hheld e he]
  unfold State.discardStale
  simp only [State.now, hgone, houts, State.each, List.foldl_nil]
  simp only [State.onCore, State.onSw]
  rw [hlate _ (by simp +contextual), hlate _ (by simp +contextual), hlate _ (by simp +contextual), hheads, hcuts, hunlock]

/-! ### BUCKET_REFILL (11 R315 to R319, 16 R426) -/

/-- A refill gives a bucket its rate, up to its burst. -/
def Bucket.refilled (b : Bucket) : Bucket := { b with tokens := min (b.tokens + b.rate) (b.burst * 256) }

def Core.refilled (c : Core) : Core :=
  { c with shaper := c.shaper.mapVals fun _ => Bucket.refilled
           policer := c.policer.mapVals fun _ x => { x with tc := min (x.tc + x.cir) (x.cbs * 256), tp := min (x.tp + x.pir) (x.pbs * 256) } }

/-- A setting of a shaper that falls due at a refill: it is in force with a full bucket. -/
def Core.shaperDue (c : Core) (k : Nat) (b : Bucket) (point order : Nat) : Core :=
  { c with shaper := c.shaper.put k b.full, shaperSet := c.shaperSet.put k (point, order) }

/-- Nothing is staged any more. -/
def Core.unstaged (c : Core) : Core := { c with shaperStaged := [], policerStaged := [] }

/-- Without a red frame that waits, a refill marks none again. -/
theorem State.releaseRed_none {s : State} (h : s.sw.core.held = []) : s.each s.sw.core.held (fun u e => u.releaseRed e.1 e.2.length) = s := by
  rw [h]
  rfl

theorem State.bucketRefill_unstaged {s : State} (hheld : s.sw.core.held = []) (hshaper : s.sw.core.shaperStaged = []) (hpolicer : s.sw.core.policerStaged = []) :
    s.bucketRefill = s.onCore Core.refilled := by
  have hcore : s.sw.core.refilled.unstaged = s.sw.core.refilled := by
    unfold Core.unstaged Core.refilled
    rw [hshaper, hpolicer]
  calc s.bucketRefill = s.onCore fun c => c.refilled.unstaged := by
        unfold State.bucketRefill
        rw [hshaper, hpolicer]
        exact State.releaseRed_none hheld
    _ = s.onCore Core.refilled := by
        change s.onCore (fun _ => s.sw.core.refilled.unstaged) = s.onCore fun _ => s.sw.core.refilled
        rw [hcore]

/-- One staged shaper that falls due: it is in force, unless a package that activated at the same instant was armed by a later command. -/
theorem State.bucketRefill_staged {s : State} (hheld : s.sw.core.held = []) {k : Nat} {b : Bucket} {c : StagedBy}
    (hshaper : s.sw.core.shaperStaged = [(k, b, c)]) (hpolicer : s.sw.core.policerStaged = []) :
    let point := s.sw.clock.now / 0x40000 * 0x40000
    let u := s.onCore fun x => x.refilled.unstaged
    ReportFrame (if s.sw.sched.yields point c then u else u.onCore fun x => x.shaperDue k b point c.order) s.bucketRefill := by
  intro point u
  generalize hv : (if s.sw.sched.yields point c then u else u.onCore fun x => x.shaperDue k b point c.order) = v
  have hactivation : ReportFrame v (v.activation c.ledger c.seq 0x0701 0) := State.ledgerAdd_report _ _ _
  have hnone : (v.activation c.ledger c.seq 0x0701 0).sw.core.held = [] := by
    obtain ⟨-, -, -, -, -, hcore, -⟩ := hactivation.fields
    rw [hcore, ← hv]
    split <;> exact hheld
  have hrefill : s.bucketRefill = v.activation c.ledger c.seq 0x0701 0 := by
    subst hv
    unfold State.bucketRefill
    rw [hshaper, hpolicer]
    exact State.releaseRed_none hnone
  rw [hrefill]
  exact hactivation

/-- What a refill leaves of the shaper whose setting falls due, and beside the buckets. -/
theorem State.bucketRefill_staged_shaper {s : State} (hheld : s.sw.core.held = []) {k : Nat} {b : Bucket} {c : StagedBy}
    (hshaper : s.sw.core.shaperStaged = [(k, b, c)]) (hpolicer : s.sw.core.policerStaged = []) :
    let t := s.bucketRefill
    t.sw.core.shaper.find k = (if s.sw.sched.yields (s.sw.clock.now / 0x40000 * 0x40000) c
        then (s.sw.core.shaper.find k).map fun x => { x with tokens := min (x.tokens + x.rate) (x.burst * 256) } else some { b with tokens := b.burst * 256 })
      ∧ t.sw.core.shaperStaged = [] ∧ t.sw.core.queue = s.sw.core.queue ∧ t.sw.mem = s.sw.mem ∧ t.ep = s.ep := by
  obtain ⟨-, -, -, hmem, -, hcore, -, -, -, -, -, -, -, hep, -⟩ := (State.bucketRefill_staged hheld hshaper hpolicer).fields
  intro t
  rw [hmem, hcore, hep]
  split
  · exact ⟨Tab.find_mapVals s.sw.core.shaper (fun _ => Bucket.refilled) k, rfl, rfl, rfl, rfl⟩
  · exact ⟨Tab.find_put_self _ _ _, rfl, rfl, rfl, rfl⟩

/-- Settles O23: each row is the equation of its operation, or what the operation leaves of the tables that it goes through. -/
theorem arrivalMatcherSampleRefillComplete : Obligations.ArrivalMatcherSampleRefillComplete := by
  unfold Obligations.ArrivalMatcherSampleRefillComplete
  refine fun s => ⟨fun p f colour u hlink => ?arrival, ?round, ?sample, ?refill⟩
  case arrival =>
    intro s1 vc placed b hheld hmark
    refine ⟨frameArrival_red hlink hheld hmark, fun h => ?_⟩
    obtain ⟨r, hexec, hv⟩ := State.frameArrival_decided hlink hheld hmark h
    intro v
    have hhome : v.sw.sys.homeId = s.sw.sys.homeId := by
      rw [((State.takenIn_sent s p f).trans ((State.markFrame_sent hmark).trans (State.returnCredit_sent u _ _ _))).fields.1]
    refine ⟨fun hforbidden => congrArg Host.Outcome.next (hexec.trans ?_), fun hallowed hsubtype hsparse hfresh hunmasked hunfenced => ?_⟩
    · rw [State.queueDecision_forbidden hforbidden, hv]
      rfl
    · have hadmits : v.sw.Admits p f := ⟨hallowed, hsubtype, hsparse, hfresh, hunmasked, hunfenced⟩
      refine ⟨fun hdest hkept => ?_, fun out hdest hroute => ?_⟩
      · exact congrArg Host.Outcome.next (hexec.trans (State.queueDecision_home hv hadmits rfl (hdest.trans hhome.symm) hkept))
      · intro key hkept htakes
        exact congrArg Host.Outcome.next (hexec.trans (State.queueDecision_port hv hadmits rfl (hhome ▸ hdest) hroute hkept htakes))
  case round =>
    intro o q b hqueue hlock hwaiting htile hwhole hheld hinval hidle
    have hquiet : Quiet s := ⟨hheld, hinval, hidle⟩
    refine ⟨fun hlow hhigh hq => ?internal, fun ho horder heligible hage => ?port⟩
    case internal =>
      have halone : Alone s o q b :=
        ⟨hqueue, hlock, hwaiting, htile, hwhole, queueOrder_internal s.sw.sys hlow hq, hhigh, State.eligible_internal hlow s q b⟩
      exact ⟨_, rfl, halone.matcherRound_internal hquiet hlow⟩
    case port =>
      have halone : Alone s o q b := ⟨hqueue, hlock, hwaiting, htile, hwhole, horder, ho.trans (by decide), heligible⟩
      exact ⟨_, rfl, halone.matcherRound_port hquiet ho hage⟩
  case sample =>
    intro hkept hheld hcut hunlock
    obtain ⟨t, hsample, hget⟩ := s.sampleAll
    have hrow : s.queueSample = s.putRecords t := by
      unfold State.queueSample
      rw [hsample]
      exact State.discardStale_none hkept hheld hcut hunlock
    refine ⟨_, congrArg Host.Outcome.next hrow, rfl, hget⟩
  case refill =>
    exact fun hheld => ⟨fun hshaper hpolicer => congrArg Host.Outcome.next (State.bucketRefill_unstaged hheld hshaper hpolicer),
      fun k b c hshaper hpolicer => ⟨_, rfl, State.bucketRefill_staged_shaper hheld hshaper hpolicer⟩⟩

end Sys2Proof.Machine

namespace Sys2Proof.Machine

/-! ### Rows at a port of either device (15 R391, R392) -/

theorem State.linkEv_ranAt (s : State) (d : Dev) (g : State → State) : s.linkEv d g = s.ranAt d (g s) := by
  cases d <;> rfl

/-- A port counts an event: nothing else changes of the link, nothing is sent. -/
theorem State.countPort_untouched (s : State) (d : Dev) (p i : Nat) : Untouched s (s.countPort d p i) := by
  cases d <;> exact ⟨rfl, rfl, rfl, rfl⟩

theorem State.emit_untouched (s : State) (o : Out) : Untouched s (s.emit o) := ⟨rfl, rfl, rfl, rfl⟩

theorem State.emit_getLink (s : State) (o : Out) (d : Dev) (p : Nat) : (s.emit o).getLink d p = s.getLink d p := (State.emit_untouched s o).getLink d p

theorem State.putLink_getLink (s : State) (d : Dev) (p : Nat) (l : Link) : (s.putLink d p l).getLink d p = l := by
  cases d
  · exact Tab.get_put_self _ _ _ _
  · exact Tab.get_put_self _ _ _ _

/-- A port that leaves service has a link that starts afresh, and both homes are as they were. -/
theorem State.leavePort_fresh (s : State) (p : Nat) (st : PortState) (why : Nat) :
    (∃ n, (s.leavePort p st why).getLink .sw p = { (s.getLink .sw p).fresh with state := st, fenceWhy := why, attempts := 0, narrowed := n })
      ∧ SameMemory s (s.leavePort p st why) := by
  have hqueues (l : Link) : Upkeep (s.putLink .sw p l) (((s.setPort p l).cutOpen p 1).discardQueues p) :=
    ((State.setPort_upkeep s p l).trans (State.cutOpen_upkeep _ p 1)).trans (State.discardQueues_upkeep _ p)
  have hlink (l : Link) := (hqueues l).link
  have hhome (l : Link) := (hqueues l).home
  have hep (l : Link) := (hqueues l).ep
  constructor
  · simp only [State.leavePort, State.onPort, State.getLink, State.onSw_sw, Switch.getLink, hlink, State.putLink_atSw_sw, Tab.get_put_self]
    exact ⟨_, rfl⟩
  · refine .of_homes ?_ ?_
    · simp only [State.leavePort, State.onPort, State.onSw_sw, hhome, State.putLink_atSw_sw]
    · simp only [State.leavePort, State.onPort, State.onSw_ep, hep, State.putLink_atSw_ep]

theorem State.lostSource_untouched (s : State) (d : Dev) (p : Nat) : Untouched s (s.lostSource d p) := by
  unfold State.lostSource State.sourceFails
  split
  · split
    · exact (Steady.refl s).toUntouched
    · exact (State.onClock_untouched s d _).trans (State.retime_untouched _ d)
  · exact (Steady.refl s).toUntouched

/-- A port that goes down has a link that starts afresh, in DETECT or in DOWN. -/
theorem State.portDown_fresh (s : State) (d : Dev) (p : Nat) : let t := s.portDown d p
    (t.getLink d p).rx = {} ∧ (t.getLink d p).tx = {} ∧ ((t.getLink d p).state = .detect ∨ (t.getLink d p).state = .down) ∧ SameMemory s t := by
  cases d with
  | ep =>
    have h := State.lostSource_untouched (((s.onLink .ep p fun l => { l.fresh with state := .detect }).onEp fun e =>
      { e with spent := e.spent.filter fun c => c.1 / 16 != p }).emit (.tickClock .ep p)) .ep p
    have hlink := (h.getLink .ep p).trans (State.getLink_onLink s .ep p fun l => { l.fresh with state := .detect })
    unfold State.portDown
    dsimp only
    rw [hlink]
    exact ⟨rfl, rfl, .inl rfl, SameMemory.trans (.of_homes rfl rfl) h.sameMemory⟩
  | sw =>
    unfold State.portDown State.retrain
    dsimp only
    split
    · obtain ⟨⟨n, hlink⟩, hmem⟩ := s.leavePort_fresh p .down 0
      have h := State.lostSource_untouched (s.leavePort p .down 0) .sw p
      rw [h.getLink, hlink]
      exact ⟨rfl, rfl, .inr rfl, hmem.trans h.sameMemory⟩
    · obtain ⟨⟨n, hlink⟩, hmem⟩ := s.leavePort_fresh p .detect 0
      have h := State.lostSource_untouched ((s.leavePort p .detect 0).emit (.tickClock .sw p)) .sw p
      rw [h.getLink, State.emit_getLink, hlink]
      exact ⟨rfl, rfl, .inl rfl, hmem.trans ((State.emit_untouched _ _).sameMemory.trans h.sameMemory)⟩

/-! ### The flit that arrives (15 R388 to R391) -/

/-- At the port the link is now l; both homes are as they were. -/
structure Relinked (s t : State) (d : Dev) (p : Nat) (l : Link) : Prop where
  link : t.getLink d p = l
  memory : SameMemory s t

theorem Relinked.trans {s t u : State} {d : Dev} {p : Nat} {l m : Link} (h : Relinked s t d p l) (k : Relinked t u d p m) : Relinked s u d p m :=
  ⟨k.link, h.memory.trans k.memory⟩

theorem Relinked.then {s t u : State} {d : Dev} {p : Nat} {l : Link} (h : Relinked s t d p l) (k : Untouched t u) : Relinked s u d p l :=
  ⟨(k.getLink d p).trans h.link, h.memory.trans k.sameMemory⟩

theorem Relinked.after {s t u : State} {d : Dev} {p : Nat} {l : Link} (h : Relinked t u d p l) (k : Untouched s t) : Relinked s u d p l :=
  ⟨h.link, k.sameMemory.trans h.memory⟩

theorem State.onLink_relinked (s : State) (d : Dev) (p : Nat) (g : Link → Link) : Relinked s (s.onLink d p g) d p (g (s.getLink d p)) :=
  ⟨State.getLink_onLink s d p g, State.onLink_sameMemory s d p g⟩

/-- A switch port's change of link is reported; its link is the one given all the same. -/
theorem State.setLink_relinked (s : State) (d : Dev) (p : Nat) (g : Link → Link) : Relinked s (s.setLink d p g) d p (g (s.getLink d p)) := by
  cases d with
  | ep => exact State.onLink_relinked s .ep p g
  | sw => exact (State.onLink_relinked s .sw p g).then (State.setPort_upkeep s p (g (s.sw.getLink p))).steady.toUntouched

theorem Relinked.onLink {s t : State} {d : Dev} {p : Nat} {l : Link} (h : Relinked s t d p l) (g : Link → Link) : Relinked s (t.onLink d p g) d p (g l) :=
  h.trans (h.link ▸ State.onLink_relinked t d p g)

theorem Relinked.setLink {s t : State} {d : Dev} {p : Nat} {l : Link} (h : Relinked s t d p l) (g : Link → Link) : Relinked s (t.setLink d p g) d p (g l) :=
  h.trans (h.link ▸ State.setLink_relinked t d p g)

theorem Relinked.refl (s : State) (d : Dev) (p : Nat) : Relinked s s d p (s.getLink d p) := ⟨rfl, fun _ => ⟨rfl, rfl⟩⟩

theorem State.sendNak_relinked (s : State) (d : Dev) (p restart n : Nat) : let l := s.getLink d p
    Relinked s (s.sendNak d p restart n) d p { l with rx := { l.rx with nak := some (restart, n), expect := restart }, tx := { l.tx with nak := some restart } } := by
  exact (State.onLink_relinked s d p _).then (State.countPort_untouched _ d p cReplay)

/-- What forward error correction leaves: the symbol that it corrected is counted. -/
def State.fecCounted (s : State) (d : Dev) (p : Nat) (fixed : Option Nat) : State :=
  match fixed with
  | none => s
  | some j => (s.countPort d p cCorrected).onLink d p fun l => l.countSymbol j

theorem State.fecCounted_relinked (s : State) (d : Dev) (p : Nat) (fixed : Option Nat) :
    Relinked s (s.fecCounted d p fixed) d p (match fixed with
      | some j => (s.getLink d p).countSymbol j
      | none => s.getLink d p) ∧ (s.fecCounted d p fixed).out = s.out := by
  cases fixed with
  | none => exact ⟨.refl s d p, rfl⟩
  | some j =>
    have hcount := State.countPort_untouched s d p cCorrected
    have h := State.onLink_relinked (s.countPort d p cCorrected) d p fun l => l.countSymbol j
    rw [hcount.getLink] at h
    exact ⟨h.after hcount, by cases d <;> rfl⟩

/-- A corrected flit, taken by its type. -/
def State.takeFlit (s : State) (d : Dev) (p : Nat) (b : List Byte) : State :=
  let h := field b 0 8
  let ty := bits h 24 4
  if (crc32c (slice b 0 248)).toNat ≠ field b 248 4 ∨ ty = 0 ∨ 4 < ty then s.flitFailed d p
  else if ty = 1 then s.sequenced d p (bits h 0 12) fun s again => s.dataFlit d p (bits h 0 12) again b
  else if ty = 2 then s.sequenced d p (bits h 0 12) fun s _ => s.keyxFlit d p (bits h 0 12) (bits h 12 12) b
  else if !(s.getLink d p).rx.controlOk b then s
  else
    let keyed := (s.getLink d p).rx.key.isSome
    let s := s.setLink d p fun l => ({ l with rx := { l.rx with ctrlCount := if keyed then field b 8 8 else l.rx.ctrlCount } } : Link).takeAck (bits h 12 12)
    if ty = 4 then s.replayFrom d p (bits h 0 12) else s

theorem State.flitReceive_active {s : State} {d : Dev} {p : Nat} (h : (s.getLink d p).state = .active) (bytes : List Byte) :
    s.flitReceive d p bytes = (s.fecCounted d p (fecCorrect bytes).2).takeFlit d p (fecCorrect bytes).1 := by
  unfold State.flitReceive
  rw [h]
  rfl

theorem State.flitReceive_idle {s : State} {d : Dev} {p : Nat} (hsecure : (s.getLink d p).state ≠ .secure) (htime : (s.getLink d p).state ≠ .time)
    (hactive : (s.getLink d p).state ≠ .active) (bytes : List Byte) : s.flitReceive d p bytes = s := by
  unfold State.flitReceive
  exact if_pos (by simp [hsecure, htime, hactive])

/-- The receiver has the key of groups of one flit; no group, frame or replay is under way. -/
structure Rx.Ready (r : Rx) (k : LinkKey) : Prop where
  key : r.key = some k
  single : k.g = 1
  newKey : r.newKey = none
  nak : r.nak = none
  before : r.before = none
  group : r.group = []
  open_ : r.open_ = none
  early : r.early = none
  entered : r.entered = []
  verified : r.verified = r.expect

/-- The sequence number after one. -/
def seqNext (q : Nat) : Nat := (q + 1) % 4096

/-- The sequence numbers received, with that of the flit in order. -/
def Rx.gotNext (r : Rx) : List Nat := if r.got.contains r.expect then r.got else r.got ++ [r.expect]

/-- Those of them that are not before the flit after it. -/
def Rx.keptNext (r : Rx) : List Nat := r.gotNext.filter fun q => !seqBefore q (seqNext r.expect)

theorem State.flitFailed_relinked {s : State} {d : Dev} {p : Nat} {k : LinkKey} (hr : (s.getLink d p).rx.Ready k) : let l := s.getLink d p
    Relinked s (s.flitFailed d p) d p { l with rx := { l.rx with nak := some (l.rx.expect, 1) }, tx := { l.tx with nak := some l.rx.expect } } := by
  unfold State.flitFailed
  rw [if_neg (by simp [hr.nak, hr.key])]
  exact State.sendNak_relinked s d p _ 1

/-- A restart flit that was not asked for ends no replay. -/
theorem Rx.arrives_self {r : Rx} (hnak : r.nak = none) (hbefore : r.before = none) : { r with nak := none, before := r.nak.or r.before } = r := by
  cases r
  cases hnak
  cases hbefore
  rfl

/-- A flit in order is noted as received, and taken by g. -/
theorem State.sequenced_next {s : State} {d : Dev} {p seq : Nat} {k : LinkKey} (hr : (s.getLink d p).rx.Ready k) (hseq : seq = (s.getLink d p).rx.expect)
    (g : State → Bool → State) : let l := s.getLink d p
    ∃ v again, s.sequenced d p seq g = g v again ∧ Relinked s v d p { l with rx := { l.rx with got := l.rx.gotNext } } := by
  intro l
  have hgot : Relinked s (if l.rx.got.contains l.rx.expect then s else s.onRx d p fun r => { r with got := r.got ++ [l.rx.expect] }) d p
      { l with rx := { l.rx with got := l.rx.gotNext } } := by
    unfold Rx.gotNext
    split
    · exact .refl s d p
    · exact State.onLink_relinked s d p _
  generalize hu : (if l.rx.got.contains l.rx.expect then s else s.onRx d p fun r => { r with got := r.got ++ [l.rx.expect] }) = u at hgot
  refine ⟨u.onRx d p fun r => { r with nak := none, before := r.nak.or r.before }, l.rx.got.contains l.rx.expect, ?_, ?_⟩
  · rw [hseq, ← hu]
    exact if_pos rfl
  · have hrx := Rx.arrives_self (r := { l.rx with got := l.rx.gotNext }) hr.nak hr.before
    have h := hgot.onLink fun m => { m with rx := { m.rx with nak := none, before := m.rx.nak.or m.rx.before } }
    rw [hrx] at h
    exact h

/-- A flit whose check fails, or of no known type. -/
theorem State.takeFlit_failed {s : State} {d : Dev} {p : Nat} {k : LinkKey} (hr : (s.getLink d p).rx.Ready k) {b : List Byte}
    (hfail : ¬(crc32c (slice b 0 248)).toNat = field b 248 4 ∨ bits (field b 0 8) 24 4 = 0 ∨ 4 < bits (field b 0 8) 24 4) : let l := s.getLink d p
    Relinked s (s.takeFlit d p b) d p { l with rx := { l.rx with nak := some (l.rx.expect, 1) }, tx := { l.tx with nak := some l.rx.expect } } := by
  unfold State.takeFlit
  rw [if_pos hfail]
  exact State.flitFailed_relinked hr

section
variable {s : State} {d : Dev} {p : Nat} {b : List Byte} (hsound : (crc32c (slice b 0 248)).toNat = field b 248 4)
include hsound

theorem State.takeFlit_data (htype : bits (field b 0 8) 24 4 = 1) :
    s.takeFlit d p b = s.sequenced d p (bits (field b 0 8) 0 12) fun u again => u.dataFlit d p (bits (field b 0 8) 0 12) again b := by
  simp [State.takeFlit, hsound, htype]

theorem State.takeFlit_keyx (htype : bits (field b 0 8) 24 4 = 2) :
    s.takeFlit d p b = s.sequenced d p (bits (field b 0 8) 0 12) fun u _ => u.keyxFlit d p (bits (field b 0 8) 0 12) (bits (field b 0 8) 12 12) b := by
  simp [State.takeFlit, hsound, htype]

theorem State.takeFlit_unproven (htype : bits (field b 0 8) 24 4 = 3 ∨ bits (field b 0 8) 24 4 = 4) (hcontrol : (s.getLink d p).rx.controlOk b = false) :
    s.takeFlit d p b = s := by
  obtain htype | htype := htype <;> simp [State.takeFlit, hsound, htype, hcontrol]

/-- A NULL or NAK flit that authenticates: its count is the last, and it acknowledges. -/
theorem State.takeFlit_control {k : LinkKey} (hkey : (s.getLink d p).rx.key = some k) (htype : bits (field b 0 8) 24 4 = 3 ∨ bits (field b 0 8) 24 4 = 4)
    (hcontrol : (s.getLink d p).rx.controlOk b = true) : let l := s.getLink d p
    ∃ u, Relinked s u d p (Link.takeAck { l with rx := { l.rx with ctrlCount := field b 8 8 } } (bits (field b 0 8) 12 12))
      ∧ s.takeFlit d p b = if bits (field b 0 8) 24 4 = 4 then u.replayFrom d p (bits (field b 0 8) 0 12) else u := by
  intro l
  refine ⟨s.setLink d p fun l => ({ l with rx := { l.rx with ctrlCount := field b 8 8 } } : Link).takeAck (bits (field b 0 8) 12 12),
    State.setLink_relinked s d p _, ?_⟩
  obtain htype | htype := htype <;> simp [State.takeFlit, hsound, htype, hcontrol, hkey]

end

/-! ### KEYX flits (15 R390, R401) -/

/-- An acknowledgement leaves the message that arrives. -/
theorem Link.takeAck_keyx (l : Link) (a : Nat) (x : List Byte) : ({ l with rx := { l.rx with keyx := x } } : Link).takeAck a
    = { l.takeAck a with rx := { (l.takeAck a).rx with keyx := x } } := by
  unfold Link.takeAck
  dsimp only
  split
  · rfl
  · split
    · unfold Link.finAcked
      dsimp only
      split <;> rfl
    · rfl

/-- The link after a KEYX flit in order, with these bytes of a message. -/
def Link.keyxTaken (l : Link) (rest : List Byte) (ack : Nat) : Link :=
  Link.takeAck { l with rx := { l.rx with expect := seqNext l.rx.expect, verified := seqNext l.rx.expect, got := l.rx.keptNext, keyx := rest } } ack

theorem Link.keyxTaken_keyx (l : Link) (rest : List Byte) (ack : Nat) : (l.keyxTaken rest ack).rx.keyx = rest :=
  congrArg (fun m : Link => m.rx.keyx) (Link.takeAck_keyx { l with rx := { l.rx with expect := seqNext l.rx.expect, verified := seqNext l.rx.expect, got := l.rx.keptNext } } ack rest)

theorem Link.keyxTaken_dropped (l : Link) (rest : List Byte) (ack : Nat) :
    { l.keyxTaken rest ack with rx := { (l.keyxTaken rest ack).rx with keyx := [] } } = l.keyxTaken [] ack :=
  (Link.takeAck_keyx { l with rx := { l.rx with expect := seqNext l.rx.expect, verified := seqNext l.rx.expect, got := l.rx.keptNext, keyx := rest } } ack []).symm

/-- What a KEYX flit does to the link. -/
def Link.joinKeyx (l : Link) (seq ack : Nat) (b : List Byte) : Link :=
  Link.takeAck { l with rx := { l.rx with
    expect := seqNext seq
    verified := if l.rx.group.isEmpty then seqNext seq else l.rx.verified
    got := if l.rx.group.isEmpty then l.rx.got.filter (fun q => !seqBefore q (seqNext seq)) else l.rx.got
    keyx := l.rx.keyx ++ slice b 8 240 } } ack

theorem Link.joinKeyx_ready {l : Link} {k : LinkKey} (hr : l.rx.Ready k) (ack : Nat) (b : List Byte) :
    Link.joinKeyx { l with rx := { l.rx with got := l.rx.gotNext } } l.rx.expect ack b = l.keyxTaken (l.rx.keyx ++ slice b 8 240) ack := by
  simp only [Link.joinKeyx, Link.keyxTaken, Rx.keptNext, hr.group, List.isEmpty_nil, if_true]

section
variable {s : State} {d : Dev} {p : Nat} {k : LinkKey} (hr : (s.getLink d p).rx.Ready k)
include hr

/-- A KEYX flit in order acknowledges, and its slots join the message: one of no message's length is dropped, one that is whole acts. -/
theorem State.keyxFlit_next {v : State} (hv : let l := s.getLink d p; Relinked s v d p { l with rx := { l.rx with got := l.rx.gotNext } }) (ack : Nat) (b : List Byte) :
    let l := s.getLink d p
    let msg := l.rx.keyx ++ slice b 8 240
    let size := field msg 4 4
    let t := v.keyxFlit d p l.rx.expect ack b
    (8 ≤ size → size ≤ 6065 → msg.length < size → Relinked s t d p (l.keyxTaken msg ack))
      ∧ (size < 8 ∨ 6065 < size → Relinked s t d p (l.keyxTaken [] ack))
      ∧ (8 ≤ size → size ≤ 6065 → size ≤ msg.length → ∃ u, Relinked s u d p (l.keyxTaken [] ack) ∧ t = u.keyMsgArrives d p (msg.take size)) := by
  intro l msg size t
  let w := v.setLink d p fun m => m.joinKeyx l.rx.expect ack b
  have hw : Relinked s w d p (l.keyxTaken msg ack) := Link.joinKeyx_ready hr ack b ▸ Relinked.setLink hv _
  have hmsg : (w.getLink d p).rx.keyx = msg := by rw [hw.link, Link.keyxTaken_keyx]
  have ht : t = if size < 8 ∨ 6065 < size then w.onRx d p fun r => { r with keyx := [] }
      else if msg.length < size then w else (w.onRx d p fun r => { r with keyx := [] }).keyMsgArrives d p (msg.take size) := by
    simp only [size]
    rw [← hmsg]
    rfl
  have hdropped : Relinked s (w.onRx d p fun r => { r with keyx := [] }) d p (l.keyxTaken [] ack) :=
    Link.keyxTaken_dropped l msg ack ▸ hw.onLink fun m => { m with rx := { m.rx with keyx := [] } }
  rw [ht]
  refine ⟨fun hlow hhigh hpart => ?_, fun hsize => ?_, fun hlow hhigh hwhole => ⟨_, hdropped, ?_⟩⟩
  · rw [if_neg (by omega), if_pos hpart]
    exact hw
  · rw [if_pos hsize]
    exact hdropped
  · rw [if_neg (by omega), if_neg (by omega)]

end

/-! ### DATA flits of a group of one (13 R348, 15 R391, R395 to R397) -/

theorem seqBefore_self (q : Nat) : seqBefore q q = false := by
  simp [seqBefore]

theorem Rx.epochOf_self {r : Rx} (h : r.newKey = none) (epoch : Bool) : r.epochOf epoch = r := by
  unfold Rx.epochOf
  rw [h]
  rfl

/-- A loop over steps that change nothing, for the entries that it goes over. -/
theorem State.each_same_of_mem {α : Type} {s : State} {l : List α} {g : State → α → State} (hg : ∀ a ∈ l, g s a = s) : s.each l g = s :=
  List.foldlRecOn (motive := fun u => u = s) l g rfl fun _ hu a ha => hu ▸ hg a ha

/-- The kinds of a flit of empty slots. -/
theorem kindsOf_empty {head : List Byte} (h : kindsOf head = List.replicate 15 0) {e : Nat × Nat} (he : e ∈ (kindsOf head).zipIdx) : e.1 = 0 := by
  rw [h] at he
  exact List.eq_of_mem_replicate (List.fst_mem_of_mem_zipIdx he)

/-- A DATA flit in order that is new joins the open group of a receiver r. -/
def State.joinGroup (s : State) (d : Dev) (p : Nat) (r : Rx) (x : GroupFlit) (last : Bool) : State :=
  match r.key with
  | none => s
  | some k =>
    let u := s.onRx d p fun _ => { r with group := r.group ++ [x] }
    let plain := k.crypt r.counter (240 * r.group.length) x.slots
    let u := match d with
      | .sw => u.each (kindsOf x.head).zipIdx fun u e => u.earlySlot p (x.seq * 16 + e.2) e.1 (slice plain (16 * e.2) 16)
      | .ep => u
    if last || decide (k.g ≤ r.group.length + 1) then u.groupDone d p k else u

theorem State.dataFlit_new {s : State} {d : Dev} {p seq : Nat} (h : seqBefore seq (s.getLink d p).rx.verified = false) (again : Bool) (b : List Byte) :
    s.dataFlit d p seq again b = s.joinGroup d p (Rx.epochOf { (s.getLink d p).rx with expect := seqNext seq } (bit (field b 0 8) 28))
      { seq := seq, head := slice b 0 8, slots := slice b 8 240, again := again, at_ := s.now d } (bit (field b 0 8) 29) := by
  have hnew : ¬(seqBefore seq (s.getLink d p).rx.verified = true) := by simp [h]
  exact if_neg hnew

/-- A flit of empty slots is a group of its own, and no header comes with it. -/
theorem State.joinGroup_single {s : State} {d : Dev} {p : Nat} {r : Rx} {x : GroupFlit} {k : LinkKey} (hkey : r.key = some k) (hsingle : k.g = 1)
    (hgroup : r.group = []) (hempty : kindsOf x.head = List.replicate 15 0) (last : Bool) :
    s.joinGroup d p r x last = (s.onRx d p fun _ => { r with group := [x] }).groupDone d p k := by
  have hslots (u : State) (g : Nat × Nat → List Byte) : u.each (kindsOf x.head).zipIdx (fun u e => u.earlySlot p (x.seq * 16 + e.2) e.1 (g e)) = u :=
    State.each_same_of_mem fun e he => by rw [kindsOf_empty hempty he]; rfl
  unfold State.joinGroup
  rw [hkey, hgroup]
  refine (if_pos (by simp [hsingle])).trans ?_
  cases d
  · rw [hslots]
    rfl
  · rfl

/-- The receiver past the flit in order. -/
def Rx.past (r : Rx) : Rx := { r with expect := seqNext r.expect, got := r.gotNext }

/-- The receiver with one flit in its group, that in order. -/
def Rx.closing (r : Rx) (x : GroupFlit) : Rx := { r.past with group := [x] }

section
variable {s : State} {d : Dev} {p : Nat} {k : LinkKey} (hr : (s.getLink d p).rx.Ready k)
include hr

/-- A DATA flit of empty slots in order closes a group. -/
theorem State.dataFlit_next {v : State} (hv : let l := s.getLink d p; Relinked s v d p { l with rx := { l.rx with got := l.rx.gotNext } }) {b : List Byte}
    (hempty : kindsOf (slice b 0 8) = List.replicate 15 0) (again : Bool) :
    let l := s.getLink d p
    ∃ w x, x.seq = l.rx.expect ∧ x.head = slice b 0 8 ∧ x.slots = slice b 8 240 ∧ Relinked s w d p { l with rx := l.rx.closing x }
      ∧ v.dataFlit d p l.rx.expect again b = w.groupDone d p k := by
  intro l
  let x : GroupFlit := { seq := l.rx.expect, head := slice b 0 8, slots := slice b 8 240, again := again, at_ := v.now d }
  refine ⟨v.onLink d p fun m => { m with rx := l.rx.closing x }, x, rfl, rfl, rfl, hv.onLink fun m => { m with rx := l.rx.closing x }, ?_⟩
  have hnew : seqBefore l.rx.expect (v.getLink d p).rx.verified = false := by
    rw [hv.link]
    exact hr.verified ▸ seqBefore_self _
  have hjoin := State.dataFlit_new hnew again b
  rw [hv.link] at hjoin
  calc v.dataFlit d p l.rx.expect again b
      = v.joinGroup d p (l.rx.past.epochOf (bit (field b 0 8) 28)) x (bit (field b 0 8) 29) := hjoin
    _ = v.joinGroup d p l.rx.past x (bit (field b 0 8) 29) := by rw [Rx.epochOf_self (r := l.rx.past) hr.newKey]
    _ = (v.onRx d p fun _ => l.rx.closing x).groupDone d p k := State.joinGroup_single (r := l.rx.past) (x := x) hr.key hr.single hr.group hempty _

end

theorem State.takeBack_untouched (s : State) (p : Nat) (marks : List Nat) : Untouched s (s.takeBack p marks) :=
  (Upkeep.trans .quiet (State.voidFrames_upkeep _ p _ 0)).steady.toUntouched

/-- A receiver that drops its open group, none of whose frames the switch core has. -/
def Rx.groupless (r : Rx) : Rx := { r with group := [], early := none }

/-- A group that fails with no frame in the switch core: it is dropped, then asked for. -/
theorem State.groupFailed_hitless {w : State} {d : Dev} {p : Nat} (hhit : (w.getLink d p).rx.hit = []) :
    ∃ v, Relinked w v d p { w.getLink d p with rx := (w.getLink d p).rx.groupless } ∧ w.groupFailed d p = v.nakRestart d p (w.getLink d p).rx.restart := by
  have hcount := State.countPort_untouched w d p cSealFail
  have hdrop : Relinked w ((w.countPort d p cSealFail).onRx d p fun r =>
      { r with group := [], early := none, entered := r.entered.filter fun e => !([] : Tab Nat).contains e, paid := (w.getLink d p).rx.paid }) d p
      { w.getLink d p with rx := (w.getLink d p).rx.groupless } := by
    refine ⟨?_, (State.onLink_relinked _ d p _).memory |> hcount.sameMemory.trans⟩
    unfold State.onRx
    rw [State.getLink_onLink, hcount.getLink]
    simp [Rx.groupless]
  unfold State.groupFailed
  dsimp only
  rw [hhit]
  cases d with
  | sw => exact ⟨_, hdrop.then (State.takeBack_untouched _ p []), rfl⟩
  | ep => exact ⟨_, hdrop, rfl⟩

/-- A receiver whose open group, of one flit, has verified. -/
def Rx.sealed (r : Rx) : Rx :=
  { r with group := [], before := none, counter := r.counter + 1, verified := r.expect, got := r.got.filter fun q => !seqBefore q r.expect }

/-- A group of one flit whose tag is not that of its bytes. -/
theorem State.groupDone_failed {s w : State} {d : Dev} {p : Nat} {k : LinkKey} {x : GroupFlit} (hw : let l := s.getLink d p; Relinked s w d p { l with rx := l.rx.closing x })
    (hslots : x.slots.length = 240)
    (hfails : (Config.gcmTag k.key (k.iv (s.getLink d p).rx.counter) x.head (x.slots.take 224)).toNat ≠ leVal (x.slots.drop 224)) :
    w.groupDone d p k = w.groupFailed d p := by
  unfold State.groupDone
  rw [hw.link]
  refine if_pos ?_
  simpa [Rx.closing, Rx.past, hslots] using hfails

section
variable {s : State} {d : Dev} {p : Nat} {k : LinkKey} (hr : (s.getLink d p).rx.Ready k)
include hr

/-- The group of one flit does not verify: it is asked for again. -/
theorem State.groupFailed_single {w : State} {x : GroupFlit} (hx : x.seq = (s.getLink d p).rx.expect)
    (hw : let l := s.getLink d p; Relinked s w d p { l with rx := l.rx.closing x }) : let l := s.getLink d p
    Relinked s (w.groupFailed d p) d p { l with rx := { l.rx with nak := some (l.rx.expect, 1), got := l.rx.gotNext }, tx := { l.tx with nak := some l.rx.expect } } := by
  intro l
  have hhit : (w.getLink d p).rx.hit = [] := by
    rw [hw.link]
    simp [Rx.hit, Rx.closing, Rx.past, hr.entered]
  have hrestart : (w.getLink d p).rx.restart = l.rx.expect := by
    rw [hw.link, ← hx]
    simp [Rx.restart, Rx.closing, Rx.past, hr.open_]
  obtain ⟨v, hv, hfailed⟩ := State.groupFailed_hitless hhit
  have hdropped : (l.rx.closing x).groupless = l.rx.past := by
    have hgroup : l.rx.group = [] := hr.group
    have hearly : l.rx.early = none := hr.early
    simp [Rx.groupless, Rx.closing, Rx.past, hgroup, hearly]
  rw [hw.link, hdropped] at hv
  have hnak := State.sendNak_relinked v d p l.rx.expect 1
  have hfirst : v.nakRestart d p l.rx.expect = v.sendNak d p l.rx.expect 1 := by
    unfold State.nakRestart
    rw [hv.link, show l.rx.past.before = none from hr.before]
  rw [hfailed, hrestart, hfirst]
  rw [hv.link] at hnak
  exact hw.trans (hv.trans hnak)

/-- The group of one flit verifies: the counter moves on and the flit acknowledges; its empty slots do nothing. -/
theorem State.groupDone_verified {w : State} {x : GroupFlit} (hw : let l := s.getLink d p; Relinked s w d p { l with rx := l.rx.closing x })
    (hslots : x.slots.length = 240) (hempty : kindsOf x.head = List.replicate 15 0)
    (hverifies : (Config.gcmTag k.key (k.iv (s.getLink d p).rx.counter) x.head (x.slots.take 224)).toNat = leVal (x.slots.drop 224)) : let l := s.getLink d p
    Relinked s (w.groupDone d p k) d p (Link.takeAck { l with rx := { l.rx with
      expect := seqNext l.rx.expect, verified := seqNext l.rx.expect, got := l.rx.keptNext, counter := l.rx.counter + 1 } } (bits (leVal x.head) 12 12)) := by
  intro l
  have hnothing (u : State) (plain : List Byte) : u.each (groupSlots [x] plain) (fun u y => if (u.getLink d p).rx.key = some k then u.slotTaken d p y else u) = u := by
    refine State.each_same_of_mem fun y hy => ?_
    obtain ⟨e, he, rfl⟩ := List.mem_map.mp hy
    have hkind : e.1.2.1 = 0 := by
      have hmem := List.mem_of_mem_take (List.fst_mem_of_mem_zipIdx he)
      simp only [List.flatMap_cons, List.flatMap_nil, List.append_nil, List.mem_map] at hmem
      obtain ⟨i, hi, hie⟩ := hmem
      rw [← hie]
      exact kindsOf_empty hempty hi
    split
    · unfold State.slotTaken
      simp [hkind, kHead, kBody, kCtrl]
    · rfl
  have hopen : w.groupDone d p k = w.setLink d p fun m => Link.takeAck { m with rx := m.rx.sealed } (bits (leVal x.head) 12 12) := by
    unfold State.groupDone
    rw [hw.link]
    refine (if_neg ?_).trans (hnothing _ _)
    simpa [Rx.closing, Rx.past, hslots] using hverifies
  have hsealed : (l.rx.closing x).sealed = { l.rx with
      expect := seqNext l.rx.expect, verified := seqNext l.rx.expect, got := l.rx.keptNext, counter := l.rx.counter + 1 } := by
    have hgroup : l.rx.group = [] := hr.group
    have hbefore : l.rx.before = none := hr.before
    simp [Rx.sealed, Rx.closing, Rx.past, Rx.keptNext, hgroup, hbefore]
  rw [hopen, ← hsealed]
  exact hw.setLink fun m => Link.takeAck { m with rx := m.rx.sealed } (bits (leVal x.head) 12 12)

end

/-! ### CREDIT (13 R351) -/

/-- Credits spent, after cells have come back for entries of a port: virtual channel and cells. -/
def giveBack (p : Nat) (es : List (Nat × Nat)) (t : Tab Nat) : Tab Nat :=
  es.foldl (fun t e => t.put (p * 16 + e.1 % 16) (t.get (p * 16 + e.1 % 16) 0 - e.2)) t

theorem State.creditBack_sw (s : State) (p : Nat) (es : List (Nat × Nat)) :
    s.creditBack .sw p es = s.onCore fun c => { c with spent := giveBack p es c.spent } := rfl

theorem State.creditBack_ep (s : State) (p : Nat) (es : List (Nat × Nat)) :
    s.creditBack .ep p es = s.onEp fun e => { e with spent := giveBack p es e.spent } := rfl

/-- A virtual channel has back the cells of its entries. -/
theorem giveBack_get (p : Nat) (es : List (Nat × Nat)) (v : Nat) (t : Tab Nat) :
    (giveBack p es t).get (p * 16 + v) 0 = t.get (p * 16 + v) 0 - ((es.filter fun e => e.1 % 16 == v).map (·.2)).sum := by
  induction es generalizing t with
  | nil => rfl
  | cons e es ih =>
    refine (ih (t.put (p * 16 + e.1 % 16) (t.get (p * 16 + e.1 % 16) 0 - e.2))).trans ?_
    by_cases h : e.1 % 16 = v
    · rw [h, Tab.get_put_self, List.filter_cons_of_pos (by simp [h]), List.map_cons, List.sum_cons, Nat.sub_sub]
    · rw [Tab.get_put_ne _ _ _ _ _ (by omega), List.filter_cons_of_neg (by simp [h])]

/-- The channels of other ports are as they were. -/
theorem giveBack_other {p : Nat} (es : List (Nat × Nat)) {k : Nat} (hk : k / 16 ≠ p) (t : Tab Nat) : (giveBack p es t).get k 0 = t.get k 0 := by
  induction es generalizing t with
  | nil => rfl
  | cons e es ih => exact (ih _).trans (Tab.get_put_ne _ _ _ _ _ (by omega))

/-! ### Frames that a test selects are gone (13 R348, R349) -/

/-- A table of buffered frames holds none that a test selects. -/
def HoldsNo (sel : Buffered → Bool) (t : Tab (List Buffered)) : Prop := ∀ x ∈ t, ∀ b ∈ x.2, sel b = false

theorem HoldsNo.push {sel : Buffered → Bool} {t : Tab (List Buffered)} (h : HoldsNo sel t) (key : Nat) {b : Buffered} (hb : sel b = false) :
    HoldsNo sel (t.put key (t.get key [] ++ [b])) := by
  intro x hx c hc
  obtain rfl | hx := Tab.mem_put hx
  · obtain hc | hc := List.mem_append.mp hc
    · unfold Tab.get at hc
      cases hfind : t.find key with
      | none =>
        rw [hfind] at hc
        cases hc
      | some l =>
        rw [hfind] at hc
        exact h _ (Tab.mem_of_find hfind) c hc
    · rwa [List.mem_singleton.mp hc]
  · exact h x hx c hc

theorem HoldsNo.kept (sel : Buffered → Bool) (t : Tab (List Buffered)) : HoldsNo sel (t.mapVals fun _ l => l.filter fun b => !sel b) := by
  intro x hx b hb
  obtain ⟨e, -, rfl⟩ := List.mem_map.mp hx
  simpa using (List.mem_filter.mp hb).2

/-- No queue, inbox or channel holds a frame that a test selects. -/
structure State.Lacks (s : State) (sel : Buffered → Bool) : Prop where
  queue : HoldsNo sel s.sw.core.queue
  inbox : HoldsNo sel s.sw.core.inbox
  held : HoldsNo sel s.sw.core.held

theorem State.Lacks.mem {s : State} {sel : Buffered → Bool} (h : s.Lacks sel) :
    ∀ x ∈ s.sw.core.queue ++ s.sw.core.inbox ++ s.sw.core.held, ∀ b ∈ x.2, sel b = false := by
  intro x hx
  obtain hx | hx := List.mem_append.mp hx
  · exact (List.mem_append.mp hx).elim (h.queue x) (h.inbox x)
  · exact h.held x hx

theorem State.Lacks.of_core {s t : State} {sel : Buffered → Bool} (h : s.Lacks sel) (hcore : t.sw.core = s.sw.core) : t.Lacks sel :=
  ⟨hcore ▸ h.queue, hcore ▸ h.inbox, hcore ▸ h.held⟩

theorem State.work_core (s : State) (kind index : Nat) : (s.work kind index).sw.core = s.sw.core := by
  unfold State.work
  dsimp only
  split
  · rfl
  · split
    · rfl
    · split
      · rfl
      · split
        · rfl
        · split
          · split <;> rfl
          · rfl

theorem State.workAt_core (s : State) (o : Nat) : (s.workAt o).sw.core = s.sw.core := by
  unfold State.workAt
  split
  · exact s.work_core 0 o
  · split
    · exact s.work_core 4 (o - 64)
    · rfl

section
variable {s : State} {sel : Buffered → Bool} (h : s.Lacks sel)
include h

theorem State.Lacks.join {b : Buffered} (hb : sel b = false) (key : Nat) : (s.join key b).Lacks sel := by
  refine State.Lacks.of_core ?_ (State.workAt_core _ _)
  exact ⟨h.queue.push key hb, h.inbox, h.held⟩

theorem State.Lacks.placeFrame (src vc : Nat) (f : Frame) (whole : Bool) (mark : Nat) : (s.placeFrame src vc f whole mark).2.Lacks sel := by
  unfold State.placeFrame
  dsimp only
  split <;> exact ⟨h.queue, h.inbox, h.held⟩

theorem State.Lacks.returnCredit (p vc n : Nat) : (s.returnCredit p vc n).Lacks sel := by
  unfold State.returnCredit
  dsimp only
  split
  · exact h
  · split <;> exact ⟨h.queue, h.inbox, h.held⟩

end

section
variable {sel : Buffered → Bool} (hsel : ∀ b, b.whole = true → sel b = false)
include hsel

/-- What an internal source sends is whole. -/
theorem State.Lacks.enqueue {s : State} (h : s.Lacks sel) (key src : Nat) (f : Frame) : (s.enqueue key src f).Lacks sel :=
  (h.placeFrame src f.cls f true 0).join (hsel _ rfl) key

theorem State.Lacks.releaseWaiting (src cls n : Nat) : ∀ {s : State}, s.Lacks sel → (s.releaseWaiting src cls n).Lacks sel := by
  induction n with
  | zero => exact id
  | succ n ih =>
    intro s h
    unfold State.releaseWaiting
    split
    · exact h
    · split
      · refine ih (State.Lacks.enqueue hsel ?_ _ _ _)
        exact ⟨h.queue, h.inbox, h.held⟩
      · exact h

theorem State.Lacks.freeCells {s : State} (h : s.Lacks sel) (b : Buffered) : (s.freeCells b).Lacks sel := by
  have hcredit : (if b.src < 64 ∧ b.f.cls ≠ 0 then s.returnCredit b.src b.vc b.owes else s).Lacks sel := by
    split
    · exact h.returnCredit _ _ _
    · exact h
  unfold State.freeCells
  dsimp only
  generalize (if b.src < 64 ∧ b.f.cls ≠ 0 then s.returnCredit b.src b.vc b.owes else s) = u at hcredit ⊢
  split
  · exact ⟨hcredit.queue, hcredit.inbox, hcredit.held⟩
  · refine State.Lacks.releaseWaiting hsel _ _ _ ?_
    exact ⟨hcredit.queue, hcredit.inbox, hcredit.held⟩

theorem State.Lacks.voidOut {s : State} (h : s.Lacks sel) (o reason : Nat) : (s.voidOut o reason).Lacks sel := by
  have hend : (s.endCut o).Lacks sel := by
    unfold State.endCut
    split
    · exact h
    · refine State.Lacks.freeCells hsel ?_ _
      exact ⟨h.queue, h.inbox, h.held⟩
  unfold State.voidOut
  dsimp only
  split <;> exact ⟨hend.queue, hend.inbox, hend.held⟩

end

/-- Frames of port p that had not arrived whole are lost, those that the test selects. -/
theorem State.voidFrames_lacks (s : State) (p : Nat) (sel : Buffered → Bool) (reason : Nat) :
    (s.voidFrames p sel reason).Lacks fun b => b.src == p && !b.whole && sel b := by
  have hwhole (b : Buffered) (hb : b.whole = true) : (b.src == p && !b.whole && sel b) = false := by simp [hb]
  unfold State.voidFrames
  refine State.each_keeps (P := fun u => u.Lacks _) ?_ fun u hu o => hu.voidOut hwhole o reason
  refine State.each_keeps (P := fun u => u.Lacks _) ?_ fun u hu b => hu.freeCells hwhole b
  exact ⟨.kept _ _, .kept _ _, fun x hx => HoldsNo.kept _ _ x (List.mem_filter.mp hx).1⟩

/-- An output that had begun such a frame ends it with a void tail. -/
theorem State.voidFrames_tail {s : State} {p : Nat} {sel : Buffered → Bool} {x : Nat × CutFrame} (hx : x ∈ s.sw.core.cut) (ho : x.1 < 64)
    (hsrc : x.2.b.src = p) (hopen : x.2.b.whole = false) (hsel : sel x.2.b = true) (reason : Nat) :
    Out.voidTail .sw x.1 reason ∈ (s.voidFrames p sel reason).out := by
  unfold State.voidFrames
  refine State.each_reaches (I := fun _ => True) (P := fun u => Out.voidTail .sw x.1 reason ∈ u.out) (a := x.1) ?_ (fun _ _ _ => trivial) ?_ ?_ trivial
  · exact List.mem_map.mpr ⟨x, List.mem_filter.mpr ⟨hx, by simp [hsrc, hopen, hsel]⟩, rfl⟩
  · intro u _
    unfold State.voidOut
    dsimp only
    rw [if_pos ho]
    exact List.mem_append_right _ (List.mem_singleton.mpr rfl)
  · exact fun u o hu => (State.voidOut_upkeep u o reason).out.subset hu

/-! ### A void tail (13 R349, 15 R385, R386) -/

/-- The open frame of a port is no more. -/
def Link.closed (l : Link) (m : Nat) : Link :=
  { l with rx := { l.rx with open_ := none, early := none, entered := l.rx.entered.del m, paid := l.rx.paid.del m } }

theorem State.voided_none {s : State} {d : Dev} {p : Nat} (h : (s.getLink d p).rx.open_ = none) : s.voided d p = s.countPort d p cVoidRx := by
  unfold State.voided
  dsimp only
  rw [h]

/-- The open frame at the end-point returns its credits. -/
theorem State.voided_ep {s : State} {p m : Nat} {ls : List (List Byte)} (h : (s.getLink .ep p).rx.open_ = some (m, ls)) :
    let f := Frame.ofHeader (padTo 32 ls.flatten)
    s.voided .ep p = ((s.putLink .ep p ((s.getLink .ep p).closed m)).emit (.ctrl .ep p (.credit [(f.cls, f.cells)]))).countPort .ep p cVoidRx := by
  unfold State.voided
  dsimp only
  rw [h]
  rfl

/-- At the switch it returns them too where the core has not taken its header; one that it has taken is lost from there. -/
theorem State.voided_sw {s : State} {p m : Nat} {ls : List (List Byte)} (h : (s.getLink .sw p).rx.open_ = some (m, ls)) :
    let u := s.putLink .sw p ((s.getLink .sw p).closed m)
    let f := Frame.ofHeader (padTo 32 ls.flatten)
    s.voided .sw p = (if ((s.getLink .sw p).rx.entered.find m).isSome then u.voidFrames p (fun b => b.mark == m) 3
      else u.returnCredit p (u.sw.vcIn p f) f.cells).countPort .sw p cVoidRx := by
  unfold State.voided
  dsimp only
  rw [h]
  rfl

/-- A frame that the switch has taken is lost, and an output that has begun it ends it. -/
theorem State.voided_entered {s : State} {p m : Nat} {ls : List (List Byte)} (hopen : (s.getLink .sw p).rx.open_ = some (m, ls))
    (h : ((s.getLink .sw p).rx.entered.find m).isSome = true) : let t := s.voided .sw p
    t.getLink .sw p = (s.getLink .sw p).closed m ∧ SameMemory s t
      ∧ (∀ x ∈ s.sw.core.cut, x.1 < 64 → x.2.b.src = p → x.2.b.whole = false → x.2.b.mark = m → Out.voidTail .sw x.1 3 ∈ t.out)
      ∧ t.Lacks fun b => b.src == p && !b.whole && b.mark == m := by
  intro t
  let u := s.putLink .sw p ((s.getLink .sw p).closed m)
  let v := u.voidFrames p (fun b => b.mark == m) 3
  have ht : t = v.countPort .sw p cVoidRx := (State.voided_sw hopen).trans (congrArg (fun w : State => w.countPort .sw p cVoidRx) (if_pos h))
  have hcount : Untouched v t := ht ▸ State.countPort_untouched v .sw p cVoidRx
  have hvoid : Untouched u v := (State.voidFrames_upkeep u p _ 3).steady.toUntouched
  have hput : SameMemory s u := .of_homes rfl rfl
  refine ⟨?_, hput.trans (hvoid.trans hcount).sameMemory, fun x hx ho hsrc hpart hmark => ?_, ?_⟩
  · rw [(hvoid.trans hcount).getLink, State.putLink_getLink]
  · rw [ht]
    exact State.voidFrames_tail (s := u) (sel := fun b => b.mark == m) hx ho hsrc hpart (by simp [hmark]) 3
  · rw [ht]
    exact (State.voidFrames_lacks u p (fun b => b.mark == m) 3).of_core rfl

/-! ### A flit at a port in service (15 R382, R390, R391, R397, R398) -/

section
variable {s v : State} {d : Dev} {p : Nat} {l : Link} {r : Rx} {k : LinkKey} {b : List Byte} (hv : Relinked s v d p l) (hrx : l.rx = r) (hr : r.Ready k)
include hv hrx hr

/-- A flit that fails is asked for. -/
theorem Relinked.flit_failed (hfail : ¬(crc32c (slice b 0 248)).toNat = field b 248 4 ∨ bits (field b 0 8) 24 4 = 0 ∨ 4 < bits (field b 0 8) 24 4) :
    Relinked s (v.takeFlit d p b) d p { l with rx := { r with nak := some (r.expect, 1) }, tx := { l.tx with nak := some r.expect } } := by
  obtain rfl := hv.link
  subst hrx
  exact hv.trans (State.takeFlit_failed hr hfail)

/-- A flit in order of empty slots: its group, of one, is complete. -/
theorem Relinked.flit_data (hsound : (crc32c (slice b 0 248)).toNat = field b 248 4) (htype : bits (field b 0 8) 24 4 = 1)
    (hseq : bits (field b 0 8) 0 12 = r.expect) (hempty : kindsOf (slice b 0 8) = List.replicate 15 0) :
    let body := (slice b 8 240).take 224
    let verifies := (Config.gcmTag k.key (k.iv r.counter) (slice b 0 8) body).toNat = leVal ((slice b 8 240).drop 224)
    (verifies → Relinked s (v.takeFlit d p b) d p (Link.takeAck { l with rx := { r with
        expect := seqNext r.expect, verified := seqNext r.expect, got := r.keptNext, counter := r.counter + 1 } } (bits (field b 0 8) 12 12)))
      ∧ (¬verifies → Relinked s (v.takeFlit d p b) d p
        { l with rx := { r with nak := some (r.expect, 1), got := r.gotNext }, tx := { l.tx with nak := some r.expect } }) := by
  obtain rfl := hv.link
  subst hrx
  obtain ⟨u, again, hu, hgot⟩ := State.sequenced_next hr hseq fun u again => u.dataFlit d p (bits (field b 0 8) 0 12) again b
  obtain ⟨w, x, hfirst, hhead, hbytes, hw, hdone⟩ := State.dataFlit_next hr hgot hempty again
  have htaken : v.takeFlit d p b = w.groupDone d p k := by
    rw [State.takeFlit_data hsound htype, hu, hseq, hdone]
  have hslots : x.slots.length = 240 := hbytes ▸ slice_length b 8 240
  rw [htaken, ← hhead, ← hbytes]
  rw [← hhead] at hempty
  refine ⟨fun hverifies => hv.trans ?_, fun hfails => hv.trans ?_⟩
  · have hack : bits (leVal x.head) 12 12 = bits (field b 0 8) 12 12 := by rw [hhead, field]
    have hverified := State.groupDone_verified hr hw hslots hempty hverifies
    rw [hack] at hverified
    exact hverified
  · rw [State.groupDone_failed hw hslots hfails]
    exact State.groupFailed_single hr hfirst hw

/-- A KEYX flit in order. -/
theorem Relinked.flit_keyx (hsound : (crc32c (slice b 0 248)).toNat = field b 248 4) (htype : bits (field b 0 8) 24 4 = 2)
    (hseq : bits (field b 0 8) 0 12 = r.expect) :
    let msg := r.keyx ++ slice b 8 240
    let size := field msg 4 4
    let taken := fun rest : List Byte => Link.takeAck { l with rx := { r with
      expect := seqNext r.expect, verified := seqNext r.expect, got := r.keptNext, keyx := rest } } (bits (field b 0 8) 12 12)
    (8 ≤ size → size ≤ 6065 → msg.length < size → Relinked s (v.takeFlit d p b) d p (taken msg))
      ∧ (size < 8 ∨ 6065 < size → Relinked s (v.takeFlit d p b) d p (taken []))
      ∧ (8 ≤ size → size ≤ 6065 → size ≤ msg.length → ∃ u, Relinked s u d p (taken []) ∧ v.takeFlit d p b = u.keyMsgArrives d p (msg.take size)) := by
  obtain rfl := hv.link
  subst hrx
  obtain ⟨u, -, hu, hgot⟩ := State.sequenced_next hr hseq fun u _ => u.keyxFlit d p (bits (field b 0 8) 0 12) (bits (field b 0 8) 12 12) b
  have htaken : v.takeFlit d p b = u.keyxFlit d p (v.getLink d p).rx.expect (bits (field b 0 8) 12 12) b := by rw [State.takeFlit_keyx hsound htype, hu, hseq]
  obtain ⟨hpart, hnone, hwhole⟩ := State.keyxFlit_next hr hgot (bits (field b 0 8) 12 12) b
  rw [htaken]
  refine ⟨fun hlow hhigh hlength => hv.trans (hpart hlow hhigh hlength), fun hsize => hv.trans (hnone hsize), fun hlow hhigh hlength => ?_⟩
  obtain ⟨w, hw, harrives⟩ := hwhole hlow hhigh hlength
  exact ⟨w, hv.trans hw, harrives⟩

/-- A NULL flit that authenticates acknowledges. -/
theorem Relinked.flit_null (hsound : (crc32c (slice b 0 248)).toNat = field b 248 4) (htype : bits (field b 0 8) 24 4 = 3) (hcontrol : r.controlOk b = true) :
    Relinked s (v.takeFlit d p b) d p (Link.takeAck { l with rx := { r with ctrlCount := field b 8 8 } } (bits (field b 0 8) 12 12)) := by
  obtain rfl := hv.link
  subst hrx
  obtain ⟨u, hu, htaken⟩ := State.takeFlit_control hsound hr.key (.inl htype) hcontrol
  rw [htaken, if_neg (by omega)]
  exact hv.trans hu

/-- A NAK flit that authenticates asks for flits as well. -/
theorem Relinked.flit_nak (hsound : (crc32c (slice b 0 248)).toNat = field b 248 4) (htype : bits (field b 0 8) 24 4 = 4) (hcontrol : r.controlOk b = true) :
    let m := Link.takeAck { l with rx := { r with ctrlCount := field b 8 8 } } (bits (field b 0 8) 12 12)
    Relinked s (v.takeFlit d p b) d p { m with tx := { m.tx with resend := (m.tx.replay.map Prod.fst).dropWhile (· != bits (field b 0 8) 0 12) } } := by
  obtain rfl := hv.link
  subst hrx
  obtain ⟨u, hu, htaken⟩ := State.takeFlit_control hsound hr.key (.inr htype) hcontrol
  rw [htaken, if_pos htype]
  exact (hv.trans hu).onLink fun m => { m with tx := { m.tx with resend := (m.tx.replay.map Prod.fst).dropWhile (· != bits (field b 0 8) 0 12) } }

end

/-! ### O45 -/

theorem State.nakAgain_none {s : State} {d : Dev} {p : Nat} (h : (s.getLink d p).rx.nak = none) : s.nakAgain d p = s := by
  unfold State.nakAgain
  rw [h]

theorem State.nakAgain_some {s : State} {d : Dev} {p q n : Nat} (h : (s.getLink d p).rx.nak = some (q, n)) :
    s.nakAgain d p = if 16 ≤ n then s.portDown d p else s.sendNak d p q (n + 1) := by
  unfold State.nakAgain
  rw [h]

/-- CREDIT changes the credits spent of its port, and nothing else. -/
theorem State.creditBack_frame (s : State) (d : Dev) (p : Nat) (es : List (Nat × Nat)) : let u := s.creditBack d p es
    u = { s with sw := { s.sw with core := { s.sw.core with spent := u.sw.core.spent } }, ep := { s.ep with spent := u.ep.spent } } := by
  cases d <;> rfl

/-- Each channel of the port has its cells back at the device, and the other device is as it was. -/
theorem State.creditBack_channel (s : State) (d : Dev) (p : Nat) (es : List (Nat × Nat)) (v : Nat) : let u := s.creditBack d p es
    let cells := ((es.filter fun e => e.1 % 16 == v).map (·.2)).sum
    (d = .sw → u.sw.core.spent.get (p * 16 + v) 0 = s.sw.core.spent.get (p * 16 + v) 0 - cells ∧ u.ep = s.ep)
      ∧ (d = .ep → u.ep.spent.get (p * 16 + v) 0 = s.ep.spent.get (p * 16 + v) 0 - cells ∧ u.sw = s.sw) := by
  refine ⟨?_, ?_⟩ <;> rintro rfl
  · rw [State.creditBack_sw]
    exact ⟨giveBack_get p es v s.sw.core.spent, rfl⟩
  · rw [State.creditBack_ep]
    exact ⟨giveBack_get p es v s.ep.spent, rfl⟩

theorem State.creditBack_other {s : State} {d : Dev} {p : Nat} {es : List (Nat × Nat)} {i : Nat} (hi : i / 16 ≠ p) : let u := s.creditBack d p es
    u.sw.core.spent.get i 0 = s.sw.core.spent.get i 0 ∧ u.ep.spent.get i 0 = s.ep.spent.get i 0 := by
  cases d with
  | sw =>
    rw [State.creditBack_sw]
    exact ⟨giveBack_other es hi s.sw.core.spent, rfl⟩
  | ep =>
    rw [State.creditBack_ep]
    exact ⟨rfl, giveBack_other es hi s.ep.spent⟩

/-- Settles O45: each row's equation, and for a flit at a port in service the link that each type of flit leaves. -/
theorem linkLayerRowsComplete : Obligations.LinkLayerRowsComplete := by
  intro s d p n bytes es l r put
  have hran {i : Instr} {g : State → State} (hexec : exec i s = .next (s.linkEv d g)) : exec i s = .next (s.ranAt d (g s)) :=
    hexec.trans (congrArg Host.Outcome.next (State.linkEv_ranAt s d g))
  have hrepeat : exec (.nakRepeat d p) s = .next (s.ranAt d (s.nakAgain d p)) := hran (g := fun s => s.nakAgain d p) rfl
  have hvoid : exec (.void d p n) s = .next (s.ranAt d (s.voided d p)) := hran (g := fun s => s.voided d p) rfl
  have hreceive : exec (.flitReceive d p bytes) s = .next (s.ranAt d (s.flitReceive d p bytes)) := hran (g := fun s => s.flitReceive d p bytes) rfl
  refine ⟨hran (g := fun s => s.replayFrom d p n) rfl, fun hnak => ?_, fun q k hnak hk => ?_, fun q k hnak hk => ⟨_, hrepeat, ?_⟩, fun hopen => ?_,
    fun m ls hopen => ⟨?_, ?_, ?_⟩, ⟨_, hran (g := fun s => s.creditBack d p es) rfl, s.creditBack_frame d p es, fun v _ => s.creditBack_channel d p es v,
      fun i hi => State.creditBack_other hi⟩, fun hsecure htime hactive => ?_, ?_⟩
  · rw [hrepeat, State.nakAgain_none hnak]
  · rw [hrepeat, State.nakAgain_some hnak, if_neg (by omega)]
    rfl
  · rw [State.nakAgain_some hnak, if_pos hk]
    exact s.portDown_fresh d p
  · rw [hvoid, State.voided_none hopen]
  · rintro rfl
    rw [hvoid, State.voided_ep hopen]
    rfl
  · rintro rfl hentered
    have huntaken : ¬(r.entered.find m).isSome = true := by simp [hentered]
    rw [hvoid, State.voided_sw hopen, if_neg huntaken]
    rfl
  · rintro rfl hentered
    obtain ⟨hlink, hmem, htail, hlacks⟩ := State.voided_entered hopen hentered
    exact ⟨_, hvoid, hlink, hmem, htail, hlacks.mem⟩
  · rw [hreceive, State.flitReceive_idle hsecure htime hactive]
  · intro hactive k hkey hsingle hnew hnak hbefore hgroup hopen hearly hentered _ hverified b h sound l' next got kept body verifies msg size
    have hr : r.Ready k := ⟨hkey, hsingle, hnew, hnak, hbefore, hgroup, hopen, hearly, hentered, hverified⟩
    obtain ⟨hv, hout⟩ := s.fecCounted_relinked d p (fecCorrect bytes).2
    have hrx : l'.rx = r := by
      simp only [l']
      split <;> rfl
    rw [State.flitReceive_active hactive] at hreceive
    refine ⟨_, hreceive, fun hfail => ?_, fun hsound htype hseq hempty hverifies => ?_, fun hsound htype hseq hempty hfails => ?_, fun hsound htype hseq => ?_,
      fun hsound htype hcontrol => ?_, fun hsound htype hcontrol => ?_, fun hsound htype hcontrol => ?_⟩
    · exact (Relinked.flit_failed hv hrx hr hfail).link
    · obtain ⟨hlink, hmem⟩ := (Relinked.flit_data hv hrx hr hsound htype hseq hempty).1 hverifies
      exact ⟨hlink, hmem⟩
    · obtain ⟨hlink, hmem⟩ := (Relinked.flit_data hv hrx hr hsound htype hseq hempty).2 hfails
      exact ⟨hlink, hmem⟩
    · obtain ⟨hpart, hnone, hwhole⟩ := Relinked.flit_keyx hv hrx hr hsound htype hseq
      refine ⟨fun hlow hhigh hlength => ?_, fun hsize => ?_, fun hlow hhigh hlength => ?_⟩
      · exact ⟨(hpart hlow hhigh hlength).link, (hpart hlow hhigh hlength).memory⟩
      · exact ⟨(hnone hsize).link, (hnone hsize).memory⟩
      · obtain ⟨w, hw, harrives⟩ := hwhole hlow hhigh hlength
        exact ⟨w, hw.link, hw.memory, harrives⟩
    · have hnull := Relinked.flit_null hv hrx hr hsound htype hcontrol
      exact ⟨hnull.link, hnull.memory⟩
    · have hagain := Relinked.flit_nak hv hrx hr hsound htype hcontrol
      exact ⟨hagain.link, hagain.memory⟩
    · have hlink : (s.fecCounted d p (fecCorrect bytes).2).getLink d p = l' := hv.link
      rw [State.takeFlit_unproven hsound htype (by rw [hlink, hrx]; exact hcontrol)]
      exact ⟨hlink, hout⟩

end Sys2Proof.Machine

/-!
PROOFS of the family 14_lanes_and_bring_up: Chime at a switch that its thermal trip holds (O49), what the AKG-8's own work leaves of its identity, key
slots and home (O39), and the rows of training and of lanes in service (O48).
-/

namespace Sys2Proof.Machine

/-! ### Chime while a thermal trip holds the switch (20 R489, 14 R379) -/

/-- A switch held by its thermal trip, with port 0 in STILL. -/
def tripHeldStill : State :=
  (State.reset.onSys fun y => { y with phase := .tripHold }).onPower fun w => { w with dom := [(0, { state := 1 })] }

/-- A switch that its thermal trip holds takes up no work: Chime changes nothing. -/
theorem State.work_tripHold {s : State} (h : s.sw.sys.phase = .tripHold) (kind index : Nat) : s.work kind index = s := if_pos h

/-- Refutes O49: a port in STILL of a switch that its thermal trip holds is not put in RUN by Chime. -/
theorem not_lossAndCableRowsComplete : ¬ Obligations.LossAndCableRowsComplete := by
  unfold Obligations.LossAndCableRowsComplete
  intro h
  obtain ⟨-, hstill, -⟩ := h tripHeldStill 0
  have hrun := Host.Outcome.next.inj (hstill rfl)
  have hkept : tripHeldStill.work 0 0 = tripHeldStill := State.work_tripHold rfl 0 0
  have hdom : tripHeldStill = tripHeldStill.onPower fun w => { w with dom := w.dom.put 0 { state := 0 } } := hkept.symm.trans hrun
  exact absurd (congrArg (fun t : State => t.sw.power.dom.find 0) hdom) (by decide)

end Sys2Proof.Machine

namespace Sys2Proof.Machine

/-! ### What the AKG-8's own work leaves of what management has set (23 R550, 21 R508, 24 R562) -/

/-- What management has set at the AKG-8: its home and its identity, incarnation and verdict, its key slots and partitions, and its bindings. -/
def EndPoint.charter (e : EndPoint) :
    Home × (Nat × Option Nat × Bool × Bool) × (List Nat × Tab (List Nat) × List Nat) × Tab (BitVec 64) :=
  (e.home, (e.homeId, e.inc, e.strongroom, e.verdict), (e.closed, e.opens, e.removed), e.bind)

def State.charter (s : State) : Home × (Nat × Option Nat × Bool × Bool) × (List Nat × Tab (List Nat) × List Nat) × Tab (BitVec 64) := s.ep.charter

theorem State.charter_iff {s t : State} : t.charter = s.charter ↔ t.ep.home = s.ep.home
    ∧ (t.ep.homeId = s.ep.homeId ∧ t.ep.inc = s.ep.inc ∧ t.ep.strongroom = s.ep.strongroom ∧ t.ep.verdict = s.ep.verdict)
    ∧ (t.ep.closed = s.ep.closed ∧ t.ep.opens = s.ep.opens ∧ t.ep.removed = s.ep.removed) ∧ t.ep.bind = s.ep.bind := by
  simp [State.charter, EndPoint.charter]

@[simp] theorem State.charter_ite (c : Prop) [Decidable c] (s t : State) : (if c then s else t).charter = if c then s.charter else t.charter :=
  apply_ite _ _ _ _

@[simp] theorem State.each_charter {α : Type} {g : State → α → State} (hg : ∀ u a, (g u a).charter = u.charter) (s : State) (l : List α) :
    (s.each l g).charter = s.charter :=
  State.each_keeps (P := fun u => u.charter = s.charter) rfl fun u hu a => (hg u a).trans hu

@[simp] theorem State.ifThen_charter {g : State → State} (hg : ∀ u, (g u).charter = u.charter) (s : State) (c : Bool) :
    (s.ifThen c g).charter = s.charter := by
  unfold State.ifThen
  split
  · exact hg s
  · rfl

/-- A change of the AKG-8 beside its charter. -/
@[simp] theorem State.onEp_charter {g : EndPoint → EndPoint} (hg : ∀ e, (g e).home = e.home
    ∧ ((g e).homeId = e.homeId ∧ (g e).inc = e.inc ∧ (g e).strongroom = e.strongroom ∧ (g e).verdict = e.verdict)
    ∧ ((g e).closed = e.closed ∧ (g e).opens = e.opens ∧ (g e).removed = e.removed) ∧ (g e).bind = e.bind) (s : State) :
    (s.onEp g).charter = s.charter := State.charter_iff.mpr (hg s.ep)

@[simp] theorem State.emit_charter (s : State) (o : Out) : (s.emit o).charter = s.charter := rfl
@[simp] theorem State.epSend_charter (s : State) (p : Nat) (f : Frame) : (s.epSend p f).charter = s.charter := rfl
@[simp] theorem State.launch_charter (s : State) (x : EpFlight) : (s.launch x).charter = s.charter := rfl
@[simp] theorem State.withdraw_charter (s : State) (x : EpFlight) : (s.withdraw x).charter = s.charter := rfl
@[simp] theorem State.onReq_charter (s : State) (order : Nat) (g : EpReq → EpReq) : (s.onReq order g).charter = s.charter := rfl
@[simp] theorem State.onPiece_charter (s : State) (order i : Nat) (g : Piece → Piece) : (s.onPiece order i g).charter = s.charter := rfl
@[simp] theorem State.endPiece_charter (s : State) (order i status : Nat) (rsp : List Byte) : (s.endPiece order i status rsp).charter = s.charter := rfl
@[simp] theorem State.putWay_charter (s : State) (w : Way) : (s.putWay w).charter = s.charter := rfl
@[simp] theorem State.onWay_charter (s : State) (fga : Nat) (g : Way → Way) : (s.onWay fga g).charter = s.charter := rfl
@[simp] theorem State.unreserve_charter (s : State) (fga : Nat) : (s.unreserve fga).charter = s.charter := rfl
@[simp] theorem State.spoil_charter (s : State) (p : EpFlight → Bool) : (s.spoil p).charter = s.charter := rfl
@[simp] theorem State.passed_charter (s : State) (fga : Nat) : (s.passed fga).charter = s.charter := rfl
@[simp] theorem State.discardLines_charter (s : State) (p : Way → Bool) : (s.discardLines p).charter = s.charter := rfl
@[simp] theorem State.onCall_charter (s : State) (x : EpCall) (g : EpCall → EpCall) : (s.onCall x g).charter = s.charter := rfl
@[simp] theorem State.onChunk_charter (s : State) (x : EpCall) (k : Nat) (g : EpChunk → EpChunk) : (s.onChunk x k g).charter = s.charter := rfl
@[simp] theorem State.refuseCall_charter (s : State) (x : EpCall) (status : Nat) : (s.refuseCall x status).charter = s.charter := rfl
@[simp] theorem State.callFence_charter (s : State) (x : EpCall) (kind : FenceKind) : (s.callFence x kind).charter = s.charter := rfl
@[simp] theorem State.sendConfirm_charter (s : State) (p tag : Nat) : (s.sendConfirm .ep p tag).charter = s.charter := rfl

@[simp] theorem State.epAlert_charter (s : State) : s.epAlert.charter = s.charter := by
  unfold State.epAlert
  dsimp only
  split <;> rfl

@[simp] theorem State.epEvent_charter (s : State) (b : Nat) : (s.epEvent b).charter = s.charter := State.epAlert_charter _

@[simp] theorem State.endReq_charter (s : State) (q : EpReq) (status : Nat) (data : List Byte) : (s.endReq q status data).charter = s.charter := by
  unfold State.endReq
  dsimp only
  split
  · split <;> rfl
  · rfl

@[simp] theorem State.touch_charter (s : State) (fga : Nat) : (s.touch fga).charter = s.charter := by
  unfold State.touch
  split <;> rfl

@[simp] theorem State.dropWay_charter (s : State) (fga : Nat) (back : Bool) : (s.dropWay fga back).charter = s.charter := by
  unfold State.dropWay
  split
  · rfl
  · dsimp only
    split <;> rfl

@[simp] theorem State.reserve_charter (s : State) (fga : Nat) : (s.reserve fga).charter = s.charter := by
  have hcoh (u : State) : (u.cohRoom fga).charter = u.charter := by
    unfold State.cohRoom
    split
    · rfl
    · split <;> simp
  have hset (u : State) : (u.setRoom fga).charter = u.charter := by
    unfold State.setRoom
    dsimp only
    split
    · rfl
    · split <;> simp
  unfold State.reserve
  dsimp only
  split
  · simp [hcoh]
  · simp [hset, hcoh]

/-! #### Translations -/

@[simp] theorem State.epLookup_charter (s : State) (a cva : Nat) : (s.epLookup a cva).2.charter = s.charter := by
  unfold State.epLookup
  dsimp only
  split
  · rfl
  · split <;> rfl

@[simp] theorem State.epMiss_charter (s : State) (who : EpWaiter) (a cva : Nat) : (s.epMiss who a cva).2.charter = s.charter := by
  unfold State.epMiss
  dsimp only
  split
  · rfl
  · split <;> rfl

@[simp] theorem State.cover_charter (a : Nat) (op : ReqOp) (l : List Piece) : ∀ s : State, (s.cover a op l).2.charter = s.charter := by
  induction l with
  | nil => exact fun _ => rfl
  | cons p l ih =>
    intro s
    have hlook := s.epLookup_charter a p.cva
    unfold State.cover
    split
    · next h => simpa [h] using hlook
    · next x u h =>
      have hu : u.charter = s.charter := by simpa [h] using hlook
      split
      · exact hu
      · have hrest := (ih u).trans hu
        split
        · next h => simpa [h] using hrest
        · exact hrest

theorem State.coverRange_charter (a : Nat) (write : Bool) (fuel : Nat) :
    ∀ (s : State) (cva len : Nat), (s.coverRange a write fuel cva len).2.charter = s.charter := by
  induction fuel with
  | zero => exact fun _ _ _ => rfl
  | succ k ih =>
    intro s cva len
    have hlook := s.epLookup_charter a cva
    unfold State.coverRange
    split
    · rfl
    · split
      · rfl
      · split
        · next h => simpa [h] using hlook
        · next x u h =>
          have hu : u.charter = s.charter := by simpa [h] using hlook
          split
          · exact hu
          · exact (ih u _ _).trans hu

theorem State.coverAll_charter (a : Nat) (l : List (Nat × Nat × Bool)) : ∀ s : State, (s.coverAll a l).2.charter = s.charter := by
  induction l with
  | nil => exact fun _ => rfl
  | cons b l ih =>
    intro s
    have hrange := State.coverRange_charter a b.2.2 33 s b.1 b.2.1
    unfold State.coverAll
    split
    · next u h =>
      have hu : u.charter = s.charter := by simpa [h] using hrange
      exact (ih u).trans hu
    · exact hrange

/-! #### The sending path: a progress that it makes keeps the charter -/

theorem keeps_firstSome {α : Type} {P : State → Prop} {l : List α} {g : α → Option State} (hg : ∀ a, ∀ t ∈ g a, P t) : ∀ t ∈ firstSome l g, P t := by
  intro t ht
  obtain ⟨a, -, ha⟩ := List.exists_of_findSome?_eq_some ht
  exact hg a t ha

theorem keeps_orElse {P : State → Prop} {o : Option State} {g : PUnit → Option State} (ho : ∀ t ∈ o, P t) (hg : ∀ t ∈ g (), P t) :
    ∀ t ∈ o.orElse g, P t := by
  cases o with
  | none => exact hg
  | some u => exact ho

theorem State.completeReq_charter (s : State) (q : EpReq) : ∀ t ∈ s.completeReq q, t.charter = s.charter := by
  unfold State.completeReq
  split <;> simp

theorem State.checkReq_charter (s : State) (q : EpReq) : ∀ t ∈ s.checkReq q, t.charter = s.charter := by
  have hcover := State.cover_charter q.r.agent q.r.op q.pieces s
  unfold State.checkReq
  split
  · simp
  · split
    · simp
    · split
      · simp
      · split
        · next u h =>
          have hu : u.charter = s.charter := by simpa [h] using hcover
          simp [hu]
        · next cva u h =>
          have hu : u.charter = s.charter := by simpa [h] using hcover
          have hmiss := (u.epMiss_charter (.req q.order) q.r.agent cva).trans hu
          split
          · next h => simpa [h] using hmiss
          · next h => simpa [h] using hmiss
          · simp
        · next u h =>
          have hu : u.charter = s.charter := by simpa [h] using hcover
          split <;> simp [hu]

theorem State.sendPiece_charter (s : State) (q : EpReq) (i : Nat) (p : Piece) (d : Desc) (kind : FlightKind) (typ : Nat) (whole : Bool) :
    ∀ t ∈ s.sendPiece q i p d kind typ whole, t.charter = s.charter := by
  unfold State.sendPiece
  dsimp only
  split <;> simp

theorem keeps_map {P : State → Prop} {o : Option State} {g : State → State} (ho : ∀ t ∈ o, P (g t)) : ∀ t ∈ o.map g, P t := by
  intro t ht
  obtain ⟨u, hu, rfl⟩ := Option.map_eq_some_iff.mp ht
  exact ho u hu

theorem State.storeHere_charter (s : State) (q : EpReq) (i : Nat) (p : Piece) : (s.storeHere q i p).charter = s.charter := by
  simp [State.storeHere]

@[simp] theorem State.readHere_charter (s : State) (q : EpReq) (i : Nat) (p : Piece) (line : List Byte) : (s.readHere q i p line).charter = s.charter := by
  simp [State.readHere]

theorem State.storeCoherent_charter (s : State) (q : EpReq) (i : Nat) (p : Piece) (d : Desc) : ∀ t ∈ s.storeCoherent q i p d, t.charter = s.charter := by
  unfold State.storeCoherent
  split
  · exact s.sendPiece_charter q i p d _ _ _
  · split
    · simp
    · dsimp only
      split
      · simp [State.storeHere_charter]
      · split
        · simp
        · split
          · simp
          · exact keeps_map fun t ht => (State.sendPiece_charter _ q i p d _ _ true t ht).trans (s.reserve_charter p.fga)

theorem State.beginRead_charter (s : State) (q : EpReq) (i : Nat) (p : Piece) (d : Desc) : ∀ t ∈ s.beginRead q i p d, t.charter = s.charter := by
  unfold State.beginRead
  split
  · split <;> simp
  · split
    · simp
    · dsimp only
      split
      · exact s.sendPiece_charter q i p d _ _ _
      · split
        · simp
        · split
          · exact s.sendPiece_charter q i p d _ _ _
          · split
            · split
              · simp
              · exact fun t ht => (State.sendPiece_charter _ q i p d _ _ true t ht).trans (s.reserve_charter p.fga)
            · exact s.sendPiece_charter q i p d _ _ _

theorem State.beginReadVol_charter (s : State) (q : EpReq) (i : Nat) (p : Piece) (d : Desc) : ∀ t ∈ s.beginReadVol q i p d, t.charter = s.charter := by
  unfold State.beginReadVol
  split
  · simp
  · split
    · simp
    · exact s.sendPiece_charter q i p d _ _ _

theorem State.sendStore_charter (s : State) (q : EpReq) (i : Nat) (p : Piece) (d : Desc) (typ : Nat) : ∀ t ∈ s.sendStore q i p d typ, t.charter = s.charter :=
  keeps_map fun t ht => s.sendPiece_charter q i p d _ typ false t ht

theorem State.beginWrite_charter (s : State) (q : EpReq) (i : Nat) (p : Piece) (d : Desc) : ∀ t ∈ s.beginWrite q i p d, t.charter = s.charter := by
  unfold State.beginWrite
  split
  · exact keeps_map fun t ht => s.sendPiece_charter q i p d _ _ false t ht
  · split
    · exact s.storeCoherent_charter q i p d
    · exact s.sendStore_charter q i p d ftWrite

theorem State.beginAtomic_charter (s : State) (q : EpReq) (i : Nat) (p : Piece) (d : Desc) : ∀ t ∈ s.beginAtomic q i p d, t.charter = s.charter := by
  unfold State.beginAtomic
  split
  · simp
  · exact keeps_map fun t ht => s.sendPiece_charter q i p d _ _ false t ht

theorem State.askAgain_charter (s : State) (q : EpReq) (i : Nat) (p : Piece) : ∀ t ∈ s.askAgain q i p, t.charter = s.charter := by
  have hlook := s.epLookup_charter q.r.agent p.cva
  unfold State.askAgain
  split
  · simp
  · split
    · next h => simpa [h] using hlook
    · next u h =>
      have hu : u.charter = s.charter := by simpa [h] using hlook
      have hmiss := (u.epMiss_charter (.req q.order) q.r.agent p.cva).trans hu
      split
      · next h => simpa [h] using hmiss
      · next h => simpa [h] using hmiss
      · simp

theorem State.startPiece_charter (s : State) (q : EpReq) (i : Nat) (p : Piece) : ∀ t ∈ s.startPiece q i p, t.charter = s.charter := by
  unfold State.startPiece
  split
  · simp
  · split
    · exact s.askAgain_charter q i p
    · split
      · simp
      · split
        · simp
        · split
          · simp
          · split
            · simp
            · split
              · exact s.beginRead_charter q i p _
              · exact s.beginReadVol_charter q i p _
              · exact s.beginWrite_charter q i p _
              · exact s.sendStore_charter q i p _ ftDeposit
              · exact s.beginAtomic_charter q i p _

theorem State.startReq_charter (s : State) (q : EpReq) : ∀ t ∈ s.startReq q, t.charter = s.charter := by
  unfold State.startReq
  split
  · simp
  · split
    · split <;> simp
    · exact keeps_firstSome fun x => s.startPiece_charter q x.2 x.1

theorem State.fenceStep_charter (s : State) (f : EpFence) : ∀ t ∈ s.fenceStep f, t.charter = s.charter := by
  have hgen (u : State) (part : Nat) : (u.advanceGen part).charter = u.charter := by
    unfold State.advanceGen
    dsimp only
    split <;> rfl
  intro t ht
  obtain ⟨st, -, rfl⟩ := Option.map_eq_some_iff.mp ht
  dsimp only
  split <;> simp [hgen]

theorem State.reqStep_charter (s : State) : ∀ t ∈ s.reqStep, t.charter = s.charter :=
  keeps_orElse (keeps_firstSome s.completeReq_charter) (keeps_orElse (keeps_firstSome s.fenceStep_charter)
    (keeps_orElse (keeps_firstSome s.checkReq_charter) (keeps_firstSome s.startReq_charter)))

/-! #### The end-point home and the calls -/

theorem State.homeStep_charter (s : State) : ∀ t ∈ s.homeStep, t.charter = s.charter := by
  have hend (x : HomeReq) (st : Nat) : (s.homeEnd x st [] 0).charter = s.charter := by
    unfold State.homeEnd
    dsimp only
    split <;> rfl
  have hask (x : HomeReq) : (s.askMemory x).charter = s.charter := by
    unfold State.askMemory
    dsimp only
    split
    · rfl
    · split <;> rfl
  refine keeps_firstSome fun x => ?_
  unfold State.homeBegin
  split
  · simp
  · split
    · simp [hend]
    · split
      · simp [hend]
      · split
        · simp [State.sendInputCopy]
        · simp [hask]

theorem State.admitCall_charter (s : State) (x : EpCall) : ∀ t ∈ s.admitCall x, t.charter = s.charter := by
  unfold State.admitCall
  split
  · simp
  · split
    · simp
    · split
      · simp
      · split
        · simp
        · split
          · simp
          · split
            · simp
            · extract_lets y
              have hcover := State.coverAll_charter x.agent y.buffers s
              split
              · next cva _ u h =>
                have hu : u.charter = s.charter := by simpa [h] using hcover
                have hmiss := (u.epMiss_charter (.call x.agent x.utag) x.agent cva).trans hu
                split
                · next h => simpa [h] using hmiss
                · next h => simpa [h] using hmiss
                · simp
              · next u h =>
                have hu : u.charter = s.charter := by simpa [h] using hcover
                simp [hu]
              · next u h =>
                have hu : u.charter = s.charter := by simpa [h] using hcover
                dsimp only
                split
                · simp
                · split
                  · simpa using hu
                  · simpa using hu

@[simp] theorem State.epReq_charter (s : State) (r : Req) (for_ : ReqFor) : (s.epReq r for_).charter = s.charter := by
  unfold State.epReq
  dsimp only
  split
  · simp
  · split <;> simp

@[simp] theorem State.sendPieces_charter (s : State) (x : EpCall) (scale last : Bool) (at_ : Nat) (data : List Byte) :
    (s.sendPieces x scale last at_ data).charter = s.charter := by
  have hplane (u : State) (k : Nat) (f : Frame) : (u.sendOnPlane k f).charter = u.charter := by
    unfold State.sendOnPlane State.ifThen
    split <;> rfl
  exact State.each_charter (fun u i => hplane u _ _) s _

theorem State.sendStep_charter (s : State) (x : EpCall) : ∀ t ∈ s.sendStep x, t.charter = s.charter := by
  unfold State.sendStep
  split
  · simp
  · dsimp only
    split
    · simp
    · split
      · simp
      · split <;> simp

theorem State.takeInternal_charter (s : State) (q : EpReq) : ∀ t ∈ s.takeInternal q, t.charter = s.charter := by
  unfold State.takeInternal
  split
  · simp
  · dsimp only
    split
    · simp
    · split
      · simp
      · split <;> simp
    · split <;> simp
    · split <;> simp

theorem State.deliverStep_charter (s : State) (x : EpCall) : ∀ t ∈ s.deliverStep x, t.charter = s.charter := by
  unfold State.deliverStep
  split
  · simp
  · refine keeps_firstSome fun e => ?_
    split
    · unfold State.chunkNote State.ifThen
      split <;> simp
    · simp

theorem State.settleReading_charter (s : State) (x : EpCall) : ∀ t ∈ s.settleReading x, t.charter = s.charter := by
  unfold State.settleReading
  split <;> simp

theorem State.endStep_charter (s : State) (x : EpCall) : ∀ t ∈ s.endStep x, t.charter = s.charter := by
  unfold State.endStep
  split
  · simp
  · split
    · dsimp only
      split
      · simp
      · split <;> simp
    · split <;> simp

theorem State.collStep_charter (s : State) : ∀ t ∈ s.collStep, t.charter = s.charter :=
  keeps_orElse (keeps_firstSome s.takeInternal_charter) (keeps_firstSome fun x =>
    keeps_orElse (s.admitCall_charter x) (keeps_orElse (s.sendStep_charter x) (keeps_orElse (s.deliverStep_charter x)
      (keeps_orElse (s.settleReading_charter x) (s.endStep_charter x)))))

/-! #### The pump -/

theorem State.epStep_charter (s : State) : ∀ t ∈ s.epStep, t.charter = s.charter :=
  keeps_orElse s.reqStep_charter (keeps_orElse s.homeStep_charter s.collStep_charter)

theorem State.pumpN_charter (fuel : Nat) : ∀ s : State, (State.pumpN fuel s).charter = s.charter := by
  induction fuel with
  | zero => exact fun _ => rfl
  | succ n ih =>
    intro s
    unfold State.pumpN
    split
    · next t h => exact (ih t).trans (s.epStep_charter t h)
    · rfl

@[simp] theorem State.epUnreachable_charter (s : State) : s.epUnreachable.charter = s.charter := by
  unfold State.epUnreachable
  split <;> rfl

theorem State.epPoll_charter (s : State) : s.epPoll.charter = s.charter := by
  have hinval (u : State) (x : EpInval) : (u.epInvalCheck x).charter = u.charter := by
    unfold State.epInvalCheck
    dsimp only
    split
    · simp
    · split <;> simp
  have hflush (u : State) (x : EpFlush) : (u.flushCheck x).charter = u.charter := by
    unfold State.flushCheck
    split <;> rfl
  exact (State.each_charter hflush _ _).trans (State.each_charter hinval _ _)

theorem State.drainQueue_charter (p cls fuel : Nat) : ∀ s : State, (s.drainQueue p cls fuel).charter = s.charter := by
  induction fuel with
  | zero => exact fun _ => rfl
  | succ n ih =>
    intro s
    unfold State.drainQueue
    split
    · rfl
    · split
      · exact (ih _).trans rfl
      · rfl

theorem State.epDrain_charter (s : State) : s.epDrain.charter = s.charter := by
  have hwake (u : State) (p : Nat) : (u.epWake p).charter = u.charter := by
    unfold State.epWake
    dsimp only
    split
    · rfl
    · split <;> rfl
  have hchime (u : State) (p : Nat) : (u.epChime p).charter = u.charter := by
    unfold State.epChime
    split
    · exact hwake _ p
    · rfl
  exact (State.each_charter (fun u p => State.each_charter (fun v c => State.drainQueue_charter p c _ v) u _) _ _).trans (State.each_charter hchime s _)

/-- Whatever goes on at the AKG-8 of itself, what management has set stands. -/
@[simp] theorem State.pump_charter (s : State) : s.pump.charter = s.charter := by
  unfold State.pump
  split
  · rfl
  · rw [State.epDrain_charter, State.epPoll_charter, State.pumpN_charter, State.epUnreachable_charter]

end Sys2Proof.Machine

namespace Sys2Proof.Machine

/-! ### The rows of management at the AKG-8 (14 R367; 21 R508, R513; 23 R539, R544, R550, R552) -/

@[simp] theorem State.xlatDone_charter (s : State) (who : EpWaiter) (cva status : Nat) : (s.xlatDone who cva status).charter = s.charter := by
  cases who with
  | call a utag =>
    unfold State.xlatDone
    dsimp only
    split
    · simp
    · split <;> simp
  | req order =>
    unfold State.xlatDone
    dsimp only
    split
    · simp
    · split
      · simp
      · split <;> simp

@[simp] theorem State.epAbandon_charter (s : State) (x : EpFlight) (status : Nat) : (s.epAbandon x status).charter = s.charter := by
  unfold State.epAbandon
  dsimp only
  split <;> simp

/-- SLOT_CLOSE closes its slot, and on a removal the partition; the rest of the charter stands. -/
theorem State.slotClose_charter (s : State) (p : Nat) (f : Frame) : let k := field f.data 0 1
    let part := field f.data 1 1
    (s.slotClose p f).charter = (s.onEp fun e => { e with
      closed := k :: e.closed.filter (· != k), opens := e.opens.del k
      removed := if bit (field f.data 2 1) 0 then part :: e.removed.filter (· != part) else e.removed }).charter := by
  unfold State.slotClose
  extract_lets k part removal t u v unsent w
  have hw : w.charter = v.charter := State.each_charter (fun x y => by simp) v unsent
  rw [State.sendConfirm_charter, State.epEvent_charter, hw]
  rfl

/-- ADMIT that names the home ID held, or the first one, gives it its incarnation and Strongroom, and ends a verdict. -/
theorem State.epAdmit_fits {s : State} {f : Frame} (h : s.ep.homeId = 0x3FF ∨ s.ep.homeId = field f.data 0 2) (p : Nat) : let u := s.epAdmit p f
    u.ep.homeId = field f.data 0 2 ∧ u.ep.inc = some (field f.data 2 1 % 16) ∧ u.ep.strongroom = bit (field f.data 3 1) 0 ∧ u.ep.verdict = false
      ∧ u.ep.home = s.ep.home ∧ u.ep.closed = s.ep.closed := by
  have hfits : ¬(s.ep.homeId ≠ 0x3FF ∧ field f.data 0 2 ≠ s.ep.homeId) := fun hc => h.elim hc.1 fun heq => hc.2 heq.symm
  unfold State.epAdmit State.ifThen
  rw [if_neg hfits]
  dsimp only
  split
  · exact ⟨rfl, rfl, rfl, rfl, rfl, rfl⟩
  · next hclear =>
    have hverdict : s.ep.verdict = false := by
      rw [Bool.or_eq_true, not_or] at hclear
      exact Bool.eq_false_iff.mpr hclear.1
    exact ⟨rfl, rfl, rfl, hverdict, rfl, rfl⟩

/-- ADMIT with another home ID: the wiring is wrong, and the port is fenced. -/
theorem State.epAdmit_wrong {s : State} {f : Frame} (h : s.ep.homeId ≠ 0x3FF) (hne : s.ep.homeId ≠ field f.data 0 2) (p : Nat) :
    s.epAdmit p f = (s.epRaise fWiring).epFencePort p 2 := if_pos ⟨h, Ne.symm hne⟩

/-- An ADMIT is taken under any INCARNATION. -/
theorem exec_admitFrame {s : State} {p : Nat} (f : Frame) (hlive : s.ep.portLive p = true) (hoff : s.ep.off = false) :
    exec (.admitFrame p f) s = .next ((s.credited p f).epAdmit p f).pump :=
  congrArg Host.Outcome.next (State.epIn_takes (f := { f with typ := ftMgmt, opx := opxAt mAdmit 36 }) ⟨hlive, hoff, rfl⟩ fun s => s.epAdmit p f)

theorem State.fenceNotice_begins {s : State} {f : Frame} (hdomain : field f.data 0 1 = 5) (hbegin : field f.data 3 1 = 0) (p : Nat) :
    let a := field f.data 1 1
    let rest := (s.ep.agentFence.get a []).filter (· != p)
    s.fenceNotice p f = ((s.onEp fun e => { e with agentFence := e.agentFence.put a (p :: rest) }).loseRanks (some a)).epEvent eeFence := by
  unfold State.fenceNotice
  exact (if_neg (not_not_intro hdomain)).trans (if_pos hbegin)

theorem State.fenceNotice_ends {s : State} {f : Frame} (hdomain : field f.data 0 1 = 5) (hend : field f.data 3 1 ≠ 0) (p : Nat) :
    let a := field f.data 1 1
    let rest := (s.ep.agentFence.get a []).filter (· != p)
    s.fenceNotice p f = s.onEp fun e => { e with agentFence := e.agentFence.put a rest } := by
  unfold State.fenceNotice
  exact (if_neg (not_not_intro hdomain)).trans (if_neg hend)

/-- The items of CONFIG that set one value (log 20): the hold time, the ceiling, and a schedule that is no longer armed. -/
theorem State.epConfig_values {s : State} {f : Frame} (p : Nat) :
    (field f.data 0 1 = ciHold → s.epConfig p f = (s.onEp fun e => { e with tHold := field (f.data.drop 1) 0 2 }).sendConfirm .ep p f.tag)
    ∧ (field f.data 0 1 = ciCeil → s.epConfig p f = (s.onEp fun e => { e with ceil := field (f.data.drop 1) 0 1 }).sendConfirm .ep p f.tag)
    ∧ (field f.data 0 1 = ciDisarm → s.epConfig p f = (s.onEp fun e => { e with sched := { e.sched with armed := none } }).sendConfirm .ep p f.tag) := by
  unfold State.epConfig
  refine ⟨fun h => ?_, fun h => ?_, fun h => ?_⟩ <;> rw [h] <;> rfl

/-- The first READMIT of its kind is noted, frees the end-point that it names, and is sent on. -/
theorem State.readmitEp_first {s : State} {p : Nat} {f : Frame} (h : (mReadmit, f.data) ∉ s.ep.seen) :
    let old := fun x : Nat × List Byte => (x.1 == mVerdict || x.1 == mSuspect || x.1 == mReadmit) && field x.2 0 2 == field f.data 0 2
    s.readmitEp p f = (s.onEp fun e => { e with
      seen := (mReadmit, f.data) :: e.seen.filter fun x => !old x, peerInc := e.peerInc.put (field f.data 0 2) (field f.data 2 1 % 16)
      peerLost := e.peerLost.filter (· != field f.data 0 2) }).sendReadmit .ep f (some p) := if_neg (by simpa [State.seenBy] using h)

/-- Settles O39: each row is the equation of its operation; what goes on at the AKG-8 afterwards leaves what ADMIT and SLOT_CLOSE set. -/
theorem endPointManagementRowsComplete : Obligations.EndPointManagementRowsComplete := by
  unfold Obligations.EndPointManagementRowsComplete
  intro s p f c a h
  refine ⟨fun hlive hoff => ⟨fun hid => ?admits, fun hheld hother => ?wrong⟩, fun htakes => ?takes, fun hoff hwhy hfenced => ?redetect⟩
  case admits =>
    obtain ⟨hid', hinc, hstrong, hverdict, hhome, hclosed⟩ := State.epAdmit_fits (s := c) hid p
    obtain ⟨khome, ⟨kid, kinc, kstrong, kverdict⟩, ⟨kclosed, -, -⟩, -⟩ := State.charter_iff.mp (State.pump_charter (c.epAdmit p f))
    exact ⟨_, exec_admitFrame f hlive hoff, kid.trans hid', kinc.trans hinc, kstrong.trans hstrong, kverdict.trans hverdict, khome.trans hhome,
      kclosed.trans hclosed⟩
  case wrong => rw [exec_admitFrame f hlive hoff, State.epAdmit_wrong (s := s.credited p f) hheld hother]
  case redetect =>
    have hrow : (if (s.ep.getLink p).fenceWhy = 1 then s.epRedetect p else s) = s.onLink .ep p fun l => { l with state := .detect, attempts := 0 } :=
      (if_pos hwhy).trans (if_pos hfenced)
    exact congrArg Host.Outcome.next ((State.epEv_on hoff _).trans (congrArg State.pump hrow))
  case takes =>
    have hrow (g : State → State) {t : State} (ht : g c = t) : Host.Outcome.next (s.epIn p f g) = (.next t.pump : Host.Outcome State Fault Refusal) := by
      rw [State.epIn_takes htakes, ht]
    obtain ⟨hhold, hceil, hdisarm⟩ := State.epConfig_values (s := c) (f := f) p
    refine ⟨fun hdomain => ⟨fun hbegin => hrow _ (State.fenceNotice_begins hdomain hbegin p), fun hend => hrow _ (State.fenceNotice_ends hdomain hend p)⟩,
      fun hitem => hrow _ (hhold hitem), fun hitem => hrow _ (hceil hitem), fun hitem => hrow _ (hdisarm hitem), ?close, hrow _ rfl,
      fun hnew => hrow _ (State.readmitEp_first hnew), fun hdest => hrow _ (if_neg hdest)⟩
    case close =>
      obtain ⟨hhome, -, ⟨hclosed, hopens, hremoved⟩, hbind⟩ :=
        State.charter_iff.mp ((State.pump_charter _).trans (State.slotClose_charter c p f))
      exact ⟨_, hrow _ rfl, hclosed, hopens, hhome, hbind, hremoved⟩

end Sys2Proof.Machine

namespace Sys2Proof.Machine

/-! ### A port that fails (14 R364, R366, R374) -/

theorem State.xlatDone_links (s : State) (who : EpWaiter) (cva status : Nat) : (s.xlatDone who cva status).ep.link = s.ep.link := by
  have hend (u : State) (q : EpReq) : (u.endReq q status []).ep.link = u.ep.link := by
    unfold State.endReq
    dsimp only
    split
    · split <;> rfl
    · rfl
  cases who with
  | call a utag =>
    unfold State.xlatDone
    dsimp only
    split
    · rfl
    · split <;> rfl
  | req order =>
    unfold State.xlatDone
    dsimp only
    split
    · rfl
    · split
      · rfl
      · split
        · exact hend _ _
        · rfl

theorem State.epAbandon_links (s : State) (x : EpFlight) (status : Nat) : (s.epAbandon x status).ep.link = s.ep.link := by
  unfold State.epAbandon
  dsimp only
  split
  · exact State.xlatDone_links _ _ _ _
  · rfl
  · rfl

/-- A port of the AKG-8 that is fenced starts afresh in FENCED; what ends with it leaves the links. -/
theorem State.epFencePort_link {s : State} {p : Nat} (h : (s.ep.getLink p).state ≠ .fenced) (why : Nat) :
    (s.epFencePort p why).ep.getLink p = { (s.ep.getLink p).fresh with state := .fenced, fenceWhy := why, attempts := 0 } := by
  have hevent (u : State) (b : Nat) : (u.epEvent b).ep.link = u.ep.link := by
    unfold State.epEvent State.epAlert
    dsimp only
    split <;> rfl
  have hreach (u : State) : u.epUnreachable.ep.link = u.ep.link := by
    unfold State.epUnreachable
    split <;> rfl
  unfold State.epFencePort
  rw [if_neg h]
  extract_lets fenced mine t u v
  have hv : v.ep.link = u.ep.link := by
    refine State.each_keeps (P := fun w : State => w.ep.link = u.ep.link) rfl fun w hw x => Eq.trans ?_ hw
    split
    · exact State.xlatDone_links _ _ _ _
    · exact State.epAbandon_links _ _ _
  have hfenced : fenced.ep.getLink p = { (s.ep.getLink p).fresh with state := .fenced, fenceWhy := why, attempts := 0 } :=
    ((State.lostSource_untouched _ .ep p).getLink .ep p).trans (State.getLink_onLink s .ep p _)
  have hall : ((v.epUnreachable.slotsCheck).epEvent eeFence).ep.link = fenced.ep.link := (hevent _ _).trans ((hreach v).trans hv)
  exact (congrArg (fun t : Tab Link => t.get p {}) hall).trans hfenced

/-- A port is fenced by its own hardware. -/
theorem State.lanesGone_fenced {s : State} {d : Dev} {p : Nat} (h : d = .ep → (s.getLink d p).state ≠ .fenced) :
    ((s.lanesGone d p).getLink d p).state = .fenced ∧ ((s.lanesGone d p).getLink d p).fenceWhy = 2 := by
  cases d with
  | ep =>
    have hlink : (s.lanesGone .ep p).getLink .ep p = _ := State.epFencePort_link (h rfl) 2
    rw [hlink]
    exact ⟨rfl, rfl⟩
  | sw =>
    obtain ⟨l, hstate, hwhy, hput⟩ := s.fencePort_link p (why := 2) (by decide)
    have hafter : ((s.fencePort p 2).regionGone).invalPoll.fixtures false = (s.fencePort p 2).fixtures false := by simp
    obtain ⟨-, hlinks, -⟩ := State.fixtures_iff.mp hafter
    have hlink : (s.lanesGone .sw p).getLink .sw p = l := by
      simp only [State.lanesGone, State.getLink, Switch.getLink, hlinks, hput, Tab.get_put_self]
    rw [hlink]
    exact ⟨hstate, hwhy⟩

/-- What a port records of itself: its link is as it was. -/
theorem State.recordPort_untouched (s : State) (kind p : Nat) : Untouched s (s.recordPort kind p) := (State.record_report s _).upkeep.steady.toUntouched

theorem State.epRaise_untouched (s : State) (kind : Nat) : Untouched s (s.epRaise kind) := ⟨rfl, rfl, rfl, rfl⟩

theorem State.portFault_fenced {s : State} {d : Dev} {p : Nat} (h : d = .ep → (s.getLink d p).state ≠ .fenced) (kind : Nat) :
    ((s.portFault d p kind).getLink d p).state = .fenced ∧ ((s.portFault d p kind).getLink d p).fenceWhy = 2 := by
  cases d with
  | ep => exact State.lanesGone_fenced (s := s.epRaise kind) (d := .ep) fun hd => h hd
  | sw => exact State.lanesGone_fenced (s := s.recordPort kind p) (d := .sw) nofun

/-- A port has settled: its link is as it was. -/
theorem State.settled_untouched (s : State) (d : Dev) (p : Nat) : Untouched s (s.settled d p) := by
  have hclose : Untouched s (s.closePort d p) := (State.onGate_steady s d p _).toUntouched
  unfold State.settled
  split
  · exact (Steady.refl s).toUntouched
  · cases d with
    | sw => exact hclose.trans (State.recordPort_untouched _ _ _)
    | ep => exact hclose

theorem State.settled_getLink (s : State) (d : Dev) (p : Nat) : (s.settled d p).getLink d p = s.getLink d p := (s.settled_untouched d p).getLink d p

theorem State.setLink_getLink (s : State) (d : Dev) (p : Nat) (g : Link → Link) : (s.setLink d p g).getLink d p = g (s.getLink d p) :=
  (s.setLink_relinked d p g).link

/-! ### What a change of link leaves of the settings and test results (14 R371, R377) -/

/-- The settings that training reads, and the test results of the Tally. -/
def State.bench (s : State) : Persist × Nat × Tab LaneResult := (s.sw.sys.cfg, s.sw.sys.mode, s.sw.tally.laneTest)

@[simp] theorem State.bench_ite (c : Prop) [Decidable c] (s t : State) : (if c then s else t).bench = if c then s.bench else t.bench := apply_ite _ _ _ _

@[simp] theorem State.each_bench {α : Type} {g : State → α → State} (hg : ∀ u a, (g u a).bench = u.bench) (s : State) (l : List α) :
    (s.each l g).bench = s.bench :=
  State.each_keeps (P := fun u => u.bench = s.bench) rfl fun u hu a => (hg u a).trans hu

theorem ReportFrame.bench {s t : State} (h : ReportFrame s t) : t.bench = s.bench := by
  rw [h.1]
  rfl

@[simp] theorem State.setEvent_bench (s : State) (b : Nat) : (s.setEvent b).bench = s.bench := (State.setEvent_report s b).bench
@[simp] theorem State.record_bench (s : State) (o : Occurrence) : (s.record o).bench = s.bench := (State.record_report s o).bench

/-- A count leaves the test results. -/
@[simp] theorem State.countN_bench (s : State) (block i n : Nat) : (s.countN block i n).bench = s.bench := by
  have hkeep : (s.sw.tally.keep (s.sw.clock.now / tMs)).laneTest = s.sw.tally.laneTest := by
    unfold Tally.keep
    split <;> rfl
  exact congrArg (fun t : Tab LaneResult => (s.sw.sys.cfg, s.sw.sys.mode, t)) hkeep

@[simp] theorem State.work_bench (s : State) (kind i : Nat) : (s.work kind i).bench = s.bench := by
  unfold State.work
  dsimp only
  split
  · rfl
  · split
    · rfl
    · split
      · rfl
      · split
        · rfl
        · split
          · split <;> rfl
          · rfl

@[simp] theorem State.placeFrame_bench (s : State) (src vc : Nat) (f : Frame) (whole : Bool) (mark : Nat) :
    (s.placeFrame src vc f whole mark).2.bench = s.bench := by
  unfold State.placeFrame
  dsimp only
  split
  · exact State.countN_bench _ _ _ _
  · rfl

@[simp] theorem State.enqueue_bench (s : State) (key src : Nat) (f : Frame) : (s.enqueue key src f).bench = s.bench := by
  have hjoin (u : State) (b : Buffered) : (u.join key b).bench = u.bench := by
    unfold State.join State.workAt
    split
    · exact State.work_bench _ _ _
    · split
      · exact State.work_bench _ _ _
      · rfl
  exact (hjoin _ _).trans (State.placeFrame_bench s src f.cls f true 0)

@[simp] theorem State.swSendPort_bench (s : State) (src p : Nat) (f : Frame) : (s.swSendPort src p f).bench = s.bench := by
  unfold State.swSendPort State.fromSource
  split
  · exact State.enqueue_bench _ _ _ _
  · rfl

@[simp] theorem State.mgmtOut_bench (s : State) (d : Dev) (p msub tag : Nat) (data : List Byte) : (s.mgmtOut d p msub tag data).bench = s.bench := by
  cases d with
  | sw => exact State.swSendPort_bench _ _ _ _
  | ep => rfl

@[simp] theorem State.onSched_bench (s : State) (d : Dev) (g : Sched → Sched) : (s.onSched d g).bench = s.bench := by
  cases d <;> rfl

@[simp] theorem State.onLink_bench (s : State) (d : Dev) (p : Nat) (g : Link → Link) : (s.onLink d p g).bench = s.bench := by
  cases d <;> rfl

/-- The NARROW need may change the book, and is reported. -/
@[simp] theorem State.refreshNarrow_bench (s : State) : s.refreshNarrow.bench = s.bench := by
  have hbook (u : State) (b : Nat) : (u.takeBook .sw b).bench = u.bench := by simp [State.takeBook]
  have hnote (u : State) (sender : Nat) (slow narrow : Bool) : (u.noteReport sender slow narrow).bench = u.bench := by
    simp [State.noteReport, State.decideBook, State.changeBook, State.sendBookSet, hbook]
  have hseen (u : State) (l : List (Nat × List Byte)) : (u.putSeen .sw l).bench = u.bench := rfl
  simp [State.refreshNarrow, State.reportNeeds, State.flood, State.floodPast, State.sendPast, hnote, hseen]

@[simp] theorem State.setLink_bench (s : State) (d : Dev) (p : Nat) (g : Link → Link) : (s.setLink d p g).bench = s.bench := by
  have hput (l : Link) : (s.putLink .sw p l).bench = s.bench := rfl
  have hxlat (u : State) : (u.onXlat fun x => { x with l1 := [], l2 := [] }).bench = u.bench := rfl
  cases d with
  | ep => exact State.onLink_bench s .ep p g
  | sw => simp [State.setLink, State.onPort, State.setPort, hput, hxlat]

/-- What has left the ports becomes slots of their transmitters. -/
@[simp] theorem State.loadSlots_bench (s : State) : s.loadSlots.bench = s.bench := by
  have hgive (u : State) (d : Dev) (p : Nat) (g : Tx → Tx) : (u.give d p g).bench = u.bench := by
    unfold State.give
    split
    · exact State.onLink_bench _ _ _ _
    · rfl
  have hload (u : State) (o : Out) : (u.loadOut o).bench = u.bench := by
    unfold State.loadOut
    split
    iterate 4 exact hgive _ _ _ _
    rfl
  exact State.each_bench hload s _

end Sys2Proof.Machine

namespace Sys2Proof.Machine

/-! ### Detection and identity (14 R364 to R368, 23 R544) -/

/-- The port listens for its partner's Tick lane. -/
def State.listens (s : State) (d : Dev) (p : Nat) : Prop :=
  (s.getLink d p).state = .detect ∨ (d = .ep ∧ (s.getLink d p).state = .fenced ∧ (s.getLink d p).fenceWhy ≠ 1)

theorem State.clockLock_listens {s : State} {d : Dev} {p : Nat} (h : s.listens d p) (hon : d = .ep → s.ep.ucie ≠ []) :
    s.clockLock d p = (s.setLink d p fun l => { l with state := .identify, attempts := if l.state = .fenced then 0 else l.attempts }).emit
      (.identity d p (identityBytes (s.identityOf d p))) := by
  refine if_neg ?_
  cases d with
  | sw => simpa [State.listens] using h
  | ep => simpa [State.listens, hon rfl, or_iff_not_imp_left] using h

theorem State.clockLock_deaf {s : State} {d : Dev} {p : Nat} (h : ¬s.listens d p) : s.clockLock d p = s := by
  refine if_pos ?_
  cases d with
  | sw => simpa [State.listens] using h
  | ep =>
    have hdeaf : (s.getLink .ep p).state ≠ .detect ∧ ((s.getLink .ep p).state = .fenced → (s.getLink .ep p).fenceWhy = 1) := by
      simpa [State.listens] using h
    simp [hdeaf.1, imp_iff_not_or.mp hdeaf.2]

theorem State.clockLock_link {s : State} {d : Dev} {p : Nat} (h : s.listens d p) (hon : d = .ep → s.ep.ucie ≠ []) : let l := s.getLink d p
    (s.clockLock d p).getLink d p = { l with state := .identify, attempts := if l.state = .fenced then 0 else l.attempts }
      ∧ Out.identity d p (identityBytes (s.identityOf d p)) ∈ (s.clockLock d p).out := by
  rw [State.clockLock_listens h hon]
  exact ⟨(State.emit_getLink _ _ d p).trans (s.setLink_getLink d p _), by simp⟩

theorem State.identityTaken_idle {s : State} {d : Dev} {p : Nat} (h : (s.getLink d p).state ≠ .identify) (r : Identity) : s.identityTaken d p r = s := if_pos h

/-- A record that does not fit fences the port. -/
theorem State.identityTaken_fault {s : State} {d : Dev} {p : Nat} {r : Identity} (h : (s.getLink d p).state = .identify)
    (hfault : (s.identityFault d p r).isSome = true) :
    ((s.identityTaken d p r).getLink d p).state = .fenced ∧ ((s.identityTaken d p r).getLink d p).fenceWhy = 2 := by
  obtain ⟨k, hk⟩ := Option.isSome_iff_exists.mp hfault
  have hbad : s.identityTaken d p r = s.portFault d p k := by simp [State.identityTaken, h, hk]
  rw [hbad]
  exact State.portFault_fenced (fun _ => by simp [h]) k

/-- A record that fits, of a partner that this port does not resume with. -/
theorem State.identityTaken_climb {s : State} {d : Dev} {p : Nat} {r : Identity} (h : (s.getLink d p).state = .identify)
    (hfits : s.identityFault d p r = none) (hslow : fastPair (s.identityOf d p) r = false) :
    (s.identityTaken d p r).getLink d p = Link.climb { s.getLink d p with partner := some r } := by
  have htaken : s.identityTaken d p r = s.setLink d p fun l => { l with partner := some r }.climb := by
    simp [State.identityTaken, h, hfits, hslow]
  rw [htaken, State.setLink_getLink]

theorem State.identityTaken_resume {s : State} {d : Dev} {p : Nat} {r : Identity} {st : Stored} (h : (s.getLink d p).state = .identify)
    (hfits : s.identityFault d p r = none) (hfast : fastPair (s.identityOf d p) r = true) (hstored : (s.getLink d p).stored = some st) :
    (s.identityTaken d p r).getLink d p = Link.resume { s.getLink d p with partner := some r } st.res := by
  have htaken : s.identityTaken d p r = (s.setLink d p fun l => { l with partner := some r }.resume st.res).settled d p := by
    simp [State.identityTaken, h, hfits, hfast, hstored]
  rw [htaken, State.settled_getLink, State.setLink_getLink]

/-! ### DECIDE and MAP (14 R368, R370 to R372, R374) -/

theorem decideMaps_sound {q : LaneReport} (h : ∀ i < 10, 64 ≤ q.figures.getD i 0 ∧ 64 ≤ q.partner.getD i 0) : decideMaps q = some ({}, {}) := by
  have hlow {figures : List Nat} (hf : ∀ i < 10, 64 ≤ figures.getD i 0) : (List.range 10).filter (fun i => decide (figures.getD i 0 < 64)) = [] :=
    List.filter_eq_nil_iff.mpr fun i hi => by simpa using hf i (List.mem_range.mp hi)
  unfold decideMaps
  extract_lets low
  rw [show low q.figures = [] from hlow fun i hi => (h i hi).1, show low q.partner = [] from hlow fun i hi => (h i hi).2]
  rfl

theorem decideMaps_failed {q : LaneReport} (h : ∀ i < 10, q.figures.getD i 0 < 64) : decideMaps q = none := by
  have hlow : (List.range 10).filter (fun i => decide (q.figures.getD i 0 < 64)) = List.range 10 :=
    List.filter_eq_self.mpr fun i hi => by simpa using h i (List.mem_range.mp hi)
  have hmap : laneMapOf (List.range 10) = none := by decide
  unfold decideMaps
  extract_lets low
  rw [show low q.figures = List.range 10 from hlow, hmap]
  rfl

theorem LaneMap.le_lowest {m : LaneMap} {figures : List Nat} {n : Nat} (hn : n ≤ 255) (h : ∀ i < 10, n ≤ figures.getD i 0) : n ≤ m.lowest figures := by
  refine List.foldlRecOn (motive := fun k => n ≤ k) _ _ hn fun k hk i hi => ?_
  have hlane : i < 10 := List.mem_range.mp (List.mem_filter.mp hi).1
  exact le_min hk (h i hlane)

/-- The target step rests on the settings and the partner's record. -/
theorem State.targetStep_eq {s t : State} {d : Dev} {p : Nat} (h : t.bench = s.bench) (hpartner : (t.getLink d p).partner = (s.getLink d p).partner) :
    t.targetStep d p = s.targetStep d p := by
  have hcfg : t.sw.sys.cfg = s.sw.sys.cfg := congrArg Prod.fst h
  have hmax : (t.identityOf d p).maxStep = (s.identityOf d p).maxStep := by
    cases d with
    | sw => exact congrArg (fun y : Persist => (y.port.get p {}).maxStep) hcfg
    | ep => rfl
  rw [State.targetStep, State.targetStep, hmax, hpartner]

theorem State.equalised_idle {s : State} {d : Dev} {p : Nat} (h : (s.getLink d p).state ≠ .equalise) (q : LaneReport) : s.equalised d p q = s := if_pos h

/-- Adaptive equalisation ends: DECIDE with what it found. -/
theorem State.equalised_adaptive {s : State} {d : Dev} {p : Nat} (h : (s.getLink d p).state = .equalise) (hadaptive : (s.getLink d p).adaptive = true)
    (hmode : d = .sw → (s.sw.sys.cfg.port.get p {}).eqMode ≠ 1) (q : LaneReport) : s.equalised d p q = s.decideStep d p false q.eq q := by
  cases d with
  | ep => simp [State.equalised, h, hadaptive]
  | sw => simp [State.equalised, h, hadaptive, hmode rfl, beq_eq_false_iff_ne.mpr (hmode rfl)]

/-- The result of a step that ran in adaptive mode, with no lane failed. -/
def soundStep (k : Nat) (q : LaneReport) : StepRes := { step := k, table := false, fom := ({} : LaneMap).lowest q.figures, out := {}, eq := q.eq }

/-- A step that leaves every figure of both directions at 96 or more. -/
theorem State.decideStep_sound {s : State} {d : Dev} {p : Nat} {q : LaneReport} (h : ∀ i < 10, 96 ≤ q.figures.getD i 0 ∧ 96 ≤ q.partner.getD i 0) :
    let l := s.getLink d p
    let r := soundStep l.step q
    let tried := { l with allTable := false, steps := r :: l.steps, adaptive := false }
    (s.decideStep d p false q.eq q).getLink d p = if l.step < s.targetStep d p then { tried with step := l.step + 1 } else tried.settle r := by
  intro l r tried
  have hmaps : decideMaps q = some ({}, {}) := decideMaps_sound fun i hi => ⟨by have := (h i hi).1; omega, by have := (h i hi).2; omega⟩
  have hown : 96 ≤ ({} : LaneMap).lowest q.figures := LaneMap.le_lowest (by decide) fun i hi => (h i hi).1
  have hpartner : 96 ≤ ({} : LaneMap).lowest q.partner := LaneMap.le_lowest (by decide) fun i hi => (h i hi).2
  unfold State.decideStep
  extract_lets k t
  rw [hmaps]
  dsimp -zeta only
  extract_lets r' up u
  have hlink : t.getLink d p = { l with allTable := false } := by
    rw [State.setLink_getLink, Bool.and_false]
  have htarget : t.targetStep d p = s.targetStep d p := State.targetStep_eq (State.setLink_bench s d p _) (by rw [hlink])
  have hup : up = decide (l.step < s.targetStep d p) := by
    have hall : decide (96 ≤ min r'.fom (({} : LaneMap).lowest q.partner)) = true := decide_eq_true (le_min hown hpartner)
    simp only [up, hall, htarget, Bool.true_and]
    rfl
  have hu : u.getLink d p = if up = true then { tried with step := l.step + 1 } else tried.settle r := by
    rw [State.setLink_getLink, hlink]
    rfl
  split
  · next hclimb =>
    rw [hu, if_pos hclimb, if_pos (of_decide_eq_true (hup ▸ hclimb))]
  · next hsettle =>
    rw [State.settled_getLink, hu, if_neg hsettle, if_neg fun hlt => hsettle (hup.trans (decide_eq_true hlt))]

/-- No width results: the step before stands. -/
theorem State.stepFails_back {s : State} {d : Dev} {p : Nat} {r : StepRes} {rest : List StepRes} (h : (s.getLink d p).steps = r :: rest) :
    (s.stepFails d p).getLink d p = (s.getLink d p).settle r := by
  have hback : s.stepFails d p = (s.setLink d p fun l => l.settle r).settled d p := by simp [State.stepFails, h]
  rw [hback, State.settled_getLink, State.setLink_getLink]

/-- At S0 the port is fenced. -/
theorem State.stepFails_fenced {s : State} {d : Dev} {p : Nat} (h : (s.getLink d p).steps = []) (hstate : (s.getLink d p).state ≠ .fenced) :
    ((s.stepFails d p).getLink d p).state = .fenced ∧ ((s.stepFails d p).getLink d p).fenceWhy = 2 := by
  have hfence : s.stepFails d p = s.portFault d p fTrainFailed := by simp [State.stepFails, h]
  rw [hfence]
  exact State.portFault_fenced (fun _ => hstate) _

/-- A step at which every lane of the receive direction has failed. -/
theorem State.decideStep_failed {q : LaneReport} (h : ∀ i < 10, q.figures.getD i 0 < 64) (s : State) (d : Dev) (p : Nat) :
    ∃ t : State, s.decideStep d p false q.eq q = t.stepFails d p ∧ t.getLink d p = { s.getLink d p with allTable := false } := by
  refine ⟨s.setLink d p fun l => { l with allTable := l.allTable && false }, ?_, ?_⟩
  · simp [State.decideStep, decideMaps_failed h]
  · rw [State.setLink_getLink, Bool.and_false]

theorem State.decideStep_back {s : State} {d : Dev} {p : Nat} {q : LaneReport} {r : StepRes} {rest : List StepRes}
    (h : ∀ i < 10, q.figures.getD i 0 < 64) (hsteps : (s.getLink d p).steps = r :: rest) :
    (s.decideStep d p false q.eq q).getLink d p = Link.settle { s.getLink d p with allTable := false } r := by
  obtain ⟨t, ht, hlink⟩ := s.decideStep_failed h d p
  rw [ht, State.stepFails_back (by rw [hlink]; exact hsteps), hlink]

theorem State.decideStep_fenced {s : State} {d : Dev} {p : Nat} {q : LaneReport} (h : ∀ i < 10, q.figures.getD i 0 < 64)
    (hsteps : (s.getLink d p).steps = []) (hopen : (s.getLink d p).state ≠ .fenced) : let l := (s.decideStep d p false q.eq q).getLink d p
    l.state = .fenced ∧ l.fenceWhy = 2 := by
  obtain ⟨t, ht, hlink⟩ := s.decideStep_failed h d p
  rw [ht]
  exact State.stepFails_fenced (by rw [hlink]; exact hsteps) (by rw [hlink]; exact hopen)

end Sys2Proof.Machine

namespace Sys2Proof.Machine

/-! ### The lane map ends (14 R364, R368) -/

/-- A fast resume that leaves a lane in use of either direction below 64 climbs the ladder. -/
theorem State.mapped_climbs {s : State} {d : Dev} {p : Nat} {figures partner : List Nat} (h : (s.getLink d p).state = .map)
    (hfast : (s.getLink d p).fast = true) (hlow : (s.getLink d p).lanes.lowest figures < 64 ∨ (s.getLink d p).out.lowest partner < 64) :
    (s.mapped d p figures partner).getLink d p = (s.getLink d p).climb := by
  have hclimb : s.mapped d p figures partner = s.setLink d p Link.climb := by simp [State.mapped, h, hfast, hlow]
  rw [hclimb, State.setLink_getLink]

/-- The settings say which side begins exchanges. -/
theorem State.initiates_eq {s t : State} (h : t.bench = s.bench) (d : Dev) (p : Nat) : t.initiates d p = s.initiates d p := by
  have hmode : t.sw.sys.mode = s.sw.sys.mode := congrArg (fun b => b.2.1) h
  cases d with
  | sw => simp [State.initiates, isEdge, hmode]
  | ep => rfl

/-- INIT has been sent: the exchange is at its first stage; STATE and the receiver are as they were. -/
theorem State.beginExchange_link (s : State) (d : Dev) (p : Nat) : let l := (s.beginExchange d p).getLink d p
    l.state = (s.getLink d p).state ∧ l.rx = (s.getLink d p).rx ∧ l.xchg.map (·.stage) = some 1 := by
  have hfree (u : State) : u.free.2.getLink d p = u.getLink d p := by cases d <;> rfl
  unfold State.beginExchange State.sendKeyMsg State.ownKeyMsg
  dsimp only
  rw [State.getLink_onLink, State.getLink_onLink, hfree, hfree]
  exact ⟨rfl, rfl, rfl⟩

/-- The lane map of a port, on its way to SECURE: it holds, or no fast resume asked for it. -/
def Link.mapHolds (l : Link) (figures partner : List Nat) : Prop :=
  l.fast = false ∨ (64 ≤ l.lanes.lowest figures ∧ 64 ≤ l.out.lowest partner)

/-- SECURE begins afresh; the initiator goes on with its exchange. -/
theorem State.mapped_begins {s : State} {d : Dev} {p : Nat} {figures partner : List Nat} (h : (s.getLink d p).state = .map)
    (hgood : (s.getLink d p).mapHolds figures partner) : ∃ u : State, s.mapped d p figures partner = (if s.initiates d p then u.beginExchange d p else u)
      ∧ (u.getLink d p).state = .secure ∧ (u.getLink d p).rx = {} ∧ (u.getLink d p).xchg = none := by
  have hnot : ¬((s.getLink d p).fast && decide (min ((s.getLink d p).lanes.lowest figures) ((s.getLink d p).out.lowest partner) < 64)) = true := by
    intro hc
    obtain ⟨hfast, hlow⟩ := Bool.and_eq_true_iff.mp hc
    have hmin := min_lt_iff.mp (of_decide_eq_true hlow)
    rcases hgood with hg | hg
    · exact absurd (hfast.symm.trans hg) (by decide)
    · omega
  unfold State.mapped
  extract_lets l t u
  have hinit : u.initiates d p = s.initiates d p := State.initiates_eq ((State.setLink_bench t d p _).trans s.loadSlots_bench) d p
  have hlink : u.getLink d p = _ := State.setLink_getLink t d p _
  rw [if_neg (not_not_intro h), if_neg hnot, hinit]
  exact ⟨u, rfl, by rw [hlink], by rw [hlink], by rw [hlink]⟩

theorem State.mapped_secure {s : State} {d : Dev} {p : Nat} {figures partner : List Nat} (h : (s.getLink d p).state = .map)
    (hgood : (s.getLink d p).mapHolds figures partner) : let l := (s.mapped d p figures partner).getLink d p
    l.state = .secure ∧ l.rx = {} ∧ l.xchg.map (·.stage) = if s.initiates d p then some 1 else none := by
  obtain ⟨u, hu, hstate, hrx, hxchg⟩ := State.mapped_begins h hgood
  rw [hu]
  split
  · obtain ⟨kstate, krx, kxchg⟩ := u.beginExchange_link d p
    exact ⟨kstate.trans hstate, krx.trans hrx, kxchg⟩
  · exact ⟨hstate, hrx, by rw [hxchg]; rfl⟩

theorem State.mapped_idle {s : State} {d : Dev} {p : Nat} (h : (s.getLink d p).state ≠ .map) (figures partner : List Nat) :
    s.mapped d p figures partner = s := if_pos h

/-! ### Attempts that fail (14 R364) -/

theorem State.trainFail_state {s : State} {d : Dev} {p : Nat} (h : (s.getLink d p).state.inTraining = true) :
    ((s.trainFail d p).getLink d p).state = if (s.getLink d p).attempts < 7 then .down else .fenced := by
  have hout : (s.getLink d p).state ≠ .fenced := by
    intro hc
    rw [hc] at h
    exact absurd h (by decide)
  unfold State.trainFail
  extract_lets n wait
  split
  · next hlast =>
    rw [if_neg (by omega)]
    exact (State.portFault_fenced (fun _ => hout) _).1
  · next hmore =>
    rw [if_pos (by omega)]
    exact congrArg Link.state (s.setLink_getLink d p wait)

theorem State.trainingFails_state {s : State} {d : Dev} {p : Nat} (h : (s.getLink d p).state.inTraining = true) :
    ((s.trainingFails d p).getLink d p).state = if (s.getLink d p).attempts < 7 then .down else .fenced := by
  rw [State.trainingFails, if_pos h]
  exact State.trainFail_state h

theorem State.trainingFails_idle {s : State} {d : Dev} {p : Nat} (h : (s.getLink d p).state.inTraining = false) : s.trainingFails d p = s :=
  if_neg (by simp [h])

theorem State.trainAgain_waits {s : State} {d : Dev} {p : Nat} (h : (s.getLink d p).retry = false ∨ (d = .sw ∧ s.sw.sys.noCable.contains p = true)) :
    s.trainAgain d p = s := by
  refine if_pos ?_
  rcases h with h | ⟨rfl, h⟩
  · simp [h]
  · rw [h]
    simp

theorem State.trainAgain_detect {s : State} {d : Dev} {p : Nat} (h : (s.getLink d p).retry = true) (hcable : d = .sw → s.sw.sys.noCable.contains p = false) :
    s.trainAgain d p = (s.setLink d p fun l => { l with state := .detect, retry := false }).emit (.tickClock d p) := by
  refine if_neg ?_
  cases d with
  | sw =>
    rw [h, hcable rfl]
    simp
  | ep => simp [h]

/-! ### Lanes in service (14 R373 to R375) -/

theorem State.recordLane_untouched (s : State) (d : Dev) (p lane : Nat) : Untouched s (s.recordLane d p lane) := by
  cases d with
  | sw => exact (State.record_report s _).upkeep.steady.toUntouched
  | ep => exact s.epRaise_untouched _

theorem State.recordLane_bench (s : State) (d : Dev) (p lane : Nat) : (s.recordLane d p lane).bench = s.bench := by
  cases d with
  | sw => exact State.record_bench s _
  | ep => rfl

/-- The lanes of a check that fail now: those in use, or the idle Jewel lane, that had not failed. -/
def Link.hit (l : Link) (lanes : List Nat) (out : Bool) : List Nat :=
  lanes.filter fun i => decide (i < 10) && !bit (if out then l.out else l.lanes).fail i && ((if out then l.out else l.lanes).inUse i || i == 8)

theorem State.laneFails_idle {s : State} {d : Dev} {p : Nat} (h : (s.getLink d p).state ≠ .active) (lanes : List Nat) (cause : LaneFault) (out : Bool) :
    s.laneFails d p lanes cause out = s := if_pos h

section
variable {s : State} {d : Dev} {p : Nat} {lanes : List Nat} {out : Bool} (hactive : (s.getLink d p).state = .active) (cause : LaneFault)
include hactive

theorem State.laneFails_waits (h : (s.getLink d p).changing.isSome = true) :
    (s.laneFails d p lanes cause out).getLink d p = { s.getLink d p with later := (s.getLink d p).later ++ [(lanes, cause, out)] } := by
  have hwait : s.laneFails d p lanes cause out = s.setLink d p fun l => { l with later := l.later ++ [(lanes, cause, out)] } := by
    simp [State.laneFails, hactive, h]
  rw [hwait, State.setLink_getLink]

theorem State.laneFails_none (h : (s.getLink d p).changing = none) (hhit : (s.getLink d p).endTest.hit lanes out = []) :
    s.laneFails d p lanes cause out = s := by
  unfold State.laneFails
  rw [if_neg (not_not_intro hactive), h]
  exact if_pos (List.isEmpty_iff.mpr hhit)

/-- The lanes fail: the receiving side records each, and the maps of both directions follow. -/
theorem State.laneFails_hit (h : (s.getLink d p).changing = none) (hhit : (s.getLink d p).endTest.hit lanes out ≠ []) :
    let e := (s.getLink d p).endTest
    let hit := e.hit lanes out
    ∃ t, Untouched s t ∧ s.laneFails d p lanes cause out = match e.failLanes hit out with
      | none => t.lanesGone d p
      | some (a, b) => if e.lanes.moves a || e.out.moves b then
          t.setLink d p fun _ => { e with fail := a.fail, out := { e.out with fail := b.fail }, changing := some (a, b) }
        else t.setLink d p fun _ => { e.putLanes a with out := b } := by
  intro e hit
  refine ⟨if out then s else s.each hit fun s i => s.recordLane d p i, ?_, ?_⟩
  · split
    · exact (Steady.refl s).toUntouched
    · exact State.each_keeps (P := Untouched s) (Steady.refl s).toUntouched fun u hu i => hu.trans (u.recordLane_untouched d p i)
  · unfold State.laneFails
    rw [if_neg (not_not_intro hactive), h]
    exact if_neg fun hempty => hhit (List.isEmpty_iff.mp hempty)

theorem State.laneFails_fenced (h : (s.getLink d p).changing = none) (hhit : (s.getLink d p).endTest.hit lanes out ≠ [])
    (hmaps : (s.getLink d p).endTest.failLanes ((s.getLink d p).endTest.hit lanes out) out = none) : let l := (s.laneFails d p lanes cause out).getLink d p
    l.state = .fenced ∧ l.fenceWhy = 2 := by
  obtain ⟨t, hlinks, ht⟩ := State.laneFails_hit hactive cause h hhit
  rw [ht, hmaps]
  exact State.lanesGone_fenced fun _ => by rw [hlinks.getLink, hactive]; decide

section
variable {a b : LaneMap} (h : (s.getLink d p).changing = none) (hhit : (s.getLink d p).endTest.hit lanes out ≠ [])
  (hmaps : (s.getLink d p).endTest.failLanes ((s.getLink d p).endTest.hit lanes out) out = some (a, b))
include h hhit hmaps

/-- The port changes its lanes: until the change ends only the failures are noted. -/
theorem State.laneFails_moves (hmoves : ((s.getLink d p).endTest.lanes.moves a || (s.getLink d p).endTest.out.moves b) = true) :
    let e := (s.getLink d p).endTest
    (s.laneFails d p lanes cause out).getLink d p = { e with fail := a.fail, out := { e.out with fail := b.fail }, changing := some (a, b) } := by
  obtain ⟨t, -, ht⟩ := State.laneFails_hit hactive cause h hhit
  rw [ht, hmaps]
  dsimp only
  rw [if_pos hmoves, State.setLink_getLink]

/-- Nothing in use moves: the maps are in force at once. -/
theorem State.laneFails_stays (hstays : ((s.getLink d p).endTest.lanes.moves a || (s.getLink d p).endTest.out.moves b) = false) :
    (s.laneFails d p lanes cause out).getLink d p = { (s.getLink d p).endTest.putLanes a with out := b } := by
  obtain ⟨t, -, ht⟩ := State.laneFails_hit hactive cause h hhit
  rw [ht, hmaps]
  dsimp only
  rw [if_neg (Bool.eq_false_iff.mp hstays), State.setLink_getLink]

end

end

/-- The link with its new maps in force: failures held during the change keep their bits, and flits not acknowledged go again. -/
def Link.inForce (l : Link) (a b : LaneMap) : Link :=
  ({ l.putLanes { a with fail := l.fail } with
    out := { b with fail := l.out.fail }, changing := none, changed := true, later := [], tx := { l.tx with resend := l.tx.replay.map Prod.fst } } : Link).keep

/-- A change of lanes ends that no failure has waited for. -/
theorem State.laneChanged_link {s : State} {d : Dev} {p : Nat} {a b : LaneMap} (h : (s.getLink d p).changing = some (a, b))
    (hlater : (s.getLink d p).later = []) : (s.laneChanged d p).getLink d p = (s.getLink d p).inForce a b := by
  unfold State.laneChanged
  extract_lets l
  rw [show l.changing = _ from h, show l.later = _ from hlater]
  exact State.setLink_getLink s d p _

theorem State.laneChanged_none {s : State} {d : Dev} {p : Nat} (h : (s.getLink d p).changing = none) : s.laneChanged d p = s := by
  simp [State.laneChanged, h]

/-! ### Bit-error tests (14 R376 to R378) -/

theorem State.beginTest_link {s : State} {d : Dev} {p : Nat} (h : (s.getLink d p).testable = true) (install : Bool) :
    (s.beginTest d p install).getLink d p = (s.getLink d p).testLane install 0 := by
  have hbegins : s.beginTest d p install = s.setLink d p fun l => l.testLane install 0 := if_pos h
  rw [hbegins, State.setLink_getLink]

theorem State.beginTest_none {s : State} {d : Dev} {p : Nat} (h : (s.getLink d p).testable = false) (install : Bool) : s.beginTest d p install = s :=
  if_neg (by simp [h])

theorem State.laneTestEnd_none {s : State} {d : Dev} {p : Nat} (h : (s.getLink d p).test = none) (lane n m : Nat) : s.laneTestEnd d p lane n m = s := by
  simp [State.laneTestEnd, h]

/-- A switch gives its own result of a lane to the Tally. -/
def State.tallied (s : State) (d : Dev) (p lane : Nat) (r : LaneResult) : State :=
  match d with
  | .sw => s.onSw fun w => { w with tally := { w.tally with laneTest := w.tally.laneTest.put (p * 16 + lane) r } }
  | .ep => s

theorem State.tallied_untouched (s : State) (d : Dev) (p lane : Nat) (r : LaneResult) : Untouched s (s.tallied d p lane r) := by
  cases d <;> exact ⟨rfl, rfl, rfl, rfl⟩

theorem State.tallied_find (s : State) (p lane : Nat) (r : LaneResult) : (s.tallied .sw p lane r).sw.tally.laneTest.find (p * 16 + lane) = some r :=
  Tab.find_put_self _ _ _

/-- The link after the test of a lane, by the bit errors of either direction. -/
def Link.tested (l : Link) (install : Bool) (lane n m : Nat) : Link :=
  let ok := fun k => decide (k ≤ allowedErrors install)
  if ok n && ok m then (if lane = 9 then l.endTest else l.testLane install (if lane = 7 then 9 else lane + 1))
  else ({ ({ l with test := none } : Link).putLanes (l.lanes.tested lane (ok n)) with out := l.out.tested lane (ok m), changed := true } : Link).keep

theorem Link.tested_passed {install : Bool} {n m : Nat} (hn : n ≤ allowedErrors install) (hm : m ≤ allowedErrors install) (l : Link) (lane : Nat) :
    l.tested install lane n m = if lane = 9 then l.endTest else l.testLane install (if lane = 7 then 9 else lane + 1) := by
  simp [Link.tested, hn, hm]

/-- A lane that fails in one direction ends the test, and stays on that direction's Jewel lane. -/
theorem Link.tested_failed {install : Bool} {n m : Nat} (h : allowedErrors install < n ∨ allowedErrors install < m) (l : Link) (lane : Nat) :
    let r := l.tested install lane n m
    r.test = none ∧ r.lanes = l.lanes.tested lane (decide (n ≤ allowedErrors install)) ∧ r.out = l.out.tested lane (decide (m ≤ allowedErrors install)) := by
  have hbad : ¬(decide (n ≤ allowedErrors install) && decide (m ≤ allowedErrors install)) = true := by
    rw [Bool.and_eq_true, decide_eq_true_iff, decide_eq_true_iff]
    omega
  unfold Link.tested
  dsimp only
  rw [if_neg hbad]
  exact ⟨rfl, rfl, rfl⟩

theorem LaneMap.tested_failed {install : Bool} {n : Nat} (h : allowedErrors install < n) (m : LaneMap) (lane : Nat) :
    let r := m.tested lane (decide (n ≤ allowedErrors install))
    r.jewel = (if lane = 9 then 8 else lane) ∧ r.fail = m.fail ||| 2 ^ lane := by
  rw [decide_eq_false (Nat.not_le.mpr h)]
  exact ⟨rfl, rfl⟩

/-- A lane's test ends: its link, and what the Tally was given. -/
theorem State.laneTestEnd_eq {s : State} {d : Dev} {p : Nat} {x : LaneTest} (h : (s.getLink d p).test = some x)
    (hactive : (s.getLink d p).state = .active) (n m : Nat) : let t := s.tallied d p x.lane { install := x.install, errors := n }
    ∃ u : State, Untouched t u ∧ u.bench = t.bench ∧ s.laneTestEnd d p x.lane n m = u.setLink d p fun l => l.tested x.install x.lane n m := by
  intro t
  have hbad : ¬(x.lane ≠ x.lane ∨ (s.getLink d p).state ≠ .active) := by simp [hactive]
  unfold State.laneTestEnd
  rw [h]
  dsimp -zeta only
  rw [if_neg hbad]
  extract_lets ok t'
  by_cases hgood : (ok n && ok m) = true
  · refine ⟨t, (Steady.refl t).toUntouched, rfl, (if_pos hgood).trans ?_⟩
    exact congrArg (State.setLink t d p) (funext fun l => (if_pos hgood).symm)
  · refine ⟨if ok n then t else t.recordLane d p x.lane, ?_, ?_, (if_neg hgood).trans ?_⟩
    · split
      · exact (Steady.refl t).toUntouched
      · exact t.recordLane_untouched d p x.lane
    · split
      · rfl
      · exact t.recordLane_bench d p x.lane
    · exact congrArg (State.setLink _ d p) (funext fun l => (if_neg hgood).symm)

theorem State.laneTestEnd_tested {s : State} {d : Dev} {p : Nat} {x : LaneTest} (h : (s.getLink d p).test = some x)
    (hactive : (s.getLink d p).state = .active) (n m : Nat) : let t := s.laneTestEnd d p x.lane n m
    t.getLink d p = (s.getLink d p).tested x.install x.lane n m
      ∧ (d = .sw → t.sw.tally.laneTest.find (p * 16 + x.lane) = some { install := x.install, errors := n }) := by
  obtain ⟨u, hlinks, hbench, hend⟩ := State.laneTestEnd_eq h hactive n m
  dsimp only
  rw [hend]
  refine ⟨?_, ?_⟩
  · rw [State.setLink_getLink, hlinks.getLink, (State.tallied_untouched _ _ _ _ _).getLink]
  · rintro rfl
    have htests := congrArg (fun b => b.2.2) ((State.setLink_bench u .sw p fun l => l.tested x.install x.lane n m).trans hbench)
    exact (congrArg (fun t : Tab LaneResult => t.find (p * 16 + x.lane)) htests).trans (s.tallied_find p x.lane _)

/-- A record that the copies deliver is taken. -/
theorem execIdentityRecord_elim (d : Dev) (p : Nat) (copies : List (List Byte)) (s : State) :
    execIdentityRecord d p copies s = .next (s.linkEv d fun s => (recordOf copies).elim s (s.identityTaken d p)) := by
  unfold execIdentityRecord
  cases recordOf copies <;> rfl

/-- Settles O48: each row is the equation of its operation, whose changes of link stand through what they report. -/
theorem trainingRowsComplete : Obligations.TrainingRowsComplete := by
  unfold Obligations.TrainingRowsComplete
  intro s d p lane n m copies q lanes figures partner cause out l all fails
  have hran {i : Instr} {g : State → State} (hexec : exec i s = .next (s.linkEv d g)) : exec i s = .next (s.ranAt d (g s)) :=
    hexec.trans (congrArg Host.Outcome.next (State.linkEv_ranAt s d g))
  have hlock : exec (.partnerClockLock d p) s = .next (s.ranAt d (s.clockLock d p)) := hran (g := fun s => s.clockLock d p) rfl
  have hidentity : exec (.identityRecord d p copies) s = .next (s.ranAt d ((recordOf copies).elim s (s.identityTaken d p))) :=
    hran (g := fun s => (recordOf copies).elim s (s.identityTaken d p)) (execIdentityRecord_elim d p copies s)
  have hequal : exec (.equaliseDone d p q) s = .next (s.ranAt d (s.equalised d p q)) := hran (g := fun s => s.equalised d p q) rfl
  have hmap : exec (.laneMapDone d p ⟨figures, partner⟩) s = .next (s.ranAt d (s.mapped d p figures partner)) :=
    hran (g := fun s => s.mapped d p figures partner) rfl
  have hbound : exec (.trainingTimeout d p) s = .next (s.ranAt d (s.trainingFails d p)) := hran (g := fun s => s.trainingFails d p) rfl
  have hloss : exec (.lockLossBeforeActive d p) s = .next (s.ranAt d (s.trainingFails d p)) := hran (g := fun s => s.trainingFails d p) rfl
  have hretry : exec (.trainingRetry d p) s = .next (s.ranAt d (s.trainAgain d p)) := hran (g := fun s => s.trainAgain d p) rfl
  have hlanes : exec (.laneFailed d p ⟨lanes, out⟩ cause) s = .next (s.ranAt d (s.laneFails d p lanes cause out)) :=
    hran (g := fun s => s.laneFails d p lanes cause out) rfl
  have hchange : exec (.laneChangeDone d p) s = .next (s.ranAt d (s.laneChanged d p)) := hran (g := fun s => s.laneChanged d p) rfl
  have hdue : exec (.periodicTestDue ⟨d, p⟩) s = .next (s.ranAt d (if d = .sw ∧ s.sw.sys.cfg.testHours = 0 then s else s.beginTest d p false)) :=
    hran (g := fun s => if d = .sw ∧ s.sw.sys.cfg.testHours = 0 then s else s.beginTest d p false) rfl
  have hend : exec (.laneTestEnd ⟨d, p⟩ lane ⟨n, m⟩) s = .next (s.ranAt d (s.laneTestEnd d p lane n m)) := hran (g := fun s => s.laneTestEnd d p lane n m) rfl
  refine ⟨?detect, ?fenced, ?deaf, ?noRecord, ?record, ?noStep, ?step, ?noMap, ?map, ?noAttempt, ?attempt, ?noRetry, ?retry, ?noLanes, ?lanes, ?noChange,
    ?change, ?noTest, ?test, ?noEnd, ?ended⟩
  case detect =>
    intro hdetect hon
    obtain ⟨hlink, hsent⟩ := State.clockLock_link (.inl hdetect) hon
    exact ⟨_, hlock, by rw [hlink, if_neg (by rw [hdetect]; decide)], hsent⟩
  case fenced =>
    intro hfenced hwhy hep hon
    obtain ⟨hlink, hsent⟩ := State.clockLock_link (.inr ⟨hep, hfenced, hwhy⟩) fun _ => hon
    exact ⟨_, hlock, by rw [hlink, if_pos hfenced], hsent⟩
  case deaf =>
    intro hdetect hrest
    have hdeaf : ¬s.listens d p := by
      rintro (h | ⟨hep, hfenced, hwhy⟩)
      · exact hdetect h
      · rcases hrest with h | rfl | h
        · exact h hfenced
        · cases hep
        · exact hwhy h
    rw [hlock, State.clockLock_deaf hdeaf]
  case noRecord =>
    intro hnone
    rw [hidentity]
    cases hr : recordOf copies with
    | none => rfl
    | some r => exact congrArg (fun u => Host.Outcome.next (s.ranAt d u)) (State.identityTaken_idle (hnone.resolve_right (by simp [hr])) r)
  case record =>
    intro hstate r hr
    rw [hr] at hidentity
    exact ⟨_, hidentity, State.identityTaken_fault hstate, State.identityTaken_climb hstate,
      fun hfits hfast st => State.identityTaken_resume hstate hfits hfast⟩
  case noStep =>
    intro hstate
    rw [hequal, State.equalised_idle hstate]
  case step =>
    intro hstate hadaptive hmode
    rw [State.equalised_adaptive hstate hadaptive hmode] at hequal
    refine ⟨_, hequal, fun hgood hbelow => ?_, fun hgood htarget => ?_, fun hbad x rest hsteps => ?_, fun hbad hsteps => ?_⟩
    · rw [State.decideStep_sound hgood, if_pos hbelow]
      exact ⟨hstate, rfl, rfl⟩
    · rw [State.decideStep_sound hgood, if_neg (Nat.not_lt.mpr htarget)]
      exact ⟨rfl, rfl, rfl, LaneMap.le_lowest (by decide) fun i hi => (hgood i hi).1, rfl, rfl, rfl, rfl⟩
    · rw [State.decideStep_back (fun i hi => (hbad i hi).1) hsteps]
      exact ⟨rfl, rfl, rfl⟩
    · exact State.decideStep_fenced (fun i hi => (hbad i hi).1) hsteps (by rw [hstate]; decide)
  case noMap =>
    intro hstate
    rw [hmap, State.mapped_idle hstate]
  case map =>
    intro hstate
    exact ⟨_, hmap, State.mapped_climbs hstate, State.mapped_secure hstate⟩
  case noAttempt =>
    intro hstate
    rw [hbound, hloss, State.trainingFails_idle hstate]
    exact ⟨rfl, rfl⟩
  case attempt =>
    intro hstate
    exact ⟨⟨_, hbound, State.trainingFails_state hstate⟩, _, hloss, State.trainingFails_state hstate⟩
  case noRetry =>
    intro hwait
    rw [hretry, State.trainAgain_waits hwait]
  case retry =>
    intro hfailed hcable
    rw [State.trainAgain_detect hfailed hcable] at hretry
    exact ⟨_, hretry, (State.emit_getLink _ _ d p).trans (s.setLink_getLink d p _), by simp⟩
  case noLanes =>
    intro hstate
    rw [hlanes, State.laneFails_idle hstate]
  case lanes =>
    intro hactive e hit
    exact ⟨_, hlanes, State.laneFails_waits hactive cause, State.laneFails_none hactive cause, State.laneFails_fenced hactive cause, fun hidle hhit a b hmaps =>
      ⟨State.laneFails_moves hactive cause hidle hhit hmaps, State.laneFails_stays hactive cause hidle hhit hmaps⟩⟩
  case noChange =>
    intro hnone
    rw [hchange, State.laneChanged_none hnone]
  case change =>
    intro a b hchanging hlater
    exact ⟨_, hchange, State.laneChanged_link hchanging hlater⟩
  case noTest =>
    rintro (⟨hsw, hoff⟩ | hidle)
    · rw [hdue, if_pos ⟨hsw, hoff⟩]
    · rw [hdue, State.beginTest_none hidle, ite_self]
  case test =>
    intro hperiod hready
    rw [if_neg fun h => hperiod h.1 h.2] at hdue
    exact ⟨_, hdue, State.beginTest_link hready false⟩
  case noEnd =>
    intro hnone
    rw [hend, State.laneTestEnd_none hnone]
  case ended =>
    rintro x hx rfl hactive
    obtain ⟨hlink, htally⟩ := State.laneTestEnd_tested hx hactive n m
    refine ⟨_, hend, htally, fun hn hm => ?_, fun hn => ?_, fun hm => ?_⟩
    · rw [hlink, Link.tested_passed hn hm]
    · obtain ⟨htest, hown, -⟩ := Link.tested_failed (.inl hn) l x.lane
      obtain ⟨hjewel, hfail⟩ := LaneMap.tested_failed hn l.lanes x.lane
      rw [hlink]
      exact ⟨htest, (congrArg LaneMap.jewel hown).trans hjewel, (congrArg LaneMap.fail hown).trans hfail⟩
    · obtain ⟨htest, -, hpartner⟩ := Link.tested_failed (.inr hm) l x.lane
      obtain ⟨hjewel, hfail⟩ := LaneMap.tested_failed hm l.out x.lane
      rw [hlink]
      exact ⟨htest, (congrArg LaneMap.jewel hpartner).trans hjewel, (congrArg LaneMap.fail hpartner).trans hfail⟩

end Sys2Proof.Machine

namespace Sys2Proof.Machine

/-! ### What every command keeps: the queue, what is sent, and the form of both memories -/

/-- t follows s: the same commands wait, what s has sent stays sent, in order, and memories in canonical form are so still. -/
structure State.Leads (s t : State) : Prop where
  queue : t.pending = s.pending
  sent : s.out <+: t.out
  memory : MemoryOk s → MemoryOk t

/-- The state that a step may answer follows s, if it answers one. -/
def State.LeadsAny (s : State) (o : Option State) : Prop := ∀ t, o = some t → s.Leads t

section
-- Over a thousand short proofs follow one another here: elaborated side by side they want more threads than the check allows.
set_option Elab.async false
variable {s₀ s t : State} {α : Type}

theorem State.Leads.refl (s : State) : s.Leads s := ⟨rfl, List.prefix_refl _, id⟩

theorem State.Leads.trans (h : s₀.Leads s) (k : s.Leads t) : s₀.Leads t :=
  ⟨k.queue.trans h.queue, h.sent.trans k.sent, k.memory ∘ h.memory⟩

theorem SentFrame.leads (h : SentFrame s t) : s.Leads t :=
  ⟨by rw [h.1], h.2, by rw [h.1]; exact id⟩

theorem ReportFrame.leads (h : ReportFrame s t) : s.Leads t :=
  ⟨by rw [h.1], h.2, by rw [h.1]; exact id⟩

theorem AnswerFrame.leads (h : AnswerFrame s t) : s.Leads t :=
  ⟨by rw [h.1], h.2, by rw [h.1]; exact id⟩

theorem ToldFrame.leads (h : ToldFrame s t) : s.Leads t :=
  ⟨by rw [h.1], h.2, by rw [h.1]; exact id⟩

/-- A change of the switch that keeps the form of its home's memory; most leave that memory alone. -/
theorem State.Leads.onSw {g : Switch → Switch} (h : s₀.Leads s)
    (hg : ∀ w, Memory.wf w.mem.home.mem = true → Memory.wf (g w).mem.home.mem = true := by exact fun _ hw => hw) : s₀.Leads (s.onSw g) :=
  h.trans ⟨rfl, List.prefix_refl _, fun ⟨a, b⟩ => ⟨hg _ a, b⟩⟩

/-- A change of the AKG-8 that keeps the form of its home's memory. -/
theorem State.Leads.onEp {g : EndPoint → EndPoint} (h : s₀.Leads s)
    (hg : ∀ e, Memory.wf e.home.mem = true → Memory.wf (g e).home.mem = true := by exact fun _ hw => hw) : s₀.Leads (s.onEp g) :=
  h.trans ⟨rfl, List.prefix_refl _, fun ⟨a, b⟩ => ⟨a, hg _ b⟩⟩

theorem State.Leads.emit {o : Out} (h : s₀.Leads s) : s₀.Leads (s.emit o) := h.trans (State.emit_sent s o).leads

theorem State.Leads.free (h : s₀.Leads s) : s₀.Leads s.free.2 := h.trans ⟨rfl, List.prefix_refl _, id⟩

theorem State.Leads.tick (h : s₀.Leads s) : s₀.Leads s.tick := h.trans ⟨rfl, List.prefix_refl _, id⟩

theorem State.Leads.ite {c : Prop} [Decidable c] (h : s₀.Leads s) (k : s₀.Leads t) : s₀.Leads (if c then s else t) := by
  split
  · exact h
  · exact k

theorem State.Leads.each {l : List α} {g : State → α → State} (h : s₀.Leads s) (hg : ∀ u a, s₀.Leads u → s₀.Leads (g u a)) : s₀.Leads (s.each l g) :=
  State.each_keeps h fun u hu a => hg u a hu

theorem State.Leads.foldl {l : List α} {g : State → α → State} (h : s₀.Leads s) (hg : ∀ u a, s₀.Leads u → s₀.Leads (g u a)) : s₀.Leads (l.foldl g s)
    :=
  h.each hg

theorem State.Leads.ifThen {c : Bool} {g : State → State} (h : s₀.Leads s) (hg : ∀ u, s₀.Leads u → s₀.Leads (g u)) : s₀.Leads (s.ifThen c g) :=
  (hg s h).ite h

theorem State.Leads.of_eq {p : α × State} {a : α} (h : s₀.Leads p.2) (e : p = (a, t)) : s₀.Leads t := by
  rwa [e] at h

/-- The state of an answer that comes with one. -/
theorem State.Leads.pair {a : α} (h : s₀.Leads s) : s₀.Leads (a, s).2 := h

/-- The state that an outcome gives follows s. -/
def State.LeadsBy (s : State) (o : Host.Outcome State Fault Refusal) : Prop := ∀ t, o = .next t → s.Leads t

theorem State.Leads.next (h : s₀.Leads s) : s₀.LeadsBy (.next s) := fun _ ht => Host.Outcome.next.inj ht ▸ h

theorem State.LeadsBy.ite {c : Prop} [Decidable c] {o p : Host.Outcome State Fault Refusal} (h : s₀.LeadsBy o) (k : s₀.LeadsBy p) :
    s₀.LeadsBy (if c then o else p) := by
  split
  · exact h
  · exact k

theorem State.LeadsAny.none : s₀.LeadsAny none := fun _ ht => absurd ht.symm (Option.some_ne_none _)

theorem State.Leads.some (h : s₀.Leads s) : s₀.LeadsAny (some s) := fun _ ht => Option.some.inj ht ▸ h

theorem State.LeadsAny.ite {c : Prop} [Decidable c] {o p : Option State} (h : s₀.LeadsAny o) (k : s₀.LeadsAny p) : s₀.LeadsAny (if c then o else p)
    := by
  split
  · exact h
  · exact k

theorem State.LeadsAny.getD {o : Option State} (h : s₀.LeadsAny o) (k : s₀.Leads s) : s₀.Leads (o.getD s) := by
  cases o with
  | none => exact k
  | some t => exact h t rfl

/-- The counters of free values taken and of what the link layer has loaded move. -/
theorem State.Leads.counters {m n : Nat} (h : s₀.Leads s) : s₀.Leads { s with loaded := m, fresh := n } := h.trans ⟨rfl, List.prefix_refl _, id⟩

theorem State.LeadsAny.of_forall {o : Option α} {g : α → State} (hg : ∀ a, s₀.Leads (g a)) : s₀.LeadsAny (o.map g) := by
  cases o with
  | none => exact .none
  | some a => exact (hg a).some

theorem State.LeadsAny.map {o : Option State} {g : State → State} (h : s₀.LeadsAny o) (hg : ∀ u, s₀.Leads u → s₀.Leads (g u)) :
    s₀.LeadsAny (o.map g) := by
  cases o with
  | none => exact .none
  | some t => exact (hg t (h t rfl)).some

theorem State.LeadsAny.findSome {l : List α} {g : α → Option State} (hg : ∀ a, s₀.LeadsAny (g a)) : s₀.LeadsAny (l.findSome? g) := fun t ht => by
  obtain ⟨a, -, ha⟩ := List.exists_of_findSome?_eq_some ht
  exact hg a t ha

theorem State.LeadsAny.orElse {o : Option State} {p : PUnit → Option State} (h : s₀.LeadsAny o) (k : s₀.LeadsAny (p ())) : s₀.LeadsAny (o.orElse p)
    := by
  cases o with
  | none => exact k
  | some t => exact h

/-- A form of command whose effect and whose work follow the state that it is taken at. -/
structure Form.Leads (k : Form) : Prop where
  commit : ∀ {s₀ s : State} (c : Cmd), s₀.Leads s → s₀.Leads (k.commit c s).2
  start : ∀ {s₀ s : State} (c : Cmd), s₀.Leads s → s₀.Leads (k.start c s)

/-! #### The functions of Machine/Ops.lean -/

theorem State.Leads.putLink {d : Dev} {p : Nat} {l : Link} (h : s₀.Leads s) : s₀.Leads (s.putLink d p l) := by
  unfold State.putLink
  split
  · exact h.onSw
  · exact h.onEp

theorem State.Leads.onLink {d : Dev} {p : Nat} {g : Link → Link} (h : s₀.Leads s) : s₀.Leads (s.onLink d p g) :=
  h.putLink

theorem State.Leads.countN {block i n : Nat} (h : s₀.Leads s) : s₀.Leads (s.countN block i n) :=
  h.trans (State.countN_sent _ _ _ _).leads

theorem State.Leads.count {block i : Nat} (h : s₀.Leads s) : s₀.Leads (s.count block i) :=
  h.countN

theorem State.Leads.trainHost {up : Bool} (h : s₀.Leads s) : s₀.Leads (s.trainHost up) :=
  h.onSw.ite h.free.free.onSw

theorem State.Leads.msix {fn vec : Nat} (h : s₀.Leads s) : s₀.Leads (s.msix fn vec) :=
  h.trans (State.msix_report _ _ _).leads

theorem State.Leads.setEvent {b : Nat} (h : s₀.Leads s) : s₀.Leads (s.setEvent b) :=
  h.trans (State.setEvent_report _ _).leads

theorem State.Leads.refreshAlert (h : s₀.Leads s) : s₀.Leads s.refreshAlert :=
  h.trans (State.refreshAlert_report _).leads

theorem State.Leads.record {o : Occurrence} (h : s₀.Leads s) : s₀.Leads (s.record o) :=
  h.trans (State.record_report _ _).leads

theorem State.Leads.recordPort {kind p : Nat} (h : s₀.Leads s) : s₀.Leads (s.recordPort kind p) :=
  h.record

theorem State.Leads.putLedger {p : Nat} {l : Ledger} (h : s₀.Leads s) : s₀.Leads (s.putLedger p l) :=
  h.trans (State.putLedger_report _ _ _).leads

theorem State.Leads.noteFull {p : Nat} (h : s₀.Leads s) : s₀.Leads (s.noteFull p) :=
  h.trans (State.noteFull_report _ _).leads

theorem State.Leads.noteHigh {p : Nat} (h : s₀.Leads s) : s₀.Leads (s.noteHigh p) :=
  h.trans (State.noteHigh_report _ _).leads

theorem State.Leads.ledgerSeal {p : Nat} (h : s₀.Leads s) : s₀.Leads (s.ledgerSeal p) :=
  h.trans (State.ledgerSeal_report _ _).leads

theorem State.Leads.ledgerPut {p : Nat} {e : Entry} (h : s₀.Leads s) : s₀.Leads (s.ledgerPut p e) :=
  h.trans (State.ledgerPut_report _ _ _).leads

theorem State.Leads.ledgerAdd {p : Nat} {e : Entry} (h : s₀.Leads s) : s₀.Leads (s.ledgerAdd p e) :=
  h.trans (State.ledgerAdd_report _ _ _).leads

theorem State.Leads.takeQueuedEntries {p fuel : Nat} (h : s₀.Leads s) : s₀.Leads (s.takeQueuedEntries p fuel) :=
  h.trans (State.takeQueuedEntries_report _ _ _).leads

theorem State.Leads.flushLedger {p : Nat} (h : s₀.Leads s) : s₀.Leads (s.flushLedger p) :=
  h.trans (State.flushLedger_report _ _).leads

theorem State.Leads.ledgerBegin {p kind : Nat} {region : Option (Nat × Nat)} (h : s₀.Leads s) : s₀.Leads (s.ledgerBegin p kind region) :=
  h.putLedger.ledgerAdd

theorem State.Leads.work {kind index : Nat} (h : s₀.Leads s) : s₀.Leads (s.work kind index) :=
  h.trans (State.work_sent _ _ _).leads

theorem State.Leads.workAt {o : Nat} (h : s₀.Leads s) : s₀.Leads (s.workAt o) :=
  h.trans (State.workAt_sent _ _).leads

theorem State.Leads.placeFrame {src vc : Nat} {f : Frame} {whole : Bool} {mark : Nat} (h : s₀.Leads s) : s₀.Leads (s.placeFrame src vc f whole
    mark).2 :=
  h.trans (State.placeFrame_sent _ _ _ _ _ _).leads

theorem State.Leads.join {key : Nat} {b : Buffered} (h : s₀.Leads s) : s₀.Leads (s.join key b) :=
  h.trans (State.join_sent _ _ _).leads

theorem State.Leads.enqueue {key src : Nat} {f : Frame} (h : s₀.Leads s) : s₀.Leads (s.enqueue key src f) :=
  h.trans (State.enqueue_sent _ _ _ _).leads

theorem State.Leads.returnCredit {p vc n : Nat} (h : s₀.Leads s) : s₀.Leads (s.returnCredit p vc n) :=
  h.trans (State.returnCredit_sent _ _ _ _).leads

theorem State.Leads.settleOwed {key : Nat} (h : s₀.Leads s) : s₀.Leads (s.settleOwed key) := by
  unfold State.settleOwed
  split
  · exact h
  · exact h.onSw.returnCredit

theorem State.Leads.releaseWaiting {src cls fuel : Nat} (h : s₀.Leads s) : s₀.Leads (s.releaseWaiting src cls fuel) :=
  h.trans (State.releaseWaiting_sent _ _ _ _).leads

theorem State.Leads.freeCells {b : Buffered} (h : s₀.Leads s) : s₀.Leads (s.freeCells b) :=
  h.trans (State.freeCells_sent _ _).leads

theorem State.Leads.fromSource {src key : Nat} {f : Frame} (h : s₀.Leads s) : s₀.Leads (s.fromSource src key f) :=
  h.trans (State.fromSource_sent _ _ _ _).leads

theorem State.Leads.swSend {src : Nat} {f : Frame} (h : s₀.Leads s) : s₀.Leads (s.swSend src f) :=
  h.trans (State.swSend_sent _ _ _).leads

theorem State.Leads.collSend {f : Frame} (h : s₀.Leads s) : s₀.Leads (s.collSend f) :=
  h.swSend

theorem State.Leads.swSendPort {src p : Nat} {f : Frame} (h : s₀.Leads s) : s₀.Leads (s.swSendPort src p f) :=
  h.trans (State.swSendPort_sent _ _ _ _).leads

theorem State.Leads.epSend {p : Nat} {f : Frame} (h : s₀.Leads s) : s₀.Leads (s.epSend p f) :=
  h.onEp

theorem State.Leads.cutQueued {key : Nat} {sel : Frame → Bool} (h : s₀.Leads s) : s₀.Leads (s.cutQueued key sel).2 :=
  h.onSw (g := fun w => { w with core := _ })

theorem State.Leads.takeQueued {key : Nat} {sel : Frame → Bool} (h : s₀.Leads s) : s₀.Leads (s.takeQueued key sel).2 :=
  h.onSw.each fun _ _ h => h.freeCells

theorem State.Leads.takeWaiting {sel : Nat → Frame → Bool} (h : s₀.Leads s) : s₀.Leads (s.takeWaiting sel).2 :=
  h.onSw (g := fun w => { w with core := _ })

theorem State.Leads.takeUnsent {sel : Frame → Bool} (h : s₀.Leads s) : s₀.LeadsAny (s.takeUnsent sel) := by
  unfold State.takeUnsent
  split
  · exact h.takeWaiting.some
  · exact .of_forall fun _ => h.takeQueued

theorem State.Leads.relay {p : Nat} {f : Frame} {cmd : Option (Nat × Nat)} (h : s₀.Leads s) : s₀.Leads (s.relay p f cmd) :=
  h.trans (State.relay_told _ _ _ _).leads

theorem State.Leads.relayEp {p msub : Nat} {data : List Byte} {cmd : Option (Nat × Nat)} (h : s₀.Leads s) : s₀.Leads (s.relayEp p msub data cmd) :=
  h.relay

theorem State.Leads.putSlot {k : Nat} {v : KeySlot} (h : s₀.Leads s) : s₀.Leads (s.putSlot k v) :=
  h.onSw

theorem State.Leads.putPart {p : Nat} {v : Part} (h : s₀.Leads s) : s₀.Leads (s.putPart p v) :=
  h.onSw

theorem State.Leads.putEngine {e : Nat} {v : Engine} (h : s₀.Leads s) : s₀.Leads (s.putEngine e v) :=
  h.onSw

theorem State.Leads.onEscrow {g : Escrow → Escrow} (h : s₀.Leads s) : s₀.Leads (s.onEscrow g) :=
  h.onSw

/-! #### The functions of Machine/Pool.lean -/

theorem State.Leads.onMem {g : Mem → Mem} (h : s₀.Leads s)
    (hg : ∀ m, Memory.wf m.home.mem = true → Memory.wf (g m).home.mem = true := by exact fun _ hw => hw) : s₀.Leads (s.onMem g) :=
  h.onSw fun w => hg w.mem

theorem State.Leads.onHome {g : Home → Home} (h : s₀.Leads s)
    (hg : ∀ m, Memory.wf m.mem = true → Memory.wf (g m).mem = true := by exact fun _ hw => hw) : s₀.Leads (s.onHome g) :=
  h.onMem fun m => hg m.home

theorem State.Leads.putRegion {n : Nat} {r : Region} (h : s₀.Leads s) : s₀.Leads (s.putRegion n r) :=
  h.onHome

theorem State.Leads.onLine {l : Nat} {g : LineMeta → LineMeta} (h : s₀.Leads s) : s₀.Leads (s.onLine l g) :=
  h.onHome

/-- A home whose memory is in canonical form stays so. -/
def Mem.Sound (m n : Mem) : Prop := Memory.wf m.home.mem = true → Memory.wf n.home.mem = true

theorem Home.dramWrite_wf {m : Home} (l : Nat) (k : Key) (data : List Byte) (bad : Bool) (h : Memory.wf m.mem = true) :
    Memory.wf (m.dramWrite l k data bad).mem = true := Memory.wf_writeN _ _ h

theorem Mem.writeBack_sound (m : Mem) (c : CacheLine) : m.Sound (m.writeBack c) := by
  intro h
  unfold Mem.writeBack
  split
  · exact Home.dramWrite_wf _ _ _ _ h
  · exact h

theorem Mem.drop_sound (m : Mem) (l : Nat) : m.Sound (m.drop l) := by
  unfold Mem.drop
  split
  · exact id
  · exact m.writeBack_sound _

theorem Mem.insert_sound (m : Mem) (n : Nat) (c : CacheLine) : m.Sound (m.insert n c) := by
  unfold Mem.insert
  dsimp only
  split
  · exact id
  · split
    · exact id
    · exact m.writeBack_sound _

theorem Mem.flushCache_sound (m : Mem) (p : CacheLine → Bool) : m.Sound (m.flushCache p) := fun h =>
  List.foldlRecOn (motive := fun n : Mem => Memory.wf n.home.mem = true) (m.cache.filter p) Mem.writeBack h fun n hn c _ => n.writeBack_sound c hn

theorem State.Leads.dropLine {l : Nat} (h : s₀.Leads s) : s₀.Leads (s.onMem fun m => m.drop l) := h.onMem fun m => m.drop_sound l

theorem State.Leads.insertLine {n : Nat} {c : CacheLine} (h : s₀.Leads s) : s₀.Leads (s.onMem fun m => m.insert n c) := h.onMem fun m =>
    m.insert_sound n c

theorem State.Leads.readLine {l slot : Nat} (h : s₀.Leads s) : s₀.Leads (s.readLine l slot).2 := by
  unfold State.readLine
  dsimp only
  split
  · exact h.dropLine.ite h.onMem
  · split
    · exact h.dropLine
    · exact h.dropLine.insertLine.ite h.dropLine

theorem State.Leads.writeLine {l slot : Nat} {data : List Byte} (h : s₀.Leads s) : s₀.Leads (s.writeLine l slot data) :=
  h.dropLine.insertLine.ite (h.dropLine.onHome fun _ => Home.dramWrite_wf _ _ _ _)

theorem State.Leads.settleLine {l : Nat} (h : s₀.Leads s) : s₀.Leads (s.settleLine l) := by
  refine h.onMem fun m hw => ?_
  split
  · exact hw
  · exact Mem.writeBack_sound _ _ hw

theorem State.Leads.mirrorLine {l : Nat} (h : s₀.Leads s) : s₀.Leads (s.mirrorLine l).2 := by
  unfold State.mirrorLine
  dsimp only
  split
  · exact h
  · exact .pair h.settleLine.onMem.emit

theorem State.Leads.mirrorLines {ls : List Nat} (h : s₀.Leads s) : s₀.Leads (s.mirrorLines ls).2 := by
  refine List.foldlRecOn (motive := fun a : Option Nat × State => s₀.Leads a.2) ls _ h fun a ha l _ => ?_
  split
  · split
    · exact ha.mirrorLine
    · exact ha
  · exact ha

/-! #### The functions of Machine/Clearing.lean -/

theorem State.Leads.onUnit {u : Nat} {g : Unit → Unit} (h : s₀.Leads s) : s₀.Leads (s.onUnit u g) :=
  h.onMem

theorem State.Leads.putEntry {e : DirEntry} (h : s₀.Leads s) : s₀.Leads (s.putEntry e) :=
  h.onUnit

theorem State.Leads.freeEntry {l : Nat} (h : s₀.Leads s) : s₀.Leads (s.freeEntry l) := by
  unfold State.freeEntry
  split
  · exact h
  · exact h.onUnit.putSlot.ite h.onUnit

theorem State.Leads.putBusy {b : Busy} (h : s₀.Leads s) : s₀.Leads (s.putBusy b) :=
  h.onUnit

theorem State.Leads.endBusy {l : Nat} (h : s₀.Leads s) : s₀.Leads (s.endBusy l) :=
  h.onUnit

theorem State.Leads.dropHolder {l h' : Nat} (h : s₀.Leads s) : s₀.Leads (s.dropHolder l h') := by
  unfold State.dropHolder
  split
  · exact h
  · split
    · exact h.freeEntry
    · exact h.putEntry

theorem State.Leads.loseLine {l : Nat} (h : s₀.Leads s) : s₀.Leads (s.loseLine l) :=
  h.freeEntry.onLine

theorem State.Leads.uncount {f : Frame} (h : s₀.Leads s) : s₀.Leads (s.uncount f) :=
  h.putSlot.ite h

theorem State.Leads.homeRespond {f : Frame} {status : Nat} {data : List Byte} {cache : Nat} (h : s₀.Leads s) :
    s₀.Leads (s.homeRespond f status data cache) :=
  h.uncount.swSend

theorem State.Leads.homeFinish {f : Frame} {pos : Nat} {data : List Byte} {lines : List Nat} (h : s₀.Leads s) :
    s₀.Leads (s.homeFinish f pos data lines) := by
  have hm : s₀.Leads (s.mirrorLines lines).2 := h.mirrorLines
  unfold State.homeFinish
  dsimp only
  split
  · exact hm.onMem
  · exact hm.homeRespond

theorem State.Leads.homeAfterMirror {f : Frame} {pos : Nat} (h : s₀.Leads s) : s₀.Leads (s.homeAfterMirror f pos) := by
  unfold State.homeAfterMirror
  split
  · split
    · exact h.onMem
    · exact h.homeRespond
  · exact h.homeRespond

theorem State.Leads.releaseHeld {g upto : Nat} (h : s₀.Leads s) : s₀.Leads (s.releaseHeld g upto) := by
  unfold State.releaseHeld
  split
  · exact h
  · exact h.onMem.each fun _ _ hu => hu.uncount.swSend

theorem State.Leads.logInput {f : Frame} {home src agent : Nat} {data : List Byte} (h : s₀.Leads s) : s₀.Leads (s.logInput f home src agent data) :=
  h.ite h.putLedger.noteHigh

theorem State.Leads.logTicker {f : Frame} {tNew v : Nat} {fromOperand : Bool} (h : s₀.Leads s) : s₀.Leads (s.logTicker f tNew v fromOperand) :=
  h.ledgerAdd

theorem State.Leads.fenceChannelBase {c : Nat} (h : s₀.Leads s) : s₀.Leads (s.fenceChannelBase c) :=
  h.ite h.onMem.record.onMem

theorem State.Leads.sendBackInv {l h' slot : Nat} (h : s₀.Leads s) : s₀.Leads (s.sendBackInv l h' slot) :=
  h.swSend

theorem State.Leads.backInvLine {l : Nat} (h : s₀.Leads s) : s₀.Leads (s.backInvLine l) := by
  unfold State.backInvLine
  split
  · exact h.ite (h.putBusy.each fun _ _ hu => hu.sendBackInv)
  · exact h

theorem State.Leads.fenceChannel {c : Nat} (h : s₀.Leads s) : s₀.Leads (s.fenceChannel c) :=
  h.fenceChannelBase.each fun _ _ h => h.backInvLine

theorem State.Leads.retirePage {c page : Nat} (h : s₀.Leads s) : s₀.Leads (s.retirePage c page) :=
  h.ite (h.fenceChannel.ite h.onMem.count.record)

theorem State.Leads.eccSeen {l : Nat} (h : s₀.Leads s) : s₀.Leads (s.eccSeen l) :=
  h.count.record.retirePage

theorem State.Leads.eccCorrected {l : Nat} (h : s₀.Leads s) : s₀.Leads (s.eccCorrected l) :=
  h.count.onMem.retirePage.ite h.count.onMem

theorem State.Leads.correctLine {l : Nat} (h : s₀.Leads s) : s₀.Leads (s.correctLine l) := by
  unfold State.correctLine
  refine h.ite ?_
  split
  · exact h.onLine.eccCorrected
  · exact h

theorem State.Leads.lineRead {l : Nat} (h : s₀.Leads s) : s₀.Leads (s.lineRead l) :=
  h.ite (h.eccSeen.ite h.correctLine)

theorem State.Leads.fetchLine {l slot : Nat} (h : s₀.Leads s) : s₀.Leads (s.fetchLine l slot).2 :=
  h.correctLine.readLine

theorem State.Leads.readRange {f : Frame} (h : s₀.Leads s) : s₀.Leads (s.readRange f).2 := by
  unfold State.readRange
  split
  · refine List.foldlRecOn (motive := fun a : Option (List Byte) × State => s₀.Leads a.2) f.lines _ h fun a ha l _ => ?_
    dsimp only
    split
    · exact ha
    · split
      · next e => exact (ha.fetchLine.of_eq e).eccSeen
      · next e => exact ha.fetchLine.of_eq e
  · split
    · exact h
    · exact h

theorem State.Leads.partsReadable {f : Frame} (h : s₀.Leads s) : s₀.Leads (s.partsReadable f).2 := by
  unfold State.partsReadable
  split
  · refine List.foldlRecOn (motive := fun a : Bool × State => s₀.Leads a.2) f.lines _ h fun a ha l _ => ?_
    split
    · exact ha
    · split
      · next e => exact (ha.fetchLine.of_eq e).eccSeen
      · next e => exact ha.fetchLine.of_eq e
  · exact h

theorem State.Leads.writeRange {f : Frame} {data : List Byte} (h : s₀.Leads s) : s₀.Leads (s.writeRange f data) := by
  unfold State.writeRange
  split
  · refine h.each fun u l hu => ?_
    dsimp only
    split
    · exact hu.writeLine
    · split
      · next e => exact hu.fetchLine.of_eq e
      · next e => exact (hu.fetchLine.of_eq e).writeLine
  · exact h.onHome fun _ => Memory.wf_writeN _ _

theorem State.Leads.refuse {f : Frame} {r : Nat × Bool} (h : s₀.Leads s) : s₀.Leads (s.refuse f r) :=
  (((h.record.ite h).count.putSlot.ite (h.record.ite h).count).ite (h.record.ite h)).homeRespond

theorem State.Leads.performRead {f : Frame} {cache : Nat} (h : s₀.Leads s) : s₀.Leads (s.performRead f cache) := by
  unfold State.performRead
  split
  · next x1 x2 e3 =>
      have k1 := h.readRange.of_eq e3
      exact k1.homeRespond
  · next x1 x2 x3 e4 =>
      have k1 := h.readRange.of_eq e4
      exact k1.homeRespond

theorem State.Leads.performWrite {f : Frame} {pos : Nat} (h : s₀.Leads s) : s₀.Leads (s.performWrite f pos) := by
  unfold State.performWrite
  split
  · next x1 x2 e3 =>
      have k1 := h.partsReadable.of_eq e3
      exact k1.homeRespond
  · next x1 x2 e3 =>
      have k1 := h.partsReadable.of_eq e3
      exact (k1.writeRange.logInput.ite k1.writeRange).homeFinish

theorem State.Leads.performAtomic {f : Frame} {pos : Nat} (h : s₀.Leads s) : s₀.Leads (s.performAtomic f pos) := by
  unfold State.performAtomic
  dsimp only
  split
  · next x1 x2 e3 =>
      have k1 := h.readRange.of_eq e3
      exact k1.homeRespond
  · next x1 x2 x3 e4 =>
      have k1 := h.readRange.of_eq e4
      refine .homeFinish ?_
      split
      · exact k1.writeRange.logTicker
      · exact k1.writeRange

theorem State.Leads.performDeposit {f : Frame} {pos : Nat} (h : s₀.Leads s) : s₀.Leads (s.performDeposit f pos) :=
  h.writeRange.homeFinish.ite h.writeRange.mirrorLines.putBusy.swSend

theorem State.Leads.sendSnoop {l h' kind slot : Nat} {f : Frame} (h : s₀.Leads s) : s₀.Leads (s.sendSnoop l h' kind slot f) :=
  h.swSend

theorem State.Leads.ask {pos : Nat} {f : Frame} {e : DirEntry} {targets : List (Nat × Nat)} {b : Busy} (h : s₀.Leads s) :
    s₀.Leads (s.ask pos f e targets b) :=
  h.putBusy.each fun _ _ h => h.sendSnoop

theorem State.Leads.retryLater {pos : Nat} {f : Frame} (h : s₀.Leads s) : s₀.Leads (s.retryLater pos f) :=
  h.onUnit

theorem State.Leads.retryFirst {pos : Nat} {f : Frame} (h : s₀.Leads s) : s₀.Leads (s.retryFirst pos f) :=
  h.onUnit

theorem State.Leads.evictFor {f : Frame} (h : s₀.Leads s) : s₀.Leads (s.evictFor f) := by
  unfold State.evictFor
  refine h.ite ?_
  split
  · exact h.backInvLine
  · exact h

theorem State.Leads.grant {pos : Nat} {f : Frame} {cache : Nat} {next : DirEntry} (h : s₀.Leads s) : s₀.Leads (s.grant pos f cache next) := by
  unfold State.grant
  refine h.putBusy.homeRespond.ite ?_
  split
  · next x1 x2 e3 =>
      have k1 := h.readRange.of_eq e3
      exact k1.homeRespond
  · next x1 x2 x3 e4 =>
      have k1 := h.readRange.of_eq e4
      exact k1.putBusy.homeRespond

theorem State.Leads.serveGrant {pos : Nat} {f : Frame} (h : s₀.Leads s) : s₀.Leads (s.serveGrant pos f) := by
  unfold State.serveGrant
  dsimp only
  split
  · exact h.homeRespond.ite h.grant
  · refine h.ask.ite (.ite (.ite ?_ ?_) (.ite ?_ (h.homeRespond.ite ?_)))
    · split
      · exact h.ask
      · exact h
    · split
      · exact h.grant
      · exact h.ask
    · split
      · exact h.grant.ite h.ask
      · exact h.ask
    · split
      · exact h.grant.ite h.ask
      · exact h.grant.ite h.ask

theorem State.Leads.serveOpen {pos : Nat} {f : Frame} (h : s₀.Leads s) : s₀.Leads (s.serveOpen pos f) := by
  unfold State.serveOpen
  refine (h.homeRespond.ite h.serveGrant).ite ?_
  split
  · exact h.ask
  · exact h.homeRespond.ite (h.performRead.ite (h.performAtomic.ite (h.performDeposit.ite h.performWrite)))

theorem State.Leads.serve {pos : Nat} {f : Frame} (h : s₀.Leads s) : s₀.Leads (s.serve pos f) := by
  unfold State.serve
  split
  · exact h.refuse
  · exact h.serveOpen

theorem State.Leads.takeBackDue (h : s₀.Leads s) : s₀.Leads s.takeBackDue :=
  h.each fun _ _ h => (h.putSlot.ite h).backInvLine

theorem State.Leads.workMemory {off : Nat} (h : s₀.Leads s) : s₀.Leads (s.workMemory off) :=
  h.trans (State.workMemory_sent _ _).leads

theorem State.Leads.noteArrival {f : Frame} (h : s₀.Leads s) : s₀.Leads (s.noteArrival f) :=
  h.ite h.onMem

theorem State.Leads.noteStep {pos : Nat} {f : Frame} {begins : Bool} (h : s₀.Leads s) : s₀.Leads (s.noteStep pos f begins) :=
  h.onUnit

theorem State.Leads.noteMode {f : Frame} (h : s₀.Leads s) : s₀.Leads (s.noteMode f) :=
  h.ifThen fun _ h => h.record

theorem State.Leads.takeInbox {o : Nat} {f : Frame} (h : s₀.Leads s) : s₀.Leads (s.takeInbox o f) :=
  h.trans (State.takeInbox_sent _ _ _).leads

theorem State.Leads.receive {f : Frame} (h : s₀.Leads s) : s₀.Leads (s.receive f) :=
  h.takeInbox.noteMode

theorem State.Leads.homeRequest {pos : Nat} {f : Frame} (h : s₀.Leads s) : s₀.Leads (s.homeRequest pos f) := by
  unfold State.homeRequest
  dsimp only
  split
  · exact h.workMemory.receive.refuse
  · exact (h.workMemory.noteArrival.noteStep.ite (h.workMemory.noteArrival.noteStep.receive.retryLater.ifThen fun _ hu => hu.evictFor)).ite
      h.workMemory.noteArrival.noteStep.receive.serveOpen

theorem State.Leads.unqueue {u : Nat} {x : Waiting} (h : s₀.Leads s) : s₀.Leads (s.unqueue u x) :=
  h.onUnit

theorem State.Leads.evictWaiting {u : Nat} (h : s₀.Leads s) : s₀.Leads (s.evictWaiting u) :=
  h.each fun _ _ h => h.ifThen fun _ hu => hu.evictFor

theorem State.Leads.lineOperation {u : Nat} (h : s₀.Leads s) : s₀.Leads (s.lineOperation u) := by
  unfold State.lineOperation
  refine .onUnit (.evictWaiting ?_)
  dsimp only
  split
  · exact h
  · exact (h.onUnit.ite h).unqueue.serve.each fun _ _ hu => hu.ite hu.unqueue.serve

theorem State.Leads.advance {l : Nat} (h : s₀.Leads s) : s₀.Leads (s.advance l) := by
  unfold State.advance
  split
  · exact h
  · refine h.ite ?_
    split
    · exact h.endBusy.retryFirst.ite h.endBusy.serve
    · exact h.putBusy.homeRespond
    · refine (h.endBusy.uncount.loseLine.ite h.endBusy.uncount).ite (.ite ?_ h)
      dsimp only
      split
      · exact h.endBusy.uncount.putEntry
      · exact h.endBusy.uncount
    · exact h.freeEntry.endBusy
    · exact h
    · exact h

theorem State.Leads.noteAnswer {l h' result : Nat} (h : s₀.Leads s) : s₀.Leads (s.noteAnswer l h' result) := by
  unfold State.noteAnswer
  split
  · exact h
  · split
    · exact h
    · refine ((h.dropHolder.ite (.ite ?_ ?_)).ite (h.ite h.dropHolder)).putBusy
      · split
        · exact h.putEntry
        · exact h
      · split
        · exact h.putEntry
        · exact h

theorem State.Leads.answer {l h' result : Nat} (h : s₀.Leads s) : s₀.Leads (s.answer l h' result) :=
  h.noteAnswer.advance

theorem State.Leads.homeSnoopRsp {f : Frame} (h : s₀.Leads s) : s₀.Leads (s.homeSnoopRsp f) :=
  h.ite h.answer

theorem State.Leads.storeBack {l slot : Nat} {data : List Byte} (h : s₀.Leads s) : s₀.Leads (s.storeBack l slot data) :=
  h.ite h.writeLine

theorem State.Leads.homeFwdData {f : Frame} (h : s₀.Leads s) : s₀.Leads (s.homeFwdData f) := by
  unfold State.homeFwdData
  dsimp only
  split
  · exact h.storeBack.ite h
  · exact h

theorem State.Leads.homeWriteback {f : Frame} (h : s₀.Leads s) : s₀.Leads (s.homeWriteback f) := by
  unfold State.homeWriteback
  dsimp only
  split
  · refine .ite ?_ h.count
    split
    · exact h.storeBack.dropHolder
    · exact h.storeBack.answer.ite h.storeBack
  · exact h.count

theorem State.Leads.homeCohAck {f : Frame} (h : s₀.Leads s) : s₀.Leads (s.homeCohAck f) := by
  unfold State.homeCohAck
  dsimp only
  split
  · exact h
  · split
    · refine h.ite (.homeAfterMirror (.ite ?_ h.endBusy))
      split
      · exact h.endBusy.putEntry
      · exact h.endBusy
    · refine h.ite (h.endBusy.ite ?_)
      split
      · exact h.endBusy.putEntry
      · exact h.endBusy
    · exact h.ite h.putBusy.advance
    · exact h

theorem State.Leads.loseBusy {h' : Nat} {b : Busy} (h : s₀.Leads s) : s₀.Leads (s.loseBusy h' b) := by
  unfold State.loseBusy
  dsimp only
  split
  · split
    · exact h.putBusy.endBusy.ite h.putBusy
    · exact h.putBusy.putBusy.ite h.putBusy
    · exact h.putBusy.endBusy.homeAfterMirror.ite h.putBusy
    · exact h.putBusy.putBusy.ite h.putBusy
    · exact h.putBusy
  · refine .ite (.ite (.ite (.loseLine (.endBusy ?_)) (.ite (.uncount (.loseLine (.endBusy ?_))) (.homeRespond (.loseLine (.endBusy ?_)))))
      (.noteAnswer ?_)) ?_
    · split
      · exact h.putBusy.endBusy.ite h.putBusy
      · exact h.putBusy.putBusy.ite h.putBusy
      · exact h.putBusy.endBusy.homeAfterMirror.ite h.putBusy
      · exact h.putBusy.putBusy.ite h.putBusy
      · exact h.putBusy
    · split
      · exact h.putBusy.endBusy.ite h.putBusy
      · exact h.putBusy.putBusy.ite h.putBusy
      · exact h.putBusy.endBusy.homeAfterMirror.ite h.putBusy
      · exact h.putBusy.putBusy.ite h.putBusy
      · exact h.putBusy
    · split
      · exact h.putBusy.endBusy.ite h.putBusy
      · exact h.putBusy.putBusy.ite h.putBusy
      · exact h.putBusy.endBusy.homeAfterMirror.ite h.putBusy
      · exact h.putBusy.putBusy.ite h.putBusy
      · exact h.putBusy
    · split
      · exact h.putBusy.endBusy.ite h.putBusy
      · exact h.putBusy.putBusy.ite h.putBusy
      · exact h.putBusy.endBusy.homeAfterMirror.ite h.putBusy
      · exact h.putBusy.putBusy.ite h.putBusy
      · exact h.putBusy
    · split
      · exact h.putBusy.endBusy.ite h.putBusy
      · exact h.putBusy.putBusy.ite h.putBusy
      · exact h.putBusy.endBusy.homeAfterMirror.ite h.putBusy
      · exact h.putBusy.putBusy.ite h.putBusy
      · exact h.putBusy

theorem State.Leads.loseEntry {h' l : Nat} (h : s₀.Leads s) : s₀.Leads (s.loseEntry h' l) := by
  unfold State.loseEntry
  split
  · exact h
  · refine .ite ?_ (h.dropHolder.ite h)
    split
    · exact h.loseLine
    · dsimp only
      split
      · exact h.endBusy.loseLine.homeRespond
      · exact h.endBusy.loseLine.homeRespond
      · exact h.endBusy.loseLine.uncount

theorem State.Leads.loseHolder {h' : Nat} (h : s₀.Leads s) : s₀.Leads (s.loseHolder h') :=
  ((h.each fun _ _ h => h.loseBusy).each fun _ _ h => h.loseEntry).onHome.each fun _ _ h => h.advance

/-! #### The functions of Machine/Mgmt.lean -/

theorem State.Leads.mgmtOut {d : Dev} {p msub tag : Nat} {data : List Byte} (h : s₀.Leads s) : s₀.Leads (s.mgmtOut d p msub tag data) := by
  unfold State.mgmtOut
  split
  · exact h.swSendPort
  · exact h.epSend

theorem State.Leads.sendConfirm {d : Dev} {p tag : Nat} (h : s₀.Leads s) : s₀.Leads (s.sendConfirm d p tag) :=
  h.mgmtOut

theorem State.Leads.putSeen {d : Dev} {l : List (Nat × List Byte)} (h : s₀.Leads s) : s₀.Leads (s.putSeen d l) := by
  unfold State.putSeen
  split
  · exact h.onSw
  · exact h.onEp

theorem State.Leads.sendPast {d : Dev} {past : List Nat} {msub : Nat} {data : List Byte} (h : s₀.Leads s) : s₀.Leads (s.sendPast d past msub data) :=
  h.each fun _ _ h => h.mgmtOut

theorem State.Leads.sendOn {d : Dev} {came : Option Nat} {msub : Nat} {data : List Byte} (h : s₀.Leads s) : s₀.Leads (s.sendOn d came msub data) :=
  h.sendPast

theorem State.Leads.floodPast {d : Dev} {past : List Nat} {msub : Nat} {data : List Byte} (h : s₀.Leads s) : s₀.Leads (s.floodPast d past msub data)
    :=
  h.ite h.putSeen.sendPast

theorem State.Leads.flood {d : Dev} {came : Option Nat} {msub : Nat} {data : List Byte} (h : s₀.Leads s) : s₀.Leads (s.flood d came msub data) :=
  h.floodPast

theorem State.Leads.onSched {d : Dev} {g : Sched → Sched} (h : s₀.Leads s) : s₀.Leads (s.onSched d g) := by
  unfold State.onSched
  split
  · exact h.onSw
  · exact h.onEp

theorem State.Leads.onClock {d : Dev} {g : Clock → Clock} (h : s₀.Leads s) : s₀.Leads (s.onClock d g) := by
  unfold State.onClock
  split
  · exact h.onSw
  · exact h.onEp

theorem State.Leads.onGate {d : Dev} {p : Nat} {g : GatePos → GatePos} (h : s₀.Leads s) : s₀.Leads (s.onGate d p g) := by
  unfold State.onGate
  split
  · exact h.onSw
  · exact h.onEp

theorem State.Leads.closePort {d : Dev} {p : Nat} (h : s₀.Leads s) : s₀.Leads (s.closePort d p) :=
  h.onGate

theorem State.Leads.closeGates {d : Dev} (h : s₀.Leads s) : s₀.Leads (s.closeGates d) :=
  h.each fun _ _ h => h.closePort

theorem State.Leads.takeBook {d : Dev} {b : Nat} (h : s₀.Leads s) : s₀.Leads (s.takeBook d b) := by
  unfold State.takeBook
  refine h.ite ?_
  dsimp only
  split
  · exact h.onSched.setEvent
  · exact h.onSched

theorem State.Leads.sendBookSet {d : Dev} {p : Nat} {c : BookChange} {n : Nat} (h : s₀.Leads s) : s₀.Leads (s.sendBookSet d p c n) :=
  h.onSched.mgmtOut

theorem State.Leads.changeBook {b : Nat} (h : s₀.Leads s) : s₀.Leads (s.changeBook b) :=
  (h.onSched.takeBook.ite h.onSched).each fun _ _ h => h.sendBookSet

theorem State.Leads.decideBook {held : Bool} (h : s₀.Leads s) : s₀.Leads (s.decideBook held) :=
  h.ite (h.changeBook.ite h)

theorem State.Leads.noteReport {sender : Nat} {slow narrow : Bool} (h : s₀.Leads s) : s₀.Leads (s.noteReport sender slow narrow) :=
  h.onSched.decideBook

theorem State.Leads.reportNeeds (h : s₀.Leads s) : s₀.Leads s.reportNeeds :=
  h.noteReport.ite h.noteReport.flood

theorem State.Leads.refreshNarrow (h : s₀.Leads s) : s₀.Leads s.refreshNarrow :=
  h.ite h.onSched.reportNeeds

theorem State.Leads.setLate {d : Dev} (h : s₀.Leads s) : s₀.Leads (s.setLate d) := by
  unfold State.setLate
  split
  · exact h.onSw.setEvent
  · exact h.onEp

theorem State.Leads.takeChange {d : Dev} {c : BookChange} (h : s₀.Leads s) : s₀.Leads (s.takeChange d c) := by
  unfold State.takeChange
  split
  · exact h.takeBook
  · refine h.onSched.ite ?_
    dsimp only
    split
    · exact h.onSched.closeGates.setLate.record
    · exact h.onSched.closeGates.setLate

theorem State.Leads.bookSetArrives {d : Dev} {p : Nat} {c : BookChange} (h : s₀.Leads s) : s₀.Leads (s.bookSetArrives d p c) :=
  h.mgmtOut.ite (h.mgmtOut.onSched.each fun _ _ h => h.sendBookSet).takeChange

/-! #### The functions of Machine/Gates.lean -/

theorem State.Leads.nextEntry {d : Dev} {p : Nat} (h : s₀.Leads s) : s₀.Leads (s.nextEntry d p) := by
  unfold State.nextEntry
  exact h.onGate

theorem State.Leads.realign {d : Dev} (h : s₀.Leads s) : s₀.Leads (s.realign d) := by
  unfold State.realign
  split
  · exact h
  · exact h.onSched.each fun _ _ hu => hu.onGate

/-! #### The functions of Machine/EpBase.lean -/

theorem State.Leads.epAlert (h : s₀.Leads s) : s₀.Leads s.epAlert :=
  h.ite h.onEp.emit

theorem State.Leads.epEvent {b : Nat} (h : s₀.Leads s) : s₀.Leads (s.epEvent b) :=
  h.onEp.epAlert

theorem State.Leads.epLeave {p : Nat} {f : Frame} (h : s₀.Leads s) : s₀.Leads (s.epLeave p f) :=
  h.onEp.emit

theorem State.Leads.drainQueue {p cls fuel : Nat} (h : s₀.Leads s) : s₀.Leads (s.drainQueue p cls fuel) := by
  induction fuel generalizing s with
  | zero => exact h
  | succ fuel ih =>
    unfold State.drainQueue
    split
    · exact h
    · exact (ih h.epLeave).ite h

theorem State.Leads.epWake {p : Nat} (h : s₀.Leads s) : s₀.Leads (s.epWake p) :=
  h.putLink.ite (h.putLink.emit.ite h)

theorem State.Leads.epChime {p : Nat} (h : s₀.Leads s) : s₀.Leads (s.epChime p) :=
  h.emit.epWake.ite h

theorem State.Leads.epDrain (h : s₀.Leads s) : s₀.Leads s.epDrain :=
  (h.each fun _ _ h => h.epChime).each fun _ _ h => h.each fun _ _ hu => hu.drainQueue

theorem State.Leads.epTake {p : Nat} {f : Frame} {g : State → State} (h : s₀.Leads s) (hg : ∀ u, s₀.Leads u → s₀.Leads (g u)) :
    s₀.Leads (s.epTake p f g) :=
  h.ite ((hg _ h.emit).ite h.emit)

theorem State.Leads.dropEpFlight {p t : Nat} (h : s₀.Leads s) : s₀.Leads (s.dropEpFlight p t) :=
  h.onEp

theorem State.Leads.launch {x : EpFlight} (h : s₀.Leads s) : s₀.Leads (s.launch x) :=
  h.onEp.epSend

theorem State.Leads.withdraw {x : EpFlight} (h : s₀.Leads s) : s₀.Leads (s.withdraw x) := by
  unfold State.withdraw
  exact h.onEp

theorem State.Leads.epLookup {a cva : Nat} (h : s₀.Leads s) : s₀.Leads (s.epLookup a cva).2 := by
  unfold State.epLookup
  dsimp only
  split
  · exact .pair h.onEp
  · split
    · exact .pair h.onEp
    · exact h

theorem State.Leads.epHold {a ctx : Nat} {d : Desc} (h : s₀.Leads s) : s₀.Leads (s.epHold a ctx d) := by
  unfold State.epHold
  exact h.onEp

theorem State.Leads.epMiss {who : EpWaiter} {a cva : Nat} (h : s₀.Leads s) : s₀.Leads (s.epMiss who a cva).2 := by
  unfold State.epMiss
  dsimp only
  split
  · exact .pair h.onEp
  · split
    · exact h
    · exact h.launch

theorem State.Leads.epUnreachable (h : s₀.Leads s) : s₀.Leads s.epUnreachable :=
  h.onEp.ite h

/-! #### The functions of Machine/EpCache.lean -/

theorem State.Leads.putWay {w : Way} (h : s₀.Leads s) : s₀.Leads (s.putWay w) :=
  h.onEp

theorem State.Leads.onWay {fga : Nat} {g : Way → Way} (h : s₀.Leads s) : s₀.Leads (s.onWay fga g) :=
  h.onEp

theorem State.Leads.touch {fga : Nat} (h : s₀.Leads s) : s₀.Leads (s.touch fga) := by
  unfold State.touch
  split
  · exact h.putWay
  · exact h

theorem State.Leads.dropWay {fga : Nat} {back : Bool} (h : s₀.Leads s) : s₀.Leads (s.dropWay fga back) := by
  unfold State.dropWay
  split
  · exact h
  · exact h.onEp.onEp.epSend.ite h.onEp

theorem State.Leads.cohRoom {fga : Nat} (h : s₀.Leads s) : s₀.Leads (s.cohRoom fga) := by
  unfold State.cohRoom
  refine h.ite ?_
  split
  · exact h.dropWay
  · exact h

theorem State.Leads.unreserve {fga : Nat} (h : s₀.Leads s) : s₀.Leads (s.unreserve fga) :=
  h.onEp

theorem State.Leads.setRoom {fga : Nat} (h : s₀.Leads s) : s₀.Leads (s.setRoom fga) := by
  unfold State.setRoom
  refine h.ite ?_
  split
  · exact h.dropWay
  · exact h

theorem State.Leads.reserve {fga : Nat} (h : s₀.Leads s) : s₀.Leads (s.reserve fga) := by
  unfold State.reserve
  exact (h.cohRoom.ite h.cohRoom.setRoom).onEp

theorem State.Leads.install {w : Way} (h : s₀.Leads s) : s₀.Leads (s.install w) :=
  (h.cohRoom.ite h).onEp.setRoom.putWay

theorem State.Leads.spoil {p : EpFlight → Bool} (h : s₀.Leads s) : s₀.Leads (s.spoil p) :=
  h.onEp

theorem State.Leads.passed {fga : Nat} (h : s₀.Leads s) : s₀.Leads (s.passed fga) :=
  h.spoil

theorem State.Leads.discardLines {p : Way → Bool} (h : s₀.Leads s) : s₀.Leads (s.discardLines p) :=
  h.onEp

theorem State.Leads.advanceGen {part : Nat} (h : s₀.Leads s) : s₀.Leads (s.advanceGen part) :=
  h.onEp.onEp.ite h.onEp

theorem State.Leads.snoopRsp {p : Nat} {f : Frame} {fga result : Nat} (h : s₀.Leads s) : s₀.Leads (s.snoopRsp p f fga result) :=
  h.epSend

theorem State.Leads.answerSnoop {p : Nat} {f : Frame} (h : s₀.Leads s) : s₀.Leads (s.answerSnoop p f) := by
  unfold State.answerSnoop
  dsimp only
  split
  · exact h.snoopRsp
  · exact (h.dropWay.ite h.dropWay.snoopRsp).ite (h.dropWay.snoopRsp.ite ((h.epSend.onWay.snoopRsp.ite h.epSend.dropWay.snoopRsp).ite
      (h.epSend.onWay.snoopRsp.ite h.epSend.dropWay.snoopRsp)))

theorem State.Leads.snoopArrives {p : Nat} {f : Frame} (h : s₀.Leads s) : s₀.Leads (s.snoopArrives p f) :=
  h.onEp.ite h.answerSnoop

theorem State.Leads.holdEnd {fga : Nat} (h : s₀.Leads s) : s₀.Leads (s.holdEnd fga) :=
  h.onWay.onEp.each fun _ _ h => h.answerSnoop

theorem State.Leads.freeForFill {fga : Nat} (h : s₀.Leads s) : s₀.Leads (s.freeForFill fga) := by
  unfold State.freeForFill
  refine h.ite ?_
  split
  · exact h.dropWay
  · exact h

theorem State.Leads.depositFill {p : Nat} {f : Frame} (h : s₀.Leads s) : s₀.Leads (s.depositFill p f) := by
  unfold State.depositFill
  dsimp only
  split
  · exact h.epSend
  · exact (h.freeForFill.install.ifThen fun _ hu => hu.discardLines).epSend.ite h.epSend

theorem State.Leads.fillFrom {x : EpFlight} {rsp : Frame} (h : s₀.Leads s) : s₀.Leads (s.fillFrom x rsp) := by
  unfold State.fillFrom
  refine h.unreserve.ite ?_
  dsimp only
  split
  · refine .ite (.epSend (.ite ?_ (h.unreserve.install.ite h.unreserve))) (.ite ?_ (h.unreserve.install.ite h.unreserve))
    · split
      · exact h.unreserve.install.ite h.unreserve
      · exact h.unreserve
    · split
      · exact h.unreserve.install.ite h.unreserve
      · exact h.unreserve
  · refine .ite (.epSend (.ite ?_ (h.unreserve.install.ite h.unreserve))) (.ite ?_ (h.unreserve.install.ite h.unreserve))
    · split
      · exact h.unreserve.install.ite h.unreserve
      · exact h.unreserve
    · split
      · exact h.unreserve.install.ite h.unreserve
      · exact h.unreserve
  · refine .ite (.epSend (.ite ?_ (h.unreserve.install.ite h.unreserve))) (.ite ?_ (h.unreserve.install.ite h.unreserve))
    · split
      · exact h.unreserve.install.ite h.unreserve
      · exact h.unreserve
    · split
      · exact h.unreserve.install.ite h.unreserve
      · exact h.unreserve
  · exact h.unreserve.ite h.unreserve.install
  · exact h.unreserve.ite h.unreserve.install
  · exact h.unreserve

/-! #### The functions of Machine/EpReq.lean -/

theorem State.Leads.onReq {order : Nat} {g : EpReq → EpReq} (h : s₀.Leads s) : s₀.Leads (s.onReq order g) :=
  h.onEp

theorem State.Leads.onPiece {order i : Nat} {g : Piece → Piece} (h : s₀.Leads s) : s₀.Leads (s.onPiece order i g) :=
  h.onReq

theorem State.Leads.endPiece {order i status : Nat} {rsp : List Byte} (h : s₀.Leads s) : s₀.Leads (s.endPiece order i status rsp) :=
  h.onPiece

theorem State.Leads.noteFailed {a cls order status : Nat} (h : s₀.Leads s) : s₀.Leads (s.noteFailed a cls order status) := by
  unfold State.noteFailed
  exact h.onEp

theorem State.Leads.endReq {q : EpReq} {status : Nat} {data : List Byte} (h : s₀.Leads s) : s₀.Leads (s.endReq q status data) :=
  (h.onEp.noteFailed.ite h.onEp).emit.ite h.onReq

theorem State.Leads.completeReq {q : EpReq} (h : s₀.Leads s) : s₀.LeadsAny (s.completeReq q) :=
  h.endReq.some.ite .none

theorem State.Leads.cover {a : Nat} {op : ReqOp} {l : List Piece} (h : s₀.Leads s) : s₀.Leads (s.cover a op l).2 := by
  induction l generalizing s with
  | nil => exact h
  | cons p t ih =>
    unfold State.cover
    split
    · next e => exact h.epLookup.of_eq e
    · next e =>
      have k := h.epLookup.of_eq e
      split
      · exact k
      · split
        · next e' => exact (ih k).of_eq e'
        · exact ih k

theorem State.Leads.checkReq {q : EpReq} (h : s₀.Leads s) : s₀.LeadsAny (s.checkReq q) := by
  unfold State.checkReq
  refine .ite .none (h.endReq.some.ite (h.endReq.some.ite ?_))
  split
  · next x1 x2 x3 x4 e5 =>
      have k1 := h.cover.of_eq e5
      exact (k1.ifThen fun _ hu => hu.epEvent).endReq.some
  · next x1 x2 x3 e4 =>
      have k1 := h.cover.of_eq e4
      split
      · next x1 x2 e3 =>
          have k2 := k1.epMiss.of_eq e3
          exact k2.endReq.some
      · next x1 x2 e3 =>
          have k2 := k1.epMiss.of_eq e3
          exact k2.onReq.some
      · next x1 x2 e3 =>
          have k2 := k1.epMiss.of_eq e3
          exact .none
  · next x1 x2 x3 e4 =>
      have k1 := h.cover.of_eq e4
      exact k1.onReq.some.ite k1.endReq.some

theorem State.Leads.epReq {r : Req} {for_ : ReqFor} (h : s₀.Leads s) : s₀.Leads (s.epReq r for_) :=
  h.onEp.endReq.ite (h.onEp.endReq.ite h.onEp)

theorem State.Leads.sendPiece {q : EpReq} {i : Nat} {p : Piece} {d : Desc} {kind : FlightKind} {typ : Nat} {whole : Bool} (h : s₀.Leads s) :
    s₀.LeadsAny (s.sendPiece q i p d kind typ whole) := by
  unfold State.sendPiece
  dsimp only
  split
  · exact .none
  · exact h.launch.onPiece.some

theorem State.Leads.storeHere {q : EpReq} {i : Nat} {p : Piece} (h : s₀.Leads s) : s₀.Leads (s.storeHere q i p) :=
  h.touch.onWay.endPiece

theorem State.Leads.storeCoherent {q : EpReq} {i : Nat} {p : Piece} {d : Desc} (h : s₀.Leads s) : s₀.LeadsAny (s.storeCoherent q i p d) :=
  h.sendPiece.ite (.ite .none (h.storeHere.some.ite (h.onPiece.some.ite (.ite .none (h.reserve.sendPiece.map fun _ h => h.onPiece)))))

theorem State.Leads.readHere {q : EpReq} {i : Nat} {p : Piece} {line : List Byte} (h : s₀.Leads s) : s₀.Leads (s.readHere q i p line) :=
  h.touch.endPiece

theorem State.Leads.beginRead {q : EpReq} {i : Nat} {p : Piece} {d : Desc} (h : s₀.Leads s) : s₀.LeadsAny (s.beginRead q i p d) := by
  unfold State.beginRead
  split
  · exact h.endPiece.some.ite .none
  · refine .ite .none (h.sendPiece.ite ?_)
    split
    · exact h.readHere.some
    · exact h.sendPiece.ite (.ite (.ite .none h.reserve.sendPiece) h.sendPiece)

theorem State.Leads.beginReadVol {q : EpReq} {i : Nat} {p : Piece} {d : Desc} (h : s₀.Leads s) : s₀.LeadsAny (s.beginReadVol q i p d) := by
  unfold State.beginReadVol
  refine .ite .none ?_
  split
  · exact h.readHere.some
  · exact h.sendPiece

theorem State.Leads.sendStore {q : EpReq} {i : Nat} {p : Piece} {d : Desc} {typ : Nat} (h : s₀.Leads s) : s₀.LeadsAny (s.sendStore q i p d typ) :=
  h.sendPiece.map fun _ h => h.onWay.passed

theorem State.Leads.beginWrite {q : EpReq} {i : Nat} {p : Piece} {d : Desc} (h : s₀.Leads s) : s₀.LeadsAny (s.beginWrite q i p d) :=
  (h.sendPiece.map fun _ h => h.discardLines.passed).ite (h.storeCoherent.ite h.sendStore)

theorem State.Leads.beginAtomic {q : EpReq} {i : Nat} {p : Piece} {d : Desc} (h : s₀.Leads s) : s₀.LeadsAny (s.beginAtomic q i p d) :=
  .ite .none (h.sendPiece.map fun _ h => h.discardLines.passed)

theorem State.Leads.askAgain {q : EpReq} {i : Nat} {p : Piece} (h : s₀.Leads s) : s₀.LeadsAny (s.askAgain q i p) := by
  unfold State.askAgain
  refine .ite .none ?_
  split
  · next x1 x2 x3 e4 =>
      have k1 := h.epLookup.of_eq e4
      exact k1.onPiece.some
  · next x1 x2 e3 =>
      have k1 := h.epLookup.of_eq e3
      split
      · next x1 x2 e3 =>
          have k2 := k1.epMiss.of_eq e3
          exact k2.endPiece.some
      · next x1 x2 e3 =>
          have k2 := k1.epMiss.of_eq e3
          exact k2.onReq.some
      · next x1 x2 e3 =>
          have k2 := k1.epMiss.of_eq e3
          exact .none

theorem State.Leads.startPiece {q : EpReq} {i : Nat} {p : Piece} (h : s₀.Leads s) : s₀.LeadsAny (s.startPiece q i p) := by
  unfold State.startPiece
  refine .ite .none ?_
  split
  · exact h.askAgain
  · split
    · exact (h.ifThen fun _ hv => hv.epEvent).endPiece.some
    · refine h.endPiece.some.ite (.ite .none (h.endPiece.some.ite ?_))
      split
      · exact h.beginRead
      · exact h.beginReadVol
      · exact h.beginWrite
      · exact h.sendStore
      · exact h.beginAtomic

theorem State.LeadsAny.firstSome {α : Type} {l : List α} {g : α → Option State} (hg : ∀ a, s₀.LeadsAny (g a)) : s₀.LeadsAny (firstSome l g) :=
  .findSome hg

theorem State.Leads.startReq {q : EpReq} (h : s₀.Leads s) : s₀.LeadsAny (s.startReq q) := by
  unfold State.startReq
  refine .ite .none ?_
  split
  · exact .ite .none h.endReq.some
  · exact .firstSome (fun _ => h.startPiece)

theorem State.Leads.fenceStep {f : EpFence} (h : s₀.Leads s) : s₀.LeadsAny (s.fenceStep f) :=
  .of_forall fun _ => ((h.onEp.ifThen fun _ h => h.onEp).ifThen fun _ h => h.advanceGen).emit.ite
    ((h.onEp.ifThen fun _ h => h.onEp).ifThen fun _ h => h.advanceGen).onEp

theorem State.Leads.reqStep (h : s₀.Leads s) : s₀.LeadsAny s.reqStep :=
  .orElse (.firstSome (fun _ => h.completeReq)) (.orElse (.firstSome (fun _ => h.fenceStep)) (.orElse (.firstSome (fun _ => h.checkReq)) (.firstSome
      (fun _ => h.startReq))))

theorem State.Leads.granted {x : EpFlight} {order i status : Nat} (h : s₀.Leads s) : s₀.Leads (s.granted x order i status) := by
  unfold State.granted
  refine h.endPiece.ite ?_
  split
  · exact h
  · exact h.onPiece.ite (h.storeHere.ite h.onPiece)

theorem State.Leads.epResponse {p : Nat} {f : Frame} (h : s₀.Leads s) : s₀.Leads (s.epResponse p f) := by
  unfold State.epResponse
  split
  · exact h
  · dsimp only
    split
    · exact h.fillFrom.dropEpFlight
    · exact h.fillFrom.dropEpFlight.granted
    · split
      · exact h.fillFrom.dropEpFlight
      · exact h.fillFrom.dropEpFlight.endPiece

theorem State.Leads.xlatDone {who : EpWaiter} {cva status : Nat} (h : s₀.Leads s) : s₀.Leads (s.xlatDone who cva status) := by
  unfold State.xlatDone
  split
  · exact h.onEp.ite (h.onEp.emit.ite h)
  · dsimp only
    split
    · exact h.onReq
    · exact h.onReq.ite (h.onReq.endReq.ite h.onReq.onReq)

theorem State.Leads.epTranslated {p : Nat} {f : Frame} (h : s₀.Leads s) : s₀.Leads (s.epTranslated p f) := by
  unfold State.epTranslated
  split
  · exact h
  · split
    · exact (h.dropEpFlight.epHold.ite h.dropEpFlight).xlatDone
    · exact h

theorem State.Leads.epAbandon {x : EpFlight} {status : Nat} (h : s₀.Leads s) : s₀.Leads (s.epAbandon x status) := by
  unfold State.epAbandon
  dsimp only
  split
  · exact h.unreserve.xlatDone
  · exact h.unreserve.endPiece
  · exact h.unreserve.endPiece

theorem State.Leads.epFlightTimeout {p tag : Nat} (h : s₀.Leads s) : s₀.Leads (s.epFlightTimeout p tag) := by
  unfold State.epFlightTimeout
  split
  · exact h
  · exact (h.dropEpFlight.ite h.withdraw).onEp.epAbandon

theorem State.Leads.epHeldTimeout {order : Nat} (h : s₀.Leads s) : s₀.Leads (s.epHeldTimeout order) := by
  unfold State.epHeldTimeout
  split
  · exact h
  · exact h.endReq.ite h.onReq

theorem State.Leads.epTimeout {p : Nat} {r : Timed} (h : s₀.Leads s) : s₀.Leads (s.epTimeout p r) := by
  unfold State.epTimeout
  split
  · exact h.epFlightTimeout
  · exact h.epHeldTimeout
  · exact h

theorem State.Leads.epFence {a utag : Nat} {kind : FenceKind} {scope : Scope} (h : s₀.Leads s) : s₀.Leads (s.epFence a utag kind scope) :=
  h.onEp

theorem State.Leads.bindAgent {a : Nat} {v : BitVec 64} (h : s₀.Leads s) : s₀.Leads (s.bindAgent a v) :=
  h.epEvent.ite h.onEp

/-! #### The functions of Machine/Synd.lean -/

theorem State.Leads.putSynd {i : Nat} {y : Synd} (h : s₀.Leads s) : s₀.Leads (s.putSynd i y) :=
  h.onSw

theorem State.Leads.putEpoch {i : Nat} {e : Epoch} (h : s₀.Leads s) : s₀.Leads (s.putEpoch i e) := by
  unfold State.putEpoch
  split
  · exact h.putSynd
  · exact h

theorem State.Leads.sendColl {y : Synd} {e : Epoch} {synd rank typ attempt check chunk status : Nat} (h : s₀.Leads s) :
    s₀.Leads (s.sendColl y e synd rank typ attempt check chunk status) := by
  unfold State.sendColl
  split
  · exact h
  · exact h.collSend

theorem State.Leads.sendCollSwitches {y : Synd} {e : Epoch} {synd typ attempt check chunk status : Nat} (h : s₀.Leads s) :
    s₀.Leads (s.sendCollSwitches y e synd typ attempt check chunk status) :=
  h.each fun _ _ h => h.collSend

theorem State.Leads.sendResult {y : Synd} {e : Epoch} {synd chunk attempt : Nat} {result : Operand} {all : List (Nat × Operand)} (h : s₀.Leads s) :
    s₀.Leads (s.sendResult y e synd chunk attempt result all) := by
  unfold State.sendResult
  refine h.each fun _ _ h => ?_
  split
  · exact h
  · exact h.each fun _ _ hu => hu.collSend

theorem State.Leads.sendPartial {y : Synd} {e : Epoch} {synd chunk attempt level k : Nat} {o : Operand} (h : s₀.Leads s) :
    s₀.Leads (s.sendPartial y e synd chunk attempt level k o) :=
  h.each fun _ _ h => h.collSend

theorem State.Leads.computeNow {y : Synd} {e : Epoch} {synd chunk : Nat} (h : s₀.Leads s) : s₀.Leads (s.computeNow y e synd chunk) := by
  unfold State.computeNow
  dsimp only
  split
  · exact (h.each fun _ _ hu => hu.sendPartial).putEpoch
  · exact (h.each fun _ _ hu => hu.sendPartial).putEpoch.sendResult

theorem State.Leads.collWait {synd number chunk at_ : Nat} (h : s₀.Leads s) : s₀.Leads (s.collWait synd number chunk at_) :=
  h.onEscrow

theorem State.Leads.collRun {synd number chunk n k : Nat} (h : s₀.Leads s) : s₀.Leads (s.collRun synd number chunk n k) :=
  h.onEscrow.each fun _ _ h => h.count

theorem State.Leads.computeChunk {synd number chunk : Nat} (h : s₀.Leads s) : s₀.Leads (s.computeChunk synd number chunk) := by
  unfold State.computeChunk
  split
  · exact h
  · split
    · exact h
    · refine h.ite (h.computeNow.ite ?_)
      split
      · exact h.collWait
      · exact h.collRun.computeNow.ite h.work.collWait

theorem State.Leads.collFail {synd number chunk : Nat} (h : s₀.Leads s) : s₀.Leads (s.collFail synd number chunk) := by
  unfold State.collFail
  dsimp only
  split
  · exact h.onEscrow
  · split
    · exact h.onEscrow
    · exact (h.onEscrow.each fun _ _ hv => hv.count.record).putEpoch

theorem State.Leads.collDispatch (h : s₀.Leads s) : s₀.Leads s.collDispatch :=
  h.each fun _ _ h => h.collFail.ite h.computeChunk

theorem State.Leads.closeEpoch {synd number : Nat} (h : s₀.Leads s) : s₀.Leads (s.closeEpoch synd number) := by
  unfold State.closeEpoch
  split
  · exact h
  · exact h.putSynd.onEscrow

theorem State.Leads.abortEpoch {synd number status : Nat} (h : s₀.Leads s) : s₀.Leads (s.abortEpoch synd number status) := by
  unfold State.abortEpoch
  split
  · exact h
  · split
    · exact h
    · exact (h.closeEpoch.each fun _ _ hv => hv.sendColl).sendCollSwitches

theorem State.Leads.abortFrom {synd number status : Nat} (h : s₀.Leads s) : s₀.Leads (s.abortFrom synd number status) := by
  unfold State.abortFrom
  split
  · exact h
  · refine h.abortEpoch.ite ?_
    split
    · exact h
    · exact h.putEpoch.onEscrow.collSend

theorem State.Leads.cutOff {p : Nat} (h : s₀.Leads s) : s₀.Leads (s.cutOff p) :=
  h.each fun _ _ h => h.each fun _ _ hu => (hu.abortEpoch.ite hu).ite (hu.ite (hu.closeEpoch.each fun _ _ hv => hv.sendColl))

theorem State.Leads.lossNotice {i : Nat} {y : Synd} (h : s₀.Leads s) : s₀.Leads (s.lossNotice i y) :=
  h.putEpoch.abortFrom

theorem State.Leads.loseMember {h' : Nat} {agent : Option Nat} (h : s₀.Leads s) : s₀.Leads (s.loseMember h' agent) := by
  unfold State.loseMember
  refine h.each fun _ _ h => ?_
  split
  · exact h
  · exact h.ite (h.putSynd.lossNotice.ite (h.putSynd.each fun _ _ hu => hu.abortFrom))

theorem State.Leads.collData {f : Frame} (h : s₀.Leads s) : s₀.Leads (s.collData f) := by
  unfold State.collData
  dsimp only
  split
  · exact h.takeInbox.count
  · exact h.takeInbox.count.ite (h.ite ((h.takeInbox.ite (h.takeInbox.each fun _ _ hu => hu.closeEpoch).counters).putEpoch.abortFrom.ite
      ((h.takeInbox.ite (h.takeInbox.each fun _ _ hu => hu.closeEpoch).counters).putEpoch.abortFrom.ite ((h.takeInbox.ite (h.takeInbox.each fun _ _
          hu => hu.closeEpoch).counters).ite ((h.takeInbox.ite (h.takeInbox.each fun _ _ hu => hu.closeEpoch).counters).putEpoch.abortFrom.ite
              (h.takeInbox.ite (h.takeInbox.each fun _ _ hu => hu.closeEpoch).counters).putEpoch.computeChunk)))))

theorem State.Leads.recallChunk {i : Nat} {y : Synd} {e : Epoch} {chunk a : Nat} (h : s₀.Leads s) : s₀.Leads (s.recallChunk i y e chunk a) :=
  (h.putEpoch.each fun _ _ h => h.sendColl).computeChunk

theorem State.Leads.settleChunk {i : Nat} {y : Synd} {e : Epoch} {chunk a : Nat} (h : s₀.Leads s) : s₀.Leads (s.settleChunk i y e chunk a) :=
  h.ite ((h.ledgerAdd.putEpoch.each fun _ _ h => h.sendColl).sendCollSwitches.closeEpoch.ite (h.ledgerAdd.putEpoch.each fun _ _ h =>
      h.sendColl).sendCollSwitches)

theorem State.Leads.collConfirm {f : Frame} (h : s₀.Leads s) : s₀.Leads (s.collConfirm f) := by
  unfold State.collConfirm
  dsimp only
  split
  · exact h.takeInbox.count
  · split
    · exact h.takeInbox.count
    · refine h.takeInbox.count.ite ?_
      split
      · exact h.takeInbox.ite ((h.takeInbox.putEpoch.settleChunk.ite h.takeInbox.putEpoch).ite (h.takeInbox.recallChunk.ite h.takeInbox.abortEpoch))
      · exact h.takeInbox

theorem State.Leads.forwardColl {y : Synd} {f : Frame} (h : s₀.Leads s) : s₀.Leads (s.forwardColl y f) := by
  unfold State.forwardColl
  refine (h.each fun _ _ h => ?_).each fun _ _ h => ?_
  · dsimp only
    split
    · exact h
    · exact h.collSend
  · dsimp only
    split
    · exact h
    · exact h.collSend

theorem State.Leads.collFromRoot {f : Frame} (h : s₀.Leads s) : s₀.Leads (s.collFromRoot f) := by
  unfold State.collFromRoot
  dsimp only
  split
  · exact h.takeInbox.count
  · refine .forwardColl ?_
    split
    · exact h.takeInbox.closeEpoch.ite h.takeInbox
    · exact (h.takeInbox.putEpoch.closeEpoch.ite h.takeInbox.putEpoch).ite ((h.takeInbox.ite h.takeInbox.putEpoch.computeChunk).ite
        (h.takeInbox.closeEpoch.ite h.takeInbox))

theorem State.Leads.collAbortSw {f : Frame} (h : s₀.Leads s) : s₀.Leads (s.collAbortSw f) := by
  unfold State.collAbortSw
  split
  · exact h.takeInbox.count
  · exact (h.takeInbox.count.ite (h.takeInbox.ite h.takeInbox.putEpoch.counters).abortEpoch).ite (h.takeInbox.count.ite h.collFromRoot)

theorem State.Leads.settlementLimit {i number chunk : Nat} (h : s₀.Leads s) : s₀.Leads (s.settlementLimit i number chunk) := by
  unfold State.settlementLimit
  split
  · exact h
  · split
    · exact h
    · split
      · exact h
      · refine h.ite ?_
        split
        · exact h.abortEpoch
        · exact h.settleChunk.ite (h.recallChunk.ite h.abortEpoch)
        · exact h

/-! #### The functions of Machine/Escrow.lean -/

theorem State.Leads.onXlat {g : Xlat → Xlat} (h : s₀.Leads s) : s₀.Leads (s.onXlat g) :=
  h.onSw

theorem State.Leads.hold {e : Nat} {h' : Held} (h : s₀.Leads s) : s₀.Leads (s.hold e h') :=
  h.onXlat

theorem State.Leads.lookup {e ctx partition cva : Nat} (h : s₀.Leads s) : s₀.Leads (s.lookup e ctx partition cva).2 := by
  unfold State.lookup
  dsimp only
  split
  · exact .pair h.onXlat
  · split
    · exact .pair h.onXlat
    · exact h

theorem State.Leads.xlatFault {kind ctx seg partition : Nat} {group : Option Nat} (h : s₀.Leads s) : s₀.Leads (s.xlatFault kind ctx seg partition
    group) :=
  h.record

theorem State.Leads.startRead {ctx addr : Nat} {m : Miss} (h : s₀.Leads s) : s₀.Leads (s.startRead ctx addr m) := by
  unfold State.startRead
  refine h.ite ?_
  split
  · exact h.ite h.onXlat
  · exact h.ite h.onXlat.emit

theorem State.Leads.readFault {ctx partition : Nat} (h : s₀.Leads s) : s₀.Leads (s.readFault ctx partition) :=
  h.xlatFault.onXlat

theorem State.Leads.putGraph {slot : Nat} {g : Graph} (h : s₀.Leads s) : s₀.Leads (s.putGraph slot g) :=
  h.onEscrow

theorem State.Leads.onTask {slot t : Nat} {f : Task → Task} (h : s₀.Leads s) : s₀.Leads (s.onTask slot t f) := by
  unfold State.onTask
  split
  · exact h
  · exact h.putGraph

theorem State.Leads.sendNow {x : Flight} {tag : Nat} (h : s₀.Leads s) : s₀.Leads (s.sendNow x tag) :=
  h.onSw.onEscrow.swSend

theorem State.Leads.sendFlight {x : Flight} (h : s₀.Leads s) : s₀.Leads (s.sendFlight x) := by
  unfold State.sendFlight
  split
  · exact h.sendNow
  · exact h.onEscrow

theorem State.Leads.sendRequest {src port : Nat} {f : Frame} {owner : Owner} {engine cva : Nat} {h' : Held} (h : s₀.Leads s) :
    s₀.Leads (s.sendRequest src port f owner engine cva h') :=
  h.onEscrow.sendFlight

theorem State.Leads.checkRange {e ctx partition : Nat} {write atomic : Bool} {fuel cva len : Nat} (h : s₀.Leads s) :
    s₀.Leads (s.checkRange e ctx partition write atomic fuel cva len).2 := by
  induction fuel generalizing s cva len with
  | zero => exact h
  | succ n ih =>
    unfold State.checkRange
    split
    · exact h
    · split
      · exact h
      · split
        · next e' => exact h.lookup.of_eq e'
        · next e' =>
          have k := h.lookup.of_eq e'
          split
          · exact k
          · exact ih k

theorem State.Leads.checkRanges {e ctx partition : Nat} {l : List Range} (h : s₀.Leads s) : s₀.Leads (s.checkRanges e ctx partition l).2 := by
  induction l generalizing s with
  | nil => exact h
  | cons r t ih =>
    unfold State.checkRanges
    split
    · next e' => exact ih (h.checkRange.of_eq e')
    · exact h.checkRange

theorem State.Leads.engineMiss {who ctx partition cva : Nat} (h : s₀.Leads s) : s₀.Leads (s.engineMiss who ctx partition cva).2 := by
  unfold State.engineMiss
  dsimp only
  split
  · exact .pair h.onXlat.xlatFault
  · split
    · exact .pair h.xlatFault
    · split
      · exact .pair h.readFault
      · exact .pair h.startRead

theorem State.Leads.releaseTask {slot t : Nat} (h : s₀.Leads s) : s₀.Leads (s.releaseTask slot t) := by
  unfold State.releaseTask
  split
  · exact h
  · split
    · exact h
    · exact h.ite (h.onTask.ite (h.ite (h.onEscrow.ite h).onTask))

theorem State.Leads.endTask {slot t status : Nat} (h : s₀.Leads s) : s₀.Leads (s.endTask slot t status) :=
  h.onTask.releaseTask

theorem State.Leads.answerSelf {slot t i e : Nat} {a : Access} {st : Nat} (h : s₀.Leads s) : s₀.Leads (s.answerSelf slot t i e a st) := by
  unfold State.answerSelf
  refine .onTask ?_
  split
  · exact h
  · exact h.onEscrow

theorem State.Leads.issue {slot t e ctx partition cls i : Nat} {l : List Access} (h : s₀.Leads s) :
    s₀.Leads (s.issue slot t e ctx partition cls i l) := by
  induction l generalizing s i with
  | nil => exact h
  | cons a rest ih =>
    unfold State.issue
    refine ih ?_
    split
    · next e' => exact (h.lookup.of_eq e').answerSelf
    · next e' =>
      have k := h.lookup.of_eq e'
      split
      · exact k.answerSelf
      · dsimp only
        split
        · exact k.answerSelf
        · split
          · exact k.answerSelf
          · exact k.onTask
          · exact k.onTask.sendRequest

theorem State.Leads.checkFailed {slot t e ctx partition : Nat} {c : Checked} (h : s₀.Leads s) :
    s₀.Leads (s.checkFailed slot t e ctx partition c) := by
  unfold State.checkFailed
  split
  · exact h
  · exact h.endTask
  · exact h.xlatFault.endTask
  · split
    · next e' => exact (h.engineMiss.of_eq e').onTask
    · next e' => exact (h.engineMiss.of_eq e').endTask

theorem State.Leads.runProg {slot t e ctx partition cls : Nat} {g : Prog} (h : s₀.Leads s) : s₀.Leads (s.runProg slot t e ctx partition cls g) := by
  induction g generalizing s with
  | done st => exact h.endTask
  | check rs next ih =>
    unfold State.runProg
    split
    · next e' => exact ih (h.checkRanges.of_eq e').onTask
    · next e' => exact (h.checkRanges.of_eq e').checkFailed
  | ask accs next ih =>
    unfold State.runProg
    split
    · next u e' =>
      have k : s₀.Leads ((u.onTask slot t fun x => { x with phase := [], outstanding := 0 }).issue slot t e ctx partition cls 0 accs) :=
        (h.checkRanges.of_eq e').onTask.issue
      dsimp only
      split
      · exact k
      · exact k.ite (ih _ k.onTask)
    · next e' => exact (h.checkRanges.of_eq e').checkFailed

theorem State.Leads.resumeTask {slot t : Nat} (h : s₀.Leads s) : s₀.Leads (s.resumeTask slot t) := by
  unfold State.resumeTask
  split
  · exact h
  · split
    · exact h
    · exact h.ite (h.onTask.ite h.onTask.runProg)

theorem State.Leads.startTask {slot t e : Nat} (h : s₀.Leads s) : s₀.Leads (s.startTask slot t e) :=
  h.onTask.putEngine.work.count.resumeTask

theorem State.Leads.dispatch (h : s₀.Leads s) : s₀.Leads s.dispatch := by
  unfold State.dispatch
  refine h.collDispatch.each fun _ _ h => h.onTask.ite (.ite ?_ (h.startTask.ite h))
  split
  · exact h.startTask
  · exact h

theorem State.Leads.readyUp {slot : Nat} (h : s₀.Leads s) : s₀.Leads (s.readyUp slot) := by
  unfold State.readyUp
  split
  · exact h
  · exact h.putGraph.onEscrow

theorem State.Leads.failTask {slot t status : Nat} (h : s₀.Leads s) : s₀.Leads (s.failTask slot t status) := by
  unfold State.failTask
  split
  · exact h
  · exact h.onTask.count.record

theorem State.Leads.cancelTasks {slot : Nat} {p : Nat → Bool} (h : s₀.Leads s) : s₀.Leads (s.cancelTasks slot p) := by
  unfold State.cancelTasks
  split
  · exact h
  · exact h.each fun _ _ hu => hu.failTask.ite hu.onTask

theorem State.Leads.doneLost {partition tag : Nat} (h : s₀.Leads s) : s₀.Leads (s.doneLost partition tag) :=
  h.record

theorem State.Leads.freeSlot {slot : Nat} (h : s₀.Leads s) : s₀.Leads (s.freeSlot slot) :=
  h.onEscrow

theorem State.Leads.writeDone {slot : Nat} {g : Graph} (h : s₀.Leads s) : s₀.Leads (s.writeDone slot g) := by
  unfold State.writeDone
  dsimp only
  split
  · next x1 x2 e3 =>
      have k1 := h.checkRange.of_eq e3
      exact k1.doneLost.freeSlot
  · next x1 x2 x3 x4 e5 =>
      have k1 := h.checkRange.of_eq e5
      exact k1.xlatFault.doneLost.freeSlot
  · next x1 x2 x3 e4 =>
      have k1 := h.checkRange.of_eq e4
      split
      · next x1 x2 e3 =>
          have k2 := k1.engineMiss.of_eq e3
          exact k2.putGraph
      · next x1 x2 x3 e4 =>
          have k2 := k1.engineMiss.of_eq e4
          exact k2.doneLost.freeSlot
  · next x1 x2 e3 =>
      have k1 := h.checkRange.of_eq e3
      exact k1.doneLost.freeSlot.ite (k1.putGraph.each fun _ _ hu => hu.sendRequest)

theorem State.Leads.endGraph {slot : Nat} (h : s₀.Leads s) : s₀.Leads (s.endGraph slot) := by
  unfold State.endGraph
  split
  · exact h
  · exact h.ite (h.count.doneLost.freeSlot.ite (h.count.freeSlot.ite h.count.writeDone))

theorem State.Leads.settleTask {slot t status : Nat} {fencedEngine : Bool} (h : s₀.Leads s) : s₀.Leads (s.settleTask slot t status fencedEngine) := by
  unfold State.settleTask
  split
  · exact (h.putEngine.ite h).onTask.readyUp.ite (((h.putEngine.ite h).onTask.ite (h.putEngine.ite h).onTask.onEscrow).ite (h.putEngine.ite
      h).failTask.cancelTasks)
  · exact h

theorem State.Leads.putMbox {m : Nat} {x : FabMbox} (h : s₀.Leads s) : s₀.Leads (s.putMbox m x) :=
  h.onEscrow

theorem State.Leads.admitGraph {slot : Nat} {g : Graph} (h : s₀.Leads s) : s₀.Leads (s.admitGraph slot g) :=
  h.putMbox.putGraph.readyUp

theorem State.Leads.emptyMbox {m result task tag : Nat} (h : s₀.Leads s) : s₀.Leads (s.emptyMbox m result task tag) :=
  h.putMbox

theorem State.Leads.escrowRespond {f : Frame} {status : Nat} {data : List Byte} (h : s₀.Leads s) : s₀.Leads (s.escrowRespond f status data) :=
  h.trans (State.escrowRespond_sent _ _ _ _).leads

theorem State.Leads.takeSlot {slot : Nat} {g : Graph} {f : Frame} (h : s₀.Leads s) : s₀.Leads (s.takeSlot slot g f) :=
  h.emptyMbox.escrowRespond.ite h.admitGraph.escrowRespond

theorem State.Leads.admitAged {x : Submission} (h : s₀.Leads s) : s₀.Leads (s.admitAged x) :=
  h.free.onEscrow.emptyMbox.escrowRespond

theorem State.Leads.admitWaiting (h : s₀.Leads s) : s₀.Leads s.admitWaiting := by
  unfold State.admitWaiting
  refine h.each fun _ _ h => ?_
  split
  · exact h
  · exact h.admitAged.ite h.onEscrow.takeSlot

theorem State.Leads.retryMisses (h : s₀.Leads s) : s₀.Leads s.retryMisses := by
  unfold State.retryMisses
  refine (h.each fun _ _ h => ?_).each fun _ _ h => h.writeDone.ite h
  split
  · exact h.resumeTask.ite h
  · exact h

theorem State.Leads.escrowRound (h : s₀.Leads s) : s₀.Leads s.escrowRound := by
  unfold State.escrowRound
  refine ((h.each fun _ _ h => h.settleTask.ite ?_).onEscrow.retryMisses.each fun _ _ h => h.endGraph).admitWaiting
  split
  · exact h.settleTask.ite h
  · exact h

theorem State.Leads.escrowRounds {n : Nat} (h : s₀.Leads s) : s₀.Leads (State.escrowRounds n s) := by
  induction n generalizing s with
  | zero => exact h.escrowRound
  | succ n ih =>
    unfold State.escrowRounds
    dsimp only
    split
    · exact h.escrowRound
    · exact ih h.escrowRound

theorem State.Leads.escrowSettle (h : s₀.Leads s) : s₀.Leads s.escrowSettle :=
  h.escrowRounds.dispatch

theorem State.Leads.taskReply {slot t i : Nat} {r : Reply} (h : s₀.Leads s) : s₀.Leads (s.taskReply slot t i r) := by
  unfold State.taskReply
  split
  · refine h.ite (h.onTask.ite ?_)
    split
    · exact h.onTask.ite h.onTask.onTask.resumeTask
    · exact h.onTask
  · exact h

theorem State.Leads.withdrawFlight {x : Flight} (h : s₀.Leads s) : s₀.Leads (s.withdrawFlight x) :=
  h.takeUnsent.getD h

theorem State.Leads.dropFlights {e : Nat} (h : s₀.Leads s) : s₀.Leads (s.dropFlights e) := by
  unfold State.dropFlights
  exact (h.each fun _ _ h => h.withdrawFlight).onEscrow

theorem State.Leads.stopEngine {e : Nat} (h : s₀.Leads s) : s₀.Leads (s.stopEngine e) := by
  unfold State.stopEngine
  dsimp only
  split
  · exact h.dropFlights
  · exact h.dropFlights.settleTask

theorem State.Leads.fenceEngines {es : List Nat} (h : s₀.Leads s) : s₀.Leads (s.fenceEngines es) :=
  h.ite (((h.each fun _ _ h => h.putEngine).each fun _ _ h => h.stopEngine).each fun _ _ h => h.record).escrowSettle

theorem State.Leads.fenceEngine {e : Nat} (h : s₀.Leads s) : s₀.Leads (s.fenceEngine e) :=
  h.fenceEngines

theorem State.Leads.cancelGraphFor {slot : Nat} {g : Graph} {why : Cancel} (h : s₀.Leads s) : s₀.Leads (s.cancelGraphFor slot g why) := by
  unfold State.cancelGraphFor
  exact h.putGraph.cancelTasks

theorem State.Leads.cancelUnstarted {p : Nat} (h : s₀.Leads s) : s₀.Leads (s.cancelUnstarted p) :=
  h.each fun _ _ h => h.cancelGraphFor

theorem State.Leads.cancelPartition {p : Nat} (h : s₀.Leads s) : s₀.Leads (s.cancelPartition p) :=
  h.cancelUnstarted.escrowSettle

/-! #### The functions of Machine/Sources.lean -/

theorem State.Leads.epRaise {kind : Nat} (h : s₀.Leads s) : s₀.Leads (s.epRaise kind) :=
  h.onEp

theorem State.Leads.enterHoldover {d : Dev} (h : s₀.Leads s) : s₀.Leads (s.enterHoldover d) := by
  unfold State.enterHoldover
  refine h.onClock.ite ?_
  dsimp only
  split
  · exact h.onClock.closeGates.record
  · exact h.onClock.closeGates.epRaise

theorem State.Leads.retime {d : Dev} (h : s₀.Leads s) : s₀.Leads (s.retime d) := by
  unfold State.retime
  refine h.onClock.ite ?_
  split
  · exact h.enterHoldover
  · exact h.onClock.closeGates.ite h.onClock

theorem State.Leads.sourceFails {d : Dev} (h : s₀.Leads s) : s₀.Leads (s.sourceFails d) := by
  unfold State.sourceFails
  split
  · exact h
  · exact h.onClock.retime

theorem State.Leads.lostSource {d : Dev} {p : Nat} (h : s₀.Leads s) : s₀.Leads (s.lostSource d p) :=
  h.sourceFails.ite h

/-! #### The functions of Machine/Ports.lean -/

theorem State.Leads.finishWork {fn mb status : Nat} {rsp : List Byte} (h : s₀.Leads s) : s₀.Leads (s.finishWork fn mb status rsp) :=
  h.onSw

theorem State.Leads.onActive {fn mb : Nat} {g : Active → Active} (h : s₀.Leads s) : s₀.Leads (s.onActive fn mb g) :=
  h.onSw

theorem State.Leads.setPort {p : Nat} {l : Link} (h : s₀.Leads s) : s₀.Leads (s.setPort p l) :=
  ((h.putLink.setEvent.ite h.putLink).onXlat.ite (h.putLink.setEvent.ite h.putLink)).refreshNarrow

theorem State.Leads.onPort {p : Nat} {g : Link → Link} (h : s₀.Leads s) : s₀.Leads (s.onPort p g) :=
  h.setPort

theorem State.Leads.answerFor {f : Frame} {status : Nat} (h : s₀.Leads s) : s₀.Leads (s.answerFor f status) := by
  unfold State.answerFor
  refine .ite ?_ h
  dsimp only
  split
  · exact h.uncount
  · exact h.uncount.enqueue

theorem State.Leads.keepCell {b : Buffered} (h : s₀.Leads s) : s₀.Leads (s.keepCell b).2 :=
  h.freeCells

theorem State.Leads.answerIn {b : Buffered} {status : Nat} (h : s₀.Leads s) : s₀.Leads (s.answerIn b status) := by
  unfold State.answerIn
  refine .ite ?_ h.freeCells
  dsimp only
  split
  · exact h.uncount.freeCells
  · exact h.uncount.keepCell.join

theorem State.Leads.unreached {f : Frame} (h : s₀.Leads s) : s₀.Leads (s.unreached f) :=
  h.swSend

theorem State.Leads.discard {f : Frame} {status : Nat} (h : s₀.Leads s) : s₀.Leads (s.discard f status) :=
  h.unreached.ite h.answerFor

theorem State.Leads.discardIn {b : Buffered} {status : Nat} (h : s₀.Leads s) : s₀.Leads (s.discardIn b status) :=
  h.freeCells.unreached.ite h.answerIn

theorem State.Leads.noteDiscard {p : Nat} (h : s₀.Leads s) : s₀.Leads (s.noteDiscard p) :=
  h.onSw

theorem State.Leads.endCut {o : Nat} (h : s₀.Leads s) : s₀.Leads (s.endCut o) := by
  unfold State.endCut
  split
  · exact h
  · exact h.onSw.freeCells

theorem State.Leads.voidOut {o reason : Nat} (h : s₀.Leads s) : s₀.Leads (s.voidOut o reason) :=
  h.endCut.onSw.emit.ite h.endCut.onSw

theorem State.Leads.voidFrames {p : Nat} {sel : Buffered → Bool} {reason : Nat} (h : s₀.Leads s) : s₀.Leads (s.voidFrames p sel reason) :=
  (h.onSw.each fun _ _ h => h.freeCells).each fun _ _ h => h.voidOut

theorem State.Leads.takeBack {p : Nat} {marks : List Nat} (h : s₀.Leads s) : s₀.Leads (s.takeBack p marks) :=
  h.onSw.voidFrames

theorem State.Leads.cutOpen {p reason : Nat} (h : s₀.Leads s) : s₀.Leads (s.cutOpen p reason) :=
  h.voidFrames

theorem State.Leads.voidFree {o : Nat} (h : s₀.Leads s) : s₀.Leads (s.voidFree o) :=
  h.free.voidOut.ite h

theorem State.Leads.discardQueues {p : Nat} (h : s₀.Leads s) : s₀.Leads (s.discardQueues p) :=
  (h.voidFree.onSw.each fun _ _ h => h.onSw.each fun _ _ hu => hu.noteDiscard.discardIn).each fun _ _ h => h.noteDiscard.discard

theorem State.Leads.loseTarget {h' : Nat} (h : s₀.Leads s) : s₀.Leads (s.loseTarget h') :=
  ((h.each fun _ _ h => h.onSw.each fun _ _ hu => hu.answerIn).onSw.each fun _ _ h => h.answerFor).onSw.each fun _ _ h => h.answerFor

theorem State.Leads.leavePort {p : Nat} {st : PortState} {why : Nat} (h : s₀.Leads s) : s₀.Leads (s.leavePort p st why) := by
  unfold State.leavePort
  refine State.Leads.onSw ?_
  refine State.Leads.discardQueues ?_
  refine State.Leads.cutOpen ?_
  exact h.onPort

theorem State.Leads.fencePort {p why : Nat} (h : s₀.Leads s) : s₀.Leads (s.fencePort p why) := by
  unfold State.fencePort
  exact h.leavePort.lostSource.cutOff.ite (h.leavePort.lostSource.loseTarget.ite h.leavePort.lostSource.onSw).loseHolder.loseMember

theorem State.Leads.retrain {p : Nat} (h : s₀.Leads s) : s₀.Leads (s.retrain p) :=
  h.leavePort.lostSource.ite h.leavePort.emit.lostSource

/-! #### The functions of Machine/EpHome.lean -/

theorem State.Leads.onEpHome {g : Home → Home} (h : s₀.Leads s)
    (hg : ∀ m, Memory.wf m.mem = true → Memory.wf (g m).mem = true := by exact fun _ hw => hw) : s₀.Leads (s.onEpHome g) :=
  h.onEp fun e => hg e.home

theorem State.Leads.onEpRegion {i : Nat} {g : Region → Region} (h : s₀.Leads s) : s₀.Leads (s.onEpRegion i g) :=
  h.onEpHome

theorem State.Leads.onHomeReq {utag : Nat} {g : HomeReq → HomeReq} (h : s₀.Leads s) : s₀.Leads (s.onHomeReq utag g) :=
  h.onEp

theorem State.Leads.homeEnd {x : HomeReq} {status : Nat} {data : List Byte} {cache : Nat} (h : s₀.Leads s) : s₀.Leads (s.homeEnd x status data cache)
    :=
  h.onEp.ite h.onEp.epSend

theorem State.Leads.askMemory {x : HomeReq} (h : s₀.Leads s) : s₀.Leads (s.askMemory x) :=
  h.onEp.emit.ite (h.onEp.emit.ite h.onEp.emit)

theorem State.Leads.sendInputCopy {x : HomeReq} (h : s₀.Leads s) : s₀.Leads (s.sendInputCopy x) :=
  h.onEp.epSend

theorem State.Leads.homeBegin {x : HomeReq} (h : s₀.Leads s) : s₀.LeadsAny (s.homeBegin x) := by
  unfold State.homeBegin
  refine .ite .none ?_
  split
  · exact h.homeEnd.some
  · exact h.homeEnd.some.ite (h.sendInputCopy.some.ite h.askMemory.some)

theorem State.Leads.homeStep (h : s₀.Leads s) : s₀.LeadsAny s.homeStep :=
  .firstSome (fun _ => h.homeBegin)

theorem State.Leads.epHomeRequest {p : Nat} {f : Frame} (h : s₀.Leads s) : s₀.Leads (s.epHomeRequest p f) :=
  h.ite h.onEp

theorem State.Leads.homePerformed {x : HomeReq} (h : s₀.Leads s) : s₀.Leads (s.homePerformed x) :=
  (h.homeEnd.ite h.onEp.epSend).ite (h.homeEnd.ite (h.homeEnd.ite h.homeEnd))

theorem State.Leads.memDone {utag : Nat} {data : List Byte} (h : s₀.Leads s) : s₀.Leads (s.memDone utag data) := by
  unfold State.memDone
  split
  · exact h
  · exact h.onEp.askMemory.ite h.onEp.homePerformed

theorem State.Leads.inputAcked {p : Nat} {f : Frame} (h : s₀.Leads s) : s₀.Leads (s.inputAcked p f) := by
  unfold State.inputAcked
  split
  · exact h
  · exact h.homeEnd.ite (h.homeEnd.ite h.askMemory)

theorem State.Leads.inputUnacked {p tag : Nat} (h : s₀.Leads s) : s₀.Leads (s.inputUnacked p tag) := by
  unfold State.inputUnacked
  split
  · exact h
  · exact h.homeEnd.onEp

theorem State.Leads.fillAcked {src line : Nat} (h : s₀.Leads s) : s₀.Leads (s.fillAcked src line) := by
  unfold State.fillAcked
  split
  · exact h
  · exact h.homeEnd

theorem State.Leads.epRegionBegin {i port tag mode owner : Nat} {handover : Bool} (h : s₀.Leads s) :
    s₀.Leads (s.epRegionBegin i port tag mode owner handover) :=
  (h.ifThen fun _ h => h.onEpRegion).onEpHome.ifThen fun _ h => h.epSend

theorem State.Leads.confirmRegion {p tag status : Nat} (h : s₀.Leads s) : s₀.Leads (s.confirmRegion p tag status) :=
  h.onEp.mgmtOut

theorem State.Leads.epRegionCheck (h : s₀.Leads s) : s₀.Leads s.epRegionCheck := by
  unfold State.epRegionCheck
  refine h.each fun _ _ h => ?_
  split
  · exact h
  · exact (h.onEpHome.onEpRegion.onEpHome.ite h.onEpHome.onEpRegion).ite h.onEpHome.onEpRegion.confirmRegion

theorem State.Leads.epRegionDone {owner region : Nat} (h : s₀.Leads s) : s₀.Leads (s.epRegionDone owner region) :=
  h.onEpHome.epRegionCheck

theorem State.Leads.epRegionLost {region : Nat} (h : s₀.Leads s) : s₀.Leads (s.epRegionLost region) :=
  h.onEpHome.onEpRegion.epRegionCheck

theorem State.Leads.epPeerLost {h' : Nat} (h : s₀.Leads s) : s₀.Leads (s.epPeerLost h') :=
  (h.onEp.onEpHome.each fun _ _ h => h.homeEnd).each fun _ _ h => h.epRegionLost

theorem State.Leads.epFencePeer {h' : Nat} (h : s₀.Leads s) : s₀.Leads (s.epFencePeer h') :=
  h.ite h.onEp.flood.epPeerLost

theorem State.Leads.epHandoverLate {region : Nat} (h : s₀.Leads s) : s₀.Leads (s.epHandoverLate region) := by
  unfold State.epHandoverLate
  split
  · exact h
  · exact h.epFencePeer.epRegionLost

theorem State.Leads.epFillLate {h' line : Nat} (h : s₀.Leads s) : s₀.Leads (s.epFillLate h' line) :=
  h.epFencePeer.fillAcked.ite h

theorem State.Leads.epRegionTake {p tag : Nat} {handover : Bool} {l : List Byte} (h : s₀.Leads s) : s₀.Leads (s.epRegionTake p tag handover l) :=
  h.confirmRegion.ite (h.confirmRegion.ite (h.confirmRegion.ite (h.confirmRegion.ite (h.confirmRegion.ite (h.each fun _ _ h =>
      h.epRegionBegin).epRegionCheck))))

theorem State.Leads.epRegionConfig {p tag : Nat} {handover : Bool} {l : List Byte} (h : s₀.Leads s) : s₀.Leads (s.epRegionConfig p tag handover l) :=
    by
  unfold State.epRegionConfig
  split
  · split
    · exact h.confirmRegion
    · exact h
  · exact h.onEp.epRegionTake

theorem State.Leads.epLostClear {p tag : Nat} {l : List Byte} (h : s₀.Leads s) : s₀.Leads (s.epLostClear p tag l) :=
  (h.onEpHome.ite h).sendConfirm

theorem State.Leads.epRegionRead {p tag : Nat} {l : List Byte} (h : s₀.Leads s) : s₀.Leads (s.epRegionRead p tag l) := by
  unfold State.epRegionRead
  exact h.mgmtOut

/-! #### The functions of Machine/EpMgmt.lean -/

theorem State.Leads.takeBackPiece {x : EpFlight} {again : Bool} (h : s₀.Leads s) : s₀.Leads (s.takeBackPiece x again) := by
  unfold State.takeBackPiece
  dsimp only
  split
  · exact h.withdraw
  · exact h.withdraw.unreserve.onPiece
  · exact h.withdraw.unreserve.onPiece

theorem State.Leads.endAll {status : Nat} (h : s₀.Leads s) : s₀.Leads (s.endAll status) :=
  h.onEp.each fun _ _ h => h.endReq

theorem State.Leads.epInvalCheck {x : EpInval} (h : s₀.Leads s) : s₀.Leads (s.epInvalCheck x) :=
  (h.ifThen fun _ h => h.onEp).ite (h.onEp.epSend.ite h)

theorem State.Leads.epSegInv {p : Nat} {f : Frame} (h : s₀.Leads s) : s₀.Leads (s.epSegInv p f) := by
  unfold State.epSegInv
  refine h.ite ((((h.onEp.discardLines.each fun _ _ h => h.takeBackPiece).each fun _ _ h => h.takeBackPiece).onEp.each fun _ _ h =>
      ?_).spoil.onEp.each fun _ _ h => h.epSend)
  split
  · exact h.onPiece
  · exact h

theorem State.Leads.epSegInvAck {p : Nat} {f : Frame} (h : s₀.Leads s) : s₀.Leads (s.epSegInvAck p f) := by
  unfold State.epSegInvAck
  exact h.onEp

theorem State.Leads.epRegionInv {p : Nat} {f : Frame} (h : s₀.Leads s) : s₀.Leads (s.epRegionInv p f) := by
  unfold State.epRegionInv
  exact (h.each fun _ _ h => h.withdraw.epAbandon).onEp.discardLines.spoil.onEp

theorem State.Leads.flushCheck {x : EpFlush} (h : s₀.Leads s) : s₀.Leads (s.flushCheck x) :=
  h.ite h.onEp.epSend

theorem State.Leads.epPoll (h : s₀.Leads s) : s₀.Leads s.epPoll :=
  (h.each fun _ _ h => h.epInvalCheck).each fun _ _ h => h.flushCheck

theorem State.Leads.slotsCheck (h : s₀.Leads s) : s₀.Leads s.slotsCheck := by
  unfold State.slotsCheck
  exact h.onEp

theorem State.Leads.slotClose {p : Nat} {f : Frame} (h : s₀.Leads s) : s₀.Leads (s.slotClose p f) :=
  (h.onEp.discardLines.spoil.each fun _ _ h => h.withdraw.epAbandon).epEvent.sendConfirm

theorem State.Leads.slotOpen {p : Nat} {f : Frame} (h : s₀.Leads s) : s₀.Leads (s.slotOpen p f) :=
  h.onEp.slotsCheck.sendConfirm

theorem State.Leads.loseRanks {agent : Option Nat} (h : s₀.Leads s) : s₀.Leads (s.loseRanks agent) :=
  h.onEp

theorem State.Leads.epFencePort {p why : Nat} (h : s₀.Leads s) : s₀.Leads (s.epFencePort p why) := by
  unfold State.epFencePort
  refine h.ite (h.onLink.lostSource.onEp.loseRanks.each fun _ _ h => ?_).epUnreachable.slotsCheck.epEvent
  split
  · exact h.xlatDone
  · exact h.epAbandon

theorem State.Leads.epRedetect {p : Nat} (h : s₀.Leads s) : s₀.Leads (s.epRedetect p) :=
  h.onLink.ite h

theorem State.Leads.selfVerdict (h : s₀.Leads s) : s₀.Leads s.selfVerdict :=
  (h.onEp.endAll.each fun _ _ h => h.emit).onEp.epEvent

theorem State.Leads.epVerdict {p : Nat} {f : Frame} (h : s₀.Leads s) : s₀.Leads (s.epVerdict p f) :=
  (h.flood.ite h.flood.selfVerdict).ite h.flood.onEp.epPeerLost

theorem State.Leads.epReadmitted (h : s₀.Leads s) : s₀.Leads s.epReadmitted :=
  h.onEp

theorem State.Leads.epAdmit {p : Nat} {f : Frame} (h : s₀.Leads s) : s₀.Leads (s.epAdmit p f) :=
  h.epRaise.epFencePort.ite (h.ifThen fun _ h => h.epReadmitted).onEp

theorem State.Leads.fenceNotice {p : Nat} {f : Frame} (h : s₀.Leads s) : s₀.Leads (s.fenceNotice p f) :=
  h.ite (h.onEp.loseRanks.epEvent.ite h.onEp)

theorem State.Leads.epHeartbeat {p : Nat} {f : Frame} (h : s₀.Leads s) : s₀.Leads (s.epHeartbeat p f) := by
  unfold State.epHeartbeat
  exact h.mgmtOut

theorem State.Leads.relayAckTimeout {number : Nat} (h : s₀.Leads s) : s₀.Leads (s.relayAckTimeout number) :=
  h.onEp.each fun _ _ h => h.epFencePort

theorem State.Leads.epStage {p : Nat} {l : List Byte} (h : s₀.Leads s) : s₀.Leads (s.epStage p l) := by
  unfold State.epStage
  exact h.onEp

theorem State.Leads.epRanks {l : List Byte} (h : s₀.Leads s) : s₀.Leads (s.epRanks l) := by
  unfold State.epRanks
  exact h.onEp

theorem State.Leads.epConfig {p : Nat} {f : Frame} (h : s₀.Leads s) : s₀.Leads (s.epConfig p f) :=
  h.epRegionConfig.ite (h.epRegionConfig.ite (h.epLostClear.ite (h.epRegionRead.ite (h.onEp.sendConfirm.ite (h.onEp.sendConfirm.ite
      (h.epRanks.sendConfirm.ite (h.epStage.sendConfirm.ite ((h.onEp.ite h).sendConfirm.ite (h.onEp.sendConfirm.ite h)))))))))

/-! #### The functions of Machine/EpColl.lean -/

theorem State.Leads.coverRange {a : Nat} {write : Bool} {fuel cva len : Nat} (h : s₀.Leads s) : s₀.Leads (s.coverRange a write fuel cva len).2 := by
  induction fuel generalizing s cva len with
  | zero => exact h
  | succ n ih =>
    unfold State.coverRange
    split
    · exact h
    · split
      · exact h
      · split
        · next e => exact h.epLookup.of_eq e
        · next e =>
          have k := h.epLookup.of_eq e
          split
          · exact k
          · exact ih k

theorem State.Leads.coverAll {a : Nat} {l : List (Nat × Nat × Bool)} (h : s₀.Leads s) : s₀.Leads (s.coverAll a l).2 := by
  induction l generalizing s with
  | nil => exact h
  | cons b t ih =>
    unfold State.coverAll
    split
    · next e => exact ih (h.coverRange.of_eq e)
    · exact h.coverRange

theorem State.Leads.onCall {x : EpCall} {g : EpCall → EpCall} (h : s₀.Leads s) : s₀.Leads (s.onCall x g) :=
  h.onEp

theorem State.Leads.refuseCall {x : EpCall} {status : Nat} (h : s₀.Leads s) : s₀.Leads (s.refuseCall x status) :=
  h.onEp.emit

theorem State.Leads.callFence {x : EpCall} {kind : FenceKind} (h : s₀.Leads s) : s₀.Leads (s.callFence x kind) :=
  h.epFence

theorem State.Leads.admitCall {x : EpCall} (h : s₀.Leads s) : s₀.LeadsAny (s.admitCall x) := by
  unfold State.admitCall
  refine .ite .none (.ite .none ?_)
  split
  · exact h.refuseCall.some
  · refine h.refuseCall.some.ite (h.refuseCall.some.ite (h.refuseCall.some.ite ?_))
    dsimp only
    split
    · next x1 x2 x3 x4 e5 =>
        have k2 := h.coverAll.of_eq e5
        split
        · next x1 x2 e3 =>
            have k3 := k2.epMiss.of_eq e3
            exact k3.refuseCall.some
        · next x1 x2 e3 =>
            have k3 := k2.epMiss.of_eq e3
            exact k3.onCall.some
        · next x1 x2 e3 =>
            have k3 := k2.epMiss.of_eq e3
            exact .none
    · next x1 x2 x3 e4 =>
        have k2 := h.coverAll.of_eq e4
        exact (k2.ifThen fun _ hv => hv.epEvent).refuseCall.some
    · next x1 x2 x3 e4 =>
        have k2 := h.coverAll.of_eq e4
        refine .ite .none ?_
        split
        · exact k2.onEp.onEp.onCall.some
        · exact k2.onEp.onCall.callFence.some

theorem State.Leads.sendOnPlane {k : Nat} {f : Frame} (h : s₀.Leads s) : s₀.Leads (s.sendOnPlane k f) :=
  h.ifThen fun _ h => h.epSend

theorem State.Leads.sendPieces {x : EpCall} {scale last : Bool} {at_ : Nat} {data : List Byte} (h : s₀.Leads s) :
    s₀.Leads (s.sendPieces x scale last at_ data) :=
  h.each fun _ _ h => h.sendOnPlane

theorem State.Leads.sendStep {x : EpCall} (h : s₀.Leads s) : s₀.LeadsAny (s.sendStep x) :=
  .ite .none (h.sendPieces.onCall.some.ite (h.onCall.epReq.some.ite (h.onCall.epReq.some.ite h.onCall.some)))

theorem State.Leads.takeInternal {q : EpReq} (h : s₀.Leads s) : s₀.LeadsAny (s.takeInternal q) := by
  unfold State.takeInternal
  refine .ite .none ?_
  dsimp only
  split
  · exact h.onEp.some
  · split
    · exact h.onEp.some
    · exact h.onEp.some.ite h.onEp.sendPieces.onCall.some
  · split
    · exact h.onEp.some
    · exact h.onEp.onCall.some
  · split
    · exact h.onEp.some
    · exact h.onEp.onCall.some

theorem State.Leads.onChunk {x : EpCall} {k : Nat} {g : EpChunk → EpChunk} (h : s₀.Leads s) : s₀.Leads (s.onChunk x k g) :=
  h.onCall

theorem State.Leads.chunkNote {x : EpCall} {k attempt : Nat} {kind : NoteKind} (h : s₀.Leads s) : s₀.Leads (s.chunkNote x k attempt kind) :=
  h.ifThen fun _ h => h.emit

theorem State.Leads.epCollResult {f : Frame} (h : s₀.Leads s) : s₀.Leads (s.epCollResult f) := by
  unfold State.epCollResult
  split
  · exact h
  · refine h.ite (((h.onChunk.ite h.onChunk.onChunk).ite (h.onChunk.ite h.onChunk.onChunk).epReq).ite ?_)
    split
    · exact (h.onChunk.ite h.onChunk.onChunk).ite (h.onChunk.ite h.onChunk.onChunk).epReq
    · exact ((h.onChunk.ite h.onChunk.onChunk).ite (h.onChunk.ite h.onChunk.onChunk).epReq).onChunk.sendOnPlane

theorem State.Leads.deliverStep {x : EpCall} (h : s₀.Leads s) : s₀.LeadsAny (s.deliverStep x) :=
  .ite .none (.firstSome (fun _ => h.onChunk.chunkNote.some.ite .none))

theorem State.Leads.withdrawChunk {x : EpCall} {k : Nat} (h : s₀.Leads s) : s₀.Leads (s.withdrawChunk x k) := by
  unfold State.withdrawChunk
  exact (h.ifThen fun _ h => h.chunkNote).onChunk

theorem State.Leads.epCollRecall {f : Frame} (h : s₀.Leads s) : s₀.Leads (s.epCollRecall f) := by
  unfold State.epCollRecall
  split
  · exact h
  · exact h.withdrawChunk.ite h

theorem State.Leads.epSettled {f : Frame} (h : s₀.Leads s) : s₀.Leads (s.epSettled f) := by
  unfold State.epSettled
  split
  · exact h
  · refine h.ite ?_
    dsimp only
    split
    · exact h.onChunk.chunkNote
    · exact h.onChunk.chunkNote.onCall.ite h.onChunk.chunkNote

theorem State.Leads.forget {fga pos n : Nat} (h : s₀.Leads s) : s₀.Leads (s.forget fga pos n) :=
  h.onWay.counters

theorem State.Leads.forgetPool {off n slot : Nat} (h : s₀.Leads s) : s₀.Leads (s.forgetPool off n slot) :=
  h.ite h.writeRange.counters

theorem State.Leads.forgetChunk {x : EpCall} {c : EpChunk} (h : s₀.Leads s) : s₀.Leads (s.forgetChunk x c) := by
  unfold State.forgetChunk
  refine (h.each fun _ _ h => h.each fun _ _ hu => ?_).each fun _ _ h => h.each fun _ _ hu => ?_
  · split
    · exact hu
    · exact hu.forget.forgetPool.ite hu.forget
  · split
    · exact hu
    · exact hu.forget.forgetPool.ite hu.forget

theorem State.Leads.passAbort {p : Nat} {f : Frame} {r : Rank} (h : s₀.Leads s) : s₀.Leads (s.passAbort p f r) :=
  h.each fun _ _ h => h.sendOnPlane

theorem State.Leads.epAbortAhead {p : Nat} {f : Frame} (h : s₀.Leads s) : s₀.Leads (s.epAbortAhead p f) := by
  unfold State.epAbortAhead
  split
  · exact h
  · exact h.ite h.onEp.passAbort

theorem State.Leads.epCollAbort {p : Nat} {f : Frame} (h : s₀.Leads s) : s₀.Leads (s.epCollAbort p f) := by
  unfold State.epCollAbort
  dsimp only
  split
  · exact (h.ifThen fun _ hu => hu.onEp).epAbortAhead
  · refine (h.ifThen fun _ hu => hu.onEp).ite ?_
    split
    · exact ((h.ifThen fun _ hv => hv.onEp).onEp.each fun _ _ hv => (hv.ifThen fun _ hw => hw.forgetChunk).withdrawChunk).onCall
    · exact ((h.ifThen fun _ hv => hv.onEp).onEp.each fun _ _ hv => (hv.ifThen fun _ hw => hw.forgetChunk).withdrawChunk).onCall.passAbort

theorem State.Leads.endStep {x : EpCall} (h : s₀.Leads s) : s₀.LeadsAny (s.endStep x) :=
  .ite .none ((h.onCall.callFence.some.ite (.ite .none h.onCall.epReq.some)).ite (h.onEp.emit.some.ite .none))

theorem State.Leads.settleReading {x : EpCall} (h : s₀.Leads s) : s₀.LeadsAny (s.settleReading x) :=
  h.onCall.some.ite .none

theorem State.Leads.collStep (h : s₀.Leads s) : s₀.LeadsAny s.collStep :=
  .orElse (.firstSome (fun _ => h.takeInternal)) (.firstSome (fun _ => h.admitCall.orElse (h.sendStep.orElse (h.deliverStep.orElse
      (h.settleReading.orElse h.endStep)))))

theorem State.Leads.epCall {a utag : Nat} {c : CallRec} (h : s₀.Leads s) : s₀.Leads (s.epCall a utag c) :=
  h.onEp

theorem State.Leads.epStep (h : s₀.Leads s) : s₀.LeadsAny s.epStep :=
  h.reqStep.orElse (h.homeStep.orElse h.collStep)

theorem State.Leads.pumpN {n : Nat} (h : s₀.Leads s) : s₀.Leads (State.pumpN n s) := by
  induction n generalizing s with
  | zero => exact h
  | succ n ih =>
    unfold State.pumpN
    split
    · next t e => exact ih (h.epStep t e)
    · exact h

theorem State.Leads.pump (h : s₀.Leads s) : s₀.Leads s.pump :=
  h.ite h.epUnreachable.pumpN.epPoll.epDrain

theorem State.Leads.epIn {p : Nat} {f : Frame} {g : State → State} (h : s₀.Leads s) (hg : ∀ u, s₀.Leads u → s₀.Leads (g u)) : s₀.Leads (s.epIn p f g)
    :=
  h.ite (h.epTake hg).pump

theorem State.Leads.epEv {g : State → State} (h : s₀.Leads s) (hg : ∀ u, s₀.Leads u → s₀.Leads (g u)) : s₀.Leads (s.epEv g) :=
  h.ite (hg s h).pump

/-! #### The functions of Machine/Flights.lean -/

theorem State.Leads.onHost {g : HostIf → HostIf} (h : s₀.Leads s) : s₀.Leads (s.onHost g) :=
  h.onSw

theorem State.Leads.onOp {id : Nat} {g : HostOp → HostOp} (h : s₀.Leads s) : s₀.Leads (s.onOp id g) :=
  h.onHost

theorem State.Leads.hostFault {fn status : Nat} (h : s₀.Leads s) : s₀.Leads (s.hostFault fn status) :=
  h.record

theorem State.Leads.hostPiece {id off status : Nat} {data : List Byte} (h : s₀.Leads s) : s₀.Leads (s.hostPiece id off status data) := by
  unfold State.hostPiece
  split
  · exact h
  · refine (h.hostFault.ite h).onOp.ite ?_
    dsimp only
    split
    · exact (h.hostFault.ite h).onHost.emit.ite (h.hostFault.ite h).onHost
    · exact (h.hostFault.ite h).onHost

theorem State.Leads.startOp {o : HostOp} (h : s₀.Leads s) : s₀.Leads (s.startOp o) := by
  unfold State.startOp
  refine h.onOp.each fun _ _ h => h.hostPiece.ite ?_
  split
  · exact h.hostPiece
  · exact h.sendRequest

theorem State.Leads.startOps (h : s₀.Leads s) : s₀.Leads s.startOps :=
  h.each fun _ _ h => h.ite ((h.startOp.ite h).ite (h.startOp.ite h))

theorem State.Leads.hostAccess {fn : Nat} {ctag : Option Nat} {addr len : Nat} {data : List Byte} (h : s₀.Leads s) :
    s₀.Leads (s.hostAccess fn ctag addr len data) := by
  unfold State.hostAccess
  refine .ite ?_ h.onHost.startOps
  split
  · exact h.emit
  · exact h.count

theorem State.Leads.doneWritten {slot status : Nat} (h : s₀.Leads s) : s₀.Leads (s.doneWritten slot status) := by
  unfold State.doneWritten
  split
  · exact h
  · exact h.putGraph.ite (h.ite h.doneLost).freeSlot.escrowSettle

theorem State.Leads.ackInval {number engines : Nat} {f : Frame} (h : s₀.Leads s) : s₀.Leads (s.ackInval number engines f) :=
  h.swSend

theorem State.Leads.invalCheck {x : Inval} (h : s₀.Leads s) : s₀.Leads (s.invalCheck x) := by
  unfold State.invalCheck
  refine h.onXlat.ite ?_
  dsimp only
  split
  · exact (h.each fun _ _ hu => hu.ackInval).onXlat.finishWork.ite (h.each fun _ _ hu => hu.ackInval).onXlat
  · exact (h.each fun _ _ hu => hu.ackInval).onXlat

theorem State.Leads.onInval {number : Nat} {g : Inval → Inval} (h : s₀.Leads s) : s₀.Leads (s.onInval number g) :=
  h.onXlat

theorem State.Leads.invalPoll (h : s₀.Leads s) : s₀.Leads s.invalPoll :=
  h.each fun _ _ h => h.invalCheck

theorem State.Leads.noteBadWrite {x : Flight} {status : Nat} (h : s₀.Leads s) : s₀.Leads (s.noteBadWrite x status) :=
  h.ite h.onEscrow

theorem State.Leads.enginesGo (h : s₀.Leads s) : s₀.Leads s.enginesGo := by
  unfold State.enginesGo
  refine h.each fun _ _ h => ?_
  split
  · exact h
  · split
    · exact h
    · exact h.releaseTask.ite (h.resumeTask.ite h)

theorem State.Leads.endFlight {x : Flight} {status : Nat} {data : List Byte} (h : s₀.Leads s) : s₀.Leads (s.endFlight x status data) := by
  unfold State.endFlight
  refine .enginesGo ?_
  split
  · exact h.noteBadWrite.taskReply
  · exact h.noteBadWrite.doneWritten
  · exact h.noteBadWrite.hostPiece.startOps

theorem State.Leads.leaveHeld {fuel : Nat} (h : s₀.Leads s) : s₀.Leads (s.leaveHeld fuel) := by
  induction fuel generalizing s with
  | zero => exact h
  | succ fuel ih =>
    unfold State.leaveHeld
    split
    · exact h
    · refine (ih ?_)
      split
      · exact h.onEscrow.endFlight
      · exact h.onEscrow.endFlight.ite h.onEscrow.sendNow
      · exact h.onEscrow.endFlight

theorem State.Leads.flightsGo (h : s₀.Leads s) : s₀.Leads s.flightsGo :=
  h.leaveHeld.enginesGo.invalPoll

theorem State.Leads.completeFlight {x : Flight} {status : Nat} {data : List Byte} (h : s₀.Leads s) : s₀.Leads (s.completeFlight x status data) :=
  h.onEscrow.endFlight.flightsGo

theorem State.Leads.switchResponse {port : Nat} {f : Frame} (h : s₀.Leads s) : s₀.Leads (s.switchResponse port f) := by
  unfold State.switchResponse
  dsimp only
  split
  · exact h.takeInbox.completeFlight
  · exact h.takeInbox.count

theorem State.Leads.endHeld {x : Flight} {status : Nat} (h : s₀.Leads s) : s₀.Leads (s.endHeld x status) :=
  h.onEscrow.endFlight

theorem State.Leads.missEnds {n status : Nat} (h : s₀.Leads s) : s₀.Leads (s.missEnds n status) := by
  unfold State.missEnds
  refine .ite ?_ ?_
  · split
    · exact h.endTask.ite h
    · exact h
  · split
    · exact h.doneLost.freeSlot.escrowSettle.ite h
    · exact h

theorem State.Leads.switchTimeout {port : Nat} {r : Timed} (h : s₀.Leads s) : s₀.Leads (s.switchTimeout port r) := by
  unfold State.switchTimeout
  split
  · split
    · exact h.withdrawFlight.onEscrow.completeFlight
    · exact h
  · split
    · exact h.endHeld.flightsGo
    · exact h
  · exact h.missEnds

theorem State.Leads.translateAgain {x : Flight} (h : s₀.Leads s) : s₀.Leads (s.translateAgain x).2 := by
  unfold State.translateAgain
  dsimp only
  split
  · next x1 x2 e3 =>
      have k1 := h.lookup.of_eq e3
      split
      · next x1 x2 e3 =>
          have k2 := k1.engineMiss.of_eq e3
          exact k2
      · next x1 x2 x3 e4 =>
          have k2 := k1.engineMiss.of_eq e4
          exact k2
  · next x1 x2 x3 e4 =>
      have k1 := h.lookup.of_eq e4
      split
      · exact .pair k1.xlatFault
      · split
        · exact k1
        · split
          · exact k1
          · exact k1

theorem State.Leads.rehold {x : Flight} (h : s₀.Leads s) : s₀.Leads (s.rehold x) := by
  unfold State.rehold
  dsimp only
  split
  · next x1 x2 e3 =>
      have k1 := h.translateAgain.of_eq e3
      exact k1.onEscrow
  · next x1 x2 x3 e4 =>
      have k1 := h.translateAgain.of_eq e4
      exact k1.endHeld
  · next x1 x2 x3 e4 =>
      have k1 := h.translateAgain.of_eq e4
      exact k1.onEscrow

theorem State.Leads.retranslate {sel : Flight → Bool} (h : s₀.Leads s) : s₀.Leads (s.retranslate sel) :=
  (h.each fun _ _ h => h.rehold).flightsGo

theorem State.Leads.unsend {x : Flight} {again : Bool} (h : s₀.Leads s) : s₀.Leads (s.unsend x again) := by
  unfold State.unsend
  split
  · exact h
  · next x1 x2 e3 =>
      have k1 := h.takeUnsent _ e3
      exact k1.onEscrow

theorem State.Leads.dropXlat {ctx first count : Nat} (h : s₀.Leads s) : s₀.Leads (s.dropXlat ctx first count).2 := by
  unfold State.dropXlat
  dsimp only
  exact ((h.onXlat.each fun _ _ h => h.unsend).each fun _ _ h => h.unsend).onEscrow.retranslate

theorem State.Leads.segInvSwitch {port : Nat} {f : Frame} (h : s₀.Leads s) : s₀.Leads (s.segInvSwitch port f) := by
  unfold State.segInvSwitch
  refine .invalPoll ?_
  dsimp only
  split
  · exact h.takeInbox.onInval
  · exact h.takeInbox.dropXlat.onXlat

theorem State.Leads.beginInval {fn mb ctx first count : Nat} (h : s₀.Leads s) : s₀.Leads (s.beginInval fn mb ctx first count) := by
  unfold State.beginInval
  exact (((h.onXlat.onXlat.each fun _ _ h => h.unsend).each fun _ _ h => h.unsend).onEscrow.retranslate.onXlat.each fun _ _ h => h.onInval.ite
      h.swSend).invalPoll

theorem State.Leads.segInvAckSwitch {f : Frame} (h : s₀.Leads s) : s₀.Leads (s.segInvAckSwitch f) :=
  h.takeInbox.onInval.invalPoll

theorem State.Leads.drainTimeout {number : Nat} (h : s₀.Leads s) : s₀.Leads (s.drainTimeout number) := by
  unfold State.drainTimeout
  split
  · exact h
  · exact h.onInval.fenceEngines.flightsGo

theorem State.Leads.invalGone {h' : Nat} (h : s₀.Leads s) : s₀.Leads (s.invalGone h') :=
  h.onXlat.invalPoll

/-! #### The functions of Machine/Fence.lean -/

theorem State.Leads.onEpRec {h' : Nat} {g : EpRec → EpRec} (h : s₀.Leads s) : s₀.Leads (s.onEpRec h' g) :=
  h.onSw

theorem State.Leads.verdictOut {p h' : Nat} {data : List Byte} (h : s₀.Leads s) : s₀.Leads (s.verdictOut p h' data) :=
  h.count.emit.ite h

theorem State.Leads.applyVerdict {h' old cause : Nat} {came : Option Nat} (h : s₀.Leads s) : s₀.Leads (s.applyVerdict h' old cause came) :=
  h.ite (h.onEpRec.floodPast.loseTarget.verdictOut.fencePort.ite h.onEpRec.floodPast.loseTarget).loseHolder.loseMember.invalGone.record

theorem State.Leads.giveVerdict {h' cause : Nat} (h : s₀.Leads s) : s₀.Leads (s.giveVerdict h' cause) :=
  h.ite (h.onSw.ite h.applyVerdict)

theorem State.Leads.judge {h' : Nat} (h : s₀.Leads s) : s₀.Leads (s.judge h') :=
  h.giveVerdict.ite h

theorem State.Leads.miss {h' : Nat} (h : s₀.Leads s) : s₀.Leads (s.miss h') :=
  h.onEpRec.ite h.onEpRec.sendOn.judge

theorem State.Leads.heartbeatInstant (h : s₀.Leads s) : s₀.Leads s.heartbeatInstant :=
  h.ite (h.each fun _ _ h => h.ite (h.ite ((h.miss.ite h).onEpRec.mgmtOut.ite (h.miss.ite h).onEpRec)))

theorem State.Leads.heartbeatAck {h' : Nat} {data : List Byte} (h : s₀.Leads s) : s₀.Leads (s.heartbeatAck h' data) :=
  h.onEpRec

theorem State.Leads.suspectSwitch {h' inc sender : Nat} (h : s₀.Leads s) : s₀.Leads (s.suspectSwitch h' inc sender) :=
  h.ite h.onEpRec.judge

theorem State.Leads.verdictSwitch {came : Nat} {f : Frame} (h : s₀.Leads s) : s₀.Leads (s.verdictSwitch came f) :=
  h.onSw.ite h.applyVerdict

theorem State.Leads.fenceAgent {h' a : Nat} (h : s₀.Leads s) : s₀.Leads (s.fenceAgent h' a) :=
  h.ite (h.onSw.record.loseMember.mgmtOut.ite h.onSw.record.loseMember)

theorem State.Leads.clearAgent {h' a : Nat} (h : s₀.Leads s) : s₀.Leads (s.clearAgent h' a) :=
  h.onSw.mgmtOut.ite h.onSw

theorem State.Leads.onRegion {i : Nat} {g : Region → Region} (h : s₀.Leads s) : s₀.Leads (s.onRegion i g) :=
  h.onHome

theorem State.Leads.sendRegionInv {owner region : Nat} (h : s₀.Leads s) : s₀.Leads (s.sendRegionInv owner region) :=
  h.swSend

theorem State.Leads.beginRegion {i fn mb mode owner : Nat} {handover : Bool} (h : s₀.Leads s) : s₀.Leads (s.beginRegion i fn mb mode owner handover)
    :=
  ((h.onRegion.ite h).onHome.sendRegionInv.ite (h.onRegion.ite h).onHome).takeBackDue

theorem State.Leads.regionCheck (h : s₀.Leads s) : s₀.Leads s.regionCheck := by
  unfold State.regionCheck
  refine (h.takeBackDue.each fun _ _ h => h.onHome.onRegion).each fun _ _ h => h.ite ?_
  split
  · exact h.finishWork.ite h
  · exact h

theorem State.Leads.regionDone {owner region : Nat} (h : s₀.Leads s) : s₀.Leads (s.regionDone owner region) :=
  h.onHome.regionCheck

theorem State.Leads.handoverLate {region : Nat} (h : s₀.Leads s) : s₀.Leads (s.handoverLate region) := by
  unfold State.handoverLate
  split
  · exact h
  · exact h.onHome.onActive.giveVerdict.onRegion.regionCheck

theorem State.Leads.regionGone (h : s₀.Leads s) : s₀.Leads s.regionGone :=
  (h.each fun _ _ h => h.onActive).onHome.regionCheck

theorem State.Leads.coherenceLate {line h' : Nat} (h : s₀.Leads s) : s₀.Leads (s.coherenceLate line h') := by
  unfold State.coherenceLate
  split
  · exact h
  · exact h.giveVerdict.regionGone.ite h

/-! #### The functions of Machine/Answers.lean -/

theorem State.Leads.responseAt {d : Dev} {port : Nat} {f : Frame} (h : s₀.Leads s) : s₀.Leads (s.responseAt d port f) := by
  unfold State.responseAt
  split
  · exact h.switchResponse
  · exact h.epIn fun _ hu => hu.epResponse

theorem State.Leads.execReadRsp {d : Dev} {port : Nat} {f : Frame} (h : s₀.Leads s) : s₀.LeadsBy (execReadRsp d port f s) :=
  h.responseAt.next

theorem State.Leads.execWriteRsp {d : Dev} {port : Nat} {f : Frame} (h : s₀.Leads s) : s₀.LeadsBy (execWriteRsp d port f s) :=
  h.responseAt.next

theorem State.Leads.execAtomicRsp {d : Dev} {port : Nat} {f : Frame} (h : s₀.Leads s) : s₀.LeadsBy (execAtomicRsp d port f s) :=
  h.responseAt.next

theorem State.Leads.execSnoop {port : Nat} {f : Frame} (h : s₀.Leads s) : s₀.LeadsBy (execSnoop port f s) :=
  (h.epIn fun _ h => h.snoopArrives).next

theorem State.Leads.snoopRspAt {d : Dev} {port : Nat} {f : Frame} (h : s₀.Leads s) : s₀.Leads (s.snoopRspAt d port f) := by
  unfold State.snoopRspAt
  dsimp only
  split
  · exact h.takeInbox.regionDone.ite h.takeInbox.homeSnoopRsp.regionCheck
  · exact h.epIn fun _ hu => hu.epRegionDone.ite hu

theorem State.Leads.execSnoopRsp {d : Dev} {port : Nat} {f : Frame} (h : s₀.Leads s) : s₀.LeadsBy (execSnoopRsp d port f s) :=
  h.snoopRspAt.next

theorem State.Leads.fwdDataAt {d : Dev} {port : Nat} {f : Frame} (h : s₀.Leads s) : s₀.Leads (s.fwdDataAt d port f) := by
  unfold State.fwdDataAt
  split
  · exact h.takeInbox.homeFwdData.regionCheck
  · exact h.epIn fun _ hu => hu.epResponse

theorem State.Leads.execFwdData {d : Dev} {port : Nat} {f : Frame} (h : s₀.Leads s) : s₀.LeadsBy (execFwdData d port f s) :=
  h.fwdDataAt.next

theorem State.Leads.execWriteback {_port : Nat} {f : Frame} (h : s₀.Leads s) : s₀.LeadsBy (execWriteback _port f s) :=
  h.takeInbox.homeWriteback.regionCheck.next

theorem State.Leads.cohAckAt {d : Dev} {port : Nat} {f : Frame} (h : s₀.Leads s) : s₀.Leads (s.cohAckAt d port f) := by
  unfold State.cohAckAt
  split
  · exact h.takeInbox.homeCohAck.regionCheck
  · exact h.epIn fun _ hu => hu.fillAcked

theorem State.Leads.execCohAck {d : Dev} {port : Nat} {f : Frame} (h : s₀.Leads s) : s₀.LeadsBy (execCohAck d port f s) :=
  h.cohAckAt.next

theorem State.Leads.execBackInv {port : Nat} {f : Frame} (h : s₀.Leads s) : s₀.LeadsBy (execBackInv port f s) :=
  (h.epIn fun _ h => h.epRegionInv.ite h.snoopArrives).next

theorem State.Leads.execDepositFill {port : Nat} {f : Frame} (h : s₀.Leads s) : s₀.LeadsBy (execDepositFill port f s) :=
  (h.epIn fun _ h => h.depositFill).next

theorem State.Leads.execHoldEnd {fga : Nat} (h : s₀.Leads s) : s₀.LeadsBy (execHoldEnd fga s) :=
  (h.epEv fun _ h => h.holdEnd).next

theorem State.Leads.execCoherenceAnswerTimeout {d : Dev} {line endpoint : Nat} (h : s₀.Leads s) :
    s₀.LeadsBy (execCoherenceAnswerTimeout d line endpoint s) := by
  unfold Machine.execCoherenceAnswerTimeout
  refine .next ?_
  split
  · exact h.coherenceLate
  · exact h.epEv fun _ hu => hu.epFillLate

theorem State.Leads.execHandoverTimeout {d : Dev} {region : Nat} (h : s₀.Leads s) : s₀.LeadsBy (execHandoverTimeout d region s) := by
  unfold Machine.execHandoverTimeout
  refine .next ?_
  split
  · exact h.handoverLate
  · exact h.epEv fun _ hu => hu.epHandoverLate

theorem State.Leads.execInputAck {port : Nat} {f : Frame} (h : s₀.Leads s) : s₀.LeadsBy (execInputAck port f s) :=
  (h.epIn fun _ h => h.inputAcked).next

theorem State.Leads.execInputAckTimeout {port tag : Nat} (h : s₀.Leads s) : s₀.LeadsBy (execInputAckTimeout port tag s) :=
  (h.epEv fun _ h => h.inputUnacked).next

/-! #### The functions of Machine/Power.lean -/

theorem State.Leads.onPower {g : Power → Power} (h : s₀.Leads s) : s₀.Leads (s.onPower g) :=
  h.onSw

theorem State.Leads.onDomain {kind index : Nat} {g : Domain → Domain} (h : s₀.Leads s) : s₀.Leads (s.onDomain kind index g) :=
  h.onPower

theorem State.Leads.loseChannel {c : Nat} (h : s₀.Leads s) : s₀.Leads (s.loseChannel c) := h.onMem fun _ => Memory.wf_filter _

theorem Home.zeroStep_wf (m : Home) (step : Nat) (h : Memory.wf m.mem = true) : Memory.wf (m.zeroStep step).mem = true := Memory.wf_filter _ h

theorem State.Leads.loseBank {g : Nat} (h : s₀.Leads s) : s₀.Leads (s.loseBank g) := by
  unfold State.loseBank
  refine State.Leads.onHome (h.onMem fun m => m.flushCache_sound _) fun m hw => ?_
  exact List.foldlRecOn (motive := fun n : Home => Memory.wf n.mem = true) _ Home.zeroStep hw fun n hn i _ => n.zeroStep_wf i hn

theorem State.Leads.beginExit {kind index : Nat} (h : s₀.Leads s) : s₀.Leads (s.beginExit kind index) :=
  h.onDomain.emit.ite h.onDomain

theorem State.Leads.enter {kind index st : Nat} (h : s₀.Leads s) : s₀.Leads (s.enter kind index st) :=
  h.ite (h.onDomain.ite h.onDomain)

theorem State.Leads.askPower {d : Dev} {p st : Nat} (h : s₀.Leads s) : s₀.Leads (s.askPower d p st) :=
  h.onLink.mgmtOut

theorem State.Leads.idleHold {kind index : Nat} (h : s₀.Leads s) : s₀.Leads (s.idleHold kind index) :=
  (h.ite (h.enter.askPower.ite h.enter)).ite h.enter

theorem State.Leads.revote {kind index : Nat} (h : s₀.Leads s) : s₀.Leads (s.revote kind index) :=
  h.trans (State.revote_told _ _ _).leads

theorem State.Leads.revoteAll (h : s₀.Leads s) : s₀.Leads s.revoteAll :=
  h.trans (State.revoteAll_told _).leads

theorem State.Leads.powerReqSw {p st : Nat} (h : s₀.Leads s) : s₀.Leads (s.powerReqSw p st) :=
  h.onLink.mgmtOut.enter.revote.ite h.onLink.mgmtOut

theorem State.Leads.powerAckSw {p a : Nat} (h : s₀.Leads s) : s₀.Leads (s.powerAckSw p a) :=
  h.ite h.onLink.enter

theorem State.Leads.epPower {p a : Nat} (h : s₀.Leads s) : s₀.Leads (s.epPower p a) :=
  h.onLink.ite (h.onLink.onEp.ite h)

theorem State.Leads.powerReqEp {p st : Nat} (h : s₀.Leads s) : s₀.Leads (s.powerReqEp p st) :=
  h.mgmtOut.drainQueue.epPower

theorem State.Leads.entryDone {kind index : Nat} (h : s₀.Leads s) : s₀.Leads (s.entryDone kind index) := by
  unfold State.entryDone
  dsimp only
  split
  · exact h
  · exact ((h.onDomain.onPort.ite h.onDomain.onPort.onSw).ite (h.onDomain.ite (h.onDomain.onXlat.ite (h.onDomain.loseChannel.ite
      (h.onDomain.loseBank.ite h.onDomain))))).beginExit.ite ((h.onDomain.onPort.ite h.onDomain.onPort.onSw).ite (h.onDomain.ite
          (h.onDomain.onXlat.ite (h.onDomain.loseChannel.ite (h.onDomain.loseBank.ite h.onDomain)))))

theorem State.Leads.stageReady {kind index : Nat} (h : s₀.Leads s) : s₀.Leads (s.stageReady kind index) := by
  unfold State.stageReady
  dsimp only
  split
  · exact h
  · refine h.onDomain.ite ((h.onDomain.onPort.ite (h.onDomain.onPort.emit.ite h.onDomain)).ite (.ite ?_ h.onDomain))
    split
    · exact h.onDomain.resumeTask.escrowSettle
    · exact h.onDomain.escrowSettle

theorem State.Leads.stageLate {kind index : Nat} (h : s₀.Leads s) : s₀.Leads (s.stageLate kind index) :=
  h.ite (h.onDomain.record.fencePort.regionGone.invalPoll.ite (h.onDomain.record.fenceEngine.ite (h.onDomain.record.fenceChannel.ite
      h.onDomain.record)))

theorem State.Leads.wakeAll (h : s₀.Leads s) : s₀.Leads s.wakeAll :=
  h.ite (h.each fun _ _ h => h.work)

theorem State.Leads.setVoltage {d : Dev} {mV : Nat} (h : s₀.Leads s) : s₀.Leads (s.setVoltage d mV) := by
  unfold State.setVoltage
  dsimp only
  split
  · exact h.ite h.onPower.emit
  · exact h.ite h.onEp.emit

theorem State.Leads.lowerAtOnce (h : s₀.Leads s) : s₀.Leads s.lowerAtOnce := by
  unfold State.lowerAtOnce
  exact h.free.setVoltage

theorem State.Leads.holdEngine (h : s₀.Leads s) : s₀.Leads s.holdEngine := by
  unfold State.holdEngine
  split
  · exact h
  · exact h.putEngine.onPower.count

theorem State.Leads.releaseEngine (h : s₀.Leads s) : s₀.Leads s.releaseEngine := by
  unfold State.releaseEngine
  split
  · exact h
  · dsimp only
    split
    · exact h.putEngine.onPower.resumeTask.escrowSettle
    · exact h.putEngine.onPower.escrowSettle

theorem State.Leads.regulate {watts : Nat} (h : s₀.Leads s) : s₀.Leads (s.regulate watts) :=
  (((h.onPower.holdEngine.ite (h.onPower.setVoltage.ite (h.onPower.lowerAtOnce.ite h.onPower.holdEngine))).ite (h.onPower.ite
      (h.onPower.setVoltage.ite (h.onPower.setVoltage.ite h.onPower)))).onPower.releaseEngine.ite ((h.onPower.holdEngine.ite
          (h.onPower.setVoltage.ite (h.onPower.lowerAtOnce.ite h.onPower.holdEngine))).ite (h.onPower.ite (h.onPower.setVoltage.ite
              (h.onPower.setVoltage.ite h.onPower)))).onPower).ite ((h.onPower.holdEngine.ite (h.onPower.setVoltage.ite (h.onPower.lowerAtOnce.ite
                  h.onPower.holdEngine))).ite (h.onPower.ite (h.onPower.setVoltage.ite (h.onPower.setVoltage.ite h.onPower)))).onPower

theorem State.Leads.epRegulate {watts : Nat} (h : s₀.Leads s) : s₀.Leads (s.epRegulate watts) :=
  (h.setVoltage.ite h).ite (h.setVoltage.ite (h.setVoltage.ite h))

theorem State.Leads.balance {readings : List Nat} (h : s₀.Leads s) : s₀.Leads (s.balance readings) :=
  ((h.onPower.setEvent.ite h.onPower).ite (h.onPower.setEvent.ite h.onPower).onPower.record.setEvent).ite (h.onPower.setEvent.ite h.onPower).onPower

theorem State.Leads.setSlow {v : Bool} (h : s₀.Leads s) : s₀.Leads (s.setSlow v) :=
  h.ite h.onSched.reportNeeds

theorem State.Leads.brakeNow (h : s₀.Leads s) : s₀.Leads s.brakeNow :=
  h.setEvent.ite h.setEvent.lowerAtOnce

theorem State.Leads.brake (h : s₀.Leads s) : s₀.Leads s.brake :=
  h.ite (h.onSw.brakeNow.ite h.onSw)

theorem State.Leads.unbrake (h : s₀.Leads s) : s₀.Leads s.unbrake :=
  h.onSw

theorem State.Leads.throttleAt {degrees : Nat} (h : s₀.Leads s) : s₀.Leads (s.throttleAt degrees) :=
  h.ite (h.onPower.record.setEvent.ite h.onPower)

theorem State.Leads.sealAll (h : s₀.Leads s) : s₀.Leads s.sealAll :=
  h.trans (State.sealAll_report _).leads

theorem State.Leads.selfRefresh (h : s₀.Leads s) : s₀.Leads s.selfRefresh :=
  h.each fun _ _ h => h.onDomain

theorem State.Leads.trip (h : s₀.Leads s) : s₀.Leads s.trip :=
  h.ite (((h.onSw.emit.record.sealAll.each fun _ _ h => h.ite h.leavePort).each fun _ _ h => h.each fun _ _ hu => (hu.onXlat.ite (hu.loseBank.ite
      hu)).onDomain).each fun _ _ h => h.onDomain).selfRefresh.refreshAlert

theorem State.Leads.turnOff (h : s₀.Leads s) : s₀.Leads s.turnOff :=
  (h.onSw.emit.ite h).onSw.refreshAlert

/-! #### The functions of Machine/Movement.lean -/

theorem State.Leads.onCore {g : Core → Core} (h : s₀.Leads s) : s₀.Leads (s.onCore g) :=
  h.onSw

theorem State.Leads.spendTokens {p : Nat} {f : Frame} (h : s₀.Leads s) : s₀.Leads (s.spendTokens p f) :=
  h.each fun _ _ h => h.onCore

theorem State.Leads.markFrame {p : Nat} {f : Frame} (h : s₀.Leads s) : s₀.Leads (s.markFrame p f).2 := by
  unfold State.markFrame
  dsimp only
  split
  · exact h
  · exact .pair h.onCore.count

theorem State.Leads.answered {p : Nat} {f : Frame} (h : s₀.Leads s) : s₀.Leads (s.answered p f) := by
  unfold State.answered
  refine h.ite ?_
  split
  · exact h.onCore
  · exact h

theorem State.Leads.queueDecision {p : Nat} {b : Buffered} (h : s₀.Leads s) : s₀.Leads (s.queueDecision p b) := by
  unfold State.queueDecision
  refine (h.returnCredit.ite h).count.freeCells.ite ((h.returnCredit.ite h).count.answerIn.ite ?_)
  dsimp only
  split
  · exact (h.returnCredit.ite h).count.answerIn
  · exact (h.returnCredit.ite h).count.freeCells.ite ((h.returnCredit.ite h).count.answerIn.ite ((h.returnCredit.ite h).count.answerIn.ite
      (((h.returnCredit.ite h).answered.ite (h.returnCredit.ite h)).count.freeCells.ite (((h.returnCredit.ite h).answered.ite (h.returnCredit.ite
          h)).join.ite ((h.returnCredit.ite h).answered.ite (h.returnCredit.ite h)).noteDiscard.discardIn))))

theorem State.Leads.frameEnters {p : Nat} {f : Frame} {whole : Bool} {mark : Nat} (h : s₀.Leads s) : s₀.Leads (s.frameEnters p f whole mark) := by
  unfold State.frameEnters
  split
  · exact h
  · dsimp only
    have hp := (h.count (block := blkPort p) (i := cFramesRx)).work (kind := 0) (index := p)
    have hb := hp.placeFrame (src := p) (vc := ((s.count (blkPort p) cFramesRx).work 0 p).sw.vcIn p f) (f := f) (whole := whole) (mark := mark)
    split
    · exact hb.onCore.ite hb.onCore.returnCredit
    · have hm := hb.markFrame (p := p) (f := f)
      split
      · exact hm.onCore.ite hm.onCore.returnCredit
      · exact State.Leads.queueDecision (hm.ite hm.returnCredit)

theorem State.Leads.frameArrival {p : Nat} {f : Frame} (h : s₀.Leads s) : s₀.Leads (s.frameArrival p f) :=
  h.frameEnters

theorem State.Leads.tailArrives {p mark : Nat} {f : Frame} (h : s₀.Leads s) : s₀.Leads (s.tailArrives p mark f) :=
  ((h.answered.ite h).onCore.each fun _ _ h => h.endCut.emit).onCore

theorem State.Leads.activation {ledger seq opcode : Nat} {d : Digest} (h : s₀.Leads s) : s₀.Leads (s.activation ledger seq opcode d) :=
  h.ledgerAdd

theorem State.Leads.releaseRed {key fuel : Nat} (h : s₀.Leads s) : s₀.Leads (s.releaseRed key fuel) := by
  induction fuel generalizing s with
  | zero => exact h
  | succ n ih =>
    unfold State.releaseRed
    split
    · exact h
    · next b rest _ =>
      have hm := h.markFrame (p := key / 16) (f := b.f)
      dsimp only
      split
      · exact hm
      · exact ih hm.onCore.settleOwed.queueDecision

theorem State.Leads.bucketRefill (h : s₀.Leads s) : s₀.Leads s.bucketRefill :=
  ((h.onCore.each fun _ _ h => (h.ite h.onCore).activation).each fun _ _ h => (h.ite h.onCore).activation).each fun _ _ h => h.releaseRed

theorem State.Leads.discardAged {o : Nat} {b : Buffered} (h : s₀.Leads s) : s₀.Leads (s.discardAged o b) :=
  (h.count.ite h).answerIn

theorem State.Leads.headerWins {o q : Nat} {b : Buffered} (h : s₀.Leads s) : s₀.Leads (s.headerWins o q b) :=
  h.onCore.onCore.onCore.ite (h.onCore.discardAged.ite (h.onCore.freeCells.ite h.onCore.onCore).spendTokens.onCore.count.emit.onCore)

theorem State.Leads.draw {m : Nat × Ask} (h : s₀.Leads s) : s₀.Leads (s.draw m) := by
  unfold State.draw
  split
  · exact h.headerWins
  · exact h.onCore

theorem State.Leads.countShaperWait (h : s₀.Leads s) : s₀.Leads s.countShaperWait := by
  unfold State.countShaperWait
  refine h.each fun _ _ h => h.each fun _ _ hu => ?_
  split
  · exact hu.count.ite hu
  · exact hu

theorem State.Leads.matcherRound (h : s₀.Leads s) : s₀.Leads s.matcherRound :=
  ((((h.each fun _ _ h => h.discardQueues).countShaperWait.each fun _ _ h => h.draw).each fun _ _ h => h.onCore).each fun _ _ h =>
      h.settleOwed).flightsGo

theorem State.Leads.sampleQueue {o q : Nat} (h : s₀.Leads s) : s₀.Leads (s.sampleQueue o q) := by
  unfold State.sampleQueue
  exact h.onSw

theorem State.Leads.residence {b : Buffered} (h : s₀.Leads s) : s₀.Leads (s.residence b) :=
  h.count.record.answerIn

theorem State.Leads.discardStale (h : s₀.Leads s) : s₀.Leads s.discardStale :=
  (h.onCore.each fun _ _ h => h.residence).each fun _ _ h => h.voidFree.residence

theorem State.Leads.queueSample (h : s₀.Leads s) : s₀.Leads s.queueSample :=
  (h.each fun _ _ h => h.each fun _ _ hu => hu.sampleQueue).discardStale

theorem State.Leads.slotMisses {p before after : Nat} (h : s₀.Leads s) : s₀.Leads (s.slotMisses p before after) :=
  h.trans (State.slotMisses_told _ _ _ _).leads

theorem State.Leads.gateEntryEnd {d : Dev} {p : Nat} (h : s₀.Leads s) : s₀.Leads (s.gateEntryEnd d p) := by
  unfold State.gateEntryEnd
  dsimp only
  split
  · exact h.nextEntry.slotMisses
  · exact h.nextEntry.epDrain

theorem State.Leads.reopen {d : Dev} (h : s₀.Leads s) : s₀.Leads (s.reopen d) :=
  h.each fun _ _ h => h.onGate.ite h

theorem State.Leads.restartGates {d : Dev} {before : List Nat} {at_ : Nat} (h : s₀.Leads s) : s₀.Leads (s.restartGates d before at_) := by
  unfold State.restartGates
  refine h.each fun _ _ h => ?_
  dsimp only
  split
  · exact h.onGate.slotMisses
  · exact h.onGate

theorem State.Leads.loadBuckets {k : Package} {point order : Nat} (h : s₀.Leads s) : s₀.Leads (s.loadBuckets k point order) :=
  h.onCore

theorem State.Leads.activate {d : Dev} {k : Package} {cycle : Nat} (h : s₀.Leads s) : s₀.Leads (s.activate d k cycle) := by
  unfold State.activate
  dsimp only
  split
  · exact h.onSched
  · exact h.onSched.loadBuckets.setEvent.activation

theorem State.Leads.bookDue {d : Dev} {cycle : Nat} (h : s₀.Leads s) : s₀.Leads (s.bookDue d cycle) := by
  unfold State.bookDue
  split
  · exact h.ifThen fun _ hu => hu.onSched.takeBook
  · exact h

theorem State.Leads.cycleBoundary {d : Dev} {cycle : Nat} (h : s₀.Leads s) : s₀.Leads (s.cycleBoundary d cycle) := by
  unfold State.cycleBoundary
  dsimp only
  split
  · refine .revoteAll ?_
    split
    · refine h.bookDue.activate.restartGates.reopen.decideBook.ite ?_
      split
      · exact h.bookDue.onSched.restartGates.reopen.decideBook
      · exact h.bookDue
    · split
      · exact h.bookDue.onSched.restartGates.reopen.decideBook
      · exact h.bookDue
  · refine .epDrain ?_
    split
    · refine h.bookDue.activate.restartGates.reopen.ite ?_
      split
      · exact h.bookDue.onSched.restartGates.reopen
      · exact h.bookDue
    · split
      · exact h.bookDue.onSched.restartGates.reopen
      · exact h.bookDue

theorem State.Leads.execFrameArrival {port : Nat} {f : Frame} (h : s₀.Leads s) : s₀.LeadsBy (execFrameArrival port f s) :=
  h.frameArrival.next

theorem State.Leads.execQueueSample (h : s₀.Leads s) : s₀.LeadsBy (execQueueSample s) :=
  h.queueSample.next

theorem State.Leads.execBucketRefill (h : s₀.Leads s) : s₀.LeadsBy (execBucketRefill s) :=
  h.bucketRefill.next

theorem State.Leads.execGateEntryEnd {d : Dev} {port : Nat} (h : s₀.Leads s) : s₀.LeadsBy (execGateEntryEnd d port s) :=
  h.gateEntryEnd.next

theorem State.Leads.execCycleBoundary {d : Dev} {cycle : Nat} (h : s₀.Leads s) : s₀.LeadsBy (execCycleBoundary d cycle s) :=
  h.cycleBoundary.next

/-! #### The functions of Machine/Escapement.lean -/

theorem State.Leads.takeTheta {d : Dev} {th : Int} (h : s₀.Leads s) : s₀.Leads (s.takeTheta d th) :=
  h.onClock.onClock.realign.ite h.onClock.onClock

theorem State.Leads.configValues {p : Nat} (h : s₀.Leads s) : s₀.Leads (s.configValues p) :=
  h.ite h.relayEp.relayEp

theorem State.Leads.sendAdmit {p : Nat} (h : s₀.Leads s) : s₀.Leads (s.sendAdmit p) :=
  h.ite h.onEpRec.mgmtOut.configValues

theorem State.Leads.portActive {d : Dev} {p : Nat} (h : s₀.Leads s) : s₀.Leads (s.portActive d p) := by
  unfold State.portActive
  dsimp only
  split
  · exact ((h.closePort.ite h).onPort.onCore.sendAdmit.ite (h.closePort.ite h).onPort.onCore).retime
  · exact (h.closePort.ite h).onLink.onEp.retime.epDrain

theorem State.Leads.probeTimer {d : Dev} {p : Nat} (h : s₀.Leads s) : s₀.Leads (s.probeTimer d p) :=
  h.ite h.onClock.emit.emit

theorem State.Leads.timeEnds {d : Dev} {p : Nat} (h : s₀.Leads s) : s₀.Leads (s.timeEnds d p) :=
  h.portActive.ite h

theorem State.Leads.probeReq {d : Dev} {p id at_ : Nat} (h : s₀.Leads s) : s₀.Leads (s.probeReq d p id at_) :=
  h.ite (h.emit.emit.onLink.timeEnds.ite h.emit.emit)

theorem State.Leads.probeRsp {d : Dev} {p id turn t2 t4 : Nat} (h : s₀.Leads s) : s₀.Leads (s.probeRsp d p id turn t2 t4) := by
  unfold State.probeRsp
  split
  · exact h
  · exact h.ite ((h.onClock.takeTheta.ite h.onClock).onLink.timeEnds.ite (h.onClock.takeTheta.ite h.onClock))

theorem State.Leads.probeInfo {d : Dev} {p : Nat} {a : Advert} (h : s₀.Leads s) : s₀.Leads (s.probeInfo d p a) := by
  unfold State.probeInfo
  refine h.ite ((h.onClock.onClock.ite h.onClock).retime.onGate.ite ?_)
  dsimp only
  split
  · exact (h.onClock.onClock.ite h.onClock).retime.onGate.record.setLate.ite (h.onClock.onClock.ite h.onClock).retime.onGate
  · exact (h.onClock.onClock.ite h.onClock).retime.onGate.setLate.ite (h.onClock.onClock.ite h.onClock).retime.onGate

theorem State.Leads.masterLost (h : s₀.Leads s) : s₀.Leads s.masterLost :=
  h.ite (h.ite (h.onClock.onClock.onSched.decideBook.ite (h.onClock.enterHoldover.ite h.onClock.retime)))

theorem State.Leads.ppsIn (h : s₀.Leads s) : s₀.Leads s.ppsIn :=
  h.onClock.ite h

theorem State.Leads.wholeSecond (h : s₀.Leads s) : s₀.Leads s.wholeSecond :=
  h.emit.emit

theorem State.Leads.mgmtAt {d : Dev} {p : Nat} {f : Frame} {g : State → State} (h : s₀.Leads s) (hg : ∀ u, s₀.Leads u → s₀.Leads (g u)) :
    s₀.Leads (s.mgmtAt d p f g) := by
  cases d with
  | sw => exact hg _ h.takeInbox
  | ep => exact h.epIn hg

theorem State.Leads.bookReport {d : Dev} {p : Nat} {data : List Byte} (h : s₀.Leads s) : s₀.Leads (s.bookReport d p data) := by
  unfold State.bookReport
  dsimp only
  split
  · exact h.flood.noteReport
  · exact h.flood

theorem State.Leads.bookAck {d : Dev} {p number : Nat} (h : s₀.Leads s) : s₀.Leads (s.bookAck d p number) := by
  unfold State.bookAck
  split
  · exact h.onSched.ite h
  · exact h

theorem State.Leads.bookResend {d : Dev} {p : Nat} (h : s₀.Leads s) : s₀.Leads (s.bookResend d p) := by
  unfold State.bookResend
  split
  · exact h
  · exact h.sendBookSet.ite h.onSched

theorem State.Leads.execBookReport {d : Dev} {port : Nat} {f : Frame} (h : s₀.Leads s) : s₀.LeadsBy (execBookReport d port f s) :=
  (h.mgmtAt fun _ h => h.bookReport).next

theorem State.Leads.execBookSet {d : Dev} {port : Nat} {f : Frame} (h : s₀.Leads s) : s₀.LeadsBy (execBookSet d port f s) :=
  (h.mgmtAt fun _ h => h.bookSetArrives).next

theorem State.Leads.execBookAck {d : Dev} {port : Nat} {f : Frame} (h : s₀.Leads s) : s₀.LeadsBy (execBookAck d port f s) :=
  (h.mgmtAt fun _ h => h.bookAck).next

theorem State.Leads.execBookSetResend {d : Dev} {port : Nat} (h : s₀.Leads s) : s₀.LeadsBy (execBookSetResend d port s) :=
  h.bookResend.next

theorem State.Leads.execReturnHoldEnd (h : s₀.Leads s) : s₀.LeadsBy (execReturnHoldEnd s) :=
  h.decideBook.next

theorem State.Leads.execSlowSet (h : s₀.Leads s) : s₀.LeadsBy (execSlowSet s) :=
  (h.setSlow.ite h).next

theorem State.Leads.execSlowClear (h : s₀.Leads s) : s₀.LeadsBy (execSlowClear s) :=
  (h.setSlow.ite h).next

theorem State.Leads.execProbeReq {d : Dev} {port id at_ : Nat} (h : s₀.Leads s) : s₀.LeadsBy (execProbeReq d port id at_ s) :=
  h.probeReq.next

theorem State.Leads.execProbeRsp {dev : Dev} {port id d t2 t4 : Nat} (h : s₀.Leads s) : s₀.LeadsBy (execProbeRsp dev port id d t2 t4 s) :=
  h.probeRsp.next

theorem State.Leads.execProbeInfo {d : Dev} {port hops book : Nat} {master valid viaStandby : Bool} {_change packageId : Nat} (h : s₀.Leads s) :
    s₀.LeadsBy (execProbeInfo d port hops book master valid viaStandby _change packageId s) :=
  h.probeInfo.next

theorem State.Leads.execProbeTimer {d : Dev} {port : Nat} (h : s₀.Leads s) : s₀.LeadsBy (execProbeTimer d port s) :=
  h.probeTimer.next

theorem State.Leads.execFrequencySourceFail {d : Dev} (h : s₀.Leads s) : s₀.LeadsBy (execFrequencySourceFail d s) :=
  h.sourceFails.next

theorem State.Leads.execTimeMasterLost (h : s₀.Leads s) : s₀.LeadsBy (execTimeMasterLost s) :=
  h.masterLost.next

theorem State.Leads.execPpsIn (h : s₀.Leads s) : s₀.LeadsBy (execPpsIn s) :=
  h.ppsIn.next

theorem State.Leads.execWholeSecond (h : s₀.Leads s) : s₀.LeadsBy (execWholeSecond s) :=
  h.wholeSecond.next

/-! #### The functions of Machine/Registers.lean -/

theorem State.Leads.clearSwEvent {v : Nat} (h : s₀.Leads s) : s₀.Leads (s.clearSwEvent v) :=
  (h.onHost.onSw.ite h.onHost).refreshAlert

theorem State.Leads.clearEpEvent {v : Nat} (h : s₀.Leads s) : s₀.Leads (s.clearEpEvent v) :=
  h.onEp.epAlert

theorem State.Leads.clearChanged {d : Dev} {p v : Nat} (h : s₀.Leads s) : s₀.Leads (s.clearChanged d p v) :=
  h.onLink.ite h

theorem State.Leads.onTeller {g : Teller → Teller} (h : s₀.Leads s) : s₀.Leads (s.onTeller g) :=
  h.onSw

theorem State.Leads.onMailbox {fn mb : Nat} {g : Mailbox → Mailbox} (h : s₀.Leads s) : s₀.Leads (s.onMailbox fn mb g) :=
  h.onTeller

theorem State.Leads.mailboxHostWrite {fn mb o n v : Nat} (h : s₀.Leads s) : s₀.Leads (s.mailboxHostWrite fn mb o n v) :=
  h.count.ite ((h.onMailbox.onTeller.ite h.onMailbox).ite h.onMailbox)

theorem State.Leads.writeAperture {fn a b o n v : Nat} (h : s₀.Leads s) : s₀.Leads (s.writeAperture fn a b o n v) := by
  unfold State.writeAperture
  exact h.onHost

theorem State.Leads.writeMsix {fn o : Nat} {v : Byte} (h : s₀.Leads s) : s₀.Leads (s.writeMsix fn o v) :=
  h.onHost.ite (h.ite (h.onHost.ite (h.onHost.msix.ite h.onHost)))

theorem State.Leads.writeVectors {fn b o n v : Nat} (h : s₀.Leads s) : s₀.Leads (s.writeVectors fn b o n v) :=
  h.each fun _ _ h => h.writeMsix

theorem State.Leads.writePf {o n v : Nat} (h : s₀.Leads s) : s₀.Leads (s.writePf o n v) :=
  h.mailboxHostWrite.ite (h.writeAperture.ite (h.clearChanged.ite (h.writeVectors.ite ((((h.onTeller.ite h).clearSwEvent.ite (h.onTeller.ite
      h)).onHost.ite ((h.onTeller.ite h).clearSwEvent.ite (h.onTeller.ite h))).onHost.ite (((h.onTeller.ite h).clearSwEvent.ite (h.onTeller.ite
          h)).onHost.ite ((h.onTeller.ite h).clearSwEvent.ite (h.onTeller.ite h)))))))

theorem State.Leads.writeVf {fn o n v : Nat} (h : s₀.Leads s) : s₀.Leads (s.writeVf fn o n v) :=
  h.mailboxHostWrite.ite (h.writeAperture.ite (h.writeVectors.ite h))

theorem State.Leads.barWrite {fn o n v : Nat} (h : s₀.Leads s) : s₀.Leads (s.barWrite fn o n v) :=
  h.ite (h.work.emit.ite (h.work.writePf.ite h.work.writeVf))

theorem State.Leads.sideWrite {o n v : Nat} (h : s₀.Leads s) : s₀.Leads (s.sideWrite o n v) :=
  h.ite (h.bindAgent.ite (h.clearChanged.ite ((((h.clearEpEvent.ite h).onEp.ite (h.clearEpEvent.ite h)).onEp.ite ((h.clearEpEvent.ite h).onEp.ite
      (h.clearEpEvent.ite h))).onEp.ite (((h.clearEpEvent.ite h).onEp.ite (h.clearEpEvent.ite h)).onEp.ite ((h.clearEpEvent.ite h).onEp.ite
          (h.clearEpEvent.ite h))))))

theorem State.Leads.detach {fn mb : Nat} (h : s₀.Leads s) : s₀.Leads (s.detach fn mb) := by
  unfold State.detach
  exact h.onSw

theorem State.Leads.functionReset {fn : Nat} (h : s₀.Leads s) : s₀.Leads (s.functionReset fn) := by
  unfold State.functionReset
  exact (h.each fun _ _ h => h.detach).onTeller.onHost

theorem State.Leads.perst (h : s₀.Leads s) : s₀.Leads s.perst :=
  (h.each fun _ _ h => h.functionReset).onSw

theorem State.Leads.perstRelease (h : s₀.Leads s) : s₀.Leads s.perstRelease :=
  h.onSw.trainHost

theorem State.Leads.storeMirror {r : MirrorRec} (h : s₀.Leads s) : s₀.Leads (s.storeMirror r) := by
  unfold State.storeMirror
  exact h.onMem.onHome

theorem State.Leads.storeInOrder {g fuel : Nat} (h : s₀.Leads s) : s₀.Leads (s.storeInOrder g fuel) := by
  induction fuel generalizing s with
  | zero => exact h
  | succ fuel ih =>
    unfold State.storeInOrder
    split
    · exact h
    · split
      · exact h
      · exact (ih h.storeMirror.onMem)

theorem State.Leads.mirrorArrives {rid : Nat} {r : MirrorRec} (h : s₀.Leads s) : s₀.Leads (s.mirrorArrives rid r) := by
  unfold State.mirrorArrives
  split
  · exact h.count
  · exact h.count.ite (h.ite h.onMem.storeInOrder.emit)

theorem State.Leads.mirrorAcked {rid : Nat} {r : MirrorRec} (h : s₀.Leads s) : s₀.Leads (s.mirrorAcked rid r) := by
  unfold State.mirrorAcked
  split
  · exact h.count
  · exact h.count.ite h.onMem.releaseHeld

theorem State.Leads.mirrorLate {g seq : Nat} (h : s₀.Leads s) : s₀.Leads (s.mirrorLate g seq) := by
  unfold State.mirrorLate
  split
  · exact h
  · exact h.ite h.releaseHeld.onMem.record

theorem State.Leads.resilver {g : Nat} (h : s₀.Leads s) : s₀.Leads (s.resilver g) := by
  unfold State.resilver
  split
  · exact h
  · exact (h.ifThen fun _ hu => hu.lineRead).ite (h.ifThen fun _ hu => hu.lineRead).mirrorLine.onMem

theorem State.Leads.pldm {item : PldmItem} (h : s₀.Leads s) : s₀.Leads (s.pldm item) := by
  unfold State.pldm
  refine h.emit.ite ?_
  split
  · exact h.free.emit
  · exact h.free.emit
  · exact h.free.emit
  · exact h.emit
  · exact h.emit
  · exact h.emit
  · exact h.emit

theorem State.Leads.execRegisterWrite {d : Dev} {fn off size : Nat} {val : BitVec 64} (h : s₀.Leads s) :
    s₀.LeadsBy (execRegisterWrite d fn off size val s) := by
  unfold Machine.execRegisterWrite
  refine .next ?_
  split
  · exact h.barWrite
  · exact h.sideWrite

theorem State.Leads.execSwEventClear {val : BitVec 32} (h : s₀.Leads s) : s₀.LeadsBy (execSwEventClear val s) :=
  (h.clearSwEvent.ite h).next

theorem State.Leads.execEpEventClear {val : BitVec 32} (h : s₀.Leads s) : s₀.LeadsBy (execEpEventClear val s) :=
  (h.ite h.clearEpEvent).next

theorem State.Leads.execHostWindowRead {fn ctag addr len : Nat} (h : s₀.Leads s) : s₀.LeadsBy (execHostWindowRead fn ctag addr len s) :=
  (h.work.hostAccess.ite h).next

theorem State.Leads.execHostWindowWrite {fn addr : Nat} {data : List Byte} (h : s₀.Leads s) : s₀.LeadsBy (execHostWindowWrite fn addr data s) :=
  (h.work.hostAccess.ite h).next

theorem State.Leads.execMirrorLine {rid : Nat} {r : MirrorRec} (h : s₀.Leads s) : s₀.LeadsBy (execMirrorLine rid r s) :=
  (h.work.mirrorArrives.ite h).next

theorem State.Leads.execMirrorAck {rid : Nat} {r : MirrorRec} (h : s₀.Leads s) : s₀.LeadsBy (execMirrorAck rid r s) :=
  (h.work.mirrorAcked.ite h).next

theorem State.Leads.execFunctionLevelReset {fn : Nat} (h : s₀.Leads s) : s₀.LeadsBy (execFunctionLevelReset fn s) :=
  (h.functionReset.ite h).next

theorem State.Leads.execPerstNAssert (h : s₀.Leads s) : s₀.LeadsBy (execPerstNAssert s) :=
  h.perst.next

theorem State.Leads.execPerstNRelease (h : s₀.Leads s) : s₀.LeadsBy (execPerstNRelease s) :=
  h.perstRelease.next

theorem State.Leads.execPldmRequest {item : PldmItem} (h : s₀.Leads s) : s₀.LeadsBy (execPldmRequest item s) :=
  h.pldm.next

theorem State.Leads.execMirrorAckTimeout {region seq : Nat} (h : s₀.Leads s) : s₀.LeadsBy (execMirrorAckTimeout region seq s) :=
  h.mirrorLate.next

theorem State.Leads.execResilverCopy {region : Nat} (h : s₀.Leads s) : s₀.LeadsBy (execResilverCopy region s) :=
  h.resilver.next

/-! #### The functions of Machine/Retire.lean -/

theorem State.Leads.beginRetire {k : Nat} {removal : Bool} (h : s₀.Leads s) : s₀.Leads (s.beginRetire k removal) :=
  (h.putSlot.each fun _ _ h => h.relayEp).cancelPartition.takeBackDue

theorem State.Leads.dropEngineXlat {e : Nat} (h : s₀.Leads s) : s₀.Leads (s.dropEngineXlat e) :=
  h.onXlat

theorem State.Leads.zeroScratch {e : Nat} (h : s₀.Leads s) : s₀.Leads (s.zeroScratch e) :=
  h.each fun _ _ h => (h.onHome fun m => m.zeroStep_wf _).ite h

theorem State.Leads.giveEngine {e owner : Nat} (h : s₀.Leads s) : s₀.Leads (s.giveEngine e owner) := by
  unfold State.giveEngine
  exact h.zeroScratch.dropEngineXlat.onEscrow.onSw

theorem State.Leads.givePool {g owner : Nat} (h : s₀.Leads s) : s₀.Leads (s.givePool g owner) :=
  h.onSw

theorem State.Leads.releasePartition {p : Nat} (h : s₀.Leads s) : s₀.Leads (s.releasePartition p) :=
  ((h.each fun _ _ h => h.stopEngine.giveEngine).each fun _ _ h => h.givePool).onHome.onEscrow.onSw.putPart.revoteAll

theorem State.Leads.retireCheck (h : s₀.Leads s) : s₀.Leads s.retireCheck := by
  unfold State.retireCheck
  refine h.each fun _ _ h => h.ite (h.finishWork.ite (.ite ?_ h))
  split
  · exact h.releasePartition.finishWork
  · exact h

theorem State.Leads.zeroise {k : Nat} (h : s₀.Leads s) : s₀.Leads (s.zeroise k) := by
  unfold State.zeroise
  have hf : s₀.Leads (s.onMem fun m => m.flushCache fun c => c.slot == k) := h.onMem fun m => m.flushCache_sound _
  exact hf.putSlot.ledgerAdd.retireCheck

theorem State.Leads.retireDone {k : Nat} (h : s₀.Leads s) : s₀.Leads (s.retireDone k) :=
  h.zeroise.ite h

theorem State.Leads.dropHeld {f : Frame} (h : s₀.Leads s) : s₀.Leads (s.dropHeld f) := by
  unfold State.dropHeld
  exact h.onMem.onSw

theorem State.Leads.retireForce {k : Nat} (h : s₀.Leads s) : s₀.Leads (s.retireForce k) := by
  unfold State.retireForce
  refine (((h.each fun _ _ h => h.dropHeld.homeRespond).each fun _ _ h => h.fenceAgent).each fun _ _ h => ?_).putSlot.retireDone
  split
  · exact h
  · refine (h.each fun _ _ hu => .loseEntry ?_).advance
    split
    · exact hu.loseBusy
    · exact hu

theorem State.Leads.retireTimeout {k : Nat} (h : s₀.Leads s) : s₀.Leads (s.retireTimeout k) :=
  h.ite (h.putSlot.ite h.retireForce)

theorem State.Leads.tellerRestart (h : s₀.Leads s) : s₀.Leads s.tellerRestart :=
  h.ite h.onSw

theorem State.Leads.imageRuns {slot : Nat} {burn : Bool} (h : s₀.Leads s) : s₀.Leads (s.imageRuns slot burn) := by
  unfold State.imageRuns
  split
  · exact h
  · exact h.onSw.ledgerAdd

theorem State.Leads.restartCommands (h : s₀.Leads s) : s₀.Leads s.restartCommands := by
  unfold State.restartCommands
  refine h.each fun _ _ h => ?_
  split
  · exact h.finishWork.ite h
  · exact h.imageRuns.finishWork.ite h
  · exact h

theorem State.Leads.tellerBack (h : s₀.Leads s) : s₀.Leads s.tellerBack :=
  h.ite (((((h.onSw.restartCommands.each fun _ _ h => h.ledgerAdd).each fun _ _ h => h.ledgerSeal.ite h).each fun _ _ h => h.applyVerdict).each fun _
      _ h => h.giveVerdict).each fun _ _ h => h.retireForce.ite h).regionGone.setEvent

theorem State.Leads.tellerFails (h : s₀.Leads s) : s₀.Leads s.tellerFails :=
  h.ite (h.onSw.setEvent.refreshAlert.ite h.onSw)

/-! #### The functions of Machine/Starts.lean -/

theorem State.Leads.onSys {g : Sys → Sys} (h : s₀.Leads s) : s₀.Leads (s.onSys g) :=
  h.onSw

theorem State.Leads.preStart {k : StartKind} {thenOff : Bool} (h : s₀.Leads s) : s₀.Leads (s.preStart k thenOff) := by
  unfold State.preStart
  exact (h.each fun _ _ h => h.ite h.leavePort).onSys

theorem State.Leads.writeAllBack (h : s₀.Leads s) : s₀.Leads s.writeAllBack :=
  (h.onMem fun m => m.flushCache_sound _).each fun _ _ h => h.flushLedger

/-- A cold start empties the home; a warm start leaves its bytes. -/
theorem State.Leads.beginStart {k : StartKind} (h : s₀.Leads s) : s₀.Leads (s.beginStart k) := by
  cases k with
  | cold => exact (State.Leads.onSw (g := Switch.coldStart) h fun _ _ => rfl).onSys.refreshAlert
  | warm => exact (State.Leads.onSw (g := Switch.warmStart) h).onSys.refreshAlert

theorem State.Leads.vaultStart (h : s₀.Leads s) : s₀.Leads s.vaultStart := by
  unfold State.vaultStart
  exact h.free.free.onSw

theorem State.Leads.romStart {k : StartKind} (h : s₀.Leads s) : s₀.Leads (s.romStart k) :=
  h.trainHost.onSys.ite (h.trainHost.onSys.record.ite h.trainHost.onSys.refreshAlert)

theorem State.Leads.loadBook (h : s₀.Leads s) : s₀.Leads s.loadBook :=
  (h.onSys.record.ite h.onSys).ite (h.onSys.record.ite h.onSys).record

theorem State.Leads.tellerBoot {k : StartKind} (h : s₀.Leads s) : s₀.Leads (s.tellerBoot k) := by
  unfold State.tellerBoot
  cases k with
  | cold => exact State.Leads.ledgerBegin (State.Leads.onMem (h.each fun _ _ h => h.onHome fun m => m.zeroStep_wf _))
  | warm => exact State.Leads.onMem (h.each fun _ _ h => h.onHome fun m => m.zeroStep_wf _)

theorem State.Leads.repair {c : Nat} {unrepaired : List Nat} (h : s₀.Leads s) : s₀.Leads (s.repair c unrepaired) :=
  (h.onMem.ite h.onMem.record).fenceChannel.ite (h.onMem.ite h.onMem.record)

theorem State.Leads.startDone {k : StartKind} (h : s₀.Leads s) : s₀.Leads (s.startDone k) := by
  unfold State.startDone
  refine .each (.each (.each ?_ fun _ _ h => h.putSlot.retireForce) fun _ _ h => h.releasePartition.ite h) fun _ _ h => h.retrain
  split
  · refine .imageRuns (.onSys ?_)
    split
    · exact h.onSw
    · exact h.onSw.each fun _ _ hv => hv.ledgerAdd
  · split
    · exact h.onSw
    · exact h.onSw.each fun _ _ hv => hv.ledgerAdd

theorem State.Leads.stepReady {failed unrepaired : List Nat} (h : s₀.Leads s) : s₀.Leads (s.stepReady failed unrepaired) := by
  unfold State.stepReady
  split
  · dsimp only
    split
    · refine .onSys ?_
      split
      · exact h.vaultStart
      · exact h
    · exact h.romStart
    · exact h.loadBook.onSys
    · exact (h.tellerBoot.brakeNow.ite h.tellerBoot).onSys
    · exact (h.each fun _ _ hv => hv.fenceChannel).onSys
    · split
      · exact (h.each fun _ _ hw => hw.ite hw.repair).onSys
      · exact (h.each fun _ _ hw => hw.ite hw.repair).startDone.ite (h.each fun _ _ hw => hw.ite hw.repair)
    · exact h.startDone
    · exact h.onSys
  · exact h

theorem State.Leads.rstFall {warm : Bool} (h : s₀.Leads s) : s₀.Leads (s.rstFall warm) :=
  h.ite h.onSys.preStart

theorem State.Leads.rstRise (h : s₀.Leads s) : s₀.Leads s.rstRise := by
  unfold State.rstRise
  refine h.ite ?_
  dsimp only
  split
  · exact h.onSys.beginStart
  · exact h.onSys

theorem State.Leads.preDone (h : s₀.Leads s) : s₀.Leads s.preDone := by
  unfold State.preDone
  split
  · exact (h.writeAllBack.ifThen fun _ hu => hu.selfRefresh).turnOff.ite ((h.writeAllBack.ifThen fun _ hu => hu.selfRefresh).beginStart.ite
      (h.writeAllBack.ifThen fun _ hu => hu.selfRefresh).onSys)
  · exact h

theorem State.Leads.inputLow (h : s₀.Leads s) : s₀.Leads s.inputLow := by
  unfold State.inputLow
  refine h.ite ?_
  split
  · exact h
  · exact h.record.preStart

theorem State.Leads.inputHigh (h : s₀.Leads s) : s₀.Leads s.inputHigh :=
  h.ite h.record.turnOff

/-- A start empties the AKG-8's home. -/
theorem State.Leads.epStart {warm : Bool} (h : s₀.Leads s) : s₀.Leads (s.epStart warm) := by
  refine (State.Leads.epAlert (h.onEp fun e _ => ?_)).each fun _ _ h => h.onLink.ite h.onLink.emit
  show Memory.wf (e.started (warm && !e.off)).home.mem = true
  unfold EndPoint.started
  dsimp only
  split <;> rfl

theorem State.Leads.execPowerUp (h : s₀.Leads s) : s₀.LeadsBy (execPowerUp s) :=
  (h.beginStart.ite h).next

theorem State.Leads.execRstNFall {warmSel : Bool} (h : s₀.Leads s) : s₀.LeadsBy (execRstNFall warmSel s) :=
  h.rstFall.next

theorem State.Leads.execRstNRise (h : s₀.Leads s) : s₀.LeadsBy (execRstNRise s) :=
  h.rstRise.next

theorem State.Leads.execStartStepReady {failed unrepaired : List Nat} (h : s₀.Leads s) : s₀.LeadsBy (execStartStepReady failed unrepaired s) :=
  h.stepReady.next

theorem State.Leads.execPreStartWorkDone (h : s₀.Leads s) : s₀.LeadsBy (execPreStartWorkDone s) :=
  h.preDone.next

theorem State.Leads.execInputLow (h : s₀.Leads s) : s₀.LeadsBy (execInputLow s) :=
  h.inputLow.next

theorem State.Leads.execInputOvervoltage (h : s₀.Leads s) : s₀.LeadsBy (execInputOvervoltage s) :=
  h.inputHigh.next

theorem State.Leads.execEpRstN {warm : Bool} (h : s₀.Leads s) : s₀.LeadsBy (execEpRstN warm s) :=
  h.epStart.next

/-! #### The functions of Machine/Teller.lean -/

theorem State.Leads.commandEntry {c : Cmd} {status : Nat} {point : List Byte} {forced : Bool} (h : s₀.Leads s) :
    s₀.Leads (s.commandEntry c status point forced).1 :=
  h.trans (State.commandEntry_report _ _ _ _ _).leads

theorem State.Leads.clearOwn {fn mb : Nat} (h : s₀.Leads s) : s₀.Leads (s.clearOwn fn mb) :=
  h.onMailbox.msix.ite h.onMailbox

theorem State.Leads.respond {fn mb seq status detail ledgerSeq : Nat} {rsp : List Byte} (h : s₀.Leads s) :
    s₀.Leads (s.respond fn mb seq status detail ledgerSeq rsp) :=
  h.onMailbox.clearOwn

theorem State.Leads.perform {k : Form} {c : Cmd} {forced : Bool} (h : s₀.Leads s) (hk : k.Leads) : s₀.Leads (s.perform k c forced) := by
  have hc := hk.commit c h
  unfold State.perform
  dsimp only
  split
  · exact hc.commandEntry.respond
  · refine hk.start c (State.Leads.onTeller ?_)
    split
    · exact hc
    · exact hc.commandEntry

theorem State.Leads.takeCommand {k : Form} {fn mb : Nat} (h : s₀.Leads s) (hk : k.Leads) : s₀.Leads (s.takeCommand k fn mb) := by
  have ht : s₀.Leads (s.onTeller fun t => { t with order := t.order.erase (fn, mb) }) := h.onTeller
  unfold State.takeCommand
  dsimp only
  split
  · exact h
  · split
    · exact ht.clearOwn
    · split
      · exact ht.respond
      · split
        · exact ht.commandEntry.respond
        · split
          · exact ht.commandEntry.respond
          · exact ht.perform hk

theorem State.Leads.completeActive {a : Active} {status : Nat} {rsp : List Byte} (h : s₀.Leads s) : s₀.Leads (s.completeActive a status rsp) := by
  have ht : s₀.Leads (s.onTeller fun t => { t with active := t.active.filter fun x => !(x.fn == a.fn && x.mb == a.mb) }) := h.onTeller
  unfold State.completeActive
  dsimp only
  split
  · split
    · exact ht.commandEntry
    · exact ht
  · refine State.Leads.respond ?_
    split
    · exact ht.commandEntry
    · exact ht

theorem State.Leads.completeCommand {fn mb : Nat} (h : s₀.Leads s) : s₀.Leads (s.completeCommand fn mb) := by
  unfold State.completeCommand
  split
  · exact h
  · split
    · exact h
    · exact h.completeActive

/-! #### The functions of Machine/CatDevice.lean -/

theorem State.Leads.commandRead {addr len : Nat} (h : s₀.Leads s) : s₀.Leads (s.commandRead addr len) :=
  h.each fun _ _ h => h.emit

theorem State.Leads.commandWrite {addr : Nat} {data : List Byte} (h : s₀.Leads s) : s₀.Leads (s.commandWrite addr data) :=
  h.each fun _ _ h => h.emit

theorem State.Leads.askHost {fn mb : Nat} {ask : State → State} {fails : State → Active → State} (h : s₀.Leads s)
    (ha : ∀ u, s₀.Leads u → s₀.Leads (ask u)) (hf : ∀ u a, s₀.Leads u → s₀.Leads (fails u a)) : s₀.Leads (s.askHost fn mb ask fails) := by
  unfold State.askHost
  split
  · exact ha s h
  · split
    · exact (hf s _ h).completeCommand
    · exact h

theorem State.Leads.onFlash {g : Flash → Flash} (h : s₀.Leads s) : s₀.Leads (s.onFlash g) :=
  h.onSys

theorem State.Leads.commitBook {g : Persist → Persist} (h : s₀.Leads s) : s₀.Leads (s.commitBook g) := by
  unfold State.commitBook
  split
  · exact h
  · exact h.onSys.onFlash

theorem devInfoForm_leads : devInfoForm.Leads where
  commit _ h := h
  start _ h := h

theorem State.Leads.resetEngine {e : Nat} (h : s₀.Leads s) : s₀.Leads (s.resetEngine e) :=
  h.stopEngine.dropEngineXlat.putEngine

theorem State.Leads.devReset {kind index : Nat} (h : s₀.Leads s) : s₀.Leads (s.devReset kind index).2 := by
  unfold State.devReset
  split
  · exact .pair h.retrain
  · split
    · exact .pair h.resetEngine.escrowSettle
    · split
      · exact .pair (h.each fun _ _ hw => hw.resetEngine).escrowSettle
      · split
        · exact .pair h.onMem
        · exact .pair h.tellerRestart

theorem devResetForm_leads : devResetForm.Leads where
  commit _ h := h.devReset
  start _ h := h

theorem State.Leads.resetEnds {a : Active} (h : s₀.Leads s) : s₀.Leads (s.resetEnds a) := by
  unfold State.resetEnds
  refine h.each fun _ _ h => ?_
  split
  · exact h.putEngine
  · exact h.each fun _ _ hu => hu.putEngine
  · exact h.onMem
  · exact h

theorem cfgModeSetForm_leads : cfgModeSetForm.Leads where
  commit _ h := by
    unfold cfgModeSetForm
    dsimp only
    exact h.commitBook
  start _ h := h

theorem cfgBookCommitForm_leads : cfgBookCommitForm.Leads where
  commit _ h := h.commitBook
  start _ h := h

theorem cfgTimersForm_leads : cfgTimersForm.Leads where
  commit _ h := by
    unfold cfgTimersForm
    dsimp only
    exact h.onSys
  start _ h := h

theorem State.Leads.passValue {item value : Nat} (h : s₀.Leads s) : s₀.Leads (s.passValue item value) :=
  h.ite (h.each fun _ _ h => h.relayEp)

theorem cfgCoherenceForm_leads : cfgCoherenceForm.Leads where
  commit _ h := h.onSys.passValue
  start _ h := h

theorem fwStageForm_leads : fwStageForm.Leads where
  commit _ h := h
  start _ h := by
    unfold fwStageForm
    dsimp only
    exact h.askHost (fun _ h => h.commandRead) fun _ _ h => h.finishWork

theorem State.Leads.imageRead {a : Active} {host : Option (List Byte)} (h : s₀.Leads s) : s₀.Leads (s.imageRead a host) := by
  unfold State.imageRead
  split
  · exact h.finishWork
  · split
    · exact h.finishWork.ite h.onFlash.onActive
    · exact h.finishWork

theorem fwActivateForm_leads : fwActivateForm.Leads where
  commit _ h := by
    unfold fwActivateForm
    dsimp only
    exact h.commitBook
  start _ h := h

theorem State.Leads.activated {a : Active} {mode burn slot : Nat} (h : s₀.Leads s) : s₀.Leads (s.activated a mode burn slot) :=
  h.ite (h.onFlash.onActive.tellerRestart.ite h.onFlash.finishWork.completeCommand.onSys.preStart)

theorem State.Leads.deviceWork {a : Active} {host : Option (List Byte)} (h : s₀.Leads s) : s₀.Leads (s.deviceWork a host) := by
  unfold State.deviceWork
  split
  · exact h.ite h.resetEnds.finishWork
  · exact h.imageRead
  · exact h.onFlash.finishWork
  · exact h.activated
  · exact h

theorem State.Leads.execDevInfo {fn mb : Nat} (h : s₀.Leads s) : s₀.LeadsBy (execDevInfo fn mb s) :=
  (h.takeCommand devInfoForm_leads).next

theorem State.Leads.execDevReset {fn mb : Nat} (h : s₀.Leads s) : s₀.LeadsBy (execDevReset fn mb s) :=
  (h.takeCommand devResetForm_leads).next

theorem State.Leads.execCfgModeSet {fn mb : Nat} (h : s₀.Leads s) : s₀.LeadsBy (execCfgModeSet fn mb s) :=
  (h.takeCommand cfgModeSetForm_leads).next

theorem State.Leads.execCfgBookCommit {fn mb : Nat} (h : s₀.Leads s) : s₀.LeadsBy (execCfgBookCommit fn mb s) :=
  (h.takeCommand cfgBookCommitForm_leads).next

theorem State.Leads.execCfgTimers {fn mb : Nat} (h : s₀.Leads s) : s₀.LeadsBy (execCfgTimers fn mb s) :=
  (h.takeCommand cfgTimersForm_leads).next

theorem State.Leads.execCfgCoherence {fn mb : Nat} (h : s₀.Leads s) : s₀.LeadsBy (execCfgCoherence fn mb s) :=
  (h.takeCommand cfgCoherenceForm_leads).next

theorem State.Leads.execFwStage {fn mb : Nat} (h : s₀.Leads s) : s₀.LeadsBy (execFwStage fn mb s) :=
  (h.takeCommand fwStageForm_leads).next

theorem State.Leads.execFwActivate {fn mb : Nat} (h : s₀.Leads s) : s₀.LeadsBy (execFwActivate fn mb s) :=
  (h.takeCommand fwActivateForm_leads).next

/-! #### The functions of Machine/CatPartitions.lean -/

theorem partAdmitForm_leads : partAdmitForm.Leads where
  commit _ h := by
    unfold partAdmitForm
    dsimp only
    exact h.putPart.onSys
  start _ h := h

theorem State.Leads.partRemove {p : Nat} (h : s₀.Leads s) : s₀.Leads (s.partRemove p) := by
  unfold State.partRemove
  exact (h.putPart.each fun _ _ h => h.each fun _ _ hu => hu.abortFrom).onSw.onEscrow

theorem partRemoveForm_leads : partRemoveForm.Leads where
  commit _ h := h.partRemove
  start _ h := by
    unfold partRemoveForm
    dsimp only
    exact (h.each fun _ _ h => h.beginRetire).cancelPartition.retireCheck

theorem partEnginesSetForm_leads : partEnginesSetForm.Leads where
  commit _ h := by
    unfold partEnginesSetForm
    dsimp only
    exact (h.each fun _ _ h => h.giveEngine).revoteAll.escrowSettle
  start _ h := h

theorem partPoolSetForm_leads : partPoolSetForm.Leads where
  commit _ h := (h.each fun _ _ h => h.givePool).revoteAll
  start _ h := h

theorem segTableSetForm_leads : segTableSetForm.Leads where
  commit _ h := by
    unfold segTableSetForm
    dsimp only
    exact h.onXlat
  start _ h := h

theorem segInvalidateForm_leads : segInvalidateForm.Leads where
  commit _ h := h
  start _ h := by
    unfold segInvalidateForm
    dsimp only
    exact h.beginInval

theorem vaultKemReadForm_leads : vaultKemReadForm.Leads where
  commit _ h := h
  start _ h := h

theorem keyLoadForm_leads : keyLoadForm.Leads where
  commit _ h := h.putSlot.onSw.each fun _ _ h => h.relayEp
  start _ h := h

theorem keyRetireForm_leads : keyRetireForm.Leads where
  commit _ h := h
  start c h := by
    unfold keyRetireForm
    dsimp only
    split
    · exact h.beginRetire.retireCheck
    · exact h.putSlot.retireCheck
    · exact h

theorem signerEnrolForm_leads : signerEnrolForm.Leads where
  commit _ h := by
    unfold signerEnrolForm
    dsimp only
    exact h.onSw
  start _ h := h

theorem State.Leads.strongroomOn (h : s₀.Leads s) : s₀.Leads s.strongroomOn := by
  unfold State.strongroomOn
  exact h.onSys.onHost

theorem strongroomSetForm_leads : strongroomSetForm.Leads where
  commit _ h := h.strongroomOn
  start _ h := h

theorem keyRewrapForm_leads : keyRewrapForm.Leads where
  commit _ h := by
    unfold keyRewrapForm
    dsimp only
    exact h.onMem
  start _ h := h

theorem keyRewrapReleaseForm_leads : keyRewrapReleaseForm.Leads where
  commit _ h := by
    unfold keyRewrapReleaseForm
    dsimp only
    exact h.onMem
  start _ h := h

theorem State.Leads.execPartAdmit {fn mb : Nat} (h : s₀.Leads s) : s₀.LeadsBy (execPartAdmit fn mb s) :=
  (h.takeCommand partAdmitForm_leads).next

theorem State.Leads.execPartRemove {fn mb : Nat} (h : s₀.Leads s) : s₀.LeadsBy (execPartRemove fn mb s) :=
  (h.takeCommand partRemoveForm_leads).next

theorem State.Leads.execPartEnginesSet {fn mb : Nat} (h : s₀.Leads s) : s₀.LeadsBy (execPartEnginesSet fn mb s) :=
  (h.takeCommand partEnginesSetForm_leads).next

theorem State.Leads.execPartPoolSet {fn mb : Nat} (h : s₀.Leads s) : s₀.LeadsBy (execPartPoolSet fn mb s) :=
  (h.takeCommand partPoolSetForm_leads).next

theorem State.Leads.execSegTableSet {fn mb : Nat} (h : s₀.Leads s) : s₀.LeadsBy (execSegTableSet fn mb s) :=
  (h.takeCommand segTableSetForm_leads).next

theorem State.Leads.execSegInvalidate {fn mb : Nat} (h : s₀.Leads s) : s₀.LeadsBy (execSegInvalidate fn mb s) :=
  (h.takeCommand segInvalidateForm_leads).next

theorem State.Leads.execVaultKemRead {fn mb : Nat} (h : s₀.Leads s) : s₀.LeadsBy (execVaultKemRead fn mb s) :=
  (h.takeCommand vaultKemReadForm_leads).next

theorem State.Leads.execKeyLoad {fn mb : Nat} (h : s₀.Leads s) : s₀.LeadsBy (execKeyLoad fn mb s) :=
  (h.takeCommand keyLoadForm_leads).next

theorem State.Leads.execKeyRetire {fn mb : Nat} (h : s₀.Leads s) : s₀.LeadsBy (execKeyRetire fn mb s) :=
  (h.takeCommand keyRetireForm_leads).next

theorem State.Leads.execSignerEnrol {fn mb : Nat} (h : s₀.Leads s) : s₀.LeadsBy (execSignerEnrol fn mb s) :=
  (h.takeCommand signerEnrolForm_leads).next

theorem State.Leads.execStrongroomSet {fn mb : Nat} (h : s₀.Leads s) : s₀.LeadsBy (execStrongroomSet fn mb s) :=
  (h.takeCommand strongroomSetForm_leads).next

theorem State.Leads.execKeyRewrap {fn mb : Nat} (h : s₀.Leads s) : s₀.LeadsBy (execKeyRewrap fn mb s) :=
  (h.takeCommand keyRewrapForm_leads).next

theorem State.Leads.execKeyRewrapRelease {fn mb : Nat} (h : s₀.Leads s) : s₀.LeadsBy (execKeyRewrapRelease fn mb s) :=
  (h.takeCommand keyRewrapReleaseForm_leads).next

/-! #### The functions of Machine/CatCollectives.lean -/

theorem State.Leads.relayRanks {a : Active} {id partition nextEpoch flags : Nat} {members eps : List Nat} (h : s₀.Leads s) :
    s₀.Leads (s.relayRanks a id partition nextEpoch flags members eps) :=
  h.ite (h.each fun _ _ h => h.relayEp)

theorem State.Leads.syndFormed {a : Active} (h : s₀.Leads s) : s₀.Leads (s.syndFormed a) :=
  h.putSynd.finishWork

theorem State.Leads.syndRead {a : Active} {host : Option (List Byte)} (h : s₀.Leads s) : s₀.Leads (s.syndRead a host) := by
  unfold State.syndRead
  split
  · exact h.finishWork
  · exact h.finishWork.ite (h.finishWork.ite (h.finishWork.ite (h.finishWork.ite (h.onActive.relayRanks.ite h.onActive.relayRanks.syndFormed))))

theorem syndCreateForm_leads : syndCreateForm.Leads where
  commit _ h := h
  start _ h := by
    unfold syndCreateForm
    dsimp only
    exact h.askHost (fun _ h => h.commandRead) fun _ _ h => h.syndRead

theorem syndDestroyForm_leads : syndDestroyForm.Leads where
  commit _ h := by
    unfold syndDestroyForm
    dsimp only
    exact h.onSw
  start _ h := h

theorem State.Leads.relayMember {a : Active} {y : Synd} {id rank : Nat} (h : s₀.Leads s) : s₀.Leads (s.relayMember a y id rank) :=
  (h.relayEp.ite h).relayRanks

theorem syndMemberSetForm_leads : syndMemberSetForm.Leads where
  commit _ h := h
  start c h := by
    unfold syndMemberSetForm
    dsimp only
    split
    · exact h.relayMember.ite h.relayMember.syndFormed
    · exact h

theorem syndQuotaSetForm_leads : syndQuotaSetForm.Leads where
  commit _ h := h.putPart
  start _ h := h

theorem escrowMailboxSetForm_leads : escrowMailboxSetForm.Leads where
  commit _ h := h.each fun _ _ h => h.putMbox
  start _ h := h

theorem escrowQuotaSetForm_leads : escrowQuotaSetForm.Leads where
  commit _ h := h.putPart.escrowSettle
  start _ h := h

theorem State.Leads.cancelGraph {slot : Nat} (h : s₀.Leads s) : s₀.Leads (s.cancelGraph slot) := by
  unfold State.cancelGraph
  split
  · exact h
  · exact h.cancelGraphFor.escrowSettle

theorem escrowCancelForm_leads : escrowCancelForm.Leads where
  commit _ h := h.cancelGraph
  start _ h := h

theorem State.Leads.execSyndCreate {fn mb : Nat} (h : s₀.Leads s) : s₀.LeadsBy (execSyndCreate fn mb s) :=
  (h.takeCommand syndCreateForm_leads).next

theorem State.Leads.execSyndDestroy {fn mb : Nat} (h : s₀.Leads s) : s₀.LeadsBy (execSyndDestroy fn mb s) :=
  (h.takeCommand syndDestroyForm_leads).next

theorem State.Leads.execSyndMemberSet {fn mb : Nat} (h : s₀.Leads s) : s₀.LeadsBy (execSyndMemberSet fn mb s) :=
  (h.takeCommand syndMemberSetForm_leads).next

theorem State.Leads.execSyndQuotaSet {fn mb : Nat} (h : s₀.Leads s) : s₀.LeadsBy (execSyndQuotaSet fn mb s) :=
  (h.takeCommand syndQuotaSetForm_leads).next

theorem State.Leads.execEscrowMailboxSet {fn mb : Nat} (h : s₀.Leads s) : s₀.LeadsBy (execEscrowMailboxSet fn mb s) :=
  (h.takeCommand escrowMailboxSetForm_leads).next

theorem State.Leads.execEscrowQuotaSet {fn mb : Nat} (h : s₀.Leads s) : s₀.LeadsBy (execEscrowQuotaSet fn mb s) :=
  (h.takeCommand escrowQuotaSetForm_leads).next

theorem State.Leads.execEscrowCancel {fn mb : Nat} (h : s₀.Leads s) : s₀.LeadsBy (execEscrowCancel fn mb s) :=
  (h.takeCommand escrowCancelForm_leads).next

/-! #### The functions of Machine/CatLedger.lean -/

theorem State.Leads.assaySign {a : Active} (h : s₀.Leads s) : s₀.Leads (s.assaySign a) := by
  unfold State.assaySign
  exact h.onSys.onActive.askHost (fun _ h => h.commandWrite) fun _ _ h => h.finishWork

theorem assayRequestForm_leads : assayRequestForm.Leads where
  commit _ h := h
  start c h := by
    unfold assayRequestForm
    dsimp only
    split
    · exact h.ite h.assaySign
    · exact h

theorem State.Leads.assayWork {a : Active} {host : Option (List Byte)} (h : s₀.Leads s) : s₀.Leads (s.assayWork a host) := by
  unfold State.assayWork
  split
  · exact h.ite h.assaySign
  · split
    · exact h.finishWork
    · exact h.finishWork

theorem ledgerRegionSetForm_leads : ledgerRegionSetForm.Leads where
  commit _ h := h.putLedger.ite h.ledgerBegin
  start _ h := h

theorem ledgerReadForm_leads : ledgerReadForm.Leads where
  commit _ h := by
    unfold ledgerReadForm
    exact h.ifThen fun _ hu => hu.commandWrite
  start _ h := by
    unfold ledgerReadForm
    dsimp only
    exact h.askHost (ask := id) (fun _ hu => hu) fun _ _ hu => hu.finishWork

theorem State.Leads.ledgerWork {a : Active} {host : Option (List Byte)} (h : s₀.Leads s) : s₀.Leads (s.ledgerWork a host) := by
  unfold State.ledgerWork
  split
  · exact (h.ite (h.putLedger.ite h.putLedger)).noteHigh.finishWork
  · exact h.finishWork

theorem ledgerSealNowForm_leads : ledgerSealNowForm.Leads where
  commit c h := by
    unfold ledgerSealNowForm
    dsimp only
    split
    · exact .pair h.ledgerSeal
    · exact .pair h.ledgerSeal
  start _ h := h

theorem State.Leads.sealWork {a : Active} (h : s₀.Leads s) : s₀.Leads (s.sealWork a) :=
  h.ite h.finishWork

theorem State.Leads.ckptTry {a : Active} (h : s₀.Leads s) : s₀.Leads (s.ckptTry a) :=
  (h.each fun _ _ h => h.backInvLine).ite (h.ite ((h.each fun _ _ h => h.settleLine.lineRead).onActive.askHost (fun _ h => h.commandWrite) fun _ _ h
      => h.finishWork))

theorem ckptSaveForm_leads : ckptSaveForm.Leads where
  commit _ h := h.ledgerAdd
  start c h := by
    unfold ckptSaveForm
    dsimp only
    split
    · exact h.ckptTry
    · exact h

theorem State.Leads.saveWork {a : Active} {host : Option (List Byte)} (h : s₀.Leads s) : s₀.Leads (s.saveWork a host) := by
  unfold State.saveWork
  dsimp only
  split
  · split
    · exact h.finishWork
    · exact h.finishWork.ite h.finishWork
  · exact h.ckptTry

theorem ckptRestoreForm_leads : ckptRestoreForm.Leads where
  commit _ h := h
  start _ h := by
    unfold ckptRestoreForm
    dsimp only
    exact h.askHost (fun _ h => h.commandRead) fun _ _ h => h.finishWork

theorem State.Leads.restoreTry {a : Active} (h : s₀.Leads s) : s₀.Leads (s.restoreTry a) :=
  (h.each fun _ _ h => h.backInvLine).ite (h.ite (h.finishWork.ite ((h.each fun _ _ h => h.onMem).each fun _ _ h =>
      h.putRegion).mirrorLines.finishWork))

theorem State.Leads.restoreWork {a : Active} {host : Option (List Byte)} (h : s₀.Leads s) : s₀.Leads (s.restoreWork a host) := by
  unfold State.restoreWork
  split
  · exact h.restoreTry
  · split
    · exact h.finishWork
    · refine h.finishWork.ite (h.finishWork.ite ?_)
      dsimp only
      split
      · exact h.onActive.restoreTry
      · exact h.onActive

theorem State.Leads.execAssayRequest {fn mb : Nat} (h : s₀.Leads s) : s₀.LeadsBy (execAssayRequest fn mb s) :=
  (h.takeCommand assayRequestForm_leads).next

theorem State.Leads.execLedgerRegionSet {fn mb : Nat} (h : s₀.Leads s) : s₀.LeadsBy (execLedgerRegionSet fn mb s) :=
  (h.takeCommand ledgerRegionSetForm_leads).next

theorem State.Leads.execLedgerRead {fn mb : Nat} (h : s₀.Leads s) : s₀.LeadsBy (execLedgerRead fn mb s) :=
  (h.takeCommand ledgerReadForm_leads).next

theorem State.Leads.execLedgerSealNow {fn mb : Nat} (h : s₀.Leads s) : s₀.LeadsBy (execLedgerSealNow fn mb s) :=
  (h.takeCommand ledgerSealNowForm_leads).next

theorem State.Leads.execCkptSave {fn mb : Nat} (h : s₀.Leads s) : s₀.LeadsBy (execCkptSave fn mb s) :=
  (h.takeCommand ckptSaveForm_leads).next

theorem State.Leads.execCkptRestore {fn mb : Nat} (h : s₀.Leads s) : s₀.LeadsBy (execCkptRestore fn mb s) :=
  (h.takeCommand ckptRestoreForm_leads).next

/-! #### The functions of Machine/CatPool.lean -/

theorem State.Leads.relayCommand {c : Cmd} {item : Nat} (h : s₀.Leads s) : s₀.Leads (s.relayCommand c item) :=
  h.relayEp

theorem regionSetForm_leads : regionSetForm.Leads where
  commit _ h := h
  start _ h := (h.each fun _ _ h => h.beginRegion).regionCheck.ite h.relayCommand

theorem regionHandoverForm_leads : regionHandoverForm.Leads where
  commit _ h := h
  start _ h := (h.each fun _ _ h => h.beginRegion).regionCheck.ite h.relayCommand

theorem State.Leads.regionReadNext {a : Active} (h : s₀.Leads s) : s₀.Leads (s.regionReadNext a) :=
  h.relayEp

theorem regionReadForm_leads : regionReadForm.Leads where
  commit c h := by
    unfold regionReadForm
    dsimp only
    split
    · exact h
    · exact h
  start c h := by
    unfold regionReadForm
    dsimp only
    split
    · exact h.regionReadNext
    · exact h

theorem Mem.clear_sound (m : Mem) (l : Nat) (b : List Byte) :
    m.Sound { m with cache := m.cache.filter fun c => c.line != l
                     home := { m.home with mem := Memory.writeN m.home.mem (l * 128) b, lines := m.home.lines.del l } } :=
  Memory.wf_writeN _ _

theorem State.Leads.clearLine {l : Nat} (h : s₀.Leads s) : s₀.Leads (s.clearLine l) := h.onMem fun m => m.clear_sound l _

theorem State.Leads.clearLines {first count : Nat} (h : s₀.Leads s) : s₀.Leads (s.clearLines first count) :=
  h.each fun _ _ h => h.clearLine

theorem State.Leads.clearRegions {first count : Nat} (h : s₀.Leads s) : s₀.Leads (s.clearRegions first count) :=
  h.each fun _ _ h => h.putRegion

theorem regionLostClearForm_leads : regionLostClearForm.Leads where
  commit c h := by
    unfold regionLostClearForm
    dsimp only
    split
    · exact h
    · exact .pair (h.clearLines.ite h.clearRegions)
  start _ h := h.relayCommand

theorem nearStoreSetForm_leads : nearStoreSetForm.Leads where
  commit c h := by
    unfold nearStoreSetForm
    dsimp only
    split
    · exact .pair h.onSys
    · exact .pair h.onSys.onMem
  start _ h := h

theorem scrubSetForm_leads : scrubSetForm.Leads where
  commit _ h := by
    unfold scrubSetForm
    dsimp only
    exact h.onSys
  start _ h := h

theorem retireLimitSetForm_leads : retireLimitSetForm.Leads where
  commit _ h := by
    unfold retireLimitSetForm
    dsimp only
    exact h.onSys
  start _ h := h

theorem State.Leads.endPair {g : Nat} (h : s₀.Leads s) : s₀.Leads (s.endPair g) := by
  unfold State.endPair
  split
  · exact h
  · exact h.releaseHeld.onMem

theorem partnerSetForm_leads : partnerSetForm.Leads where
  commit _ h := by
    unfold partnerSetForm
    dsimp only
    exact h.endPair.onMem
  start _ h := h

theorem partnerPromoteForm_leads : partnerPromoteForm.Leads where
  commit _ h := by
    unfold partnerPromoteForm
    dsimp only
    exact h.onMem
  start _ h := h

theorem partnerBreakForm_leads : partnerBreakForm.Leads where
  commit _ h := h.endPair.each fun _ _ h => h.onRegion
  start _ h := h

theorem State.Leads.execRegionSet {fn mb : Nat} (h : s₀.Leads s) : s₀.LeadsBy (execRegionSet fn mb s) :=
  (h.takeCommand regionSetForm_leads).next

theorem State.Leads.execRegionHandover {fn mb : Nat} (h : s₀.Leads s) : s₀.LeadsBy (execRegionHandover fn mb s) :=
  (h.takeCommand regionHandoverForm_leads).next

theorem State.Leads.execRegionRead {fn mb : Nat} (h : s₀.Leads s) : s₀.LeadsBy (execRegionRead fn mb s) :=
  (h.takeCommand regionReadForm_leads).next

theorem State.Leads.execRegionLostClear {fn mb : Nat} (h : s₀.Leads s) : s₀.LeadsBy (execRegionLostClear fn mb s) :=
  (h.takeCommand regionLostClearForm_leads).next

theorem State.Leads.execNearStoreSet {fn mb : Nat} (h : s₀.Leads s) : s₀.LeadsBy (execNearStoreSet fn mb s) :=
  (h.takeCommand nearStoreSetForm_leads).next

theorem State.Leads.execScrubSet {fn mb : Nat} (h : s₀.Leads s) : s₀.LeadsBy (execScrubSet fn mb s) :=
  (h.takeCommand scrubSetForm_leads).next

theorem State.Leads.execRetireLimitSet {fn mb : Nat} (h : s₀.Leads s) : s₀.LeadsBy (execRetireLimitSet fn mb s) :=
  (h.takeCommand retireLimitSetForm_leads).next

theorem State.Leads.execPartnerSet {fn mb : Nat} (h : s₀.Leads s) : s₀.LeadsBy (execPartnerSet fn mb s) :=
  (h.takeCommand partnerSetForm_leads).next

theorem State.Leads.execPartnerPromote {fn mb : Nat} (h : s₀.Leads s) : s₀.LeadsBy (execPartnerPromote fn mb s) :=
  (h.takeCommand partnerPromoteForm_leads).next

theorem State.Leads.execPartnerBreak {fn mb : Nat} (h : s₀.Leads s) : s₀.LeadsBy (execPartnerBreak fn mb s) :=
  (h.takeCommand partnerBreakForm_leads).next

/-! #### The functions of Machine/Slots.lean -/

theorem State.Leads.give {d : Dev} {p : Nat} {g : Tx → Tx} (h : s₀.Leads s) : s₀.Leads (s.give d p g) :=
  h.onLink.ite h

theorem State.Leads.loadOut {o : Out} (h : s₀.Leads s) : s₀.Leads (s.loadOut o) := by
  unfold State.loadOut
  split
  · exact h.give
  · exact h.give
  · exact h.give
  · exact h.give
  · exact h

theorem State.Leads.loadSlots (h : s₀.Leads s) : s₀.Leads s.loadSlots :=
  (h.each fun _ _ h => h.loadOut).counters

/-! #### The functions of Machine/LinkKeys.lean -/

theorem State.Leads.linkEv {d : Dev} {g : State → State} (h : s₀.Leads s) (hg : ∀ u, s₀.Leads u → s₀.Leads (g u)) : s₀.Leads (s.linkEv d g) := by
  cases d with
  | sw => exact hg s h
  | ep => exact h.epEv hg

theorem State.Leads.portFault {d : Dev} {p kind : Nat} (h : s₀.Leads s) : s₀.Leads (s.portFault d p kind) := by
  unfold State.portFault
  split
  · exact h.recordPort.fencePort.regionGone.invalPoll
  · exact h.epRaise.epFencePort

theorem State.Leads.portDown {d : Dev} {p : Nat} (h : s₀.Leads s) : s₀.Leads (s.portDown d p) := by
  unfold State.portDown
  split
  · exact h.retrain
  · exact h.onLink.onEp.emit.lostSource

theorem State.Leads.trainFail {d : Dev} {p : Nat} (h : s₀.Leads s) : s₀.Leads (s.trainFail d p) := by
  unfold State.trainFail
  refine h.portFault.ite ?_
  split
  · exact h.onPort
  · exact h.onLink

theorem State.Leads.sendKeyMsg {d : Dev} {p : Nat} {msg : List Byte} {fin : Bool} (h : s₀.Leads s) : s₀.Leads (s.sendKeyMsg d p msg fin) :=
  h.onLink

theorem State.Leads.ownKeyMsg {d : Dev} {p : Nat} {kem : List Byte} (h : s₀.Leads s) : s₀.Leads (s.ownKeyMsg d p kem).2 :=
  h.counters

theorem State.Leads.beginExchange {d : Dev} {p : Nat} (h : s₀.Leads s) : s₀.Leads (s.beginExchange d p) :=
  h.counters.counters.onLink.sendKeyMsg

theorem State.Leads.startRekey {d : Dev} {p : Nat} (h : s₀.Leads s) : s₀.Leads (s.startRekey d p) :=
  h.ite (h.beginExchange.ite h.onLink.sendKeyMsg)

theorem State.Leads.installKeys {d : Dev} {p : Nat} {tx rx : LinkKey} (h : s₀.Leads s) : s₀.Leads (s.installKeys d p tx rx) := by
  unfold State.installKeys
  split
  · exact h.onPort
  · exact h.onLink

theorem State.Leads.initArrives {d : Dev} {p : Nat} {m : KeyMsg} (h : s₀.Leads s) : s₀.Leads (s.initArrives d p m) :=
  h.ite (h.portFault.ite h.counters.counters.onLink.sendKeyMsg)

theorem State.Leads.respArrives {d : Dev} {p : Nat} {m : KeyMsg} (h : s₀.Leads s) : s₀.Leads (s.respArrives d p m) := by
  unfold State.respArrives
  dsimp only
  split
  · exact h
  · exact h.ite (h.portFault.ite h.onLink.sendKeyMsg)

theorem State.Leads.finArrives {d : Dev} {p : Nat} {m : KeyMsg} (h : s₀.Leads s) : s₀.Leads (s.finArrives d p m) := by
  unfold State.finArrives
  dsimp only
  split
  · exact h
  · exact h.ite (h.portFault.ite h.installKeys)

theorem State.Leads.exchangeLate {d : Dev} {p : Nat} (h : s₀.Leads s) : s₀.Leads (s.exchangeLate d p) :=
  h.trainFail.ite (h.ite h.onLink)

theorem State.Leads.execInit {d : Dev} {port : Nat} {m : KeyMsg} (h : s₀.Leads s) : s₀.LeadsBy (execInit d port m s) :=
  (h.linkEv fun _ h => h.initArrives).next

theorem State.Leads.execResp {d : Dev} {port : Nat} {m : KeyMsg} (h : s₀.Leads s) : s₀.LeadsBy (execResp d port m s) :=
  (h.linkEv fun _ h => h.respArrives).next

theorem State.Leads.execFin {d : Dev} {port : Nat} {m : KeyMsg} (h : s₀.Leads s) : s₀.LeadsBy (execFin d port m s) :=
  (h.linkEv fun _ h => h.finArrives).next

theorem State.Leads.execRekeyReq {d : Dev} {port : Nat} (h : s₀.Leads s) : s₀.LeadsBy (execRekeyReq d port s) :=
  (h.linkEv fun _ h => h.startRekey.ite h).next

theorem State.Leads.execKeyExchangeTimeout {d : Dev} {port : Nat} (h : s₀.Leads s) : s₀.LeadsBy (execKeyExchangeTimeout d port s) :=
  (h.linkEv fun _ h => h.exchangeLate).next

theorem State.Leads.execRekeyCount {d : Dev} {port : Nat} (h : s₀.Leads s) : s₀.LeadsBy (execRekeyCount d port s) :=
  (h.linkEv fun _ h => h.startRekey.ite h).next

theorem State.Leads.execKeyCounterExhausted {d : Dev} {port : Nat} (h : s₀.Leads s) : s₀.LeadsBy (execKeyCounterExhausted d port s) :=
  (h.linkEv fun _ h => h.portDown.ite h).next

theorem State.Leads.execRekeyRetry {d : Dev} {port : Nat} (h : s₀.Leads s) : s₀.LeadsBy (execRekeyRetry d port s) :=
  (h.linkEv fun _ h => h.startRekey.ite h).next

/-! #### The functions of Machine/Training.lean -/

theorem State.Leads.setLink {d : Dev} {p : Nat} {g : Link → Link} (h : s₀.Leads s) : s₀.Leads (s.setLink d p g) := by
  unfold State.setLink
  split
  · exact h.onPort
  · exact h.onLink

theorem State.Leads.clockLock {d : Dev} {p : Nat} (h : s₀.Leads s) : s₀.Leads (s.clockLock d p) :=
  h.ite h.setLink.emit

theorem State.Leads.settled {d : Dev} {p : Nat} (h : s₀.Leads s) : s₀.Leads (s.settled d p) := by
  unfold State.settled
  refine h.ite ?_
  split
  · exact h.closePort.recordPort
  · exact h.closePort

theorem State.Leads.identityTaken {d : Dev} {p : Nat} {r : Identity} (h : s₀.Leads s) : s₀.Leads (s.identityTaken d p r) := by
  unfold State.identityTaken
  refine h.ite ?_
  split
  · exact h.portFault
  · split
    · exact h.setLink.settled
    · exact h.setLink

theorem State.Leads.stepFails {d : Dev} {p : Nat} (h : s₀.Leads s) : s₀.Leads (s.stepFails d p) := by
  unfold State.stepFails
  split
  · exact h.setLink.settled
  · exact h.portFault

theorem State.Leads.decideStep {d : Dev} {p : Nat} {table : Bool} {eq : EqSet} {q : LaneReport} (h : s₀.Leads s) :
    s₀.Leads (s.decideStep d p table eq q) := by
  unfold State.decideStep
  dsimp only
  split
  · exact h.setLink.stepFails
  · exact h.setLink.setLink.ite h.setLink.setLink.settled

theorem State.Leads.equalised {d : Dev} {p : Nat} {r : LaneReport} (h : s₀.Leads s) : s₀.Leads (s.equalised d p r) :=
  h.ite (h.stepFails.ite (h.setLink.ite h.decideStep))

theorem State.Leads.mapped {d : Dev} {p : Nat} {figures partner : List Nat} (h : s₀.Leads s) : s₀.Leads (s.mapped d p figures partner) :=
  h.ite (h.setLink.ite (h.loadSlots.setLink.beginExchange.ite h.loadSlots.setLink))

theorem State.Leads.trainingFails {d : Dev} {p : Nat} (h : s₀.Leads s) : s₀.Leads (s.trainingFails d p) :=
  h.trainFail.ite h

theorem State.Leads.trainAgain {d : Dev} {p : Nat} (h : s₀.Leads s) : s₀.Leads (s.trainAgain d p) :=
  h.ite h.setLink.emit

theorem State.Leads.recordLane {d : Dev} {p lane : Nat} (h : s₀.Leads s) : s₀.Leads (s.recordLane d p lane) := by
  unfold State.recordLane
  split
  · exact h.record
  · exact h.epRaise

theorem State.Leads.lanesGone {d : Dev} {p : Nat} (h : s₀.Leads s) : s₀.Leads (s.lanesGone d p) := by
  unfold State.lanesGone
  split
  · exact h.fencePort.regionGone.invalPoll
  · exact h.epFencePort

theorem State.Leads.laneFails {d : Dev} {p : Nat} {lanes : List Nat} {cause : LaneFault} {out : Bool} (h : s₀.Leads s) :
    s₀.Leads (s.laneFails d p lanes cause out) := by
  unfold State.laneFails
  refine h.ite (h.setLink.ite (h.ite ?_))
  dsimp only
  split
  · exact (h.ite (h.each fun _ _ hu => hu.recordLane)).lanesGone
  · exact (h.ite (h.each fun _ _ hu => hu.recordLane)).setLink.ite (h.ite (h.each fun _ _ hu => hu.recordLane)).setLink

theorem State.Leads.laneChanged {d : Dev} {p : Nat} (h : s₀.Leads s) : s₀.Leads (s.laneChanged d p) := by
  unfold State.laneChanged
  dsimp only
  split
  · exact h
  · exact h.setLink.each fun _ _ hu => hu.laneFails

theorem State.Leads.beginTest {d : Dev} {p : Nat} {install : Bool} (h : s₀.Leads s) : s₀.Leads (s.beginTest d p install) :=
  h.setLink.ite h

theorem State.Leads.laneTestEnd {d : Dev} {p lane errors partner : Nat} (h : s₀.Leads s) : s₀.Leads (s.laneTestEnd d p lane errors partner) := by
  unfold State.laneTestEnd
  split
  · exact h
  · refine h.ite (.ite (.setLink ?_) (.setLink (.ite ?_ (.recordLane ?_))))
    · split
      · exact h.onSw
      · exact h
    · split
      · exact h.onSw
      · exact h
    · split
      · exact h.onSw
      · exact h

theorem State.Leads.linkLoss {p : Nat} (h : s₀.Leads s) : s₀.Leads (s.linkLoss p) :=
  h.recordPort.fencePort.regionGone.invalPoll

theorem State.Leads.cable {p : Nat} {present : Bool} (h : s₀.Leads s) : s₀.Leads (s.cable p present) :=
  (h.onSw.retrain.ite h.onSw).ite (h.onSw.ite h.onSw.linkLoss)

theorem State.Leads.overcurrent {p : Nat} (h : s₀.Leads s) : s₀.Leads (s.overcurrent p) :=
  h.ite h.onSw.emit

theorem State.Leads.execPartnerClockLock {d : Dev} {port : Nat} (h : s₀.Leads s) : s₀.LeadsBy (execPartnerClockLock d port s) :=
  (h.linkEv fun _ h => h.clockLock).next

theorem State.Leads.execIdentityRecord {d : Dev} {port : Nat} {copies : List (List Byte)} (h : s₀.Leads s) :
    s₀.LeadsBy (execIdentityRecord d port copies s) := by
  unfold Machine.execIdentityRecord
  refine (h.linkEv fun _ h => ?_).next
  split
  · exact h.identityTaken
  · exact h

theorem State.Leads.execEqualiseDone {d : Dev} {port : Nat} {r : LaneReport} (h : s₀.Leads s) : s₀.LeadsBy (execEqualiseDone d port r s) :=
  (h.linkEv fun _ h => h.equalised).next

theorem State.Leads.execLaneMapDone {d : Dev} {port : Nat} {figures : LaneFigures} (h : s₀.Leads s) : s₀.LeadsBy (execLaneMapDone d port figures s) :=
  (h.linkEv fun _ h => h.mapped).next

theorem State.Leads.execTrainingTimeout {d : Dev} {port : Nat} (h : s₀.Leads s) : s₀.LeadsBy (execTrainingTimeout d port s) :=
  (h.linkEv fun _ h => h.trainingFails).next

theorem State.Leads.execTrainingRetry {d : Dev} {port : Nat} (h : s₀.Leads s) : s₀.LeadsBy (execTrainingRetry d port s) :=
  (h.linkEv fun _ h => h.trainAgain).next

theorem State.Leads.execLockLossBeforeActive {d : Dev} {port : Nat} (h : s₀.Leads s) : s₀.LeadsBy (execLockLossBeforeActive d port s) :=
  (h.linkEv fun _ h => h.trainFail.ite h).next

theorem State.Leads.execLaneFailed {d : Dev} {port : Nat} {l : FailedLanes} {cause : LaneFault} (h : s₀.Leads s) :
    s₀.LeadsBy (execLaneFailed d port l cause s) :=
  (h.linkEv fun _ h => h.laneFails).next

theorem State.Leads.execLaneChangeDone {d : Dev} {port : Nat} (h : s₀.Leads s) : s₀.LeadsBy (execLaneChangeDone d port s) :=
  (h.linkEv fun _ h => h.laneChanged).next

theorem State.Leads.execPeriodicTestDue {p : DevPort} (h : s₀.Leads s) : s₀.LeadsBy (execPeriodicTestDue p s) :=
  (h.linkEv fun _ h => h.ite h.beginTest).next

theorem State.Leads.execLaneTestEnd {p : DevPort} {lane : Nat} {e : LaneErrors} (h : s₀.Leads s) : s₀.LeadsBy (execLaneTestEnd p lane e s) :=
  (h.linkEv fun _ h => h.laneTestEnd).next

theorem State.Leads.execChime {d : Dev} {port : Nat} (h : s₀.Leads s) : s₀.LeadsBy (execChime d port s) := by
  unfold Machine.execChime
  refine .next ?_
  split
  · exact h.work
  · exact h.epEv fun _ hu => hu.epWake

theorem State.Leads.execLinkLoss {port : Nat} (h : s₀.Leads s) : s₀.LeadsBy (execLinkLoss port s) :=
  (h.linkLoss.ite h).next

theorem State.Leads.execEndpointLinkLoss {port : Nat} (h : s₀.Leads s) : s₀.LeadsBy (execEndpointLinkLoss port s) :=
  (h.epEv fun _ h => h.epFencePort.ite h).next

theorem State.Leads.execCablePresenceChange {port : Nat} {present : Bool} (h : s₀.Leads s) : s₀.LeadsBy (execCablePresenceChange port present s) :=
  h.cable.next

theorem State.Leads.execCableOvercurrent {port : Nat} (h : s₀.Leads s) : s₀.LeadsBy (execCableOvercurrent port s) :=
  h.overcurrent.next

/-! #### The functions of Machine/CatPorts.lean -/

theorem State.Leads.onPortCfg {p : Nat} {g : PortCfg → PortCfg} (h : s₀.Leads s) : s₀.Leads (s.onPortCfg p g) :=
  h.onSys

theorem staticPortForm_leads {op lo hi : Nat} {g : Nat → PortCfg → PortCfg} : (staticPortForm op lo hi g).Leads where
  commit _ h := h.onPortCfg
  start _ h := h

theorem portSpeedSetForm_leads : portSpeedSetForm.Leads where
  commit _ h := h.onPortCfg
  start _ h := h

theorem portEqSetForm_leads : portEqSetForm.Leads where
  commit _ h := h.onPortCfg
  start _ h := h

theorem linkSealSetForm_leads : linkSealSetForm.Leads where
  commit _ h := h.onPortCfg
  start _ h := h

theorem calEqStoreForm_leads : calEqStoreForm.Leads where
  commit _ h := by
    unfold calEqStoreForm
    dsimp only
    exact h.onFlash
  start _ h := h

theorem portLaneTestForm_leads : portLaneTestForm.Leads where
  commit _ h := h.each fun _ _ h => h.beginTest
  start _ h := h

theorem portTestPolicySetForm_leads : portTestPolicySetForm.Leads where
  commit _ h := by
    unfold portTestPolicySetForm
    dsimp only
    exact h.onSys
  start _ h := h

theorem portNarrowForm_leads : portNarrowForm.Leads where
  commit _ h := by
    unfold portNarrowForm
    dsimp only
    exact h.onPort
  start _ h := h

theorem linkRekeyForm_leads : linkRekeyForm.Leads where
  commit _ h := h.each fun _ _ h => h.startRekey
  start _ h := h

theorem State.Leads.execPortSpeedSet {fn mb : Nat} (h : s₀.Leads s) : s₀.LeadsBy (execPortSpeedSet fn mb s) :=
  (h.takeCommand portSpeedSetForm_leads).next

theorem State.Leads.execPortEqSet {fn mb : Nat} (h : s₀.Leads s) : s₀.LeadsBy (execPortEqSet fn mb s) :=
  (h.takeCommand portEqSetForm_leads).next

theorem State.Leads.execCalEqStore {fn mb : Nat} (h : s₀.Leads s) : s₀.LeadsBy (execCalEqStore fn mb s) :=
  (h.takeCommand calEqStoreForm_leads).next

theorem State.Leads.execPortLaneTest {fn mb : Nat} (h : s₀.Leads s) : s₀.LeadsBy (execPortLaneTest fn mb s) :=
  (h.takeCommand portLaneTestForm_leads).next

theorem State.Leads.execPortTestPolicySet {fn mb : Nat} (h : s₀.Leads s) : s₀.LeadsBy (execPortTestPolicySet fn mb s) :=
  (h.takeCommand portTestPolicySetForm_leads).next

theorem State.Leads.execPortNarrow {fn mb : Nat} (h : s₀.Leads s) : s₀.LeadsBy (execPortNarrow fn mb s) :=
  (h.takeCommand portNarrowForm_leads).next

theorem State.Leads.execLinkSealSet {fn mb : Nat} (h : s₀.Leads s) : s₀.LeadsBy (execLinkSealSet fn mb s) :=
  (h.takeCommand linkSealSetForm_leads).next

theorem State.Leads.execLinkRekey {fn mb : Nat} (h : s₀.Leads s) : s₀.LeadsBy (execLinkRekey fn mb s) :=
  (h.takeCommand linkRekeyForm_leads).next

/-! #### The functions of Machine/CatPower.lean -/

theorem powerVoteForm_leads : powerVoteForm.Leads where
  commit _ h := h.onDomain.revote
  start _ h := h

theorem paceSetForm_leads : paceSetForm.Leads where
  commit _ h := (h.onSys.ifThen fun _ h => h.setSlow).passValue
  start _ h := h

theorem brakeSetForm_leads : brakeSetForm.Leads where
  commit _ h := by
    unfold brakeSetForm
    dsimp only
    exact h.onSys
  start _ h := h

theorem powerReadForm_leads : powerReadForm.Leads where
  commit _ h := h.ite h.onPower
  start _ h := h

theorem tallyReadForm_leads : tallyReadForm.Leads where
  commit _ h := h
  start _ h := h

theorem faultLogReadForm_leads : faultLogReadForm.Leads where
  commit _ h := h
  start _ h := h

theorem tallyQueueReadForm_leads : tallyQueueReadForm.Leads where
  commit _ h := by
    unfold tallyQueueReadForm
    dsimp only
    exact h.onSw
  start _ h := h

theorem State.Leads.fencePartition {p : Nat} (h : s₀.Leads s) : s₀.Leads (s.fencePartition p) :=
  h.ite h.putPart.cancelUnstarted.fenceEngines.escrowSettle

theorem State.Leads.unfenceEngine {e : Nat} (h : s₀.Leads s) : s₀.Leads (s.unfenceEngine e) :=
  h.putEngine.onDomain

theorem State.Leads.fenceSet {kind agent index : Nat} (h : s₀.Leads s) : s₀.Leads (s.fenceSet kind agent index) :=
  h.fencePort.regionGone.invalPoll.ite (h.fenceEngine.ite (h.fenceEngines.ite (h.fenceChannel.ite (h.fencePartition.ite (h.fenceAgent.ite
      h.giveVerdict.regionGone)))))

theorem State.Leads.fenceClear {kind agent index : Nat} (h : s₀.Leads s) : s₀.Leads (s.fenceClear kind agent index) :=
  h.unfenceEngine.escrowSettle.ite ((h.each fun _ _ h => h.unfenceEngine).escrowSettle.ite ((h.ite (h.putPart.each fun _ _ h =>
      h.unfenceEngine).escrowSettle).ite (h.clearAgent.ite h)))

theorem fenceSetForm_leads : fenceSetForm.Leads where
  commit _ h := h.fenceSet
  start _ h := h

theorem fenceClearForm_leads : fenceClearForm.Leads where
  commit _ h := h.fenceClear
  start _ h := h

theorem fdSetForm_leads : fdSetForm.Leads where
  commit _ h := by
    unfold fdSetForm
    dsimp only
    exact h.onSys
  start _ h := h

theorem State.Leads.readmitHere {h' inc : Nat} (h : s₀.Leads s) : s₀.Leads (s.readmitHere h' inc) :=
  h.putSeen.onEpRec.retrain.ite h.putSeen.onEpRec

theorem State.Leads.sendReadmit {d : Dev} {f : Frame} {came : Option Nat} (h : s₀.Leads s) : s₀.Leads (s.sendReadmit d f came) := by
  unfold State.sendReadmit
  refine h.each fun _ _ h => ?_
  split
  · exact h.swSendPort
  · exact h.epSend

theorem State.Leads.beginReadmit {c : Cmd} {h' : Nat} (h : s₀.Leads s) : s₀.Leads (s.beginReadmit c h') :=
  h.readmitHere.onSw.sendReadmit

theorem epReadmitForm_leads : epReadmitForm.Leads where
  commit _ h := h
  start _ h := h.beginReadmit

theorem State.Leads.execPowerVote {fn mb : Nat} (h : s₀.Leads s) : s₀.LeadsBy (execPowerVote fn mb s) :=
  (h.takeCommand powerVoteForm_leads).next

theorem State.Leads.execPaceSet {fn mb : Nat} (h : s₀.Leads s) : s₀.LeadsBy (execPaceSet fn mb s) :=
  (h.takeCommand paceSetForm_leads).next

theorem State.Leads.execBrakeSet {fn mb : Nat} (h : s₀.Leads s) : s₀.LeadsBy (execBrakeSet fn mb s) :=
  (h.takeCommand brakeSetForm_leads).next

theorem State.Leads.execPowerRead {fn mb : Nat} (h : s₀.Leads s) : s₀.LeadsBy (execPowerRead fn mb s) :=
  (h.takeCommand powerReadForm_leads).next

theorem State.Leads.execTallyRead {fn mb : Nat} (h : s₀.Leads s) : s₀.LeadsBy (execTallyRead fn mb s) :=
  (h.takeCommand tallyReadForm_leads).next

theorem State.Leads.execFaultLogRead {fn mb : Nat} (h : s₀.Leads s) : s₀.LeadsBy (execFaultLogRead fn mb s) :=
  (h.takeCommand faultLogReadForm_leads).next

theorem State.Leads.execTallyQueueRead {fn mb : Nat} (h : s₀.Leads s) : s₀.LeadsBy (execTallyQueueRead fn mb s) :=
  (h.takeCommand tallyQueueReadForm_leads).next

theorem State.Leads.execFenceSet {fn mb : Nat} (h : s₀.Leads s) : s₀.LeadsBy (execFenceSet fn mb s) :=
  (h.takeCommand fenceSetForm_leads).next

theorem State.Leads.execFenceClear {fn mb : Nat} (h : s₀.Leads s) : s₀.LeadsBy (execFenceClear fn mb s) :=
  (h.takeCommand fenceClearForm_leads).next

theorem State.Leads.execFdSet {fn mb : Nat} (h : s₀.Leads s) : s₀.LeadsBy (execFdSet fn mb s) :=
  (h.takeCommand fdSetForm_leads).next

theorem State.Leads.execEpReadmit {fn mb : Nat} (h : s₀.Leads s) : s₀.LeadsBy (execEpReadmit fn mb s) :=
  (h.takeCommand epReadmitForm_leads).next

/-! #### The functions of Machine/CatSchedules.lean -/

theorem State.Leads.nameMasters {master standby : Nat} (h : s₀.Leads s) : s₀.Leads (s.nameMasters master standby) :=
  (h.onClock.ifThen fun _ h => h.onClock).retime.decideBook

theorem timeMasterSetForm_leads : timeMasterSetForm.Leads where
  commit _ h := h.nameMasters
  start _ h := h

theorem timeSetForm_leads : timeSetForm.Leads where
  commit _ h := by
    unfold timeSetForm
    dsimp only
    exact h.onClock
  start _ h := h

theorem State.Leads.stageEnds {a : Active} {status : Nat} {rsp : List Byte} (h : s₀.Leads s) : s₀.Leads (s.stageEnds a status rsp) :=
  h.onSched.finishWork

theorem schedStageForm_leads : schedStageForm.Leads where
  commit _ h := h
  start _ h := by
    unfold schedStageForm
    dsimp only
    exact h.askHost (fun _ h => h.commandRead) fun _ _ h => h.stageEnds

theorem State.Leads.relayLists {a : Active} {k : Package} {parts : List (Section × List Byte)} (h : s₀.Leads s) : s₀.Leads (s.relayLists a k parts) :=
  h.each fun _ _ h => h.each fun _ _ hu => hu.relayEp

theorem State.Leads.stageRead {a : Active} {stage : Nat} {host : Option (List Byte)} (h : s₀.Leads s) : s₀.Leads (s.stageRead a stage host) := by
  unfold State.stageRead
  dsimp only
  split
  · exact h.stageEnds
  · refine (h.stageEnds.ite (h.stageEnds.ite (h.onActive.askHost (fun _ hu => hu.commandRead.commandRead) fun _ _ hu => hu.stageEnds))).ite
      ((h.stageEnds.ite (h.onActive.askHost (fun _ hu => hu.each fun _ _ hv => hv.commandRead) fun _ _ hu => hu.stageEnds)).ite (h.stageEnds.ite
          (h.stageEnds.ite ?_)))
    split
    · exact h.stageEnds
    · exact h.stageEnds.ite (h.onSched.stageEnds.ite (h.onSched.relayLists.onActive.ite h.onSched.relayLists.stageEnds))

theorem State.Leads.stageConfirmed {a : Active} (h : s₀.Leads s) : s₀.Leads (s.stageConfirmed a) :=
  h.stageEnds

theorem State.Leads.stages {fn : Nat} (h : s₀.Leads s) : s₀.Leads (s.stages fn).2 :=
  .pair h.onCore

theorem State.Leads.tellEps {data : List Byte} (h : s₀.Leads s) : s₀.Leads (s.tellEps data) :=
  h.each fun _ _ h => h.relayEp

theorem schedArmForm_leads : schedArmForm.Leads where
  commit _ h := by
    unfold schedArmForm
    dsimp only
    exact h.stages.onSched.setEvent.tellEps
  start _ h := h

theorem schedDisarmForm_leads : schedDisarmForm.Leads where
  commit _ h := h.onSched.setEvent.tellEps
  start _ h := h

theorem bookPolicySetForm_leads : bookPolicySetForm.Leads where
  commit _ h := by
    unfold bookPolicySetForm
    dsimp only
    exact h.onSched
  start _ h := h

theorem shaperSetForm_leads : shaperSetForm.Leads where
  commit _ h := by
    unfold shaperSetForm
    dsimp only
    exact h.stages.onCore
  start _ h := h

theorem policerSetForm_leads : policerSetForm.Leads where
  commit _ h := by
    unfold policerSetForm
    dsimp only
    exact h.stages.onCore
  start _ h := h

theorem shaperReadForm_leads : shaperReadForm.Leads where
  commit _ h := h
  start _ h := h

theorem State.Leads.execTimeMasterSet {fn mb : Nat} (h : s₀.Leads s) : s₀.LeadsBy (execTimeMasterSet fn mb s) :=
  (h.takeCommand timeMasterSetForm_leads).next

theorem State.Leads.execTimeSet {fn mb : Nat} (h : s₀.Leads s) : s₀.LeadsBy (execTimeSet fn mb s) :=
  (h.takeCommand timeSetForm_leads).next

theorem State.Leads.execSchedStage {fn mb : Nat} (h : s₀.Leads s) : s₀.LeadsBy (execSchedStage fn mb s) :=
  (h.takeCommand schedStageForm_leads).next

theorem State.Leads.execSchedArm {fn mb : Nat} (h : s₀.Leads s) : s₀.LeadsBy (execSchedArm fn mb s) :=
  (h.takeCommand schedArmForm_leads).next

theorem State.Leads.execSchedDisarm {fn mb : Nat} (h : s₀.Leads s) : s₀.LeadsBy (execSchedDisarm fn mb s) :=
  (h.takeCommand schedDisarmForm_leads).next

theorem State.Leads.execBookPolicySet {fn mb : Nat} (h : s₀.Leads s) : s₀.LeadsBy (execBookPolicySet fn mb s) :=
  (h.takeCommand bookPolicySetForm_leads).next

theorem State.Leads.execShaperSet {fn mb : Nat} (h : s₀.Leads s) : s₀.LeadsBy (execShaperSet fn mb s) :=
  (h.takeCommand shaperSetForm_leads).next

theorem State.Leads.execPolicerSet {fn mb : Nat} (h : s₀.Leads s) : s₀.LeadsBy (execPolicerSet fn mb s) :=
  (h.takeCommand policerSetForm_leads).next

theorem State.Leads.execShaperRead {fn mb : Nat} (h : s₀.Leads s) : s₀.LeadsBy (execShaperRead fn mb s) :=
  (h.takeCommand shaperReadForm_leads).next

/-! #### The functions of Machine/Collectives.lean -/

theorem State.Leads.execCollData {_port : Nat} {f : Frame} (h : s₀.Leads s) : s₀.LeadsBy (execCollData _port f s) :=
  h.collData.next

theorem State.Leads.execCollResult {port : Nat} {f : Frame} (h : s₀.Leads s) : s₀.LeadsBy (execCollResult port f s) :=
  (h.collFromRoot.ite (h.epIn fun _ h => h.epCollResult)).next

theorem State.Leads.execCollConfirm {_port : Nat} {f : Frame} (h : s₀.Leads s) : s₀.LeadsBy (execCollConfirm _port f s) :=
  h.collConfirm.next

theorem State.Leads.execCollConfirmSettled {d : Dev} {port : Nat} {f : Frame} (h : s₀.Leads s) : s₀.LeadsBy (execCollConfirmSettled d port f s) := by
  unfold Machine.execCollConfirmSettled
  refine .next ?_
  split
  · exact h.collFromRoot
  · exact h.epIn fun _ hu => hu.epSettled

theorem State.Leads.execCollRecall {port : Nat} {f : Frame} (h : s₀.Leads s) : s₀.LeadsBy (execCollRecall port f s) :=
  (h.epIn fun _ h => h.epCollRecall).next

theorem State.Leads.execCollRecallSwitch {_port : Nat} {f : Frame} (h : s₀.Leads s) : s₀.LeadsBy (execCollRecallSwitch _port f s) :=
  h.collFromRoot.next

theorem State.Leads.execCollAbort {d : Dev} {port : Nat} {f : Frame} (h : s₀.Leads s) : s₀.LeadsBy (execCollAbort d port f s) := by
  unfold Machine.execCollAbort
  refine .next ?_
  split
  · exact h.collAbortSw
  · exact h.epIn fun _ hu => hu.epCollAbort

theorem State.Leads.execSettlementLimit {synd epoch chunk : Nat} (h : s₀.Leads s) : s₀.LeadsBy (execSettlementLimit synd epoch chunk s) :=
  h.settlementLimit.next

/-! #### The functions of Machine/Relays.lean -/

theorem State.Leads.dropRelay {id : Nat} (h : s₀.Leads s) : s₀.Leads (s.dropRelay id) :=
  h.onSw

theorem State.Leads.dropRelays {fn mb : Nat} (h : s₀.Leads s) : s₀.Leads (s.dropRelays fn mb) :=
  h.onSw

theorem State.Leads.endsWith {a : Active} {status : Nat} (h : s₀.Leads s) : s₀.Leads (s.endsWith a status) :=
  h.dropRelays.stageEnds.ite h.dropRelays.finishWork

theorem State.Leads.relayed {a : Active} {extra : List Byte} (h : s₀.Leads s) : s₀.Leads (s.relayed a extra) :=
  (h.onActive.finishWork.ite h.onActive.regionReadNext).ite (h.finishWork.ite (h.ite (h.syndFormed.ite (h.stageConfirmed.ite h.finishWork))))

theorem State.Leads.confirmed {f : Frame} (h : s₀.Leads s) : s₀.Leads (s.confirmed f) := by
  unfold State.confirmed
  dsimp only
  split
  · exact h
  · split
    · exact h.dropRelay
    · exact (h.onActive.dropRelay.finishWork.ite h.onActive).ite h.dropRelay.relayed

theorem State.Leads.resendRelay {id : Nat} (h : s₀.Leads s) : s₀.Leads (s.resendRelay id) := by
  unfold State.resendRelay
  split
  · exact h
  · refine (h.onSw.sendReadmit.ite h.onSw.swSendPort).ite ?_
    dsimp only
    split
    · exact h.dropRelay.endsWith
    · exact h.dropRelay

theorem State.Leads.readmitSwitch {port : Nat} {f : Frame} (h : s₀.Leads s) : s₀.Leads (s.readmitSwitch port f) :=
  h.ite (h.readmitHere.sendReadmit.ite h).swSendPort

theorem State.Leads.readmitEp {port : Nat} {f : Frame} (h : s₀.Leads s) : s₀.Leads (s.readmitEp port f) :=
  h.ite h.onEp.putSeen.sendReadmit

theorem State.Leads.confirmEp {f : Frame} (h : s₀.Leads s) : s₀.Leads (s.confirmEp f) :=
  h.ite h.epSend

theorem State.Leads.execReadmit {d : Dev} {port : Nat} {f : Frame} (h : s₀.Leads s) : s₀.LeadsBy (execReadmit d port f s) := by
  unfold Machine.execReadmit
  refine (h.mgmtAt fun _ h => ?_).next
  split
  · exact h.readmitSwitch
  · exact h.readmitEp

theorem State.Leads.execConfirm {d : Dev} {port : Nat} {f : Frame} (h : s₀.Leads s) : s₀.LeadsBy (execConfirm d port f s) := by
  unfold Machine.execConfirm
  refine (h.mgmtAt fun _ h => ?_).next
  split
  · exact h.confirmed
  · exact h.confirmEp

theorem State.Leads.execResendTimer {id : Nat} (h : s₀.Leads s) : s₀.LeadsBy (execResendTimer id s) :=
  h.resendRelay.next

/-! #### The functions of Machine/Completion.lean -/

theorem State.Leads.commandWork {a : Active} {host : Option (List Byte)} (h : s₀.Leads s) : s₀.Leads (s.commandWork a host) := by
  unfold State.commandWork
  refine .ite ?_ (.ite ?_ (h.assayWork.ite (h.ledgerWork.ite (h.sealWork.ite (h.saveWork.ite (h.restoreWork.ite h.deviceWork))))))
  · split
    · exact h.stageRead
    · exact h
  · split
    · exact h.syndRead
    · exact h

theorem State.Leads.completion {fn mb : Nat} {host : Option (List Byte)} (h : s₀.Leads s) : s₀.Leads (s.completion fn mb host) := by
  unfold State.completion
  refine h.ite ?_
  dsimp only
  split
  · exact h.retireCheck
  · exact (h.retireCheck.ite h.retireCheck.commandWork).completeCommand

theorem State.Leads.commandLate {fn mb : Nat} (h : s₀.Leads s) : s₀.Leads (s.commandLate fn mb) := by
  unfold State.commandLate
  refine h.ite ?_
  split
  · exact h
  · exact h.ite h.endsWith.completeCommand

theorem State.Leads.takeUnlisted {fn mb : Nat} (h : s₀.Leads s) : s₀.Leads (s.takeUnlisted fn mb) := by
  have ht : s₀.Leads (s.onTeller fun t => { t with order := t.order.erase (fn, mb) }) := h.onTeller
  unfold State.takeUnlisted
  dsimp only
  split
  · exact h
  · split
    · exact ht.clearOwn
    · split
      · exact ht.respond
      · exact ht.commandEntry.respond

theorem State.Leads.execCommandCompletion {fn mb : Nat} {host : Option (List Byte)} (h : s₀.Leads s) : s₀.LeadsBy (execCommandCompletion fn mb host
    s) :=
  h.completion.next

theorem State.Leads.execUnlistedOpcode {fn mb : Nat} (h : s₀.Leads s) : s₀.LeadsBy (execUnlistedOpcode fn mb s) :=
  h.takeUnlisted.next

theorem State.Leads.execCommandTimeout {fn mb : Nat} (h : s₀.Leads s) : s₀.LeadsBy (execCommandTimeout fn mb s) :=
  h.commandLate.next

/-! #### The functions of Machine/Graphs.lean -/

theorem State.Leads.submit {pos m : Nat} {f : Frame} (h : s₀.Leads s) : s₀.Leads (s.submit pos m f) := by
  unfold State.submit
  refine h.emptyMbox.escrowRespond.ite ?_
  split
  · exact h.takeSlot.escrowSettle
  · exact h.onEscrow

theorem State.Leads.mailboxWrite {pos : Nat} {f : Frame} (h : s₀.Leads s) : s₀.Leads (s.mailboxWrite pos f) :=
  h.takeInbox.escrowRespond.ite (h.takeInbox.escrowRespond.ite (h.takeInbox.putMbox.submit.ite h.takeInbox.putMbox.escrowRespond))

theorem State.Leads.mailboxRead {f : Frame} (h : s₀.Leads s) : s₀.Leads (s.mailboxRead f) :=
  h.takeInbox.escrowRespond.ite (h.takeInbox.escrowRespond.ite h.takeInbox.escrowRespond)

theorem State.Leads.taskComplete {slot t : Nat} (h : s₀.Leads s) : s₀.Leads (s.taskComplete slot t) := by
  unfold State.taskComplete
  split
  · exact h
  · split
    · exact h.settleTask.escrowSettle.ite h
    · exact h

theorem State.Leads.retryWaitEnd {slot t : Nat} (h : s₀.Leads s) : s₀.Leads (s.retryWaitEnd slot t) := by
  unfold State.retryWaitEnd
  split
  · exact h
  · exact h.ite h.onTask.onEscrow.escrowSettle

theorem State.Leads.deadline {slot : Nat} (h : s₀.Leads s) : s₀.Leads (s.deadline slot) := by
  unfold State.deadline
  split
  · exact h
  · exact h.ite h.cancelGraphFor.escrowSettle

theorem State.Leads.waitTimeReached {slot t : Nat} (h : s₀.Leads s) : s₀.Leads (s.waitTimeReached slot t) := by
  unfold State.waitTimeReached
  split
  · exact h
  · exact h.settleTask.escrowSettle.ite h

theorem State.Leads.admissionExpiry {m : Nat} (h : s₀.Leads s) : s₀.Leads (s.admissionExpiry m) := by
  unfold State.admissionExpiry
  split
  · exact h
  · exact h.onEscrow.emptyMbox.escrowRespond

theorem State.Leads.execFabricMailboxWrite {pos : Nat} {f : Frame} (h : s₀.Leads s) : s₀.LeadsBy (execFabricMailboxWrite pos f s) :=
  h.mailboxWrite.next

theorem State.Leads.execFabricMailboxRead {_pos : Nat} {f : Frame} (h : s₀.Leads s) : s₀.LeadsBy (execFabricMailboxRead _pos f s) :=
  h.mailboxRead.next

theorem State.Leads.execTaskComplete {slot task : Nat} (h : s₀.Leads s) : s₀.LeadsBy (execTaskComplete slot task s) :=
  h.taskComplete.next

theorem State.Leads.execRetryWaitEnd {slot task : Nat} (h : s₀.Leads s) : s₀.LeadsBy (execRetryWaitEnd slot task s) :=
  h.retryWaitEnd.next

theorem State.Leads.execDeadline {slot : Nat} (h : s₀.Leads s) : s₀.LeadsBy (execDeadline slot s) :=
  h.deadline.next

theorem State.Leads.execWaitTimeReached {slot task : Nat} (h : s₀.Leads s) : s₀.LeadsBy (execWaitTimeReached slot task s) :=
  h.waitTimeReached.next

theorem State.Leads.execAdmissionWaitExpiry {mailbox : Nat} (h : s₀.Leads s) : s₀.LeadsBy (execAdmissionWaitExpiry mailbox s) :=
  h.admissionExpiry.next

/-! #### The functions of Machine/Management.lean -/

theorem State.Leads.mgmtIn {f : Frame} {g : State → State} (h : s₀.Leads s) (hg : ∀ u, s₀.Leads u → s₀.Leads (g u)) : s₀.Leads (s.mgmtIn f g) :=
  hg _ h.takeInbox

theorem State.Leads.execHeartbeat {port : Nat} {f : Frame} (h : s₀.Leads s) : s₀.LeadsBy (execHeartbeat port f s) :=
  (h.epIn fun _ h => h.epHeartbeat).next

theorem State.Leads.execHeartbeatAck {_port : Nat} {f : Frame} (h : s₀.Leads s) : s₀.LeadsBy (execHeartbeatAck _port f s) :=
  (h.mgmtIn fun _ h => h.heartbeatAck).next

theorem State.Leads.execHeartbeatInstant (h : s₀.Leads s) : s₀.LeadsBy (execHeartbeatInstant s) :=
  h.heartbeatInstant.next

theorem State.Leads.suspectAt {d : Dev} {port : Nat} {f : Frame} (h : s₀.Leads s) : s₀.Leads (s.suspectAt d port f) := by
  unfold State.suspectAt
  split
  · exact h.mgmtIn fun _ hu => hu.flood.suspectSwitch
  · exact h.epIn fun _ hu => hu.flood

theorem State.Leads.execSuspect {d : Dev} {port : Nat} {f : Frame} (h : s₀.Leads s) : s₀.LeadsBy (execSuspect d port f s) :=
  h.suspectAt.next

theorem State.Leads.execSuspectExpiry {endpoint sender : Nat} (h : s₀.Leads s) : s₀.LeadsBy (execSuspectExpiry endpoint sender s) :=
  (h.onEpRec.ite h).next

theorem State.Leads.execVerdict {d : Dev} {port : Nat} {f : Frame} (h : s₀.Leads s) : s₀.LeadsBy (execVerdict d port f s) := by
  unfold Machine.execVerdict
  refine .next ?_
  split
  · exact h.mgmtIn fun _ hu => hu.verdictSwitch.regionGone
  · exact h.epIn fun _ hu => hu.epVerdict

theorem State.Leads.execFenceNotice {port : Nat} {f : Frame} (h : s₀.Leads s) : s₀.LeadsBy (execFenceNotice port f s) :=
  (h.epIn fun _ h => h.fenceNotice).next

theorem State.Leads.execAdmitFrame {port : Nat} {f : Frame} (h : s₀.Leads s) : s₀.LeadsBy (execAdmitFrame port f s) :=
  (h.epIn fun _ h => h.epAdmit).next

theorem State.Leads.execConfig {port : Nat} {f : Frame} (h : s₀.Leads s) : s₀.LeadsBy (execConfig port f s) :=
  (h.epIn fun _ h => h.epConfig).next

theorem State.Leads.execSlotClose {port : Nat} {f : Frame} (h : s₀.Leads s) : s₀.LeadsBy (execSlotClose port f s) :=
  (h.epIn fun _ h => h.slotClose).next

theorem State.Leads.execSlotOpen {port : Nat} {f : Frame} (h : s₀.Leads s) : s₀.LeadsBy (execSlotOpen port f s) :=
  (h.epIn fun _ h => h.slotOpen).next

theorem State.Leads.execEndpointPortRedetect {port : Nat} (h : s₀.Leads s) : s₀.LeadsBy (execEndpointPortRedetect port s) :=
  (h.epEv fun _ h => h.epRedetect.ite h).next

/-! #### The functions of Machine/Pace.lean -/

theorem State.Leads.powerReq {d : Dev} {p st : Nat} (h : s₀.Leads s) : s₀.Leads (s.powerReq d p st) := by
  unfold State.powerReq
  split
  · exact h.powerReqSw
  · exact h.powerReqEp

theorem State.Leads.execPowerReq {d : Dev} {port : Nat} {f : Frame} (h : s₀.Leads s) : s₀.LeadsBy (execPowerReq d port f s) :=
  (h.mgmtAt fun _ h => h.powerReq).next

theorem State.Leads.powerAck {d : Dev} {p a : Nat} (h : s₀.Leads s) : s₀.Leads (s.powerAck d p a) := by
  unfold State.powerAck
  split
  · exact h.powerAckSw
  · exact h.onLink.epPower.ite h

theorem State.Leads.execPowerAck {d : Dev} {port : Nat} {f : Frame} (h : s₀.Leads s) : s₀.LeadsBy (execPowerAck d port f s) :=
  (h.mgmtAt fun _ h => h.powerAck).next

theorem State.Leads.execIdleHoldEnd {kind index : Nat} (h : s₀.Leads s) : s₀.LeadsBy (execIdleHoldEnd kind index s) :=
  (h.idleHold.ite h).next

theorem State.Leads.execPowerEntryDone {kind index : Nat} (h : s₀.Leads s) : s₀.LeadsBy (execPowerEntryDone kind index s) :=
  h.entryDone.next

theorem State.Leads.execWakeStageReady {kind index : Nat} (h : s₀.Leads s) : s₀.LeadsBy (execWakeStageReady kind index s) :=
  h.stageReady.next

theorem State.Leads.execWakeStageTimeout {kind index : Nat} (h : s₀.Leads s) : s₀.LeadsBy (execWakeStageTimeout kind index s) :=
  h.stageLate.next

theorem State.Leads.execWakeN (h : s₀.Leads s) : s₀.LeadsBy (execWakeN s) :=
  h.wakeAll.next

theorem State.Leads.balanceAt {d : Dev} {readings : List Nat} (h : s₀.Leads s) : s₀.Leads (s.balanceAt d readings) := by
  unfold State.balanceAt
  split
  · exact h.balance
  · exact h.onEp

theorem State.Leads.execBalanceSample {d : Dev} {readings : List Nat} (h : s₀.Leads s) : s₀.LeadsBy (execBalanceSample d readings s) :=
  h.balanceAt.next

theorem State.Leads.regulateAt {d : Dev} {watts : Nat} (h : s₀.Leads s) : s₀.Leads (s.regulateAt d watts) := by
  unfold State.regulateAt
  split
  · exact h.regulate
  · exact h.epRegulate

theorem State.Leads.execRegulatorTick {d : Dev} {watts : Nat} (h : s₀.Leads s) : s₀.LeadsBy (execRegulatorTick d watts s) :=
  h.regulateAt.next

theorem State.Leads.execPwrbrkNAssert (h : s₀.Leads s) : s₀.LeadsBy (execPwrbrkNAssert s) :=
  h.brake.next

theorem State.Leads.execPwrbrkNDeassert (h : s₀.Leads s) : s₀.LeadsBy (execPwrbrkNDeassert s) :=
  h.unbrake.next

theorem State.Leads.execThrottle {degrees : Nat} (h : s₀.Leads s) : s₀.LeadsBy (execThrottle degrees s) :=
  h.throttleAt.next

theorem State.Leads.execThrottleEnd (h : s₀.Leads s) : s₀.LeadsBy (execThrottleEnd s) :=
  h.onPower.next

theorem State.Leads.execThermalTrip (h : s₀.Leads s) : s₀.LeadsBy (execThermalTrip s) :=
  h.trip.next

theorem State.Leads.execTripHoldEnd (h : s₀.Leads s) : s₀.LeadsBy (execTripHoldEnd s) :=
  (h.turnOff.ite h).next

theorem State.Leads.endpointThermal {degrees : Nat} (h : s₀.Leads s) : s₀.Leads (s.endpointThermal degrees) :=
  h.onEp.ite (h.onEp.epEvent.onEp.emit.ite h.onEp.epEvent)

theorem State.Leads.execEndpointThermal {degrees : Nat} (h : s₀.Leads s) : s₀.LeadsBy (execEndpointThermal degrees s) :=
  h.endpointThermal.next

/-! #### The functions of Machine/Records.lean -/

theorem State.Leads.sendInputAck {f : Frame} {status : Nat} (h : s₀.Leads s) : s₀.Leads (s.sendInputAck f status) :=
  h.swSend

theorem State.Leads.takeCopy {f : Frame} (h : s₀.Leads s) : s₀.LeadsAny (s.takeCopy f) :=
  .ite .none h.logInput.sendInputAck.some

theorem State.Leads.inputCopy {p : Nat} {f : Frame} (h : s₀.Leads s) : s₀.Leads (s.inputCopy p f) := by
  unfold State.inputCopy
  dsimp only
  split
  · next x1 x2 e3 =>
      have k1 := h.takeInbox.takeCopy _ e3
      exact k1
  · exact h.takeInbox.onSw.noteFull

theorem State.Leads.copyWaitEnd {src tag : Nat} (h : s₀.Leads s) : s₀.Leads (s.copyWaitEnd src tag) := by
  unfold State.copyWaitEnd
  split
  · exact h
  · exact h.onSw.sendInputAck

theorem State.Leads.takeCopies {p : Nat} (h : s₀.Leads s) : s₀.Leads (s.takeCopies p) := by
  unfold State.takeCopies
  refine h.each fun _ _ h => ?_
  split
  · next x1 x2 e3 =>
      have k1 := h.takeCopy _ e3
      exact k1.onSw
  · exact h

theorem State.Leads.settleWaiting {p : Nat} (h : s₀.Leads s) : s₀.Leads (s.settleWaiting p) := by
  unfold State.settleWaiting
  refine h.each fun _ _ h => h.each fun _ _ hu => hu.each fun _ _ hv => ?_
  split
  · exact hv
  · split
    · exact hv
    · split
      · exact hv.settleChunk.ite hv
      · exact hv

theorem State.Leads.roomCame {p : Nat} (h : s₀.Leads s) : s₀.Leads (s.roomCame p) :=
  (((h.takeQueuedEntries.ledgerSeal.ite h.takeQueuedEntries).each fun _ _ h => h.retireDone).putLedger.ite ((h.takeQueuedEntries.ledgerSeal.ite
      h.takeQueuedEntries).each fun _ _ h => h.retireDone)).takeCopies.settleWaiting

theorem State.Leads.stagingRoom {p bytes : Nat} (h : s₀.Leads s) : s₀.Leads (s.stagingRoom p bytes) :=
  h.ite h.putLedger.roomCame

theorem State.Leads.sealTimer {p : Nat} (h : s₀.Leads s) : s₀.Leads (s.sealTimer p) :=
  h.ledgerSeal.ite h

theorem State.Leads.execInputCopy {port : Nat} {f : Frame} (h : s₀.Leads s) : s₀.LeadsBy (execInputCopy port f s) :=
  h.inputCopy.next

theorem State.Leads.execInputCopyWaitEnd {src tag : Nat} (h : s₀.Leads s) : s₀.LeadsBy (execInputCopyWaitEnd src tag s) :=
  h.copyWaitEnd.next

theorem State.Leads.execStagingRoom {partition bytes : Nat} (h : s₀.Leads s) : s₀.LeadsBy (execStagingRoom partition bytes s) :=
  h.stagingRoom.next

theorem State.Leads.execLedgerSealTimer {partition : Nat} (h : s₀.Leads s) : s₀.LeadsBy (execLedgerSealTimer partition s) :=
  h.sealTimer.next

/-! #### The functions of Machine/Requests.lean -/

theorem State.Leads.atHome {d : Dev} {pos : Nat} {f : Frame} (h : s₀.Leads s) : s₀.Leads (s.atHome d pos f) := by
  unfold State.atHome
  split
  · exact h.homeRequest
  · exact h.epIn fun _ hu => hu.epHomeRequest

theorem State.Leads.execRead {d : Dev} {pos : Nat} {f : Frame} (h : s₀.Leads s) : s₀.LeadsBy (execRead d pos f s) :=
  h.atHome.next

theorem State.Leads.execReadVol {d : Dev} {pos : Nat} {f : Frame} (h : s₀.Leads s) : s₀.LeadsBy (execReadVol d pos f s) :=
  h.atHome.next

theorem State.Leads.execReadShared {d : Dev} {pos : Nat} {f : Frame} (h : s₀.Leads s) : s₀.LeadsBy (execReadShared d pos f s) :=
  h.atHome.next

theorem State.Leads.execReadOwn {d : Dev} {pos : Nat} {f : Frame} (h : s₀.Leads s) : s₀.LeadsBy (execReadOwn d pos f s) :=
  h.atHome.next

theorem State.Leads.execClaim {d : Dev} {pos : Nat} {f : Frame} (h : s₀.Leads s) : s₀.LeadsBy (execClaim d pos f s) :=
  h.atHome.next

theorem State.Leads.execWrite {d : Dev} {pos : Nat} {f : Frame} (h : s₀.Leads s) : s₀.LeadsBy (execWrite d pos f s) :=
  h.atHome.next

theorem State.Leads.execWriteLog {d : Dev} {pos : Nat} {f : Frame} (h : s₀.Leads s) : s₀.LeadsBy (execWriteLog d pos f s) :=
  h.atHome.next

theorem State.Leads.execDeposit {d : Dev} {pos : Nat} {f : Frame} (h : s₀.Leads s) : s₀.LeadsBy (execDeposit d pos f s) :=
  h.atHome.next

theorem State.Leads.execAtomic {d : Dev} {pos : Nat} {f : Frame} (h : s₀.Leads s) : s₀.LeadsBy (execAtomic d pos f s) :=
  h.atHome.next

theorem State.Leads.execLineOperation {unit : Nat} (h : s₀.Leads s) : s₀.LeadsBy (execLineOperation unit s) :=
  h.lineOperation.next

theorem State.Leads.homeBusyTimeout {unit idx : Nat} (h : s₀.Leads s) : s₀.Leads (s.homeBusyTimeout unit idx) := by
  unfold State.homeBusyTimeout
  split
  · exact h
  · exact h.unqueue.homeRespond

theorem State.Leads.execHomeBusyTimeout {unit idx : Nat} (h : s₀.Leads s) : s₀.LeadsBy (execHomeBusyTimeout unit idx s) :=
  h.homeBusyTimeout.next

theorem State.Leads.execReq {r : Req} (h : s₀.Leads s) : s₀.LeadsBy (execReq r s) :=
  (h.epEv fun _ h => h.epReq).next

theorem State.Leads.execFence {agent utag : Nat} {kind : FenceKind} {scope : Scope} (h : s₀.Leads s) : s₀.LeadsBy (execFence agent utag kind scope s)
    :=
  (h.epEv fun _ h => h.epFence).next

theorem State.Leads.execCall {agent utag : Nat} {c : CallRec} (h : s₀.Leads s) : s₀.LeadsBy (execCall agent utag c s) :=
  (h.epEv fun _ h => h.epCall).next

theorem State.Leads.execMemCpl {utag : Nat} {data : List Byte} (h : s₀.Leads s) : s₀.LeadsBy (execMemCpl utag data s) :=
  (h.epEv fun _ h => h.memDone).next

theorem State.Leads.ucieFail {module : Nat} (h : s₀.Leads s) : s₀.Leads (s.ucieFail module) :=
  h.onEp.ite (h.onEp.each fun _ _ h => h.onLink).epUnreachable

theorem State.Leads.execUcieModuleFail {module : Nat} (h : s₀.Leads s) : s₀.LeadsBy (execUcieModuleFail module s) :=
  h.ucieFail.next

theorem State.Leads.execEpAgentBindWrite {agent : Nat} {val : BitVec 64} (h : s₀.Leads s) : s₀.LeadsBy (execEpAgentBindWrite agent val s) :=
  (h.epEv fun _ h => h.bindAgent).next

/-! #### The functions of Machine/Translation.lean -/

theorem State.Leads.answerMiss {f : Frame} {status : Nat} {data : List Byte} (h : s₀.Leads s) : s₀.Leads (s.answerMiss f status data) :=
  h.swSend

theorem State.Leads.translateReq {port : Nat} {f : Frame} (h : s₀.Leads s) : s₀.Leads (s.translateReq port f) := by
  unfold State.translateReq
  dsimp only
  split
  · exact h.takeInbox.xlatFault.answerMiss
  · exact h.takeInbox.readFault.answerMiss.ite (h.takeInbox.startRead.ite h)

theorem State.Leads.execTranslateReq {port : Nat} {f : Frame} (h : s₀.Leads s) : s₀.LeadsBy (execTranslateReq port f s) :=
  h.translateReq.next

theorem State.Leads.execTranslateRsp {port : Nat} {f : Frame} (h : s₀.Leads s) : s₀.LeadsBy (execTranslateRsp port f s) :=
  (h.epIn fun _ h => h.epTranslated).next

theorem State.Leads.missFailed {n cva status : Nat} (h : s₀.Leads s) : s₀.Leads (s.missFailed n cva status) := by
  unfold State.missFailed
  exact (h.each fun _ _ h => h.endHeld).flightsGo.ifThen fun _ h => h.missEnds

theorem State.Leads.missServed {n ctx seg cva : Nat} {d : Desc} (h : s₀.Leads s) : s₀.Leads (s.missServed n ctx seg cva d) := by
  have hr : s₀.Leads ((s.hold n { ctx := ctx, seg := seg, desc := d }).retranslate fun x => x.ctx == ctx && x.who == n && d.covers x.cva) :=
    h.hold.retranslate
  unfold State.missServed
  dsimp only
  split
  · split
    · exact hr.resumeTask.ite hr
    · exact hr
  · split
    · exact hr.writeDone.escrowSettle.ite hr
    · exact hr

theorem State.Leads.serveWaiter {r : TableRead} {data : List Byte} {m : Miss} (h : s₀.Leads s) : s₀.Leads (s.serveWaiter r data m) := by
  unfold State.serveWaiter
  split
  · dsimp only
    split
    · exact h.answerMiss
    · exact h.xlatFault.answerMiss
  · refine h.xlatFault.missFailed.ite ?_
    split
    · exact h.missServed
    · exact h.xlatFault.missFailed

theorem State.Leads.answerRead {r : TableRead} {answer : State → Miss → State} (h : s₀.Leads s) (ha : ∀ u m, s₀.Leads u → s₀.Leads (answer u m)) :
    s₀.Leads (s.answerRead r answer) :=
  (h.onXlat.each ha).onXlat.retranslate.escrowSettle

theorem State.Leads.tableReadFailed {ctx : Nat} (h : s₀.Leads s) : s₀.Leads (s.tableReadFailed ctx) := by
  unfold State.tableReadFailed
  split
  · exact h
  · refine h.answerRead fun _ _ hu => ?_
    split
    · exact hu.xlatFault.answerMiss
    · exact hu.xlatFault.missFailed

theorem State.Leads.tableRead {ctx : Nat} {data : List Byte} (h : s₀.Leads s) : s₀.Leads (s.tableRead ctx data) := by
  unfold State.tableRead
  split
  · exact h
  · refine h.tableReadFailed.ite (.ite ?_ (h.answerRead fun _ _ hu => hu.serveWaiter))
    split
    · exact h.onXlat.emit
    · exact h

theorem State.Leads.execTableReadComplete {ctx : Nat} {data : List Byte} (h : s₀.Leads s) : s₀.LeadsBy (execTableReadComplete ctx data s) :=
  h.tableRead.next

theorem State.Leads.execTableReadTimeout {ctx : Nat} (h : s₀.Leads s) : s₀.LeadsBy (execTableReadTimeout ctx s) :=
  h.tableReadFailed.next

theorem State.Leads.execSegInv {d : Dev} {port : Nat} {f : Frame} (h : s₀.Leads s) : s₀.LeadsBy (execSegInv d port f s) := by
  unfold Machine.execSegInv
  refine .next ?_
  split
  · exact h.segInvSwitch
  · exact h.epIn fun _ hu => hu.epSegInv

theorem State.Leads.execSegInvAck {d : Dev} {port : Nat} {f : Frame} (h : s₀.Leads s) : s₀.LeadsBy (execSegInvAck d port f s) := by
  unfold Machine.execSegInvAck
  refine .next ?_
  split
  · exact h.segInvAckSwitch
  · exact h.epIn fun _ hu => hu.epSegInvAck

theorem State.Leads.execEngineDrainTimeout {number : Nat} (h : s₀.Leads s) : s₀.LeadsBy (execEngineDrainTimeout number s) :=
  h.drainTimeout.next

theorem State.Leads.execRelayAckTimeout {number : Nat} (h : s₀.Leads s) : s₀.LeadsBy (execRelayAckTimeout number s) :=
  (h.epEv fun _ h => h.relayAckTimeout).next

theorem State.Leads.invalTimeout {number : Nat} (h : s₀.Leads s) : s₀.Leads (s.invalTimeout number) := by
  unfold State.invalTimeout
  split
  · exact h
  · exact (h.onInval.each fun _ _ hu => hu.giveVerdict.invalGone).regionGone

theorem State.Leads.execInvalidationTimeout {number : Nat} (h : s₀.Leads s) : s₀.LeadsBy (execInvalidationTimeout number s) :=
  h.invalTimeout.next

theorem State.Leads.execCompletionTimeout {d : Dev} {port : Nat} {r : Timed} (h : s₀.Leads s) : s₀.LeadsBy (execCompletionTimeout d port r s) := by
  unfold Machine.execCompletionTimeout
  refine .next ?_
  split
  · exact h.switchTimeout
  · exact h.epEv fun _ hu => hu.epTimeout

theorem State.Leads.execTagQuarantineEnd {d : Dev} {port tag : Nat} (h : s₀.Leads s) : s₀.LeadsBy (execTagQuarantineEnd d port tag s) := by
  unfold Machine.execTagQuarantineEnd
  refine .next ?_
  split
  · exact h.onEscrow.flightsGo
  · exact h.epEv fun _ hu => hu.onEp

/-! #### The functions of Machine/LinkLayer.lean -/

theorem State.Leads.after {o : Host.Outcome State Fault Refusal} (h : s₀.Leads s) (ho : s₀.LeadsBy o) : s₀.Leads (s.after o) := by
  cases o with
  | next t => exact ho t rfl
  | fault _ => exact h
  | refused _ => exact h

theorem State.Leads.epMgmtRow {p : Nat} {f : Frame} (h : s₀.Leads s) : s₀.Leads (epMgmtRow p f s) :=
  h.after (h.execHeartbeat.ite (h.execSuspect.ite (h.execVerdict.ite (h.execFenceNotice.ite (h.execAdmitFrame.ite (h.execReadmit.ite
      (h.execConfig.ite (h.execConfirm.ite (h.execBookReport.ite (h.execBookSet.ite (h.execBookAck.ite (h.execPowerReq.ite (h.execPowerAck.ite
          (h.execSlotClose.ite (h.execSlotOpen.ite h.next)))))))))))))))

theorem State.Leads.epRow {p : Nat} {f : Frame} (h : s₀.Leads s) : s₀.Leads (epRow p f s) :=
  h.epMgmtRow.ite (h.after (h.execRead.ite (h.execReadVol.ite (h.execReadShared.ite (h.execReadOwn.ite (h.execClaim.ite (h.execWrite.ite
      (h.execWriteLog.ite (h.execDeposit.ite (h.execAtomic.ite (h.execReadRsp.ite (h.execWriteRsp.ite (h.execAtomicRsp.ite (h.execSnoop.ite
          (h.execSnoopRsp.ite (h.execFwdData.ite (h.execCohAck.ite (h.execBackInv.ite (h.execDepositFill.ite (h.execTranslateRsp.ite
              (h.execSegInv.ite (h.execSegInvAck.ite (h.execCollResult.ite (h.execCollConfirmSettled.ite (h.execCollRecall.ite (h.execCollAbort.ite
                  (h.execInputAck.ite h.next)))))))))))))))))))))))))))

theorem State.Leads.replayFrom {d : Dev} {p restart : Nat} (h : s₀.Leads s) : s₀.Leads (s.replayFrom d p restart) :=
  h.onLink

theorem State.Leads.countPort {d : Dev} {p i : Nat} (h : s₀.Leads s) : s₀.Leads (s.countPort d p i) := by
  unfold State.countPort
  split
  · exact h.count
  · exact h.onEp

theorem State.Leads.sendNak {d : Dev} {p restart n : Nat} (h : s₀.Leads s) : s₀.Leads (s.sendNak d p restart n) :=
  h.onLink.countPort

theorem State.Leads.flitFailed {d : Dev} {p : Nat} (h : s₀.Leads s) : s₀.Leads (s.flitFailed d p) :=
  h.ite h.sendNak

theorem State.Leads.nakRestart {d : Dev} {p restart : Nat} (h : s₀.Leads s) : s₀.Leads (s.nakRestart d p restart) := by
  unfold State.nakRestart
  split
  · exact h.sendNak.ite (h.portDown.ite h.sendNak)
  · exact h.sendNak

theorem State.Leads.nakAgain {d : Dev} {p : Nat} (h : s₀.Leads s) : s₀.Leads (s.nakAgain d p) := by
  unfold State.nakAgain
  split
  · exact h
  · exact h.portDown.ite h.sendNak

theorem State.Leads.onRx {d : Dev} {p : Nat} {g : Rx → Rx} (h : s₀.Leads s) : s₀.Leads (s.onRx d p g) :=
  h.onLink

theorem State.Leads.enterHeader {p mark : Nat} {header : List Byte} (h : s₀.Leads s) : s₀.Leads (s.enterHeader p mark header) :=
  h.ite h.frameEnters.onRx

theorem State.Leads.earlySlot {p mark kind : Nat} {b : List Byte} (h : s₀.Leads s) : s₀.Leads (s.earlySlot p mark kind b) := by
  unfold State.earlySlot
  refine h.onRx.ite (.ite ?_ h)
  split
  · exact h.onRx.enterHeader
  · exact h

theorem State.Leads.headAgain {p seq : Nat} (h : s₀.Leads s) : s₀.Leads (s.headAgain p seq) := by
  unfold State.headAgain
  dsimp only
  split
  · refine h.ite ?_
    split
    · exact h.onRx
    · exact h.enterHeader
  · exact h

theorem State.Leads.voided {d : Dev} {p : Nat} (h : s₀.Leads s) : s₀.Leads (s.voided d p) := by
  unfold State.voided
  refine .countPort ?_
  split
  · exact h
  · dsimp only
    split
    · exact h.onRx.voidFrames.ite h.onRx.returnCredit
    · exact h.onRx.emit

theorem State.Leads.creditBack {d : Dev} {p : Nat} {entries : List (Nat × Nat)} (h : s₀.Leads s) : s₀.Leads (s.creditBack d p entries) := by
  unfold State.creditBack
  dsimp only
  split
  · exact h.onCore
  · exact h.onEp

theorem State.Leads.ctrlSlot {d : Dev} {p : Nat} {again : Bool} {at_ : Nat} {b : List Byte} (h : s₀.Leads s) : s₀.Leads (s.ctrlSlot d p again at_ b)
    :=
  h.voided.ite (h.creditBack.ite ((h.ite h.probeReq).ite ((h.ite h.probeRsp).ite (h.probeInfo.ite h.countPort))))

theorem State.Leads.frameSlot {d : Dev} {p mark : Nat} {l : List (List Byte)} (h : s₀.Leads s) : s₀.Leads (s.frameSlot d p mark l) := by
  unfold State.frameSlot
  split
  · exact h.onRx
  · dsimp only
    split
    · exact h.onRx.tailArrives.ite h.onRx.frameArrival
    · exact h.onRx.epRow

theorem State.Leads.headSlot {d : Dev} {p mark : Nat} {b : List Byte} (h : s₀.Leads s) : s₀.Leads (s.headSlot d p mark b) := by
  unfold State.headSlot
  dsimp only
  split
  · exact h.free.onRx.voidFrames.frameSlot.ite h.frameSlot
  · exact h.frameSlot

theorem State.Leads.slotTaken {d : Dev} {p : Nat} {x : TakenSlot} (h : s₀.Leads s) : s₀.Leads (s.slotTaken d p x) := by
  unfold State.slotTaken
  refine h.headSlot.ite (.ite ?_ (h.ctrlSlot.ite h))
  split
  · exact h.countPort
  · exact h.frameSlot

theorem State.Leads.groupFailed {d : Dev} {p : Nat} (h : s₀.Leads s) : s₀.Leads (s.groupFailed d p) := by
  unfold State.groupFailed
  refine .nakRestart ?_
  split
  · exact h.countPort.onRx.takeBack
  · exact h.countPort.onRx

theorem State.Leads.groupDone {d : Dev} {p : Nat} {k : LinkKey} (h : s₀.Leads s) : s₀.Leads (s.groupDone d p k) :=
  h.groupFailed.ite (h.setLink.each fun _ _ h => h.slotTaken.ite h)

theorem State.Leads.dataFlit {d : Dev} {p seq : Nat} {again : Bool} {b : List Byte} (h : s₀.Leads s) : s₀.Leads (s.dataFlit d p seq again b) := by
  unfold State.dataFlit
  refine .ite ?_ ?_
  · dsimp only
    split
    · exact h.onRx.headAgain
    · exact h.onRx
  · dsimp only
    split
    · exact h
    · refine .ite (.groupDone ?_) ?_
      · split
        · exact h.onRx.each fun _ _ hv => hv.earlySlot
        · exact h.onRx
      · split
        · exact h.onRx.each fun _ _ hv => hv.earlySlot
        · exact h.onRx

theorem State.Leads.keyMsgArrives {d : Dev} {p : Nat} {b : List Byte} (h : s₀.Leads s) : s₀.Leads (s.keyMsgArrives d p b) :=
  (h.startRekey.ite h).ite (h.initArrives.ite (h.respArrives.ite (h.finArrives.ite h)))

theorem State.Leads.keyxFlit {d : Dev} {p seq ack : Nat} {b : List Byte} (h : s₀.Leads s) : s₀.Leads (s.keyxFlit d p seq ack b) :=
  h.setLink.onRx.ite (h.setLink.ite h.setLink.onRx.keyMsgArrives)

theorem State.Leads.sequenced {d : Dev} {p seq : Nat} {g : State → Bool → State} (h : s₀.Leads s) (hg : ∀ u b, s₀.Leads u → s₀.Leads (g u b)) :
    s₀.Leads (s.sequenced d p seq g) := by
  have hr : s₀.Leads (if (s.getLink d p).rx.got.contains seq then s else s.onRx d p fun r => { r with got := r.got ++ [seq] }) := h.ite h.onRx
  exact (hg _ _ hr.onRx).ite (hr.ite hr.flitFailed)

theorem State.Leads.flitReceive {d : Dev} {p : Nat} {bytes : List Byte} (h : s₀.Leads s) : s₀.Leads (s.flitReceive d p bytes) := by
  unfold State.flitReceive
  refine h.ite (.ite (.flitFailed ?_) (.ite (.sequenced ?_ fun _ _ h => h.dataFlit) (.ite (.sequenced ?_ fun _ _ h => h.keyxFlit) (.ite ?_ (.ite
      (.replayFrom (.setLink ?_)) (.setLink ?_))))))
  · split
    · exact h
    · exact h.countPort.onLink
  · split
    · exact h
    · exact h.countPort.onLink
  · split
    · exact h
    · exact h.countPort.onLink
  · split
    · exact h
    · exact h.countPort.onLink
  · split
    · exact h
    · exact h.countPort.onLink
  · split
    · exact h
    · exact h.countPort.onLink

theorem State.Leads.execFlitReceive {d : Dev} {port : Nat} {bytes : List Byte} (h : s₀.Leads s) : s₀.LeadsBy (execFlitReceive d port bytes s) :=
  (h.linkEv fun _ h => h.flitReceive).next

theorem State.Leads.execNak {d : Dev} {port restart : Nat} (h : s₀.Leads s) : s₀.LeadsBy (execNak d port restart s) :=
  (h.linkEv fun _ h => h.replayFrom).next

theorem State.Leads.execNakRepeat {d : Dev} {port : Nat} (h : s₀.Leads s) : s₀.LeadsBy (execNakRepeat d port s) :=
  (h.linkEv fun _ h => h.nakAgain).next

theorem State.Leads.execVoid {d : Dev} {port _reason : Nat} (h : s₀.Leads s) : s₀.LeadsBy (execVoid d port _reason s) :=
  (h.linkEv fun _ h => h.voided).next

theorem State.Leads.execCredit {d : Dev} {port : Nat} {entries : List (Nat × Nat)} (h : s₀.Leads s) : s₀.LeadsBy (execCredit d port entries s) :=
  (h.linkEv fun _ h => h.creditBack).next

/-! #### The functions of Machine/Maintenance.lean -/

theorem State.Leads.scrub {l faulty : Nat} (h : s₀.Leads s) : s₀.Leads (s.scrub l faulty) := by
  unfold State.scrub
  refine h.ite (.ite (.onMem (.count ?_)) ?_)
  · split
    · exact h.lineRead
    · exact h.lineRead.ite h.eccCorrected
    · exact h.onLine.eccSeen
    · exact h.fenceChannel
  · split
    · exact h.lineRead
    · exact h.lineRead.ite h.eccCorrected
    · exact h.onLine.eccSeen
    · exact h.fenceChannel

theorem State.Leads.drained (h : s₀.Leads s) : s₀.Leads s.drained := by
  unfold State.drained
  split
  · exact h
  · next e m _ =>
    have hf : s₀.Leads (s.onMem fun x => { x.flushCache (fun _ => true) with mask := x.mask.put e m, drainOld := none, drainMask := none }) :=
      h.onMem fun x => x.flushCache_sound _
    exact (hf.each fun _ _ h => h.onHome fun m => m.zeroStep_wf _).each fun _ _ h => h.finishWork.ite h

theorem State.Leads.rewrapStep {n : Nat} (h : s₀.Leads s) : s₀.Leads (s.rewrapStep n) := by
  unfold State.rewrapStep
  split
  · exact h
  · dsimp only
    refine h.ite (.ite (.mirrorLines (.onMem ?hs)) (.each (.mirrorLines (.onMem ?hs)) fun _ _ hu => hu.finishWork.ite hu))
    split
    · exact h
    · split
      next e => exact (h.fetchLine.of_eq e).writeLine
      next e => exact .pair (.onMem (h.fetchLine.of_eq e).eccSeen fun m hw => Home.dramWrite_wf _ _ _ _ (Mem.drop_sound _ _ hw))

theorem State.Leads.sramFault {domain index : Nat} (h : s₀.Leads s) : s₀.Leads (s.sramFault domain index) :=
  h.record

theorem State.Leads.cellLost {p q : Nat} (h : s₀.Leads s) : s₀.Leads (s.cellLost p q) := by
  unfold State.cellLost
  dsimp only
  split
  · refine h.sramFault.voidOut.onSw.ite ?_
    split
    · exact h.sramFault.voidOut.onSw.onSw.freeCells
    · exact h.sramFault.voidOut.onSw
  · split
    · exact h.sramFault
    · exact h.sramFault.onSw.freeCells.onSw

theorem State.Leads.entryLost {u l : Nat} (h : s₀.Leads s) : s₀.Leads (s.entryLost u l) := by
  unfold State.entryLost
  refine h.sramFault.ite ?_
  split
  · exact h.sramFault.loseLine
  · dsimp only
    split
    · exact h.sramFault.endBusy.loseLine.homeRespond
    · exact h.sramFault.endBusy.loseLine.homeRespond
    · exact h.sramFault.endBusy.loseLine.homeRespond
    · exact h.sramFault.endBusy.loseLine.uncount

theorem State.Leads.vcFenced {p vc : Nat} (h : s₀.Leads s) : s₀.Leads (s.vcFenced p vc) :=
  h.ite ((h.onSw.recordPort.voidFree.ite h.onSw.recordPort).cutQueued.each fun _ _ h => h.noteDiscard.discardIn)

theorem State.Leads.sramError {item : SramItem} (h : s₀.Leads s) : s₀.Leads (s.sramError item) := by
  cases item with
  | cell p q => exact h.cellLost
  | directory u l => exact h.entryLost.regionCheck
  | portTable p => exact h.sramFault.fencePort.regionGone.invalPoll
  | poolCache l =>
    unfold State.sramError
    exact h.sramFault.onMem fun m hw => Mem.drop_sound _ l hw
  | scratch off =>
    unfold State.sramError
    exact h.sramFault.onHome
  | trunkVc p vc => exact h.vcFenced
  | engineTile e => exact h.sramFault.fenceEngine
  | teller => exact h.sramFault.tellerRestart

theorem State.Leads.execScrub {line faulty : Nat} (h : s₀.Leads s) : s₀.LeadsBy (execScrub line faulty s) :=
  h.scrub.next

theorem State.Leads.execPoolCacheDrainDone (h : s₀.Leads s) : s₀.LeadsBy (execPoolCacheDrainDone s) :=
  h.drained.next

theorem State.Leads.execRewrapStep {record : Nat} (h : s₀.Leads s) : s₀.LeadsBy (execRewrapStep record s) :=
  h.rewrapStep.next

theorem State.Leads.execRetirementCountZero {slot : Nat} (h : s₀.Leads s) : s₀.LeadsBy (execRetirementCountZero slot s) :=
  h.retireDone.next

theorem State.Leads.execRetirementTimeout {slot : Nat} (h : s₀.Leads s) : s₀.LeadsBy (execRetirementTimeout slot s) :=
  h.retireTimeout.next

theorem State.Leads.execSramUncorrected {item : SramItem} (h : s₀.Leads s) : s₀.LeadsBy (execSramUncorrected item s) :=
  h.sramError.next

theorem State.Leads.tellerFault {kind : Nat} (h : s₀.Leads s) : s₀.Leads (s.tellerFault kind) :=
  h.record.tellerRestart.ite h

theorem State.Leads.execTellerLockstep (h : s₀.Leads s) : s₀.LeadsBy (execTellerLockstep s) :=
  h.tellerFault.next

theorem State.Leads.execTellerWatchdog (h : s₀.Leads s) : s₀.LeadsBy (execTellerWatchdog s) :=
  h.tellerFault.next

theorem State.Leads.execTellerRestartEnd (h : s₀.Leads s) : s₀.LeadsBy (execTellerRestartEnd s) :=
  h.tellerBack.next

theorem State.Leads.execTellerRestartTimeout (h : s₀.Leads s) : s₀.LeadsBy (execTellerRestartTimeout s) :=
  h.tellerFails.next

theorem State.Leads.managerBack (h : s₀.Leads s) : s₀.Leads s.managerBack :=
  h.onSw.record.ite h

theorem State.Leads.execManagerMessage (h : s₀.Leads s) : s₀.LeadsBy (execManagerMessage s) :=
  h.managerBack.next

theorem State.Leads.managerGone (h : s₀.Leads s) : s₀.Leads s.managerGone :=
  h.ite h.onSw.record

theorem State.Leads.execManagerLost (h : s₀.Leads s) : s₀.LeadsBy (execManagerLost s) :=
  h.managerGone.next

/-! #### The functions of Machine/Transmit.lean -/

theorem State.Leads.sendBytes {d : Dev} {p : Nat} {b : List Byte} {g : Tx → Tx} (h : s₀.Leads s) : s₀.Leads (s.sendBytes d p b g) :=
  h.onLink.emit

theorem State.Leads.sendSequenced {d : Dev} {p : Nat} {b : List Byte} {g : Tx → Tx} (h : s₀.Leads s) : s₀.Leads (s.sendSequenced d p b g) :=
  h.sendBytes

theorem State.Leads.sendControl {d : Dev} {p seq ftype : Nat} {g : Tx → Tx} (h : s₀.Leads s) : s₀.Leads (s.sendControl d p seq ftype g) := by
  unfold State.sendControl
  dsimp only
  split
  · exact h.sendBytes
  · exact h.sendBytes

theorem State.Leads.sendNull {d : Dev} {p : Nat} (h : s₀.Leads s) : s₀.Leads (s.sendNull d p) :=
  h.sendControl

theorem State.Leads.sendKeyx {d : Dev} {p : Nat} {slots : List Byte} {fin : Bool} (h : s₀.Leads s) : s₀.Leads (s.sendKeyx d p slots fin) :=
  h.sendSequenced

theorem State.Leads.noteProbe {d : Dev} {p : Nat} {c : Ctrl} (h : s₀.Leads s) : s₀.Leads (s.noteProbe d p c) := by
  unfold State.noteProbe
  split
  · exact h.onClock
  · exact h

theorem State.Leads.sendData {d : Dev} {p : Nat} {k : LinkKey} (h : s₀.Leads s) : s₀.Leads (s.sendData d p k) :=
  (h.each fun _ _ h => h.noteProbe).sendSequenced

theorem State.Leads.transmit {d : Dev} {p : Nat} (h : s₀.Leads s) : s₀.Leads (s.transmit d p) := by
  unfold State.transmit
  refine h.ite ?_
  split
  · exact h.sendControl
  · exact h.sendBytes
  · refine h.sendNull.ite ?_
    split
    · exact h.sendKeyx
    · dsimp only
      split
      · exact h.sendNull
      · exact h.sendNull.ite h.onLink.sendData

theorem State.Leads.flitsGo (h : s₀.Leads s) : s₀.Leads s.flitsGo :=
  (h.loadSlots.each fun _ _ h => h.transmit.ite h).ite ((h.loadSlots.each fun _ _ h => h.transmit.ite h).each fun _ _ h => h.transmit.ite h)

theorem State.Leads.execMatcherRound (h : s₀.Leads s) : s₀.LeadsBy (execMatcherRound s) :=
  h.matcherRound.flitsGo.next

/-! #### Every command, and a step -/

/-- What a command answers follows the state it runs at. -/
theorem State.Leads.exec {i : Instr} (h : s₀.Leads s) : s₀.LeadsBy (exec i s) := by
  cases i with
  | devInfo _ _ => exact h.execDevInfo
  | devReset _ _ => exact h.execDevReset
  | cfgModeSet _ _ => exact h.execCfgModeSet
  | cfgBookCommit _ _ => exact h.execCfgBookCommit
  | cfgTimers _ _ => exact h.execCfgTimers
  | cfgCoherence _ _ => exact h.execCfgCoherence
  | partAdmit _ _ => exact h.execPartAdmit
  | partRemove _ _ => exact h.execPartRemove
  | partEnginesSet _ _ => exact h.execPartEnginesSet
  | partPoolSet _ _ => exact h.execPartPoolSet
  | segTableSet _ _ => exact h.execSegTableSet
  | segInvalidate _ _ => exact h.execSegInvalidate
  | portSpeedSet _ _ => exact h.execPortSpeedSet
  | portEqSet _ _ => exact h.execPortEqSet
  | calEqStore _ _ => exact h.execCalEqStore
  | portLaneTest _ _ => exact h.execPortLaneTest
  | portTestPolicySet _ _ => exact h.execPortTestPolicySet
  | portNarrow _ _ => exact h.execPortNarrow
  | linkSealSet _ _ => exact h.execLinkSealSet
  | linkRekey _ _ => exact h.execLinkRekey
  | timeMasterSet _ _ => exact h.execTimeMasterSet
  | timeSet _ _ => exact h.execTimeSet
  | schedStage _ _ => exact h.execSchedStage
  | schedArm _ _ => exact h.execSchedArm
  | schedDisarm _ _ => exact h.execSchedDisarm
  | bookPolicySet _ _ => exact h.execBookPolicySet
  | shaperSet _ _ => exact h.execShaperSet
  | policerSet _ _ => exact h.execPolicerSet
  | shaperRead _ _ => exact h.execShaperRead
  | regionSet _ _ => exact h.execRegionSet
  | regionHandover _ _ => exact h.execRegionHandover
  | regionRead _ _ => exact h.execRegionRead
  | regionLostClear _ _ => exact h.execRegionLostClear
  | nearStoreSet _ _ => exact h.execNearStoreSet
  | scrubSet _ _ => exact h.execScrubSet
  | retireLimitSet _ _ => exact h.execRetireLimitSet
  | partnerSet _ _ => exact h.execPartnerSet
  | partnerPromote _ _ => exact h.execPartnerPromote
  | partnerBreak _ _ => exact h.execPartnerBreak
  | syndCreate _ _ => exact h.execSyndCreate
  | syndDestroy _ _ => exact h.execSyndDestroy
  | syndMemberSet _ _ => exact h.execSyndMemberSet
  | syndQuotaSet _ _ => exact h.execSyndQuotaSet
  | escrowMailboxSet _ _ => exact h.execEscrowMailboxSet
  | escrowQuotaSet _ _ => exact h.execEscrowQuotaSet
  | escrowCancel _ _ => exact h.execEscrowCancel
  | vaultKemRead _ _ => exact h.execVaultKemRead
  | keyLoad _ _ => exact h.execKeyLoad
  | keyRetire _ _ => exact h.execKeyRetire
  | signerEnrol _ _ => exact h.execSignerEnrol
  | strongroomSet _ _ => exact h.execStrongroomSet
  | assayRequest _ _ => exact h.execAssayRequest
  | keyRewrap _ _ => exact h.execKeyRewrap
  | keyRewrapRelease _ _ => exact h.execKeyRewrapRelease
  | ledgerRegionSet _ _ => exact h.execLedgerRegionSet
  | ledgerRead _ _ => exact h.execLedgerRead
  | ledgerSealNow _ _ => exact h.execLedgerSealNow
  | ckptSave _ _ => exact h.execCkptSave
  | ckptRestore _ _ => exact h.execCkptRestore
  | powerVote _ _ => exact h.execPowerVote
  | paceSet _ _ => exact h.execPaceSet
  | brakeSet _ _ => exact h.execBrakeSet
  | powerRead _ _ => exact h.execPowerRead
  | tallyRead _ _ => exact h.execTallyRead
  | faultLogRead _ _ => exact h.execFaultLogRead
  | tallyQueueRead _ _ => exact h.execTallyQueueRead
  | fenceSet _ _ => exact h.execFenceSet
  | fenceClear _ _ => exact h.execFenceClear
  | fdSet _ _ => exact h.execFdSet
  | epReadmit _ _ => exact h.execEpReadmit
  | fwStage _ _ => exact h.execFwStage
  | fwActivate _ _ => exact h.execFwActivate
  | commandCompletion _ _ _ => exact h.execCommandCompletion
  | registerWrite _ _ _ _ _ => exact h.execRegisterWrite
  | swEventClear _ => exact h.execSwEventClear
  | epEventClear _ => exact h.execEpEventClear
  | epAgentBindWrite _ _ => exact h.execEpAgentBindWrite
  | hostWindowRead _ _ _ _ => exact h.execHostWindowRead
  | hostWindowWrite _ _ _ => exact h.execHostWindowWrite
  | mirrorLine _ _ => exact h.execMirrorLine
  | mirrorAck _ _ => exact h.execMirrorAck
  | functionLevelReset _ => exact h.execFunctionLevelReset
  | perstNAssert => exact h.execPerstNAssert
  | perstNRelease => exact h.execPerstNRelease
  | pldmRequest _ => exact h.execPldmRequest
  | frameArrival _ _ => exact h.execFrameArrival
  | matcherRound => exact h.execMatcherRound
  | queueSample => exact h.execQueueSample
  | bucketRefill => exact h.execBucketRefill
  | gateEntryEnd _ _ => exact h.execGateEntryEnd
  | cycleBoundary _ _ => exact h.execCycleBoundary
  | lineOperation _ => exact h.execLineOperation
  | homeBusyTimeout _ _ => exact h.execHomeBusyTimeout
  | read _ _ _ => exact h.execRead
  | readVol _ _ _ => exact h.execReadVol
  | readShared _ _ _ => exact h.execReadShared
  | readOwn _ _ _ => exact h.execReadOwn
  | claim _ _ _ => exact h.execClaim
  | write _ _ _ => exact h.execWrite
  | writeLog _ _ _ => exact h.execWriteLog
  | deposit _ _ _ => exact h.execDeposit
  | atomic _ _ _ => exact h.execAtomic
  | fabricMailboxWrite _ _ => exact h.execFabricMailboxWrite
  | fabricMailboxRead pos _ => exact h.execFabricMailboxRead (_pos := pos)
  | readRsp _ _ _ => exact h.execReadRsp
  | writeRsp _ _ _ => exact h.execWriteRsp
  | atomicRsp _ _ _ => exact h.execAtomicRsp
  | snoop _ _ => exact h.execSnoop
  | snoopRsp _ _ _ => exact h.execSnoopRsp
  | fwdData _ _ _ => exact h.execFwdData
  | writeback port _ => exact h.execWriteback (_port := port)
  | cohAck _ _ _ => exact h.execCohAck
  | backInv _ _ => exact h.execBackInv
  | depositFill _ _ => exact h.execDepositFill
  | translateReq _ _ => exact h.execTranslateReq
  | translateRsp _ _ => exact h.execTranslateRsp
  | tableReadComplete _ _ => exact h.execTableReadComplete
  | tableReadTimeout _ => exact h.execTableReadTimeout
  | segInv _ _ _ => exact h.execSegInv
  | segInvAck _ _ _ => exact h.execSegInvAck
  | engineDrainTimeout _ => exact h.execEngineDrainTimeout
  | relayAckTimeout _ => exact h.execRelayAckTimeout
  | invalidationTimeout _ => exact h.execInvalidationTimeout
  | completionTimeout _ _ _ => exact h.execCompletionTimeout
  | tagQuarantineEnd _ _ _ => exact h.execTagQuarantineEnd
  | holdEnd _ => exact h.execHoldEnd
  | coherenceAnswerTimeout _ _ _ => exact h.execCoherenceAnswerTimeout
  | handoverTimeout _ _ => exact h.execHandoverTimeout
  | collData port _ => exact h.execCollData (_port := port)
  | collResult _ _ => exact h.execCollResult
  | collConfirm port _ => exact h.execCollConfirm (_port := port)
  | collConfirmSettled _ _ _ => exact h.execCollConfirmSettled
  | collRecall _ _ => exact h.execCollRecall
  | collRecallSwitch port _ => exact h.execCollRecallSwitch (_port := port)
  | collAbort _ _ _ => exact h.execCollAbort
  | settlementLimit _ _ _ => exact h.execSettlementLimit
  | req _ => exact h.execReq
  | fence _ _ _ _ => exact h.execFence
  | call _ _ _ => exact h.execCall
  | memCpl _ _ => exact h.execMemCpl
  | ucieModuleFail _ => exact h.execUcieModuleFail
  | taskComplete _ _ => exact h.execTaskComplete
  | retryWaitEnd _ _ => exact h.execRetryWaitEnd
  | deadline _ => exact h.execDeadline
  | waitTimeReached _ _ => exact h.execWaitTimeReached
  | admissionWaitExpiry _ => exact h.execAdmissionWaitExpiry
  | heartbeat _ _ => exact h.execHeartbeat
  | heartbeatAck port _ => exact h.execHeartbeatAck (_port := port)
  | heartbeatInstant => exact h.execHeartbeatInstant
  | suspect _ _ _ => exact h.execSuspect
  | suspectExpiry _ _ => exact h.execSuspectExpiry
  | verdict _ _ _ => exact h.execVerdict
  | fenceNotice _ _ => exact h.execFenceNotice
  | admitFrame _ _ => exact h.execAdmitFrame
  | readmit _ _ _ => exact h.execReadmit
  | config _ _ => exact h.execConfig
  | confirm _ _ _ => exact h.execConfirm
  | resendTimer _ => exact h.execResendTimer
  | bookReport _ _ _ => exact h.execBookReport
  | bookSet _ _ _ => exact h.execBookSet
  | bookAck _ _ _ => exact h.execBookAck
  | bookSetResend _ _ => exact h.execBookSetResend
  | returnHoldEnd => exact h.execReturnHoldEnd
  | slowSet => exact h.execSlowSet
  | slowClear => exact h.execSlowClear
  | powerReq _ _ _ => exact h.execPowerReq
  | powerAck _ _ _ => exact h.execPowerAck
  | slotClose _ _ => exact h.execSlotClose
  | slotOpen _ _ => exact h.execSlotOpen
  | inputCopy _ _ => exact h.execInputCopy
  | inputAck _ _ => exact h.execInputAck
  | inputAckTimeout _ _ => exact h.execInputAckTimeout
  | inputCopyWaitEnd _ _ => exact h.execInputCopyWaitEnd
  | stagingRoom _ _ => exact h.execStagingRoom
  | ledgerSealTimer _ => exact h.execLedgerSealTimer
  | flitReceive _ _ _ => exact h.execFlitReceive
  | nak _ _ _ => exact h.execNak
  | nakRepeat _ _ => exact h.execNakRepeat
  | void _ _ reason => exact h.execVoid (_reason := reason)
  | credit _ _ _ => exact h.execCredit
  | probeReq _ _ _ _ => exact h.execProbeReq
  | probeRsp _ _ _ _ _ _ => exact h.execProbeRsp
  | probeInfo _ _ _ _ _ _ _ change _ => exact h.execProbeInfo (_change := change)
  | probeTimer _ _ => exact h.execProbeTimer
  | init _ _ _ => exact h.execInit
  | resp _ _ _ => exact h.execResp
  | fin _ _ _ => exact h.execFin
  | rekeyReq _ _ => exact h.execRekeyReq
  | keyExchangeTimeout _ _ => exact h.execKeyExchangeTimeout
  | rekeyCount _ _ => exact h.execRekeyCount
  | keyCounterExhausted _ _ => exact h.execKeyCounterExhausted
  | rekeyRetry _ _ => exact h.execRekeyRetry
  | partnerClockLock _ _ => exact h.execPartnerClockLock
  | identityRecord _ _ _ => exact h.execIdentityRecord
  | equaliseDone _ _ _ => exact h.execEqualiseDone
  | laneMapDone _ _ _ => exact h.execLaneMapDone
  | trainingTimeout _ _ => exact h.execTrainingTimeout
  | laneFailed _ _ _ _ => exact h.execLaneFailed
  | laneChangeDone _ _ => exact h.execLaneChangeDone
  | periodicTestDue _ => exact h.execPeriodicTestDue
  | laneTestEnd _ _ _ => exact h.execLaneTestEnd
  | chime _ _ => exact h.execChime
  | linkLoss _ => exact h.execLinkLoss
  | endpointLinkLoss _ => exact h.execEndpointLinkLoss
  | endpointPortRedetect _ => exact h.execEndpointPortRedetect
  | cablePresenceChange _ _ => exact h.execCablePresenceChange
  | cableOvercurrent _ => exact h.execCableOvercurrent
  | frequencySourceFail _ => exact h.execFrequencySourceFail
  | timeMasterLost => exact h.execTimeMasterLost
  | ppsIn => exact h.execPpsIn
  | wholeSecond => exact h.execWholeSecond
  | scrub _ _ => exact h.execScrub
  | poolCacheDrainDone => exact h.execPoolCacheDrainDone
  | resilverCopy _ => exact h.execResilverCopy
  | mirrorAckTimeout _ _ => exact h.execMirrorAckTimeout
  | rewrapStep _ => exact h.execRewrapStep
  | retirementCountZero _ => exact h.execRetirementCountZero
  | retirementTimeout _ => exact h.execRetirementTimeout
  | sramUncorrected _ => exact h.execSramUncorrected
  | idleHoldEnd _ _ => exact h.execIdleHoldEnd
  | powerEntryDone _ _ => exact h.execPowerEntryDone
  | wakeStageReady _ _ => exact h.execWakeStageReady
  | wakeStageTimeout _ _ => exact h.execWakeStageTimeout
  | wakeN => exact h.execWakeN
  | balanceSample _ _ => exact h.execBalanceSample
  | regulatorTick _ _ => exact h.execRegulatorTick
  | pwrbrkNAssert => exact h.execPwrbrkNAssert
  | pwrbrkNDeassert => exact h.execPwrbrkNDeassert
  | throttle _ => exact h.execThrottle
  | throttleEnd => exact h.execThrottleEnd
  | thermalTrip => exact h.execThermalTrip
  | tripHoldEnd => exact h.execTripHoldEnd
  | inputLow => exact h.execInputLow
  | inputOvervoltage => exact h.execInputOvervoltage
  | endpointThermal _ => exact h.execEndpointThermal
  | powerUp => exact h.execPowerUp
  | rstNFall _ => exact h.execRstNFall
  | rstNRise => exact h.execRstNRise
  | startStepReady _ _ => exact h.execStartStepReady
  | epRstN _ => exact h.execEpRstN
  | tellerLockstep => exact h.execTellerLockstep
  | tellerWatchdog => exact h.execTellerWatchdog
  | tellerRestartEnd => exact h.execTellerRestartEnd
  | tellerRestartTimeout => exact h.execTellerRestartTimeout
  | managerMessage => exact h.execManagerMessage
  | managerLost => exact h.execManagerLost
  | trainingRetry _ _ => exact h.execTrainingRetry
  | lockLossBeforeActive _ _ => exact h.execLockLossBeforeActive
  | preStartWorkDone => exact h.execPreStartWorkDone
  | unlistedOpcode _ _ => exact h.execUnlistedOpcode
  | commandTimeout _ _ => exact h.execCommandTimeout

end

theorem exec_leads (i : Instr) (s : State) : s.LeadsBy (exec i s) := (State.Leads.refl s).exec

/-- Settles O54: a step is a flit time of fabric time, or the front command, and whatever runs keeps the canonical form of both memories. -/
theorem stepKeepsMemoryForm : Obligations.StepKeepsMemoryForm := by
  unfold Obligations.StepKeepsMemoryForm
  intro s t hs ht
  unfold step at ht
  split at ht
  · exact (State.Leads.refl s).tick.next t ht |>.memory hs
  · next i rest _ => exact (exec_leads i _ t ht).memory hs

/-- Settles O56: every command leads on from the state it runs at. -/
theorem commandsKeepTheQueue : Obligations.CommandsKeepTheQueue := by
  unfold Obligations.CommandsKeepTheQueue
  intro i s t ht
  exact ⟨(exec_leads i s t ht).queue, (exec_leads i s t ht).sent⟩

/-- Settles O1: by the definition of a step. -/
theorem stepRunsFront : Obligations.StepRunsFront := by
  unfold Obligations.StepRunsFront
  intro c rest s
  rfl

end Sys2Proof.Machine

namespace Sys2Proof.Machine

/-! ### What a command that is not performed leaves (16 R415, R419, R420)

The statements O57 and O58 bound no mailbox number and are refuted below. Here is what O57 says of each mailbox whose vector is never held (R413, R457);
the status under VERIFY is the form's own: FENCED for a CKPT_SAVE over a lost line. -/

section
variable {fn mb : Nat} {s u : State}

/-- The completion vector of a mailbox of PF0, or of one of a VF that is not number 4, is never held (18 R457). -/
theorem State.vectorHeld_mailbox (s : State) (h : fn = 0 ∨ mb ≠ 4) : s.vectorHeld fn mb = false := by
  obtain rfl | h := h
  · simp [State.vectorHeld]
  · simp [State.vectorHeld, h]

theorem State.msix_out {vec : Nat} (hm : s.sw.host.unmasked.contains (fn * 2048 + vec) = true) (hv : s.vectorHeld fn vec = false) :
    (s.msix fn vec).out = s.out ++ [.msix fn vec] := by
  unfold State.msix
  dsimp only
  rw [hm, hv]
  rfl

theorem State.clearOwn_out (hi : (s.sw.mailbox fn mb).irq = true) (hm : s.sw.host.unmasked.contains (fn * 2048 + mb) = true) (hb : fn = 0 ∨ mb ≠ 4) :
    (s.clearOwn fn mb).out = s.out ++ [.msix fn mb] := by
  unfold State.clearOwn
  dsimp only
  rw [if_pos hi]
  exact State.msix_out hm (State.vectorHeld_mailbox _ hb)

theorem State.respond_out {seq status detail q : Nat} {rsp : List Byte} (hi : (s.sw.mailbox fn mb).irq = true)
    (hm : s.sw.host.unmasked.contains (fn * 2048 + mb) = true) (hb : fn = 0 ∨ mb ≠ 4) :
    (s.respond fn mb seq status detail q rsp).out = s.out ++ [.msix fn mb] := by
  unfold State.respond
  refine State.clearOwn_out ?_ hm hb
  simpa [Switch.mailbox] using hi

/-- A response after nothing but reports: the command is answered, nothing else differs, and its interrupt is sent. -/
theorem ReportFrame.respond {status detail q : Nat} (h : ReportFrame (s.dequeued fn mb) u) (hb : fn = 0 ∨ mb ≠ 4) :
    let t := u.respond fn mb (s.sw.mailbox fn mb).seq status detail q []
    Answered fn mb status detail [] s t ∧ AnswerFrame s t ∧ t.sw.teller.active = s.sw.teller.active
      ∧ ((s.sw.mailbox fn mb).irq = true → s.sw.host.unmasked.contains (fn * 2048 + mb) = true → Out.msix fn mb ∈ t.out) := by
  have hmb (f m : Nat) : u.sw.mailbox f m = s.sw.mailbox f m := h.mailbox f m
  have hun : u.sw.host.unmasked = s.sw.host.unmasked := by rw [h.1]; rfl
  have hd : AnswerFrame s (s.dequeued fn mb) := ⟨rfl, List.prefix_refl _⟩
  refine ⟨⟨?_, fun f m hne => ?_, ?_⟩, (hd.trans h.answer).trans (State.respond_frame _ _ _ _ _ _ _ _), ?_, fun hi hm => ?_⟩
  · rw [State.respond_mailbox, hmb]
  · rw [State.respond_mailbox_ne _ _ _ _ _ _ _ _ _ _ hne, hmb]
  · rw [(State.respond_order _ _ _ _ _ _ _ _).1, h.fields.1]
    rfl
  · rw [(State.respond_order _ _ _ _ _ _ _ _).2, h.fields.1]
    rfl
  · rw [State.respond_out ((hmb fn mb).symm ▸ hi) (hun.symm ▸ hm) hb]
    exact List.mem_append_right _ (List.mem_singleton_self _)

end

/-- A command that a check of R420 refuses: its Ledger entry and its response. A BAD_LENGTH entry digests the payload that was sent (R424). -/
theorem State.takeCommand_refused {k : Form} {fn mb status detail : Nat} {s : State} (ht : s.sw.takes fn mb = true)
    (ho : bits (s.sw.mailbox fn mb).header.toNat 0 16 = k.opcode) (hs : (s.sw.mailbox fn mb).seq ≠ (s.sw.mailbox fn mb).lastSeq)
    (hf : s.sw.entryFull fn = false)
    (hr : k.refusal (s.sw.cmdOf fn mb k.len) (s.dequeued fn mb) (s.sw.mailbox fn mb).header.toNat = some (status, detail)) :
    ∃ c, s.takeCommand k fn mb = ((s.dequeued fn mb).commandEntry c status [] false).1.respond fn mb (s.sw.mailbox fn mb).seq status detail
      ((s.dequeued fn mb).commandEntry c status [] false).2 [] := by
  have hd : (s.onTeller fun t => { t with order := t.order.erase (fn, mb) }) = s.dequeued fn mb := rfl
  have hc (n : Nat) : (s.dequeued fn mb).sw.cmdOf fn mb n = s.sw.cmdOf fn mb n := rfl
  have hf' : (s.dequeued fn mb).sw.entryFull fn = s.sw.entryFull fn := rfl
  refine ⟨if status = mbBadLength then s.sw.cmdOf fn mb (min 1920 (bits (s.sw.mailbox fn mb).header.toNat 32 16)) else s.sw.cmdOf fn mb k.len, ?_⟩
  unfold State.takeCommand
  dsimp only
  rw [ht, ho, hd, hf', hf]
  simp only [hc, hr]
  simp [hs]

/-- A command under VERIFY that no check refuses. -/
theorem State.takeCommand_verified {k : Form} {fn mb : Nat} {s : State} (ht : s.sw.takes fn mb = true)
    (ho : bits (s.sw.mailbox fn mb).header.toNat 0 16 = k.opcode) (hs : (s.sw.mailbox fn mb).seq ≠ (s.sw.mailbox fn mb).lastSeq)
    (hf : s.sw.entryFull fn = false)
    (hr : k.refusal (s.sw.cmdOf fn mb k.len) (s.dequeued fn mb) (s.sw.mailbox fn mb).header.toNat = none)
    (hv : (s.sw.mailbox fn mb).header.getLsbD 16 = true) (hl : k.late = false) :
    let c := s.sw.cmdOf fn mb k.len
    let status := k.verify c (s.dequeued fn mb)
    s.takeCommand k fn mb = ((s.dequeued fn mb).commandEntry c status [] false).1.respond fn mb (s.sw.mailbox fn mb).seq status 0
      ((s.dequeued fn mb).commandEntry c status [] false).2 [] := by
  have hd : (s.onTeller fun t => { t with order := t.order.erase (fn, mb) }) = s.dequeued fn mb := rfl
  have hc (n : Nat) : (s.dequeued fn mb).sw.cmdOf fn mb n = s.sw.cmdOf fn mb n := rfl
  have hf' : (s.dequeued fn mb).sw.entryFull fn = s.sw.entryFull fn := rfl
  have hv' : (s.sw.cmdOf fn mb k.len).verify = true := hv
  unfold State.takeCommand
  dsimp only
  rw [ht, ho, hd, hf', hf]
  simp only [hc, hr]
  simp [hs, hv', hl]

/-- An opcode that no row of the catalogue lists. -/
theorem State.takeUnlisted_refused {fn mb : Nat} {s : State} (ht : s.sw.takes fn mb = true)
    (ho : commandIndex.contains (bits (s.sw.mailbox fn mb).header.toNat 0 16) = false)
    (hs : (s.sw.mailbox fn mb).seq ≠ (s.sw.mailbox fn mb).lastSeq) (hf : s.sw.entryFull fn = false) :
    ∃ c, s.takeUnlisted fn mb = ((s.dequeued fn mb).commandEntry c mbBadOpcode [] false).1.respond fn mb (s.sw.mailbox fn mb).seq mbBadOpcode 0
      ((s.dequeued fn mb).commandEntry c mbBadOpcode [] false).2 [] := by
  have hd : (s.onTeller fun t => { t with order := t.order.erase (fn, mb) }) = s.dequeued fn mb := rfl
  have hf' : (s.dequeued fn mb).sw.entryFull fn = s.sw.entryFull fn := rfl
  refine ⟨s.sw.cmdOf fn mb (min 1920 (bits (s.sw.mailbox fn mb).header.toNat 32 16)), ?_⟩
  unfold State.takeUnlisted
  dsimp only
  rw [ht, ho, hd, hf', hf]
  simp [hs]
  rfl

/-- O57 of a mailbox whose vector is never held: a refused or verified command is answered, and nothing else differs. -/
theorem refusedCommand_changesNothing {fn mb : Nat} {s : State} (hb : fn = 0 ∨ mb ≠ 4) (ht : s.sw.takes fn mb = true)
    (hs : (s.sw.mailbox fn mb).seq ≠ (s.sw.mailbox fn mb).lastSeq) (hf : s.sw.entryFull fn = false) :
    let answered := fun (status detail : Nat) (t : State) => Answered fn mb status detail [] s t ∧ AnswerFrame s t ∧ t.sw.teller.active = s.sw.teller.active
      ∧ ((s.sw.mailbox fn mb).irq = true → s.sw.host.unmasked.contains (fn * 2048 + mb) = true → Out.msix fn mb ∈ t.out)
    (∀ p ∈ mailboxRows, bits (s.sw.mailbox fn mb).header.toNat 0 16 = p.1.opcode →
      let c := s.sw.cmdOf fn mb p.1.len
      (∀ status detail, p.1.refusal c (s.dequeued fn mb) (s.sw.mailbox fn mb).header.toNat = some (status, detail) →
        After (p.2 fn mb) s (answered status detail))
      ∧ (p.1.refusal c (s.dequeued fn mb) (s.sw.mailbox fn mb).header.toNat = none →
          (s.sw.mailbox fn mb).header.getLsbD 16 = true → p.1.late = false → After (p.2 fn mb) s (answered (p.1.verify c (s.dequeued fn mb)) 0)))
    ∧ (commandIndex.contains (bits (s.sw.mailbox fn mb).header.toNat 0 16) = false → After (.unlistedOpcode fn mb) s (answered mbBadOpcode 0)) := by
  dsimp only
  refine ⟨fun p hp ho => ⟨fun status detail hr => ?_, fun hr hv hl => ?_⟩, fun ho => ?_⟩
  · obtain ⟨c, e⟩ := State.takeCommand_refused ht ho hs hf hr
    exact ⟨_, mailboxRows_exec fn mb s p hp, e ▸ (State.commandEntry_report _ c status [] false).respond hb⟩
  · exact ⟨_, mailboxRows_exec fn mb s p hp, State.takeCommand_verified ht ho hs hf hr hv hl ▸ (State.commandEntry_report _ _ _ [] false).respond hb⟩
  · obtain ⟨c, e⟩ := State.takeUnlisted_refused ht ho hs hf
    exact ⟨_, rfl, e ▸ (State.commandEntry_report _ c mbBadOpcode [] false).respond hb⟩

/-! ### A VF's vector 4 held under Strongroom stands in the way of a completion interrupt (O57, O58) -/

/-- Strongroom is set, VF 1 was sent vector 4 this very moment and has it unmasked, and a command of opcode 0 that asks for its interrupt stands in
mailbox 4 of that VF. -/
def State.heldVector (seq : Nat) : State :=
  { State.reset with sw := { State.reset.sw with
    sys := { State.reset.sw.sys with phase := .running, strongroom := true }
    teller := { State.reset.sw.teller with state := 0, order := [(1, 4)], mbox := [(mbKey 1 4, { own := true, irq := true, seq := seq })] }
    host := { State.reset.sw.host with unmasked := [1 * 2048 + 4], lastVec4 := [(1, 0)] } } }

theorem heldVector_takes : (State.heldVector n).sw.takes 1 4 = true := rfl

theorem heldVector_unlisted_out : ((State.heldVector 1).takeUnlisted 1 4).out = [] ∧ ((State.heldVector 0).takeUnlisted 1 4).out = [] := ⟨rfl, rfl⟩

/-- Refutes O57: the statement asks for the interrupt of any mailbox whose vector is unmasked, but a vector 4 of a VF sent less than 1 ms ago is held under
Strongroom (18 R457), so the refusal of an unlisted opcode in a mailbox 4 of VF 1 sends nothing. -/
theorem not_refusedCommandChangesNothing : ¬ Obligations.RefusedCommandChangesNothing := by
  unfold Obligations.RefusedCommandChangesNothing
  intro h
  obtain ⟨t, ht, -, -, -, hsent⟩ := (h 1 4 (State.heldVector 1) rfl (by decide) rfl).2 (by decide)
  have hout := hsent rfl rfl
  rw [← Host.Outcome.next.inj ht, heldVector_unlisted_out.1] at hout
  exact List.not_mem_nil hout

/-- Refutes O58: for the same reason the command of a mailbox 4 of VF 1 under the last SEQ clears OWN and sends no interrupt. -/
theorem not_repeatedSeqNotPerformed : ¬ Obligations.RepeatedSeqNotPerformed := by
  unfold Obligations.RepeatedSeqNotPerformed
  intro h
  obtain ⟨t, ht, -, -, -, -, hsent⟩ := h.1 1 4 (State.heldVector 0) _ rfl rfl (.inr ⟨rfl, by decide⟩)
  have hout := hsent rfl rfl
  rw [← Host.Outcome.next.inj ht, heldVector_unlisted_out.2] at hout
  exact List.cons_ne_nil _ _ hout.symm

end Sys2Proof.Machine

namespace Sys2Proof.Machine

/-! ### Commands that write a book, and values passed to the end-points (19 R471; 05 R126) -/

/-- A commit begins the write of the next book with the values changed. -/
theorem State.commitBook_next {s : State} {target n : Nat} (h : s.sw.sys.flash.nextBook = some (target, n)) (g : Persist → Persist) :
    s.commitBook g = s.onSys fun y => { y with cfg := g y.cfg, flash := y.flash.begin_ (.book target { seq := n, vals := g y.persist }) } := by
  unfold State.commitBook
  rw [h]
  rfl

/-- A command whose effect is the commit of a book works on until the book is written. -/
theorem Accepted.commitsBook {k : Form} {fn mb target n : Nat} {s : State} {work : Work} {g : Persist → Persist} (h : Accepted k fn mb s)
    (hbook : s.sw.sys.flash.nextBook = some (target, n))
    (hc : k.commit (s.sw.cmdOf fn mb k.len) (s.dequeued fn mb) = (.later work [.flash] [], (s.dequeued fn mb).commitBook g))
    (hs : k.start = fun _ s => s) :
    Working fn mb work [.flash] [] s (s.takeCommand k fn mb)
      ∧ AnswerFrame (s.onSys fun y => { y with cfg := g y.cfg, flash := y.flash.begin_ (.book target { seq := n, vals := g y.persist }) })
        (s.takeCommand k fn mb) := by
  rw [State.commitBook_next (s := s.dequeued fn mb) hbook] at hc
  obtain ⟨hworking, hframe⟩ := h.working hc hs rfl rfl rfl
  exact ⟨hworking, AnswerFrame.trans ⟨rfl, List.prefix_refl _⟩ hframe⟩

/-- A value passed to the end-points: nothing beside the plane-0 switch, one relay to each edge port that carries frames there. -/
theorem State.passValue_told (s : State) (item value : Nat) : ToldFrame s (s.passValue item value) ∧ (s.passValue item value).sw.teller = s.sw.teller
    ∧ (s.passValue item value).sw.mgmt.nextRelay = s.sw.mgmt.nextRelay + if s.sw.sys.plane = 0 then s.sw.edgesUp.length else 0 := by
  unfold State.passValue
  by_cases h : s.sw.sys.plane = 0
  · rw [if_neg (not_not_intro h), if_pos h]
    exact State.tellEps_told s _
  · rw [if_pos h, if_neg h]
    exact ⟨.refl s, rfl, rfl⟩

/-- A command that changes the switch and passes a value to the end-points. -/
theorem Accepted.passes {k : Form} {fn mb item value : Nat} {s v w : State} (h : Accepted k fn mb s)
    (hc : k.commit (s.sw.cmdOf fn mb k.len) (s.dequeued fn mb) = (.now [], w.passValue item value)) (hteller : w.sw.teller = (s.dequeued fn mb).sw.teller)
    (hv : AnswerFrame v w) (hedges : w.sw.edgesUp = s.sw.edgesUp) (hplane : w.sw.sys.plane = s.sw.sys.plane)
    (hrelay : w.sw.mgmt.nextRelay = s.sw.mgmt.nextRelay) :
    Answered fn mb mbOk 0 [] s (s.takeCommand k fn mb) ∧ ToldFrame v (s.takeCommand k fn mb)
      ∧ (s.takeCommand k fn mb).sw.mgmt.nextRelay = s.sw.mgmt.nextRelay + if s.sw.sys.plane = 0 then s.sw.edgesUp.length else 0 := by
  obtain ⟨htold, hkept, hnext⟩ := State.passValue_told w item value
  obtain ⟨hanswered, hframe⟩ := h.answers hc (hkept.trans hteller) (.refl _)
  refine ⟨hanswered, hv.told.trans (htold.trans hframe.told), ?_⟩
  rw [hframe.mgmt, hnext, hrelay, hedges, hplane]

theorem State.dequeued_onSys (s : State) (fn mb : Nat) (g : Sys → Sys) : AnswerFrame (s.onSys g) ((s.dequeued fn mb).onSys g) := ⟨rfl, List.prefix_refl _⟩

/-- What CFG_TIMERS sets: each timer that its command names; 0 keeps one. -/
def Cmd.timers (c : Cmd) (v : Persist) : Persist :=
  let keep := fun o old : Nat => if c.num o 4 = 0 then old else c.num o 4
  { v with ageReq := keep 0x80 v.ageReq, ageMgmt := keep 0x84 v.ageMgmt / 2 * 2, homeBusy := keep 0x88 v.homeBusy, engineCpl := keep 0x8C v.engineCpl }

theorem cfgTimers_done {fn mb : Nat} {s : State} (h : Accepted cfgTimersForm fn mb s) :
    Answered fn mb mbOk 0 [] s (s.takeCommand cfgTimersForm fn mb)
      ∧ AnswerFrame (s.onSys fun y => { y with cfg := (s.sw.cmdOf fn mb 16).timers y.cfg }) (s.takeCommand cfgTimersForm fn mb) := by
  have hc : cfgTimersForm.commit (s.sw.cmdOf fn mb cfgTimersForm.len) (s.dequeued fn mb)
      = (.now [], (s.dequeued fn mb).onSys fun y => { y with cfg := (s.sw.cmdOf fn mb 16).timers y.cfg }) := rfl
  exact h.answers hc rfl (State.dequeued_onSys _ _ _ _)

/-- Settles O3: DEV_INFO answers, CFG_TIMERS and CFG_COHERENCE answer and set, and the two that write a book work on. -/
theorem deviceCommandsComplete : Obligations.DeviceCommandsComplete := by
  unfold Obligations.DeviceCommandsComplete
  refine fun fn mb s => ⟨fun h => ⟨_, rfl, ?info⟩, fun h target n hbook => ⟨_, rfl, ?mode⟩, fun h target n hbook => ⟨_, rfl, ?book⟩, fun h => ⟨_, rfl, ?timers⟩,
    fun h => ⟨_, rfl, ?coherence⟩⟩
  case info => exact (h.answers rfl rfl ⟨rfl, List.prefix_refl _⟩).symm
  case mode => exact h.commitsBook hbook rfl rfl
  case book => exact h.commitsBook hbook (g := id) rfl rfl
  case timers => exact cfgTimers_done h
  case coherence => exact h.passes rfl rfl ⟨rfl, List.prefix_refl _⟩ rfl rfl rfl

end Sys2Proof.Machine

namespace Sys2Proof.Machine

/-! ### Memory requests at an end-point home (24 R560) -/

/-- The state after a memory request that an end-point home takes: its credits are on their way back, and it is last of that home's requests. -/
def State.homeJoined (s : State) (p : Nat) (f : Frame) : State :=
  { s with out := s.out ++ [.ctrl .ep p (.credit [(f.cls, f.cells)])]
           ep := { s.ep with homeReqs := s.ep.homeReqs ++ [{ port := p, f := f, utag := 65536 }] } }

theorem State.atHome_joins {s : State} {p n : Nat} {f : Frame} (hlive : EpTakes p f s) (hv : s.ep.verdict = false) (hn : f.typ = n) :
    s.atHome .ep p { f with typ := n } = (s.homeJoined p f).pump := by
  subst hn
  have hjoin : (s.credited p f).epHomeRequest p f = s.homeJoined p f := if_neg (by simp [State.credited, hv])
  rw [← hjoin]
  exact State.epIn_takes hlive _

/-- Settles O27: each row of a memory request hands it, under its own type, to the home that its frame has reached. -/
theorem endPointHomeRequestsComplete : Obligations.EndPointHomeRequestsComplete := by
  unfold Obligations.EndPointHomeRequestsComplete
  rintro s p f i ⟨hread, hvol, hshared, hown, hclaim, hwrite, hlog, hdeposit, hatomic⟩ hlive hoff haccepts hv htyp
  have hjoins {n : Nat} (hn : f.typ = n) :=
    congrArg (Host.Outcome.next (φ := Fault) (ρ := Refusal)) (State.atHome_joins ⟨hlive, hoff, haccepts⟩ hv hn)
  simp only [List.mem_cons, List.not_mem_nil, or_false] at htyp
  obtain h | h | h | h | h | h | h | h | h := htyp
  · rw [h, hread]; exact hjoins h
  · rw [h, hvol]; exact hjoins h
  · rw [h, hshared]; exact hjoins h
  · rw [h, hown]; exact hjoins h
  · rw [h, hclaim]; exact hjoins h
  · rw [h, hwrite]; exact hjoins h
  · rw [h, hlog]; exact hjoins h
  · rw [h, hdeposit]; exact hjoins h
  · rw [h, hatomic]; exact hjoins h

end Sys2Proof.Machine

namespace Sys2Proof.Machine

/-! ### The accelerator's rows (24 R558 to R570; 22 R529) -/

/-- A UCIe module is left out; with none left every fabric port of the AKG-8 is held in DETECT. -/
def State.portsDetect (s : State) : State :=
  s.each (List.range 8) fun s p => s.onLink .ep p fun l => { l.fresh with state := .detect, fenceWhy := 0 }

/-- Each port is in DETECT and carries nothing; beside the links nothing differs. -/
theorem State.portsDetect_links (s : State) : (∀ p < 8, (s.portsDetect.ep.getLink p).state = .detect ∧ (s.portsDetect.ep.getLink p).carries = false)
    ∧ s.portsDetect.sw = s.sw ∧ s.portsDetect.out = s.out ∧ s.portsDetect.ep = { s.ep with link := s.portsDetect.ep.link } := by
  refine ⟨fun p hp => ?_, State.each_keeps (P := fun u => u.sw = s.sw ∧ u.out = s.out ∧ u.ep = { s.ep with link := u.ep.link }) ⟨rfl, rfl, rfl⟩ ?_⟩
  · refine State.each_reaches (I := fun _ => True) (P := fun u => (u.ep.getLink p).state = .detect ∧ (u.ep.getLink p).carries = false)
      (List.mem_range.mpr hp) (fun _ _ _ => trivial) (fun u _ => ?_) (fun u q hu => ?_) trivial
    · rw [show (u.onLink .ep p _).ep.getLink p = _ from State.getLink_onLink u .ep p _]
      exact ⟨rfl, rfl⟩
    · by_cases hq : p = q
      · subst hq
        rw [show (u.onLink .ep p _).ep.getLink p = _ from State.getLink_onLink u .ep p _]
        exact ⟨rfl, rfl⟩
      · rw [show (u.onLink .ep q _).ep.getLink p = u.ep.getLink p from Tab.get_put_ne _ _ _ _ _ hq]
        exact hu
  · rintro u ⟨hsw, hout, hep⟩ q
    exact ⟨hsw, hout, congrArg (fun e : EndPoint => { e with link := u.ep.link.put q { (u.ep.getLink q).fresh with state := .detect, fenceWhy := 0 } }) hep⟩

/-- Without a port to ask on, the AKG-8 keeps no translation. -/
theorem State.epUnreachable_dropped {s : State} (h0 : (s.ep.getLink 0).carries = false) (h1 : (s.ep.getLink 1).carries = false) :
    s.epUnreachable = s.onEp fun e => { e with l1 := [], l2 := [] } := by
  have hnone : s.ep.xlatPort = none := by simp [EndPoint.xlatPort, EndPoint.portUp, h0, h1]
  rw [State.epUnreachable, hnone]
  rfl

theorem State.ucieFail_last {s : State} {m : Nat} (h : s.ep.ucie.filter (· != m) = []) :
    s.ucieFail m = (s.onEp fun e => { e with ucie := [] }).portsDetect.epUnreachable := by
  have hnone : (s.onEp fun e => { e with ucie := e.ucie.filter (· != m) }) = s.onEp fun e => { e with ucie := [] } :=
    congrArg (fun l => { s with ep := { s.ep with ucie := l } }) h
  unfold State.ucieFail
  rw [hnone]
  exact if_neg Bool.false_ne_true

theorem ucieModuleFail_last {s : State} {m : Nat} (h : s.ep.ucie.filter (· != m) = []) :
    After (.ucieModuleFail m) s fun t => t.sw = s.sw ∧ t.ep = { s.ep with ucie := [], link := t.ep.link, l1 := [], l2 := [] } ∧ t.out = s.out
      ∧ ∀ p < 8, (t.ep.getLink p).state = .detect := by
  obtain ⟨hlinks, hsw, hout, hep⟩ := State.portsDetect_links (s.onEp fun e => { e with ucie := [] })
  have hfail := State.ucieFail_last h
  rw [State.epUnreachable_dropped (hlinks 0 (by decide)).2 (hlinks 1 (by decide)).2] at hfail
  generalize (s.onEp fun e => { e with ucie := [] }).portsDetect = t at hlinks hsw hout hep hfail
  exact ⟨_, congrArg Host.Outcome.next hfail, hsw, congrArg (fun e => { e with l1 := [], l2 := [] }) hep, hout, fun p hp => (hlinks p hp).1⟩

theorem ucieModuleFail_another {s : State} {m : Nat} (h : s.ep.ucie.filter (· != m) ≠ []) :
    exec (.ucieModuleFail m) s = .next (s.onEp fun e => { e with ucie := e.ucie.filter (· != m) }) := by
  refine congrArg Host.Outcome.next (if_pos ?_)
  simpa [State.onEp] using h

section
variable {s : State} (hon : s.ep.off = false)
include hon

theorem exec_req (r : Req) : let q : EpReq := { r := r, order := s.ep.orderCount, pieces := reqPieces r }
    let u := s.onEp fun e => { e with orderCount := e.orderCount + 1, reqs := e.reqs ++ [q] }
    exec (.req r) s = .next (if s.ep.agentRefused r.agent then u.endReq q stFenced [] else if !bindV (s.ep.bound r.agent) then u.endReq q stSegFault [] else u).pump :=
  congrArg Host.Outcome.next (State.epEv_on hon _)

theorem exec_memCpl {utag : Nat} {data : List Byte} {x : HomeReq} (h : s.ep.homeReqs.find? (fun x => x.stage == 2 && x.utag == utag) = some x) :
    let y := { x with acc := x.acc ++ padTo (partOf x.f x.line).2 data, line := x.line + 1 }
    let u := s.onEp fun e => { e with homeReqs := e.homeReqs.map fun z => if z = x then y else z }
    exec (.memCpl utag data) s = .next (if y.line < x.f.lines.length then u.askMemory y else u.homePerformed y).pump := by
  refine congrArg Host.Outcome.next ((State.epEv_on hon _).trans (congrArg State.pump ?_))
  unfold State.memDone
  rw [h]

theorem exec_inputAckTimeout {p tag : Nat} {x : HomeReq} (h : s.ep.homeReqs.find? (fun x => x.stage == 1 && x.ctag == tag && x.port == p) = some x) :
    exec (.inputAckTimeout p tag) s
      = .next ((s.homeEnd x stFenced [] 0).onEp fun e => { e with inputUnacked := min (2 ^ 64 - 1) (e.inputUnacked + 1) }).pump := by
  refine congrArg Host.Outcome.next ((State.epEv_on hon _).trans (congrArg State.pump ?_))
  unfold State.inputUnacked
  rw [h]

end

theorem exec_inputAck {s : State} {p : Nat} {f : Frame} {x : HomeReq} (hf : EpTakes p f s)
    (h : s.ep.homeReqs.find? (fun x => x.stage == 1 && x.ctag == f.tag && x.port == p) = some x) :
    let c := s.credited p f
    exec (.inputAck p f) s = .next (if f.status ≠ 0 then c.homeEnd x f.status [] 0 else if aged epCfg s.ep.clock.now x.f then c.homeEnd x stAged [] 0
      else c.askMemory x).pump := by
  refine congrArg Host.Outcome.next ((State.epIn_takes hf _).trans (congrArg State.pump ?_))
  unfold State.inputAcked
  rw [show (s.credited p f).ep.homeReqs = s.ep.homeReqs from rfl, h]
  rfl

/-- Settles O36: each row takes effect at an AKG-8 that is on, and its work goes on. -/
theorem acceleratorRowsComplete : Obligations.AcceleratorRowsComplete := by
  unfold Obligations.AcceleratorRowsComplete
  refine fun s hon => ⟨fun r => ⟨fun hrefused => ?_, fun hrefused hbound => ?_, fun hrefused hbound => ?_⟩,
    fun _ _ _ _ => congrArg Host.Outcome.next (State.epEv_on hon _), fun _ _ _ => congrArg Host.Outcome.next (State.epEv_on hon _),
    fun utag data x h => exec_memCpl hon h, fun p f x hf h => exec_inputAck hf h, fun p tag x h => exec_inputAckTimeout hon h,
    fun m => ⟨ucieModuleFail_another, ucieModuleFail_last⟩⟩
  · rw [exec_req hon, if_pos hrefused]
    rfl
  · rw [exec_req hon, hrefused, hbound]
    rfl
  · rw [exec_req hon, hrefused, hbound]
    rfl

end Sys2Proof.Machine

namespace Sys2Proof.Machine

/-! ### Records and events leave the Ledger (23 R535, R537) -/

/-- The Ledger: the chains and the queue outside staging. -/
def State.chains (s : State) : Tab Ledger × List (Nat × Entry) := (s.sw.ledger, s.sw.ledgerQueue)

theorem State.chains_iff {s t : State} : t.chains = s.chains ↔ t.sw.ledger = s.sw.ledger ∧ t.sw.ledgerQueue = s.sw.ledgerQueue := by
  simp [State.chains]

@[simp] theorem State.msix_chains (s : State) (fn vec : Nat) : (s.msix fn vec).chains = s.chains := by
  unfold State.msix
  dsimp only
  split
  · rfl
  · split
    · rfl
    · rfl

@[simp] theorem State.setEvent_chains (s : State) (b : Nat) : (s.setEvent b).chains = s.chains := by
  unfold State.setEvent
  split
  · rfl
  · exact State.msix_chains _ _ _

@[simp] theorem State.refreshAlert_chains (s : State) : s.refreshAlert.chains = s.chains := by
  unfold State.refreshAlert
  dsimp only
  split
  · rfl
  · rfl

@[simp] theorem State.record_chains (s : State) (o : Occurrence) : (s.record o).chains = s.chains := by
  unfold State.record
  dsimp only
  split
  · rfl
  · split
    · rw [State.msix_chains, State.refreshAlert_chains, State.setEvent_chains]
      rfl
    · rw [State.refreshAlert_chains, State.setEvent_chains]
      rfl

/-! ### A chain and its entries (22 R524, R527) -/

@[simp] theorem State.putLedger_getLedger (s : State) (p : Nat) (l : Ledger) : (s.putLedger p l).sw.getLedger p = l := by
  simp [Switch.getLedger]

theorem State.putLedger_getLedger_ne {p q : Nat} (h : q ≠ p) (s : State) (l : Ledger) : (s.putLedger p l).sw.getLedger q = s.sw.getLedger q :=
  Tab.get_put_ne _ _ _ _ _ h

/-- LEDGER_HIGH notes in the chain of its partition that it has been reported. -/
theorem State.noteHigh_getLedger (s : State) (p : Nat) :
    (∃ hi hu, (s.noteHigh p).sw.getLedger p = { s.sw.getLedger p with highNoted := hi, highUnits := hu })
      ∧ ∀ q ≠ p, (s.noteHigh p).sw.getLedger q = s.sw.getLedger q := by
  unfold State.noteHigh
  dsimp only
  split
  · simp only [Switch.getLedger, (State.chains_iff.mp (State.record_chains _ _)).1]
    exact ⟨⟨_, _, State.putLedger_getLedger _ _ _⟩, fun q hq => State.putLedger_getLedger_ne hq _ _⟩
  · exact ⟨⟨_, _, State.putLedger_getLedger _ _ _⟩, fun q hq => State.putLedger_getLedger_ne hq _ _⟩

/-- Entries appended one after another. -/
theorem Ledger.foldl_append (es : List Entry) (l : Ledger) : (es.foldl Ledger.append l).nextSeq = l.nextSeq + es.length
    ∧ (es.foldl Ledger.append l).entries.length = l.entries.length + es.length ∧ (es.foldl Ledger.append l).seals = l.seals := by
  induction es generalizing l with
  | nil => exact ⟨rfl, rfl, rfl⟩
  | cons e es ih =>
    obtain ⟨hseq, hlen, hseals⟩ := ih (l.append e)
    have hone : (l.append e).nextSeq = l.nextSeq + 1 ∧ (l.append e).entries.length = l.entries.length + 1 := ⟨rfl, List.length_append⟩
    rw [List.foldl_cons, List.length_cons]
    exact ⟨by omega, by omega, hseals⟩

/-- The chain that a seal leaves: one SEAL entry and 14 SIGNATURE entries more, and clean. -/
structure Ledger.SealedFrom (m l : Ledger) : Prop where
  seals : m.seals = l.seals + 1
  nextSeq : m.nextSeq = l.nextSeq + 15
  dirty : m.dirty = false
  entries : m.entries.length = l.entries.length + 15
  lastSeal : m.lastSeal = l.nextSeq
  due : m.sealDue = false

/-- A seal that staging has room for. -/
theorem State.ledgerSeal_eq {s : State} {p : Nat} (hstarted : (s.sw.getLedger p).started = true) (hroom : (s.sw.getLedger p).room 1920 true = true)
    (hteller : s.sw.teller.state ≠ 1) (hqueue : (s.sw.ledgerQueue.any fun q => q.1 == p) = false) :
    ∃ m : Ledger, s.ledgerSeal p = (s.putLedger p m).noteHigh p ∧ m.SealedFrom (s.sw.getLedger p) := by
  have hnow : (!(s.sw.getLedger p).room (15 * 128) true || s.sw.teller.state == 1 || s.sw.ledgerQueue.any fun q => q.1 == p) = false := by
    simp [hroom, hteller, hqueue]
  unfold State.ledgerSeal
  extract_lets l body e0 e sig parts m
  rw [if_neg (by simp [l, hstarted]), if_neg (by simp only [l, hnow]; exact Bool.false_ne_true)]
  obtain ⟨hseq, hlen, hseals⟩ := Ledger.foldl_append (e :: parts) l
  rw [show (e :: parts).length = 15 by simp [parts]] at hseq hlen
  exact ⟨_, rfl, congrArg (· + 1) hseals, hseq, rfl, hlen, rfl, rfl⟩

/-- What such a seal leaves of the chains. -/
theorem State.ledgerSeal_sealed {s : State} {p : Nat} (hstarted : (s.sw.getLedger p).started = true) (hroom : (s.sw.getLedger p).room 1920 true = true)
    (hteller : s.sw.teller.state ≠ 1) (hqueue : (s.sw.ledgerQueue.any fun q => q.1 == p) = false) :
    ((s.ledgerSeal p).sw.getLedger p).SealedFrom (s.sw.getLedger p) ∧ ∀ q ≠ p, (s.ledgerSeal p).sw.getLedger q = s.sw.getLedger q := by
  obtain ⟨m, heq, hsealed⟩ := State.ledgerSeal_eq hstarted hroom hteller hqueue
  obtain ⟨⟨hi, hu, hself⟩, hne⟩ := State.noteHigh_getLedger (s.putLedger p m) p
  rw [State.putLedger_getLedger] at hself
  rw [heq]
  refine ⟨?_, fun q hq => (hne q hq).trans (State.putLedger_getLedger_ne hq s m)⟩
  rw [hself]
  exact ⟨hsealed.seals, hsealed.nextSeq, hsealed.dirty, hsealed.entries, hsealed.lastSeal, hsealed.due⟩

/-! ### INPUT_COPY, staging and seals (22 R527, R529, R531) -/

/-- The room that comes where nothing waits for it: that staging is full may be noted again. -/
theorem State.roomCame_quiet {s : State} {p : Nat} (hdue : (s.sw.getLedger p).sealDue = false) (hslots : ∀ k < 32, (s.sw.getSlot k).state ≠ .retiring)
    (hqueue : s.sw.ledgerQueue = []) (hwait : s.sw.inputWait = []) (hsynd : s.sw.synd = []) :
    ∃ noted, s.roomCame p = s.putLedger p { s.sw.getLedger p with fullNoted := noted } ∨ s.roomCame p = s := by
  have htake : s.takeQueuedEntries p 2048 = s := by
    unfold State.takeQueuedEntries
    rw [hqueue]
    rfl
  have hretire : (s.each slots32 fun s k => s.retireDone k) = s :=
    State.each_same_of_mem fun k hk => if_neg fun h => hslots k (List.mem_range.mp hk) h.1
  have hquiet {u : State} (hu : u.sw.inputWait = []) (hy : u.sw.synd = []) : (u.takeCopies p).settleWaiting p = u := by
    unfold State.takeCopies State.settleWaiting
    rw [hu]
    simp only [List.filter_nil, State.each, List.foldl_nil, hy]
  unfold State.roomCame
  dsimp only
  rw [htake, show (if (s.sw.getLedger p).sealDue = true then s.ledgerSeal p else s) = s from if_neg (by simp [hdue]), hretire]
  refine ⟨false, ?_⟩
  split
  · exact .inl (hquiet (u := s.putLedger _ _) hwait hsynd)
  · exact .inr (hquiet hwait hsynd)

theorem stagingRoom_quiet {s : State} {p : Nat} (bytes : Nat) (hstarted : (s.sw.getLedger p).started = true) (hregion : (s.sw.getLedger p).region.isSome = true)
    (hdue : (s.sw.getLedger p).sealDue = false) (hslots : ∀ k < 32, (s.sw.getSlot k).state ≠ .retiring) (hqueue : s.sw.ledgerQueue = [])
    (hwait : s.sw.inputWait = []) (hsynd : s.sw.synd = []) : let m := s.sw.getLedger p
    After (.stagingRoom p bytes) s fun t => t = { s with sw := { s.sw with ledger := t.sw.ledger } } ∧ (∀ q ≠ p, t.sw.getLedger q = s.sw.getLedger q)
      ∧ t.sw.getLedger p = { m with staged := max (min m.staged m.mustStage) (m.staged - bytes), fullNoted := (t.sw.getLedger p).fullNoted } := by
  intro m
  have hgoes : s.stagingRoom p bytes = (s.putLedger p { m with staged := max (min m.staged m.mustStage) (m.staged - bytes) }).roomCame p :=
    if_neg (by simp [hstarted, Option.isNone_eq_false_iff.mpr hregion])
  generalize hl : { m with staged := max (min m.staged m.mustStage) (m.staged - bytes) } = l at hgoes
  obtain ⟨noted, hroom⟩ := State.roomCame_quiet (s := s.putLedger p l) (p := p) (by rw [State.putLedger_getLedger, ← hl]; exact hdue) hslots hqueue hwait hsynd
  refine ⟨_, rfl, ?_⟩
  rw [hgoes]
  obtain hroom | hroom := hroom
  · rw [hroom, State.putLedger_getLedger, State.putLedger_getLedger, ← hl]
    exact ⟨rfl, fun q hq => (State.putLedger_getLedger_ne hq _ _).trans (State.putLedger_getLedger_ne hq _ _), rfl⟩
  · rw [hroom, State.putLedger_getLedger, ← hl]
    exact ⟨rfl, fun q hq => State.putLedger_getLedger_ne hq _ _, rfl⟩

theorem sealTimer_seals {s : State} {p : Nat} (hstarted : (s.sw.getLedger p).started = true) (hdirty : (s.sw.getLedger p).dirty = true)
    (hroom : (s.sw.getLedger p).room 1920 true = true) (hteller : s.sw.teller.state ≠ 1) (hqueue : s.sw.ledgerQueue = []) : let m := s.sw.getLedger p
    After (.ledgerSealTimer p) s fun t => ReportFrame s t ∧ (t.sw.getLedger p).seals = m.seals + 1 ∧ (t.sw.getLedger p).nextSeq = m.nextSeq + 15
      ∧ (t.sw.getLedger p).dirty = false ∧ (t.sw.getLedger p).entries.length = m.entries.length + 15 ∧ ∀ q ≠ p, t.sw.getLedger q = s.sw.getLedger q := by
  intro m
  obtain ⟨hsealed, hne⟩ := State.ledgerSeal_sealed hstarted hroom hteller (by rw [hqueue]; rfl)
  have hseals : s.sealTimer p = s.ledgerSeal p := if_pos hdirty
  refine ⟨_, rfl, ?_⟩
  rw [hseals]
  exact ⟨State.ledgerSeal_report s p, hsealed.seals, hsealed.nextSeq, hsealed.dirty, hsealed.entries, hne⟩

/-- Settles O43: a copy is taken where there is room and waits where there is none; room, seals and the end of a wait change the chain alone. -/
theorem ledgerRowsComplete : Obligations.LedgerRowsComplete := by
  unfold Obligations.LedgerRowsComplete
  intro s p f
  refine ⟨fun hroom => congrArg Host.Outcome.next ?_, fun hstarted hroom => congrArg Host.Outcome.next ?_, fun src tag x hx => congrArg Host.Outcome.next ?_,
    fun bytes => stagingRoom_quiet bytes, sealTimer_seals⟩
  · have hfits : (((s.taken f).sw.getLedger f.partition).started && !((s.taken f).sw.getLedger f.partition).room (inputBytes f.length) false) = false := by
      obtain h | h := hroom
      · simp [h]
      · simp [inputBytes, h]
    unfold State.inputCopy State.takeCopy
    dsimp only
    rw [show s.takeInbox (internalOut f) f = s.taken f from rfl, if_neg (by rw [hfits]; exact Bool.false_ne_true)]
    rfl
  · unfold State.inputCopy State.takeCopy
    dsimp only
    rw [show s.takeInbox (internalOut f) f = s.taken f from rfl, if_pos (by simp [inputBytes, hstarted, hroom])]
  · unfold State.copyWaitEnd
    rw [hx]
    rfl

end Sys2Proof.Machine

namespace Sys2Proof.Machine

/-! ### The counter and record commands (23 R535, R538; 11 R321) -/

section
variable {fn mb : Nat} {s : State}

theorem tallyRead_done (h : Accepted tallyReadForm fn mb s) : Answered fn mb mbOk 0
      (let c := s.sw.cmdOf fn mb 16
       (List.range (c.num 0x88 4)).flatMap fun i => leBytes 8 (s.counterRead fn (c.num 0x80 2) (c.num 0x84 4 + i))) s (s.takeCommand tallyReadForm fn mb)
    ∧ AnswerFrame s (s.takeCommand tallyReadForm fn mb) :=
  h.answers rfl rfl ⟨rfl, List.prefix_refl _⟩

theorem faultLogRead_done (h : Accepted faultLogReadForm fn mb s) : Answered fn mb mbOk 0
      (let c := s.sw.cmdOf fn mb 16
       ((s.sw.tally.readable fn (c.num 0x80 8)).take (c.num 0x88 4)).flatMap FaultRec.bytes) s (s.takeCommand faultLogReadForm fn mb)
    ∧ AnswerFrame s (s.takeCommand faultLogReadForm fn mb) :=
  h.answers rfl rfl ⟨rfl, List.prefix_refl _⟩

/-- The queue records of a port, which a read by the function has started again. -/
def State.queueRestarted (s : State) (fn : Nat) (keys : List Nat) : State :=
  s.onSw fun w => { w with tally := { w.tally with queue := keys.foldl (fun q k => q.upd k {} fun r => r.restart fn) w.tally.queue } }

theorem State.dequeued_queueRestarted (s : State) (fn mb : Nat) (keys : List Nat) :
    AnswerFrame (s.queueRestarted fn keys) ((s.dequeued fn mb).queueRestarted fn keys) := ⟨rfl, List.prefix_refl _⟩

theorem tallyQueueRead_commit (c : Cmd) (s : State) : tallyQueueReadForm.commit c s
    = (.now ((queueKeys (c.num 0x80 1)).flatMap fun k => (s.sw.tally.queue.get k {}).bytes c.fn s.sw.sys.strongroom),
      s.queueRestarted c.fn (queueKeys (c.num 0x80 1))) := rfl

theorem tallyQueueRead_done (h : Accepted tallyQueueReadForm fn mb s) :
    let keys := queueKeys ((s.sw.cmdOf fn mb 8).num 0x80 1)
    Answered fn mb mbOk 0 (keys.flatMap fun k => (s.sw.tally.queue.get k {}).bytes fn s.sw.sys.strongroom) s (s.takeCommand tallyQueueReadForm fn mb)
      ∧ AnswerFrame (s.queueRestarted fn keys) (s.takeCommand tallyQueueReadForm fn mb) :=
  h.answers (tallyQueueRead_commit _ _) rfl (State.dequeued_queueRestarted s fn mb _)

end

/-- Settles O17: each command answers from the state it finds, and only TALLY_QUEUE_READ starts its records again. -/
theorem tallyCommandsComplete : Obligations.TallyCommandsComplete := by
  unfold Obligations.TallyCommandsComplete
  refine fun fn mb s => ⟨fun h => ⟨_, rfl, (tallyRead_done h).symm⟩, fun h => ⟨_, rfl, ?_⟩, fun h => ⟨_, rfl, tallyQueueRead_done h⟩⟩
  obtain ⟨hanswered, hframe⟩ := faultLogRead_done h
  exact ⟨hframe, hanswered⟩

end Sys2Proof.Machine

namespace Sys2Proof.Machine

/-! ### What the report of needs does not look at: the Teller (11 R306) -/

/-- The state with another Teller. -/
def State.withTeller (s : State) (x : Teller) : State := s.onTeller fun _ => x

section
variable (s : State) (x : Teller)

theorem State.each_withTeller {α : Type} {g : State → α → State} (hg : ∀ u a, g (u.withTeller x) a = (g u a).withTeller x) (l : List α) :
    (s.withTeller x).each l g = (s.each l g).withTeller x := by
  induction l generalizing s with
  | nil => rfl
  | cons a l ih => exact (congrArg (State.each · l g) (hg s a)).trans (ih (g s a))

theorem State.msix_withTeller (fn vec : Nat) : (s.withTeller x).msix fn vec = (s.msix fn vec).withTeller x := by
  unfold State.msix
  dsimp only
  rw [show (s.withTeller x).vectorHeld fn vec = s.vectorHeld fn vec from rfl, show (s.withTeller x).sw.host = s.sw.host from rfl]
  split
  · rfl
  · split
    · rfl
    · rfl

theorem State.setEvent_withTeller (b : Nat) : (s.withTeller x).setEvent b = (s.setEvent b).withTeller x := by
  unfold State.setEvent
  by_cases h : s.sw.host.swEvent.getLsbD b = true
  · rw [if_pos h, if_pos (show (s.withTeller x).sw.host.swEvent.getLsbD b = true from h)]
  · rw [if_neg h, if_neg (show ¬ (s.withTeller x).sw.host.swEvent.getLsbD b = true from h)]
    exact State.msix_withTeller (s.onHost fun h => { h with swEvent := h.swEvent ||| (1#32 <<< b) }) x 0 (16 + b)

theorem State.work_withTeller (kind i : Nat) : (s.withTeller x).work kind i = (s.work kind i).withTeller x := by
  unfold State.work
  dsimp only
  rw [show (s.withTeller x).sw.sys = s.sw.sys from rfl, show (s.withTeller x).sw.power = s.sw.power from rfl]
  split
  · rfl
  · split
    · rfl
    · split
      · rfl
      · split
        · rfl
        · split
          · split
            · rfl
            · rfl
          · rfl

theorem State.workAt_withTeller (o : Nat) : (s.withTeller x).workAt o = (s.workAt o).withTeller x := by
  unfold State.workAt
  split
  · exact State.work_withTeller s x _ _
  · split
    · exact State.work_withTeller s x _ _
    · rfl

theorem State.placeFrame_withTeller (src vc : Nat) (f : Frame) (whole : Bool) (mark : Nat) :
    (s.withTeller x).placeFrame src vc f whole mark = ((s.placeFrame src vc f whole mark).1, (s.placeFrame src vc f whole mark).2.withTeller x) := by
  unfold State.placeFrame
  dsimp only
  rw [show (s.withTeller x).sw.pickTile ((s.withTeller x).sw.tileFor f.cls src) f.cells = s.sw.pickTile (s.sw.tileFor f.cls src) f.cells from rfl]
  refine Prod.ext rfl ?_
  dsimp only
  split
  · rfl
  · rfl

theorem State.join_withTeller (key : Nat) (b : Buffered) : (s.withTeller x).join key b = (s.join key b).withTeller x :=
  State.workAt_withTeller (s.onSw fun w => { w with core := { w.core with queue := w.core.queue.put key (w.core.queue.get key [] ++ [b]) } }) x _

theorem State.enqueue_withTeller (key src : Nat) (f : Frame) : (s.withTeller x).enqueue key src f = (s.enqueue key src f).withTeller x := by
  unfold State.enqueue
  rw [State.placeFrame_withTeller]
  exact State.join_withTeller _ x _ _

theorem State.fromSource_withTeller (src key : Nat) (f : Frame) : (s.withTeller x).fromSource src key f = (s.fromSource src key f).withTeller x := by
  unfold State.fromSource
  rw [show (s.withTeller x).sw.core = s.sw.core from rfl, show (s.withTeller x).sw.hasCredit src f = s.sw.hasCredit src f from rfl]
  split
  · exact State.enqueue_withTeller s x _ _ _
  · rfl

theorem State.swSendPort_withTeller (src p : Nat) (f : Frame) : (s.withTeller x).swSendPort src p f = (s.swSendPort src p f).withTeller x :=
  State.fromSource_withTeller s x _ _ _

theorem State.mgmtOut_withTeller (p msub tag : Nat) (data : List Byte) :
    (s.withTeller x).mgmtOut .sw p msub tag data = (s.mgmtOut .sw p msub tag data).withTeller x := by
  unfold State.mgmtOut
  exact State.swSendPort_withTeller s x _ _ _

theorem State.onSched_withTeller (g : Sched → Sched) : (s.withTeller x).onSched .sw g = (s.onSched .sw g).withTeller x := rfl

theorem State.sendBookSet_withTeller (p : Nat) (c : BookChange) (n : Nat) :
    (s.withTeller x).sendBookSet .sw p c n = (s.sendBookSet .sw p c n).withTeller x := by
  unfold State.sendBookSet
  rw [State.onSched_withTeller, State.mgmtOut_withTeller]

theorem State.takeBook_withTeller (b : Nat) : (s.withTeller x).takeBook .sw b = (s.takeBook .sw b).withTeller x := by
  unfold State.takeBook
  rw [show (s.withTeller x).getSched .sw = s.getSched .sw from rfl]
  split
  · rfl
  · dsimp only
    rw [State.onSched_withTeller, State.setEvent_withTeller]

theorem State.portsUp_withTeller : (s.withTeller x).portsUp .sw = s.portsUp .sw := rfl

theorem State.changeBook_withTeller (b : Nat) : (s.withTeller x).changeBook b = (s.changeBook b).withTeller x := by
  have hsent (u : State) (c : BookChange) : ((u.withTeller x).each (u.portsUp .sw) fun u p => u.sendBookSet .sw p c 1)
      = (u.each (u.portsUp .sw) fun u p => u.sendBookSet .sw p c 1).withTeller x :=
    State.each_withTeller u x (fun u p => State.sendBookSet_withTeller u x p c 1) _
  unfold State.changeBook
  dsimp only
  rw [show (s.withTeller x).sw.sched = s.sw.sched from rfl, show (s.withTeller x).now .sw = s.now .sw from rfl, State.onSched_withTeller]
  split
  · rw [State.takeBook_withTeller, State.portsUp_withTeller, hsent]
  · rw [State.portsUp_withTeller, hsent]

theorem State.decideBook_withTeller (held : Bool) : (s.withTeller x).decideBook held = (s.decideBook held).withTeller x := by
  unfold State.decideBook
  dsimp only
  rw [show (s.withTeller x).sw.sched = s.sw.sched from rfl, show (s.withTeller x).sw.isMaster = s.sw.isMaster from rfl]
  split
  · rfl
  · split
    · exact State.changeBook_withTeller s x _
    · rfl

theorem State.putSeen_withTeller (l : List (Nat × List Byte)) : (s.withTeller x).putSeen .sw l = (s.putSeen .sw l).withTeller x := rfl

theorem State.sendPast_withTeller (past : List Nat) (msub : Nat) (data : List Byte) :
    (s.withTeller x).sendPast .sw past msub data = (s.sendPast .sw past msub data).withTeller x := by
  unfold State.sendPast
  rw [State.portsUp_withTeller]
  exact State.each_withTeller s x (fun u p => State.mgmtOut_withTeller u x p msub 0 data) _

theorem State.flood_withTeller (came : Option Nat) (msub : Nat) (data : List Byte) :
    (s.withTeller x).flood .sw came msub data = (s.flood .sw came msub data).withTeller x := by
  unfold State.flood State.floodPast
  dsimp only
  rw [show (s.withTeller x).seenBy .sw = s.seenBy .sw from rfl]
  split
  · rfl
  · rw [State.putSeen_withTeller, State.sendPast_withTeller]

theorem State.noteReport_withTeller (sender : Nat) (slow narrow : Bool) :
    (s.withTeller x).noteReport sender slow narrow = (s.noteReport sender slow narrow).withTeller x := by
  unfold State.noteReport
  rw [State.onSched_withTeller, State.decideBook_withTeller]

theorem State.reportNeeds_withTeller : (s.withTeller x).reportNeeds = s.reportNeeds.withTeller x := by
  unfold State.reportNeeds
  dsimp only
  rw [State.noteReport_withTeller, show (s.withTeller x).sw.sched = s.sw.sched from rfl, show (s.withTeller x).sw.sys = s.sw.sys from rfl]
  generalize s.noteReport s.sw.sys.homeId s.sw.sched.slow s.sw.sched.narrow = u
  rw [show (u.withTeller x).sw.isMaster = u.sw.isMaster from rfl]
  split
  · rfl
  · exact State.flood_withTeller u x _ _ _

theorem State.setSlow_withTeller (v : Bool) : (s.withTeller x).setSlow v = (s.setSlow v).withTeller x := by
  unfold State.setSlow
  rw [show (s.withTeller x).sw.sched = s.sw.sched from rfl]
  split
  · rfl
  · rw [State.onSched_withTeller, State.reportNeeds_withTeller]

/-- The report of needs leaves the Teller. -/
theorem State.setSlow_teller (v : Bool) : (s.setSlow v).sw.teller = s.sw.teller :=
  congrArg (·.sw.teller) (State.setSlow_withTeller s s.sw.teller v)

end

/-! ### What decides to which end-points a value is passed (05 R126, 23 R540) -/

/-- What a relay to the end-points reads of the switch: its place, its links and the number of the next relay. -/
def State.relayBasis (s : State) : Sys × Tab Link × Nat := (s.sw.sys, s.sw.link, s.sw.mgmt.nextRelay)

section
variable (s : State)

theorem SentFrame.relayBasis {s t : State} (h : SentFrame s t) : t.relayBasis = s.relayBasis := by
  obtain ⟨hsys, -, hlink, -, -, -, -, hmgmt, -⟩ := h.fields
  rw [State.relayBasis, hsys, hlink, hmgmt, State.relayBasis]

@[simp] theorem State.onSched_relayBasis (g : Sched → Sched) : (s.onSched .sw g).relayBasis = s.relayBasis := rfl

@[simp] theorem State.mgmtOut_relayBasis (p msub tag : Nat) (data : List Byte) : (s.mgmtOut .sw p msub tag data).relayBasis = s.relayBasis :=
  (State.swSendPort_sent s outEscrow p _).relayBasis

theorem State.each_relayBasis {α : Type} {g : State → α → State} (hg : ∀ u a, (g u a).relayBasis = u.relayBasis) (l : List α) :
    (s.each l g).relayBasis = s.relayBasis :=
  State.each_keeps (P := fun u => u.relayBasis = s.relayBasis) rfl fun u hu a => (hg u a).trans hu

@[simp] theorem State.takeBook_relayBasis (b : Nat) : (s.takeBook .sw b).relayBasis = s.relayBasis := by
  have hevent (u : State) : (u.setEvent evSched).relayBasis = u.relayBasis := by
    unfold State.setEvent State.msix
    dsimp only
    split
    · rfl
    · split
      · rfl
      · split <;> rfl
  unfold State.takeBook
  split
  · rfl
  · exact hevent _

@[simp] theorem State.changeBook_relayBasis (b : Nat) : (s.changeBook b).relayBasis = s.relayBasis := by
  unfold State.changeBook
  dsimp only
  refine (State.each_relayBasis _ (fun u p => by simp [State.sendBookSet]) _).trans ?_
  split <;> simp

@[simp] theorem State.decideBook_relayBasis (held : Bool) : (s.decideBook held).relayBasis = s.relayBasis := by
  unfold State.decideBook
  dsimp only
  split
  · rfl
  · split <;> simp

@[simp] theorem State.flood_relayBasis (came : Option Nat) (msub : Nat) (data : List Byte) : (s.flood .sw came msub data).relayBasis = s.relayBasis := by
  unfold State.flood State.floodPast State.sendPast
  dsimp only
  split
  · rfl
  · exact State.each_relayBasis _ (fun u p => State.mgmtOut_relayBasis u p _ _ _) _

theorem State.setSlow_relayBasis (v : Bool) : (s.setSlow v).relayBasis = s.relayBasis := by
  unfold State.setSlow State.reportNeeds State.noteReport
  dsimp only
  split
  · rfl
  · split <;> simp

end

/-! ### The power commands (20 R488, R493, R495) -/

/-- What PACE_SET sets. -/
def State.paceSet (s : State) (c : Cmd) : State :=
  s.onSys fun y => { y with cfg := { y.cfg with target := c.num 0x80 2, ceil := c.num 0x82 2, limit := c.num 0x84 2
                                                idleHold := if c.num 0x86 2 = 0 then 100 else c.num 0x86 2 } }

/-- P stands above the ceiling of the level: the switch reports SLOW. -/
def State.slowReported (s : State) : State := if s.slowNow then s.setSlow true else s

section
variable {fn mb : Nat} {s : State}

theorem State.slowReported_withTeller (s : State) (x : Teller) : (s.withTeller x).slowReported = s.slowReported.withTeller x := by
  unfold State.slowReported
  rw [show (s.withTeller x).slowNow = s.slowNow from rfl, State.setSlow_withTeller]
  split <;> rfl

theorem State.slowReported_relayBasis (s : State) : s.slowReported.relayBasis = s.relayBasis := by
  unfold State.slowReported
  split
  · exact State.setSlow_relayBasis s true
  · rfl

theorem State.relayBasis_edgesUp {s t : State} (h : t.relayBasis = s.relayBasis) : t.sw.edgesUp = s.sw.edgesUp ∧ t.sw.sys = s.sw.sys
    ∧ t.sw.mgmt.nextRelay = s.sw.mgmt.nextRelay := by
  obtain ⟨hsys, h⟩ := Prod.mk.inj h
  obtain ⟨hlink, hnext⟩ := Prod.mk.inj h
  refine ⟨?_, hsys, hnext⟩
  unfold Switch.edgesUp Switch.getLink
  rw [hsys, hlink]

theorem paceSet_commit (c : Cmd) (s : State) : paceSetForm.commit c s = (.now [], (s.paceSet c).slowReported.passValue ciCeil (c.num 0x82 2)) := by
  simp only [paceSetForm, State.ifThen, State.slowReported]
  rfl

theorem paceSet_done (h : Accepted paceSetForm fn mb s) :
    Answered fn mb mbOk 0 [] s (s.takeCommand paceSetForm fn mb)
      ∧ ToldFrame (s.paceSet (s.sw.cmdOf fn mb 8)).slowReported (s.takeCommand paceSetForm fn mb)
      ∧ (s.takeCommand paceSetForm fn mb).sw.mgmt.nextRelay = s.sw.mgmt.nextRelay + if s.sw.sys.plane = 0 then s.sw.edgesUp.length else 0 := by
  have hdequeued : ((s.dequeued fn mb).paceSet (s.sw.cmdOf fn mb 8)).slowReported
      = (s.paceSet (s.sw.cmdOf fn mb 8)).slowReported.withTeller (s.dequeued fn mb).sw.teller :=
    State.slowReported_withTeller (s.paceSet (s.sw.cmdOf fn mb 8)) (s.dequeued fn mb).sw.teller
  have hteller : (s.paceSet (s.sw.cmdOf fn mb 8)).slowReported.sw.teller = s.sw.teller :=
    congrArg (·.sw.teller) (State.slowReported_withTeller (s.paceSet (s.sw.cmdOf fn mb 8)) s.sw.teller)
  obtain ⟨hedges, hsys, hnext⟩ := State.relayBasis_edgesUp (State.slowReported_relayBasis (s.paceSet (s.sw.cmdOf fn mb 8)))
  have hc := paceSet_commit (s.sw.cmdOf fn mb 8) (s.dequeued fn mb)
  rw [hdequeued] at hc
  generalize (s.paceSet (s.sw.cmdOf fn mb 8)).slowReported = u at *
  have hframe : AnswerFrame u (u.withTeller { u.sw.teller with order := u.sw.teller.order.erase (fn, mb) }) := ⟨rfl, List.prefix_refl _⟩
  rw [hteller] at hframe
  exact h.passes hc rfl hframe hedges (congrArg Sys.plane hsys :) hnext

@[simp] theorem State.onDomain_domain (s : State) (kind index : Nat) (g : Domain → Domain) :
    (s.onDomain kind index g).sw.domain kind index = g (s.sw.domain kind index) := Tab.get_put_self _ _ _ _

/-- A change of state of a domain: the votes, the Teller and the memory system stay. -/
theorem State.revote_keeps (s : State) (kind index : Nat) : ((s.revote kind index).sw.domain kind index).votes = (s.sw.domain kind index).votes
    ∧ (s.revote kind index).sw.teller = s.sw.teller ∧ (s.revote kind index).sw.mem = s.sw.mem := by
  have hset (g : Domain → Domain) (hg : ∀ d, (g d).votes = d.votes) :
      ((s.onDomain kind index g).sw.domain kind index).votes = (s.sw.domain kind index).votes
        ∧ (s.onDomain kind index g).sw.teller = s.sw.teller ∧ (s.onDomain kind index g).sw.mem = s.sw.mem :=
    ⟨by rw [State.onDomain_domain, hg], rfl, rfl⟩
  unfold State.revote
  dsimp only
  split
  · split
    · exact hset _ fun _ => rfl
    · exact ⟨rfl, rfl, rfl⟩
  · split
    · exact ⟨rfl, rfl, rfl⟩
    · split
      · exact hset _ fun _ => rfl
      · unfold State.beginExit
        dsimp only
        have hexit := hset (fun d => { d with exiting := some 1, wake := false }) fun _ => rfl
        split
        · exact hexit
        · exact hexit

theorem powerVote_done (h : Accepted powerVoteForm fn mb s) :
    let c := s.sw.cmdOf fn mb 8
    let t := s.takeCommand powerVoteForm fn mb
    Answered fn mb mbOk 0 [] s t ∧ t.sw.mem = s.sw.mem
      ∧ (t.sw.domain (c.num 0x80 1) (c.num 0x81 1)).votes = (s.sw.domain (c.num 0x80 1) (c.num 0x81 1)).votes.put fn (c.num 0x82 1) := by
  intro c t
  obtain ⟨hvotes, hteller, hmem⟩ := State.revote_keeps ((s.dequeued fn mb).onDomain (c.num 0x80 1) (c.num 0x81 1) fun d =>
    { d with votes := d.votes.put fn (c.num 0x82 1) }) (c.num 0x80 1) (c.num 0x81 1)
  obtain ⟨hanswered, hframe⟩ := h.answers rfl hteller (.refl _)
  refine ⟨hanswered, hframe.mem.trans hmem, ?_⟩
  have hpower : t.sw.power = _ := congrArg (·.sw.power) hframe.1
  rw [Switch.domain, hpower]
  refine Eq.trans hvotes ?_
  rw [State.onDomain_domain]
  rfl

theorem powerRead_done (h : Accepted powerReadForm fn mb s) : Answered fn mb mbOk 0 (s.sw.powerRsp fn) s (s.takeCommand powerReadForm fn mb)
    ∧ AnswerFrame (if s.sw.sys.strongroom && fn != 0 then s else s.onPower fun x => { x with pMax := x.p }) (s.takeCommand powerReadForm fn mb) := by
  have hc : powerReadForm.commit (s.sw.cmdOf fn mb 0) (s.dequeued fn mb) = (.now (s.sw.powerRsp fn),
      if s.sw.sys.strongroom && fn != 0 then s.dequeued fn mb else (s.dequeued fn mb).onPower fun x => { x with pMax := x.p }) := rfl
  refine h.answers hc ?_ ?_
  · split <;> rfl
  · split
    · exact ⟨rfl, List.prefix_refl _⟩
    · exact ⟨rfl, List.prefix_refl _⟩

end

/-- Settles O16: each command by its form's effect; the switch reports SLOW, and relays the ceiling, as it does outside the command. -/
theorem powerCommandsComplete : Obligations.PowerCommandsComplete := by
  unfold Obligations.PowerCommandsComplete
  refine fun fn mb s => ⟨fun h => ⟨_, rfl, powerVote_done h⟩, fun h => ⟨_, rfl, paceSet_done h⟩, fun h => ⟨_, rfl, ?_⟩, fun h => ⟨_, rfl, powerRead_done h⟩⟩
  exact h.answers rfl rfl (State.dequeued_onSys _ _ _ _)

end Sys2Proof.Machine

namespace Sys2Proof.Machine

/-! ### What an access writes in a register (18 R456) -/

theorem regBytes_eq (w v : Nat) : (List.range w).map (regByte v) = leBytes w v := by
  induction w generalizing v with
  | zero => rfl
  | succ w ih =>
    have hnext : regByte v ∘ Nat.succ = regByte (v / 256) := by
      funext i
      simp [regByte, Nat.pow_succ', Nat.div_div_eq_div_mul]
    rw [List.range_succ_eq_map, List.map_cons, List.map_map, hnext, ih]
    simp [regByte, leBytes]

/-- A write of a whole register. -/
theorem mergeReg_whole (b w old v : Nat) : mergeReg b w old b w v = v % 256 ^ w := by
  have hbytes : (List.range w).map (fun i => if b ≤ b + i ∧ b + i < b + w then regByte v (b + i - b) else regByte old i) = (List.range w).map (regByte v) := by
    refine List.map_congr_left fun i hi => ?_
    have hlt := List.mem_range.mp hi
    rw [if_pos (by omega), Nat.add_sub_cancel_left]
  rw [mergeReg, hbytes, regBytes_eq, leVal_leBytes]

/-- A write that does not reach a register writes none of its bits as one. -/
theorem onesIn_out {b w o n : Nat} (h : reaches b w o n = false) (v : Nat) : onesIn b w o n v = 0 := by
  have hbytes : (List.range w).map (fun i => if o ≤ b + i ∧ b + i < o + n then regByte v (b + i - o) else regByte 0 i) = (List.range w).map (regByte 0) := by
    refine List.map_congr_left fun i hi => if_neg ?_
    have hlt := List.mem_range.mp hi
    simp only [reaches, decide_eq_false_iff_not] at h
    omega
  rw [onesIn, mergeReg, hbytes, regBytes_eq, leVal_leBytes, Nat.zero_mod]

/-! ### CONTROL of a mailbox (16 R413, R417) -/

theorem State.work_mailbox (s : State) (kind i fn mb : Nat) : (s.work kind i).sw.mailbox fn mb = s.sw.mailbox fn mb := by
  obtain ⟨-, -, -, -, -, hteller, -⟩ := (State.work_sent s kind i).fields
  rw [Switch.mailbox, hteller, Switch.mailbox]

/-- A 4-byte write at a mailbox's CONTROL is ignored and counted while OWN is set. -/
theorem State.mailboxHostWrite_owned {s : State} {fn mb : Nat} (h : (s.sw.mailbox fn mb).own = true) (o n v : Nat) :
    s.mailboxHostWrite fn mb o n v = s.count 0 cMailboxIgnored := if_pos h

/-- With OWN clear it writes OWN, IRQ and SEQ, and a mailbox whose OWN it sets joins the order. -/
theorem State.mailboxHostWrite_control {s : State} {fn mb : Nat} (h : (s.sw.mailbox fn mb).own = false) (v : Nat) : s.mailboxHostWrite fn mb 0 4 v =
    s.onTeller fun t => { t with
      mbox := t.mbox.put (mbKey fn mb) { s.sw.mailbox fn mb with own := bit (v % 2 ^ 32) 0, irq := bit (v % 2 ^ 32) 1, seq := bits (v % 2 ^ 32) 16 16 }
      order := if bit (v % 2 ^ 32) 0 then t.order ++ [(fn, mb)] else t.order } := by
  have hpayload : ((List.range 4).foldl (fun (t : Tab Byte) i =>
      if 4 ≤ 0 + i ∧ 0 + i < 0x800 ∧ !(0x40 ≤ 0 + i ∧ 0 + i < 0x48) then
        (if regByte v i = 0 then t.del (0 + i) else t.put (0 + i) (regByte v i)) else t) (s.sw.mailbox fn mb).payload) = (s.sw.mailbox fn mb).payload := rfl
  have hmerge : mergeReg 0 4 0 0 4 v = v % 2 ^ 32 := mergeReg_whole 0 4 0 v
  unfold State.mailboxHostWrite
  simp only [h, hpayload, hmerge]
  cases hown : bit (v % 2 ^ 32) 0 <;> rfl

theorem State.barWrite_on {s : State} (h : s.sw.sys.hostLink = true) (fn o n v : Nat) : s.barWrite fn o n v =
    if !alignedAccess o n then (s.work 5 0).emit (.unsupported fn o)
    else if fn = 0 then (s.work 5 0).writePf o n v else (s.work 5 0).writeVf fn o n v := by
  unfold State.barWrite
  rw [h]
  rfl

/-- A 4-byte write at the start of a mailbox of a function is that of its CONTROL. -/
theorem State.barWrite_control {s : State} (h : s.sw.sys.hostLink = true) {fn mb : Nat} (hmb : if fn = 0 then mb < 16 else mb < 4) (v : Nat) :
    s.barWrite fn (mb * 0x1000) 4 v = (s.work 5 0).mailboxHostWrite fn mb 0 4 v := by
  have haligned : alignedAccess (mb * 0x1000) 4 = true := by
    simp only [alignedAccess, Bool.and_eq_true, beq_iff_eq]
    exact ⟨rfl, by omega⟩
  have hbox : mb * 0x1000 / 0x1000 = mb := Nat.mul_div_cancel mb (by decide)
  have hoff : mb * 0x1000 % 0x1000 = 0 := Nat.mul_mod_left mb _
  rw [State.barWrite_on h, haligned]
  by_cases hfn : fn = 0
  · rw [if_pos hfn] at hmb
    subst hfn
    simp only [Bool.not_true, Bool.false_eq_true, if_false, if_true]
    rw [State.writePf, if_pos (by omega), hbox, hoff]
  · rw [if_neg hfn] at hmb
    simp only [Bool.not_true, Bool.false_eq_true, if_false, if_neg hfn]
    rw [State.writeVf, if_pos (by omega), hbox, hoff]

/-- The words of CONTROL. -/
theorem control_bits (v : BitVec 64) : bit (v.toNat % 2 ^ 32) 0 = v.getLsbD 0 ∧ bit (v.toNat % 2 ^ 32) 1 = v.getLsbD 1
    ∧ bits (v.toNat % 2 ^ 32) 16 16 = v.toNat / 2 ^ 16 % 2 ^ 16 := by
  have hlow {i : Nat} (hi : i < 32) : bit (v.toNat % 2 ^ 32) i = v.getLsbD i := by
    rw [bit, Nat.testBit_mod_two_pow, decide_eq_true hi, Bool.true_and, BitVec.getLsbD]
  refine ⟨hlow (by decide), hlow (by decide), ?_⟩
  rw [bits_eq]
  omega

/-! ### Other registers of the switch -/

theorem State.writePf_tc0Drop (s : State) (v : BitVec 64) :
    s.writePf 0x10020 4 v.toNat = s.onHost fun h => { h with tc0Drop := v.setWidth 32 &&& 0x3FFFFFFF#32 } := by
  have hdrop (old : Nat) : BitVec.ofNat 32 (mergeReg 0x10020 4 old 0x10020 4 v.toNat) = v.setWidth 32 := by
    apply BitVec.eq_of_toNat_eq
    rw [mergeReg_whole]
    simp
  have hrestarted : onesIn 0x10000 4 0x10020 4 v.toNat = 0 := onesIn_out rfl _
  have hlate : onesIn 0x10010 4 0x10020 4 v.toNat = 0 := onesIn_out rfl _
  unfold State.writePf
  simp only [hrestarted, hlate, hdrop]
  rfl

/-- Clearing bits of SW_EVENT changes ALERT_N as it then stands, and nothing else. -/
theorem State.clearSwEvent_clears (s : State) (v : BitVec 32) : let t := s.clearSwEvent v.toNat
    ReportFrame s t ∧ t.sw.host.swEvent = s.sw.host.swEvent &&& ~~~v ∧ t.sw.sys.alertRec = (s.sw.sys.alertRec && !v.getLsbD 0)
      ∧ t.sw.tally = s.sw.tally ∧ t.sw.sys.alert = t.sw.alertWanted := by
  have halert (u : State) : u.refreshAlert.sw.host = u.sw.host ∧ u.refreshAlert.sw.sys.alertRec = u.sw.sys.alertRec
      ∧ u.refreshAlert.sw.sys.alert = u.refreshAlert.sw.alertWanted := by
    unfold State.refreshAlert
    dsimp only
    split
    · next h => exact ⟨rfl, rfl, h.symm⟩
    · exact ⟨rfl, rfl, rfl⟩
  have hbit : bit v.toNat evFault = v.getLsbD 0 := rfl
  unfold State.clearSwEvent
  rw [hbit, BitVec.ofNat_toNat, BitVec.setWidth_eq]
  cases v.getLsbD 0 with
  | false =>
    obtain ⟨hhost, hrec, hwanted⟩ := halert (s.onHost fun h => { h with swEvent := h.swEvent &&& ~~~v })
    refine ⟨ReportFrame.trans ⟨rfl, List.prefix_refl _⟩ (State.refreshAlert_report _), congrArg (·.swEvent) hhost, ?_, State.refreshAlert_tally _, hwanted⟩
    rw [Bool.not_false, Bool.and_true]
    exact hrec
  | true =>
    obtain ⟨hhost, hrec, hwanted⟩ := halert ((s.onHost fun h => { h with swEvent := h.swEvent &&& ~~~v }).onSys fun y => { y with alertRec := false })
    refine ⟨ReportFrame.trans ⟨rfl, List.prefix_refl _⟩ (State.refreshAlert_report _), congrArg (·.swEvent) hhost, ?_, State.refreshAlert_tally _, hwanted⟩
    rw [Bool.not_true, Bool.and_false]
    exact hrec

/-! ### Registers of the AKG-8 -/

theorem State.sideWrite_cplTimeout {s : State} (h : s.ep.off = false) {v : BitVec 64} (hlo : 10 ≤ v.toNat % 2 ^ 14) (hhi : v.toNat % 2 ^ 14 ≤ 10000) :
    s.sideWrite 8 4 v.toNat = s.onEp fun e => { e with cplTimeout := BitVec.ofNat 32 (v.toNat % 2 ^ 14) } := by
  have hmerge (old : Nat) : mergeReg 8 4 old 8 4 v.toNat % 2 ^ 14 = v.toNat % 2 ^ 14 := by
    rw [mergeReg_whole]
    exact Nat.mod_mod_of_dvd _ (by decide)
  have hlate : onesIn 0x18 4 8 4 v.toNat = 0 := onesIn_out rfl _
  have hreach : reaches 8 4 8 4 = true ∧ 10 ≤ v.toNat % 2 ^ 14 ∧ v.toNat % 2 ^ 14 ≤ 10000 := ⟨rfl, hlo, hhi⟩
  unfold State.sideWrite
  simp only [h, hmerge, hlate, if_pos hreach]
  rfl

theorem State.clearEpEvent_clears (s : State) (v : BitVec 32) : let t := s.clearEpEvent v.toNat
    t.sw = s.sw ∧ t.ep.event = s.ep.event &&& ~~~v ∧ t.ep = { s.ep with event := t.ep.event, alert := t.ep.event != 0 } ∧ s.out <+: t.out := by
  unfold State.clearEpEvent State.epAlert
  rw [BitVec.ofNat_toNat, BitVec.setWidth_eq]
  dsimp only
  split
  · next h => exact ⟨rfl, rfl, by rw [h]; rfl, List.prefix_refl _⟩
  · exact ⟨rfl, rfl, rfl, List.prefix_append _ _⟩

/-- Settles O20: each write reaches one register of the maps, and the others are as they were. -/
theorem registerWritesComplete : Obligations.RegisterWritesComplete := by
  unfold Obligations.RegisterWritesComplete
  refine fun s => ⟨fun hlink => ⟨fun fn mb v hmb => ⟨fun hown => ?free, fun hown => ?owned⟩, fun fn off size v hbad => ?unaligned, fun v => ?drop, fun v => ?event⟩,
    fun hon => ⟨fun v hlo hhi => congrArg Host.Outcome.next (State.sideWrite_cplTimeout hon hlo hhi), fun v => ?epEvent, fun agent v => ?bind⟩⟩
  case free =>
    obtain ⟨h0, h1, h16⟩ := control_bits v
    refine congrArg Host.Outcome.next ((State.barWrite_control hlink hmb v.toNat).trans ?_)
    rw [State.mailboxHostWrite_control ((congrArg Mailbox.own (State.work_mailbox s 5 0 fn mb)).trans hown), State.work_mailbox, h0, h1, h16]
    rfl
  case owned =>
    refine congrArg Host.Outcome.next ((State.barWrite_control hlink hmb v.toNat).trans ?_)
    exact State.mailboxHostWrite_owned ((congrArg Mailbox.own (State.work_mailbox s 5 0 fn mb)).trans hown) _ _ _
  case unaligned =>
    refine congrArg Host.Outcome.next ((State.barWrite_on hlink fn off size v.toNat).trans (if_pos ?_))
    rw [Bool.not_eq_true', ← Bool.not_eq_true]
    simpa [alignedAccess] using hbad
  case drop =>
    refine congrArg Host.Outcome.next ((State.barWrite_on hlink 0 0x10020 4 v.toNat).trans ?_)
    exact State.writePf_tc0Drop (s.work 5 0) v
  case event => exact ⟨_, congrArg Host.Outcome.next (if_pos hlink), State.clearSwEvent_clears s v⟩
  case epEvent =>
    refine ⟨_, congrArg Host.Outcome.next (if_neg ?_), State.clearEpEvent_clears s v⟩
    simp [hon]
  case bind =>
    refine ⟨fun hidle => congrArg Host.Outcome.next ((State.epEv_on hon _).trans ?_), fun hruns => congrArg Host.Outcome.next ((State.epEv_on hon _).trans ?_)⟩
    · rw [State.bindAgent, hidle]
      rfl
    · rw [State.bindAgent, hruns]
      rfl

end Sys2Proof.Machine

namespace Sys2Proof.Machine

/-! ### The switch's own work: what it leaves of commands, keys, partitions and Syndicates

The work that a fence, a verdict, a retirement or a change of tasks brings about reaches most of the switch. It takes no command off the list and no
mailbox, makes no key ACTIVE, and ends partitions at most; work that is still (of Escrow, and of ports that leave service) leaves them all, and the
memory system with them. -/

/-- Still work: the Teller, the memory system, partitions, agent fences, persistent values, and the state of every engine. -/
def Switch.still (w : Switch) : Teller × Mem × Tab Part × List Nat × Persist × (Nat → Bool × Bool) :=
  (w.teller, w.mem, w.vault.part, w.vault.fencedAgents, w.sys.cfg, fun e => ((w.getEngine e).fenced, (w.getEngine e).resetting))

/-- w is v after work of the switch; still (z): it has left what `Switch.still` names. -/
structure Switch.Tends (z : Bool) (v w : Switch) : Prop where
  desk : w.teller = { v.teller with active := w.teller.active, owedVerdicts := w.teller.owedVerdicts }
  owed : v.teller.state ≠ 1 → w.teller.owedVerdicts = v.teller.owedVerdicts
  listed : ∀ a ∈ v.teller.active, ∃ b ∈ w.teller.active, a.Same b
  slots : ∀ i, (w.getSlot i).state = .active → (v.getSlot i).state = .active
  parts : ∀ p, (w.getPart p).state = (v.getPart p).state ∨ (w.getPart p).state = .none
  synds : ∀ y ∈ w.synd, ∃ x ∈ v.synd, x.2.partition = y.2.partition
  phase : w.sys.phase = v.sys.phase
  still : z = true → w.still = v.still

def State.Tends (z : Bool) (s t : State) : Prop := s.sw.Tends z t.sw

/-- The state that a step may answer is s after such work, if it answers one. -/
def State.TendsAny (z : Bool) (s : State) (o : Option State) : Prop := ∀ t, o = some t → s.Tends z t

/-- A change of the switch that keeps its Teller, keys, partitions, Syndicates and phase; still, if it also keeps the rest. -/
theorem Switch.Tends.of_eq {z : Bool} {v w : Switch} (hteller : w.teller = v.teller) (hslot : ∀ i, (w.getSlot i).state = .active → (v.getSlot i).state = .active)
    (hpart : w.vault.part = v.vault.part) (hsynd : w.synd = v.synd) (hphase : w.sys.phase = v.sys.phase) (hstill : z = true → w.still = v.still) :
    v.Tends z w where
  desk := by rw [hteller]
  owed _ := by rw [hteller]
  listed a ha := ⟨a, by rwa [hteller], rfl, rfl, rfl, rfl⟩
  slots := hslot
  parts p := .inl (by rw [Switch.getPart, hpart, Switch.getPart])
  synds y hy := ⟨y, by rwa [← hsynd], rfl⟩
  phase := hphase
  still := hstill

/-- A change of frames, reports, tasks or links is still. -/
theorem Switch.Tends.quiet {z : Bool} {v w : Switch} (hteller : w.teller = v.teller := by rfl) (hvault : w.vault = v.vault := by rfl)
    (hsynd : w.synd = v.synd := by rfl) (hphase : w.sys.phase = v.sys.phase := by rfl) (hcfg : w.sys.cfg = v.sys.cfg := by rfl)
    (hmem : w.mem = v.mem := by rfl) (hengine : w.escrow.engine = v.escrow.engine := by rfl) : v.Tends z w :=
  .of_eq hteller (fun i h => by rwa [Switch.getSlot, ← hvault]) (by rw [hvault]) hsynd hphase fun _ => by
    simp [Switch.still, Switch.getEngine, hteller, hmem, hvault, hcfg, hengine]

/-- A change of the memory system, or of another part that is not still. -/
theorem Switch.Tends.loose {v w : Switch} (hteller : w.teller = v.teller := by rfl) (hslot : w.vault.slot = v.vault.slot := by rfl)
    (hpart : w.vault.part = v.vault.part := by rfl) (hsynd : w.synd = v.synd := by rfl) (hphase : w.sys.phase = v.sys.phase := by rfl) :
    v.Tends false w :=
  .of_eq hteller (fun i h => by rwa [Switch.getSlot, ← hslot]) hpart hsynd hphase nofun

theorem Switch.Tends.trans {z : Bool} {u v w : Switch} (h : u.Tends z v) (j : v.Tends z w) : u.Tends z w where
  desk := by
    rw [j.desk, h.desk]
  owed hs := by
    have hstate : v.teller.state = u.teller.state := by rw [h.desk]
    rw [j.owed (hstate ▸ hs), h.owed hs]
  listed a ha := by
    obtain ⟨b, hb, h1, h2, h3, h4⟩ := h.listed a ha
    obtain ⟨c, hc, j1, j2, j3, j4⟩ := j.listed b hb
    exact ⟨c, hc, j1.trans h1, j2.trans h2, j3.trans h3, j4.trans h4⟩
  slots i hi := h.slots i (j.slots i hi)
  parts p := by
    obtain hj | hj := j.parts p
    · rw [hj]
      exact h.parts p
    · exact .inr hj
  synds y hy := by
    obtain ⟨x, hx, hxy⟩ := j.synds y hy
    obtain ⟨w, hw, hwx⟩ := h.synds x hx
    exact ⟨w, hw, hwx.trans hxy⟩
  phase := j.phase.trans h.phase
  still hz := (j.still hz).trans (h.still hz)

section
-- Some hundred short proofs follow one another here: elaborated side by side they want more threads than the check allows.
set_option Elab.async false
variable {z : Bool} {s₀ s t : State} {α : Type}

theorem State.Tends.refl (s : State) : s.Tends z s := Switch.Tends.quiet

theorem State.Tends.trans (h : s₀.Tends z s) (j : s.Tends z t) : s₀.Tends z t := Switch.Tends.trans h j

theorem SentFrame.tends (h : SentFrame s t) : s.Tends z t := by
  obtain ⟨h, -⟩ := h
  rw [h]
  exact Switch.Tends.quiet

theorem ReportFrame.tends (h : ReportFrame s t) : s.Tends z t := by
  obtain ⟨h, -⟩ := h
  rw [h]
  exact Switch.Tends.quiet

theorem State.Tends.onSw {g : Switch → Switch} (h : s₀.Tends z s) (hg : ∀ w, Switch.Tends z w (g w) := by exact fun _ => .quiet) : s₀.Tends z (s.onSw g) :=
  Switch.Tends.trans h (hg _)

/-- A change of the memory system, or of another part that is not still. -/
theorem State.Tends.onLoose {g : Switch → Switch} (h : s₀.Tends false s) (hg : ∀ w, Switch.Tends false w (g w) := by exact fun _ => .loose) :
    s₀.Tends false (s.onSw g) :=
  Switch.Tends.trans h (hg _)

theorem State.Tends.onEp {g : EndPoint → EndPoint} (h : s₀.Tends z s) : s₀.Tends z (s.onEp g) := h

theorem State.Tends.emit {o : Out} (h : s₀.Tends z s) : s₀.Tends z (s.emit o) := h

theorem State.Tends.free (h : s₀.Tends z s) : s₀.Tends z s.free.2 := h

/-- A slot takes new contents: it is not made ACTIVE by them. -/
theorem State.Tends.putSlot {k : Nat} {v : KeySlot} (h : s₀.Tends z s) (hv : v.state = .active → (s.sw.getSlot k).state = .active := by exact id) :
    s₀.Tends z (s.putSlot k v) :=
  Switch.Tends.trans h (.of_eq rfl (fun i hi => by
    by_cases hik : i = k
    · subst hik
      exact hv (by simpa [State.putSlot, Switch.getSlot] using hi)
    · simpa [State.putSlot, Switch.getSlot, Tab.get_put_ne _ _ _ _ _ hik] using hi) rfl rfl rfl fun _ => rfl)

/-- An engine takes a task or gives it up. -/
theorem State.Tends.putEngine {e : Nat} {v : Engine} (h : s₀.Tends z s) (hf : v.fenced = (s.sw.getEngine e).fenced := by exact rfl)
    (hr : v.resetting = (s.sw.getEngine e).resetting := by exact rfl) : s₀.Tends z (s.putEngine e v) := by
  refine Switch.Tends.trans h (.of_eq rfl (fun _ hi => hi) rfl rfl rfl fun _ => ?_)
  have hengines : (fun i => (((s.putEngine e v).sw.getEngine i).fenced, ((s.putEngine e v).sw.getEngine i).resetting))
      = fun i => ((s.sw.getEngine i).fenced, (s.sw.getEngine i).resetting) := by
    funext i
    by_cases hi : i = e
    · subst hi
      simp [State.putEngine, Switch.getEngine] at hf hr ⊢
      exact ⟨hf, hr⟩
    · simp [State.putEngine, Switch.getEngine, Tab.get_put_ne _ _ _ _ _ hi]
  rw [Switch.still, hengines, Switch.still]
  rfl

/-- An engine is fenced, freed or reset. -/
theorem State.Tends.setEngine {e : Nat} {v : Engine} (h : s₀.Tends false s) : s₀.Tends false (s.putEngine e v) := h.onLoose

/-- A partition ends. -/
theorem State.Tends.endPart {p : Nat} {v : Part} (h : s₀.Tends false s) (hv : v.state = .none := by exact rfl) : s₀.Tends false (s.putPart p v) := by
  refine Switch.Tends.trans h ⟨rfl, fun _ => rfl, fun a ha => ⟨a, ha, rfl, rfl, rfl, rfl⟩, fun _ hi => hi, fun q => ?_, fun y hy => ⟨y, hy, rfl⟩, rfl, nofun⟩
  by_cases hq : q = p
  · subst hq
    exact .inr (by simpa [State.putPart, Switch.getPart] using hv)
  · exact .inl (by simp [State.putPart, Switch.getPart, Tab.get_put_ne _ _ _ _ _ hq])

theorem State.Tends.onEscrow {g : Escrow → Escrow} (h : s₀.Tends z s) (hg : ∀ e, (g e).engine = e.engine := by exact fun _ => rfl) :
    s₀.Tends z (s.onEscrow g) :=
  h.onSw fun w => .quiet (hengine := hg w.escrow)

theorem State.Tends.onMem {g : Mem → Mem} (h : s₀.Tends false s) : s₀.Tends false (s.onMem g) := h.onLoose

theorem State.Tends.onHome {g : Home → Home} (h : s₀.Tends false s) : s₀.Tends false (s.onHome g) := h.onMem

/-- A Syndicate changes, and stays its partition's. -/
theorem State.Tends.putSynd {i : Nat} {x y : Synd} (h : s₀.Tends z s) (hx : s.sw.getSynd i = some x) (hp : x.partition = y.partition := by exact rfl) :
    s₀.Tends z (s.putSynd i y) := by
  refine Switch.Tends.trans h ⟨rfl, fun _ => rfl, fun a ha => ⟨a, ha, rfl, rfl, rfl, rfl⟩, fun _ hi => hi, fun _ => .inl rfl, fun w hw => ?_, rfl, fun _ => rfl⟩
  obtain rfl | hw := Tab.mem_put hw
  · exact ⟨_, Tab.mem_of_find hx, hp⟩
  · exact ⟨w, hw, rfl⟩

/-- The list of active commands changes: none is taken off. -/
theorem State.Tends.onActives {g : Active → Active} (h : s₀.Tends false s) (hg : ∀ a : Active, a.Same (g a)) :
    s₀.Tends false (s.onTeller fun x => { x with active := x.active.map g }) :=
  Switch.Tends.trans h ⟨rfl, fun _ => rfl, fun a ha => ⟨g a, List.mem_map.mpr ⟨a, ha, rfl⟩, hg a⟩, fun _ hi => hi, fun _ => .inl rfl,
    fun y hy => ⟨y, hy, rfl⟩, rfl, nofun⟩

theorem State.Tends.ite {c : Prop} [Decidable c] (h : s₀.Tends z s) (k : s₀.Tends z t) : s₀.Tends z (if c then s else t) := by
  split
  · exact h
  · exact k

theorem State.Tends.each {l : List α} {g : State → α → State} (h : s₀.Tends z s) (hg : ∀ u a, s₀.Tends z u → s₀.Tends z (g u a)) : s₀.Tends z (s.each l g) :=
  State.each_keeps h fun u hu a => hg u a hu

theorem State.Tends.of_eq {p : α × State} {a : α} (h : s₀.Tends z p.2) (e : p = (a, t)) : s₀.Tends z t := by
  rwa [e] at h

/-- The state of an answer that comes with one. -/
theorem State.Tends.pair {a : α} (h : s₀.Tends z s) : s₀.Tends z (a, s).2 := h

theorem State.TendsAny.none : s₀.TendsAny z none := fun _ ht => absurd ht.symm (Option.some_ne_none _)

theorem State.Tends.some (h : s₀.Tends z s) : s₀.TendsAny z (some s) := fun _ ht => Option.some.inj ht ▸ h

theorem State.TendsAny.ite {c : Prop} [Decidable c] {o p : Option State} (h : s₀.TendsAny z o) (k : s₀.TendsAny z p) : s₀.TendsAny z (if c then o else p)
    := by
  split
  · exact h
  · exact k

theorem State.TendsAny.getD {o : Option State} (h : s₀.TendsAny z o) (k : s₀.Tends z s) : s₀.Tends z (o.getD s) := by
  cases o with
  | none => exact k
  | some t => exact h t rfl

theorem State.TendsAny.of_forall {o : Option α} {g : α → State} (hg : ∀ a, s₀.Tends z (g a)) : s₀.TendsAny z (o.map g) := by
  cases o with
  | none => exact .none
  | some a => exact (hg a).some

theorem State.TendsAny.map {o : Option State} {g : State → State} (h : s₀.TendsAny z o) (hg : ∀ u, s₀.Tends z u → s₀.Tends z (g u)) :
    s₀.TendsAny z (o.map g) := by
  cases o with
  | none => exact .none
  | some t => exact (hg t (h t rfl)).some

theorem State.Tends.putLink {d : Dev} {p : Nat} {l : Link} (h : s₀.Tends z s) : s₀.Tends z (s.putLink d p l) := by
  unfold State.putLink
  split
  · exact h.onSw
  · exact h.onEp

theorem State.Tends.countN {block i n : Nat} (h : s₀.Tends z s) : s₀.Tends z (s.countN block i n) :=
  h.trans (State.countN_sent _ _ _ _).tends

theorem State.Tends.count {block i : Nat} (h : s₀.Tends z s) : s₀.Tends z (s.count block i) :=
  h.countN

theorem State.Tends.setEvent {b : Nat} (h : s₀.Tends z s) : s₀.Tends z (s.setEvent b) :=
  h.trans (State.setEvent_report _ _).tends

theorem State.Tends.record {o : Occurrence} (h : s₀.Tends z s) : s₀.Tends z (s.record o) :=
  h.trans (State.record_report _ _).tends

theorem State.Tends.putLedger {p : Nat} {l : Ledger} (h : s₀.Tends z s) : s₀.Tends z (s.putLedger p l) :=
  h.trans (State.putLedger_report _ _ _).tends

theorem State.Tends.noteHigh {p : Nat} (h : s₀.Tends z s) : s₀.Tends z (s.noteHigh p) :=
  h.trans (State.noteHigh_report _ _).tends

theorem State.Tends.ledgerAdd {p : Nat} {e : Entry} (h : s₀.Tends z s) : s₀.Tends z (s.ledgerAdd p e) :=
  h.trans (State.ledgerAdd_report _ _ _).tends

theorem State.Tends.work {kind index : Nat} (h : s₀.Tends z s) : s₀.Tends z (s.work kind index) :=
  h.trans (State.work_sent _ _ _).tends

theorem State.Tends.join {key : Nat} {b : Buffered} (h : s₀.Tends z s) : s₀.Tends z (s.join key b) :=
  h.trans (State.join_sent _ _ _).tends

theorem State.Tends.enqueue {key src : Nat} {f : Frame} (h : s₀.Tends z s) : s₀.Tends z (s.enqueue key src f) :=
  h.trans (State.enqueue_sent _ _ _ _).tends

theorem State.Tends.freeCells {b : Buffered} (h : s₀.Tends z s) : s₀.Tends z (s.freeCells b) :=
  h.trans (State.freeCells_sent _ _).tends

theorem State.Tends.swSend {src : Nat} {f : Frame} (h : s₀.Tends z s) : s₀.Tends z (s.swSend src f) :=
  h.trans (State.swSend_sent _ _ _).tends

theorem State.Tends.collSend {f : Frame} (h : s₀.Tends z s) : s₀.Tends z (s.collSend f) :=
  h.swSend

theorem State.Tends.swSendPort {src p : Nat} {f : Frame} (h : s₀.Tends z s) : s₀.Tends z (s.swSendPort src p f) :=
  h.trans (State.swSendPort_sent _ _ _ _).tends

theorem State.Tends.epSend {p : Nat} {f : Frame} (h : s₀.Tends z s) : s₀.Tends z (s.epSend p f) :=
  h.onEp

theorem State.Tends.takeQueued {key : Nat} {sel : Frame → Bool} (h : s₀.Tends z s) : s₀.Tends z (s.takeQueued key sel).2 :=
  h.onSw.each fun _ _ h => h.freeCells

theorem State.Tends.takeWaiting {sel : Nat → Frame → Bool} (h : s₀.Tends z s) : s₀.Tends z (s.takeWaiting sel).2 :=
  h.onSw (g := fun w => { w with core := _ })

theorem State.Tends.takeUnsent {sel : Frame → Bool} (h : s₀.Tends z s) : s₀.TendsAny z (s.takeUnsent sel) := by
  unfold State.takeUnsent
  split
  · exact h.takeWaiting.some
  · exact .of_forall fun _ => h.takeQueued

theorem State.Tends.cutQueued {key : Nat} {sel : Frame → Bool} (h : s₀.Tends z s) : s₀.Tends z (s.cutQueued key sel).2 :=
  h.onSw

theorem State.Tends.relay {p : Nat} {f : Frame} {cmd : Option (Nat × Nat)} (h : s₀.Tends z s) : s₀.Tends z (s.relay p f cmd) :=
  h.onSw.swSendPort

theorem State.Tends.relayEp {p msub : Nat} {data : List Byte} {cmd : Option (Nat × Nat)} (h : s₀.Tends z s) : s₀.Tends z (s.relayEp p msub data cmd) :=
  h.relay

theorem State.Tends.onLine {l : Nat} {g : LineMeta → LineMeta} (h : s₀.Tends false s) : s₀.Tends false (s.onLine l g) :=
  h.onHome

theorem State.Tends.dropLine {l : Nat} (h : s₀.Tends false s) : s₀.Tends false (s.onMem fun m => m.drop l) := h.onMem

theorem State.Tends.insertLine {n : Nat} {c : CacheLine} (h : s₀.Tends false s) : s₀.Tends false (s.onMem fun m => m.insert n c) :=
  h.onMem

theorem State.Tends.readLine {l slot : Nat} (h : s₀.Tends false s) : s₀.Tends false (s.readLine l slot).2 := by
  unfold State.readLine
  dsimp only
  split
  · exact h.dropLine.ite h.onMem
  · split
    · exact h.dropLine
    · exact h.dropLine.insertLine.ite h.dropLine

theorem State.Tends.writeLine {l slot : Nat} {data : List Byte} (h : s₀.Tends false s) : s₀.Tends false (s.writeLine l slot data) :=
  h.dropLine.insertLine.ite h.dropLine.onHome

theorem State.Tends.settleLine {l : Nat} (h : s₀.Tends false s) : s₀.Tends false (s.settleLine l) :=
  h.onMem

theorem State.Tends.mirrorLine {l : Nat} (h : s₀.Tends false s) : s₀.Tends false (s.mirrorLine l).2 := by
  unfold State.mirrorLine
  dsimp only
  split
  · exact h
  · exact .pair h.settleLine.onMem.emit

theorem State.Tends.mirrorLines {ls : List Nat} (h : s₀.Tends false s) : s₀.Tends false (s.mirrorLines ls).2 := by
  refine List.foldlRecOn (motive := fun a : Option Nat × State => s₀.Tends false a.2) ls _ h fun a ha l _ => ?_
  split
  · split
    · exact ha.mirrorLine
    · exact ha
  · exact ha

theorem State.Tends.onUnit {u : Nat} {g : Unit → Unit} (h : s₀.Tends false s) : s₀.Tends false (s.onUnit u g) :=
  h.onMem

theorem State.Tends.putEntry {e : DirEntry} (h : s₀.Tends false s) : s₀.Tends false (s.putEntry e) :=
  h.onUnit

theorem State.Tends.freeEntry {l : Nat} (h : s₀.Tends false s) : s₀.Tends false (s.freeEntry l) := by
  unfold State.freeEntry
  split
  · exact h
  · exact h.onUnit.putSlot.ite h.onUnit

theorem State.Tends.putBusy {b : Busy} (h : s₀.Tends false s) : s₀.Tends false (s.putBusy b) :=
  h.onUnit

theorem State.Tends.endBusy {l : Nat} (h : s₀.Tends false s) : s₀.Tends false (s.endBusy l) :=
  h.onUnit

theorem State.Tends.dropHolder {l h' : Nat} (h : s₀.Tends false s) : s₀.Tends false (s.dropHolder l h') := by
  unfold State.dropHolder
  split
  · exact h
  · split
    · exact h.freeEntry
    · exact h.putEntry

theorem State.Tends.loseLine {l : Nat} (h : s₀.Tends false s) : s₀.Tends false (s.loseLine l) :=
  h.freeEntry.onLine

theorem State.Tends.uncount {f : Frame} (h : s₀.Tends z s) : s₀.Tends z (s.uncount f) :=
  h.putSlot.ite h

theorem State.Tends.homeRespond {f : Frame} {status : Nat} {data : List Byte} {cache : Nat} (h : s₀.Tends z s) :
    s₀.Tends z (s.homeRespond f status data cache) :=
  h.uncount.swSend

theorem State.Tends.homeFinish {f : Frame} {pos : Nat} {data : List Byte} {lines : List Nat} (h : s₀.Tends false s) :
    s₀.Tends false (s.homeFinish f pos data lines) := by
  have hm : s₀.Tends false (s.mirrorLines lines).2 := h.mirrorLines
  unfold State.homeFinish
  dsimp only
  split
  · exact hm.onMem
  · exact hm.homeRespond

theorem State.Tends.homeAfterMirror {f : Frame} {pos : Nat} (h : s₀.Tends false s) : s₀.Tends false (s.homeAfterMirror f pos) := by
  unfold State.homeAfterMirror
  split
  · split
    · exact h.onMem
    · exact h.homeRespond
  · exact h.homeRespond

theorem State.Tends.logInput {f : Frame} {home src agent : Nat} {data : List Byte} (h : s₀.Tends z s) : s₀.Tends z (s.logInput f home src agent data) :=
  h.ite h.putLedger.noteHigh

theorem State.Tends.logTicker {f : Frame} {tNew v : Nat} {fromOperand : Bool} (h : s₀.Tends z s) : s₀.Tends z (s.logTicker f tNew v fromOperand) :=
  h.ledgerAdd

theorem State.Tends.fenceChannelBase {c : Nat} (h : s₀.Tends false s) : s₀.Tends false (s.fenceChannelBase c) :=
  h.ite h.onMem.record.onMem

theorem State.Tends.sendBackInv {l h' slot : Nat} (h : s₀.Tends z s) : s₀.Tends z (s.sendBackInv l h' slot) :=
  h.swSend

theorem State.Tends.backInvLine {l : Nat} (h : s₀.Tends false s) : s₀.Tends false (s.backInvLine l) := by
  unfold State.backInvLine
  split
  · exact h.ite (h.putBusy.each fun _ _ hu => hu.sendBackInv)
  · exact h

theorem State.Tends.fenceChannel {c : Nat} (h : s₀.Tends false s) : s₀.Tends false (s.fenceChannel c) :=
  h.fenceChannelBase.each fun _ _ h => h.backInvLine

theorem State.Tends.retirePage {c page : Nat} (h : s₀.Tends false s) : s₀.Tends false (s.retirePage c page) :=
  h.ite (h.fenceChannel.ite h.onMem.count.record)

theorem State.Tends.eccSeen {l : Nat} (h : s₀.Tends false s) : s₀.Tends false (s.eccSeen l) :=
  h.count.record.retirePage

theorem State.Tends.eccCorrected {l : Nat} (h : s₀.Tends false s) : s₀.Tends false (s.eccCorrected l) :=
  h.count.onMem.retirePage.ite h.count.onMem

theorem State.Tends.correctLine {l : Nat} (h : s₀.Tends false s) : s₀.Tends false (s.correctLine l) := by
  unfold State.correctLine
  refine h.ite ?_
  split
  · exact h.onLine.eccCorrected
  · exact h

theorem State.Tends.fetchLine {l slot : Nat} (h : s₀.Tends false s) : s₀.Tends false (s.fetchLine l slot).2 :=
  h.correctLine.readLine

theorem State.Tends.readRange {f : Frame} (h : s₀.Tends false s) : s₀.Tends false (s.readRange f).2 := by
  unfold State.readRange
  split
  · refine List.foldlRecOn (motive := fun a : Option (List Byte) × State => s₀.Tends false a.2) f.lines _ h fun a ha l _ => ?_
    dsimp only
    split
    · exact ha
    · split
      · next e => exact (ha.fetchLine.of_eq e).eccSeen
      · next e => exact ha.fetchLine.of_eq e
  · split
    · exact h
    · exact h

theorem State.Tends.partsReadable {f : Frame} (h : s₀.Tends false s) : s₀.Tends false (s.partsReadable f).2 := by
  unfold State.partsReadable
  split
  · refine List.foldlRecOn (motive := fun a : Bool × State => s₀.Tends false a.2) f.lines _ h fun a ha l _ => ?_
    split
    · exact ha
    · split
      · next e => exact (ha.fetchLine.of_eq e).eccSeen
      · next e => exact ha.fetchLine.of_eq e
  · exact h

theorem State.Tends.writeRange {f : Frame} {data : List Byte} (h : s₀.Tends false s) : s₀.Tends false (s.writeRange f data) := by
  unfold State.writeRange
  split
  · refine h.each fun u l hu => ?_
    dsimp only
    split
    · exact hu.writeLine
    · split
      · next e => exact hu.fetchLine.of_eq e
      · next e => exact (hu.fetchLine.of_eq e).writeLine
  · exact h.onHome

theorem State.Tends.refuse {f : Frame} {r : Nat × Bool} (h : s₀.Tends z s) : s₀.Tends z (s.refuse f r) :=
  (((h.record.ite h).count.putSlot.ite (h.record.ite h).count).ite (h.record.ite h)).homeRespond

theorem State.Tends.performRead {f : Frame} {cache : Nat} (h : s₀.Tends false s) : s₀.Tends false (s.performRead f cache) := by
  unfold State.performRead
  split
  · next x1 x2 e3 =>
      have k1 := h.readRange.of_eq e3
      exact k1.homeRespond
  · next x1 x2 x3 e4 =>
      have k1 := h.readRange.of_eq e4
      exact k1.homeRespond

theorem State.Tends.performWrite {f : Frame} {pos : Nat} (h : s₀.Tends false s) : s₀.Tends false (s.performWrite f pos) := by
  unfold State.performWrite
  split
  · next x1 x2 e3 =>
      have k1 := h.partsReadable.of_eq e3
      exact k1.homeRespond
  · next x1 x2 e3 =>
      have k1 := h.partsReadable.of_eq e3
      exact (k1.writeRange.logInput.ite k1.writeRange).homeFinish

theorem State.Tends.performAtomic {f : Frame} {pos : Nat} (h : s₀.Tends false s) : s₀.Tends false (s.performAtomic f pos) := by
  unfold State.performAtomic
  dsimp only
  split
  · next x1 x2 e3 =>
      have k1 := h.readRange.of_eq e3
      exact k1.homeRespond
  · next x1 x2 x3 e4 =>
      have k1 := h.readRange.of_eq e4
      refine .homeFinish ?_
      split
      · exact k1.writeRange.logTicker
      · exact k1.writeRange

theorem State.Tends.performDeposit {f : Frame} {pos : Nat} (h : s₀.Tends false s) : s₀.Tends false (s.performDeposit f pos) :=
  h.writeRange.homeFinish.ite h.writeRange.mirrorLines.putBusy.swSend

theorem State.Tends.sendSnoop {l h' kind slot : Nat} {f : Frame} (h : s₀.Tends z s) : s₀.Tends z (s.sendSnoop l h' kind slot f) :=
  h.swSend

theorem State.Tends.ask {pos : Nat} {f : Frame} {e : DirEntry} {targets : List (Nat × Nat)} {b : Busy} (h : s₀.Tends false s) :
    s₀.Tends false (s.ask pos f e targets b) :=
  h.putBusy.each fun _ _ h => h.sendSnoop

theorem State.Tends.retryFirst {pos : Nat} {f : Frame} (h : s₀.Tends false s) : s₀.Tends false (s.retryFirst pos f) :=
  h.onUnit

theorem State.Tends.grant {pos : Nat} {f : Frame} {cache : Nat} {next : DirEntry} (h : s₀.Tends false s) : s₀.Tends false (s.grant pos f cache next) := by
  unfold State.grant
  refine h.putBusy.homeRespond.ite ?_
  split
  · next x1 x2 e3 =>
      have k1 := h.readRange.of_eq e3
      exact k1.homeRespond
  · next x1 x2 x3 e4 =>
      have k1 := h.readRange.of_eq e4
      exact k1.putBusy.homeRespond

theorem State.Tends.serveGrant {pos : Nat} {f : Frame} (h : s₀.Tends false s) : s₀.Tends false (s.serveGrant pos f) := by
  unfold State.serveGrant
  dsimp only
  split
  · exact h.homeRespond.ite h.grant
  · refine h.ask.ite (.ite (.ite ?_ ?_) (.ite ?_ (h.homeRespond.ite ?_)))
    · split
      · exact h.ask
      · exact h
    · split
      · exact h.grant
      · exact h.ask
    · split
      · exact h.grant.ite h.ask
      · exact h.ask
    · split
      · exact h.grant.ite h.ask
      · exact h.grant.ite h.ask

theorem State.Tends.serveOpen {pos : Nat} {f : Frame} (h : s₀.Tends false s) : s₀.Tends false (s.serveOpen pos f) := by
  unfold State.serveOpen
  refine (h.homeRespond.ite h.serveGrant).ite ?_
  split
  · exact h.ask
  · exact h.homeRespond.ite (h.performRead.ite (h.performAtomic.ite (h.performDeposit.ite h.performWrite)))

theorem State.Tends.serve {pos : Nat} {f : Frame} (h : s₀.Tends false s) : s₀.Tends false (s.serve pos f) := by
  unfold State.serve
  split
  · exact h.refuse
  · exact h.serveOpen

theorem State.Tends.takeBackDue (h : s₀.Tends false s) : s₀.Tends false s.takeBackDue :=
  h.each fun _ _ h => (h.putSlot.ite h).backInvLine

theorem State.Tends.advance {l : Nat} (h : s₀.Tends false s) : s₀.Tends false (s.advance l) := by
  unfold State.advance
  split
  · exact h
  · refine h.ite ?_
    split
    · exact h.endBusy.retryFirst.ite h.endBusy.serve
    · exact h.putBusy.homeRespond
    · refine (h.endBusy.uncount.loseLine.ite h.endBusy.uncount).ite (.ite ?_ h)
      dsimp only
      split
      · exact h.endBusy.uncount.putEntry
      · exact h.endBusy.uncount
    · exact h.freeEntry.endBusy
    · exact h
    · exact h

theorem State.Tends.noteAnswer {l h' result : Nat} (h : s₀.Tends false s) : s₀.Tends false (s.noteAnswer l h' result) := by
  unfold State.noteAnswer
  split
  · exact h
  · split
    · exact h
    · refine ((h.dropHolder.ite (.ite ?_ ?_)).ite (h.ite h.dropHolder)).putBusy
      · split
        · exact h.putEntry
        · exact h
      · split
        · exact h.putEntry
        · exact h

theorem State.Tends.loseBusy {h' : Nat} {b : Busy} (h : s₀.Tends false s) : s₀.Tends false (s.loseBusy h' b) := by
  unfold State.loseBusy
  dsimp only
  split
  · split
    · exact h.putBusy.endBusy.ite h.putBusy
    · exact h.putBusy.putBusy.ite h.putBusy
    · exact h.putBusy.endBusy.homeAfterMirror.ite h.putBusy
    · exact h.putBusy.putBusy.ite h.putBusy
    · exact h.putBusy
  · refine .ite (.ite (.ite (.loseLine (.endBusy ?_)) (.ite (.uncount (.loseLine (.endBusy ?_))) (.homeRespond (.loseLine (.endBusy ?_)))))
      (.noteAnswer ?_)) ?_
    · split
      · exact h.putBusy.endBusy.ite h.putBusy
      · exact h.putBusy.putBusy.ite h.putBusy
      · exact h.putBusy.endBusy.homeAfterMirror.ite h.putBusy
      · exact h.putBusy.putBusy.ite h.putBusy
      · exact h.putBusy
    · split
      · exact h.putBusy.endBusy.ite h.putBusy
      · exact h.putBusy.putBusy.ite h.putBusy
      · exact h.putBusy.endBusy.homeAfterMirror.ite h.putBusy
      · exact h.putBusy.putBusy.ite h.putBusy
      · exact h.putBusy
    · split
      · exact h.putBusy.endBusy.ite h.putBusy
      · exact h.putBusy.putBusy.ite h.putBusy
      · exact h.putBusy.endBusy.homeAfterMirror.ite h.putBusy
      · exact h.putBusy.putBusy.ite h.putBusy
      · exact h.putBusy
    · split
      · exact h.putBusy.endBusy.ite h.putBusy
      · exact h.putBusy.putBusy.ite h.putBusy
      · exact h.putBusy.endBusy.homeAfterMirror.ite h.putBusy
      · exact h.putBusy.putBusy.ite h.putBusy
      · exact h.putBusy
    · split
      · exact h.putBusy.endBusy.ite h.putBusy
      · exact h.putBusy.putBusy.ite h.putBusy
      · exact h.putBusy.endBusy.homeAfterMirror.ite h.putBusy
      · exact h.putBusy.putBusy.ite h.putBusy
      · exact h.putBusy

theorem State.Tends.loseEntry {h' l : Nat} (h : s₀.Tends false s) : s₀.Tends false (s.loseEntry h' l) := by
  unfold State.loseEntry
  split
  · exact h
  · refine .ite ?_ (h.dropHolder.ite h)
    split
    · exact h.loseLine
    · dsimp only
      split
      · exact h.endBusy.loseLine.homeRespond
      · exact h.endBusy.loseLine.homeRespond
      · exact h.endBusy.loseLine.uncount

theorem State.Tends.loseHolder {h' : Nat} (h : s₀.Tends false s) : s₀.Tends false (s.loseHolder h') :=
  ((h.each fun _ _ h => h.loseBusy).each fun _ _ h => h.loseEntry).onHome.each fun _ _ h => h.advance

theorem State.Tends.mgmtOut {d : Dev} {p msub tag : Nat} {data : List Byte} (h : s₀.Tends z s) : s₀.Tends z (s.mgmtOut d p msub tag data) := by
  unfold State.mgmtOut
  split
  · exact h.swSendPort
  · exact h.epSend

theorem State.Tends.putSeen {d : Dev} {l : List (Nat × List Byte)} (h : s₀.Tends z s) : s₀.Tends z (s.putSeen d l) := by
  unfold State.putSeen
  split
  · exact h.onSw
  · exact h.onEp

theorem State.Tends.sendPast {d : Dev} {past : List Nat} {msub : Nat} {data : List Byte} (h : s₀.Tends z s) : s₀.Tends z (s.sendPast d past msub data) :=
  h.each fun _ _ h => h.mgmtOut

theorem State.Tends.floodPast {d : Dev} {past : List Nat} {msub : Nat} {data : List Byte} (h : s₀.Tends z s) : s₀.Tends z (s.floodPast d past msub data)
    :=
  h.ite h.putSeen.sendPast

theorem State.Tends.flood {d : Dev} {came : Option Nat} {msub : Nat} {data : List Byte} (h : s₀.Tends z s) : s₀.Tends z (s.flood d came msub data) :=
  h.floodPast

theorem State.Tends.onSched {d : Dev} {g : Sched → Sched} (h : s₀.Tends z s) : s₀.Tends z (s.onSched d g) := by
  unfold State.onSched
  split
  · exact h.onSw
  · exact h.onEp

theorem State.Tends.onClock {d : Dev} {g : Clock → Clock} (h : s₀.Tends z s) : s₀.Tends z (s.onClock d g) := by
  unfold State.onClock
  split
  · exact h.onSw
  · exact h.onEp

theorem State.Tends.onGate {d : Dev} {p : Nat} {g : GatePos → GatePos} (h : s₀.Tends z s) : s₀.Tends z (s.onGate d p g) := by
  unfold State.onGate
  split
  · exact h.onSw
  · exact h.onEp

theorem State.Tends.closePort {d : Dev} {p : Nat} (h : s₀.Tends z s) : s₀.Tends z (s.closePort d p) :=
  h.onGate

theorem State.Tends.closeGates {d : Dev} (h : s₀.Tends z s) : s₀.Tends z (s.closeGates d) :=
  h.each fun _ _ h => h.closePort

theorem State.Tends.takeBook {d : Dev} {b : Nat} (h : s₀.Tends z s) : s₀.Tends z (s.takeBook d b) := by
  unfold State.takeBook
  refine h.ite ?_
  dsimp only
  split
  · exact h.onSched.setEvent
  · exact h.onSched

theorem State.Tends.sendBookSet {d : Dev} {p : Nat} {c : BookChange} {n : Nat} (h : s₀.Tends z s) : s₀.Tends z (s.sendBookSet d p c n) :=
  h.onSched.mgmtOut

theorem State.Tends.changeBook {b : Nat} (h : s₀.Tends z s) : s₀.Tends z (s.changeBook b) :=
  (h.onSched.takeBook.ite h.onSched).each fun _ _ h => h.sendBookSet

theorem State.Tends.decideBook {held : Bool} (h : s₀.Tends z s) : s₀.Tends z (s.decideBook held) :=
  h.ite (h.changeBook.ite h)

theorem State.Tends.noteReport {sender : Nat} {slow narrow : Bool} (h : s₀.Tends z s) : s₀.Tends z (s.noteReport sender slow narrow) :=
  h.onSched.decideBook

theorem State.Tends.reportNeeds (h : s₀.Tends z s) : s₀.Tends z s.reportNeeds :=
  h.noteReport.ite h.noteReport.flood

theorem State.Tends.refreshNarrow (h : s₀.Tends z s) : s₀.Tends z s.refreshNarrow :=
  h.ite h.onSched.reportNeeds

theorem State.Tends.putEpoch {i : Nat} {e : Epoch} (h : s₀.Tends z s) : s₀.Tends z (s.putEpoch i e) := by
  unfold State.putEpoch
  split
  · next hy => exact h.putSynd hy
  · exact h

theorem State.Tends.sendColl {y : Synd} {e : Epoch} {synd rank typ attempt check chunk status : Nat} (h : s₀.Tends z s) :
    s₀.Tends z (s.sendColl y e synd rank typ attempt check chunk status) := by
  unfold State.sendColl
  split
  · exact h
  · exact h.collSend

theorem State.Tends.sendCollSwitches {y : Synd} {e : Epoch} {synd typ attempt check chunk status : Nat} (h : s₀.Tends z s) :
    s₀.Tends z (s.sendCollSwitches y e synd typ attempt check chunk status) :=
  h.each fun _ _ h => h.collSend

theorem State.Tends.sendResult {y : Synd} {e : Epoch} {synd chunk attempt : Nat} {result : Operand} {all : List (Nat × Operand)} (h : s₀.Tends z s) :
    s₀.Tends z (s.sendResult y e synd chunk attempt result all) := by
  unfold State.sendResult
  refine h.each fun _ _ h => ?_
  split
  · exact h
  · exact h.each fun _ _ hu => hu.collSend

theorem State.Tends.sendPartial {y : Synd} {e : Epoch} {synd chunk attempt level k : Nat} {o : Operand} (h : s₀.Tends z s) :
    s₀.Tends z (s.sendPartial y e synd chunk attempt level k o) :=
  h.each fun _ _ h => h.collSend

theorem State.Tends.computeNow {y : Synd} {e : Epoch} {synd chunk : Nat} (h : s₀.Tends z s) : s₀.Tends z (s.computeNow y e synd chunk) := by
  unfold State.computeNow
  dsimp only
  split
  · exact (h.each fun _ _ hu => hu.sendPartial).putEpoch
  · exact (h.each fun _ _ hu => hu.sendPartial).putEpoch.sendResult

theorem State.Tends.collWait {synd number chunk at_ : Nat} (h : s₀.Tends z s) : s₀.Tends z (s.collWait synd number chunk at_) :=
  h.onEscrow

theorem State.Tends.collRun {synd number chunk n k : Nat} (h : s₀.Tends z s) : s₀.Tends z (s.collRun synd number chunk n k) :=
  h.onEscrow.each fun _ _ h => h.count

theorem State.Tends.computeChunk {synd number chunk : Nat} (h : s₀.Tends z s) : s₀.Tends z (s.computeChunk synd number chunk) := by
  unfold State.computeChunk
  split
  · exact h
  · split
    · exact h
    · refine h.ite (h.computeNow.ite ?_)
      split
      · exact h.collWait
      · exact h.collRun.computeNow.ite h.work.collWait

theorem State.Tends.collFail {synd number chunk : Nat} (h : s₀.Tends z s) : s₀.Tends z (s.collFail synd number chunk) := by
  unfold State.collFail
  dsimp only
  split
  · exact h.onEscrow
  · split
    · exact h.onEscrow
    · exact (h.onEscrow.each fun _ _ hv => hv.count.record).putEpoch

theorem State.Tends.collDispatch (h : s₀.Tends z s) : s₀.Tends z s.collDispatch :=
  h.each fun _ _ h => h.collFail.ite h.computeChunk

theorem State.Tends.closeEpoch {synd number : Nat} (h : s₀.Tends z s) : s₀.Tends z (s.closeEpoch synd number) := by
  unfold State.closeEpoch
  split
  · exact h
  · next hy => exact (h.putSynd hy).onEscrow

theorem State.Tends.abortEpoch {synd number status : Nat} (h : s₀.Tends z s) : s₀.Tends z (s.abortEpoch synd number status) := by
  unfold State.abortEpoch
  split
  · exact h
  · split
    · exact h
    · exact (h.closeEpoch.each fun _ _ hv => hv.sendColl).sendCollSwitches

theorem State.Tends.abortFrom {synd number status : Nat} (h : s₀.Tends z s) : s₀.Tends z (s.abortFrom synd number status) := by
  unfold State.abortFrom
  split
  · exact h
  · refine h.abortEpoch.ite ?_
    split
    · exact h
    · exact h.putEpoch.onEscrow.collSend

theorem State.Tends.cutOff {p : Nat} (h : s₀.Tends z s) : s₀.Tends z (s.cutOff p) :=
  h.each fun _ _ h => h.each fun _ _ hu => (hu.abortEpoch.ite hu).ite (hu.ite (hu.closeEpoch.each fun _ _ hv => hv.sendColl))

theorem State.Tends.lossNotice {i : Nat} {y : Synd} (h : s₀.Tends z s) : s₀.Tends z (s.lossNotice i y) :=
  h.putEpoch.abortFrom

theorem State.Tends.loseMember {h' : Nat} {agent : Option Nat} (h : s₀.Tends z s) : s₀.Tends z (s.loseMember h' agent) := by
  unfold State.loseMember
  refine h.each fun _ _ h => ?_
  split
  · exact h
  · next hy => exact h.ite ((h.putSynd hy).lossNotice.ite ((h.putSynd hy).each fun _ _ hu => hu.abortFrom))

theorem State.Tends.onXlat {g : Xlat → Xlat} (h : s₀.Tends z s) : s₀.Tends z (s.onXlat g) :=
  h.onSw

theorem State.Tends.lookup {e ctx partition cva : Nat} (h : s₀.Tends z s) : s₀.Tends z (s.lookup e ctx partition cva).2 := by
  unfold State.lookup
  dsimp only
  split
  · exact .pair h.onXlat
  · split
    · exact .pair h.onXlat
    · exact h

theorem State.Tends.xlatFault {kind ctx seg partition : Nat} {group : Option Nat} (h : s₀.Tends z s) : s₀.Tends z (s.xlatFault kind ctx seg partition
    group) :=
  h.record

theorem State.Tends.startRead {ctx addr : Nat} {m : Miss} (h : s₀.Tends z s) : s₀.Tends z (s.startRead ctx addr m) := by
  unfold State.startRead
  refine h.ite ?_
  split
  · exact h.ite h.onXlat
  · exact h.ite h.onXlat.emit

theorem State.Tends.readFault {ctx partition : Nat} (h : s₀.Tends z s) : s₀.Tends z (s.readFault ctx partition) :=
  h.xlatFault.onXlat

theorem State.Tends.putGraph {slot : Nat} {g : Graph} (h : s₀.Tends z s) : s₀.Tends z (s.putGraph slot g) :=
  h.onEscrow

theorem State.Tends.onTask {slot t : Nat} {f : Task → Task} (h : s₀.Tends z s) : s₀.Tends z (s.onTask slot t f) := by
  unfold State.onTask
  split
  · exact h
  · exact h.putGraph

theorem State.Tends.sendNow {x : Flight} {tag : Nat} (h : s₀.Tends z s) : s₀.Tends z (s.sendNow x tag) :=
  h.onSw.onEscrow.swSend

theorem State.Tends.sendFlight {x : Flight} (h : s₀.Tends z s) : s₀.Tends z (s.sendFlight x) := by
  unfold State.sendFlight
  split
  · exact h.sendNow
  · exact h.onEscrow

theorem State.Tends.sendRequest {src port : Nat} {f : Frame} {owner : Owner} {engine cva : Nat} {h' : Held} (h : s₀.Tends z s) :
    s₀.Tends z (s.sendRequest src port f owner engine cva h') :=
  h.onEscrow.sendFlight

theorem State.Tends.checkRange {e ctx partition : Nat} {write atomic : Bool} {fuel cva len : Nat} (h : s₀.Tends z s) :
    s₀.Tends z (s.checkRange e ctx partition write atomic fuel cva len).2 := by
  induction fuel generalizing s cva len with
  | zero => exact h
  | succ n ih =>
    unfold State.checkRange
    split
    · exact h
    · split
      · exact h
      · split
        · next e' => exact h.lookup.of_eq e'
        · next e' =>
          have k := h.lookup.of_eq e'
          split
          · exact k
          · exact ih k

theorem State.Tends.checkRanges {e ctx partition : Nat} {l : List Range} (h : s₀.Tends z s) : s₀.Tends z (s.checkRanges e ctx partition l).2 := by
  induction l generalizing s with
  | nil => exact h
  | cons r t ih =>
    unfold State.checkRanges
    split
    · next e' => exact ih (h.checkRange.of_eq e')
    · exact h.checkRange

theorem State.Tends.engineMiss {who ctx partition cva : Nat} (h : s₀.Tends z s) : s₀.Tends z (s.engineMiss who ctx partition cva).2 := by
  unfold State.engineMiss
  dsimp only
  split
  · exact .pair h.onXlat.xlatFault
  · split
    · exact .pair h.xlatFault
    · split
      · exact .pair h.readFault
      · exact .pair h.startRead

theorem State.Tends.releaseTask {slot t : Nat} (h : s₀.Tends z s) : s₀.Tends z (s.releaseTask slot t) := by
  unfold State.releaseTask
  split
  · exact h
  · split
    · exact h
    · exact h.ite (h.onTask.ite (h.ite (h.onEscrow.ite h).onTask))

theorem State.Tends.endTask {slot t status : Nat} (h : s₀.Tends z s) : s₀.Tends z (s.endTask slot t status) :=
  h.onTask.releaseTask

theorem State.Tends.answerSelf {slot t i e : Nat} {a : Access} {st : Nat} (h : s₀.Tends z s) : s₀.Tends z (s.answerSelf slot t i e a st) := by
  unfold State.answerSelf
  refine .onTask ?_
  split
  · exact h
  · exact h.onEscrow

theorem State.Tends.issue {slot t e ctx partition cls i : Nat} {l : List Access} (h : s₀.Tends z s) :
    s₀.Tends z (s.issue slot t e ctx partition cls i l) := by
  induction l generalizing s i with
  | nil => exact h
  | cons a rest ih =>
    unfold State.issue
    refine ih ?_
    split
    · next e' => exact (h.lookup.of_eq e').answerSelf
    · next e' =>
      have k := h.lookup.of_eq e'
      split
      · exact k.answerSelf
      · dsimp only
        split
        · exact k.answerSelf
        · split
          · exact k.answerSelf
          · exact k.onTask
          · exact k.onTask.sendRequest

theorem State.Tends.checkFailed {slot t e ctx partition : Nat} {c : Checked} (h : s₀.Tends z s) :
    s₀.Tends z (s.checkFailed slot t e ctx partition c) := by
  unfold State.checkFailed
  split
  · exact h
  · exact h.endTask
  · exact h.xlatFault.endTask
  · split
    · next e' => exact (h.engineMiss.of_eq e').onTask
    · next e' => exact (h.engineMiss.of_eq e').endTask

theorem State.Tends.runProg {slot t e ctx partition cls : Nat} {g : Prog} (h : s₀.Tends z s) : s₀.Tends z (s.runProg slot t e ctx partition cls g) := by
  induction g generalizing s with
  | done st => exact h.endTask
  | check rs next ih =>
    unfold State.runProg
    split
    · next e' => exact ih (h.checkRanges.of_eq e').onTask
    · next e' => exact (h.checkRanges.of_eq e').checkFailed
  | ask accs next ih =>
    unfold State.runProg
    split
    · next u e' =>
      have k : s₀.Tends z ((u.onTask slot t fun x => { x with phase := [], outstanding := 0 }).issue slot t e ctx partition cls 0 accs) :=
        (h.checkRanges.of_eq e').onTask.issue
      dsimp only
      split
      · exact k
      · exact k.ite (ih _ k.onTask)
    · next e' => exact (h.checkRanges.of_eq e').checkFailed

theorem State.Tends.resumeTask {slot t : Nat} (h : s₀.Tends z s) : s₀.Tends z (s.resumeTask slot t) := by
  unfold State.resumeTask
  split
  · exact h
  · split
    · exact h
    · exact h.ite (h.onTask.ite h.onTask.runProg)

theorem State.Tends.startTask {slot t e : Nat} (h : s₀.Tends z s) : s₀.Tends z (s.startTask slot t e) :=
  h.onTask.putEngine.work.count.resumeTask

theorem State.Tends.dispatch (h : s₀.Tends z s) : s₀.Tends z s.dispatch := by
  unfold State.dispatch
  refine h.collDispatch.each fun _ _ h => h.onTask.ite (.ite ?_ (h.startTask.ite h))
  split
  · exact h.startTask
  · exact h

theorem State.Tends.readyUp {slot : Nat} (h : s₀.Tends z s) : s₀.Tends z (s.readyUp slot) := by
  unfold State.readyUp
  split
  · exact h
  · exact h.putGraph.onEscrow

theorem State.Tends.failTask {slot t status : Nat} (h : s₀.Tends z s) : s₀.Tends z (s.failTask slot t status) := by
  unfold State.failTask
  split
  · exact h
  · exact h.onTask.count.record

theorem State.Tends.cancelTasks {slot : Nat} {p : Nat → Bool} (h : s₀.Tends z s) : s₀.Tends z (s.cancelTasks slot p) := by
  unfold State.cancelTasks
  split
  · exact h
  · exact h.each fun _ _ hu => hu.failTask.ite hu.onTask

theorem State.Tends.doneLost {partition tag : Nat} (h : s₀.Tends z s) : s₀.Tends z (s.doneLost partition tag) :=
  h.record

theorem State.Tends.freeSlot {slot : Nat} (h : s₀.Tends z s) : s₀.Tends z (s.freeSlot slot) :=
  h.onEscrow

theorem State.Tends.writeDone {slot : Nat} {g : Graph} (h : s₀.Tends z s) : s₀.Tends z (s.writeDone slot g) := by
  unfold State.writeDone
  dsimp only
  split
  · next x1 x2 e3 =>
      have k1 := h.checkRange.of_eq e3
      exact k1.doneLost.freeSlot
  · next x1 x2 x3 x4 e5 =>
      have k1 := h.checkRange.of_eq e5
      exact k1.xlatFault.doneLost.freeSlot
  · next x1 x2 x3 e4 =>
      have k1 := h.checkRange.of_eq e4
      split
      · next x1 x2 e3 =>
          have k2 := k1.engineMiss.of_eq e3
          exact k2.putGraph
      · next x1 x2 x3 e4 =>
          have k2 := k1.engineMiss.of_eq e4
          exact k2.doneLost.freeSlot
  · next x1 x2 e3 =>
      have k1 := h.checkRange.of_eq e3
      exact k1.doneLost.freeSlot.ite (k1.putGraph.each fun _ _ hu => hu.sendRequest)

theorem State.Tends.endGraph {slot : Nat} (h : s₀.Tends z s) : s₀.Tends z (s.endGraph slot) := by
  unfold State.endGraph
  split
  · exact h
  · exact h.ite (h.count.doneLost.freeSlot.ite (h.count.freeSlot.ite h.count.writeDone))

theorem State.Tends.settleTask {slot t status : Nat} {fencedEngine : Bool} (h : s₀.Tends z s) : s₀.Tends z (s.settleTask slot t status fencedEngine) := by
  unfold State.settleTask
  split
  · exact (h.putEngine.ite h).onTask.readyUp.ite (((h.putEngine.ite h).onTask.ite (h.putEngine.ite h).onTask.onEscrow).ite (h.putEngine.ite
      h).failTask.cancelTasks)
  · exact h

theorem State.Tends.putMbox {m : Nat} {x : FabMbox} (h : s₀.Tends z s) : s₀.Tends z (s.putMbox m x) :=
  h.onEscrow

theorem State.Tends.admitGraph {slot : Nat} {g : Graph} (h : s₀.Tends z s) : s₀.Tends z (s.admitGraph slot g) :=
  h.putMbox.putGraph.readyUp

theorem State.Tends.emptyMbox {m result task tag : Nat} (h : s₀.Tends z s) : s₀.Tends z (s.emptyMbox m result task tag) :=
  h.putMbox

theorem State.Tends.escrowRespond {f : Frame} {status : Nat} {data : List Byte} (h : s₀.Tends z s) : s₀.Tends z (s.escrowRespond f status data) :=
  h.trans (State.escrowRespond_sent _ _ _ _).tends

theorem State.Tends.takeSlot {slot : Nat} {g : Graph} {f : Frame} (h : s₀.Tends z s) : s₀.Tends z (s.takeSlot slot g f) :=
  h.emptyMbox.escrowRespond.ite h.admitGraph.escrowRespond

theorem State.Tends.admitAged {x : Submission} (h : s₀.Tends z s) : s₀.Tends z (s.admitAged x) :=
  h.free.onEscrow.emptyMbox.escrowRespond

theorem State.Tends.admitWaiting (h : s₀.Tends z s) : s₀.Tends z s.admitWaiting := by
  unfold State.admitWaiting
  refine h.each fun _ _ h => ?_
  split
  · exact h
  · exact h.admitAged.ite h.onEscrow.takeSlot

theorem State.Tends.retryMisses (h : s₀.Tends z s) : s₀.Tends z s.retryMisses := by
  unfold State.retryMisses
  refine (h.each fun _ _ h => ?_).each fun _ _ h => h.writeDone.ite h
  split
  · exact h.resumeTask.ite h
  · exact h

theorem State.Tends.escrowRound (h : s₀.Tends z s) : s₀.Tends z s.escrowRound := by
  unfold State.escrowRound
  refine ((h.each fun _ _ h => h.settleTask.ite ?_).onEscrow.retryMisses.each fun _ _ h => h.endGraph).admitWaiting
  split
  · exact h.settleTask.ite h
  · exact h

theorem State.Tends.escrowRounds {n : Nat} (h : s₀.Tends z s) : s₀.Tends z (State.escrowRounds n s) := by
  induction n generalizing s with
  | zero => exact h.escrowRound
  | succ n ih =>
    unfold State.escrowRounds
    dsimp only
    split
    · exact h.escrowRound
    · exact ih h.escrowRound

theorem State.Tends.escrowSettle (h : s₀.Tends z s) : s₀.Tends z s.escrowSettle :=
  h.escrowRounds.dispatch

theorem State.Tends.withdrawFlight {x : Flight} (h : s₀.Tends z s) : s₀.Tends z (s.withdrawFlight x) :=
  h.takeUnsent.getD h

theorem State.Tends.dropFlights {e : Nat} (h : s₀.Tends z s) : s₀.Tends z (s.dropFlights e) := by
  unfold State.dropFlights
  exact (h.each fun _ _ h => h.withdrawFlight).onEscrow

theorem State.Tends.stopEngine {e : Nat} (h : s₀.Tends z s) : s₀.Tends z (s.stopEngine e) := by
  unfold State.stopEngine
  dsimp only
  split
  · exact h.dropFlights
  · exact h.dropFlights.settleTask

theorem State.Tends.fenceEngines {es : List Nat} (h : s₀.Tends false s) : s₀.Tends false (s.fenceEngines es) :=
  h.ite (((h.each fun _ _ h => h.setEngine).each fun _ _ h => h.stopEngine).each fun _ _ h => h.record).escrowSettle

theorem State.Tends.fenceEngine {e : Nat} (h : s₀.Tends false s) : s₀.Tends false (s.fenceEngine e) :=
  h.fenceEngines

theorem State.Tends.cancelGraphFor {slot : Nat} {g : Graph} {why : Cancel} (h : s₀.Tends z s) : s₀.Tends z (s.cancelGraphFor slot g why) := by
  unfold State.cancelGraphFor
  exact h.putGraph.cancelTasks

theorem State.Tends.cancelUnstarted {p : Nat} (h : s₀.Tends z s) : s₀.Tends z (s.cancelUnstarted p) :=
  h.each fun _ _ h => h.cancelGraphFor

theorem State.Tends.cancelPartition {p : Nat} (h : s₀.Tends z s) : s₀.Tends z (s.cancelPartition p) :=
  h.cancelUnstarted.escrowSettle

theorem State.Tends.epRaise {kind : Nat} (h : s₀.Tends z s) : s₀.Tends z (s.epRaise kind) :=
  h.onEp

theorem State.Tends.enterHoldover {d : Dev} (h : s₀.Tends z s) : s₀.Tends z (s.enterHoldover d) := by
  unfold State.enterHoldover
  refine h.onClock.ite ?_
  dsimp only
  split
  · exact h.onClock.closeGates.record
  · exact h.onClock.closeGates.epRaise

theorem State.Tends.retime {d : Dev} (h : s₀.Tends z s) : s₀.Tends z (s.retime d) := by
  unfold State.retime
  refine h.onClock.ite ?_
  split
  · exact h.enterHoldover
  · exact h.onClock.closeGates.ite h.onClock

theorem State.Tends.sourceFails {d : Dev} (h : s₀.Tends z s) : s₀.Tends z (s.sourceFails d) := by
  unfold State.sourceFails
  split
  · exact h
  · exact h.onClock.retime

theorem State.Tends.lostSource {d : Dev} {p : Nat} (h : s₀.Tends z s) : s₀.Tends z (s.lostSource d p) :=
  h.sourceFails.ite h

theorem State.Tends.finishWork {fn mb status : Nat} {rsp : List Byte} (h : s₀.Tends false s) : s₀.Tends false (s.finishWork fn mb status rsp) :=
  h.onActives fun a => by
    split
    · exact ⟨rfl, rfl, rfl, rfl⟩
    · exact ⟨rfl, rfl, rfl, rfl⟩

theorem State.Tends.onActive {fn mb : Nat} {g : Active → Active} (h : s₀.Tends false s) (hg : ∀ a : Active, a.Same (g a)) :
    s₀.Tends false (s.onActive fn mb g) :=
  h.onActives fun a => by
    split
    · exact hg a
    · exact ⟨rfl, rfl, rfl, rfl⟩

theorem State.Tends.setPort {p : Nat} {l : Link} (h : s₀.Tends z s) : s₀.Tends z (s.setPort p l) :=
  ((h.putLink.setEvent.ite h.putLink).onXlat.ite (h.putLink.setEvent.ite h.putLink)).refreshNarrow

theorem State.Tends.onPort {p : Nat} {g : Link → Link} (h : s₀.Tends z s) : s₀.Tends z (s.onPort p g) :=
  h.setPort

theorem State.Tends.answerFor {f : Frame} {status : Nat} (h : s₀.Tends z s) : s₀.Tends z (s.answerFor f status) := by
  unfold State.answerFor
  refine .ite ?_ h
  dsimp only
  split
  · exact h.uncount
  · exact h.uncount.enqueue

theorem State.Tends.keepCell {b : Buffered} (h : s₀.Tends z s) : s₀.Tends z (s.keepCell b).2 :=
  h.freeCells

theorem State.Tends.answerIn {b : Buffered} {status : Nat} (h : s₀.Tends z s) : s₀.Tends z (s.answerIn b status) := by
  unfold State.answerIn
  refine .ite ?_ h.freeCells
  dsimp only
  split
  · exact h.uncount.freeCells
  · exact h.uncount.keepCell.join

theorem State.Tends.unreached {f : Frame} (h : s₀.Tends z s) : s₀.Tends z (s.unreached f) :=
  h.swSend

theorem State.Tends.discard {f : Frame} {status : Nat} (h : s₀.Tends z s) : s₀.Tends z (s.discard f status) :=
  h.unreached.ite h.answerFor

theorem State.Tends.discardIn {b : Buffered} {status : Nat} (h : s₀.Tends z s) : s₀.Tends z (s.discardIn b status) :=
  h.freeCells.unreached.ite h.answerIn

theorem State.Tends.noteDiscard {p : Nat} (h : s₀.Tends z s) : s₀.Tends z (s.noteDiscard p) :=
  h.onSw

theorem State.Tends.endCut {o : Nat} (h : s₀.Tends z s) : s₀.Tends z (s.endCut o) := by
  unfold State.endCut
  split
  · exact h
  · exact h.onSw.freeCells

theorem State.Tends.voidOut {o reason : Nat} (h : s₀.Tends z s) : s₀.Tends z (s.voidOut o reason) :=
  h.endCut.onSw.emit.ite h.endCut.onSw

theorem State.Tends.voidFrames {p : Nat} {sel : Buffered → Bool} {reason : Nat} (h : s₀.Tends z s) : s₀.Tends z (s.voidFrames p sel reason) :=
  (h.onSw.each fun _ _ h => h.freeCells).each fun _ _ h => h.voidOut

theorem State.Tends.cutOpen {p reason : Nat} (h : s₀.Tends z s) : s₀.Tends z (s.cutOpen p reason) :=
  h.voidFrames

theorem State.Tends.voidFree {o : Nat} (h : s₀.Tends z s) : s₀.Tends z (s.voidFree o) :=
  h.free.voidOut.ite h

theorem State.Tends.discardQueues {p : Nat} (h : s₀.Tends z s) : s₀.Tends z (s.discardQueues p) :=
  (h.voidFree.onSw.each fun _ _ h => h.onSw.each fun _ _ hu => hu.noteDiscard.discardIn).each fun _ _ h => h.noteDiscard.discard

theorem State.Tends.loseTarget {h' : Nat} (h : s₀.Tends z s) : s₀.Tends z (s.loseTarget h') :=
  ((h.each fun _ _ h => h.onSw.each fun _ _ hu => hu.answerIn).onSw.each fun _ _ h => h.answerFor).onSw.each fun _ _ h => h.answerFor

theorem State.Tends.leavePort {p : Nat} {st : PortState} {why : Nat} (h : s₀.Tends z s) : s₀.Tends z (s.leavePort p st why) := by
  unfold State.leavePort
  refine State.Tends.onSw ?_
  exact h.onPort.cutOpen.discardQueues

theorem State.Tends.fencePort {p why : Nat} (h : s₀.Tends false s) : s₀.Tends false (s.fencePort p why) := by
  unfold State.fencePort
  exact h.leavePort.lostSource.cutOff.ite (h.leavePort.lostSource.loseTarget.ite h.leavePort.lostSource.onSw).loseHolder.loseMember

theorem State.Tends.retrain {p : Nat} (h : s₀.Tends z s) : s₀.Tends z (s.retrain p) :=
  h.leavePort.lostSource.ite h.leavePort.emit.lostSource

theorem State.Tends.ackInval {number engines : Nat} {f : Frame} (h : s₀.Tends z s) : s₀.Tends z (s.ackInval number engines f) :=
  h.swSend

theorem State.Tends.invalCheck {x : Inval} (h : s₀.Tends false s) : s₀.Tends false (s.invalCheck x) := by
  unfold State.invalCheck
  refine h.onXlat.ite ?_
  dsimp only
  split
  · exact (h.each fun _ _ hu => hu.ackInval).onXlat.finishWork.ite (h.each fun _ _ hu => hu.ackInval).onXlat
  · exact (h.each fun _ _ hu => hu.ackInval).onXlat

theorem State.Tends.invalPoll (h : s₀.Tends false s) : s₀.Tends false s.invalPoll :=
  h.each fun _ _ h => h.invalCheck

theorem State.Tends.invalGone {h' : Nat} (h : s₀.Tends false s) : s₀.Tends false (s.invalGone h') :=
  h.onXlat.invalPoll

theorem State.Tends.onEpRec {h' : Nat} {g : EpRec → EpRec} (h : s₀.Tends z s) : s₀.Tends z (s.onEpRec h' g) :=
  h.onSw

theorem State.Tends.verdictOut {p h' : Nat} {data : List Byte} (h : s₀.Tends z s) : s₀.Tends z (s.verdictOut p h' data) :=
  h.count.emit.ite h

theorem State.Tends.applyVerdict {h' old cause : Nat} {came : Option Nat} (h : s₀.Tends false s) : s₀.Tends false (s.applyVerdict h' old cause came) :=
  h.ite (h.onEpRec.floodPast.loseTarget.verdictOut.fencePort.ite h.onEpRec.floodPast.loseTarget).loseHolder.loseMember.invalGone.record

theorem State.Tends.giveVerdict {h' cause : Nat} (h : s₀.Tends false s) : s₀.Tends false (s.giveVerdict h' cause) := by
  unfold State.giveVerdict
  split
  · exact h
  · split
    · next hstate => exact Switch.Tends.trans h ⟨rfl, fun hne => absurd hstate hne, fun a ha => ⟨a, ha, rfl, rfl, rfl, rfl⟩, fun _ hi => hi, fun _ => .inl rfl,
        fun y hy => ⟨y, hy, rfl⟩, rfl, nofun⟩
    · exact h.applyVerdict

theorem State.Tends.fenceAgent {h' a : Nat} (h : s₀.Tends false s) : s₀.Tends false (s.fenceAgent h' a) :=
  h.ite (h.onLoose.record.loseMember.mgmtOut.ite h.onLoose.record.loseMember)

theorem State.Tends.clearAgent {h' a : Nat} (h : s₀.Tends false s) : s₀.Tends false (s.clearAgent h' a) :=
  h.onLoose.mgmtOut.ite h.onLoose

theorem State.Tends.onRegion {i : Nat} {g : Region → Region} (h : s₀.Tends false s) : s₀.Tends false (s.onRegion i g) :=
  h.onHome

theorem State.Tends.regionCheck (h : s₀.Tends false s) : s₀.Tends false s.regionCheck := by
  unfold State.regionCheck
  refine (h.takeBackDue.each fun _ _ h => h.onHome.onRegion).each fun _ _ h => h.ite ?_
  split
  · exact h.finishWork.ite h
  · exact h

theorem State.Tends.regionGone (h : s₀.Tends false s) : s₀.Tends false s.regionGone := by
  unfold State.regionGone
  refine State.Tends.regionCheck (State.Tends.onHome (h.each fun _ _ hu => ?_))
  exact hu.onActive fun _ => ⟨rfl, rfl, rfl, rfl⟩

theorem State.Tends.onPower {g : Power → Power} (h : s₀.Tends z s) : s₀.Tends z (s.onPower g) :=
  h.onSw

theorem State.Tends.onDomain {kind index : Nat} {g : Domain → Domain} (h : s₀.Tends z s) : s₀.Tends z (s.onDomain kind index g) :=
  h.onPower

theorem State.Tends.beginExit {kind index : Nat} (h : s₀.Tends z s) : s₀.Tends z (s.beginExit kind index) :=
  h.onDomain.emit.ite h.onDomain

theorem State.Tends.revote {kind index : Nat} (h : s₀.Tends z s) : s₀.Tends z (s.revote kind index) := by
  unfold State.revote
  exact (h.onDomain.ite h).ite (h.ite (h.onDomain.ite h.beginExit))

theorem State.Tends.revoteAll (h : s₀.Tends z s) : s₀.Tends z s.revoteAll :=
  h.each fun _ _ h => h.revote

theorem State.Tends.beginRetire {k : Nat} {removal : Bool} (h : s₀.Tends false s) : s₀.Tends false (s.beginRetire k removal) :=
  ((h.putSlot (by simp)).each fun _ _ h => h.relayEp).cancelPartition.takeBackDue

theorem State.Tends.dropEngineXlat {e : Nat} (h : s₀.Tends z s) : s₀.Tends z (s.dropEngineXlat e) :=
  h.onXlat

theorem State.Tends.zeroScratch {e : Nat} (h : s₀.Tends false s) : s₀.Tends false (s.zeroScratch e) :=
  h.each fun _ _ h => h.onHome.ite h

theorem State.Tends.giveEngine {e owner : Nat} (h : s₀.Tends false s) : s₀.Tends false (s.giveEngine e owner) := by
  unfold State.giveEngine
  exact h.zeroScratch.dropEngineXlat.onEscrow.onLoose

theorem State.Tends.givePool {g owner : Nat} (h : s₀.Tends false s) : s₀.Tends false (s.givePool g owner) :=
  h.onLoose

theorem State.Tends.releasePartition {p : Nat} (h : s₀.Tends false s) : s₀.Tends false (s.releasePartition p) :=
  ((h.each fun _ _ h => h.stopEngine.giveEngine).each fun _ _ h => h.givePool).onHome.onEscrow.onSw.endPart.revoteAll

theorem State.Tends.retireCheck (h : s₀.Tends false s) : s₀.Tends false s.retireCheck := by
  unfold State.retireCheck
  refine h.each fun _ _ h => h.ite (h.finishWork.ite (.ite ?_ h))
  split
  · exact h.releasePartition.finishWork
  · exact h

theorem State.Tends.zeroise {k : Nat} (h : s₀.Tends false s) : s₀.Tends false (s.zeroise k) := by
  unfold State.zeroise
  have hf : s₀.Tends false (s.onMem fun m => m.flushCache fun c => c.slot == k) := h.onMem
  exact (hf.putSlot (by simp)).ledgerAdd.retireCheck

theorem State.Tends.retireDone {k : Nat} (h : s₀.Tends false s) : s₀.Tends false (s.retireDone k) :=
  h.zeroise.ite h

theorem State.Tends.dropHeld {f : Frame} (h : s₀.Tends false s) : s₀.Tends false (s.dropHeld f) := by
  unfold State.dropHeld
  exact h.onMem.onSw

theorem State.Tends.retireForce {k : Nat} (h : s₀.Tends false s) : s₀.Tends false (s.retireForce k) := by
  unfold State.retireForce
  refine (((h.each fun _ _ h => h.dropHeld.homeRespond).each fun _ _ h => h.fenceAgent).each fun _ _ h => ?_).putSlot.retireDone
  split
  · exact h
  · refine (h.each fun _ _ hu => .loseEntry ?_).advance
    split
    · exact hu.loseBusy
    · exact hu

end

end Sys2Proof.Machine

namespace Sys2Proof.Machine

/-! ### What still work leaves -/

section
variable {s t : State}

theorem State.Tends.teller (h : s.Tends true t) : t.sw.teller = s.sw.teller := congrArg Prod.fst (Switch.Tends.still h rfl)

theorem State.Tends.mem (h : s.Tends true t) : t.sw.mem = s.sw.mem := congrArg (·.2.1) (Switch.Tends.still h rfl)

theorem State.Tends.cfg (h : s.Tends true t) : t.sw.sys.cfg = s.sw.sys.cfg := congrArg (·.2.2.2.2.1) (Switch.Tends.still h rfl)

theorem State.Tends.engine (h : s.Tends true t) (e : Nat) :
    (t.sw.getEngine e).fenced = (s.sw.getEngine e).fenced ∧ (t.sw.getEngine e).resetting = (s.sw.getEngine e).resetting :=
  Prod.mk.inj (congrFun (congrArg (·.2.2.2.2.2) (Switch.Tends.still h rfl)) e)

end

/-! ### DEV_RESET (17 R435, 19 R484) -/

theorem AnswerFrame.getLink {s t : State} (h : AnswerFrame s t) (p : Nat) : t.sw.getLink p = s.sw.getLink p := by
  rw [h.1]
  rfl

theorem AnswerFrame.getEngine {s t : State} (h : AnswerFrame s t) (e : Nat) : t.sw.getEngine e = s.sw.getEngine e := by
  rw [h.1]
  rfl

/-- A command that works on after still work of its commit. -/
theorem Accepted.worksStill {k : Form} {fn mb : Nat} {s u : State} {work : Work} {holds : List Obj} {data : List Nat} (h : Accepted k fn mb s)
    (hc : k.commit (s.sw.cmdOf fn mb k.len) (s.dequeued fn mb) = (.later work holds data, u)) (hs : k.start = fun _ s => s)
    (hteller : u.sw.teller = (s.dequeued fn mb).sw.teller) (hmem : u.sw.mem = s.sw.mem) :
    Working fn mb work holds data s (s.takeCommand k fn mb) ∧ (s.takeCommand k fn mb).sw.mem = s.sw.mem ∧ AnswerFrame u (s.takeCommand k fn mb) := by
  obtain ⟨hworking, hframe⟩ := h.working hc hs (by rw [hteller]; rfl) (by rw [hteller]; rfl) (by rw [hteller]; rfl)
  exact ⟨hworking, hframe.mem.trans hmem, hframe⟩

/-- A port that trains again is in DETECT, or DOWN without a cable or a configuration. -/
theorem State.retrain_state (s : State) (p : Nat) :
    ((s.retrain p).sw.getLink p).state = if s.sw.sys.noCable.contains p || s.sw.sys.configDefault then .down else .detect := by
  unfold State.retrain
  split
  · obtain ⟨⟨n, hlink⟩, -⟩ := s.leavePort_fresh p .down 0
    exact congrArg Link.state (((State.lostSource_untouched _ .sw p).getLink .sw p).trans hlink)
  · obtain ⟨⟨n, hlink⟩, -⟩ := s.leavePort_fresh p .detect 0
    have hlost := State.lostSource_untouched ((s.leavePort p .detect 0).emit (.tickClock .sw p)) .sw p
    exact congrArg Link.state (((hlost.getLink .sw p).trans (State.emit_getLink _ _ .sw p)).trans hlink)

@[simp] theorem State.putEngine_getEngine (s : State) (e : Nat) (v : Engine) : (s.putEngine e v).sw.getEngine e = v := Tab.get_put_self _ _ _ _

theorem State.putEngine_getEngine_ne (s : State) {e i : Nat} (v : Engine) (h : i ≠ e) : (s.putEngine e v).sw.getEngine i = s.sw.getEngine i :=
  Tab.get_put_ne _ _ _ _ _ h

/-- A change of an engine leaves the Teller and the memory system. -/
theorem State.resetEngine_leaves (s : State) (e : Nat) : (s.resetEngine e).sw.teller = s.sw.teller ∧ (s.resetEngine e).sw.mem = s.sw.mem := by
  have h : s.Tends true ((s.stopEngine e).dropEngineXlat e) := State.Tends.dropEngineXlat (State.Tends.stopEngine (State.Tends.refl s))
  have hput (u : State) (v : Engine) : (u.putEngine e v).sw.teller = u.sw.teller ∧ (u.putEngine e v).sw.mem = u.sw.mem := ⟨rfl, rfl⟩
  unfold State.resetEngine
  dsimp only
  rw [(hput _ _).1, (hput _ _).2]
  exact ⟨h.teller, h.mem⟩

theorem State.resetEngine_resets (s : State) (e : Nat) :
    ((s.resetEngine e).sw.getEngine e).resetting = true ∧ ((s.resetEngine e).sw.getEngine e).fenced = false := by
  unfold State.resetEngine
  dsimp only
  rw [State.putEngine_getEngine]
  exact ⟨rfl, rfl⟩

theorem State.resetEngine_keeps (s : State) (e i : Nat) (h : (s.sw.getEngine i).resetting = true ∧ (s.sw.getEngine i).fenced = false) :
    ((s.resetEngine e).sw.getEngine i).resetting = true ∧ ((s.resetEngine e).sw.getEngine i).fenced = false := by
  by_cases hi : i = e
  · rw [hi]
    exact State.resetEngine_resets s e
  · have hstill : s.Tends true ((s.stopEngine e).dropEngineXlat e) := (State.Tends.refl s).stopEngine.dropEngineXlat
    obtain ⟨hfenced, hresetting⟩ := hstill.engine i
    unfold State.resetEngine
    dsimp only
    rw [State.putEngine_getEngine_ne _ _ hi, hfenced, hresetting]
    exact h

theorem State.resetEngines_leaves (s : State) (l : List Nat) :
    (s.each l fun u e => u.resetEngine e).sw.teller = s.sw.teller ∧ (s.each l fun u e => u.resetEngine e).sw.mem = s.sw.mem :=
  State.each_keeps (P := fun u => u.sw.teller = s.sw.teller ∧ u.sw.mem = s.sw.mem) ⟨rfl, rfl⟩ fun u hu e => by
    obtain ⟨hteller, hmem⟩ := u.resetEngine_leaves e
    exact ⟨hteller.trans hu.1, hmem.trans hu.2⟩

theorem State.resetEngines_reset (s : State) {l : List Nat} {e : Nat} (he : e ∈ l) :
    ((s.each l fun u i => u.resetEngine i).sw.getEngine e).resetting = true ∧ ((s.each l fun u i => u.resetEngine i).sw.getEngine e).fenced = false :=
  State.each_reaches (I := fun _ => True) (P := fun u => (u.sw.getEngine e).resetting = true ∧ (u.sw.getEngine e).fenced = false) he
    (fun _ _ _ => trivial) (fun u _ => u.resetEngine_resets e) (fun u i hu => u.resetEngine_keeps i e hu) trivial

theorem mem_coreEngines {e k : Nat} (h : e / 8 = k) : e ∈ coreEngines k :=
  List.mem_map.mpr ⟨e % 8, List.mem_range.mpr (Nat.mod_lt _ (by decide)), by omega⟩

section
variable {fn mb index : Nat} {s : State}

/-- Engines are reset, and what follows a change of engines is done. -/
theorem Accepted.resets {holds : List Obj} {l : List Nat} (h : Accepted devResetForm fn mb s)
    (hc : devResetForm.commit (s.sw.cmdOf fn mb 8) (s.dequeued fn mb) = (.later .reset holds [], ((s.dequeued fn mb).each l fun u e => u.resetEngine e).escrowSettle)) :
    Working fn mb .reset holds [] s (s.takeCommand devResetForm fn mb) ∧ (s.takeCommand devResetForm fn mb).sw.mem = s.sw.mem
      ∧ ∀ e ∈ l, ((s.takeCommand devResetForm fn mb).sw.getEngine e).resetting = true
        ∧ ((s.takeCommand devResetForm fn mb).sw.getEngine e).fenced = false := by
  obtain ⟨hteller, hmem⟩ := (s.dequeued fn mb).resetEngines_leaves l
  have hreset {e : Nat} (he : e ∈ l) := (s.dequeued fn mb).resetEngines_reset he
  generalize ((s.dequeued fn mb).each l fun u e => u.resetEngine e) = u at hteller hmem hreset hc
  have hsettle : u.Tends true u.escrowSettle := (State.Tends.refl u).escrowSettle
  obtain ⟨hworking, hkept, hframe⟩ := h.worksStill hc rfl (hsettle.teller.trans hteller) (hsettle.mem.trans hmem)
  refine ⟨hworking, hkept, fun e he => ?_⟩
  obtain ⟨hfenced, hresetting⟩ := hsettle.engine e
  rw [hframe.getEngine, hfenced, hresetting]
  exact hreset he

theorem devReset_commit {c : Cmd} {s : State} {kind : Nat} (h : c.num 0x80 1 = kind) : devResetForm.commit c s = s.devReset kind (c.num 0x81 1) := by
  rw [← h]
  rfl

theorem devReset_port (h : Accepted devResetForm fn mb s) (hkind : (s.sw.cmdOf fn mb 8).num 0x80 1 = 0) :
    let index := (s.sw.cmdOf fn mb 8).num 0x81 1
    let t := s.takeCommand devResetForm fn mb
    Working fn mb .reset [.port index] [] s t ∧ t.sw.mem = s.sw.mem
      ∧ (t.sw.getLink index).state = if s.sw.sys.noCable.contains index || s.sw.sys.configDefault then .down else .detect := by
  intro index t
  have hstill : (s.dequeued fn mb).Tends true ((s.dequeued fn mb).retrain index) := (State.Tends.refl _).retrain
  obtain ⟨hworking, hkept, hframe⟩ := h.worksStill (devReset_commit hkind) rfl hstill.teller hstill.mem
  refine ⟨hworking, hkept, ?_⟩
  rw [hframe.getLink]
  exact State.retrain_state (s.dequeued fn mb) index

theorem devReset_engine (h : Accepted devResetForm fn mb s) (hkind : (s.sw.cmdOf fn mb 8).num 0x80 1 = 1) :
    let index := (s.sw.cmdOf fn mb 8).num 0x81 1
    let t := s.takeCommand devResetForm fn mb
    Working fn mb .reset [.engine index] [] s t ∧ t.sw.mem = s.sw.mem ∧ (t.sw.getEngine index).resetting = true ∧ (t.sw.getEngine index).fenced = false := by
  intro index t
  obtain ⟨hworking, hkept, hreset⟩ := h.resets (l := [index]) (devReset_commit hkind)
  exact ⟨hworking, hkept, hreset index List.mem_cons_self⟩

theorem devReset_core (h : Accepted devResetForm fn mb s) (hkind : (s.sw.cmdOf fn mb 8).num 0x80 1 = 2) :
    let index := (s.sw.cmdOf fn mb 8).num 0x81 1
    let t := s.takeCommand devResetForm fn mb
    Working fn mb .reset [.core index] [] s t ∧ t.sw.mem = s.sw.mem
      ∧ ∀ e, e / 8 = index → (t.sw.getEngine e).resetting = true ∧ (t.sw.getEngine e).fenced = false := by
  intro index t
  obtain ⟨hworking, hkept, hreset⟩ := h.resets (l := coreEngines index) (devReset_commit hkind)
  exact ⟨hworking, hkept, fun e he => hreset e (mem_coreEngines he)⟩

/-- The Teller is not restarting when it takes a command that the ROM does not serve. -/
theorem Accepted.tellerState {k : Form} (h : Accepted k fn mb s) (hop : k.opcode ∉ [0x0101, 0x0F01, 0x0F02]) : s.sw.teller.state = 0 := by
  obtain ⟨htakes, -, -, -, -, hrefusal⟩ := h
  have hrom : s.sw.sys.phase ≠ .romRecovery := by
    intro hphase
    simp only [List.mem_cons, List.not_mem_nil, or_false, not_or] at hop
    have hbad : k.refusal (s.sw.cmdOf fn mb k.len) (s.dequeued fn mb) (s.sw.mailbox fn mb).header.toNat = some (mbBadOpcode, 0) :=
      if_pos ⟨hphase, by simp [hop]⟩
    exact absurd (hbad.symm.trans hrefusal) (Option.some_ne_none _)
  unfold Switch.takes at htakes
  rw [if_neg hrom] at htakes
  simp only [Bool.and_eq_true, beq_iff_eq] at htakes
  exact htakes.2.1.1

theorem devReset_teller (h : Accepted devResetForm fn mb s) (hkind : (s.sw.cmdOf fn mb 8).num 0x80 1 = 4) :
    Working fn mb .reset [.teller] [] s (s.takeCommand devResetForm fn mb)
      ∧ AnswerFrame (s.onTeller fun x => { x with state := 1, restarts := min 255 (x.restarts + 1) }) (s.takeCommand devResetForm fn mb) := by
  have hrestart : (s.dequeued fn mb).tellerRestart = (s.dequeued fn mb).onTeller fun x => { x with state := 1, restarts := min 255 (x.restarts + 1) } :=
    if_neg (not_not_intro (h.tellerState (by decide)))
  have hc : devResetForm.commit (s.sw.cmdOf fn mb 8) (s.dequeued fn mb) = (.later .reset [.teller] [], (s.dequeued fn mb).tellerRestart) := devReset_commit hkind
  rw [hrestart] at hc
  obtain ⟨hworking, hframe⟩ := h.working hc rfl rfl rfl rfl
  exact ⟨hworking, AnswerFrame.trans ⟨rfl, List.prefix_refl _⟩ hframe⟩

end

/-- Settles O4: DEV_RESET by what it names, FW_STAGE as a command that first reads the host, FW_ACTIVATE as one that writes a book. -/
theorem resetAndFirmwareCommandsComplete : Obligations.ResetAndFirmwareCommandsComplete := by
  unfold Obligations.ResetAndFirmwareCommandsComplete
  refine fun fn mb s => ⟨fun h => ⟨fun hkind => ⟨_, rfl, devReset_port h hkind⟩, fun hkind => ⟨_, rfl, devReset_engine h hkind⟩,
    fun hkind => ⟨_, rfl, devReset_core h hkind⟩, fun hkind => ⟨_, rfl, ?channel⟩, fun hkind => ⟨_, rfl, devReset_teller h hkind⟩⟩,
    fun h => h.asksHost rfl rfl fun _ => rfl, fun h target n hbook => ⟨_, rfl, h.commitsBook hbook rfl rfl⟩⟩
  obtain ⟨hworking, hframe⟩ := h.working (devReset_commit hkind) rfl rfl rfl rfl
  exact ⟨hworking, AnswerFrame.trans ⟨rfl, List.prefix_refl _⟩ hframe⟩

end Sys2Proof.Machine

namespace Sys2Proof.Machine

/-! ### Owners of engines and pool ranges (09 R225, 21 R501) -/

/-- Zeroing the scratch of an engine leaves the Teller and the settings. -/
theorem State.zeroScratch_leaves (s : State) (e : Nat) : (s.zeroScratch e).sw.teller = s.sw.teller ∧ (s.zeroScratch e).sw.sys = s.sw.sys :=
  State.each_keeps (P := fun u => u.sw.teller = s.sw.teller ∧ u.sw.sys = s.sw.sys) ⟨rfl, rfl⟩ fun u hu i => by split <;> exact hu

theorem State.giveEngine_gives (s : State) (e owner : Nat) : (s.giveEngine e owner).sw.teller = s.sw.teller
    ∧ (s.giveEngine e owner).sw.sys.cfg = { s.sw.sys.cfg with
        engineOwner := if owner = 0xFF then s.sw.sys.cfg.engineOwner.del e else s.sw.sys.cfg.engineOwner.put e owner } := by
  obtain ⟨hteller, hsys⟩ := s.zeroScratch_leaves e
  unfold State.giveEngine
  dsimp only [State.onSw, State.onEscrow, State.dropEngineXlat, State.onXlat]
  rw [hteller, hsys]
  exact ⟨rfl, rfl⟩

/-- An entry given to an owner, 0xFF for none. -/
theorem Tab.get_give (t : Tab Nat) (k j owner : Nat) :
    Tab.get (if owner = 0xFF then t.del k else t.put k owner) j 0xFF = if j = k then owner else t.get j 0xFF := by
  by_cases hj : j = k
  · subst hj
    by_cases ho : owner = 0xFF <;> simp [ho, Tab.get]
  · rw [if_neg hj]
    split
    · rw [Tab.get, Tab.find_del_ne _ _ _ hj, Tab.get]
    · exact Tab.get_put_ne _ _ _ _ _ hj

theorem State.giveEngine_owner (s : State) (e i owner : Nat) : (s.giveEngine e owner).sw.engineOwner i = if i = e then owner else s.sw.engineOwner i := by
  obtain ⟨-, hcfg⟩ := s.giveEngine_gives e owner
  rw [Switch.engineOwner, hcfg]
  exact Tab.get_give _ _ _ _

theorem State.giveEngines_leaves (s : State) (l : List Nat) (owner : Nat) : (s.each l fun u e => u.giveEngine e owner).sw.teller = s.sw.teller
    ∧ (s.each l fun u e => u.giveEngine e owner).sw.sys.cfg.poolOwner = s.sw.sys.cfg.poolOwner :=
  State.each_keeps (P := fun u => u.sw.teller = s.sw.teller ∧ u.sw.sys.cfg.poolOwner = s.sw.sys.cfg.poolOwner) ⟨rfl, rfl⟩ fun u ⟨hteller, hpool⟩ e => by
    obtain ⟨h, hcfg⟩ := u.giveEngine_gives e owner
    exact ⟨h.trans hteller, by rw [hcfg]; exact hpool⟩

/-- Engines that are given, or that the owner has already, are the owner's. -/
theorem State.giveEngines_owner {s : State} {l : List Nat} {owner e : Nat} (h : e ∈ l ∨ s.sw.engineOwner e = owner) :
    (s.each l fun u i => u.giveEngine i owner).sw.engineOwner e = owner := by
  have hkeep (u : State) (i : Nat) (hu : u.sw.engineOwner e = owner) : (u.giveEngine i owner).sw.engineOwner e = owner := by
    rw [State.giveEngine_owner, hu, ite_self]
  obtain he | hs := h
  · exact State.each_reaches (I := fun _ => True) (P := fun u => u.sw.engineOwner e = owner) he (fun _ _ _ => trivial)
      (fun u _ => (State.giveEngine_owner u e e owner).trans (if_pos rfl)) hkeep trivial
  · exact State.each_keeps (P := fun u => u.sw.engineOwner e = owner) hs fun u hu i => hkeep u i hu

theorem State.givePool_owner (s : State) (g i owner : Nat) : (s.givePool g owner).sw.poolOwner i = if i = g then owner else s.sw.poolOwner i :=
  Tab.get_give _ _ _ _

theorem State.givePools_leaves (s : State) (l : List Nat) (owner : Nat) : (s.each l fun u g => u.givePool g owner).sw.teller = s.sw.teller
    ∧ (s.each l fun u g => u.givePool g owner).sw.mem = s.sw.mem :=
  State.each_keeps (P := fun u => u.sw.teller = s.sw.teller ∧ u.sw.mem = s.sw.mem) ⟨rfl, rfl⟩ fun _ hu _ => hu

theorem State.givePools_owner (s : State) {l : List Nat} (owner : Nat) {g : Nat} (h : g ∈ l) :
    (s.each l fun u i => u.givePool i owner).sw.poolOwner g = owner :=
  State.each_reaches (I := fun _ => True) (P := fun u => u.sw.poolOwner g = owner) h (fun _ _ _ => trivial)
    (fun u _ => (State.givePool_owner u g g owner).trans (if_pos rfl)) (fun u i hu => by rw [State.givePool_owner, hu, ite_self]) trivial

section
variable {fn mb : Nat} {s : State}

theorem AnswerFrame.cfg {s t : State} (h : AnswerFrame s t) : t.sw.sys.cfg = s.sw.sys.cfg := by
  rw [h.1]

theorem partEnginesSet_done (h : Accepted partEnginesSetForm fn mb s) :
    let c := s.sw.cmdOf fn mb 8
    let t := s.takeCommand partEnginesSetForm fn mb
    Answered fn mb mbOk 0 [] s t ∧ (∀ e < 48, bit (c.num 0x82 6) e = true → t.sw.engineOwner e = c.num 0x80 1)
      ∧ t.sw.sys.cfg.poolOwner = s.sw.sys.cfg.poolOwner := by
  intro c t
  have hc : partEnginesSetForm.commit c (s.dequeued fn mb)
      = (.now [], (((s.dequeued fn mb).each (s.sw.engineChanges c) fun u e => u.giveEngine e (c.num 0x80 1)).revoteAll).escrowSettle) := rfl
  obtain ⟨hteller, hpool⟩ := (s.dequeued fn mb).giveEngines_leaves (s.sw.engineChanges c) (c.num 0x80 1)
  have howner {e : Nat} (he : e ∈ s.sw.engineChanges c ∨ s.sw.engineOwner e = c.num 0x80 1) := State.giveEngines_owner (s := s.dequeued fn mb) he
  generalize ((s.dequeued fn mb).each (s.sw.engineChanges c) fun u e => u.giveEngine e (c.num 0x80 1)) = u at hteller hpool howner hc
  have hstill : u.Tends true u.revoteAll.escrowSettle := (State.Tends.refl u).revoteAll.escrowSettle
  obtain ⟨hanswered, hframe⟩ := h.answers hc (hstill.teller.trans hteller) (.refl _)
  have hcfg : t.sw.sys.cfg = u.sw.sys.cfg := hframe.cfg.trans hstill.cfg
  refine ⟨hanswered, fun e he hbit => ?_, (congrArg Persist.poolOwner hcfg).trans hpool⟩
  rw [Switch.engineOwner, hcfg]
  refine howner (Decidable.or_iff_not_imp_right.mpr fun hne => ?_)
  exact List.mem_filter.mpr ⟨List.mem_range.mpr he, by simp [hbit, hne]⟩

theorem partPoolSet_done (h : Accepted partPoolSetForm fn mb s) :
    let c := s.sw.cmdOf fn mb 8
    let t := s.takeCommand partPoolSetForm fn mb
    Answered fn mb mbOk 0 [] s t ∧ t.sw.mem = s.sw.mem
      ∧ ∀ g, c.num 0x82 2 ≤ g → g < c.num 0x82 2 + c.num 0x84 2 → t.sw.poolOwner g = c.num 0x80 1 := by
  intro c t
  have hc : partPoolSetForm.commit c (s.dequeued fn mb) = (.now [], ((s.dequeued fn mb).each c.ranges fun u g => u.givePool g (c.num 0x80 1)).revoteAll) := rfl
  obtain ⟨hteller, hmem⟩ := (s.dequeued fn mb).givePools_leaves c.ranges (c.num 0x80 1)
  have howner {g : Nat} (hg : g ∈ c.ranges) := (s.dequeued fn mb).givePools_owner (c.num 0x80 1) hg
  generalize ((s.dequeued fn mb).each c.ranges fun u g => u.givePool g (c.num 0x80 1)) = u at hteller hmem howner hc
  have hstill : u.Tends true u.revoteAll := (State.Tends.refl u).revoteAll
  obtain ⟨hanswered, hframe⟩ := h.answers hc (hstill.teller.trans hteller) (.refl _)
  refine ⟨hanswered, hframe.mem.trans (hstill.mem.trans hmem), fun g hlo hhi => ?_⟩
  rw [Switch.poolOwner, hframe.cfg, hstill.cfg]
  exact howner (List.mem_map.mpr ⟨g - c.num 0x82 2, List.mem_range.mpr (by omega), by omega⟩)

end

/-! ### PART_REMOVE (21 R511) -/

@[simp] theorem State.closeEpoch_vault (s : State) (i n : Nat) : (s.closeEpoch i n).sw.vault = s.sw.vault := by
  unfold State.closeEpoch
  split <;> rfl

theorem State.collSend_vault (s : State) (f : Frame) : (s.collSend f).sw.vault = s.sw.vault := by
  obtain ⟨-, -, -, -, hvault, -⟩ := (State.swSend_sent s (s.sw.collCore f.partition) f).fields
  exact hvault

theorem State.abortFrom_vault (s : State) (i n status : Nat) : (s.abortFrom i n status).sw.vault = s.sw.vault := by
  have hsend (u : State) (y : Synd) (e : Epoch) (i rank typ attempt check chunk status : Nat) :
      (u.sendColl y e i rank typ attempt check chunk status).sw.vault = u.sw.vault := by
    unfold State.sendColl
    split
    · rfl
    · exact State.collSend_vault _ _
  have habort : (s.abortEpoch i n status).sw.vault = s.sw.vault := by
    unfold State.abortEpoch
    split
    · rfl
    · split
      · rfl
      · refine Eq.trans (State.each_keeps (P := fun u => u.sw.vault = _) rfl fun u hu r => (State.collSend_vault u _).trans hu) ?_
        exact State.each_keeps (P := fun u => u.sw.vault = s.sw.vault) (State.closeEpoch_vault s i n) fun u hu r => (hsend _ _ _ _ _ _ _ _ _ _).trans hu
  have hput (e : Epoch) : (s.putEpoch i e).sw.vault = s.sw.vault := by
    unfold State.putEpoch
    split <;> rfl
  unfold State.abortFrom
  split
  · rfl
  · split
    · exact habort
    · split
      · rfl
      · exact (State.collSend_vault _ _).trans (hput _)

/-- The commit of PART_REMOVE: the partition is CLOSING, its slots are as they were, and none of its Syndicates stays. -/
theorem State.partRemove_closes (s : State) (p : Nat) : ((s.partRemove p).sw.getPart p).state = .closing ∧ (s.partRemove p).sw.vault.slot = s.sw.vault.slot
    ∧ (∀ y ∈ (s.partRemove p).sw.synd, y.2.partition ≠ p) ∧ (s.partRemove p).sw.teller = s.sw.teller := by
  have hvault : (s.partRemove p).sw.vault = (s.putPart p { s.sw.getPart p with state := .closing }).sw.vault :=
    State.each_keeps (P := fun u => u.sw.vault = _) rfl fun u hu y =>
      State.each_keeps (P := fun u => u.sw.vault = _) hu fun u hu e => (State.abortFrom_vault _ _ _ _).trans hu
  have hteller : (s.partRemove p).sw.teller = s.sw.teller := by
    have hstill (u : State) (l : List (Nat × Synd)) : u.Tends true (u.each l fun u y => u.each y.2.epochs fun u e => u.abortFrom y.1 e.number stFenced) :=
      (State.Tends.refl u).each fun _ _ h => h.each fun _ _ h => h.abortFrom
    exact (hstill (s.putPart p { s.sw.getPart p with state := .closing }) _).teller
  refine ⟨?_, by rw [hvault]; rfl, fun y hy => ?_, hteller⟩
  · rw [Switch.getPart, hvault]
    simp [State.putPart]
  · unfold State.partRemove at hy
    simpa using (List.mem_filter.mp hy).2

/-- A key that begins to retire is not ACTIVE. -/
theorem State.beginRetire_retires (s : State) (k : Nat) (removal : Bool) : ((s.beginRetire k removal).sw.getSlot k).state ≠ .active := by
  have h (w : State) (data : List Byte) (p : Nat) :
      w.Tends false (((w.each w.sw.edgesUp fun u q => u.relayEp q mSlotClose data none).cancelPartition p).takeBackDue) :=
    ((State.Tends.refl w).each fun _ _ h => h.relayEp).cancelPartition.takeBackDue
  intro hactive
  unfold State.beginRetire at hactive
  have hput := Switch.Tends.slots (h _ _ _) k hactive
  simp [State.putSlot, Switch.getSlot] at hput

/-- The retirement of keys begins. -/
def State.retireKeys (w : State) (l : List Nat) : State := w.each l fun u k => u.beginRetire k true

theorem State.Tends.retireKeys {s t : State} {l : List Nat} (h : s.Tends false t) : s.Tends false (t.retireKeys l) := h.each fun _ _ h => h.beginRetire

/-- The retirement of one key makes no slot ACTIVE. -/
theorem State.beginRetire_keeps (u : State) (j k : Nat) (h : ((u.beginRetire j true).sw.getSlot k).state = .active) : (u.sw.getSlot k).state = .active := by
  have htends : Switch.Tends false u.sw (u.beginRetire j true).sw := State.Tends.beginRetire (State.Tends.refl u)
  generalize u.beginRetire j true = v at h htends
  exact htends.slots k h

theorem State.retireKeys_retires (w : State) {l : List Nat} {k : Nat} (hk : k ∈ l) : ((w.retireKeys l).sw.getSlot k).state ≠ .active := by
  unfold State.retireKeys
  refine State.each_reaches (g := fun (u : State) (k : Nat) => u.beginRetire k true) (I := fun _ => True) (P := fun u => (u.sw.getSlot k).state ≠ .active) hk (fun _ _ _ => trivial)
    (fun u _ => u.beginRetire_retires k true) (fun u j hu hj => ?_) trivial
  exact hu (u.beginRetire_keeps j k hj)

/-- Slots of a partition that are ACTIVE. -/
def Switch.activeSlots (w : Switch) (p : Nat) : List Nat := (w.slotsOf p).filter fun k => (w.getSlot k).state == .active

theorem State.retireKeys_none {w : State} {p k : Nat} (hk : k ∈ w.sw.slotsOf p) : ((w.retireKeys (w.sw.activeSlots p)).sw.getSlot k).state ≠ .active := by
  by_cases hw : (w.sw.getSlot k).state = .active
  · exact w.retireKeys_retires (List.mem_filter.mpr ⟨hk, by simp [hw]⟩)
  · generalize w.sw.activeSlots p = l
    have htends : Switch.Tends false w.sw (w.retireKeys l).sw := State.Tends.retireKeys (State.Tends.refl w)
    generalize w.retireKeys l = v at htends ⊢
    exact fun hactive => hw (htends.slots k hactive)

section
variable {fn mb : Nat} {s : State}

theorem partRemove_start (c : Cmd) (w : State) : partRemoveForm.start c w
    = ((w.retireKeys (w.sw.activeSlots (c.num 0x80 1))).cancelPartition (c.num 0x80 1)).retireCheck := by
  simp only [partRemoveForm, State.retireKeys, Switch.activeSlots]

/-- PART_REMOVE has closed the partition and stands on the list when its work begins. -/
theorem Accepted.removes (h : Accepted partRemoveForm fn mb s) :
    let p := (s.sw.cmdOf fn mb 8).num 0x80 1
    ∃ w : State, s.takeCommand partRemoveForm fn mb = ((w.retireKeys (w.sw.activeSlots p)).cancelPartition p).retireCheck ∧ (w.sw.getPart p).state = .closing
      ∧ w.sw.slotsOf p = s.sw.slotsOf p ∧ (∀ y ∈ w.sw.synd, y.2.partition ≠ p)
      ∧ Listed fn mb .remove (.partition p :: (s.sw.slotsOf p).map Obj.slot) w := by
  intro p
  have hc : partRemoveForm.commit (s.sw.cmdOf fn mb 8) (s.dequeued fn mb)
      = (.later .remove (.partition p :: (s.sw.slotsOf p).map Obj.slot) (s.sw.slotsOf p), (s.dequeued fn mb).partRemove p) := rfl
  obtain ⟨v, q, hv, ht⟩ := h.later hc
  obtain ⟨hclosing, hslots, hsynd, -⟩ := (s.dequeued fn mb).partRemove_closes p
  have hvault : v.sw.vault = ((s.dequeued fn mb).partRemove p).sw.vault := hv.vault
  have hvsynd : v.sw.synd = ((s.dequeued fn mb).partRemove p).sw.synd := by rw [hv.1]
  rw [partRemove_start] at ht
  refine ⟨_, ht, ?_, ?_, ?_, ?_⟩
  · rw [Switch.getPart, State.onTeller_sw, hvault]
    exact hclosing
  · have hget (k : Nat) : v.sw.getSlot k = s.sw.getSlot k := by
      rw [Switch.getSlot, hvault, hslots]
      rfl
    exact List.filter_congr fun k _ => congrArg (fun x : KeySlot => x.state != .zeroed && x.partition == p) (hget k)
  · rw [State.onTeller_sw, hvsynd]
    exact hsynd
  · exact ⟨_, List.mem_append_right _ List.mem_cons_self, rfl, rfl, rfl, rfl⟩

/-- Work of the switch takes no command off the list. -/
theorem Switch.Tends.keepsListed {z : Bool} {t u : State} {work : Work} {holds : List Obj} (h : Switch.Tends z t.sw u.sw) (hl : Listed fn mb work holds t) :
    Listed fn mb work holds u := by
  obtain ⟨a, ha, hfn, hmb, hwork, hholds⟩ := hl
  obtain ⟨b, hb, hbfn, hbmb, hbwork, hbholds⟩ := h.listed a ha
  exact ⟨b, hb, hbfn.trans hfn, hbmb.trans hmb, hbwork.trans hwork, hbholds.trans hholds⟩

theorem partRemove_done (h : Accepted partRemoveForm fn mb s) :
    let p := (s.sw.cmdOf fn mb 8).num 0x80 1
    let t := s.takeCommand partRemoveForm fn mb
    Listed fn mb .remove (.partition p :: (s.sw.slotsOf p).map Obj.slot) t ∧ ((t.sw.getPart p).state = .closing ∨ (t.sw.getPart p).state = .none)
      ∧ (∀ k ∈ s.sw.slotsOf p, (t.sw.getSlot k).state ≠ .active) ∧ ∀ y ∈ t.sw.synd, y.2.partition ≠ p := by
  intro p t
  obtain ⟨w, ht, hclosing, hslots, hsynd, hlisted⟩ := h.removes
  have hfirst : Switch.Tends false w.sw (w.retireKeys (w.sw.activeSlots p)).sw := State.Tends.retireKeys (State.Tends.refl w)
  have hnone (k : Nat) (hk : k ∈ w.sw.slotsOf p) := State.retireKeys_none hk
  rw [hslots] at hnone
  change t = _ at ht
  clear_value t
  generalize w.retireKeys (w.sw.activeSlots p) = u at ht hfirst hnone
  have hrest : Switch.Tends false u.sw ((u.cancelPartition p).retireCheck).sw := (State.Tends.refl u).cancelPartition.retireCheck
  rw [← ht] at hrest
  have hall := hfirst.trans hrest
  refine ⟨hall.keepsListed hlisted, ?_, fun k hk hactive => hnone k hk (hrest.slots k hactive), fun y hy => ?_⟩
  · rw [← hclosing]
    exact hall.parts p
  · obtain ⟨x, hx, hxy⟩ := hall.synds y hy
    rw [← hxy]
    exact hsynd x hx

end

/-- Settles O5: an owner that is given is the owner, and a partition that is removed is closed before its keys retire. -/
theorem partitionCommandsComplete : Obligations.PartitionCommandsComplete := by
  unfold Obligations.PartitionCommandsComplete
  refine fun fn mb s => ⟨fun h => ⟨_, rfl, h.answers rfl rfl ⟨rfl, List.prefix_refl _⟩⟩, fun h => ⟨_, rfl, partRemove_done h⟩,
    fun h => ⟨_, rfl, partEnginesSet_done h⟩, fun h => ⟨_, rfl, partPoolSet_done h⟩⟩

end Sys2Proof.Machine

namespace Sys2Proof.Machine

/-! ### Fences (17 R445, 23 R534) -/

section
variable {s t u v : State}

theorem AnswerFrame.chan (h : AnswerFrame s t) (c : Nat) : t.sw.chan c = s.sw.chan c := by
  rw [h.1]
  rfl

theorem AnswerFrame.getPart (h : AnswerFrame s t) (p : Nat) : t.sw.getPart p = s.sw.getPart p := by
  rw [h.1]
  rfl

theorem AnswerFrame.fencedAgents (h : AnswerFrame s t) : t.sw.vault.fencedAgents = s.sw.vault.fencedAgents := by
  rw [h.1]

theorem AnswerFrame.epRec (h : AnswerFrame s t) (x : Nat) : t.sw.epRec x = s.sw.epRec x := by
  rw [h.1]
  rfl

theorem State.Tends.fencedAgents (h : s.Tends true t) : t.sw.vault.fencedAgents = s.sw.vault.fencedAgents := congrArg (·.2.2.2.1) (Switch.Tends.still h rfl)

theorem State.Tends.part (h : s.Tends true t) : t.sw.vault.part = s.sw.vault.part := congrArg (·.2.2.1) (Switch.Tends.still h rfl)

theorem State.Tends.getPart (h : s.Tends true t) (p : Nat) : t.sw.getPart p = s.sw.getPart p := by
  rw [Switch.getPart, h.part, Switch.getPart]

/-- A command that answers at once and whose effect is a change that leaves the Teller, and work of the switch. -/
theorem Accepted.nowTends {k : Form} {fn mb : Nat} {z : Bool} {rsp : List Byte} (h : Accepted k fn mb s)
    (hc : k.commit (s.sw.cmdOf fn mb k.len) (s.dequeued fn mb) = (.now rsp, u)) (hv : v.sw.teller = (s.dequeued fn mb).sw.teller) (hu : v.Tends z u) :
    Answered fn mb mbOk 0 rsp s (s.takeCommand k fn mb) ∧ AnswerFrame u (s.takeCommand k fn mb) := by
  have hdesk := Switch.Tends.desk hu
  exact h.now hc (by rw [hdesk, hv]; rfl) (by rw [hdesk, hv]; rfl)

/-- Engines that are fenced leave partitions. -/
theorem State.fenceEngines_part (s : State) (es : List Nat) : (s.fenceEngines es).sw.vault.part = s.sw.vault.part := by
  have hrest (u : State) (fs gs : List Nat) (g : State → Nat → Occurrence) :
      u.Tends true (((u.each fs fun u e => u.stopEngine e).each gs fun u e => u.record (g u e)).escrowSettle) :=
    (((State.Tends.refl u).each fun _ _ h => h.stopEngine).each fun _ _ h => h.record).escrowSettle
  unfold State.fenceEngines
  dsimp only
  split
  · rfl
  · rw [(hrest _ _ _ _).part]
    exact State.each_keeps (P := fun u => u.sw.vault.part = s.sw.vault.part) rfl fun _ hu _ => hu

theorem State.fencePartition_tends (s : State) (p : Nat) : ∃ v : State, v.sw.teller = s.sw.teller ∧ v.Tends false (s.fencePartition p) := by
  unfold State.fencePartition
  split
  · exact ⟨s, rfl, State.Tends.refl s⟩
  · exact ⟨s.putPart p { s.sw.getPart p with state := .fenced }, rfl, (State.Tends.refl _).cancelUnstarted.fenceEngines.escrowSettle⟩

/-- A partition that is served is fenced; it stays admitted to nothing else. -/
theorem State.fencePartition_fences {p : Nat} (h : (s.sw.getPart p).state = .admitted) : ((s.fencePartition p).sw.getPart p).state = .fenced := by
  have hsettle (u : State) : u.Tends true u.escrowSettle := (State.Tends.refl u).escrowSettle
  have hcancel (u : State) : u.Tends true (u.cancelUnstarted p) := (State.Tends.refl u).cancelUnstarted
  unfold State.fencePartition
  rw [if_neg (not_not_intro h)]
  dsimp only
  rw [(hsettle _).getPart, Switch.getPart, State.fenceEngines_part, ← Switch.getPart, (hcancel _).getPart]
  simp [Switch.getPart, State.putPart]

theorem State.fenceAgent_fences (s : State) (x a : Nat) : x * 64 + a ∈ (s.fenceAgent x a).sw.vault.fencedAgents := by
  have hrest (u : State) (o : Occurrence) : u.Tends true ((u.record o).loseMember x (some a)) := (State.Tends.refl u).record.loseMember
  have hnotice (u : State) (p msub tag : Nat) (data : List Byte) : u.Tends true (u.mgmtOut .sw p msub tag data) := (State.Tends.refl u).mgmtOut
  unfold State.fenceAgent
  split
  · next h => simpa using h
  · dsimp only
    split
    · rw [(hnotice _ _ _ _ _).fencedAgents, (hrest _ _).fencedAgents]
      exact List.mem_cons_self
    · rw [(hrest _ _).fencedAgents]
      exact List.mem_cons_self

theorem State.clearAgent_clears (s : State) (x a : Nat) : x * 64 + a ∉ (s.clearAgent x a).sw.vault.fencedAgents := by
  have hnotice (u : State) (p msub tag : Nat) (data : List Byte) : u.Tends true (u.mgmtOut .sw p msub tag data) := (State.Tends.refl u).mgmtOut
  unfold State.clearAgent
  dsimp only
  split
  · rw [(hnotice _ _ _ _ _).fencedAgents]
    simp
  · simp

/-- A port that a command fences is fenced, whatever regions and invalidations waited for its end-point. -/
theorem State.fencePort_held (s : State) (p : Nat) : (((s.fencePort p 3).regionGone.invalPoll).sw.getLink p).state = .fenced := by
  have hrest (u : State) : u.regionGone.invalPoll.fixtures false = u.fixtures false := by simp
  obtain ⟨-, hlink, -⟩ := State.fixtures_iff.mp (hrest (s.fencePort p 3))
  obtain ⟨l, hstate, -, hput⟩ := s.fencePort_link p (why := 3) (by decide)
  rw [Switch.getLink, hlink, hput, Tab.get_put_self]
  exact hstate

/-- FENCE_SET leaves the Teller's mailboxes, whatever it names. -/
theorem State.fenceSet_tends (s : State) (kind agent index : Nat) : ∃ v : State, v.sw.teller = s.sw.teller ∧ v.Tends false (s.fenceSet kind agent index) := by
  have hself {w : State} (h : s.Tends false w) : ∃ v : State, v.sw.teller = s.sw.teller ∧ v.Tends false w := ⟨s, rfl, h⟩
  unfold State.fenceSet
  split
  · exact hself (State.Tends.refl s).fencePort.regionGone.invalPoll
  split
  · exact hself (State.Tends.refl s).fenceEngine
  split
  · exact hself (State.Tends.refl s).fenceEngines
  split
  · exact hself (State.Tends.refl s).fenceChannel
  split
  · exact s.fencePartition_tends index
  split
  · exact hself (State.Tends.refl s).fenceAgent
  · exact hself (State.Tends.refl s).giveVerdict.regionGone

end

theorem fenceSetComplete {fn mb : Nat} {s : State} (h : Accepted fenceSetForm fn mb s) :
    let c := s.sw.cmdOf fn mb 8
    let t := s.takeCommand fenceSetForm fn mb
    Answered fn mb mbOk 0 [] s t
      ∧ (c.kind = 0 → (t.sw.getLink c.index).state = .fenced)
      ∧ (c.kind = 1 → (t.sw.getEngine c.index).fenced = true)
      ∧ (c.kind = 2 → ∀ e, e / 8 = c.index → (t.sw.getEngine e).fenced = true)
      ∧ (c.kind = 3 → (t.sw.chan c.index).fenced = true)
      ∧ (c.kind = 4 → (s.sw.getPart c.index).state = .admitted → (t.sw.getPart c.index).state = .fenced)
      ∧ (c.kind = 5 → c.index * 64 + c.agent ∈ t.sw.vault.fencedAgents)
      ∧ (c.kind = 6 → (t.sw.epRec c.index).verdict = true) := by
  intro c t
  obtain ⟨v, hv, hu⟩ := (s.dequeued fn mb).fenceSet_tends c.kind c.agent c.index
  obtain ⟨hanswered, hframe⟩ := h.nowTends (rsp := []) rfl hv hu
  have hstate : s.sw.teller.state ≠ 1 := by
    rw [h.tellerState (by decide)]
    decide
  have hsame : (s.dequeued fn mb).sw.getPart c.index = s.sw.getPart c.index := rfl
  change (s.dequeued fn mb).sw.teller.state ≠ 1 at hstate
  change Answered fn mb mbOk 0 [] s t at hanswered
  change AnswerFrame ((s.dequeued fn mb).fenceSet c.kind c.agent c.index) t at hframe
  rw [← hsame]
  clear_value t
  generalize s.dequeued fn mb = w at hframe hstate
  generalize c.kind = kind, c.agent = agent, c.index = index at hframe
  refine ⟨hanswered, ?_, ?_, ?_, ?_, ?_, ?_, ?_⟩ <;> rintro rfl
  · rw [hframe.getLink]
    exact w.fencePort_held index
  · rw [hframe.getEngine]
    exact State.fenceEngines_fenced List.mem_cons_self
  · intro e he
    rw [hframe.getEngine]
    exact State.fenceEngines_fenced (mem_coreEngines he)
  · rw [hframe.chan]
    exact (State.fenceChannel_fenced w index).1
  · intro hpart
    rw [hframe.getPart]
    exact State.fencePartition_fences hpart
  · rw [hframe.fencedAgents]
    exact w.fenceAgent_fences index agent
  · rw [hframe.epRec]
    exact (State.regionGone_onward _).verdict index (State.giveVerdict_stands hstate index vCommand)

/-! #### Fences that end -/

section
variable {fn mb : Nat} {s : State}

/-- An engine whose fence ends: the Teller, the memory system and the Vault are as they were. -/
theorem State.unfenceEngine_leaves (s : State) (e : Nat) : (s.unfenceEngine e).sw.teller = s.sw.teller ∧ (s.unfenceEngine e).sw.mem = s.sw.mem
    ∧ (s.unfenceEngine e).sw.vault.part = s.sw.vault.part := by
  have h (u : State) : u.Tends true (u.onDomain 1 e fun d => { d with fenced := false }) := (State.Tends.refl u).onDomain
  unfold State.unfenceEngine
  rw [(h _).teller, (h _).mem, (h _).part]
  exact ⟨rfl, rfl, rfl⟩

theorem State.unfenceEngine_getEngine (s : State) (e i : Nat) : ((s.unfenceEngine e).sw.getEngine i).fenced = (if i = e then false else (s.sw.getEngine i).fenced) := by
  have h (u : State) : u.Tends true (u.onDomain 1 e fun d => { d with fenced := false }) := (State.Tends.refl u).onDomain
  unfold State.unfenceEngine
  rw [((h _).engine i).1]
  split
  · next hi => rw [hi, State.putEngine_getEngine]
  · next hi => rw [State.putEngine_getEngine_ne _ _ hi]

/-- Engines whose fences end, and what follows a change of engines. -/
def State.unfence (s : State) (l : List Nat) : State := (s.each l fun u e => u.unfenceEngine e).escrowSettle

theorem State.unfence_leaves (s : State) (l : List Nat) :
    (s.unfence l).sw.teller = s.sw.teller ∧ (s.unfence l).sw.mem = s.sw.mem ∧ (s.unfence l).sw.vault.part = s.sw.vault.part := by
  have hsettle (u : State) : u.Tends true u.escrowSettle := (State.Tends.refl u).escrowSettle
  unfold State.unfence
  rw [(hsettle _).teller, (hsettle _).mem, (hsettle _).part]
  refine State.each_keeps (P := fun u => u.sw.teller = s.sw.teller ∧ u.sw.mem = s.sw.mem ∧ u.sw.vault.part = s.sw.vault.part) ⟨rfl, rfl, rfl⟩ fun u hu e => ?_
  obtain ⟨hteller, hmem, hpart⟩ := u.unfenceEngine_leaves e
  exact ⟨hteller.trans hu.1, hmem.trans hu.2.1, hpart.trans hu.2.2⟩

theorem State.unfence_clears (s : State) {l : List Nat} {e : Nat} (he : e ∈ l) : ((s.unfence l).sw.getEngine e).fenced = false := by
  have hsettle (u : State) : u.Tends true u.escrowSettle := (State.Tends.refl u).escrowSettle
  unfold State.unfence
  rw [((hsettle _).engine e).1]
  refine State.each_reaches (g := fun (u : State) (i : Nat) => u.unfenceEngine i) (I := fun _ => True) (P := fun u => (u.sw.getEngine e).fenced = false) he
    (fun _ _ _ => trivial) (fun u _ => ?_) (fun u i hu => ?_) trivial
  · rw [State.unfenceEngine_getEngine, if_pos rfl]
  · rw [State.unfenceEngine_getEngine]
    split
    · rfl
    · exact hu

/-- FENCE_CLEAR of a partition that is fenced serves it again. -/
theorem State.fenceClear_partition {index : Nat} (h : (s.sw.getPart index).state = .fenced) (agent : Nat) : s.fenceClear 4 agent index
    = (s.putPart index { s.sw.getPart index with state := .admitted }).unfence (engines48.filter fun e => s.sw.engineOwner e == index) :=
  if_neg (not_not_intro h)

/-- FENCE_CLEAR leaves the Teller and the memory system. -/
theorem State.fenceClear_leaves (s : State) (kind agent index : Nat) :
    (s.fenceClear kind agent index).sw.teller = s.sw.teller ∧ (s.fenceClear kind agent index).sw.mem = s.sw.mem := by
  have hunfence (u : State) (l : List Nat) : ((u.each l fun u e => u.unfenceEngine e).escrowSettle).sw.teller = u.sw.teller
      ∧ ((u.each l fun u e => u.unfenceEngine e).escrowSettle).sw.mem = u.sw.mem := ⟨(u.unfence_leaves l).1, (u.unfence_leaves l).2.1⟩
  have hnotice (u : State) (p msub tag : Nat) (data : List Byte) : u.Tends true (u.mgmtOut .sw p msub tag data) := (State.Tends.refl u).mgmtOut
  have hclear (x a : Nat) : (s.clearAgent x a).sw.teller = s.sw.teller ∧ (s.clearAgent x a).sw.mem = s.sw.mem := by
    unfold State.clearAgent
    dsimp only
    split
    · rw [(hnotice _ _ _ _ _).teller, (hnotice _ _ _ _ _).mem]
      exact ⟨rfl, rfl⟩
    · exact ⟨rfl, rfl⟩
  unfold State.fenceClear
  split
  · exact hunfence s [index]
  split
  · exact hunfence s (coreEngines index)
  split
  · split
    · exact ⟨rfl, rfl⟩
    · dsimp only
      rw [(hunfence _ _).1, (hunfence _ _).2]
      exact ⟨rfl, rfl⟩
  split
  · exact hclear index agent
  · exact ⟨rfl, rfl⟩

theorem fenceClearComplete (h : Accepted fenceClearForm fn mb s) :
    let c := s.sw.cmdOf fn mb 8
    let t := s.takeCommand fenceClearForm fn mb
    Answered fn mb mbOk 0 [] s t ∧ t.sw.mem = s.sw.mem
      ∧ (c.kind = 1 → (t.sw.getEngine c.index).fenced = false)
      ∧ (c.kind = 2 → ∀ e, e / 8 = c.index → (t.sw.getEngine e).fenced = false)
      ∧ (c.kind = 4 → (s.sw.getPart c.index).state = .fenced → (t.sw.getPart c.index).state = .admitted)
      ∧ (c.kind = 5 → c.index * 64 + c.agent ∉ t.sw.vault.fencedAgents) := by
  intro c t
  obtain ⟨hteller, hmem⟩ := (s.dequeued fn mb).fenceClear_leaves c.kind c.agent c.index
  obtain ⟨hanswered, hframe⟩ := h.nowTends (rsp := []) (z := true) rfl hteller (State.Tends.refl _)
  have hsame : (s.dequeued fn mb).sw.getPart c.index = s.sw.getPart c.index ∧ (s.dequeued fn mb).sw.mem = s.sw.mem := ⟨rfl, rfl⟩
  change Answered fn mb mbOk 0 [] s t at hanswered
  change AnswerFrame ((s.dequeued fn mb).fenceClear c.kind c.agent c.index) t at hframe
  rw [← hsame.1, ← hsame.2]
  clear_value t
  generalize s.dequeued fn mb = w at hframe hmem
  generalize c.kind = kind, c.agent = agent, c.index = index at hframe hmem
  refine ⟨hanswered, hframe.mem.trans hmem, ?_, ?_, ?_, ?_⟩ <;> rintro rfl
  · rw [hframe.getEngine]
    exact w.unfence_clears (l := [index]) List.mem_cons_self
  · intro e he
    rw [hframe.getEngine]
    exact w.unfence_clears (mem_coreEngines he)
  · intro hpart
    rw [hframe.getPart, State.fenceClear_partition hpart, Switch.getPart, (State.unfence_leaves _ _).2.2]
    simp [State.putPart]
  · rw [hframe.fencedAgents]
    exact w.clearAgent_clears index agent

end

/-! #### Re-admission (23 R550) -/

/-- A port that leaves service leaves the records of end-points. -/
theorem State.leavePort_epRec (s : State) (p : Nat) (st : PortState) (why h : Nat) : (s.leavePort p st why).sw.epRec h = s.sw.epRec h := by
  have hof {u v : State} (j : v.footing false = u.footing false) : v.sw.mgmt.rec_ = u.sw.mgmt.rec_ := congrArg (·.2.1) j
  have hport (l : Link) : (s.setPort p l).sw.mgmt.rec_ = s.sw.mgmt.rec_ := by
    unfold State.setPort
    dsimp only
    rw [hof (State.refreshNarrow_footing false _)]
    have hevent : ((s.putLink .sw p l).setEvent evPort).sw.mgmt.rec_ = s.sw.mgmt.rec_ := hof (State.setEvent_footing false (s.putLink .sw p l) evPort)
    split <;> split
    · exact hevent
    · exact hevent
    · rfl
    · rfl
  have hqueues (u : State) : ((u.cutOpen p 1).discardQueues p).sw.mgmt.rec_ = u.sw.mgmt.rec_ := hof (by simp)
  unfold State.leavePort
  dsimp only
  rw [Switch.epRec, State.onSw_sw]
  dsimp only
  rw [hqueues]
  exact congrArg (fun t : Tab EpRec => t.get h {}) (hport _)

theorem State.retrain_epRec (s : State) (p h : Nat) : (s.retrain p).sw.epRec h = s.sw.epRec h := by
  have hsource (u : State) : (u.lostSource .sw p).sw.epRec h = u.sw.epRec h :=
    congrArg (fun t : Tab EpRec => t.get h {}) (congrArg (·.2.1) (State.lostSource_footing false u .sw p))
  unfold State.retrain
  split
  · rw [hsource, State.leavePort_epRec]
  · rw [hsource]
    exact s.leavePort_epRec p .detect 0 h

/-- The record of an end-point that is admitted again at this switch. -/
theorem State.readmitHere_epRec (s : State) (h inc : Nat) : ((s.readmitHere h inc).sw.epRec h).verdict = false ∧ ((s.readmitHere h inc).sw.epRec h).inc = inc := by
  unfold State.readmitHere
  dsimp only
  split
  · rw [State.retrain_epRec, State.epRec_onEpRec]
    exact ⟨rfl, rfl⟩
  · rw [State.epRec_onEpRec]
    exact ⟨rfl, rfl⟩

theorem State.sendReadmit_footing (s : State) (f : Frame) (came : Option Nat) : (s.sendReadmit .sw f came).footing false = s.footing false := by
  simp [State.sendReadmit]

theorem State.Tends.readmitHere {z : Bool} {s₀ s : State} {h inc : Nat} (hs : s₀.Tends z s) : s₀.Tends z (s.readmitHere h inc) := by
  have hput : s₀.Tends z (s.putSeen .sw ((mReadmit, leBytes 2 h ++ leBytes 1 inc) ::
      (s.seenBy .sw).filter fun x => !((x.1 == mVerdict || x.1 == mSuspect || x.1 == mReadmit) && field x.2 0 2 == h))) := hs.onSw
  unfold State.readmitHere
  exact .ite hput.onEpRec.retrain hput.onEpRec

theorem State.beginReadmit_tends (s : State) (c : Cmd) (h : Nat) : s.Tends true (s.beginReadmit c h) := by
  unfold State.beginReadmit State.sendReadmit
  exact (State.Tends.onSw (State.Tends.refl s).readmitHere).each fun _ _ h => h.swSendPort

theorem State.beginReadmit_epRec (s : State) (c : Cmd) (h : Nat) :
    ((s.beginReadmit c h).sw.epRec h).verdict = false ∧ ((s.beginReadmit c h).sw.epRec h).inc = (s.sw.epRec h).inc := by
  have hsent (u : State) (f : Frame) : (u.sendReadmit .sw f none).sw.epRec h = u.sw.epRec h :=
    congrArg (fun t : Tab EpRec => t.get h {}) (congrArg (·.2.1) (u.sendReadmit_footing f none))
  unfold State.beginReadmit
  dsimp only
  rw [hsent]
  exact s.readmitHere_epRec h (s.sw.epRec h).inc

theorem epReadmit_start (c : Cmd) (w : State) : epReadmitForm.start c w = w.beginReadmit c (c.num 0x80 2) := rfl

theorem epReadmitComplete {fn mb : Nat} {s : State} (h : Accepted epReadmitForm fn mb s) :
    let c := s.sw.cmdOf fn mb 8
    let t := s.takeCommand epReadmitForm fn mb
    Working fn mb (.relay 0) [.endpoint (c.num 0x80 2)] s.sw.otherSwitches s t ∧ t.sw.mem = s.sw.mem
      ∧ (t.sw.epRec (c.num 0x80 2)).verdict = false ∧ (t.sw.epRec (c.num 0x80 2)).inc = (s.sw.epRec (c.num 0x80 2)).inc := by
  intro c t
  obtain ⟨w, q, ht, hframe, hteller⟩ := h.starts (work := .relay 0) (holds := [.endpoint (c.num 0x80 2)]) (data := s.sw.otherSwitches) rfl
  have hstill : w.Tends true (w.beginReadmit c (c.num 0x80 2)) := w.beginReadmit_tends c (c.num 0x80 2)
  obtain ⟨hverdict, hinc⟩ := w.beginReadmit_epRec c (c.num 0x80 2)
  have hlen : s.sw.cmdOf fn mb epReadmitForm.len = c := rfl
  rw [epReadmit_start, hlen] at ht
  change t = _ at ht
  clear_value t
  rw [← ht] at hstill hverdict hinc
  refine ⟨⟨fun f m => ?_, ?_, ?_⟩, hstill.mem.trans hframe.mem, hverdict, hinc.trans ?_⟩
  · rw [Switch.mailbox, hstill.teller, hteller]
    rfl
  · rw [hstill.teller, hteller]
  · rw [hstill.teller, hteller]
    exact ⟨_, rfl, rfl, rfl, rfl, rfl, rfl, rfl, rfl, rfl⟩
  · rw [hframe.epRec]

/-- Settles O18: what FENCE_SET names is fenced, what FENCE_CLEAR names is served again, and EP_READMIT ends a verdict. -/
theorem fenceCommandsComplete : Obligations.FenceCommandsComplete := by
  unfold Obligations.FenceCommandsComplete
  exact fun fn mb s => ⟨fun h => ⟨_, rfl, fenceSetComplete h⟩, fun h => ⟨_, rfl, fenceClearComplete h⟩,
    fun h => ⟨_, rfl, h.answers rfl rfl ⟨rfl, List.prefix_refl _⟩⟩, fun h => ⟨_, rfl, epReadmitComplete h⟩⟩

end Sys2Proof.Machine

namespace Sys2Proof.Machine

/-! ### The end of commands (16 R418, R421, R422) -/

section
variable {fn mb : Nat} {s : State} {a : Active}

theorem Switch.activeOf_key {w : Switch} (h : w.activeOf fn mb = some a) : a.fn = fn ∧ a.mb = mb := by
  simpa using List.find?_some h

/-- A finished command of a mailbox stays the one found there when other work ends. -/
theorem State.finishWork_activeOf (h : s.sw.activeOf fn mb = some a) (hr : a.result.isSome = true) (f m status : Nat) (rsp : List Byte) :
    (s.finishWork f m status rsp).sw.activeOf fn mb = some a := by
  have hmap : ((fun x : Active => x.fn == fn && x.mb == mb) ∘ fun x => if x.fn == f && x.mb == m && x.result.isNone then
      { x with result := some (status, rsp) } else x) = fun x : Active => x.fn == fn && x.mb == mb := by
    funext x
    simp only [Function.comp_apply]
    split <;> rfl
  have hsome : a.result.isNone = false := by
    rw [← Option.not_isSome, hr]
    rfl
  unfold Switch.activeOf at h
  simp only [State.finishWork, Switch.activeOf, State.onSw_sw, List.find?_map, hmap, h, Option.map_some, hsome]
  simp

/-- Engines that are stopped and taken from their owner leave the Teller. -/
theorem State.takeEngines_teller (s : State) (l : List Nat) : (s.each l fun u e => (u.stopEngine e).giveEngine e 0xFF).sw.teller = s.sw.teller :=
  State.each_keeps (P := fun u => u.sw.teller = s.sw.teller) rfl fun u hu e =>
    ((State.giveEngine_gives _ e 0xFF).1.trans (State.Tends.teller (State.Tends.stopEngine (State.Tends.refl u)))).trans hu

theorem State.releasePartition_teller (s : State) (p : Nat) : (s.releasePartition p).sw.teller = s.sw.teller := by
  have hpower (u : State) : u.revoteAll.sw.teller = u.sw.teller := (State.Tends.refl u).revoteAll.teller
  have hpools (u : State) (l : List Nat) : (u.each l fun u g => u.givePool g 0xFF).sw.teller = u.sw.teller := (u.givePools_leaves l 0xFF).1
  unfold State.releasePartition
  extract_lets engines u ranges v free w x y z
  clear_value engines ranges
  have hv : v.sw.teller = s.sw.teller := (hpools u ranges).trans (s.takeEngines_teller engines)
  rw [hpower]
  exact hv

/-- A finished command stays the one found at its mailbox when the end of retirement is looked for. -/
theorem State.retireCheck_activeOf (h : s.sw.activeOf fn mb = some a) (hr : a.result.isSome = true) : s.retireCheck.sw.activeOf fn mb = some a := by
  unfold State.retireCheck
  refine State.each_keeps (P := fun u => u.sw.activeOf fn mb = some a) h fun u hu b => ?_
  have hrelease (p : Nat) : (u.releasePartition p).sw.activeOf fn mb = some a := by
    rw [Switch.activeOf, u.releasePartition_teller]
    exact hu
  split
  · exact hu
  split
  · exact State.finishWork_activeOf hu hr _ _ _ _
  split
  · split
    · next p _ => exact State.finishWork_activeOf (hrelease p) hr _ _ _ _
    · exact hu
  · exact hu

/-- A command that is completed leaves the list, and its mailbox holds its status and response. -/
theorem State.completeActive_ends (hkey : a.fn = fn ∧ a.mb = mb) (hdropped : a.dropped = false) (s : State) (status : Nat) (rsp : List Byte) :
    let t := s.completeActive a status rsp
    t.sw.activeOf fn mb = none ∧ (t.sw.mailbox fn mb).own = false ∧ (t.sw.mailbox fn mb).rsp = rsp ∧ (t.sw.mailbox fn mb).lastSeq = a.seq
      ∧ (t.sw.mailbox fn mb).rspHeader = BitVec.ofNat 64 (status + a.seq % 2 ^ 16 * 2 ^ 16 + rsp.length * 2 ^ 32
          + (if status = mbBadField then a.cmd.hostField else 0) * 2 ^ 48)
      ∧ AnswerFrame s t := by
  obtain ⟨v, q, hv, ht⟩ := State.completeActive_responds hdropped s status rsp
  obtain ⟨rfl, rfl⟩ := hkey
  dsimp only
  rw [ht, State.respond_mailbox]
  refine ⟨?_, rfl, rfl, rfl, rfl, (AnswerFrame.trans ⟨rfl, List.prefix_refl _⟩ hv.answer).trans (State.respond_frame _ _ _ _ _ _ _ _)⟩
  rw [Switch.activeOf, (State.respond_order _ _ _ _ _ _ _ _).2, hv.fields.1]
  simp only [State.onTeller_sw, List.find?_eq_none, List.mem_filter]
  rintro x ⟨-, hx⟩
  rw [Bool.not_eq_true'] at hx
  rw [hx]
  decide

/-- COMMAND_COMPLETION of a command whose work has ended. -/
theorem State.completion_finished {status : Nat} {rsp : List Byte} (hworks : s.sw.tellerWorks = true) (h : s.sw.activeOf fn mb = some a)
    (hresult : a.result = some (status, rsp)) (host : Option (List Byte)) : s.completion fn mb host = s.retireCheck.completeActive a status rsp := by
  have hkept := State.retireCheck_activeOf h (by rw [hresult]; rfl)
  unfold State.completion State.completeCommand
  simp [hworks, hkept, hresult]

/-- COMMAND_TIMEOUT of a command whose work has not ended. -/
theorem State.commandLate_ends (hworks : s.sw.tellerWorks = true) (h : s.sw.activeOf fn mb = some a) (hresult : a.result = none) :
    ∃ v : State, v.sw.mem = s.sw.mem
      ∧ s.commandLate fn mb = v.completeActive { a with result := some (a.lateStatus, []) } a.lateStatus [] := by
  obtain ⟨rfl, rfl⟩ := Switch.activeOf_key h
  have hends (u : State) (hu : u.sw.teller = s.sw.teller) (hmem : u.sw.mem = s.sw.mem) : ∃ v : State, v.sw.mem = s.sw.mem
      ∧ (u.finishWork a.fn a.mb a.lateStatus []).completeCommand a.fn a.mb = v.completeActive { a with result := some (a.lateStatus, []) } a.lateStatus [] :=
    ⟨u.finishWork a.fn a.mb a.lateStatus [], hmem, State.completeCommand_finishWork (by rwa [Switch.activeOf, hu]) hresult a.lateStatus []⟩
  have hlate : s.commandLate a.fn a.mb = (s.endsWith a a.lateStatus).completeCommand a.fn a.mb := by
    unfold State.commandLate
    simp [hworks, h, hresult]
  rw [hlate]
  unfold State.endsWith State.stageEnds
  dsimp only
  split
  · exact hends _ rfl rfl
  · exact hends _ rfl rfl

/-- The status of work that is late names no field. -/
theorem Active.lateStatus_ne (a : Active) : a.lateStatus ≠ mbBadField := by
  unfold Active.lateStatus
  split
  · decide
  · decide

theorem State.commandLate_completes (hworks : s.sw.tellerWorks = true) (h : s.sw.activeOf fn mb = some a) (hresult : a.result = none)
    (hdropped : a.dropped = false) :
    let t := s.commandLate fn mb
    t.sw.activeOf fn mb = none ∧ (t.sw.mailbox fn mb).own = false ∧ (t.sw.mailbox fn mb).lastSeq = a.seq ∧ (t.sw.mailbox fn mb).rsp = []
      ∧ t.sw.mem = s.sw.mem ∧ (t.sw.mailbox fn mb).rspHeader = BitVec.ofNat 64 (a.lateStatus + a.seq % 2 ^ 16 * 2 ^ 16) := by
  obtain ⟨v, hmem, ht⟩ := State.commandLate_ends hworks h hresult
  have hkey := Switch.activeOf_key h
  obtain ⟨hnone, hown, hrsp, hseq, hheader, hframe⟩ :=
    State.completeActive_ends (a := { a with result := some (a.lateStatus, []) }) hkey hdropped v a.lateStatus []
  dsimp only
  rw [ht]
  refine ⟨hnone, hown, hseq, hrsp, hframe.mem.trans hmem, hheader.trans ?_⟩
  simp [a.lateStatus_ne]

end

/-- A command that is refused is answered. -/
theorem State.refused_answers (s : State) (fn mb : Nat) (c : Cmd) (status detail : Nat) :
    let r := (s.dequeued fn mb).commandEntry c status [] false
    let t := r.1.respond fn mb (s.sw.mailbox fn mb).seq status detail r.2 []
    Answered fn mb status detail [] s t ∧ AnswerFrame s t := by
  have hreport := State.commandEntry_report (s.dequeued fn mb) c status [] false
  have hmailbox (f m : Nat) : ((s.dequeued fn mb).commandEntry c status [] false).1.sw.mailbox f m = s.sw.mailbox f m := hreport.mailbox f m
  have horder : ((s.dequeued fn mb).commandEntry c status [] false).1.sw.teller.order = s.sw.teller.order.erase (fn, mb) := by
    rw [hreport.fields.1]
    rfl
  exact ⟨State.respond_answered hmailbox horder _ _ _ _,
    (AnswerFrame.trans ⟨rfl, List.prefix_refl _⟩ hreport.answer).trans (State.respond_frame _ _ _ _ _ _ _ _)⟩

/-- Settles O19: COMMAND_COMPLETION writes the result that the work has, COMMAND_TIMEOUT its own, and an opcode of no row is answered. -/
theorem commandsEnd : Obligations.CommandsEnd := by
  unfold Obligations.CommandsEnd
  refine fun fn mb s => ⟨fun a status rsp host hworks h hresult hdropped => ⟨_, rfl, ?finished⟩, fun a hworks h hresult hdropped => ⟨_, rfl, ?late⟩,
    fun ht ho hs hf => ⟨_, rfl, ?unlisted⟩⟩
  case finished =>
    rw [State.completion_finished hworks h hresult]
    obtain ⟨hnone, hown, hrsp, hseq, hheader, -⟩ := State.completeActive_ends (Switch.activeOf_key h) hdropped s.retireCheck status rsp
    exact ⟨hnone, hown, hrsp, hseq, hheader⟩
  case late => exact State.commandLate_completes hworks h hresult hdropped
  case unlisted =>
    obtain ⟨c, e⟩ := State.takeUnlisted_refused ht ho hs hf
    rw [e]
    exact s.refused_answers fn mb c mbBadOpcode 0

end Sys2Proof.Machine

namespace Sys2Proof.Machine

/-! ### Port and link commands (17 R439) -/

section
variable {fn mb : Nat} {s : State}

/-- The entry of the step n among those that CAL_EQ_STORE puts. -/
theorem Tab.find_foldl_put {α : Type} {key : Nat → Nat} {val : Nat → α} {n : Nat} (hkey : ∀ m, key m = key n → m = n) (l : List Nat) (t : Tab α)
    (h : n ∈ l ∨ t.find (key n) = some (val n)) : (l.foldl (fun t m => t.put (key m) (val m)) t).find (key n) = some (val n) := by
  induction l generalizing t with
  | nil => exact h.resolve_left List.not_mem_nil
  | cons m l ih =>
    refine ih _ ?_
    by_cases hm : m = n
    · rw [hm]
      exact .inr (Tab.find_put_self _ _ _)
    · refine h.imp (fun hn => (List.mem_cons.mp hn).resolve_left (Ne.symm hm)) fun hf => ?_
      rw [Tab.find_put_ne _ _ _ _ fun he => hm (hkey m he.symm)]
      exact hf

theorem calEqStoreComplete (h : Accepted calEqStoreForm fn mb s) :
    let c := s.sw.cmdOf fn mb 16
    let t := s.takeCommand calEqStoreForm fn mb
    Working fn mb .flash [.port c.port, .flash] [] s t ∧ ∃ links : Tab EqSet,
      AnswerFrame (s.onSys fun y => { y with flash := { y.flash with calValid := false, writing := some (.cal links) } }) t
      ∧ ∀ n < 4, bit c.arg n = true →
          links.find (c.port * 4 + n) = some ((((s.sw.getLink c.port).steps.find? fun r => r.step == n).map (·.eq)).getD {}) := by
  intro c t
  obtain ⟨hworking, hframe⟩ := h.working rfl rfl rfl rfl rfl
  refine ⟨hworking, _, AnswerFrame.trans ⟨rfl, List.prefix_refl _⟩ hframe, fun n hn hbit => ?_⟩
  exact Tab.find_foldl_put (key := fun m => c.port * 4 + m) (fun m hm => Nat.add_left_cancel hm) (stepsOf c.arg) _
    (.inl (List.mem_filter.mpr ⟨List.mem_range.mpr hn, hbit⟩))

/-! #### PORT_LANE_TEST -/

theorem State.onPort_link (s : State) (p : Nat) (g : Link → Link) : (s.onPort p g).sw.link = s.sw.link.put p (g (s.sw.getLink p)) :=
  (State.setPort_upkeep s p _).link

theorem State.onPort_getLink (s : State) (p q : Nat) (g : Link → Link) :
    (s.onPort p g).sw.getLink q = if q = p then g (s.sw.getLink p) else s.sw.getLink q := by
  rw [Switch.getLink, State.onPort_link]
  split
  · next hq => rw [hq, Tab.get_put_self]
  · next hq => rw [Tab.get_put_ne _ _ _ _ _ hq, ← Switch.getLink]

theorem State.beginTest_eq (s : State) (p : Nat) (install : Bool) :
    s.beginTest .sw p install = if (s.sw.getLink p).testable then s.onPort p fun l => l.testLane install 0 else s := rfl

theorem State.beginTest_getLink (s : State) (p q : Nat) (install : Bool) : (s.beginTest .sw p install).sw.getLink q
    = if q = p ∧ (s.sw.getLink p).testable = true then (s.sw.getLink p).testLane install 0 else s.sw.getLink q := by
  rw [State.beginTest_eq]
  by_cases ht : (s.sw.getLink p).testable = true
  · rw [if_pos ht, State.onPort_getLink]
    simp [ht]
  · rw [if_neg ht, if_neg fun hand => ht hand.2]

theorem State.Tends.beginTest {z : Bool} {s₀ s : State} {p : Nat} {install : Bool} (h : s₀.Tends z s) : s₀.Tends z (s.beginTest .sw p install) := by
  rw [State.beginTest_eq]
  exact h.onPort.ite h

/-- A test begins on every port named that was testable. -/
theorem State.beginTests_test {l : List Nat} {p : Nat} (hp : p ∈ l) (ht : (s.sw.getLink p).testable = true) :
    (s.each l fun u q => u.beginTest .sw q true).sw.getLink p = (s.sw.getLink p).testLane true 0 := by
  have htested (l : Link) : ¬(l.testLane true 0).testable = true := by simp [Link.testable, Link.testLane]
  have hkeep (u : State) (q : Nat) (hu : u.sw.getLink p = (s.sw.getLink p).testLane true 0) :
      (u.beginTest .sw q true).sw.getLink p = (s.sw.getLink p).testLane true 0 := by
    rw [State.beginTest_getLink, if_neg, hu]
    rintro ⟨rfl, hq⟩
    rw [hu] at hq
    exact htested _ hq
  refine State.each_reaches (g := fun (u : State) (q : Nat) => u.beginTest .sw q true) hp
    (I := fun u => u.sw.getLink p = s.sw.getLink p ∨ u.sw.getLink p = (s.sw.getLink p).testLane true 0)
    (P := fun u => u.sw.getLink p = (s.sw.getLink p).testLane true 0) (fun u q hu => ?_) (fun u hu => ?_) hkeep (.inl rfl)
  · obtain hu | hu := hu
    · rw [State.beginTest_getLink]
      split
      · next hq => exact .inr (by rw [← hq.1, hu])
      · exact .inl hu
    · exact .inr (hkeep u q hu)
  · obtain hu | hu := hu
    · rw [State.beginTest_getLink, if_pos ⟨rfl, hu ▸ ht⟩, hu]
    · exact hkeep u p hu

theorem portLaneTestComplete (h : Accepted portLaneTestForm fn mb s) :
    let c := s.sw.cmdOf fn mb 16
    let t := s.takeCommand portLaneTestForm fn mb
    Answered fn mb mbOk 0 [] s t ∧ t.sw.mem = s.sw.mem
      ∧ ∀ p ∈ c.ports, (t.sw.getLink p).test = some { install := true, lane := 0 } ∧ (t.sw.getLink p).jewel = 10 ∧ (t.sw.getLink p).state = .active := by
  intro c t
  have hstill : (s.dequeued fn mb).Tends true ((s.dequeued fn mb).each c.ports fun u p => u.beginTest .sw p true) :=
    (State.Tends.refl _).each fun _ _ h => h.beginTest
  obtain ⟨hanswered, hframe⟩ := h.nowTends (rsp := []) (u := (s.dequeued fn mb).each c.ports fun u p => u.beginTest .sw p true) rfl rfl hstill
  have hown := h.own_passed _ (List.mem_singleton.mpr rfl)
  refine ⟨hanswered, hframe.mem.trans hstill.mem, fun p hp => ?_⟩
  have ht : ((s.dequeued fn mb).sw.getLink p).testable = true := by
    simp only [Bool.not_eq_false', List.all_eq_true] at hown
    exact hown p hp
  rw [hframe.getLink, State.beginTests_test hp ht]
  refine ⟨rfl, rfl, ?_⟩
  simp only [Link.testable, Bool.and_eq_true, beq_iff_eq] at ht
  exact ht.1.1.1.1.1

/-! #### PORT_NARROW -/

/-- Both directions' maps together keep a width that one of them already has. -/
theorem pairMaps_width {a b : LaneMap} {m : LaneMap × LaneMap} (ha : a.width ≠ 0) (h : pairMaps a b = some m) : m.1.width = a.width := by
  unfold pairMaps at h
  simp only [ha, false_and, if_false, Option.bind_some, Option.map_eq_some_iff] at h
  obtain ⟨y, -, rfl⟩ := h
  rfl

/-- A port that is not refused is at half width on the group, or changes to it. -/
theorem Link.narrowTo_width {l : Link} {g : Nat} (h : l.narrowRefused g = false) : (l.narrowTo g).widthToBe = g + 1 := by
  unfold Link.narrowRefused at h
  unfold Link.narrowTo
  by_cases hw : l.widthToBe = 0
  · simp only [hw, if_true, Bool.or_eq_false_iff, Option.isNone_eq_false_iff] at h
    obtain ⟨-, -, hmaps⟩ := h
    obtain ⟨m, hm⟩ := Option.isSome_iff_exists.mp hmaps
    rw [if_neg (not_not_intro hw), hm]
    exact pairMaps_width (a := { l.endTest.lanes with width := g + 1 }) (Nat.succ_ne_zero g) hm
  · rw [if_pos hw]
    simpa [hw] using (Bool.or_eq_false_iff.mp h).2

theorem portNarrowComplete (h : Accepted portNarrowForm fn mb s) :
    let c := s.sw.cmdOf fn mb 16
    let t := s.takeCommand portNarrowForm fn mb
    Answered fn mb mbOk 0 [] s t ∧ t.sw.mem = s.sw.mem
      ∧ (t.sw.getLink c.port).widthToBe = c.arg + 1 ∧ ∀ p ≠ c.port, t.sw.getLink p = s.sw.getLink p := by
  intro c t
  have hstill : (s.dequeued fn mb).Tends true ((s.dequeued fn mb).onPort c.port fun l => l.narrowTo c.arg) := (State.Tends.refl _).onPort
  obtain ⟨hanswered, hframe⟩ := h.nowTends (rsp := []) (u := (s.dequeued fn mb).onPort c.port fun l => l.narrowTo c.arg) rfl rfl hstill
  have hown := h.own_passed _ (List.mem_singleton.mpr rfl)
  refine ⟨hanswered, hframe.mem.trans hstill.mem, ?_, fun p hp => ?_⟩
  · rw [hframe.getLink, State.onPort_getLink, if_pos rfl]
    exact Link.narrowTo_width hown
  · rw [hframe.getLink, State.onPort_getLink, if_neg hp]
    rfl

/-! #### LINK_REKEY -/

theorem State.Tends.startRekey {z : Bool} {s₀ s : State} {p : Nat} (h : s₀.Tends z s) : s₀.Tends z (s.startRekey .sw p) := by
  unfold State.startRekey
  have hbegin : s₀.Tends z (s.beginExchange .sw p) := h.free.free.putLink.putLink
  exact h.ite (hbegin.ite h.putLink.putLink)

/-- A start of a rekey keeps of a link what its own changes keep. -/
theorem State.startRekey_link {P : Link → Prop} (hx : ∀ l x tx, P l → P { l with xchg := some x, tx := tx }) (htx : ∀ l tx, P l → P { l with tx := tx })
    (s : State) (p q : Nat) (h : P (s.sw.getLink p)) : P ((s.startRekey .sw q).sw.getLink p) := by
  have hput (u : State) (g : Link → Link) (hg : ∀ l : Link, P l → P (g l)) (hu : P (u.sw.getLink p)) : P ((u.onLink .sw q g).sw.getLink p) := by
    have hlink : (u.onLink .sw q g).sw.getLink p = ((u.sw.link.put q (g (u.sw.getLink q))).get p {}) := rfl
    rw [hlink]
    by_cases hp : p = q
    · rw [hp, Tab.get_put_self]
      exact hg _ (hp ▸ hu)
    · rwa [Tab.get_put_ne _ _ _ _ _ hp]
  unfold State.startRekey State.beginExchange State.sendKeyMsg
  dsimp only
  split
  · exact h
  split
  · exact hput _ _ (fun l hl => htx l _ hl) (hput _ _ (fun l hl => hx l _ _ hl) h)
  · exact hput _ _ (fun l hl => htx l _ hl) (hput _ _ (fun l hl => htx l _ hl) h)

theorem State.startRekey_sys (s : State) (q : Nat) : (s.startRekey .sw q).sw.sys = s.sw.sys := by
  unfold State.startRekey
  dsimp only
  split
  · rfl
  split
  · rfl
  · rfl

/-- An exchange under way stays. -/
theorem State.startRekey_keeps (s : State) (p q : Nat) (h : (s.sw.getLink p).xchg.isSome = true) : ((s.startRekey .sw q).sw.getLink p).xchg.isSome = true :=
  State.startRekey_link (P := fun l => l.xchg.isSome = true) (fun _ _ _ _ => rfl) (fun _ _ hl => hl) s p q h

/-- An ACTIVE port that initiates has an exchange under way once a rekey starts. -/
theorem State.startRekey_begins (s : State) {p : Nat} (hactive : (s.sw.getLink p).state = .active) (hinit : isEdge s.sw.sys p = true ∨ p < 56) :
    ((s.startRekey .sw p).sw.getLink p).xchg.isSome = true := by
  by_cases hx : (s.sw.getLink p).xchg.isSome = true
  · exact s.startRekey_keeps p p hx
  · have hbegins : s.startRekey .sw p = s.beginExchange .sw p := by
      have hinitiates : s.initiates .sw p = true := by simpa [State.initiates] using hinit
      unfold State.startRekey
      rw [if_neg (by simpa [State.getLink, hactive] using hx), if_pos hinitiates]
    obtain ⟨-, -, hstage⟩ := s.beginExchange_link .sw p
    rw [hbegins]
    cases hxchg : ((s.beginExchange .sw p).getLink .sw p).xchg with
    | none => simp [hxchg] at hstage
    | some x =>
      change ((s.beginExchange .sw p).getLink .sw p).xchg.isSome = true
      rw [hxchg]
      rfl

theorem linkRekeyComplete (h : Accepted linkRekeyForm fn mb s) :
    let c := s.sw.cmdOf fn mb 16
    let t := s.takeCommand linkRekeyForm fn mb
    Answered fn mb mbOk 0 [] s t ∧ t.sw.mem = s.sw.mem
      ∧ ∀ p ∈ c.ports, (s.sw.getLink p).state = .active → (isEdge s.sw.sys p = true ∨ p < 56) → (t.sw.getLink p).xchg.isSome = true := by
  intro c t
  have hstill : (s.dequeued fn mb).Tends true ((s.dequeued fn mb).each c.ports fun u p => u.startRekey .sw p) := (State.Tends.refl _).each fun _ _ h => h.startRekey
  obtain ⟨hanswered, hframe⟩ := h.nowTends (rsp := []) (u := (s.dequeued fn mb).each c.ports fun u p => u.startRekey .sw p) rfl rfl hstill
  refine ⟨hanswered, hframe.mem.trans hstill.mem, fun p hp hactive hinit => ?_⟩
  rw [hframe.getLink]
  refine State.each_reaches (g := fun (u : State) (q : Nat) => u.startRekey .sw q) hp
    (I := fun u => (u.sw.getLink p).state = .active ∧ (isEdge u.sw.sys p = true ∨ p < 56)) (P := fun u => (u.sw.getLink p).xchg.isSome = true)
    (fun u q hu => ⟨?_, ?_⟩) (fun u hu => u.startRekey_begins hu.1 hu.2) (fun u q hu => u.startRekey_keeps p q hu) ⟨hactive, hinit⟩
  · exact State.startRekey_link (P := fun l => l.state = .active) (fun _ _ _ hl => hl) (fun _ _ hl => hl) u p q hu.1
  · rw [State.startRekey_sys]
    exact hu.2

theorem portTestPolicySetComplete (h : Accepted portTestPolicySetForm fn mb s) :
    Answered fn mb mbOk 0 [] s (s.takeCommand portTestPolicySetForm fn mb) ∧
      AnswerFrame (s.onSys fun y => { y with cfg := { y.cfg with testHours := (s.sw.cmdOf fn mb 16).arg } }) (s.takeCommand portTestPolicySetForm fn mb) := by
  have hc : portTestPolicySetForm.commit (s.sw.cmdOf fn mb portTestPolicySetForm.len) (s.dequeued fn mb)
      = (.now [], (s.dequeued fn mb).onSys fun y => { y with cfg := { y.cfg with testHours := (s.sw.cmdOf fn mb 16).arg } }) := rfl
  exact h.answers hc rfl (State.dequeued_onSys _ _ _ _)

end

/-- Settles O7: the persistent values of ports, tests, the change to half width and rekeys by port. -/
theorem portCommandsComplete : Obligations.PortCommandsComplete := by
  unfold Obligations.PortCommandsComplete
  exact fun fn mb s => ⟨fun h => ⟨_, rfl, h.answers rfl rfl ⟨rfl, List.prefix_refl _⟩⟩, fun h => ⟨_, rfl, h.answers rfl rfl ⟨rfl, List.prefix_refl _⟩⟩,
    fun h => ⟨_, rfl, h.answers rfl rfl ⟨rfl, List.prefix_refl _⟩⟩, fun h => ⟨_, rfl, portTestPolicySetComplete h⟩,
    fun h => ⟨_, rfl, calEqStoreComplete h⟩, fun h => ⟨_, rfl, portLaneTestComplete h⟩, fun h => ⟨_, rfl, portNarrowComplete h⟩,
    fun h => ⟨_, rfl, linkRekeyComplete h⟩⟩

end Sys2Proof.Machine

namespace Sys2Proof.Machine

/-! ### The Vault, keys and rewraps (17 Vault, keys and Assay) -/

section
variable {fn mb : Nat} {s : State}

/-- A check that refuses nothing in one list of checks refuses nothing in the other. -/
theorem Option.ite_of_none {α : Type} {c : Prop} [Decidable c] {x : α} {o p q : Option α} (h : (if c then some x else o) = none) (hop : o = none → p = q) :
    (if c then some x else p) = q := by
  split at h
  · exact absurd h (Option.some_ne_none _)
  · next hc => rw [if_neg hc, hop h]

/-- A command whose other checks pass is refused by a check of its own, or by none. -/
theorem Form.refusal_own {k : Form} {c : Cmd} {s : State} {n : Nat} (h : ({ k with own := fun _ _ => [] } : Form).refusal c s n = none) :
    k.refusal c s n = ((k.own c s).find? (·.1)).map (·.2) := by
  have hbad : ({ k with own := fun _ _ => [] } : Form).badField c s n = k.badField c s n := rfl
  unfold Form.refusal at h ⊢
  rw [hbad] at h
  refine Option.ite_of_none h fun h => Option.ite_of_none h fun h => Option.ite_of_none h fun h => ?_
  split at h
  · exact absurd h (Option.some_ne_none _)
  · exact Option.ite_of_none h fun h => Option.ite_of_none h fun h => Option.ite_of_none h fun h => Option.ite_of_none h fun _ => rfl

/-! #### KEY_LOAD -/

/-- Frames to the end-points of some ports, each with a number of its own. -/
theorem State.relayEach_told (s : State) (l : List Nat) (msub : Nat) (data : List Byte) :
    let t := s.each l fun u p => u.relayEp p msub data none
    ToldFrame s t ∧ t.sw.teller = s.sw.teller ∧ t.sw.mgmt.nextRelay = s.sw.mgmt.nextRelay + l.length := by
  induction l generalizing s with
  | nil => exact ⟨.refl s, rfl, rfl⟩
  | cons p l ih =>
    obtain ⟨htold, hteller, hnext⟩ := ih (s.relayEp p msub data none)
    obtain ⟨hkept, hone⟩ := State.relay_mgmt s p (mgmtFrame (epId s.sw.sys.rack p) s.sw.sys.homeId (s.sw.incFor (epId s.sw.sys.rack p)) msub 0 data) none
    refine ⟨(State.relay_told _ _ _ _).trans htold, hteller.trans hkept, hnext.trans ?_⟩
    rw [show (s.relayEp p msub data none).sw.mgmt.nextRelay = _ from hone, List.length_cons]
    omega

/-- The slot that KEY_LOAD makes ACTIVE, and the next generation of the Vault's key. -/
def State.keyed (s : State) (c : Cmd) (key : Key) : State :=
  (s.putSlot (c.num 0x80 1) { state := .active, partition := c.num 0x81 1, key := key }).onSw
    fun w => { w with vault := { w.vault with kemGen := w.vault.kemGen + 1 } }

theorem keyLoad_own (c : Cmd) (s : State) : keyLoadForm.own c s = [((s.sw.loadedKey c).isNone, mbDigest, 0)] := rfl

theorem keyLoad_commit {c : Cmd} {key : Key} (hkey : s.sw.loadedKey c = some key) : keyLoadForm.commit c s
    = (.now ((digestBytes (Config.shake256 (leBytes 32 key.toNat))).take 8),
        (s.keyed c key).each (s.keyed c key).sw.edgesUp fun u p => u.relayEp p mSlotOpen (leBytes 1 (c.num 0x80 1) ++ leBytes 1 (c.num 0x81 1)) none) := by
  unfold keyLoadForm State.keyed
  dsimp only
  rw [hkey]
  rfl

theorem keyLoad_loads {key : Key} (h : Accepted { keyLoadForm with own := fun _ _ => [] } fn mb s) (hkey : s.sw.loadedKey (s.sw.cmdOf fn mb 1616) = some key) :
    let c := s.sw.cmdOf fn mb 1616
    let t := s.takeCommand keyLoadForm fn mb
    Answered fn mb mbOk 0 ((digestBytes (Config.shake256 (leBytes 32 key.toNat))).take 8) s t
      ∧ ToldFrame (s.keyed c key) t ∧ t.sw.mgmt.nextRelay = s.sw.mgmt.nextRelay + s.sw.edgesUp.length := by
  intro c t
  obtain ⟨htakes, hop, hseq, hverify, hfull, hrefusal⟩ := h
  have hkey' : (s.dequeued fn mb).sw.loadedKey c = some key := hkey
  have hown : keyLoadForm.refusal c (s.dequeued fn mb) (s.sw.mailbox fn mb).header.toNat = _ := Form.refusal_own hrefusal
  have hnone : ((keyLoadForm.own c (s.dequeued fn mb)).find? (·.1)).map (·.2) = none := by
    rw [keyLoad_own, hkey']
    rfl
  have hload : Accepted keyLoadForm fn mb s := ⟨htakes, hop, hseq, hverify, hfull, hown.trans hnone⟩
  obtain ⟨htold, hteller, hnext⟩ := ((s.dequeued fn mb).keyed c key).relayEach_told ((s.dequeued fn mb).keyed c key).sw.edgesUp mSlotOpen
    (leBytes 1 (c.num 0x80 1) ++ leBytes 1 (c.num 0x81 1))
  obtain ⟨hanswered, hframe⟩ := hload.answers (keyLoad_commit hkey') hteller (.refl _)
  have hframes : AnswerFrame (s.keyed c key) ((s.dequeued fn mb).keyed c key) := ⟨rfl, List.prefix_refl _⟩
  refine ⟨hanswered, hframes.told.trans (htold.trans hframe.told), ?_⟩
  exact (congrArg (·.nextRelay) hframe.mgmt).trans hnext

theorem keyLoad_fails (h : Accepted { keyLoadForm with own := fun _ _ => [] } fn mb s) (hkey : s.sw.loadedKey (s.sw.cmdOf fn mb 1616) = none) :
    Answered fn mb mbDigest 0 [] s (s.takeCommand keyLoadForm fn mb) ∧ AnswerFrame s (s.takeCommand keyLoadForm fn mb) := by
  obtain ⟨htakes, hop, hseq, hverify, hfull, hrefusal⟩ := h
  have hkey' : (s.dequeued fn mb).sw.loadedKey (s.sw.cmdOf fn mb 1616) = none := hkey
  have hown : keyLoadForm.refusal (s.sw.cmdOf fn mb 1616) (s.dequeued fn mb) (s.sw.mailbox fn mb).header.toNat = _ := Form.refusal_own hrefusal
  have hsome : ((keyLoadForm.own (s.sw.cmdOf fn mb 1616) (s.dequeued fn mb)).find? (·.1)).map (·.2) = some (mbDigest, 0) := by
    rw [keyLoad_own, hkey']
    rfl
  obtain ⟨c, e⟩ := State.takeCommand_refused (k := keyLoadForm) htakes hop hseq hfull (hown.trans hsome)
  rw [e]
  exact s.refused_answers fn mb c mbDigest 0

/-! #### KEY_RETIRE -/

theorem keyRetireComplete (h : Accepted keyRetireForm fn mb s) :
    let k := (s.sw.cmdOf fn mb 8).num 0x80 1
    let t := s.takeCommand keyRetireForm fn mb
    Listed fn mb .retire [.slot k] t ∧ (t.sw.getSlot k).state ≠ .active := by
  intro k t
  obtain ⟨w, q, ht, hframe, hteller⟩ := h.starts (work := .retire) (holds := [.slot k]) (data := [k]) rfl
  have hlisted : Listed fn mb .retire [.slot k] w := by
    refine ⟨keyRetireForm.activeAs s fn mb .retire [.slot k] [k] q, ?_, rfl, rfl, rfl, rfl⟩
    rw [hteller]
    exact List.mem_append_right _ List.mem_cons_self
  have hstart : t = match (w.sw.getSlot k).state with
    | .active => (w.beginRetire k false).retireCheck
    | .zeroed => (w.putSlot k {}).retireCheck
    | .retiring => w := ht
  have hcheck (u : State) : Switch.Tends false u.sw u.retireCheck.sw := State.Tends.retireCheck (State.Tends.refl u)
  clear_value t
  rw [hstart]
  split
  · have hretire := w.beginRetire_retires k false
    have hbegin : Switch.Tends false w.sw (w.beginRetire k false).sw := State.Tends.beginRetire (State.Tends.refl w)
    generalize w.beginRetire k false = u at hretire hbegin
    exact ⟨(hcheck u).keepsListed (hbegin.keepsListed hlisted), fun hactive => hretire ((hcheck u).slots k hactive)⟩
  · have hzeroed : ((w.putSlot k {}).sw.getSlot k).state ≠ .active := by simp [State.putSlot, Switch.getSlot]
    have hput : Listed fn mb .retire [.slot k] (w.putSlot k {}) := hlisted
    generalize w.putSlot k {} = u at hzeroed hput
    exact ⟨(hcheck u).keepsListed hput, fun hactive => hzeroed ((hcheck u).slots k hactive)⟩
  · next hretiring => exact ⟨hlisted, by rw [hretiring]; decide⟩

/-! #### STRONGROOM_SET and KEY_REWRAP -/

theorem strongroomSetComplete (h : Accepted strongroomSetForm fn mb s) :
    let t := s.takeCommand strongroomSetForm fn mb
    Answered fn mb mbOk 0 [] s t
      ∧ AnswerFrame ((s.onSys fun y => { y with strongroom := true }).onHost fun h => { h with aperture := t.sw.host.aperture }) t
      ∧ ∀ k, t.sw.host.aperture.find k = (s.sw.host.aperture.find k).map fun a => if k < 64 then a &&& ~~~(0x7C#64) else a := by
  intro t
  obtain ⟨hanswered, hframe⟩ := h.answers (u := (s.dequeued fn mb).strongroomOn) rfl rfl (.refl _)
  have haperture : t.sw.host.aperture = s.sw.host.aperture.mapVals fun k a => if k < 64 then a &&& ~~~(0x7C#64) else a := by
    change (s.takeCommand strongroomSetForm fn mb).sw.host.aperture = _
    rw [hframe.1]
    rfl
  refine ⟨hanswered, AnswerFrame.trans ?_ hframe, fun k => ?_⟩
  · rw [haperture]
    exact ⟨rfl, List.prefix_refl _⟩
  · rw [haperture, Tab.find_mapVals]

theorem keyRewrapComplete {n : Nat} (h : Accepted keyRewrapForm fn mb s) (hn : s.sw.freeRecord = some n) :
    let c := s.sw.cmdOf fn mb 28
    let r : Rewrap := { partition := c.num 0x80 1, fromSlot := c.num 0x81 1, toSlot := c.num 0x82 1, start := c.num 0x88 8, length := c.num 0x90 8,
                        rate := if c.num 0x98 4 = 0 then 16 else c.num 0x98 4, cursor := c.num 0x88 8 }
    let t := s.takeCommand keyRewrapForm fn mb
    Working fn mb (.rewrap n) (.record n :: .slot (c.num 0x81 1) :: .slot (c.num 0x82 1) :: rangeObjs s (c.num 0x80 1) (c.num 0x88 8) (c.num 0x90 8)) [] s t
      ∧ AnswerFrame (s.onMem fun m => { m with rewrap := m.rewrap.put n r }) t := by
  intro c r t
  have hn' : (s.dequeued fn mb).sw.freeRecord = some n := hn
  have hown := h.own_passed ((s.dequeued fn mb).sw.rewrapBlocked (c.num 0x88 8) (c.num 0x90 8), mbConflict, 0)
    (.tail _ (.tail _ (.tail _ (.tail _ (.head _)))))
  have hobjs : rewrapObjs c (s.dequeued fn mb) = .slot (c.num 0x81 1) :: .slot (c.num 0x82 1) :: rangeObjs s (c.num 0x80 1) (c.num 0x88 8) (c.num 0x90 8) := by
    unfold rewrapObjs
    rw [if_neg (Bool.eq_false_iff.mp hown)]
    rfl
  have hc : keyRewrapForm.commit c (s.dequeued fn mb) = (.later (.rewrap n) (.record n :: rewrapObjs c (s.dequeued fn mb)) [],
      (s.dequeued fn mb).onMem fun m => { m with rewrap := m.rewrap.put n r }) := by
    unfold keyRewrapForm
    dsimp only
    rw [hn']
    rfl
  rw [hobjs] at hc
  obtain ⟨hworking, hframe⟩ := h.working hc rfl rfl rfl rfl
  exact ⟨hworking, AnswerFrame.trans ⟨rfl, List.prefix_refl _⟩ hframe⟩

end

/-- Settles O14: KEY_LOAD by what its bytes unwrap to, KEY_RETIRE by the state of its slot, the others by what they set. -/
theorem keyCommandsComplete : Obligations.KeyCommandsComplete := by
  unfold Obligations.KeyCommandsComplete
  refine fun fn mb s => ⟨fun h => ⟨_, rfl, ?kem⟩, fun h => ⟨_, rfl, ?load⟩, fun h => ⟨_, rfl, keyRetireComplete h⟩, fun h => ⟨_, rfl, ?signer⟩,
    fun h => ⟨_, rfl, strongroomSetComplete h⟩, fun h n hn => ⟨_, rfl, keyRewrapComplete h hn⟩, fun h => ⟨_, rfl, ?release⟩⟩
  case kem =>
    obtain ⟨hanswered, hframe⟩ := h.answers rfl rfl ⟨rfl, List.prefix_refl _⟩
    exact ⟨hframe, hanswered⟩
  case load =>
    split
    · next hkey => exact keyLoad_loads h hkey
    · next hkey => exact keyLoad_fails h hkey
  case signer => exact h.answers rfl rfl ⟨rfl, List.prefix_refl _⟩
  case release => exact h.answers rfl rfl ⟨rfl, List.prefix_refl _⟩

end Sys2Proof.Machine

namespace Sys2Proof.Machine

/-! ### What a command asks of the host (18 R452, R454) -/

/-- The bytes that a command writes leave as requests of PF0's maximum payload. -/
theorem State.commandWrite_eq (s : State) (addr : Nat) (data : List Byte) : s.commandWrite addr data
    = { s with out := s.out ++ (cutAccess s.sw.host.pf.maxPayload addr data.length).map fun r => .pcieWrite r.1 (slice data r.2.1 r.2.2) } :=
  State.each_emit _ _ _

section
variable {fn mb : Nat} {s w : State} {a : Active}

/-- A command that finds that the host cannot be reached ends with TIMEOUT at once. -/
theorem State.askHost_ends (hmailbox : ∀ f m, w.sw.mailbox f m = s.sw.mailbox f m) (horder : w.sw.teller.order = s.sw.teller.order.erase (fn, mb))
    (hactive : w.sw.activeOf fn mb = some a) (hseq : a.seq = (s.sw.mailbox fn mb).seq) (hresult : a.result = none) (hdropped : a.dropped = false)
    (hhost : w.sw.hostReads = false) (ask : State → State) :
    let t := w.askHost fn mb ask fun u x => u.finishWork x.fn x.mb mbTimeout []
    Answered fn mb mbTimeout 0 [] s t ∧ AnswerFrame w t := by
  obtain ⟨rfl, rfl⟩ := Switch.activeOf_key hactive
  obtain ⟨x, r, hx, hresponds⟩ := State.completeActive_responds (a := { a with result := some (mbTimeout, []) }) hdropped
    (w.finishWork a.fn a.mb mbTimeout []) mbTimeout []
  have hends : (w.askHost a.fn a.mb ask fun u x => u.finishWork x.fn x.mb mbTimeout []) = x.respond a.fn a.mb (s.sw.mailbox a.fn a.mb).seq mbTimeout 0 r [] := by
    unfold State.askHost
    rw [hhost, hactive, ← hseq]
    exact (State.completeCommand_finishWork hactive hresult mbTimeout []).trans hresponds
  have hxorder : x.sw.teller.order = s.sw.teller.order.erase (a.fn, a.mb) := by
    rw [hx.fields.1]
    exact horder
  dsimp only
  rw [hends]
  refine ⟨State.respond_answered (fun f m => (hx.mailbox f m).trans (hmailbox f m)) hxorder _ _ _ _, ?_⟩
  exact (AnswerFrame.trans ⟨rfl, List.prefix_refl _⟩ hx.answer).trans (State.respond_frame _ _ _ _ _ _ _ _)

/-- Where it can, the command asks. -/
theorem State.askHost_asks (hhost : w.sw.hostReads = true) (ask : State → State) (fails : State → Active → State) : w.askHost fn mb ask fails = ask w :=
  if_pos hhost

theorem AnswerFrame.hostReads {s t : State} (h : AnswerFrame s t) : t.sw.hostReads = s.sw.hostReads := by
  rw [h.1]
  rfl

/-! ### ASSAY_REQUEST (17 R443) -/

/-- An ASSAY_REQUEST that joins the list changes no measured element. -/
theorem Switch.changing_joined {v w : Switch} {x : Active} (hactive : w.teller.active = v.teller.active ++ [x]) (hx : x.work = .assay) :
    w.changing = v.changing := by
  have hne : (Work.assay == Work.reset) = false := rfl
  simp [Switch.changing, Switch.activating, hactive, List.any_append, hx, hne]

theorem AnswerFrame.counted {s t : State} (h : AnswerFrame s t) :
    AnswerFrame (s.onSys fun y => { y with assayCount := y.assayCount + 1 }) (t.onSys fun y => { y with assayCount := y.assayCount + 1 }) := by
  obtain ⟨heq, hout⟩ := h
  refine ⟨?_, hout⟩
  rw [heq]
  rfl

/-- A change of the active command of a mailbox that keeps its key. -/
theorem State.onActive_activeOf {u : State} {g : Active → Active} (h : u.sw.activeOf fn mb = some a) (hg : ∀ x : Active, (g x).fn = x.fn ∧ (g x).mb = x.mb) :
    (u.onActive fn mb g).sw.activeOf fn mb = some (g a) := by
  have hkey := Switch.activeOf_key h
  have hmap : ((fun x : Active => x.fn == fn && x.mb == mb) ∘ fun x => if x.fn == fn && x.mb == mb then g x else x) = fun x : Active => x.fn == fn && x.mb == mb := by
    funext x
    simp only [Function.comp_apply]
    split
    · rw [(hg x).1, (hg x).2]
    · rfl
  unfold Switch.activeOf at h
  simp only [State.onActive, Switch.activeOf, State.onSw_sw, List.find?_map, hmap, h, Option.map_some, hkey]
  simp

theorem assayRequest_start (c : Cmd) (w : State) : assayRequestForm.start c w = match w.sw.activeOf c.fn c.mb with
    | some a => if w.sw.changing then w else w.assaySign a
    | none => w := rfl

/-- The report is composed: COUNTER moves on, and the host is asked to take it, or the command ends. -/
theorem State.assaySign_signs (hmailbox : ∀ f m, w.sw.mailbox f m = s.sw.mailbox f m) (horder : w.sw.teller.order = s.sw.teller.order.erase (fn, mb))
    (hactive : w.sw.activeOf fn mb = some a) (hseq : a.seq = (s.sw.mailbox fn mb).seq) (hresult : a.result = none) (hdropped : a.dropped = false)
    (hwork : a.work = .assay) (hholds : a.holds = []) :
    (if w.sw.hostReads then Listed fn mb .assay [] (w.assaySign a) else Answered fn mb mbTimeout 0 [] s (w.assaySign a))
      ∧ AnswerFrame (w.onSys fun y => { y with assayCount := y.assayCount + 1 }) (w.assaySign a) := by
  obtain ⟨hfn, hmb⟩ := Switch.activeOf_key hactive
  let u := w.onSys fun y => { y with assayCount := y.assayCount + 1 }
  let g (x : Active) : Active := { x with data := [u.sw.sys.assayCount] }
  obtain ⟨data, hsign⟩ : ∃ data, w.assaySign a = (u.onActive fn mb g).askHost fn mb (·.commandWrite (field a.payload 0x20 8) data)
      fun v x => v.finishWork x.fn x.mb mbTimeout [] := by
    rw [← hfn, ← hmb]
    exact ⟨_, rfl⟩
  have hfound : (u.onActive fn mb g).sw.activeOf fn mb = some (g a) := State.onActive_activeOf (g := g) hactive fun _ => ⟨rfl, rfl⟩
  have hframe : AnswerFrame u (u.onActive fn mb g) := ⟨rfl, List.prefix_refl _⟩
  have hhost : (u.onActive fn mb g).sw.hostReads = w.sw.hostReads := rfl
  rw [hsign]
  by_cases hreads : w.sw.hostReads = true
  · rw [if_pos hreads, State.askHost_asks (hhost.trans hreads), State.commandWrite_eq]
    exact ⟨⟨g a, List.mem_of_find?_eq_some hfound, hfn, hmb, hwork, hholds⟩, hframe.trans ⟨rfl, List.prefix_append _ _⟩⟩
  · obtain ⟨hanswered, hends⟩ := State.askHost_ends (s := s) (w := u.onActive fn mb g) hmailbox horder hfound hseq hresult hdropped
      (hhost.trans (Bool.eq_false_iff.mpr hreads)) (·.commandWrite (field a.payload 0x20 8) data)
    rw [if_neg hreads]
    exact ⟨hanswered, hframe.trans hends⟩

theorem assayRequestComplete (h : Accepted assayRequestForm fn mb s) (hnone : s.sw.activeOf fn mb = none) :
    let t := s.takeCommand assayRequestForm fn mb
    (s.sw.changing = true → Working fn mb .assay [] [] s t ∧ AnswerFrame s t)
      ∧ (s.sw.changing = false → (if s.sw.hostReads then Listed fn mb .assay [] t else Answered fn mb mbTimeout 0 [] s t)
        ∧ AnswerFrame (s.onSys fun y => { y with assayCount := y.assayCount + 1 }) t) := by
  intro t
  obtain ⟨w, q, ht, hframe, hteller⟩ := h.starts (work := .assay) (holds := []) (data := []) rfl
  have hmailbox (f m : Nat) : w.sw.mailbox f m = s.sw.mailbox f m := by
    rw [Switch.mailbox, hteller]
    rfl
  have hactive := Switch.activeOf_joined hnone (congrArg Teller.active hteller)
  have hchanging : w.sw.changing = s.sw.changing := Switch.changing_joined (congrArg Teller.active hteller) rfl
  rw [assayRequest_start] at ht
  change t = _ at ht
  have hkey : (s.sw.cmdOf fn mb assayRequestForm.len).fn = fn ∧ (s.sw.cmdOf fn mb assayRequestForm.len).mb = mb := ⟨rfl, rfl⟩
  rw [hkey.1, hkey.2, hactive] at ht
  dsimp only at ht
  clear_value t
  refine ⟨fun hc => ?_, fun hc => ?_⟩
  · rw [ht, if_pos (hchanging.trans hc)]
    exact ⟨⟨hmailbox, by rw [hteller], _, by rw [hteller], rfl, rfl, rfl, rfl, rfl, rfl, rfl, rfl⟩, hframe⟩
  · obtain ⟨hstands, hsigned⟩ := State.assaySign_signs hmailbox (by rw [hteller]) hactive rfl rfl rfl rfl rfl
    rw [hframe.hostReads] at hstands
    rw [ht, if_neg (Bool.eq_false_iff.mp (hchanging.trans hc))]
    exact ⟨hstands, hframe.counted.trans hsigned⟩

end

/-! ### The Ledger commands (22 R524, R525, R527) -/

/-- What a chain keeps while entries come: its region, and that it stands. -/
def Switch.chainOf (w : Switch) (p : Nat) : Option (Nat × Nat) × Bool := ((w.getLedger p).region, (w.getLedger p).started)

section
variable {fn mb : Nat} {s t u : State}

/-- A change of a chain that keeps its region and that it stands, as reports leave the chains. -/
theorem State.putLedger_chainOf (s : State) {p : Nat} {l : Ledger} (hregion : l.region = (s.sw.getLedger p).region) (hstarted : l.started = (s.sw.getLedger p).started)
    (q : Nat) : (s.putLedger p l).sw.chainOf q = s.sw.chainOf q := by
  unfold Switch.chainOf
  by_cases hq : q = p
  · rw [hq, State.putLedger_getLedger, hregion, hstarted]
  · rw [State.putLedger_getLedger_ne hq]

theorem State.chainOf_of_chains (h : t.chains = s.chains) (q : Nat) : t.sw.chainOf q = s.sw.chainOf q := by
  unfold Switch.chainOf Switch.getLedger
  rw [(State.chains_iff.mp h).1]

theorem State.noteHigh_chainOf (s : State) (p q : Nat) : (s.noteHigh p).sw.chainOf q = s.sw.chainOf q := by
  obtain ⟨⟨hi, hu, hself⟩, hne⟩ := s.noteHigh_getLedger p
  unfold Switch.chainOf
  by_cases hq : q = p
  · rw [hq, hself]
  · rw [hne q hq]

theorem State.noteFull_chainOf (s : State) (p q : Nat) : (s.noteFull p).sw.chainOf q = s.sw.chainOf q := by
  unfold State.noteFull
  split
  · rfl
  · rw [State.chainOf_of_chains (State.record_chains _ _)]
    exact s.putLedger_chainOf (by rfl) (by rfl) q

theorem Ledger.foldl_append_chain (es : List Entry) (l : Ledger) : (es.foldl Ledger.append l).region = l.region ∧ (es.foldl Ledger.append l).started = l.started := by
  induction es generalizing l with
  | nil => exact ⟨rfl, rfl⟩
  | cons e es ih => exact ih (l.append e)

theorem State.ledgerSeal_chainOf (s : State) (p q : Nat) : (s.ledgerSeal p).sw.chainOf q = s.sw.chainOf q := by
  unfold State.ledgerSeal
  extract_lets l body e0 e sig parts m
  obtain ⟨hregion, hstarted⟩ : m.region = l.region ∧ m.started = l.started := Ledger.foldl_append_chain (e :: parts) l
  clear_value m e
  split
  · rfl
  split
  · exact s.putLedger_chainOf (by rfl) (by rfl) q
  · rw [State.noteHigh_chainOf]
    exact s.putLedger_chainOf (by exact hregion) (by exact hstarted) q

theorem State.ledgerPut_chainOf (s : State) (p : Nat) (e : Entry) (q : Nat) : (s.ledgerPut p e).sw.chainOf q = s.sw.chainOf q := by
  have hput : ((s.putLedger p ((s.sw.getLedger p).append e)).noteHigh p).sw.chainOf q = s.sw.chainOf q :=
    (State.noteHigh_chainOf _ _ _).trans (s.putLedger_chainOf (by rfl) (by rfl) q)
  unfold State.ledgerPut
  dsimp only
  split
  · rw [State.ledgerSeal_chainOf]
    exact hput
  · exact hput

theorem State.ledgerAdd_chainOf (s : State) (p : Nat) (e : Entry) (q : Nat) : (s.ledgerAdd p e).sw.chainOf q = s.sw.chainOf q := by
  have hqueued (v : State) (hv : v.sw.ledger = s.sw.ledger) : (v.noteFull p).sw.chainOf q = s.sw.chainOf q := by
    rw [State.noteFull_chainOf, Switch.chainOf, Switch.getLedger, hv]
    rfl
  unfold State.ledgerAdd
  dsimp only
  split
  · rfl
  split
  · exact s.ledgerPut_chainOf p e q
  split
  · split
    · rw [State.chainOf_of_chains (State.record_chains _ _)]
      exact hqueued _ rfl
    · exact hqueued _ rfl
  · exact s.noteFull_chainOf p q

theorem State.commandEntry_chainOf (s : State) (c : Cmd) (status : Nat) (point : List Byte) (forced : Bool) (q : Nat) :
    (s.commandEntry c status point forced).1.sw.chainOf q = s.sw.chainOf q := by
  unfold State.commandEntry
  dsimp only
  split
  · rfl
  split
  · exact s.ledgerPut_chainOf _ _ q
  · exact s.ledgerAdd_chainOf _ _ q

theorem State.respond_chainOf (s : State) (fn mb seq status detail q : Nat) (rsp : List Byte) (p : Nat) :
    (s.respond fn mb seq status detail q rsp).sw.chainOf p = s.sw.chainOf p := by
  unfold State.respond State.clearOwn
  dsimp only
  split
  · rw [State.chainOf_of_chains (State.msix_chains _ _ _)]
    rfl
  · rfl

/-- A command that answers at once leaves the chains as its effect has them. -/
theorem Accepted.now_chainOf {k : Form} {rsp : List Byte} (h : Accepted k fn mb s)
    (hc : k.commit (s.sw.cmdOf fn mb k.len) (s.dequeued fn mb) = (.now rsp, u)) (q : Nat) : (s.takeCommand k fn mb).sw.chainOf q = u.sw.chainOf q := by
  rw [State.takeCommand_accepted h]
  unfold State.perform
  rw [hc]
  exact (State.respond_chainOf _ _ _ _ _ _ _ _ q).trans (u.commandEntry_chainOf _ _ _ _ q)

/-- A chain that begins stands with its region. -/
theorem State.ledgerBegin_chainOf (s : State) (p kind : Nat) (region : Option (Nat × Nat)) : (s.ledgerBegin p kind region).sw.chainOf p = (region, true) := by
  unfold State.ledgerBegin
  dsimp only
  rw [State.ledgerAdd_chainOf, Switch.chainOf, State.putLedger_getLedger]

theorem State.ledgerBegin_report (s : State) (p kind : Nat) (region : Option (Nat × Nat)) : ReportFrame s (s.ledgerBegin p kind region) :=
  ReportFrame.trans (State.putLedger_report s p _) (State.ledgerAdd_report _ _ _)

theorem ledgerRegionSetComplete (h : Accepted ledgerRegionSetForm fn mb s) :
    let c := s.sw.cmdOf fn mb 24
    let t := s.takeCommand ledgerRegionSetForm fn mb
    Answered fn mb mbOk 0 [] s t ∧ AnswerFrame s t ∧ (t.sw.getLedger (c.num 0x80 1)).region = some (c.num 0x88 8, c.num 0x90 8)
      ∧ (c.num 0x80 1 ≠ 0 → (t.sw.getLedger (c.num 0x80 1)).started = true) := by
  intro c t
  let p := c.num 0x80 1
  let region := (c.num 0x88 8, c.num 0x90 8)
  let u := if p = 0 then (s.dequeued fn mb).putLedger 0 { s.sw.getLedger 0 with region := some region } else (s.dequeued fn mb).ledgerBegin p 0 (some region)
  have hc : ledgerRegionSetForm.commit (s.sw.cmdOf fn mb ledgerRegionSetForm.len) (s.dequeued fn mb) = (.now [], u) := rfl
  have hreport : ReportFrame (s.dequeued fn mb) u := by
    by_cases hp : p = 0
    · rw [show u = _ from if_pos hp]
      exact State.putLedger_report _ _ _
    · rw [show u = _ from if_neg hp]
      exact State.ledgerBegin_report _ _ _ _
  have hchain : u.sw.chainOf p = (some region, if p = 0 then (s.sw.getLedger 0).started else true) := by
    by_cases hp : p = 0
    · rw [show u = _ from if_pos hp, if_pos hp, Switch.chainOf, hp, State.putLedger_getLedger]
    · rw [show u = _ from if_neg hp, if_neg hp, State.ledgerBegin_chainOf]
  obtain ⟨hanswered, hframe⟩ := h.answers hc hreport.fields.1 hreport.answer
  have hkept := (h.now_chainOf hc p).trans hchain
  refine ⟨hanswered, AnswerFrame.trans ⟨rfl, List.prefix_refl _⟩ hframe, congrArg Prod.fst hkept, fun hp => (congrArg Prod.snd hkept).trans (if_neg hp)⟩

/-- A command that works on, its commit leaving the Teller: its work begins with it last on the list. -/
theorem Accepted.startsAfter {k : Form} {work : Work} {holds : List Obj} {data : List Nat} (h : Accepted k fn mb s)
    (hc : k.commit (s.sw.cmdOf fn mb k.len) (s.dequeued fn mb) = (.later work holds data, u)) (hu : u.sw.teller = (s.dequeued fn mb).sw.teller) :
    ∃ (w : State) (q : Nat), s.takeCommand k fn mb = k.start (s.sw.cmdOf fn mb k.len) w ∧ AnswerFrame u w
      ∧ w.sw.teller = { s.sw.teller with order := s.sw.teller.order.erase (fn, mb)
                                         active := s.sw.teller.active ++ [k.activeAs s fn mb work holds data q] }
      ∧ w.sw.vault = u.sw.vault ∧ w.sw.sys.cfg = u.sw.sys.cfg := by
  obtain ⟨v, q, hv, ht⟩ := h.later hc
  obtain ⟨hteller, -, hvault, -⟩ := hv.fields
  refine ⟨_, q, ht, hv.answer.trans ⟨rfl, List.prefix_refl _⟩, ?_, hvault, ?_⟩
  · rw [State.onTeller_sw, hteller, hu]
    rfl
  · rw [State.onTeller_sw, hv.1]

/-! #### LEDGER_READ -/

theorem ledgerReadComplete (h : Accepted ledgerReadForm fn mb s) :
    let c := s.sw.cmdOf fn mb 40
    let last := (s.sw.getLedger (c.num 0x80 1)).latest (c.num 0x81 1)
    let n := min (min (c.num 0x90 4) (c.num 0xA0 8 / 128)) (last + 1 - c.num 0x88 8)
    let items := (s.sw.getLedger (c.num 0x80 1)).items (c.num 0x81 1) (c.num 0x88 8) n
    let most := s.sw.host.pf.maxPayload
    let t := s.takeCommand ledgerReadForm fn mb
    (s.sw.hostReads = true → Working fn mb .ledgerRead [.partition (c.num 0x80 1)] [n, last] s t ∧ AnswerFrame s t
        ∧ ∀ k < ceilDiv items.length most, Out.pcieWrite (c.num 0x98 8 + most * k) (slice items (most * k) (min most (items.length - most * k))) ∈ t.out)
      ∧ (s.sw.hostReads = false → s.sw.activeOf fn mb = none → Answered fn mb mbTimeout 0 [] s t ∧ AnswerFrame s t) := by
  intro c last n items most t
  let ask (u : State) : State := u.commandWrite (c.num 0x98 8) items
  have hc : ledgerReadForm.commit (s.sw.cmdOf fn mb ledgerReadForm.len) (s.dequeued fn mb)
      = (.later .ledgerRead [.partition (c.num 0x80 1)] [n, last], (s.dequeued fn mb).ifThen s.sw.hostReads ask) := rfl
  have hstart (u : State) : ledgerReadForm.start (s.sw.cmdOf fn mb ledgerReadForm.len) u
      = u.askHost fn mb id fun v a => v.finishWork a.fn a.mb mbTimeout [] := rfl
  have hdequeued : AnswerFrame s (s.dequeued fn mb) := ⟨rfl, List.prefix_refl _⟩
  refine ⟨fun hhost => ?_, fun hhost hnone => ?_⟩
  · have hwrites : (s.dequeued fn mb).ifThen s.sw.hostReads ask
        = { s.dequeued fn mb with out := s.out ++ (cutAccess most (c.num 0x98 8) items.length).map fun r => .pcieWrite r.1 (slice items r.2.1 r.2.2) } :=
      (if_pos hhost).trans (State.commandWrite_eq _ _ _)
    rw [hwrites] at hc
    obtain ⟨w, q, ht, hframe, hteller, -⟩ := h.startsAfter hc rfl
    have hkept : AnswerFrame s w := (hdequeued.trans ⟨rfl, List.prefix_append _ _⟩).trans hframe
    rw [hstart, State.askHost_asks (hkept.hostReads.trans hhost)] at ht
    change t = w at ht
    clear_value t
    rw [ht]
    refine ⟨⟨fun f m => ?_, by rw [hteller], _, by rw [hteller], rfl, rfl, rfl, rfl, rfl, rfl, rfl, rfl⟩, hkept, fun k hk => ?_⟩
    · rw [Switch.mailbox, hteller]
      rfl
    · exact hframe.2.subset (List.mem_append_right _ (List.mem_map.mpr ⟨_, List.mem_map.mpr ⟨k, List.mem_range.mpr hk, rfl⟩, rfl⟩))
  · have hnowrite : (s.dequeued fn mb).ifThen s.sw.hostReads ask = s.dequeued fn mb := if_neg (by simp [hhost])
    rw [hnowrite] at hc
    obtain ⟨w, q, ht, hframe, hteller⟩ := h.starts hc
    have hmailbox (f m : Nat) : w.sw.mailbox f m = s.sw.mailbox f m := by
      rw [Switch.mailbox, hteller]
      rfl
    obtain ⟨hanswered, hends⟩ := State.askHost_ends hmailbox (by rw [hteller]) (Switch.activeOf_joined hnone (congrArg Teller.active hteller)) rfl rfl rfl
      (hframe.hostReads.trans hhost) id
    rw [hstart] at ht
    change t = _ at ht
    clear_value t
    rw [ht]
    exact ⟨hanswered, hframe.trans hends⟩

/-! #### LEDGER_SEAL_NOW -/

/-- A seal that is owed. -/
theorem State.ledgerSeal_owed {p : Nat} (hstarted : (s.sw.getLedger p).started = true)
    (h : ((s.sw.getLedger p).room (15 * 128) true && (s.sw.ledgerQueue.all fun q => q.1 != p)) = false) :
    s.ledgerSeal p = s.putLedger p { s.sw.getLedger p with sealDue := true } := by
  unfold State.ledgerSeal
  dsimp only
  rw [if_neg (by simp [hstarted]), if_pos]
  simp only [Bool.and_eq_false_iff, List.all_eq_false, bne_iff_ne, ne_eq, Decidable.not_not] at h
  obtain h | ⟨q, hq, hp⟩ := h
  · simp [h]
  · simp only [Bool.or_eq_true, List.any_eq_true]
    exact .inr ⟨q, hq, by simp [hp]⟩

theorem ledgerSealNowComplete (h : Accepted ledgerSealNowForm fn mb s) :
    let p := (s.sw.cmdOf fn mb 8).num 0x80 1
    let now := (s.sw.getLedger p).room (15 * 128) true && (s.sw.ledgerQueue.all fun q => q.1 != p)
    let t := s.takeCommand ledgerSealNowForm fn mb
    (now = true → AnswerFrame s t ∧ Answered fn mb mbOk 0 (leBytes 8 (s.sw.getLedger p).nextSeq) s t)
      ∧ (now = false → AnswerFrame s t ∧ Working fn mb .flushed [.partition p] [] s t) := by
  intro p now t
  have hc : ledgerSealNowForm.commit (s.sw.cmdOf fn mb ledgerSealNowForm.len) (s.dequeued fn mb)
      = if (((s.dequeued fn mb).ledgerSeal p).sw.getLedger p).sealDue then (.later .flushed [.partition p] [], (s.dequeued fn mb).ledgerSeal p)
        else (.now (leBytes 8 (((s.dequeued fn mb).ledgerSeal p).sw.getLedger p).lastSeal), (s.dequeued fn mb).ledgerSeal p) := rfl
  have hown := h.own_passed (!((s.dequeued fn mb).sw.getLedger p).started, mbConflict, 0) (.head _)
  have hstarted : ((s.dequeued fn mb).sw.getLedger p).started = true := by simpa using hown
  have hreport := State.ledgerSeal_report (s.dequeued fn mb) p
  have hframe : AnswerFrame s ((s.dequeued fn mb).ledgerSeal p) := AnswerFrame.trans ⟨rfl, List.prefix_refl _⟩ hreport.answer
  refine ⟨fun hnow => ?_, fun hnow => ?_⟩
  · obtain ⟨hroom, hqueue⟩ := Bool.and_eq_true_iff.mp hnow
    have hteller : (s.dequeued fn mb).sw.teller.state ≠ 1 := by
      change s.sw.teller.state ≠ 1
      rw [h.tellerState (by decide)]
      decide
    have hfree : ((s.dequeued fn mb).sw.ledgerQueue.any fun q => q.1 == p) = false := by
      simpa using hqueue
    obtain ⟨hsealed, -⟩ := State.ledgerSeal_sealed hstarted hroom hteller hfree
    rw [if_neg (by simp [hsealed.due]), hsealed.lastSeal] at hc
    obtain ⟨hanswered, hanswer⟩ := h.answers hc hreport.fields.1 hframe
    exact ⟨hanswer, hanswered⟩
  · have hdue : (((s.dequeued fn mb).ledgerSeal p).sw.getLedger p).sealDue = true := by
      rw [State.ledgerSeal_owed hstarted hnow, State.putLedger_getLedger]
    rw [if_pos hdue] at hc
    obtain ⟨hworking, hanswer⟩ := h.working hc rfl (by rw [hreport.fields.1]; rfl) (by rw [hreport.fields.1]; rfl) (by rw [hreport.fields.1]; rfl)
    exact ⟨hframe.trans hanswer, hworking⟩

end

/-! ### The checkpoint commands (10 R275, R276)

CKPT_SAVE reads lines of memory: channels, pages and directory entries may change, and reports; the Teller, the Vault and persistent values do not. -/

/-- The Teller, the Vault, the persistent values, and whether the host can be reached. -/
def State.custody (s : State) : Teller × Vault × Persist × Bool := (s.sw.teller, s.sw.vault, s.sw.sys.cfg, s.sw.hostReads)

section
variable {fn mb : Nat} {s t : State}

theorem ReportFrame.custody (h : ReportFrame s t) : t.custody = s.custody := by
  rw [State.custody, h.fields.1, h.fields.2.2.1, h.1]
  rfl

theorem SentFrame.custody (h : SentFrame s t) : t.custody = s.custody := by
  obtain ⟨hsys, -, -, -, hvault, hteller, -⟩ := h.fields
  rw [State.custody, hteller, hvault, Switch.hostReads, hsys]
  rfl

@[simp] theorem State.count_custody (s : State) (block i : Nat) : (s.count block i).custody = s.custody := rfl

@[simp] theorem State.record_custody (s : State) (o : Occurrence) : (s.record o).custody = s.custody := (State.record_report s o).custody

@[simp] theorem State.onMem_custody (s : State) (g : Mem → Mem) : (s.onMem g).custody = s.custody := rfl

@[simp] theorem State.each_custody {α : Type} {g : State → α → State} (hg : ∀ u a, (g u a).custody = u.custody) (s : State) (l : List α) :
    (s.each l g).custody = s.custody :=
  State.each_keeps (P := fun u => u.custody = s.custody) rfl fun u hu a => (hg u a).trans hu

@[simp] theorem State.backInvLine_custody (s : State) (l : Nat) : (s.backInvLine l).custody = s.custody := by
  have hsend (u : State) (h' slot : Nat) : (u.sendBackInv l h' slot).custody = u.custody := (State.swSend_sent u _ _).custody
  unfold State.backInvLine
  split
  · split
    · rfl
    · exact State.each_custody (fun u h' => hsend u h' _) _ _
  · rfl

@[simp] theorem State.fenceChannelBase_custody (s : State) (c : Nat) : (s.fenceChannelBase c).custody = s.custody := by
  unfold State.fenceChannelBase
  split
  · rfl
  · exact State.record_custody _ _

@[simp] theorem State.fenceChannel_custody (s : State) (c : Nat) : (s.fenceChannel c).custody = s.custody := by
  simp [State.fenceChannel]

@[simp] theorem State.retirePage_custody (s : State) (c page : Nat) : (s.retirePage c page).custody = s.custody := by
  unfold State.retirePage
  dsimp only
  split
  · rfl
  split
  · exact s.fenceChannel_custody c
  · simp

@[simp] theorem State.eccSeen_custody (s : State) (l : Nat) : (s.eccSeen l).custody = s.custody := by
  simp [State.eccSeen]

@[simp] theorem State.eccCorrected_custody (s : State) (l : Nat) : (s.eccCorrected l).custody = s.custody := by
  unfold State.eccCorrected
  dsimp only
  split
  · simp
  · simp

@[simp] theorem State.correctLine_custody (s : State) (l : Nat) : (s.correctLine l).custody = s.custody := by
  unfold State.correctLine
  split
  · rfl
  · split
    · exact State.eccCorrected_custody _ l
    · rfl

@[simp] theorem State.lineRead_custody (s : State) (l : Nat) : (s.lineRead l).custody = s.custody := by
  unfold State.lineRead
  dsimp only
  split
  · rfl
  split
  · exact s.eccSeen_custody l
  · exact s.correctLine_custody l

@[simp] theorem State.settleLine_custody (s : State) (l : Nat) : (s.settleLine l).custody = s.custody := rfl

theorem AnswerFrame.secured (h : AnswerFrame s t) : t.sw.vault = s.sw.vault ∧ t.sw.sys.cfg = s.sw.sys.cfg := by
  rw [h.1]
  exact ⟨rfl, rfl⟩

/-- CKPT_SAVE takes copies back, waits, or writes its image, or ends where the host cannot be reached. -/
theorem State.ckptTry_tries {w : State} {a : Active} {holds : List Obj} (hmailbox : ∀ f m, w.sw.mailbox f m = s.sw.mailbox f m)
    (horder : w.sw.teller.order = s.sw.teller.order.erase (fn, mb))
    (hactive : w.sw.activeOf fn mb = some a) (hseq : a.seq = (s.sw.mailbox fn mb).seq) (hresult : a.result = none) (hdropped : a.dropped = false)
    (hwork : a.work = .ckpt) (hholds : a.holds = holds) :
    let t := w.ckptTry a
    t.sw.vault = w.sw.vault ∧ t.sw.sys.cfg = w.sw.sys.cfg ∧ (Listed fn mb .ckpt holds t ∨ w.sw.hostReads = false ∧ Answered fn mb mbTimeout 0 [] s t) := by
  obtain ⟨hfn, hmb⟩ := Switch.activeOf_key hactive
  have hlisted : Listed fn mb .ckpt holds w := ⟨a, List.mem_of_find?_eq_some hactive, hfn, hmb, hwork, hholds⟩
  have hof {u : State} (hu : u.custody = w.custody) : u.sw.teller = w.sw.teller ∧ u.sw.vault = w.sw.vault ∧ u.sw.sys.cfg = w.sw.sys.cfg ∧ u.sw.hostReads = w.sw.hostReads := by
    simpa [State.custody] using hu
  dsimp only
  unfold State.ckptTry
  extract_lets r owned u h body d image
  split
  · obtain ⟨hteller, hvault, hcfg, -⟩ := hof (State.each_custody (g := State.backInvLine) State.backInvLine_custody w owned)
    refine ⟨hvault, hcfg, .inl ?_⟩
    rw [Listed, hteller]
    exact hlisted
  split
  · exact ⟨rfl, rfl, .inl hlisted⟩
  · obtain ⟨hteller, hvault, hcfg, hreads⟩ := hof (u := u) (State.each_custody (fun v l => by simp) w r.lines)
    clear_value u image d
    have hfound : u.sw.activeOf fn mb = some a := by
      rw [Switch.activeOf, hteller]
      exact hactive
    rw [hfn, hmb]
    have hnoted := State.onActive_activeOf (g := fun x => { x with data := [a.data.getD 0 0, a.data.getD 1 0, d.toNat] }) hfound fun _ => ⟨rfl, rfl⟩
    by_cases hhost : w.sw.hostReads = true
    · have hopen : (u.onActive fn mb fun x => { x with data := [a.data.getD 0 0, a.data.getD 1 0, d.toNat] }).sw.hostReads = true := hreads.trans hhost
      rw [State.askHost_asks hopen, State.commandWrite_eq]
      exact ⟨hvault, hcfg, .inl ⟨_, List.mem_of_find?_eq_some hnoted, hfn, hmb, hwork, hholds⟩⟩
    · have hnone := Bool.eq_false_iff.mpr hhost
      obtain ⟨hanswered, hframe⟩ := State.askHost_ends (s := s) (w := u.onActive fn mb fun x => { x with data := [a.data.getD 0 0, a.data.getD 1 0, d.toNat] })
        (fun f m => by rw [Switch.mailbox, ← hmailbox, Switch.mailbox, ← hteller]; rfl) (by rw [← horder, ← hteller]; rfl) hnoted hseq hresult hdropped
        (hreads.trans hnone) (·.commandWrite r.addr image)
      exact ⟨hframe.secured.1.trans hvault, hframe.secured.2.trans hcfg, .inr ⟨hnone, hanswered⟩⟩

theorem ckptSave_start (c : Cmd) (w : State) : ckptSaveForm.start c w = match w.sw.activeOf c.fn c.mb with
    | some a => w.ckptTry a
    | none => w := rfl

theorem ckptSaveComplete (h : Accepted ckptSaveForm fn mb s) (hnone : s.sw.activeOf fn mb = none) :
    let t := s.takeCommand ckptSaveForm fn mb
    t.sw.vault = s.sw.vault ∧ t.sw.sys.cfg = s.sw.sys.cfg
      ∧ (Listed fn mb .ckpt (ckptObjs (s.sw.cmdOf fn mb 40) s) t ∨ s.sw.hostReads = false ∧ Answered fn mb mbTimeout 0 [] s t) := by
  intro t
  obtain ⟨data, p, e, hc⟩ : ∃ data p e, ckptSaveForm.commit (s.sw.cmdOf fn mb ckptSaveForm.len) (s.dequeued fn mb)
      = (.later .ckpt (ckptObjs (s.sw.cmdOf fn mb 40) s) data, (s.dequeued fn mb).ledgerAdd p e) := ⟨_, _, _, rfl⟩
  have hreport := State.ledgerAdd_report (s.dequeued fn mb) p e
  obtain ⟨w, q, ht, hframe, hteller, -⟩ := h.startsAfter hc hreport.fields.1
  have hkept : AnswerFrame s w := (AnswerFrame.trans ⟨rfl, List.prefix_refl _⟩ hreport.answer).trans hframe
  have hmailbox (f m : Nat) : w.sw.mailbox f m = s.sw.mailbox f m := by
    rw [Switch.mailbox, hteller]
    rfl
  have hactive := Switch.activeOf_joined hnone (congrArg Teller.active hteller)
  obtain ⟨hvault, hcfg, hends⟩ := State.ckptTry_tries hmailbox (by rw [hteller]) hactive rfl rfl rfl rfl rfl
  have hkey : (s.sw.cmdOf fn mb ckptSaveForm.len).fn = fn ∧ (s.sw.cmdOf fn mb ckptSaveForm.len).mb = mb := ⟨rfl, rfl⟩
  rw [ckptSave_start, hkey.1, hkey.2, hactive] at ht
  change t = _ at ht
  clear_value t
  rw [ht]
  refine ⟨hvault.trans hkept.secured.1, hcfg.trans hkept.secured.2, hends.imp_right fun hlate => ?_⟩
  rwa [hkept.hostReads] at hlate

end

/-- Settles O15: each command by what its commit writes, and by whether the host can be reached. -/
theorem ledgerAndCheckpointCommandsComplete : Obligations.LedgerAndCheckpointCommandsComplete := by
  unfold Obligations.LedgerAndCheckpointCommandsComplete
  refine fun fn mb s => ⟨fun h hnone => ?assay, fun h => ⟨_, rfl, ledgerRegionSetComplete h⟩, fun h => ?read, fun h => ?sealing,
    fun h hnone => ⟨_, rfl, ckptSaveComplete h hnone⟩, fun h => h.asksHost rfl rfl fun _ => rfl⟩
  case assay =>
    obtain ⟨hwaits, hsigns⟩ := assayRequestComplete h hnone
    exact ⟨fun hc => ⟨_, rfl, hwaits hc⟩, fun hc => ⟨_, rfl, hsigns hc⟩⟩
  case read =>
    obtain ⟨hreads, hlate⟩ := ledgerReadComplete h
    exact ⟨fun hhost => ⟨_, rfl, hreads hhost⟩, fun hhost hnone => ⟨_, rfl, hlate hhost hnone⟩⟩
  case sealing =>
    obtain ⟨hnow, hlater⟩ := ledgerSealNowComplete h
    exact ⟨fun hn => ⟨_, rfl, hnow hn⟩, fun hn => ⟨_, rfl, hlater hn⟩⟩
end Sys2Proof.Machine

namespace Sys2Proof.Machine

/-! ### The host window (18 R458 to R461) -/

section
variable {s t u : State} {fn : Nat}

theorem SentFrame.host (h : SentFrame s t) : t.sw.host = s.sw.host := by
  rw [h.1]

theorem SentFrame.hostRefuses (h : SentFrame s t) (o : HostOp) : t.sw.hostRefuses o = s.sw.hostRefuses o := by
  rw [h.1]
  rfl

/-- The access that a function makes through an aperture. -/
def Switch.hostOp (w : Switch) (fn : Nat) (ctag : Option Nat) (addr len : Nat) (data : List Byte) : HostOp :=
  { id := w.host.nextOp, fn := fn, ctag := ctag, addr := addr, len := len, data := data, aperture := w.host.aperture.get (fn * 64 + addr / 2 ^ 30) 0 }

theorem State.hostAccess_eq (s : State) (ctag : Option Nat) (addr len : Nat) (data : List Byte) : (s.work 5 0).hostAccess fn ctag addr len data
    = if s.sw.hostRefuses (s.sw.hostOp fn ctag addr len data) then
        match ctag with
        | some t => (s.work 5 0).emit (.pcieCpl fn t none)
        | none => (s.work 5 0).count 0 cHostRefused
      else ((s.work 5 0).onHost fun h => { h with ops := h.ops ++ [s.sw.hostOp fn ctag addr len data], nextOp := h.nextOp + 1 }).startOps := by
  have hwork := State.work_sent s 5 0
  unfold State.hostAccess
  dsimp only
  rw [hwork.hostRefuses, hwork.host]
  rfl

theorem Switch.hostRefuses_disabled {w : Switch} {o : HostOp} (h : o.aperture.getLsbD 0 = false ∨ o.ctag.isNone = true ∧ o.aperture.getLsbD 1 = false) :
    w.hostRefuses o = true := by
  unfold Switch.hostRefuses apEnable apWrite
  obtain h | ⟨hnone, h⟩ := h
  · simp only [h, Bool.not_false, Bool.true_or]
  · simp only [h, hnone, Bool.not_false, Bool.and_true, Bool.or_true, Bool.true_or]

/-! ### Resets of the functions (18 R453, 25 R579) -/

/-- t is s with other commands on the Teller's list, and with other numbers of theirs where they work. -/
def Detached (s t : State) : Prop :=
  t = { s with sw := { s.sw with
    teller := { s.sw.teller with active := t.sw.teller.active }
    xlat := t.sw.xlat
    mgmt := t.sw.mgmt
    mem := { s.sw.mem with home := { s.sw.mem.home with jobs := t.sw.mem.home.jobs } } } }

theorem Detached.refl (s : State) : Detached s s := rfl

theorem Detached.trans (h : Detached s t) (k : Detached t u) : Detached s u := by
  rw [Detached] at h k ⊢
  rw [k, h]

theorem State.detach_detached (s : State) (fn mb : Nat) : Detached s (s.detach fn mb) := rfl

/-- The mailboxes of a function that is reset. -/
def resetBoxes (fn : Nat) (t : Tab Mailbox) : Tab Mailbox :=
  t.mapVals fun k m => if k / 16 = fn then { m with own := false, rspHeader := 0, ledgerSeq := 0, rsp := [], lastSeq := 0 } else m

/-- Its apertures. -/
def resetApertures (fn : Nat) (t : Tab (BitVec 64)) : Tab (BitVec 64) := t.mapVals fun k a => if k / 64 = fn then a &&& ~~~1#64 else a

/-- What a function-level reset leaves. -/
structure FunctionReset (fn : Nat) (s t : State) : Prop where
  mbox : t.sw.teller.mbox = resetBoxes fn s.sw.teller.mbox
  order : t.sw.teller.order = s.sw.teller.order.filter fun c => c.1 != fn
  aperture : t.sw.host.aperture = resetApertures fn s.sw.host.aperture
  memory : t.sw.mem.home.mem = s.sw.mem.home.mem
  core : t.sw.core = s.sw.core
  link : t.sw.link = s.sw.link
  ledger : t.sw.ledger = s.sw.ledger
  sys : t.sw.sys = s.sw.sys
  ep : t.ep = s.ep
  out : t.out = s.out

theorem State.functionReset_resets (s : State) (fn : Nat) : FunctionReset fn s (s.functionReset fn) := by
  have hdetached (l : List Nat) : Detached s (s.each l fun u mb => u.detach fn mb) :=
    State.each_keeps (P := fun u => Detached s u) (.refl s) fun u hu mb => hu.trans (u.detach_detached fn mb)
  unfold State.functionReset
  dsimp only
  have h := hdetached ((s.sw.teller.active.filter fun a => a.fn == fn && decide (a.mb < 16)).map (·.mb))
  generalize (s.each _ fun u mb => u.detach fn mb) = u at h
  rw [h]
  constructor <;> rfl

/-- A table mapped over where the default stays the default. -/
theorem Tab.get_mapVals {α : Type} {f : Nat → α → α} {d : α} {k : Nat} (hd : f k d = d) (t : Tab α) : (t.mapVals f).get k d = f k (t.get k d) := by
  unfold Tab.get
  rw [Tab.find_mapVals]
  cases t.find k with
  | none => exact hd.symm
  | some a => rfl

theorem mbKey_div {f mb : Nat} (h : mb < 16) : mbKey f mb / 16 = f := by
  unfold mbKey
  omega

theorem resetBoxes_get (fn k : Nat) (t : Tab Mailbox) : (resetBoxes fn t).get k {}
    = if k / 16 = fn then { t.get k {} with own := false, rspHeader := 0, ledgerSeq := 0, rsp := [], lastSeq := 0 } else t.get k {} :=
  Tab.get_mapVals (f := fun (k : Nat) (m : Mailbox) => if k / 16 = fn then { m with own := false, rspHeader := 0, ledgerSeq := 0, rsp := [], lastSeq := 0 } else m)
    (d := {}) (by split <;> rfl) t

theorem FunctionReset.mailbox_self (h : FunctionReset fn s t) {mb : Nat} (hmb : mb < 16) :
    t.sw.mailbox fn mb = { s.sw.mailbox fn mb with own := false, rspHeader := 0, ledgerSeq := 0, rsp := [], lastSeq := 0 } := by
  rw [Switch.mailbox, h.mbox, resetBoxes_get, if_pos (mbKey_div hmb), ← Switch.mailbox]

theorem FunctionReset.mailbox_ne (h : FunctionReset fn s t) {f mb : Nat} (hf : f ≠ fn) (hmb : mb < 16) : t.sw.mailbox f mb = s.sw.mailbox f mb := by
  rw [Switch.mailbox, h.mbox, resetBoxes_get, if_neg (by rwa [mbKey_div hmb]), ← Switch.mailbox]

theorem FunctionReset.aperture_get (h : FunctionReset fn s t) {a : Nat} (ha : a < 64) :
    t.sw.host.aperture.get (fn * 64 + a) 0 = s.sw.host.aperture.get (fn * 64 + a) 0 &&& ~~~1#64 := by
  rw [h.aperture, resetApertures, Tab.get_mapVals (by simp), if_pos (by omega)]

theorem FunctionReset.sameMemory (h : FunctionReset fn s t) : SameMemory s t := fun a => by
  rw [h.memory, h.ep]
  exact ⟨rfl, rfl⟩

/-- What the reset of some functions leaves, one after another. -/
structure FunctionsReset (l : List Nat) (s t : State) : Prop where
  own : ∀ fn ∈ l, ∀ mb < 16, (t.sw.mailbox fn mb).own = false
  cleared : ∀ fn, ∀ mb < 16, (s.sw.mailbox fn mb).own = false → (t.sw.mailbox fn mb).own = false
  order : t.sw.teller.order = s.sw.teller.order.filter fun c => !l.contains c.1
  memory : SameMemory s t
  core : t.sw.core = s.sw.core
  link : t.sw.link = s.sw.link
  ledger : t.sw.ledger = s.sw.ledger
  sys : t.sw.sys = s.sw.sys
  ep : t.ep = s.ep
  out : t.out = s.out

theorem State.functionResets (l : List Nat) (s : State) : FunctionsReset l s (s.each l fun u fn => u.functionReset fn) := by
  induction l generalizing s with
  | nil => exact ⟨fun _ h => absurd h List.not_mem_nil, fun _ _ _ h => h, (List.filter_eq_self.mpr fun _ _ => rfl).symm, fun _ => ⟨rfl, rfl⟩, rfl, rfl, rfl, rfl, rfl, rfl⟩
  | cons f l ih =>
    have hone := s.functionReset_resets f
    have hrest := ih (s.functionReset f)
    have hfirst (fn mb : Nat) (hmb : mb < 16) (h : fn = f ∨ (s.sw.mailbox fn mb).own = false) : ((s.functionReset f).sw.mailbox fn mb).own = false := by
      by_cases hf : fn = f
      · rw [hf, hone.mailbox_self hmb]
      · rw [hone.mailbox_ne hf hmb]
        exact h.resolve_left hf
    refine ⟨fun fn hfn mb hmb => ?_, fun fn mb hmb h => hrest.cleared fn mb hmb (hfirst fn mb hmb (.inr h)), ?_, hone.sameMemory.trans hrest.memory,
      hrest.core.trans hone.core, hrest.link.trans hone.link, hrest.ledger.trans hone.ledger, hrest.sys.trans hone.sys, hrest.ep.trans hone.ep,
      hrest.out.trans hone.out⟩
    · obtain hf | hfn := List.mem_cons.mp hfn
      · exact hrest.cleared fn mb hmb (hfirst fn mb hmb (.inl hf))
      · exact hrest.own fn hfn mb hmb
    · refine hrest.order.trans ?_
      rw [hone.order, List.filter_filter]
      refine List.filter_congr fun c _ => ?_
      simp only [List.contains_cons, Bool.not_or, bne]
      exact Bool.and_comm _ _

/-! ### PERST_N rises, and the sideband (18 R466, R467) -/

theorem State.perstRelease_up (h : s.sw.romDone = true) : s.perstRelease = { s with
    sw := { s.sw with sys := { s.sw.sys with perstN := true, hostLink := true, hostGen := 1 + Config.freeBits s.fresh % 7
                                             hostWidth := [16, 8, 4, 2, 1].getD (Config.freeBits (s.fresh + 1) % 5) 16 } }
    fresh := s.fresh + 2 } := by
  unfold State.perstRelease State.trainHost
  rw [h]
  rfl

theorem State.perstRelease_down (h : s.sw.romDone = false) :
    s.perstRelease = { s with sw := { s.sw with sys := { s.sw.sys with perstN := true, hostLink := false } } } := by
  unfold State.perstRelease State.trainHost
  rw [h]
  rfl

/-- A width that the HOST link trains to. -/
theorem hostWidth_mem (n : Nat) : [16, 8, 4, 2, 1].getD (n % 5) 16 ∈ [16, 8, 4, 2, 1] := by
  have h : ∀ i < 5, [16, 8, 4, 2, 1].getD i 16 ∈ [16, 8, 4, 2, 1] := by decide
  exact h _ (Nat.mod_lt _ (by decide))

theorem perstReleaseComplete (s : State) : After .perstNRelease s fun t =>
    t = { s with
      sw := { s.sw with sys := { s.sw.sys with perstN := true, hostLink := s.sw.romDone, hostGen := t.sw.sys.hostGen, hostWidth := t.sw.sys.hostWidth } }
      fresh := t.fresh }
    ∧ (s.sw.romDone = true → 1 ≤ t.sw.sys.hostGen ∧ t.sw.sys.hostGen ≤ 7 ∧ t.sw.sys.hostWidth ∈ [16, 8, 4, 2, 1])
    ∧ (s.sw.romDone = false → t.sw.sys.hostGen = s.sw.sys.hostGen ∧ t.sw.sys.hostWidth = s.sw.sys.hostWidth) := by
  refine ⟨_, rfl, ?_⟩
  cases hup : s.sw.romDone with
  | true =>
    rw [State.perstRelease_up hup]
    refine ⟨rfl, fun _ => ⟨Nat.le_add_right 1 _, ?_, hostWidth_mem _⟩, fun h => absurd h (by decide)⟩
    have hmod := Nat.mod_lt (Config.freeBits s.fresh) (show 0 < 7 by decide)
    dsimp only
    omega
  | false =>
    rw [State.perstRelease_down hup]
    exact ⟨rfl, fun h => absurd h (by decide), fun _ => ⟨rfl, rfl⟩⟩

theorem State.pldm_serves (h : s.sw.teller.state = 0) (item : PldmItem) : s.pldm item = match item with
    | .temperature _ | .current _ | .input => s.free.2.emit (.pldm item s.free.1)
    | .power => s.emit (.pldm item (if s.sw.sys.strongroom then s.sw.power.average / 4 * 4 else s.sw.power.average))
    | .pace => s.emit (.pldm item (if s.sw.sys.strongroom then 0 else s.sw.power.p))
    | .domain k i => s.emit (.pldm item (s.sw.domain k i).state)
    | .events => s.emit (.pldm item (s.sw.tally.nextSeq - 1)) :=
  if_neg (not_not_intro h)

end

/-- Settles O21: accesses by what their aperture says, resets function by function, the HOST link's training and the sideband by case. -/
theorem hostWindowAndResetsComplete : Obligations.HostWindowAndResetsComplete := by
  unfold Obligations.HostWindowAndResetsComplete
  refine fun s => ⟨fun hlink fn addr => ⟨fun ctag len => ⟨fun hap => ?readRefused, fun hap => ?readJoins⟩, fun data => ⟨fun hap => ?writeRefused, fun hap => ?writeJoins⟩⟩,
    fun hlink fn => ⟨_, congrArg Host.Outcome.next (if_pos hlink), ?functionReset⟩, ⟨_, rfl, ?perst⟩, perstReleaseComplete s,
    fun h item => congrArg Host.Outcome.next (if_pos h), fun h => ⟨?events, ?pace, ?power, fun k i => ?domain, fun n => ?temperature⟩⟩
  case readRefused =>
    refine congrArg Host.Outcome.next ((if_pos hlink).trans ((s.hostAccess_eq (some ctag) addr len []).trans (if_pos ?_)))
    exact Switch.hostRefuses_disabled (.inl hap)
  case readJoins => exact congrArg Host.Outcome.next ((if_pos hlink).trans ((s.hostAccess_eq (some ctag) addr len []).trans (if_neg (Bool.eq_false_iff.mp hap))))
  case writeRefused =>
    refine congrArg Host.Outcome.next ((if_pos hlink).trans ((s.hostAccess_eq none addr data.length data).trans (if_pos ?_)))
    exact Switch.hostRefuses_disabled (hap.imp_right fun h => ⟨rfl, h⟩)
  case writeJoins => exact congrArg Host.Outcome.next ((if_pos hlink).trans ((s.hostAccess_eq none addr data.length data).trans (if_neg (Bool.eq_false_iff.mp hap))))
  case functionReset =>
    have h := s.functionReset_resets fn
    exact ⟨fun mb hmb => h.mailbox_self hmb, fun f hf mb hmb => h.mailbox_ne hf hmb, fun a ha => h.aperture_get ha, h.order, h.sameMemory, h.core, h.link,
      h.ledger, h.sys, h.ep, h.out⟩
  case perst =>
    have h := State.functionResets (List.range 16) s
    unfold State.perst
    generalize s.each (List.range 16) (fun u fn => u.functionReset fn) = u at h
    refine ⟨?_, fun fn hfn mb hmb => h.own fn (List.mem_range.mpr hfn) mb hmb, h.order.trans (List.filter_congr fun c _ => ?_), h.memory, h.core, h.link, h.ledger, h.ep, h.out⟩
    · exact congrArg (fun y : Sys => { y with perstN := false, hostLink := false }) h.sys
    · rw [Bool.eq_iff_iff]
      simp [List.contains_eq_mem, List.mem_range]
  case events => exact congrArg Host.Outcome.next (State.pldm_serves h _)
  case pace => exact congrArg Host.Outcome.next (State.pldm_serves h _)
  case power => exact congrArg Host.Outcome.next (State.pldm_serves h _)
  case domain => exact congrArg Host.Outcome.next (State.pldm_serves h _)
  case temperature => exact congrArg Host.Outcome.next (State.pldm_serves h _)

end Sys2Proof.Machine

namespace Sys2Proof.Machine

/-! ### Records of end-points (23 R545 to R548) -/

/-- What the switch knows of end-points. -/
def State.records (s : State) : Nat → EpRec := s.sw.epRec

theorem State.records_of_footing {s t : State} {k : Bool} (h : t.footing k = s.footing k) : t.records = s.records :=
  congrArg (fun (r : Tab EpRec) (x : Nat) => r.get x {}) (congrArg (·.2.1) h)

theorem State.each_records {α : Type} {g : State → α → State} (hg : ∀ u a, (g u a).records = u.records) (s : State) (l : List α) :
    (s.each l g).records = s.records :=
  State.each_keeps (P := fun u => u.records = s.records) rfl fun u hu a => (hg u a).trans hu

theorem State.fencePort_records (s : State) (p why : Nat) : (s.fencePort p why).records = s.records := by
  have hrest : (s.fencePort p why).footing false = (s.leavePort p .fenced why).footing false := by
    unfold State.fencePort
    simp
  exact (State.records_of_footing hrest).trans (funext fun x => s.leavePort_epRec p .fenced why x)

theorem State.invalPoll_records (s : State) : s.invalPoll.records = s.records := by
  have hack (u : State) (number engines : Nat) (f : Frame) : (u.ackInval number engines f).records = u.records :=
    State.records_of_footing (State.swSend_footing false u _ _)
  refine State.each_records (fun u x => ?_) _ _
  unfold State.invalCheck
  extract_lets live y put v z
  have hv : v.records = u.records := State.each_records (fun w a => hack w _ _ _) u _
  split
  · rfl
  split
  · split
    · exact hv
    · exact hv
  · exact hv

theorem State.regionCheck_records (s : State) : s.regionCheck.records = s.records := by
  have htake : s.takeBackDue.records = s.records := State.records_of_footing (State.takeBackDue_footing s)
  unfold State.regionCheck
  dsimp only
  refine (State.each_records (fun u j => ?_) _ _).trans ((State.each_records (fun u j => by rfl) _ _).trans htake)
  split
  · rfl
  split
  · split
    · rfl
    · rfl
  · rfl

theorem State.regionGone_records (s : State) : s.regionGone.records = s.records := by
  unfold State.regionGone
  dsimp only
  rw [State.regionCheck_records]
  exact State.each_records (g := fun u (j : RegionJob) => u.onActive j.fn j.mb fun a => { a with data := 1 :: a.data }) (fun _ _ => rfl) s _

/-- The one step of a verdict, in the record of its end-point. -/
theorem State.applyVerdict_records {s : State} {h old : Nat} (hinc : (s.sw.epRec h).inc = old) (cause : Nat) (came : Option Nat) :
    (s.applyVerdict h old cause came).records
      = (s.onEpRec h fun r => { r with inc := (old + 1) % 16, verdict := true, misses := 0, suspects := [], acked := true, beat := [], readmitting := false }).records := by
  unfold State.applyVerdict
  rw [if_neg (not_not_intro hinc)]
  extract_lets new u data here v w x y z
  have hw : w.records = u.records := State.records_of_footing (k := false) (by simp [w, v])
  have hx : x.records = w.records := by
    by_cases hhere : (here && (w.sw.getLink (epSlot h)).state != .fenced) = true
    · rw [show x = _ from if_pos hhere, State.fencePort_records]
      exact State.records_of_footing (State.verdictOut_footing false _ _ _ _)
    · rw [show x = _ from if_neg hhere]
  have hz : z.records = x.records := by
    have hgone : z.records = (y.loseMember h none).records := State.invalPoll_records _
    exact hgone.trans (State.records_of_footing (k := false) (by simp [y]))
  have hlast : (z.record { kind := fVerdict, domain := 7, index := h }).records = z.records := State.records_of_footing (State.record_footing false z _)
  exact hlast.trans (hz.trans (hx.trans hw))

/-- A VERDICT for the incarnation that the switch holds. -/
theorem State.verdictSwitch_marks {s : State} {h inc : Nat} (p : Nat) (f : Frame) (hstate : s.sw.teller.state ≠ 1) (hh : field f.data 0 2 = h)
    (hinc : field f.data 2 1 = inc) (hheld : (s.sw.epRec h).inc = inc) :
    let t := (s.verdictSwitch p f).regionGone
    (t.sw.epRec h).verdict = true ∧ (t.sw.epRec h).inc = (inc + 1) % 16 := by
  subst hh hinc
  have hverdict : s.verdictSwitch p f = s.applyVerdict (field f.data 0 2) (field f.data 2 1) (field f.data 4 1) (some p) := if_neg hstate
  have hrec := congrFun ((State.regionGone_records (s.verdictSwitch p f)).trans ((congrArg State.records hverdict).trans (State.applyVerdict_records hheld _ _))) (field f.data 0 2)
  have hput := hrec.trans (State.epRec_onEpRec s (field f.data 0 2) _)
  dsimp only
  rw [show (s.verdictSwitch p f).regionGone.sw.epRec (field f.data 0 2) = _ from hput]
  exact ⟨rfl, rfl⟩

/-! ### Heartbeats (23 R545) -/

/-- What an instant does with one edge port. -/
def State.beatPort (beat : List Byte) (s : State) (p : Nat) : State :=
  let h := s.sw.peer p
  let r := s.sw.epRec h
  let l := s.sw.getLink p
  if r.verdict ∨ r.readmitting ∨ ¬r.admitted then s
  else if l.state = .nap ∨ l.state = .rest then s
  else
    let s := if l.state ≠ .active ∨ (¬r.acked ∧ ¬r.beat.isEmpty) then s.miss h else s
    if (s.sw.getLink p).state = .active then (s.onEpRec h fun r => { r with acked := false, beat := beat }).mgmtOut .sw p mHeartbeat 0 beat
    else s.onEpRec h fun r => { r with beat := [] }

theorem State.heartbeatInstant_eq {s : State} (h : s.sw.teller.state = 0) :
    s.heartbeatInstant = s.each (ports64.filter fun p => isEdge s.sw.sys p) (State.beatPort (instantBytes (s.now .sw))) := if_neg (not_not_intro h)

/-- The record of an end-point after its beat. -/
def EpRec.beaten (beat : List Byte) (r : EpRec) : EpRec := if r.admitted then { r with acked := false, beat := beat } else r

/-- An end-point whose admitted record has its answer, on an ACTIVE port. -/
def State.Answers (s : State) (p : Nat) : Prop := (s.sw.epRec (s.sw.peer p)).admitted = true →
  (s.sw.getLink p).state = .active ∧ (s.sw.epRec (s.sw.peer p)).acked = true ∧ (s.sw.epRec (s.sw.peer p)).verdict = false
    ∧ (s.sw.epRec (s.sw.peer p)).readmitting = false

theorem State.beatPort_answered {s : State} {p : Nat} (h : s.Answers p) (beat : List Byte) : s.beatPort beat p
    = if (s.sw.epRec (s.sw.peer p)).admitted then (s.onEpRec (s.sw.peer p) fun r => { r with acked := false, beat := beat }).mgmtOut .sw p mHeartbeat 0 beat else s := by
  unfold State.beatPort
  dsimp only
  by_cases ha : (s.sw.epRec (s.sw.peer p)).admitted = true
  · obtain ⟨hactive, hacked, hverdict, hreadmitting⟩ := h ha
    rw [if_pos ha, if_neg (by simp [ha, hverdict, hreadmitting]), if_neg (by simp [hactive])]
    simp only [hactive, hacked, ne_eq, not_true_eq_false, false_and, or_false, if_false, if_true]
  · rw [if_neg ha, if_pos (by simp [ha])]

theorem State.beatPort_beats {s : State} {p : Nat} (h : s.Answers p) (beat : List Byte) :
    let t := s.beatPort beat p
    t.sw.epRec (s.sw.peer p) = (s.sw.epRec (s.sw.peer p)).beaten beat ∧ (∀ x ≠ s.sw.peer p, t.sw.epRec x = s.sw.epRec x) ∧ t.sw.sys = s.sw.sys
      ∧ t.sw.link = s.sw.link ∧ SameMemory s t := by
  intro t
  have ht : t = _ := State.beatPort_answered h beat
  clear_value t
  unfold EpRec.beaten
  by_cases ha : (s.sw.epRec (s.sw.peer p)).admitted = true
  · rw [if_pos ha] at ht ⊢
    let u := s.onEpRec (s.sw.peer p) fun r => { r with acked := false, beat := beat }
    have hsent : SentFrame u t := ht ▸ State.swSendPort_sent _ _ _ _
    obtain ⟨hsys, -, hlink, hmem, -, -, -, hmgmt, -, -, -, -, hep, -⟩ := hsent.fields
    refine ⟨?_, fun x hx => ?_, hsys, hlink, .of_homes (congrArg Mem.home hmem) (congrArg EndPoint.home hep)⟩
    · rw [Switch.epRec, hmgmt]
      exact State.epRec_onEpRec s _ _
    · rw [Switch.epRec, hmgmt]
      exact Tab.get_put_ne _ _ _ _ _ hx
  · rw [if_neg ha] at ht ⊢
    rw [ht]
    exact ⟨rfl, fun _ _ => rfl, rfl, rfl, fun _ => ⟨rfl, rfl⟩⟩

/-- The end-points of edge ports differ. -/
theorem Switch.peer_inj {w : Switch} {p q : Nat} (hp : isEdge w.sys p = true) (hq : isEdge w.sys q = true) (h : w.peer p = w.peer q) : p = q := by
  unfold Switch.peer epId at h
  rw [if_pos hp, if_pos hq] at h
  omega

theorem State.beats_records (beat : List Byte) {l : List Nat} (hl : l.Nodup) (s : State) (hedge : ∀ p ∈ l, isEdge s.sw.sys p = true) (h : ∀ p ∈ l, s.Answers p) :
    let t := s.each l (State.beatPort beat)
    (∀ p ∈ l, t.sw.epRec (s.sw.peer p) = (s.sw.epRec (s.sw.peer p)).beaten beat) ∧ (∀ x, (∀ p ∈ l, x ≠ s.sw.peer p) → t.sw.epRec x = s.sw.epRec x) ∧ SameMemory s t := by
  induction l generalizing s with
  | nil => exact ⟨fun _ hp => absurd hp List.not_mem_nil, fun _ _ => rfl, fun _ => ⟨rfl, rfl⟩⟩
  | cons p l ih =>
    obtain ⟨hp, hl⟩ := List.nodup_cons.mp hl
    obtain ⟨hself, hothers, hsys, hlink, hmem⟩ := State.beatPort_beats (h p List.mem_cons_self) beat
    have hpeer (q : Nat) : (s.beatPort beat p).sw.peer q = s.sw.peer q := by
      rw [Switch.peer, hsys, Switch.peer]
    have hne (q : Nat) (hq : q ∈ l) : s.sw.peer q ≠ s.sw.peer p := fun he =>
      hp (Switch.peer_inj (hedge q (List.mem_cons_of_mem p hq)) (hedge p List.mem_cons_self) he ▸ hq)
    have hanswers (q : Nat) (hq : q ∈ l) : (s.beatPort beat p).Answers q := by
      have hlinks : (s.beatPort beat p).sw.getLink q = s.sw.getLink q := by
        rw [Switch.getLink, hlink, Switch.getLink]
      unfold State.Answers
      rw [hpeer, hothers _ (hne q hq), hlinks]
      exact h q (List.mem_cons_of_mem p hq)
    obtain ⟨hall, hrest, hmems⟩ := ih hl (s.beatPort beat p) (fun q hq => by rw [hsys]; exact hedge q (List.mem_cons_of_mem p hq)) hanswers
    refine ⟨fun q hq => ?_, fun x hx => ?_, hmem.trans hmems⟩
    · obtain rfl | hq := List.mem_cons.mp hq
      · exact (hrest (s.sw.peer q) fun r hr he => hne r hr (he.trans (hpeer r)).symm).trans hself
      · have hq' := hall q hq
        rw [hpeer, hothers _ (hne q hq)] at hq'
        exact hq'
    · refine (hrest x fun q hq => ?_).trans (hothers x (hx p List.mem_cons_self))
      rw [hpeer]
      exact hx q (List.mem_cons_of_mem p hq)

theorem heartbeatInstant_beats {s : State} (hstate : s.sw.teller.state = 0) (h : ∀ q < 64, isEdge s.sw.sys q = true → s.Answers q) :
    SameMemory s s.heartbeatInstant ∧ ∀ q < 64, isEdge s.sw.sys q = true →
      s.heartbeatInstant.sw.epRec (s.sw.peer q) = (s.sw.epRec (s.sw.peer q)).beaten (instantBytes s.sw.clock.now) := by
  have hmem (q : Nat) : q ∈ ports64.filter (fun p => isEdge s.sw.sys p) ↔ q < 64 ∧ isEdge s.sw.sys q = true := by
    rw [List.mem_filter, ports64, List.mem_range]
  have hnodup : (ports64.filter fun p => isEdge s.sw.sys p).Nodup := List.nodup_range.filter _
  rw [State.heartbeatInstant_eq hstate]
  generalize ports64.filter (fun p => isEdge s.sw.sys p) = l at hmem hnodup
  obtain ⟨hall, -, hsame⟩ := State.beats_records (instantBytes (s.now .sw)) hnodup s (fun q hq => ((hmem q).mp hq).2) fun q hq => h q ((hmem q).mp hq).1 ((hmem q).mp hq).2
  exact ⟨hsame, fun q hq hedge => hall q ((hmem q).mpr ⟨hq, hedge⟩)⟩

/-! ### A VERDICT at the AKG-8 (23 R549) -/

/-- A frame that is flooded leaves who the AKG-8 is. -/
theorem State.flood_ep (s : State) (came : Option Nat) (msub : Nat) (data : List Byte) : let t := s.flood .ep came msub data
    t.ep.homeId = s.ep.homeId ∧ t.ep.verdict = s.ep.verdict ∧ t.ep.inc = s.ep.inc := by
  have hsend (u : State) (l : List Nat) (g : State → Nat → Frame) (h : u.ep.homeId = s.ep.homeId ∧ u.ep.verdict = s.ep.verdict ∧ u.ep.inc = s.ep.inc) :
      let t := u.each l fun u p => u.epSend p (g u p)
      t.ep.homeId = s.ep.homeId ∧ t.ep.verdict = s.ep.verdict ∧ t.ep.inc = s.ep.inc :=
    State.each_keeps (P := fun v => v.ep.homeId = s.ep.homeId ∧ v.ep.verdict = s.ep.verdict ∧ v.ep.inc = s.ep.inc) h fun _ hv _ => hv
  unfold State.flood State.floodPast
  dsimp only
  split
  · exact ⟨rfl, rfl, rfl⟩
  · exact hsend _ _ _ ⟨rfl, rfl, rfl⟩

theorem State.epVerdict_self {s : State} {f : Frame} {p : Nat} (hh : field f.data 0 2 = s.ep.homeId) (hverdict : s.ep.verdict = false)
    (hinc : s.ep.inc = some (field f.data 2 1)) : s.epVerdict p f = (s.flood .ep (some p) mVerdict f.data).selfVerdict := by
  obtain ⟨khome, kverdict, kinc⟩ := s.flood_ep (some p) mVerdict f.data
  unfold State.epVerdict
  dsimp only
  rw [if_pos (hh.trans khome.symm), if_neg]
  simp [kverdict, hverdict, kinc, hinc]

theorem State.epVerdict_peer {s : State} {f : Frame} {p : Nat} (hh : field f.data 0 2 ≠ s.ep.homeId) : s.epVerdict p f
    = ((s.flood .ep (some p) mVerdict f.data).onEp fun e => { e with peerInc := e.peerInc.put (field f.data 0 2) (field f.data 3 1 % 16) }).epPeerLost (field f.data 0 2) := by
  obtain ⟨khome, -, -⟩ := s.flood_ep (some p) mVerdict f.data
  unfold State.epVerdict
  dsimp only
  rw [if_neg fun h => hh (h.trans khome)]

/-- Settles O38: the rows at the AKG-8 and at the switch, the instant by its ports, and the verdict by the record that it marks. -/
theorem detectorRowsComplete : Obligations.DetectorRowsComplete := by
  unfold Obligations.DetectorRowsComplete
  refine fun s p f => ⟨fun ht => ⟨?heartbeat, ?suspect, fun hh hverdict hinc => ?self, fun hh => ?peer⟩, rfl, fun hstate h => ⟨_, rfl, ?instant⟩,
    ⟨fun hinc hjudges => ?held, fun hinc => ?past⟩, fun e x hx => ?expiry, fun hstate => ?restarting, fun hstate hinc => ⟨_, rfl, ?marks⟩⟩
  case heartbeat => exact congrArg Host.Outcome.next (State.epIn_takes ht _)
  case suspect => exact congrArg Host.Outcome.next (State.epIn_takes ht _)
  case self =>
    refine congrArg Host.Outcome.next ((State.epIn_takes ht _).trans (congrArg State.pump ?_))
    exact State.epVerdict_self (s := s.credited p f) hh hverdict hinc
  case peer =>
    refine congrArg Host.Outcome.next ((State.epIn_takes ht _).trans (congrArg State.pump ?_))
    exact State.epVerdict_peer (s := s.credited p f) hh
  case instant => exact heartbeatInstant_beats hstate h
  case held =>
    refine congrArg Host.Outcome.next ((if_neg (not_not_intro hinc)).trans (if_neg ?_))
    exact fun hand => Bool.false_ne_true (hjudges.symm.trans (Bool.and_eq_true_iff.mp hand).1)
  case past => exact congrArg Host.Outcome.next (if_pos hinc)
  case expiry => exact congrArg Host.Outcome.next (if_pos (by simpa using hx))
  case restarting =>
    obtain ⟨-, -, -, -, -, hteller, -⟩ := (State.taken_sent s f).fields
    refine congrArg Host.Outcome.next (congrArg State.regionGone (if_pos ?_))
    rw [← hstate]
    exact congrArg Teller.state hteller
  case marks =>
    obtain ⟨-, -, -, -, -, hteller, -, hmgmt, -⟩ := (State.taken_sent s f).fields
    refine State.verdictSwitch_marks p f (fun h => hstate ?_) rfl rfl ?_
    · rw [← h]
      exact congrArg Teller.state hteller.symm
    · rw [← hinc]
      exact congrArg (fun m : Mgmt => (m.rec_.get (field f.data 0 2) {}).inc) hmgmt

end Sys2Proof.Machine

namespace Sys2Proof.Machine

/-! ### Events, ALERT_N and the records of the Teller and of the rack manager (16 R412, R428, R429; 23 R535, R537, R554) -/

/-- What these rows change beside the Teller: the Tally's records, the events and their vectors, ALERT_N, whether the rack manager is lost, and what is
sent. -/
def State.besides (s t : State) : State := { s with
  sw := { s.sw with
    teller := t.sw.teller
    tally := { s.sw.tally with faults := t.sw.tally.faults, nextSeq := t.sw.tally.nextSeq }
    host := { s.sw.host with swEvent := t.sw.host.swEvent, msixPending := t.sw.host.msixPending, lastVec4 := t.sw.host.lastVec4 }
    sys := { s.sw.sys with alertRec := t.sw.sys.alertRec, alert := t.sw.sys.alert, managerLost := t.sw.sys.managerLost } }
  out := t.out }

/-- Reports that add no Ledger entry, after a change of what the rows change. -/
theorem ReportFrame.besides {r s t : State} (h : ReportFrame s t) (hledger : t.chains = s.chains) (hs : s = r.besides s) : t = r.besides t := by
  obtain ⟨hl, hq⟩ := State.chains_iff.mp hledger
  have ht := h.1
  rw [hl, hq, hs] at ht
  exact ht.trans (by rw [ht]; rfl)

theorem State.msix_swEvent (s : State) (fn vec : Nat) : (s.msix fn vec).sw.host.swEvent = s.sw.host.swEvent := by
  unfold State.msix
  dsimp only
  split
  · rfl
  · split
    · rfl
    · rfl

theorem State.setEvent_sets (s : State) {b : Nat} (hb : b < 32) : (s.setEvent b).sw.host.swEvent.getLsbD b = true := by
  unfold State.setEvent
  split
  · next h => exact h
  · rw [State.msix_swEvent]
    simp [State.onSw, hb]

theorem State.refreshAlert_swEvent (s : State) : s.refreshAlert.sw.host.swEvent = s.sw.host.swEvent := by
  unfold State.refreshAlert
  dsimp only
  split
  · rfl
  · rfl

theorem State.refreshAlert_alert (s : State) : s.refreshAlert.sw.sys.alert = s.sw.alertWanted := by
  unfold State.refreshAlert
  dsimp only
  split
  · next h => exact h.symm
  · rfl

theorem State.record_managerLost (s : State) (o : Occurrence) : (s.record o).sw.sys.managerLost = s.sw.sys.managerLost := by
  rw [(State.record_report s o).1]

/-- A record joins to no read's records: it stands, and leaves the Teller and the rest. -/
theorem State.record_notes {r s : State} {o : Occurrence} (hgroup : o.group = none) (hs : s = r.besides s) : let t := s.record o
    t = r.besides t ∧ t.sw.sys.managerLost = s.sw.sys.managerLost ∧ t.sw.teller = s.sw.teller ∧ ∃ x ∈ t.sw.tally.faults, x.kind = o.kind :=
  ⟨(State.record_report s o).besides (State.record_chains s o) hs, State.record_managerLost s o, (State.record_report s o).fields.1,
    State.record_stands s hgroup⟩

/-- A fault of the Teller is recorded, and the Teller restarts. -/
theorem State.tellerFault_restarts {s : State} (hstate : s.sw.teller.state = 0) (kind : Nat) : let t := s.tellerFault kind
    t = s.besides t ∧ t.sw.teller = { s.sw.teller with state := 1, restarts := min 255 (s.sw.teller.restarts + 1) }
      ∧ t.sw.sys.managerLost = s.sw.sys.managerLost ∧ ∃ x ∈ t.sw.tally.faults, x.kind = kind := by
  obtain ⟨hrest, hlost, hteller, hstands⟩ := State.record_notes (r := s) (s := s) (o := { kind := kind, domain := 8 }) rfl rfl
  unfold State.tellerFault
  rw [if_pos hstate]
  generalize s.record { kind := kind, domain := 8 } = u at hrest hlost hteller hstands
  unfold State.tellerRestart
  rw [if_neg (not_not_intro (hteller ▸ hstate))]
  dsimp only
  refine ⟨?_, ?_, hlost, hstands⟩
  · rw [hrest]
    rfl
  · rw [← hteller]
    rfl

/-! ### The end of a Teller-only restart (16 R428) -/

/-- The commands that the restart completes stay listed, and the phase stays. -/
theorem State.restartCommands_tends (s : State) : s.Tends false s.restartCommands := by
  unfold State.restartCommands
  refine (State.Tends.refl s).each fun u a hu => ?_
  split
  · exact hu.finishWork.ite hu
  · refine State.Tends.ite ?_ hu
    refine State.Tends.finishWork ?_
    unfold State.imageRuns
    split
    · exact hu
    · exact hu.onSw.ledgerAdd
  · exact hu

theorem State.Tends.ledgerSeal {z : Bool} {s₀ s : State} {p : Nat} (h : s₀.Tends z s) : s₀.Tends z (s.ledgerSeal p) :=
  h.trans (State.ledgerSeal_report _ _).tends

/-- The Teller as the restart's end leaves it, before it acts on what waited: its records then clear their misses. -/
def State.tellerRuns (s : State) : State := s.onSw fun w => { w with
  teller := { w.teller with state := 0, restarted := true, heldVerdicts := [], owedVerdicts := [] }
  mgmt := { w.mgmt with rec_ := w.mgmt.rec_.mapVals fun _ r => { r with misses := 0 } } }

/-- Whatever waited for the end of the restart, the Teller keeps its mailboxes and runs, and the TELLER event stands. -/
theorem State.tellerBack_runs {s : State} (hstate : s.sw.teller.state = 1) (hserves : s.sw.sys.phase.serves = true) (hroom : s.sw.startsFit = true) :
    s.tellerRuns.Tends false s.tellerBack ∧ s.tellerBack.sw.host.swEvent.getLsbD evTeller = true := by
  unfold State.tellerBack
  rw [if_neg (by simp [hstate, hserves, hroom])]
  extract_lets held owed a b c d e f g
  have ha : s.tellerRuns.Tends false a := .refl _
  have hb : s.tellerRuns.Tends false b := ha.trans a.restartCommands_tends
  have hc : s.tellerRuns.Tends false c := hb.each fun _ _ hu => hu.ledgerAdd
  have hd : s.tellerRuns.Tends false d := hc.each fun _ _ hu => hu.ledgerSeal.ite hu
  have he : s.tellerRuns.Tends false e := hd.each fun _ _ hu => hu.applyVerdict
  have hf : s.tellerRuns.Tends false f := he.each fun _ _ hu => hu.giveVerdict
  have hg : s.tellerRuns.Tends false g := hf.each fun _ _ hu => hu.retireForce.ite hu
  exact ⟨hg.regionGone.setEvent, State.setEvent_sets _ (by decide)⟩

/-- The Teller after the third failure within 10 s. -/
theorem State.tellerFails_halts {s : State} (hstate : s.sw.teller.state = 1) (hserves : s.sw.sys.phase.serves = true)
    (hfails : 3 ≤ (s.now .sw :: s.sw.teller.fails.filter fun x => decide (s.now .sw < x + 10 * tSec)).length) : let t := s.tellerFails
    t = s.besides t ∧ t.sw.teller = { s.sw.teller with fails := s.now .sw :: s.sw.teller.fails.filter fun x => decide (s.now .sw < x + 10 * tSec), state := 2 }
      ∧ t.sw.host.swEvent.getLsbD evTeller = true ∧ t.sw.sys.alert = true := by
  unfold State.tellerFails
  rw [if_neg (by simp [hstate, hserves])]
  extract_lets now fails halt u t old
  have hhalt : halt = true := decide_eq_true hfails
  have hu : u = s.besides u := rfl
  have hteller : u.sw.teller = { s.sw.teller with fails := fails, state := if halt then 2 else 1
                                                  restarts := if halt then s.sw.teller.restarts else min 255 (s.sw.teller.restarts + 1) } := rfl
  rw [hhalt, if_pos rfl, if_pos rfl] at hteller
  have ht : t = (u.setEvent evTeller).refreshAlert := if_pos hhalt
  rw [ht]
  clear_value u
  have hevent : (u.setEvent evTeller).sw.teller = u.sw.teller := (State.setEvent_report u evTeller).fields.1
  refine ⟨?_, ?_, ?_, ?_⟩
  · exact ((State.setEvent_report u evTeller).trans (State.refreshAlert_report _)).besides (by simp) hu
  · exact (State.refreshAlert_report _).fields.1.trans (hevent.trans hteller)
  · rw [State.refreshAlert_swEvent]
    exact State.setEvent_sets _ (by decide)
  · rw [State.refreshAlert_alert, Switch.alertWanted, hevent, hteller]
    simp

/-- A failure before the third begins the restart again. -/
theorem State.tellerFails_again {s : State} (hstate : s.sw.teller.state = 1) (hserves : s.sw.sys.phase.serves = true)
    (hfails : (s.now .sw :: s.sw.teller.fails.filter fun x => decide (s.now .sw < x + 10 * tSec)).length < 3) : s.tellerFails
      = s.onTeller fun x => { x with fails := s.now .sw :: s.sw.teller.fails.filter fun x => decide (s.now .sw < x + 10 * tSec), state := 1
                                     restarts := min 255 (s.sw.teller.restarts + 1) } := by
  unfold State.tellerFails
  rw [if_neg (by simp [hstate, hserves])]
  dsimp only
  rw [decide_eq_false (Nat.not_le.mpr hfails)]
  rfl

/-- Settles O52: what is recorded stands beside the Teller's change; the end of the restart by the work that leaves the Teller. -/
theorem tellerAndManagerRowsComplete : Obligations.TellerAndManagerRowsComplete := by
  unfold Obligations.TellerAndManagerRowsComplete
  refine fun s => ⟨fun hne => ⟨congrArg Host.Outcome.next (if_neg hne), congrArg Host.Outcome.next (if_neg hne)⟩,
    fun hz => ⟨⟨_, rfl, State.tellerFault_restarts hz _⟩, ⟨_, rfl, State.tellerFault_restarts hz _⟩⟩,
    fun hwait => ⟨?restartEnd, ?timeout⟩, fun hroom => ?noRoom, fun hstate hserves => ⟨fun hroom => ⟨_, rfl, ?back⟩,
      fun h => ?again, fun h => ⟨_, rfl, State.tellerFails_halts hstate hserves h⟩⟩,
    fun h => ?noMessage, fun h => ⟨_, rfl, ?message⟩, fun h => congrArg Host.Outcome.next (if_pos h), fun h => ⟨_, rfl, ?gone⟩⟩
  case restartEnd => exact congrArg Host.Outcome.next (if_pos (hwait.imp id fun h => .inl (by rw [h]; rfl)))
  case timeout => exact congrArg Host.Outcome.next (if_pos (hwait.imp id fun h => by rw [h]; rfl))
  case noRoom => exact congrArg Host.Outcome.next (if_pos (.inr (.inr (by rw [hroom]; rfl))))
  case back =>
    obtain ⟨htends, hevent⟩ := State.tellerBack_runs hstate hserves hroom
    refine ⟨?_, hevent, htends.phase⟩
    have howed : s.tellerBack.sw.teller.owedVerdicts = [] := htends.owed (show 0 ≠ 1 from Nat.zero_ne_one)
    rw [htends.desk, howed]
    rfl
  case again => exact congrArg Host.Outcome.next (State.tellerFails_again hstate hserves h)
  case noMessage => exact congrArg Host.Outcome.next (if_neg (by rw [h]; decide))
  case message =>
    unfold State.managerBack
    rw [if_pos h]
    exact State.record_notes (r := s) rfl rfl
  case gone =>
    unfold State.managerGone
    rw [if_neg (by rw [h]; decide)]
    exact State.record_notes (r := s) rfl rfl

end Sys2Proof.Machine

namespace Sys2Proof.Machine

/-! ### A warm start that waits for the Ledger (19 R481; 22 R531) -/

/-- A warm start at step 9: every channel is fenced, no chain has begun, and more entries wait outside staging than the queue is to hold. -/
def crowdedStart : State := { State.reset with sw := { State.reset.sw with
  sys := { State.reset.sw.sys with phase := .starting .warm 9 }
  mem := { State.reset.sw.mem with chan := (List.range 24).map fun c => (c, { fenced := true }) }
  ledger := []
  ledgerQueue := List.replicate 2049 (0, { seq := 0, kind := 1, flags := 0, source := 0, time := 0, body := [] }) } }

theorem crowdedStart_fenced : ∀ c ∈ List.range 24, (crowdedStart.sw.chan c).fenced = true := by decide

theorem crowdedStart_full : crowdedStart.sw.startsFit = false := by
  have hqueue : crowdedStart.sw.ledgerQueue.length = 2049 := List.length_replicate
  unfold Switch.startsFit
  rw [hqueue]
  exact decide_eq_false (by omega)

/-- Step 9 of the warm start repairs no fenced channel, and waits for the Ledger. -/
theorem crowdedStart_waits : exec (.startStepReady [] []) crowdedStart = .next crowdedStart := by
  have hrepair : (crowdedStart.each (List.range 24) fun s c => if (s.sw.chan c).fenced then s else s.repair c []) = crowdedStart :=
    State.each_same_of_mem fun c hc => if_pos (crowdedStart_fenced c hc)
  refine congrArg Host.Outcome.next ?_
  have hstep : crowdedStart.stepReady [] [] = if (crowdedStart.each (List.range 24) fun s c => if (s.sw.chan c).fenced then s else s.repair c []).sw.startsFit
      then (crowdedStart.each (List.range 24) fun s c => if (s.sw.chan c).fenced then s else s.repair c []).startDone .warm
      else crowdedStart.each (List.range 24) fun s c => if (s.sw.chan c).fenced then s else s.repair c [] := rfl
  rw [hstep, hrepair, crowdedStart_full]
  rfl

/-- Refutes O51: a warm start that waits at step 9 need not have a chain, where its queue of entries outside staging is already too long. -/
theorem not_startRowsComplete : ¬ Obligations.StartRowsComplete := by
  unfold Obligations.StartRowsComplete
  intro h
  obtain ⟨-, -, -, -, -, -, -, -, -, -, -, -, -, -, hsteps, -⟩ := h crowdedStart true [] []
  obtain ⟨-, -, -, -, -, -, -, hnine, -⟩ := hsteps .warm 9 rfl
  obtain ⟨t, ht, hafter⟩ := hnine rfl rfl
  obtain rfl : crowdedStart = t := Host.Outcome.next.inj (crowdedStart_waits.symm.trans ht)
  obtain ⟨hrunning, -⟩ | ⟨hchain, -⟩ := hafter
  · exact absurd hrunning nofun
  · exact hchain rfl

end Sys2Proof.Machine

namespace Sys2Proof.Machine

/-! ### Power domains (20 R485 to R492) -/

/-- A frame that the switch takes leaves its links. -/
theorem State.taken_getLink (s : State) (f : Frame) (p : Nat) : (s.taken f).sw.getLink p = s.sw.getLink p :=
  congrArg (fun l : Tab Link => l.get p {}) (State.taken_sent s f).upkeep.link

/-- A partner's request: the vote, the answer, and the state that both allow. -/
theorem State.powerReqSw_answers (s : State) (p st : Nat) : let v := s.onLink .sw p fun l => { l with partnerVote := st }
    let w := v.mgmtOut .sw p 0xE 0 (leBytes 1 (v.allowed 0 p))
    s.powerReqSw p st = if (s.sw.getLink p).state = .active then (w.enter 0 p (v.allowed 0 p)).revote 0 p else w := by
  extract_lets v w
  have hv : (v.sw.getLink p).state = (s.sw.getLink p).state := by
    have hput : v.sw.getLink p = _ := State.putLink_getLink s .sw p _
    rw [hput]
    rfl
  have hw : (w.sw.getLink p).state = (s.sw.getLink p).state :=
    (congrArg (fun l : Tab Link => (l.get p {}).state) (State.mgmtOut_upkeep v p 0xE 0 _).link).trans hv
  have hstep : s.powerReqSw p st = if (w.sw.getLink p).state = .active then (w.enter 0 p (v.allowed 0 p)).revote 0 p else w := rfl
  rw [hstep, hw]

theorem State.powerAckSw_enters {s : State} {p : Nat} (a : Nat) (hasked : (s.sw.getLink p).asked.isSome = true) (hactive : (s.sw.getLink p).state = .active) :
    let v := s.onLink .sw p fun l => { l with asked := none, partnerVote := a }
    s.powerAckSw p a = v.enter 0 p (min a (v.wish 0 p)) := by
  unfold State.powerAckSw
  rw [if_neg (by simp [hactive, Option.isSome_iff_ne_none.mp hasked])]

theorem State.powerAckSw_ignored {s : State} {p : Nat} (a : Nat) (h : (s.sw.getLink p).asked = none ∨ (s.sw.getLink p).state ≠ .active) :
    s.powerAckSw p a = s := by
  unfold State.powerAckSw
  exact if_pos (h.imp (fun h => by rw [h]; rfl) id)

/-- A domain that may go deeper enters STILL at once, and NAP or REST by an entry. -/
theorem State.enter_deeper {s : State} {k i st : Nat} (hfenced : (s.sw.domain k i).fenced = false) (hentering : (s.sw.domain k i).entering = none)
    (hexiting : (s.sw.domain k i).exiting = none) (hdeeper : (s.sw.domain k i).state < st) :
    s.enter k i st = s.onDomain k i fun d => if st = 1 then { d with state := 1 } else { d with entering := some st } := by
  unfold State.enter
  rw [if_neg (by simp [hfenced, hentering, hexiting, hdeeper])]
  by_cases hstill : st = 1
  · rw [if_pos (show st = pwStill from hstill)]
    simp [hstill, pwStill]
  · rw [if_neg (show ¬st = pwStill from hstill)]
    simp [hstill]

/-- What a domain loses by the state that it enters (20 R486). -/
def State.domainEntered (v : State) (k i st : Nat) : State := match k, st with
  | 0, 2 => v.onPort i fun l => { l.endTest with state := .nap, power := 2 }
  | 0, _ => (v.onPort i fun l => { l.fresh with state := .rest, power := st, partner := l.partner }).onSw fun x =>
      { x with core := { x.core with spent := x.core.spent.filter fun e => e.1 / 16 != i } }
  | 1, 3 => v.onXlat fun x => { x with l1 := x.l1.del i }
  | 2, 3 => v.loseChannel i
  | 3, 3 => v.loseBank i
  | _, _ => v

theorem State.domainEntered_port (v : State) (i : Nat) {st : Nat} (h : st ≠ 2) : v.domainEntered 0 i st
    = (v.onPort i fun l => { l.fresh with state := .rest, power := st, partner := l.partner }).onSw fun x =>
      { x with core := { x.core with spent := x.core.spent.filter fun e => e.1 / 16 != i } } := by
  match st, h with
  | 0, _ => rfl
  | 1, _ => rfl
  | _ + 3, _ => rfl

/-- Only REST loses anything of a domain that is no port. -/
theorem State.domainEntered_shallow (v : State) {k st : Nat} (i : Nat) (hk : k ≠ 0) (h : st ≠ 3) : v.domainEntered k i st = v := by
  unfold State.domainEntered
  split
  · exact absurd rfl hk
  · exact absurd rfl hk
  · exact absurd rfl h
  · exact absurd rfl h
  · exact absurd rfl h
  · rfl

theorem State.domainEntered_rest (v : State) {k : Nat} (i : Nat) (hk : k ≠ 0) : v.domainEntered k i 3
    = if k = 1 then v.onXlat fun x => { x with l1 := x.l1.del i } else if k = 2 then v.loseChannel i else if k = 3 then v.loseBank i else v := by
  match k, hk with
  | 1, _ => rfl
  | 2, _ => rfl
  | 3, _ => rfl
  | _ + 4, _ => rfl

/-- Work that came during the entry, frames that wait for a port, or a vote above the state. -/
def State.recalled (w : State) (wake : Bool) (k i : Nat) : Bool :=
  wake || (k == 0 && (queueKeys i).any fun q => !(w.sw.core.queue.get q []).isEmpty) || decide (w.allowed k i < pwNap)

/-- An entry that is done: the domain is in its state and has lost what the state loses; what recalls it begins its exit. -/
theorem State.entryDone_eq {s : State} {k i st : Nat} (h : (s.sw.domain k i).entering = some st) :
    let w := (s.onDomain k i fun d => { d with state := st, entering := none }).domainEntered k i st
    s.entryDone k i = if w.recalled (s.sw.domain k i).wake k i then w.beginExit k i else w := by
  unfold State.entryDone State.recalled
  dsimp only
  rw [h]
  by_cases hk : k = 0
  · subst hk
    by_cases hst : st = 2
    · subst hst
      rfl
    · rw [State.domainEntered_port _ i hst]
      dsimp only
      rw [if_pos rfl, if_neg (show ¬st = pwNap from hst)]
  · dsimp only
    rw [if_neg hk]
    by_cases hst : st = 3
    · subst hst
      rw [State.domainEntered_rest _ i hk, if_neg (show ¬3 ≠ pwRest from not_not_intro rfl)]
    · rw [State.domainEntered_shallow _ i hk hst, if_pos (show st ≠ pwRest from hst)]

theorem State.recalled_iff {w : State} {wake : Bool} {k i : Nat} : w.recalled wake k i = false
    ↔ wake = false ∧ (k = 0 → ∀ q ∈ queueKeys i, w.sw.core.queue.get q [] = []) ∧ 2 ≤ w.allowed k i := by
  unfold State.recalled
  simp [pwNap, and_assoc, Nat.lt_iff_add_one_le]

/-- The domain stays in its state unless it is recalled. -/
theorem State.entryDone_cases {s : State} {k i st : Nat} (h : (s.sw.domain k i).entering = some st) :
    let w := (s.onDomain k i fun d => { d with state := st, entering := none }).domainEntered k i st
    let stays := (s.sw.domain k i).wake = false ∧ (k = 0 → ∀ q ∈ queueKeys i, w.sw.core.queue.get q [] = []) ∧ 2 ≤ w.allowed k i
    (stays → s.entryDone k i = w) ∧ (¬stays → s.entryDone k i = w.beginExit k i) := by
  intro w stays
  have hiff : w.recalled (s.sw.domain k i).wake k i = false ↔ stays := State.recalled_iff
  refine ⟨fun h' => ?_, fun h' => ?_⟩
  · exact (State.entryDone_eq h).trans (if_neg fun hback => Bool.false_ne_true ((hiff.mpr h').symm.trans hback))
  · exact (State.entryDone_eq h).trans (if_pos ((Bool.not_eq_false _).mp fun hstill => h' (hiff.mp hstill)))

/-- A stage before the fourth. -/
theorem State.stageReady_next {s : State} {k i n : Nat} (h : (s.sw.domain k i).exiting = some n) (hn : n < 4) :
    s.stageReady k i = s.onDomain k i fun d => { d with exiting := some (n + 1) } := by
  unfold State.stageReady
  dsimp only
  rw [h]
  exact if_pos hn

/-- The fourth stage is ready: a port that was in NAP is ACTIVE, one that was in REST trains again. -/
theorem State.stageReady_port {s : State} {i : Nat} (h : (s.sw.domain 0 i).exiting = some 4) : let v := s.onDomain 0 i fun d => { d with state := 0, exiting := none }
    s.stageReady 0 i = match (s.sw.getLink i).state with
      | .nap => v.onPort i fun l => { l with state := .active, power := 0 }
      | .rest => (v.onPort i fun l => { l with state := .detect, power := 0, fast := l.stored.isSome, waking := true }).emit (.tickClock .sw i)
      | _ => v := by
  intro v
  have hlink : (v.sw.getLink i).state = (s.sw.getLink i).state := rfl
  have hstep : s.stageReady 0 i = if (v.sw.getLink i).state = .nap then v.onPort i fun l => { l with state := .active, power := 0 }
      else if (v.sw.getLink i).state = .rest then
        (v.onPort i fun l => { l with state := .detect, power := 0, fast := l.stored.isSome, waking := true }).emit (.tickClock .sw i)
      else v := by
    unfold State.stageReady
    dsimp only
    rw [h]
    rfl
  rw [hstep, hlink]
  cases (s.sw.getLink i).state <;> rfl

/-- An engine whose domain runs again goes on with its task. -/
theorem State.stageReady_engine {s : State} {i : Nat} (h : (s.sw.domain 1 i).exiting = some 4) : let v := s.onDomain 1 i fun d => { d with state := 0, exiting := none }
    s.stageReady 1 i = match (s.sw.getEngine i).task with
      | some (slot, t) => (v.resumeTask slot t).escrowSettle
      | none => v.escrowSettle := by
  unfold State.stageReady
  dsimp only
  rw [h]
  rfl

theorem State.stageReady_other {s : State} {k i : Nat} (h : (s.sw.domain k i).exiting = some 4) (hk : 2 ≤ k) :
    s.stageReady k i = s.onDomain k i fun d => { d with state := 0, exiting := none } := by
  unfold State.stageReady
  dsimp only
  rw [h]
  dsimp only
  rw [if_neg (by decide), if_neg (by omega), if_neg (by omega)]
  rfl

/-! ### A stage that is late (20 R492) -/

/-- The domain whose stage is late, fenced and recorded. -/
def State.wakeFailed (s : State) (k i : Nat) : State := (s.onDomain k i fun d => { d with exiting := none, fenced := true }).record
  { kind := fWakeFailed, domain := [1, 2, 4, 3, 8, 8].getD k 8, index := if k ≤ 3 then i else 0 }

theorem State.stageLate_eq {s : State} {k i : Nat} (h : (s.sw.domain k i).exiting.isSome = true) : s.stageLate k i
    = if k = 0 then ((s.wakeFailed k i).fencePort i 2).regionGone.invalPoll else if k = 1 then (s.wakeFailed k i).fenceEngine i
      else if k = 2 then (s.wakeFailed k i).fenceChannel i else s.wakeFailed k i := by
  unfold State.stageLate
  rw [if_neg (by simpa using Option.isSome_iff_ne_none.mp h)]
  rfl

/-- A port fenced for another cause than link loss stays fenced, whatever regions and invalidations waited for its end-point. -/
theorem State.fencePort_stays (s : State) (p : Nat) {why : Nat} (hwhy : why ≠ 1) : (((s.fencePort p why).regionGone.invalPoll).sw.getLink p).state = .fenced := by
  have hrest (u : State) : u.regionGone.invalPoll.fixtures false = u.fixtures false := by simp
  obtain ⟨-, hlink, -⟩ := State.fixtures_iff.mp (hrest (s.fencePort p why))
  obtain ⟨l, hstate, -, hput⟩ := s.fencePort_link p hwhy
  rw [Switch.getLink, hlink, hput, Tab.get_put_self]
  exact hstate

/-- Settles O42: the requests and their answers by the link's vote, entries and exits by the domain's stages. -/
theorem powerDomainRowsComplete : Obligations.PowerDomainRowsComplete := by
  unfold Obligations.PowerDomainRowsComplete
  refine fun s k i => ⟨fun p f => ?request, fun p f ht => ?epRequest, fun p f hasked hactive => ?answer, fun p f ht hasked => ?epAnswer,
    fun p f hnone => ?stray, fun p f ht hnone => ?epStray, fun hi hactive => ?idlePort, fun hk hi hfenced hentering hexiting hdeeper => ?idle,
    fun st hst => ?entry, fun n hn hlt => congrArg Host.Outcome.next (State.stageReady_next hn hlt),
    fun h4 => ⟨fun hk => ?other, fun hk => ?engine, fun hk => ?port⟩, fun hexits => ⟨fun hk => ⟨_, rfl, ?latePort⟩, fun hk => ⟨_, rfl, ?lateEngine⟩,
      fun hk => ⟨_, rfl, ?lateChannel⟩, fun hk => ?late⟩, ?wake⟩
  case request =>
    have hstep := State.powerReqSw_answers (s.taken f) p (field f.data 0 1)
    rw [State.taken_getLink] at hstep
    exact congrArg Host.Outcome.next hstep
  case epRequest => exact congrArg Host.Outcome.next (State.epIn_takes ht _)
  case answer =>
    exact congrArg Host.Outcome.next (State.powerAckSw_enters (s := s.taken f) _ (by rwa [State.taken_getLink]) (by rwa [State.taken_getLink]))
  case epAnswer => exact congrArg Host.Outcome.next ((State.epIn_takes ht _).trans (congrArg State.pump (if_pos hasked)))
  case stray => exact congrArg Host.Outcome.next (State.powerAckSw_ignored (s := s.taken f) _ (by rwa [State.taken_getLink]))
  case epStray =>
    have hask : ¬((s.credited p f).ep.getLink p).asked.isSome = true := by
      have hlink : ((s.credited p f).ep.getLink p).asked = none := hnone
      simp [hlink]
    exact congrArg Host.Outcome.next ((State.epIn_takes ht _).trans (congrArg State.pump (if_neg hask)))
  case idlePort => exact congrArg Host.Outcome.next ((if_pos hi).trans (if_neg (not_not_intro hactive)))
  case idle =>
    refine congrArg Host.Outcome.next ((if_pos hi).trans ((if_neg (Nat.ne_of_gt hk)).trans ?_))
    exact State.enter_deeper hfenced hentering hexiting hdeeper
  case entry =>
    obtain ⟨hstays, hleaves⟩ := State.entryDone_cases hst
    exact ⟨fun h => congrArg Host.Outcome.next (hstays h), fun h => congrArg Host.Outcome.next (hleaves h)⟩
  case other => exact congrArg Host.Outcome.next (State.stageReady_other h4 hk)
  case engine =>
    subst hk
    exact congrArg Host.Outcome.next (State.stageReady_engine h4)
  case port =>
    subst hk
    exact congrArg Host.Outcome.next (State.stageReady_port h4)
  case latePort =>
    rw [State.stageLate_eq hexits, if_pos hk]
    exact State.fencePort_stays _ i (by decide)
  case lateEngine =>
    subst hk
    rw [State.stageLate_eq hexits, if_neg (by decide), if_pos rfl]
    exact State.fenceEngines_fenced List.mem_cons_self
  case lateChannel =>
    subst hk
    rw [State.stageLate_eq hexits, if_neg (by decide), if_neg (by decide), if_pos rfl]
    exact (State.fenceChannel_fenced _ i).1
  case late =>
    refine congrArg Host.Outcome.next ((State.stageLate_eq hexits).trans ?_)
    rw [if_neg (by omega), if_neg (by omega), if_neg (by omega)]
    rfl
  case wake =>
    refine congrArg Host.Outcome.next ?_
    unfold State.wakeAll
    cases s.sw.sys.rstN <;> rfl

end Sys2Proof.Machine

namespace Sys2Proof.Machine

/-! ### The key exchange (15 R401 to R405) -/

/-- A message of the exchange waits in KEYX flits after what waited before; the link is otherwise as it was given. -/
theorem State.sendKeyMsg_getLink (s : State) (d : Dev) (p : Nat) (msg : List Byte) (fin : Bool) : let l := s.getLink d p
    (s.sendKeyMsg d p msg fin).getLink d p = { l with tx := { l.tx with keyx := l.tx.keyx ++ keyPieces msg fin } } := State.getLink_onLink s d p _

/-- A free value that is drawn leaves the links. -/
theorem State.free_getLink (s : State) (d : Dev) (p : Nat) : s.free.2.getLink d p = s.getLink d p := by
  cases d
  · rfl
  · rfl

/-- Nor does it change the number of flits of a group. -/
theorem State.free_txG (s : State) (d : Dev) (p : Nat) : s.free.2.txG d p = s.txG d p := by
  cases d
  · rfl
  · rfl

/-- What this side says of itself in INIT or RESP. -/
theorem State.ownKeyMsg_says (s : State) (d : Dev) (p : Nat) (kem : List Byte) : ∃ v m, s.ownKeyMsg d p kem = (m, v) ∧ v.getLink d p = s.getLink d p
    ∧ m.g = s.txG d p ∧ m.cert = Config.certificate ∧ m.kem.length = 1568 :=
  ⟨s.free.2, _, rfl, s.free_getLink d p, s.free_txG d p, rfl, slice_length _ _ _⟩

/-! #### INIT -/

theorem State.initArrives_ignored {s : State} {d : Dev} {p : Nat} (h : s.initiates d p = true ∨ ((s.getLink d p).state ≠ .secure ∧ (s.getLink d p).state ≠ .active))
    (m : KeyMsg) : s.initArrives d p m = s := by
  unfold State.initArrives
  exact if_pos (by simpa using h)

/-- A responder in SECURE or ACTIVE takes INIT. -/
theorem State.initArrives_taken {s : State} {d : Dev} {p : Nat} (hside : s.initiates d p = false) (hstate : (s.getLink d p).state = .secure ∨ (s.getLink d p).state = .active) :
    ¬(s.initiates d p || !([PortState.secure, .active].contains (s.getLink d p).state)) = true := by
  obtain h | h := hstate <;> simp [hside, h]

theorem State.initArrives_fences {s : State} {d : Dev} {p : Nat} {m : KeyMsg} (hside : s.initiates d p = false)
    (hstate : (s.getLink d p).state = .secure ∨ (s.getLink d p).state = .active) (hcert : certOk ((s.getLink d p).partner.getD {}) m.cert = false) :
    ((s.initArrives d p m).getLink d p).state = .fenced ∧ ((s.initArrives d p m).getLink d p).fenceWhy = 2 := by
  have hopen : (s.getLink d p).state ≠ .fenced := by obtain h | h := hstate <;> simp [h]
  have hfault : s.initArrives d p m = s.portFault d p fLinkAuth := by
    unfold State.initArrives
    exact (if_neg (State.initArrives_taken hside hstate)).trans (if_pos (by simp [hcert]))
  rw [hfault]
  exact State.portFault_fenced (fun _ => hopen) _

/-- The responder's answer: its ciphertext, its signature over both messages, and the shared secret kept. -/
theorem State.initArrives_answers {s : State} {d : Dev} {p : Nat} {m : KeyMsg} (hside : s.initiates d p = false)
    (hstate : (s.getLink d p).state = .secure ∨ (s.getLink d p).state = .active) (hcert : certOk ((s.getLink d p).partner.getD {}) m.cert = true) :
    let l := s.getLink d p
    let u := s.initArrives d p m
    ∃ x, (u.getLink d p).xchg = some x ∧ x.stage = 2 ∧ x.partner = m ∧ x.mine.g = s.txG d p ∧ x.mine.kem.length = 1568
      ∧ x.mine.cert = Config.certificate ∧ x.mine.sig = Config.falconSign (Config.shake256 (initBytes m ++ respSigned x.mine)) ∧ x.ss.length = 32
      ∧ (u.getLink d p).tx = { l.tx with keyx := l.tx.keyx ++ keyPieces (respBytes x.mine) false } := by
  intro l
  unfold State.initArrives
  dsimp only
  rw [if_neg (State.initArrives_taken hside hstate), if_neg (by simp [hcert])]
  obtain ⟨v, r, hown, hlink, hg, hfrom, hkem⟩ := s.free.2.ownKeyMsg_says d p (Config.linkEncap m.kem (leBytes 32 s.free.1)).1
  rw [State.free_getLink] at hlink
  rw [State.free_txG] at hg
  rw [hown]
  dsimp only
  rw [State.sendKeyMsg_getLink, State.getLink_onLink, hlink]
  exact ⟨_, rfl, rfl, rfl, hg, hkem, hfrom, rfl, slice_length _ _ _, rfl⟩

/-! #### RESP and FIN -/

theorem State.respArrives_none {s : State} {d : Dev} {p : Nat} (h : (s.getLink d p).xchg = none) (m : KeyMsg) : s.respArrives d p m = s := by
  unfold State.respArrives
  dsimp only
  rw [h]

theorem State.finArrives_none {s : State} {d : Dev} {p : Nat} (h : (s.getLink d p).xchg = none) (m : KeyMsg) : s.finArrives d p m = s := by
  unfold State.finArrives
  dsimp only
  rw [h]

/-- The signature over INIT and RESP verifies, by the certificate of the partner that RESP carries. -/
def State.respGood (s : State) (d : Dev) (p : Nat) (x : Exchange) (m : KeyMsg) : Bool :=
  certOk ((s.getLink d p).partner.getD {}) m.cert && Config.falconVerify (certKey m.cert) (Config.shake256 (initBytes x.mine ++ respSigned m)) m.sig

theorem State.respArrives_fences {s : State} {d : Dev} {p : Nat} {x : Exchange} {m : KeyMsg} (hx : (s.getLink d p).xchg = some x) (hstage : x.stage = 1)
    (hside : s.initiates d p = true) (hbad : s.respGood d p x m = false) (hopen : (s.getLink d p).state ≠ .fenced) :
    ((s.respArrives d p m).getLink d p).state = .fenced := by
  have hfault : s.respArrives d p m = s.portFault d p fLinkAuth := by
    unfold State.respArrives
    dsimp only
    rw [hx]
    exact (if_neg (by simp [hstage, hside])).trans (if_pos (by rw [← State.respGood, hbad]; rfl))
  rw [hfault]
  exact (State.portFault_fenced (fun _ => hopen) _).1

/-- Both directions' keys wait, and FIN is on its way. -/
theorem State.respArrives_answers {s : State} {d : Dev} {p : Nat} {x : Exchange} {m : KeyMsg} (hx : (s.getLink d p).xchg = some x) (hstage : x.stage = 1)
    (hside : s.initiates d p = true) (hgood : s.respGood d p x m = true) : let l := s.getLink d p
    let keys := linkKeys (padTo 32 (Config.linkDecap x.dk m.kem)) x.mine m l.nextEpoch
    (s.respArrives d p m).getLink d p = { l with
      xchg := some { x with stage := 3, partner := m, dk := [] }, rx := { l.rx with newKey := some keys.2 }
      tx := { l.tx with newKey := some keys.1, keyx := l.tx.keyx ++ keyPieces (finBytes (Config.falconSign (transcript x.mine m))) true } } := by
  intro l keys
  unfold State.respArrives
  dsimp only
  rw [hx]
  dsimp only
  rw [if_neg (by simp [hstage, hside]), if_neg (by rw [← State.respGood, hgood]; decide), State.sendKeyMsg_getLink, State.getLink_onLink]

theorem State.finArrives_fences {s : State} {d : Dev} {p : Nat} {x : Exchange} {m : KeyMsg} (hx : (s.getLink d p).xchg = some x) (hstage : x.stage = 2)
    (hbad : Config.falconVerify (certKey x.partner.cert) (transcript x.partner x.mine) m.sig = false) (hopen : (s.getLink d p).state ≠ .fenced) :
    ((s.finArrives d p m).getLink d p).state = .fenced := by
  have hfault : s.finArrives d p m = s.portFault d p fLinkAuth := by
    unfold State.finArrives
    dsimp only
    rw [hx]
    exact (if_neg (not_not_intro hstage)).trans (if_pos (by rw [hbad]; rfl))
  rw [hfault]
  exact (State.portFault_fenced (fun _ => hopen) _).1

/-- The responder installs its keys. -/
theorem State.finArrives_installs {s : State} {d : Dev} {p : Nat} {x : Exchange} {m : KeyMsg} (hx : (s.getLink d p).xchg = some x) (hstage : x.stage = 2)
    (hgood : Config.falconVerify (certKey x.partner.cert) (transcript x.partner x.mine) m.sig = true) : let l := s.getLink d p
    let keys := linkKeys x.ss x.partner x.mine l.nextEpoch
    (s.finArrives d p m).getLink d p = l.install keys.2 keys.1 := by
  intro l keys
  have hinstall : s.finArrives d p m = s.setLink d p fun l => l.install keys.2 keys.1 := by
    unfold State.finArrives
    dsimp only
    rw [hx]
    dsimp only
    rw [if_neg (not_not_intro hstage), if_neg (by rw [hgood]; decide)]
    rfl
  rw [hinstall, State.setLink_getLink]

theorem Link.install_first {l : Link} (h : l.state = .secure) (tx rx : LinkKey) :
    (l.install tx rx).state = .time ∧ (l.install tx rx).rx.key = some rx ∧ (l.install tx rx).tx.key = some tx := by
  unfold Link.install
  rw [if_pos h]
  exact ⟨rfl, rfl, rfl⟩

theorem Link.install_later {l : Link} (h : l.state ≠ .secure) (tx rx : LinkKey) :
    l.install tx rx = { l with xchg := none, rx := { l.rx with newKey := some rx }, tx := { l.tx with newKey := some tx } } := if_neg h

/-- The acknowledgement of FIN ends the initiator's exchange. -/
theorem Link.takeAck_fin {l : Link} {a f : Nat} (hfin : l.tx.fin = some f) (hsent : (l.tx.replay.any fun x => x.1 == a) = true)
    (hacked : (((l.tx.replay.dropWhile fun x => x.1 != a).drop 1).any fun x => x.1 == f) = false) : ∃ tx : Tx,
    l.takeAck a = ({ l with tx := tx } : Link).finAcked ∧ tx.key = l.tx.key ∧ tx.newKey = l.tx.newKey := by
  unfold Link.takeAck
  rw [if_neg (by simp [hsent]), hfin]
  dsimp only
  rw [if_pos (by rw [Option.any_some, hacked]; rfl)]
  exact ⟨_, rfl, rfl, rfl⟩

theorem Link.finAcked_ends (l : Link) : let t := l.finAcked
    t.tx.fin = none ∧ t.xchg = none
    ∧ (l.state = .secure → t.state = .time ∧ t.tx.key = l.tx.newKey ∧ t.tx.newKey = none ∧ t.tx.counter = 0 ∧ t.rx.key = l.rx.key.or l.rx.newKey)
    ∧ (l.state ≠ .secure → t.state = l.state ∧ t.tx.key = l.tx.key ∧ t.tx.newKey = l.tx.newKey) := by
  unfold Link.finAcked
  split
  · next h => exact ⟨rfl, rfl, fun _ => ⟨rfl, rfl, rfl, rfl, rfl⟩, fun hne => absurd h hne⟩
  · next h => exact ⟨rfl, rfl, fun hs => absurd hs h, fun _ => ⟨rfl, rfl, rfl⟩⟩

/-! #### Rekeys -/

theorem State.startRekey_idle {s : State} {d : Dev} {p : Nat} (h : (s.getLink d p).state ≠ .active ∨ (s.getLink d p).xchg.isSome = true) : s.startRekey d p = s := by
  unfold State.startRekey
  exact if_pos h

/-- The initiator begins the rekey by INIT. -/
theorem State.startRekey_init {s : State} {d : Dev} {p : Nat} (hactive : (s.getLink d p).state = .active) (hfree : (s.getLink d p).xchg = none)
    (hside : s.initiates d p = true) : let l := s.getLink d p
    let u := s.startRekey d p
    ∃ x, (u.getLink d p).xchg = some x ∧ x.stage = 1 ∧ x.mine.g = s.txG d p ∧ x.mine.cert = Config.certificate
      ∧ (u.getLink d p).tx = { l.tx with retry := false, keyx := l.tx.keyx ++ keyPieces (initBytes x.mine) false } := by
  intro l
  unfold State.startRekey State.beginExchange
  dsimp only
  rw [if_neg (by simp [hactive, hfree]), if_pos hside]
  obtain ⟨v, m, hown, hlink, hg, hcert, -⟩ := s.free.2.ownKeyMsg_says d p (Config.linkKemKey (leBytes 64 s.free.1))
  rw [State.free_getLink] at hlink
  rw [State.free_txG] at hg
  rw [hown]
  dsimp only
  rw [State.sendKeyMsg_getLink, State.getLink_onLink, hlink]
  exact ⟨_, rfl, rfl, hg, hcert, rfl⟩

/-- The responder begins it by REKEY_REQ. -/
theorem State.startRekey_request {s : State} {d : Dev} {p : Nat} (hactive : (s.getLink d p).state = .active) (hfree : (s.getLink d p).xchg = none)
    (hside : s.initiates d p = false) : let l := s.getLink d p
    let u := s.startRekey d p
    (u.getLink d p).xchg = none ∧ (u.getLink d p).tx = { l.tx with retry := false, keyx := l.tx.keyx ++ keyPieces rekeyReqBytes false } := by
  intro l
  unfold State.startRekey
  dsimp only
  rw [if_neg (by simp [hactive, hfree]), if_neg (by simp [hside]), State.sendKeyMsg_getLink, State.getLink_onLink]
  exact ⟨hfree, rfl⟩

/-! #### An exchange that is late -/

theorem State.exchangeLate_secure {s : State} {d : Dev} {p : Nat} (h : (s.getLink d p).state = .secure) : s.exchangeLate d p = s.trainFail d p := if_pos h

/-- A failed attempt before the eighth waits in DOWN. -/
theorem State.trainFail_waits {s : State} {d : Dev} {p : Nat} (h : (s.getLink d p).attempts < 7) : let t := (s.trainFail d p).getLink d p
    t.state = .down ∧ t.attempts = (s.getLink d p).attempts + 1 ∧ t.retry = true := by
  have hwait : (s.trainFail d p).getLink d p = { (s.getLink d p).fresh with
      state := .down, attempts := (s.getLink d p).attempts + 1, retry := true, waking := (s.getLink d p).waking } := by
    unfold State.trainFail
    dsimp only
    rw [if_neg (by omega)]
    exact State.setLink_getLink s d p _
  rw [hwait]
  exact ⟨rfl, rfl, rfl⟩

theorem State.trainFail_fences {s : State} {d : Dev} {p : Nat} (h : 7 ≤ (s.getLink d p).attempts) (hopen : (s.getLink d p).state ≠ .fenced) :
    ((s.trainFail d p).getLink d p).state = .fenced ∧ ((s.trainFail d p).getLink d p).fenceWhy = 2 := by
  unfold State.trainFail
  dsimp only
  rw [if_pos (by omega)]
  exact State.portFault_fenced (fun _ => hopen) _

theorem State.exchangeLate_rekey {s : State} {d : Dev} {p : Nat} (h : (s.getLink d p).state ≠ .secure) : let l := s.getLink d p
    s.exchangeLate d p = if l.xchg.isNone then s else
      s.putLink d p { l with xchg := none, tx := { l.tx with newKey := none, fin := none, retry := true }, rx := { l.rx with newKey := none } } := if_neg h

/-- A row of a port, by its own effect. -/
theorem State.ranAt_effect {s t : State} {d : Dev} {g : State → State} (h : g s = t) : Host.Outcome.next (s.linkEv d g) = (.next (s.ranAt d t) : Host.Outcome State Fault Refusal) := by
  rw [State.linkEv_ranAt, h]

/-- Settles O47: each row by its own effect at the port, of either device. -/
theorem keyRowsComplete : Obligations.KeyRowsComplete := by
  unfold Obligations.KeyRowsComplete
  intro s d p m l partner rekeys
  have hrekeys (hactive : l.state = .active) (hfree : l.xchg = none) : rekeys (s.startRekey d p) :=
    ⟨State.startRekey_init hactive hfree, State.startRekey_request hactive hfree⟩
  refine ⟨⟨_, State.ranAt_effect rfl, fun h => State.initArrives_ignored h m, fun hside hstate => ⟨State.initArrives_fences hside hstate,
      State.initArrives_answers hside hstate⟩⟩,
    fun hnone => ⟨State.ranAt_effect (State.respArrives_none hnone m), State.ranAt_effect (State.finArrives_none hnone m)⟩,
    fun x hx hstage hside => ⟨_, State.ranAt_effect rfl, State.respArrives_fences hx hstage hside, State.respArrives_answers hx hstage hside⟩,
    fun a f hfin hsent hacked => ?acked, fun x hx hstage => ⟨_, State.ranAt_effect rfl, State.finArrives_fences hx hstage, fun hgood hstate => ?first,
      fun hgood hstate => ?later⟩,
    fun hidle => ⟨State.ranAt_effect ?idleRequest, State.ranAt_effect ?idleCount, State.ranAt_effect ?idleRetry⟩,
    fun hactive hfree => ⟨fun hside => State.ranAt_effect (if_neg (by simp [hside])), fun hside => ⟨_, State.ranAt_effect (if_pos hside), hrekeys hactive hfree⟩,
      fun hcount => ⟨_, State.ranAt_effect (if_pos hcount), hrekeys hactive hfree⟩, fun hcount => State.ranAt_effect (if_neg (Nat.not_le.mpr hcount)),
      fun hretry => ⟨_, State.ranAt_effect (if_pos hretry), hrekeys hactive hfree⟩, fun hretry => State.ranAt_effect (if_neg (by simp [l, hretry]))⟩,
    fun hstate => ⟨_, State.ranAt_effect (State.exchangeLate_secure hstate), State.trainFail_waits, fun hlast => State.trainFail_fences hlast ?open_⟩,
    fun hstate => State.ranAt_effect (State.exchangeLate_rekey hstate), fun hcount => State.ranAt_effect (if_neg (Nat.not_le.mpr hcount)),
    fun hcount => ⟨_, State.ranAt_effect (if_pos hcount), ?exhausted⟩⟩
  case acked =>
    obtain ⟨tx, hack, hkey, hnew⟩ := Link.takeAck_fin hfin hsent hacked
    obtain ⟨hend, hxchg, hfirst, hlater⟩ := Link.finAcked_ends { l with tx := tx }
    rw [hack]
    rw [hkey, hnew] at hlater
    rw [hnew] at hfirst
    exact ⟨hend, hxchg, hfirst, hlater⟩
  case first =>
    rw [State.finArrives_installs hx hstage hgood]
    exact Link.install_first hstate _ _
  case later =>
    rw [State.finArrives_installs hx hstage hgood]
    exact Link.install_later hstate _ _
  case idleRequest =>
    rw [State.startRekey_idle hidle]
    exact ite_self _
  case idleCount =>
    rw [State.startRekey_idle hidle]
    exact ite_self _
  case idleRetry =>
    rw [State.startRekey_idle hidle]
    exact ite_self _
  case open_ =>
    intro hfenced
    exact absurd (hstate.symm.trans hfenced) nofun
  case exhausted =>
    obtain ⟨hrx, htx, hstate, hmem⟩ := s.portDown_fresh d p
    exact ⟨htx, hrx, hstate, hmem⟩

end Sys2Proof.Machine
